-- ==== Sys2Proof/Word.lean ====
section
/-! DEFINITION. The word types of the SX6440 model. Multi-byte fields are little-endian (R8); a bit field NAME[msb:lsb]
is read with bit 0 the least significant bit ("Conventions" of 00_scope). -/

namespace Sys2Proof

/-- One byte of host memory, of the BAR2 window or of a register. -/
abbrev Byte := BitVec 8

/-- A host physical address (R358). -/
abbrev Addr := BitVec 64

/-- A head, its press engine and its lane group: 0 to 3 (scope; R189). -/
abbrev Head := Fin 4

/-- A host layer identifier, 0 to 23 (R50). -/
abbrev Layer := Fin 24

/-- A light channel LC0 to LC63 (R247). -/
abbrev Chan := Fin 64

/-- A primary: 0 red, 1 green, 2 blue. -/
abbrev Colour := Fin 3

end Sys2Proof
end

