-- ==== Sys2Proof/Syntax.lean ====
section
/-! DEFINITION. The commands of the SX6440: one constructor of Instr per row of spec/opcode_table.json. A row is a command on
a mailbox queue, a register access, an event on a pin or on a link, or an instant of the device's own clock. The table gives
the rows no operand bits; the operands are those that the rule of each row names. -/

namespace Sys2Proof

/-- A descriptor of R376 less its OPCODE, which the row names. `queue` is the ring it stands in. -/
structure Desc where
  queue   : Fin 4
  alive   : BitVec 8
  rsv24   : BitVec 8
  crc16   : BitVec 16
  rsv48   : BitVec 16
  tag     : BitVec 32
  rsv96   : BitVec 32
  payload : BitVec 384
deriving DecidableEq, Repr

/-- How a device request on CXL.io or CXL.cache ends in an error (R367): completion timeout, UR or CA, poisoned data. -/
inductive BusError where
  | timeout | urCa | poison
deriving DecidableEq, Repr

/-- The outcome of a shared read of a fence line (R96, R98): its 64 bytes, or an error. -/
inductive ReadResult where
  | data (w : BitVec 512)
  | error (e : BusError)
deriving DecidableEq, Repr

/-- One sample of an optical sense input taken while a channel of its head is open (R263): the plane entry or the line in whose light
window it lies, the time in ns from the opening of that window to the beginning of the aperture and from there to the window's end,
the channels that are open, and the code. -/
structure OsSample where
  entry    : Nat
  after    : Nat
  before   : Nat
  openMask : BitVec 64
  code     : Nat
deriving DecidableEq, Repr

/-- What an optical sense input gives in a tick: its samples, and those taken while every channel of its head diverts. -/
structure OsTick where
  samples : List OsSample
  dark    : List Nat
deriving DecidableEq, Repr

/-- What the analog block measured in the tick that an END closes, by optical sense input. -/
abbrev EndMeas := List (Fin 8 × OsTick)

/-- What the sense inputs give for a window that ends (R252, R257, R258): the time that LCSG was low in ns, the codes of LVS0 to LVS3,
the mean high-side duties over the last 1 µs of the window and over the 1 µs before it, and the mean current over its last 1 µs in
mA. -/
structure ChanMeas where
  ns    : Nat
  lvs   : Vector (BitVec 12) 4
  dPass : Rat
  dDiv  : Rat
  iMean : Rat
deriving DecidableEq, Repr

/-- What the over-current detection of a channel finds (R258): the mean string current over 1 µs in mA, and the consecutive switching
periods in which the peak limit was reached. -/
structure OverMeas where
  iMean : Rat
  peaks : Nat
deriving DecidableEq, Repr

/-- The hardware's check of a boundary (R339): the length of the tick that ends as ROSC measures it, in ns, and whether TICK and the
phases went on as they should. -/
structure TickCheck where
  rosc    : Nat
  counted : Bool
deriving DecidableEq, Repr

/-- One conversion of a thermal sensor: a die sensor's in units of 0.001 degree C, a TS input's voltage in µV (R498). -/
inductive Reading where
  | die (milli : Int)
  | volts (micro : Nat)
deriving DecidableEq, Repr

/-- How a release fence write ends (R99): the store is globally visible; its RdOwn ends in an error; its DirtyEvict is
refused. -/
inductive FenceWrite where
  | done
  | error (e : BusError)
  | refused
deriving DecidableEq, Repr

/-- The link as it comes up or goes down (R350, R352, R370): SPEED code of LINK_STATUS (0 none, 1 to 4), lanes, and whether the
host port supports flit mode at that speed (R353). -/
structure LinkState where
  l0       : Bool
  cxlMode  : Bool
  speed    : Fin 5
  width    : Nat
  hostFlit : Bool
deriving DecidableEq, Repr

/-- The device advertises 256-byte flits at every speed and uses 68-byte flits only where the host port does not support flit mode
(R353); at 64 GT/s there are no 68-byte flits (R350). -/
def LinkState.flit256 (l : LinkState) : Bool := l.hostFlit || l.speed == 4

/-- A configuration request (R350, R359, R360, R369, R416): reads of the identity and of the structures that R359 lists, by their
place in the list, reads and writes of the BARs, of the two device controls and of the AER status, and writes of the controls that
R369 names. -/
inductive CfgReq where
  | readId                       -- Vendor, Device, Revision, Class
  | readSubsystem
  | readStructure (i : Nat)
  | readCapabilities             -- PCIe DVSEC for CXL Devices
  | readLocator                  -- Register Locator DVSEC
  | readBar (i : Fin 7)          -- BAR registers 0 to 5, and 6 for the expansion ROM
  | writeBar (i : Fin 7) (v : BitVec 32)
  | readControl
  | writeTimeout (v : BitVec 5)  -- Device Control 2: the completion timeout value and its disable bit
  | writePayload (v : BitVec 3)  -- Device Control: the Max Payload Size code
  | readAer (correctable : Bool)
  | clearAer (correctable : Bool) (bits : BitVec 32)
  | busMaster (on : Bool)
  | cacheEnable (on : Bool)
  | powerD0
deriving DecidableEq, Repr

/-- The algorithms that a NEGOTIATE_ALGORITHMS offers (R366): ECDSA with P-384, SHA-384, secp384r1, AES-256-GCM. -/
structure AlgOffer where
  p384      : Bool
  sha384    : Bool
  secp384r1 : Bool
  aes256gcm : Bool
deriving DecidableEq, Repr

/-- A Causeway port (R445). -/
inductive Port where
  | up | down
deriving DecidableEq, Repr

/-- A Causeway packet of R446 less its PTYPE, which the row names. `framed` is the outcome of the framing rules of R194. -/
structure Packet where
  port   : Port
  len    : BitVec 8
  dst    : BitVec 9
  bcast  : Bool
  src    : BitVec 9
  arg    : BitVec 21
  chk    : BitVec 8
  words  : List (BitVec 64)
  framed : Bool
deriving DecidableEq, Repr

/-- A back-channel word of R207 less its BTYPE, which the row names: fields in body bits 55:8, CHK in 63:56. -/
structure BackWord where
  fields : BitVec 48
  chk    : BitVec 8
deriving DecidableEq, Repr

/-- The straps of R409 as the balls read. -/
structure Straps where
  bootSrc   : BitVec 2
  chainRole : Bool
  cxlEn     : Bool
deriving DecidableEq, Repr

/-- The safety asset of R321 as the image carries it: its table of 1088 bytes, and the bytes of its atlas that are not 0, by their
offset from byte 1088, in the canonical form of a byte memory. -/
structure RawAsset where
  table : List Byte
  atlas : List Host.Cell
deriving DecidableEq, Repr

/-- One entry of a settings copy (R472). -/
structure SettingsEntry where
  opcode  : BitVec 16
  schema  : BitVec 16
  payload : BitVec 384
  data    : List Byte
deriving DecidableEq, Repr

/-- What the boot finds in the image that it starts (R414, R474): its version and schemas, its SHA-384, its safety asset, its default entries,
and what its migration code makes of each entry of the old settings copy, none where it rejects one. -/
structure BootLoad where
  fwVersion : BitVec 16
  schema    : BitVec 16
  schemaMin : BitVec 16
  digest    : BitVec 384
  asset     : RawAsset
  defaults  : List SettingsEntry
  migration : List (Option SettingsEntry)
deriving DecidableEq, Repr

/-- Why a boot step failed (R402, R414, R415, R431, R340, R322). -/
inductive BootFaultKind where
  | otpVendor | otpIntegrator | noPll | selfTest | imageLoad | signature | asset | noGeneration | straps
deriving DecidableEq, Repr

/-- The integrator block of the OTP fixed region (R428), with its ICRC as programmed. Absent limits are none. -/
structure Integrator where
  locks       : BitVec 8
  pmicAddr    : BitVec 8
  pmicCmd     : BitVec 32
  subsys      : BitVec 32
  leTripMask  : BitVec 16
  leTripLimit : Int
  keyHash     : BitVec 384
  chMap       : Vector (BitVec 8) 64
  weight      : Vector (BitVec 8) 64
  e1          : Vector (Option (BitVec 32)) 12
  e100        : Vector (Option (BitVec 32)) 12
  icrc        : BitVec 32
deriving DecidableEq, Repr

/-- The measurements of one trim set (R424, R425, R435), in the unit of the set's span: the base with every element out, the
quantity as R435 judges it, the contribution of each element, the verified value (three repeats of each) and the target. `place`
is the byte of R430 less 8 for the sets of bytes 8 to 102; offset, gain and delay of channel n are 96 + 3n to 98 + 3n. -/
structure TrimMeas where
  place    : Nat
  base     : Vector Rat 3
  value    : Vector Rat 3
  parts    : Vector (Vector Rat 3) 8
  verified : Vector Rat 3
  target   : Rat
deriving DecidableEq, Repr

/-- What the converters gave for an item of R432: its trim sets, the three φ_cal levels of a channel (units of 1/65536) and its
three slopes S_n (codes per mA), absent where no optical sense input serves the channel. -/
structure CalMeas where
  trims : List TrimMeas
  phi   : Vector Rat 3
  slope : Option (Vector Rat 3)
deriving DecidableEq, Repr

/-- The analog inputs of R433 and R440 as they read at the end of a LATCH: each channel's sensed current in codes, averaged over
100 µs, each optical sense input's dark level at gain step 3, the CAL_REF ball in µV and VPP_OTP in mV. -/
structure CalInputs where
  zero  : Vector Rat 64
  dark  : Vector Nat 8
  refUv : Nat
  vppMv : Nat
deriving DecidableEq, Repr

/-- What the end of a LATCH finds: the measurements of the calibration item whose last step begins here, and the inputs. -/
structure LatchEnd where
  cal    : CalMeas
  inputs : CalInputs
deriving DecidableEq, Repr

/-- A control word of a forward lane (R201): SCHED of an entry, the n-th ECHO of a training. -/
inductive CtrlWord where
  | idle | sched (entry : Nat) | sync | echo (n : Nat) | train
deriving DecidableEq, Repr

/-- A pad read-back mismatch (R217): of a block, or of a control word, whose second copy has left the lane `done` × 250 ps after the
boundary. -/
inductive Readback where
  | block (plane : Nat) (block : Nat)
  | control (word : CtrlWord) (done : Nat)
deriving DecidableEq, Repr

/-- Traffic kinds of CXL_ERROR (R371): 0 surface, 1 fence, 2 canvas read, 3 canvas write, 4 plane read, 5 plane write,
6 record, 15 none. -/
abbrev Traffic := Fin 16

/-- The commands: one constructor per row of spec/opcode_table.json, in the table's order. -/
inductive Instr where
  | deviceInfo (d : Desc)
  | eventMask (d : Desc)
  | settingsRead (d : Desc)
  | settingsWriteMemoryRegion (d : Desc)
  | settingsWriteCanvas (d : Desc)
  | settingsWriteHeadColour (d : Desc)
  | settingsWriteArray (d : Desc)
  | settingsWriteRaster (d : Desc)
  | settingsWritePixelTiming (d : Desc)
  | settingsWriteLink (d : Desc)
  | settingsWriteOs (d : Desc)
  | settingsWriteLine (d : Desc)
  | settingsWriteChain (d : Desc)
  | layerSet (d : Desc)
  | layerEnable (d : Desc)
  | lutLoad (d : Desc)
  | coeffLoad (d : Desc)
  | blendOrderSet (d : Desc)
  | fenceModeSet (d : Desc)
  | commit (d : Desc)
  | headSet (d : Desc)
  | warpLoad (d : Desc)
  | timingSet (d : Desc)
  | planeSeqLoad (d : Desc)
  | dimSet (d : Desc)
  | lightChannelSet (d : Desc)
  | colourTargetSet (d : Desc)
  | lampSet (d : Desc)
  | lampFade (d : Desc)
  | powerQuota (d : Desc)
  | thermalSet (d : Desc)
  | safetyWindowSet (d : Desc)
  | telltaleSet (d : Desc)
  | safeStateRequest (d : Desc)
  | calRun (d : Desc)
  | calCommit (d : Desc)
  | calStatus (d : Desc)
  | updateOpen (d : Desc)
  | updateBlock (d : Desc)
  | updateVerify (d : Desc)
  | updateActivate (d : Desc)
  | updateConfirm (d : Desc)
  | updateAbort (d : Desc)
  | updatePreempt (d : Desc)
  | chainEnumerate (d : Desc)
  | chainSend (d : Desc)
  | sqTail (q : Fin 4) (v : BitVec 8)
  | cqHead (q : Fin 4) (v : BitVec 8)
  | queueEnable (q : Fin 4) (en : Bool)
  | eventRingEnable (w : BitVec 32)
  | evqHead (v : BitVec 16)
  | hostActive (v : Bool)
  | tickMirrorLowRead
  | msixUnmask (vec : Fin 64)
  | registerWrite (bar2 : Bool) (off : Nat) (data : List Byte)
  | tickBoundary (check : TickCheck) (spanCrc : BitVec 32)
  | latchEnd (m : LatchEnd)
  | diagnosticPulse (h : Head) (slot : Nat)
  | driftCheck (h : Head) (pA pB : Nat)
  | showStart (h : Head)
  | planeEntryStart (h : Head) (crc : BitVec 32)
  | shuntGateOpen (h : Head)
  | shuntGateClose (h : Head)
  | canvasBandWritten
  | warpStripeDone (h : Head)
  | buildComplete
  | commitCutoff
  | tickEnd (m : EndMeas)
  | showSpanEnd (h : Head) (crcs : Vector (BitVec 32) 12) (proof : OsTick)
  | transitionEnd
  | commitAbandoned
  | layerDropped (k : Layer)
  | lampFadesDone (line : Fin 4)
  | snpInv (a : Addr)
  | snpData (a : Addr)
  | snpCur (a : Addr)
  | fenceReadComplete (a : Addr) (r : ReadResult)
  | releaseFenceWriteComplete (a : Addr) (r : FenceWrite)
  | surfaceReadError (k : Layer) (plane : Bool) (e : BusError) (a : Addr)
  | canvasAccessError (heads : BitVec 4) (traffic : Traffic) (e : BusError) (a : Addr)
  | planeStoreReadError (h : Head) (plane : Nat) (e : BusError) (a : Addr)
  | recordGloballyObserved
  | recordWriteRetry (e : BusError)
  | eventVectorSignal (vec : Fin 64)
  | cxlLink (l : LinkState)
  | hotReset
  | flr
  | cxlReset
  | busMasterEnableCleared (cacheEnable : Bool)
  | d3hotEntry
  | viral
  | ideIntegrityFailure
  | perstN
  | configurationRequest (r : CfgReq)
  | doeDiscovery (index : Nat)
  | getVersion
  | getCapabilities (body : List Byte)
  | negotiateAlgorithms (offer : AlgOffer) (body : List Byte)
  | getDigests
  | getCertificate (slot offset length : Nat)
  | challenge (slot : Nat) (body : List Byte)
  | getMeasurements (index : Nat) (body : List Byte)
  | keyExchange (slot : Nat) (body : List Byte)
  | finish (macOk : Bool)
  | heartbeat
  | keyUpdate (body : List Byte)
  | endSession
  | planeBlockSend (g : Head) (lane : Fin 8) (late : Bool)
  | ack (g : Head) (w : BackWord)
  | refuse (g : Head) (w : BackWord)
  | status (g : Head) (w : BackWord)
  | resetDone (g : Head) (w : BackWord)
  | backchannelEcho (g : Head) (roundTrip : Nat) (w : BackWord)
  | backchannelTrain (g : Head) (w : BackWord)
  | answerTimeout (g : Head) (plane block : Nat)
  | planeDeadline (h : Head) (plane : Nat)
  | linkReadbackFail (g : Head) (lane : Fin 8) (r : Readback)
  | backchannelSilent (g : Head)
  | arrayTiming (h : Head) (plane : Nat) (missing : Bool)
  | lockLost (g : Head) (lane : Fin 8)
  | trainingStepTimeout (g : Head)
  | linkRetrainRetry (g : Head)
  | rasterSweepEnd (h : Head) (sweep : List (Nat × Nat))
  | rasterLock (h : Head) (milliHz : Nat)
  | rasterAcquireTimeout (h : Head)
  | rasterAcquireRetry (h : Head)
  | rasterLockLost (h : Head)
  | rasterGuardTrip (h : Head) (slow : Bool)
  | rasterLineStart (h : Head) (forward : Bool) (at_ milliHz : Nat)
  | linePacketSend (h : Head) (lane : Fin 8) (at_ : Nat) (late : Bool)
  | channelJudge (c : Chan) (m : ChanMeas)
  | overCurrent (c : Chan) (m : OverMeas)
  | chFaultRestart (c : Chan)
  | gateFault (c : Chan)
  | energyTrip (h : Head) (c : Colour) (long : Bool)
  | lockstepFault
  | clockFault
  | voltageFault
  | monitorFaultClear (voltage : Bool)
  | watchdogExpiry
  | eccError (region : Fin 11) (uncorrectable : Bool) (heads : BitVec 4) (core : Bool) (plane block : Nat)
  | q2Timeout
  | safePathReloadDone (passed : Bool) (asset : RawAsset)
  | thermalSample (r : List (Fin 36 × Reading))
  | throttleStepDue (up : Bool) (group : Bool)
  | substituteHoldEnd (sensor : Fin 36)
  | throttleFreezeLift
  | thermalSensorOk (sensor : Fin 36)
  | thermalTripClear (group : Bool)
  | timingMarginTrip
  | powerOnReset
  | pinReset
  | warmReset
  | resetRelease (straps : Straps) (wakeIn : Bool)
  | bootStart
  | pllLockTimeout
  | readyPoint (b : BootLoad)
  | firstLightTimeout
  | trialTimeout
  | coreHeartbeatTimeout (core : Fin 2)
  | coreRestart (core : Fin 3)
  | calApplied
  | idcode
  | bypass (tdi : Bool)
  | samplePreload (pins : List Bool)
  | extest (cells : List Bool)
  | otpProgrammingInstruction (b : Integrator)
  | echo (p : Packet)
  | echoReply (p : Packet) (roundTrip : Nat)
  | boundary (p : Packet)
  | mode (p : Packet)
  | vote (p : Packet)
  | cap (p : Packet)
  | enum (p : Packet)
  | enumReport (p : Packet)
  | enumEnd (p : Packet)
  | enumCut (p : Packet)
  | enumReq (p : Packet)
  | enumTimeout
  | chainBoundaryMiss
  | blockStart (p : Packet)
  | segment (p : Packet)
  | blockAck (p : Packet)
  | blockIncompleteTimeout
  | updCtrlOpen (p : Packet)
  | updCtrlVerify (p : Packet)
  | updCtrlActivate (p : Packet)
  | updCtrlAbort (p : Packet)
  | updCtrlDisarm (p : Packet)
  | updResp (p : Packet)
  | cmd (p : Packet)
  | cmdData (p : Packet)
  | cmdResp (p : Packet)
  | cmdRespTimeout
  | evt (p : Packet)
  | evtAck (p : Packet)
  | evtAckTimeout
  | cwPortSilent (p : Port)
  | cwDelayRemeasure (p : Port)
  | cwTrainingRetry (p : Port)
  | unassignedOpcode (op : BitVec 16) (d : Desc)
  | badAccessRead (bar2 : Bool) (off size : Nat)
  | ideKm (secured : Bool) (key : BitVec 256)
  | cxlKp (secured : Bool) (key : BitVec 256)
  | aerErrorLog (kind : Fin 7) (traffic : Traffic) (a : Addr)
  | pmicWriteDone (ok : Bool)
  | flashSliceDone (finished ok : Bool)
  | otpSeriesDone (ok : Bool)
  | bootFault (k : BootFaultKind)
  | cwLockLost (p : Port)
deriving DecidableEq, Repr

end Sys2Proof
end

