-- ==== Sys2Proof/Decode.lean ====
section
/-! DEFINITION. spec/opcode_table.json gives its rows no bits: no word spells a command, and the decoder over those rows
answers none for every word (log entry 13). What a mailbox row's 64 bytes hold is R376's, in Machine/Operands.lean. -/

namespace Sys2Proof

/-- The command that a word spells by the table's bits: no row gives bits. -/
def decodeTableWord (_nbits _w : Nat) : Option Instr := none

end Sys2Proof
end

