-- ==== Sys2Proof/Config.lean ====
section
/-! DEFINITION. What an implementation or the world outside fixes and the spec leaves open. Every constant here is opaque:
no proof can see a value of it. -/

namespace Sys2Proof

/-- The byte that a read of host memory outside the device's own stores returns: host memory belongs to the host (R358), so
its content is free. The first argument is the TICK of the read, the second the address. Log entry 6. -/
opaque Config.hostByte : Nat → Nat → BitVec 8

/-- Any value that the spec leaves undefined or unstated, one per draw: State.free counts the draws. Log entry 5. -/
opaque Config.freeValue : Nat → BitVec 64

/-- R176: each dimming step is held with an error of at most one unit of 2^-31. True: the step is rounded up where it may
be; false: down. The arguments are the ramp value, the target and the steps left. Log entry 17. -/
opaque Config.rampRoundsUp : Nat → Nat → Nat → Bool

/-- The time that a VOTE takes from the device of an address to the head device, in 2 ns units (R146). Log entry 85. -/
opaque Config.voteTransit : Nat → Nat

/-- SHA-384 (R366, R414, R461), uninterpreted: the spec names the function and does not define it. Log entry 26. -/
opaque Config.sha384 : List (BitVec 8) → BitVec 384

/-- ECDSA P-384 verification (R414, R467): public key, digest, signature. Uninterpreted. Log entry 26. -/
opaque Config.ecdsaOk : BitVec 768 → BitVec 384 → BitVec 768 → Bool

/-- The bytes of an SPDM response that depend on keys, nonces and hashes (R366). Log entry 27. -/
opaque Config.spdmBytes : Nat → List (BitVec 8) → List (BitVec 8)

/-- The serial number and the process code that Gorolane programs into the vendor block of this device (R428). -/
opaque Config.serial : BitVec 64
opaque Config.process : BitVec 8

/-- IDENTITY_SECRET of the vendor block (R428): the root of the SPDM key, readable by no interface. -/
opaque Config.identitySecret : BitVec 256

/-- The digest of the boot ROM, measurement block 1 of R366. -/
opaque Config.romDigest : BitVec 384

/-- R405: the core voltage target, in 5 mV steps above 650 mV, that the device chooses at an END from the process code, the
die maximum and its timing-margin detectors. The spec bounds the choice and does not state it. Log entry 28. -/
opaque Config.coreTarget : Nat → BitVec 6

/-- R323: whether a tell-tale that is set to blink and whose BLINK_TICKS is 0 is lit: R322 forbids such an asset only where
the asset itself lets the tell-tale blink. Arguments: TICK and the tell-tale. Log entry 29. -/
opaque Config.zeroBlink : Nat → Nat → Bool

/-- R63: each result of the YCbCr conversion is within ±1 code of the exact value; which of the codes it is. The argument lists
matrix, range, the samples in sixteenths and the colour. Log entry 37. -/
opaque Config.yccPick : List Nat → Nat

/-- R313: the value that a sensor of a blind group carries when it has never given a valid one, in 0.001 °C; the argument is the
sensor. Log entry 45. -/
opaque Config.neverRead : Nat → Int

/-- R263: the dark level of an optical sense input in a tick in which it took no sample while every channel diverted. The argument is
the input. Log entry 72. -/
opaque Config.noDark : Nat → Int

/-- R332: the glyph bit of the line of a raster head in which a sample of the proof input falls. The rule names the glyph bit of an
entry, and a line carries all four. The argument is the line. Log entry 73. -/
opaque Config.lineBit : Nat → Fin 4

end Sys2Proof
end

