-- ==== Sys2Proof/Machine/State.lean ====
section
/-! DEFINITION. The state of the SX6440: every register, record, FIFO, buffer, counter, mode and pin that the spec gives the
block, and the state right after reset. Reset values of field-map fields are those of the maps; a field whose map gives "—"
starts at 0 (log entry 1). Times are counted in units of 2 ns, the grid of R19. -/

namespace Sys2Proof.Machine

/-- No meaning ends in a fault: every command of the table is given an effect, so this type has no constructor (safe). -/
inductive Fault : Type
deriving DecidableEq, Repr

/-- A row without a meaning. No arm raises it; it stands for the interface (safe). -/
inductive Refusal where
  /-- The row named has no meaning yet; only exec's own arms may raise it; safe. -/
  | notModelled (mnemonic : String)
deriving DecidableEq, Repr

/-! ## Configuration: what the configuration commands and the settings records hold -/

/-- A pre-blend or post-blend table (R65, R80): the identity at reset, or the loaded entries of red, green and blue. -/
inductive Lut where
  | identity
  | table (r g b : List Nat)
deriving DecidableEq, Repr

/-- A polyphase coefficient set (R69, R73): linear interpolation at reset, or the loaded taps, phase by phase. -/
inductive Coeffs where
  | linear
  | table (taps : List Int)
deriving DecidableEq, Repr

/-- The sh fields of LAYER_SET (02, "Commands"). -/
structure LayerSh where
  format     : Nat
  gtc        : Bool
  alphaMode  : Nat
  lutBypass  : Bool
  yccMatrix  : Nat
  yccRange   : Bool
  chroma     : Bool
  coeffH     : Nat
  coeffV     : Nat
  galpha     : Nat
  pitch0     : Nat
  pitch1     : Nat
  surfW      : Nat
  surfH      : Nat
  srcX       : Nat
  srcY       : Nat
  srcW       : Nat
  srcH       : Nat
  dstX       : Int
  dstY       : Int
  dstW       : Nat
  dstH       : Nat
  base0      : Nat
  base1      : Nat
deriving DecidableEq, Repr

/-- A host layer: its LAYER_SET fields, TWO_PASS (st), its enable bit (R75) and its tables (R84, R85). -/
structure LayerCfg where
  sh      : LayerSh
  twoPass : Bool
  enable  : Bool
  pre     : Lut
  palette : List Nat
deriving DecidableEq, Repr

/-- The canvas record (R79) and the post-blend table. -/
structure CanvasCfg where
  w          : Nat
  h          : Nat
  postBypass : Bool
  bg         : Vector Nat 3
  post       : Lut
deriving DecidableEq, Repr

/-- The memory-region record (R35). -/
structure MemCfg where
  canvasBase : Nat
  canvasMib  : Nat
  planeBase  : Nat
  planeMib   : Nat
deriving DecidableEq, Repr

/-- The sh fields of HEAD_SET. -/
structure HeadSh where
  enable : Bool
  eyeEn  : Bool
  edge   : Bool
  kernel : Nat
  winX   : Nat
  winY   : Nat
  winW   : Nat
  winH   : Nat
deriving DecidableEq, Repr

/-- A stored main mesh or offset mesh set (R119 to R122). `pts` holds the words in staged order; a point that the list does
not hold is (0, 0), so that the identity mesh of R124 is the empty list. -/
structure Mesh where
  spx    : Nat
  spy    : Nat
  mx     : Nat
  my     : Nat
  kfetch : Nat
  pts    : List (Int × Int)
deriving DecidableEq, Repr

/-- One entry of a plane sequence table (R158); `pulse` in units of 250 ps. -/
structure SeqEntry where
  colour : Colour
  bit    : Nat
  pulse  : Nat
deriving DecidableEq, Repr

/-- A plane sequence table (R157). -/
structure PlaneSeq where
  depth   : Nat
  repeats : Nat
  entries : List SeqEntry
deriving DecidableEq, Repr

/-- The array record (R156). -/
structure ArrayCfg where
  tSettle    : Nat
  tReset     : Nat
  tMinPlane  : Nat
  rxPlanes   : Nat
  levelFloor : Nat
  dither     : Nat
deriving DecidableEq, Repr

/-- The raster record (R228), less its ro fields. -/
structure RasterCfg where
  fNom       : Nat
  track      : Nat
  ampSet     : Nat
  ampMin     : Nat
  slowTop    : Int
  slowBot    : Int
  tRetrace   : Nat
  slowTol    : Nat
  trimF      : Int
  trimR      : Int
  levelFloor : Nat
  dither     : Nat
deriving DecidableEq, Repr

/-- The pixel timing table (R233): uniform at reset, or the loaded edges. -/
inductive RTable where
  | uniform
  | table (edges : List Nat)
deriving DecidableEq, Repr

/-- The colour table (R267): every entry 0x4000 at reset, or the loaded points (A, E, V), 17 per colour. -/
inductive CTable where
  | unity
  | table (points : List (Nat × Nat × Nat))
deriving DecidableEq, Repr

/-- The lv settings of a head's colour loops (COLOUR_TARGET_SET). -/
structure LoopCfg where
  en    : Nat
  gain  : Nat
  ticks : Nat
deriving DecidableEq, Repr

/-- All that the configuration holds of one head. `colour` is the record of R135 in the order of its map: M_RR, M_RG, M_RB,
O_R, M_GR, M_GG, M_GB, O_G, M_BR, M_BG, M_BB, O_B. -/
structure HeadCfg where
  sh      : HeadSh
  raster  : Bool
  outW    : Nat
  outH    : Nat
  colour  : Vector Int 12
  arr     : ArrayCfg
  ras     : RasterCfg
  rtable  : RTable
  rtOff   : Nat
  rtCrc   : Nat
  mesh0   : Mesh
  mesh1   : Mesh
  offs    : Mesh
  seq     : Option PlaneSeq
  ctable  : CTable
  tgt     : Vector Nat 3
  loop    : LoopCfg
deriving DecidableEq, Repr

/-- A line-match comparator (R149). -/
structure LmCfg where
  src  : Nat
  head : Head
  line : Nat
deriving DecidableEq, Repr

/-- The tick group of TIMING_SET, in µs (R15). -/
structure TickGroup where
  tmin : Nat
  tmax : Nat
  tcut : Nat
deriving DecidableEq, Repr

/-- The show group of TIMING_SET (R139): µs, and skews in units of 2 µs. -/
structure ShowGroup where
  blankLen : Nat
  showLen  : Nat
  skew     : Vector Nat 4
deriving DecidableEq, Repr

/-- The scan-out group of TIMING_SET. -/
structure ScanGroup where
  underrunRepeat : Nat
  chainVote      : Bool
  lm             : Vector LmCfg 2
deriving DecidableEq, Repr

/-- The lv fields of LIGHT_CHANNEL_SET. -/
structure ChanLv where
  enable  : Bool
  driftEn : Bool
  vOpen   : Nat
  vShort  : Nat
  tolTh   : Nat
  tolEff  : Nat
deriving DecidableEq, Repr

/-- The st fields of LIGHT_CHANNEL_SET. -/
structure ChanSt where
  led     : Bool
  head    : Head
  colour  : Colour
  tsSel   : Nat
  tsEn    : Bool
  supply  : Nat
  fSw     : Nat
  iMax    : Nat
  rshunt  : Nat
  iTh     : Nat
  lNh     : Nat
  dt      : Nat
  phase   : Nat
  lvsDiv  : Nat
  ocLevel : Nat
deriving DecidableEq, Repr

structure ChanCfg where
  lv : ChanLv
  st : ChanSt
deriving DecidableEq, Repr

/-- The OS record (R265). -/
structure OsCfg where
  enable    : Bool
  head      : Head
  colours   : Nat
  gainMode  : Nat
  darkLimit : Nat
deriving DecidableEq, Repr

/-- The lv fields of the line record (R281). -/
structure LineLv where
  enable : Bool
  tRef   : Int
  kt     : Vector Int 3
  safe   : Vector Nat 3
deriving DecidableEq, Repr

/-- The st fields of the line record (R281). -/
structure LineSt where
  order   : Nat
  tsEn    : Bool
  tsSel   : Nat
  nodes   : Nat
  latchUs : Nat
deriving DecidableEq, Repr

structure LineCfg where
  lv : LineLv
  st : LineSt
deriving DecidableEq, Repr

/-- POWER_QUOTA (10, "Commands"). -/
structure QuotaCfg where
  light  : Nat
  device : Nat
  svcL   : Nat
  bgL    : Nat
  svcD   : Nat
  bgD    : Nat
  resetE : Vector Nat 4
deriving DecidableEq, Repr

/-- The thresholds of one sensor group (THERMAL_SET): units of 0.125 °C and 0.01 K/s, signed. -/
structure ThermGroup where
  arm       : Int
  warn      : Int
  act       : Int
  rel       : Int
  slopeWarn : Int
  slopeAct  : Int
  slopeHot  : Int
deriving DecidableEq, Repr

structure ThermCfg where
  die       : ThermGroup
  le        : ThermGroup
  leMask    : BitVec 16
  subOffset : Nat
  tsPair    : Vector (Fin 16) 16
  atEn      : Bool
deriving DecidableEq, Repr

/-- The link record (R220), less its ro fields. -/
structure LinkCfg where
  txPol    : Nat
  rxPol    : Bool
  rateMax  : Nat
  errLimit : Nat
deriving DecidableEq, Repr

/-- The safety window of a head (SAFETY_WINDOW_SET): SHOW and SAFE_LEVEL are lv, the rest st. -/
structure WinCfg where
  shown   : Bool
  level   : Vector Nat 3
  proofOs : Nat
  wx      : Nat
  wy      : Nat
deriving DecidableEq, Repr

/-- FENCE_MODE_SET (R100). -/
structure FenceCfg where
  layered : Bool
  hold    : Nat
  abandon : Nat
deriving DecidableEq, Repr

/-- The chain record's written fields (R478), RELAY_HEAD apart. -/
structure ChainCfg where
  evtFwd    : Bool
  relayEn   : Bool
  relaySize : Nat
  relayBase : Nat
deriving DecidableEq, Repr

/-- The configuration as one piece of data: the live values, or a prospective state of R512. -/
structure Cfg where
  mem      : MemCfg
  canvas   : CanvasCfg
  layers   : Vector LayerCfg 24
  coeffs   : Vector Coeffs 32     -- index (layer * 4 + set) * 2 + axis
  progOrder : Bool
  slots    : Vector Nat 24
  fence    : FenceCfg
  heads    : Vector HeadCfg 4
  tick     : TickGroup
  span     : ShowGroup
  scan     : ScanGroup
  chans    : Vector ChanCfg 64
  os       : Vector OsCfg 8
  lines    : Vector LineCfg 4
  quota    : QuotaCfg
  therm    : ThermCfg
  links    : Vector LinkCfg 4
  wins     : Vector WinCfg 4
  ttOn     : BitVec 64
  ttBlink  : BitVec 64
  chain    : ChainCfg
  eye      : Nat
  dropped  : BitVec 24         -- layers dropped under R103; a part that applies for a layer brings it back
deriving DecidableEq, Repr

/-- A staged load (R82 to R84): its place in the BAR2 window, its CRC, and the bytes that the check at execution read. -/
structure Load where
  off   : Nat
  crc   : BitVec 32
  bytes : List Byte
deriving DecidableEq, Repr

/-- One write that waits for a LATCH: an sh write, an lv write, or an lv write held with sh fields (R43 to R45). -/
inductive CfgWrite where
  | layer (k : Layer) (v : LayerSh)
  | layerEnable (k : Layer) (on : Bool)
  | preLut (k : Layer) (ld : Load)
  | palette (k : Layer) (ld : Load)
  | coeff (k : Fin 4) (set : Fin 4) (axis : Bool) (ld : Load)
  | postLut (ld : Load)
  | canvas (postBypass : Bool) (bg : Vector Nat 3)
  | blend (prog : Bool) (slots : Vector Nat 24)
  | fence (v : FenceCfg)
  | head (h : Head) (v : HeadSh)
  | headColour (h : Head) (m : Vector Int 12)
  | mesh (h : Head) (kind : Fin 3) (both : Bool) (ld : Load)
  | seq (h : Head) (ld : Load)
  | rtable (h : Head) (ld : Load)
  | ctable (h : Head) (ld : Load)
  | tgt (h : Head) (v : Vector Nat 3)
  | loop (h : Head) (v : LoopCfg)
  | arrDither (h : Head) (n : Nat)
  | rasDither (h : Head) (n : Nat)
  | rasTrim (h : Head) (f r : Int)
  | tick (v : TickGroup)
  | span (v : ShowGroup)
  | scan (v : ScanGroup)
  | dim (h : Head) (g ramp : Nat)
  | errLimit (g : Head) (n : Nat)
  | os (i : Fin 8) (enable : Bool) (gainMode darkLimit : Nat)
  | line (i : Fin 4) (v : LineLv)
  | chan (c : Chan) (v : ChanLv)
  | faultClear (c : Chan)
  | lampTargets (i : Fin 4) (first : Nat) (v : List (Vector Nat 3))
  | lampFade (i : Fin 4) (first count : Nat) (scurve : Bool) (ms : Nat)
  | quota (v : QuotaCfg)
  | therm (v : ThermCfg)
  | win (h : Head) (shown : Bool) (level : Vector Nat 3)
  | telltale (select on blink : BitVec 64)
  | chain (evtFwd relayEn : Bool)
  | eye (v : Nat)
deriving DecidableEq, Repr

/-! ## Commit, fences and buffers (03) -/

/-- An entry of a record's fence list (03, COMMIT). -/
structure FenceEntry where
  layer     : Layer
  acq       : Option (Nat × BitVec 64)
  signalled : Bool
  since     : Nat                -- the instant of that judgement
  held      : Bool               -- signalled by the last cut-off (R97, R102)
  rel       : Option (Nat × BitVec 64)
deriving DecidableEq, Repr

/-- A commit record (R87). `deferred` lists the layer parts still deferred with their deferral counts (R102, R103). -/
structure Record where
  tag       : BitVec 32
  writes    : List CfgWrite
  fences    : List FenceEntry
  execTick  : Nat
  layered   : Bool
  valid     : Bool
  since     : Nat              -- the instant at which it became valid
  marked    : Bool             -- valid at the last cut-off (R93)
  doomed    : Bool             -- not ready at the cut-off of tick N + ABANDON_TICKS (R101)
  late      : Bool
  applied   : Bool            -- its common part has applied
  deferred  : List (Layer × Nat)
deriving DecidableEq, Repr

/-- What the live buffer of a layer carries: the tag of the record that named it and the attached release fence (R107);
whether a record has named it at all, and whether it has been released and not been enabled since (R106). -/
structure Buffer where
  tag      : BitVec 32
  fence    : Option (Nat × BitVec 64)
  named    : Bool
  released : Bool
deriving DecidableEq, Repr

/-- A release that is due at the LATCH that begins tick `due` (R106). -/
structure Release where
  due    : Nat
  layer  : Layer
  reason : Nat
  tag    : BitVec 32
  base0  : Nat
  fence  : Option (Nat × BitVec 64)
deriving DecidableEq, Repr

/-- Cache line state of the device cache (R355). A line that is absent is not listed. -/
inductive LineState where
  | shared | modified
deriving DecidableEq, Repr

/-- A fence line (R95, R96): its 64-byte line address, whether a read of it is outstanding, and whether it is cached. -/
structure FenceLine where
  line    : Nat
  reading : Bool
  failed  : Bool               -- the last read failed; it is read again at every END (R98)
  cached  : Option LineState
deriving DecidableEq, Repr

/-- A release fence write waits for one of the 8 transient lines (R355), is issued, or has failed and is written again at every
END (R99). -/
inductive RelState where
  | waiting | issued | failed
deriving DecidableEq, Repr

/-- A release fence write that has not yet succeeded (R99), or must be written again before an event is delivered again (R112):
`event` is the SEQ of that event. -/
structure RelWrite where
  addr  : Nat
  value : BitVec 64
  tag   : BitVec 32
  st    : RelState
  event : Option (BitVec 32)
deriving DecidableEq, Repr

/-- An event that a LATCH causes and that is not yet recorded: the order of R510 holds it behind a release fence whose write
is not yet globally visible (R99, R106). -/
inductive LatchItem where
  | event (src : Nat) (code : BitVec 16) (payload : Nat)
  | release (r : Release) (issued : Bool)
deriving DecidableEq, Repr

/-- What FLIP says of a frame (R111). -/
structure FrameInfo where
  tag     : BitVec 32
  isNew   : Bool
  late    : Bool
  merged  : Nat
  held    : BitVec 24
  dropped : BitVec 24
deriving DecidableEq, Repr

/-- The commit engine (03). -/
structure CommitDyn where
  records  : List Record
  lvAtCut  : Nat               -- pending lv writes at the last cut-off (R454)
  lines    : List FenceLine
  bufs     : Vector Buffer 24
  releases : List Release
  relWrites : List RelWrite
  latchQ   : List LatchItem    -- events of the running LATCH not yet recorded
  build    : FrameInfo         -- of the frame being built
  shown    : FrameInfo         -- of the frame being shown
deriving DecidableEq, Repr

/-! ## The tick (01, 05) -/

/-- The six phases of R21, in code order. -/
inductive Phase where
  | latch | blank | show | built | cut | finish
deriving DecidableEq, Repr

/-- Boundary reason of BLANK_START (R148). -/
inductive Reason where
  | held | paced | tmax | aligned
deriving DecidableEq, Repr

/-- The tick generator. Instants are in units of 2 ns (R19) of the device's own time `now`. -/
structure Clock where
  now       : Nat
  tick      : Nat              -- TICK, 48 bits (R11)
  phase     : Phase
  start     : Nat              -- the boundary that began this tick
  held      : Bool             -- a tick 0 that waits for boot start (R413)
  validAt   : Option Nat       -- instant at which a commit counted as accepted in this tick (R17, R92)
  cutAt     : Option Nat       -- the cut-off, once passed
  boundary  : Option Nat       -- the boundary fixed at the cut-off
  reason    : Reason
  prevLen   : Nat
  prevReason : Reason
  prevNone  : Bool             -- NO_PREV of R148
  built     : Bool             -- the trigger of BUILT has come
  shown     : Bool             -- the trigger of SHOW has come
  effTmin   : Nat              -- effective Tmin of this tick, µs (R139)
  nextTmin  : Nat              -- effective Tmin that the last END formed
  bwTmin    : Nat              -- bandwidth figure of R42, 0 when not in force
  bwSafe    : Bool             -- step 3 of R42 holds
  alignTo   : Option Nat       -- R14: TICK that the next boundary sets
  trans     : Option Nat       -- the tick at whose LATCH the dark transition ends (R153)
  lmRaised  : Vector Bool 2
  lmOut     : Vector Bool 2
deriving DecidableEq, Repr

/-- The compositor's progress and per-tick errors (R60, R81, R149). -/
structure CompDyn where
  band      : Nat              -- 64-line bands written in this tick
  errLine   : Vector (Option Nat) 24
  gtcFirst  : Vector (Option (Nat × Nat)) 24
  gtcCount  : Vector Nat 24
  hostBuild : Bool             -- the build of this tick uses host memory (R369)
deriving DecidableEq, Repr

/-! ## Heads, link groups, scanners -/

/-- What a head shows in the present tick. -/
inductive HeadMode where
  | off | host | subst | safe | dark
deriving DecidableEq, Repr

/-- How a frame buffer was pressed (R170, R181, R178): the sequence, the dimming point and the raster scale S. -/
structure Pressed where
  seq  : Option PlaneSeq
  g    : Nat
  scale : Nat
deriving DecidableEq, Repr

/-- The run-time state of one head. -/
structure HeadDyn where
  mode      : HeadMode
  building  : Bool
  done      : Bool             -- the build of this tick is complete
  cut       : Bool             -- the build of this tick was cut (R26)
  stripes   : Nat
  hasFrame  : Bool             -- there is a frame to repeat (R150)
  substs    : Nat              -- consecutive substitutions
  buf       : Bool             -- the buffer shown (R181)
  pressed   : Vector Pressed 2
  lead      : Nat              -- LEAD_k, 10 ns
  schedFail : Bool             -- R165
  showing   : Bool             -- inside the show span
  spanDone  : Bool             -- the show span of this tick has ended
  entry     : Nat              -- entries started in this show span
  gateOpen  : Bool
  darkPlanes : Nat
  lateRaised : Bool            -- UNDERRUN cause 1 raised in this tick
  gR        : Nat              -- ramp value, unsigned 1.31 (R176)
  gT        : Nat
  steps     : Nat
  reached   : Bool             -- DIM_REACHED raised for the target
  grant     : Bool             -- the step or rise that the last END granted (R177)
  gBuild    : Nat              -- dimming point of the frame being built
  gShow     : Nat              -- dimming point of the frame being shown
  cap       : Nat              -- light cap c_h, unsigned 1.31 (R298)
  tgt       : Vector Nat 3     -- TGT in use: the live target, less a rise that is held (R273, R275)
  heldDim   : Bool             -- DIM_HELD raised for this target
  resetOk   : Bool             -- KIND 2 granted for this tick (R296)
  fills     : Nat              -- tile fills of the build (R134)
  fetchOver : Bool
  winLost   : Bool             -- a KIND 1 block or window packet lost in this tick (R329)
  winLostPrev : Bool
  proofBad  : Nat              -- consecutive ticks with an invalid proof (R333)
  proofTold : Bool
  proven    : BitVec 3         -- colours with a valid pass since the layout changed (R332)
  provenTold : Bool
  rhoP      : Vector Nat 3     -- ρ_p of each colour at its pass, units of 1/32 768
  proofVoid : Bool             -- an energy trip voids this tick's proof (R344)
  readyWin  : Bool             -- ready under R418
  safeGrant : Bool             -- SAFETY grant for the safe sequence
  diag      : List Chan        -- channels due for a diagnostic pulse in this tick, in slot order (R259)
  driftNext : Nat              -- channel from which the next drift check is sought (R261)
  driftOk   : Bool             -- drift checks granted for this tick (KIND 7)
  driftDone : Nat              -- drift checks taken in this tick
deriving DecidableEq, Repr

/-- A block of a plane in flight on a lane (R209, R210). -/
structure Flight where
  plane    : Nat
  block    : Nat
  resends  : Nat
  waiting  : Bool              -- transmitted and awaiting an answer; else due for (re-)sending
  data     : List Byte         -- what the re-send buffer holds of it: the host's bytes, before the window is merged in (R199, R210)
deriving DecidableEq, Repr

/-- Steps of a training attempt (R213). -/
inductive TrainStep where
  | lock | equalise | echo | ready
deriving DecidableEq, Repr

/-- One lane group (07). RATE_NOW and STATE are coded as in R220. -/
structure LinkDyn where
  rateNow   : Nat
  state     : Nat
  newRate   : Option Nat       -- a rate that takes effect at the next LATCH (R215)
  lastRate  : Nat              -- the last successful training's rate, 0 none (R163)
  step      : Option TrainStep
  attempt   : Nat              -- attempts of the running policy made so far
  wanted    : Bool             -- a training is to be asked for at the next END
  granted   : Bool
  retryTick : Option Nat
  locked    : BitVec 8
  eqDone    : BitVec 8
  ffe       : Vector (Nat × Nat) 8   -- pre-cursor and post-cursor codes (R499)
  echoes    : Vector (BitVec 16) 8    -- replies heard, by the number in their TAG (R213)
  delaySum  : Vector Nat 8
  delays    : Vector Nat 8     -- one-way delay, 250 ps
  dlMax     : Nat
  resent    : Nat
  lost      : Nat
  readback  : Nat
  trains    : Nat
  refusals  : Nat              -- counts of this tick (R221)
  timeouts  : Nat
  mismatches : Nat
  blocksLost : Nat
  overTicks : Nat              -- consecutive ticks over ERR_LIMIT (R216)
  ready     : Bool
  parked    : Bool
  fault     : Bool
  rxHeld    : Nat              -- RX_PLANES reported
  mismatch  : Bool
  temp      : Int              -- 0.125 °C
  sentSched : Option PlaneSeq  -- the schedule last sent; none before the first
  schedKnown : Bool
  schedSafe : Bool             -- the schedule last sent was the safe sequence
  resume    : Bool             -- sending resumes at the next boundary (R212)
  stopping  : Bool             -- sending stops at the next entry boundary (R212)
  stopped   : Bool             -- only IDLE words (R212)
  next      : Vector Nat 8     -- next first transmission of each lane: plane * 4096 + the block's index on the lane
  flights   : List Flight
  lostPlanes : List (Nat × Nat)   -- planes with lost blocks in this tick and how many
  timingRaised : Bool
  dark      : List Nat         -- planes sent dark in this tick (R151)
  badBlocks : Nat              -- blocks that failed read-back in this tick (R216, R217)
  acked     : List Flight      -- blocks of this tick that have been acknowledged; a failed read-back takes one back (R219)
  retried   : List (Fin 8 × CtrlWord)   -- timing words of this tick that have been sent a second time (R329)
  scram     : Vector (BitVec 58) 8      -- the last 58 bits that each lane has sent, oldest in bit 0 (R192)
deriving DecidableEq, Repr

/-- The fast-axis drive (R223, R224): a sine at the tracked frequency, at a tenth of full scale during the sweep, then rising to
AMP_SET and held there. -/
inductive FastDrive where
  | off | sweep | rising | held
deriving DecidableEq, Repr

/-- The slow-axis target in sense codes (R226): none; held; a raised-cosine retrace between two positions, from an instant of the
tick in µs and for T_RETRACE, held where it ends; a ramp over a line. -/
inductive SlowTarget where
  | off
  | held (at_ : Rat)
  | retrace (start_ end_ : Rat) (startUs us : Nat)
  | ramp (start_ end_ : Rat)
deriving DecidableEq, Repr

/-- The scanner of a head (08). SCAN_STATE: 0 stopped, 1 acquiring, 2 locked, 3 fault. -/
structure RasterDyn where
  scan      : Nat
  fNow      : Nat              -- 0.001 Hz
  ramping   : Bool             -- the sweep is over, the amplitude rises
  drive     : FastDrive
  slow      : SlowTarget
  retryTick : Option Nat
  guard     : Bool             -- the guard is tripped (R227)
  line      : Nat              -- lines started in this tick
  lineFwd   : Bool             -- the direction of the last line start
  lineAt    : Option Int       -- the last line start, in 250 ps from the boundary (R229)
  gateUsed  : Bool             -- the gates have conducted in the present line (R237)
  linesOver : Bool             -- the last line of the frame has ended (R230)
  packet    : Nat              -- line packets of this tick sent for the first time: y * NPK + p of the next
  flights   : List Flight
  lostLines : List Nat         -- lines with a lost packet in this tick, in order
  tableDue  : Bool             -- table packets to send in this tick (R243)
  tableNext : Nat
  tableLost : Bool
  scnEn     : Bool             -- SCNENk (R489)
deriving DecidableEq, Repr

/-! ## Light, colour, lamps (09) -/

/-- One light channel. STATE: 0 off, 1 starting, 2 running, 3 fault (R276). -/
structure ChanDyn where
  state     : Nat
  cause     : Nat
  latched   : Bool
  ref       : Nat
  tEnd      : Rat              -- T_n as the last END read it, °C (R266)
  iCmd      : Rat                -- mA
  iMeas     : Nat
  vS        : Nat              -- 10 mV
  vKnown    : Bool
  theta     : Rat                -- θ_n, mA
  thetaTarget : Rat
  tEff      : Rat                -- effective temperature of R271, °C
  unjudged  : Nat              -- UNJUDGED of R276
  since     : Nat              -- ticks since the channel was last judged (R259), saturating at 0xFFFF
  sinceDrift : Nat
  driftTold : BitVec 8         -- causes 3 and 4 already raised
  lastOver  : Option Nat       -- tick of the last over-current
  restart   : Option Nat       -- tick of the automatic restart
  gateOpen  : Bool             -- LCSG low
  opened    : Bool             -- LCSG has been low since the channel was last judged in this tick (R257)
  bucksOff  : Bool             -- LCGH and LCGL both low
  started   : Bool             -- a grant of R273 has lit it
deriving DecidableEq, Repr

/-- The loop of one head and colour (R269 to R272). -/
structure LoopDyn where
  kappa     : Rat
  kappaTarget : Rat
  rho       : Rat
  rhoRef    : Option Rat
  frozen    : Bool
  fresh     : Bool             -- the next valid measurement sets rho_f (R270)
  relative  : Bool
  limitTold : Bool
  heldTold  : Bool
deriving DecidableEq, Repr

structure OsDyn where
  step      : Nat
  satTicks  : Nat
  faulty    : Bool
  sat       : Bool             -- a reading of this tick has reached 65 000 codes (R264)
deriving DecidableEq, Repr

/-- One lamp node (R282). -/
structure Node where
  target : Vector Nat 3
  start  : Vector Nat 3
  shown  : Vector Nat 3
  scurve : Bool                -- of the next target
  ms     : Nat
  runS   : Bool                -- of the running fade
  runMs  : Nat
  elapsed : Nat                -- 2 ns units since the fade began
  fading : Bool
deriving DecidableEq, Repr

structure LineDyn where
  nodes   : Vector Node 128
  noFit   : Bool
  tEnd    : Rat                  -- T of R283 as the last END read it, °C
  doneDue : Bool               -- a fade ended and LAMP_FADES_DONE is owed
deriving DecidableEq, Repr

/-! ## Sluice and thermal management (10) -/

structure SluiceDyn where
  qL       : Nat
  qD       : Nat
  floorL   : Nat
  floorD   : Nat
  estL     : Nat
  rated    : Nat
  capF     : Rat               -- the common factor of the cut (log entry 57)
  slice    : Bool              -- a flash slice is granted for the next tick (KIND 4)
  series   : Bool              -- an OTP series is granted for the next tick (KIND 5)
  shed     : Bool
  capping  : Bool              -- a cut is being stepped (R298, R299)
  belowL   : Bool              -- QUOTA_BELOW_FLOOR raised for the present write
  belowD   : Bool
  wroteQuota : Bool            -- a POWER_QUOTA has completed since the last END
  seenLv   : Nat               -- pending lv writes that the snapshot of the last END held (R293)
  deferTold : List (Nat × Nat) -- class and KIND of the running deferral episodes
  lastL    : Nat               -- amount granted for the current tick
  lastD    : Nat
deriving DecidableEq, Repr

/-- One sensor of R303. -/
structure Sensor where
  tried   : Bool               -- a conversion has been made
  seen    : Bool               -- a conversion in range has been made
  last    : Rat                  -- last valid conversion, °C
  raw     : Option Rat           -- what the last conversion gave; none for an open or short code
  tf      : Rat                  -- filtered, °C
  failed  : Bool
  cause   : Nat
  sub     : Option Rat           -- substitute of the failed sensor
  hold    : Bool               -- R312 step 2 runs
  holdMs  : Nat
  pairMs  : Nat                -- ms of pair disagreement
  okMs    : Nat                -- ms in which every test was met
  hist    : List (Rat × Rat)     -- reading and neighbours' maximum of the last 30 s, newest first
  overs   : Nat                -- consecutive conversions at or over the trip limit
deriving DecidableEq, Repr

/-- One sensor group: 0 die, 1 light engine (R304 to R307). -/
structure GroupDyn where
  max     : Rat
  slope   : Rat                  -- K/s
  window  : List Rat             -- group maxima of the last 1 s, newest first
  warned  : Bool
  clearMs : Nat                -- ms since both warn conditions were absent
  upMs    : Nat
  tripped : Bool
  coolMs  : Nat
  blind   : Bool
  frozen  : Bool                 -- L is frozen by a failed holder of this group's maximum (R312)
  coldMs  : Nat
deriving DecidableEq, Repr

structure ThermDyn where
  sensors  : Vector Sensor 36
  groups   : Vector GroupDyn 2
  level    : Nat
  downMs   : Nat
  stepDue  : Option (Bool × Bool)   -- up, group
deriving DecidableEq, Repr

/-! ## Safety (11) -/

/-- One tell-tale of the safety asset (R321). States: 0 off, 1 on, 2 blink, 3 hold. -/
structure Telltale where
  x : Nat
  y : Nat
  w : Nat
  h : Nat
  bootState    : Nat
  timeoutState : Nat
  blinkTicks   : Nat
deriving DecidableEq, Repr

/-- The defaults of one head in the safety asset (R321). -/
structure AssetHead where
  wx : Nat
  wy : Nat
  shown   : Bool
  proofOs : Nat
  level   : Vector Nat 3
deriving DecidableEq, Repr

/-- The safety asset as it is loaded (R321): the fields of its table, the table itself, and the glyph atlas, the bytes of its 12
planes by their offset in the atlas. -/
structure Asset where
  ww            : Nat
  wh            : Nat
  q2TimeoutMs   : Nat
  heads         : Vector AssetHead 4
  telltales     : List Telltale
  table         : List Byte
  atlas         : List Host.Cell
deriving DecidableEq, Repr

/-- STATE of R348. -/
inductive SafeMode where
  | start | normal | window | dark
deriving DecidableEq, Repr

/-- A span of the safety canvas: its first pixel and its width (R324). -/
structure Span where
  x : Nat
  w : Nat
deriving DecidableEq, Repr

/-- A band of the safety canvas: consecutive window lines that the same tell-tale rectangles cross, and the spans of the lit ones
among them (R324). -/
structure Band where
  y     : Nat
  lines : Nat
  spans : List Span
deriving DecidableEq, Repr

/-- A layout of the safety canvas (R324, R328): the lit set it was prepared for, its span table with the table's CRC, and of each
plane (c, k), at 4c + k, the CRC and the count N[c][k]. -/
structure Layout where
  lit     : BitVec 64
  bands   : List Band
  spanCrc : BitVec 32
  crcs    : Vector (BitVec 32) 12
  counts  : Vector Nat 12
deriving DecidableEq, Repr

structure SafetyDyn where
  mode      : SafeMode
  latched   : Bool
  darkLatched : Bool           -- a latched cause whose reaction is device dark
  headDark  : BitVec 4
  causes    : BitVec 16
  standing  : BitVec 16        -- restartable causes from which the device has not recovered (R343)
  alive     : BitVec 8         -- next expected counter
  anyAlive  : Bool             -- any counter is accepted (R335)
  e2eErrors : Nat
  q2Run     : Bool             -- the first accepted Q2 command has come
  q2Timeout : Bool
  ttTimeout : Bool             -- tell-tales are in TIMEOUT_STATE
  ttDue     : Bool             -- they take it at the next LATCH (R335)
  hold      : BitVec 64        -- last commanded states, for TIMEOUT_STATE hold
  holdBlink : BitVec 64
  lit       : BitVec 64        -- TT_LIT
  exitDue   : Bool             -- an accepted exit waits for the next LATCH
  toWindow  : Bool             -- R343 step 2 waits for the next LATCH
  firstRestart : Option Nat    -- instant of the first restartable fault (R343)
  noRelease : Bool             -- a fault before first safe light (R419)
  darkNow   : Bool             -- a LATCH has made the device dark: SAFE_DARK as TELLTALE_SET reports it (R344)
  storeFull : Bool             -- the event store has filled, and fewer than 1024 records are free yet (R341, R392)
  safeN     : Bool             -- true: SAFE_N asserted (driver off)
  firstLight : Bool            -- the first safe light has come
  monitors  : BitVec 2         -- clock, voltage conditions standing
  hwDivert  : Bool             -- channels diverted by hardware
  energy    : Bool             -- energy trip latched
  asset     : Option Asset
  staged    : Vector Layout 2  -- safe-path staging: blinking tell-tales lit, and not lit (R324)
  canvas    : Vector Layout 2  -- the same two as the last LATCH applied them (R33)
  eccTick   : Vector (Option Nat) 11   -- instant of the last ECC_CORRECTED per region
  eccTimes  : Vector (List Nat) 11     -- instants of the corrections of the last second
deriving DecidableEq, Repr

/-! ## Host interface (12, 13) -/

/-- Which ring a record write belongs to (R356). -/
inductive RingId where
  | cq (q : Fin 4) (k : Nat)          -- k: journal sequence number
  | evq (src : Nat)                   -- the event's source
  | relay
deriving DecidableEq, Repr

/-- A record write that is not yet globally observed: its address and its bytes. -/
structure RingWrite where
  id   : RingId
  addr : Nat
  word : BitVec 512
deriving DecidableEq, Repr

structure CxlDyn where
  link      : LinkState
  cacheEn   : Bool
  bme       : Bool
  d0        : Bool
  bars      : Vector (BitVec 64) 2     -- the addresses of BAR0 and BAR2 (R360)
  cto       : BitVec 5         -- completion timeout value of Device Control 2, Range A (R350)
  mps       : BitVec 3         -- Max Payload Size code of Device Control (R357)
  aer       : Vector (BitVec 32) 2     -- AER status: uncorrectable, correctable
  ideIo     : Option (BitVec 256)      -- the key of the CXL.io stream; the stream is secure while it holds one (R365)
  ideCache  : Option (BitVec 256)
  retrains  : Nat
  hostActive : Bool
  attached  : Bool
  err       : BitVec 7         -- ERR_STATUS
  mirrorHi  : Option (BitVec 32)   -- bits 63:32 latched for the read at 0x14
  msixMask  : BitVec 64
  msixPend  : BitVec 64
  msixTable : List Host.Cell   -- the bytes written into the MSI-X table
  comp      : List Host.Cell   -- bytes written into the CXL component registers
  outstanding : List RingWrite -- record writes not yet globally observed, oldest first
  retries   : Nat
  lastSignal : Vector (Option Nat) 64
  sigDue    : BitVec 64        -- event vectors that wait for COALESCE_US to pass (R364)
  errs      : Vector (Nat × Nat × Nat) 7   -- CXL errors of each KIND in this tick: count, TRAFFIC and address of the first
  summary   : BitVec 32        -- SAFE_SUMMARY as last seen by vector 5
  spdm      : Nat              -- 0 none, 1 version, 2 capabilities, 3 algorithms, 4 keys exchanged, 5 session
  keyEpoch  : Nat
  cfgReady  : Bool             -- configuration requests are served (R416)
deriving DecidableEq, Repr

/-- A completion record of R377 as the journal holds it (R394). -/
structure Completion where
  seq       : Nat              -- completions of the queue before it
  slot      : BitVec 8
  queue     : Fin 4
  status    : BitVec 16
  opcode    : BitVec 16
  alive     : BitVec 8
  tag       : BitVec 32
  tick      : BitVec 48
  phase     : BitVec 3
  result    : BitVec 320
  delivered : Bool
  issued    : Bool
  replay    : Bool
deriving DecidableEq, Repr

/-- How the descriptor that runs arrived: fetched from the ring, relayed by a CMD packet of the chain, or sent by CHAIN_SEND to
this device itself (R459). -/
inductive Via where
  | ring | chain | self
deriving DecidableEq, Repr

/-- A descriptor whose completion is still to be written. -/
structure Deferred where
  queue  : Fin 4
  opcode : BitVec 16
  slot   : BitVec 8
  tag    : BitVec 32
  alive  : BitVec 8
  via    : Via
deriving DecidableEq, Repr

structure QueueDyn where
  en      : Bool
  sqTail  : BitVec 8
  sqHead  : BitVec 8
  cqBase  : BitVec 64
  cqHead  : BitVec 8
  cqTail  : BitVec 8
  cqNext  : BitVec 8           -- index of the next record to issue
  wrap    : Bool
  count   : Nat                -- completions since reset
  journal : List Completion    -- newest first, at most 16
  waiting : Option Deferred    -- the command that executes and completes later
deriving DecidableEq, Repr

/-- An event record (R388). -/
structure Event where
  source  : Nat
  phase   : Phase
  code    : BitVec 16
  seq     : BitVec 32
  tick    : BitVec 48
  payload : BitVec 128
deriving DecidableEq, Repr

/-- The event system (13). -/
structure EvDyn where
  en       : Bool
  sizeLog2 : Nat
  vecMode  : Bool
  coalesce : Nat
  base     : BitVec 64
  head     : BitVec 16
  tail     : BitVec 16
  next     : BitVec 16         -- index of the next record to issue
  ackSeq   : BitVec 32
  seq      : BitVec 32         -- SEQ of the next event
  store    : List Event        -- oldest first
  sent     : BitVec 32         -- SEQ of the next event to issue to the host
  issuedTo : BitVec 32         -- SEQ after the last one ever issued to the host (REPLAY)
  ackMark  : BitVec 32         -- ACK_MARK of R391: the last SEQ that the host acknowledged, 0 before the first
  ackNext  : BitVec 32         -- SEQ after the last one that the host acknowledged
  ring     : List (BitVec 32)  -- SEQ of the records issued to the host ring from EVQ_HEAD on
  fences   : List (BitVec 32 × Nat × BitVec 64 × BitVec 32)   -- SEQ of BUFFER_RELEASED, its fence and its TAG (R112)
  hostObs  : Bool              -- the host is an active observer
  chainObs : Bool
  chainAck : BitVec 32         -- SEQ after the last one that the Causeway observer acknowledged
  chainSent : BitVec 32
  chainIssued : BitVec 32
  masks    : Vector (BitVec 64) 8
  full     : Bool              -- only the reserve is left (R392)
  dropped  : Vector Nat 8      -- events not recorded, per group
  owed     : List (Nat × BitVec 16 × BitVec 128)   -- mechanism-15 records waiting for reserve (R392)
  series   : List Event        -- every event recorded, newest first (model's own)
deriving DecidableEq, Repr

/-! ## Boot, power, OTP, calibration (14, 15) -/

inductive BootStage where
  | reset        -- a reset is in force: every output at high impedance (R410)
  | waiting      -- released, waiting for WAKE_IN (R413)
  | booting
  | running      -- past the ready point
  | recovery     -- R415
  | factory      -- R414, blank integrator block
  | dead         -- boot fault with no recovery served
deriving DecidableEq, Repr

inductive ResetKind where
  | power | pin | warm
deriving DecidableEq, Repr

structure BootDyn where
  stage     : BootStage
  kind      : ResetKind        -- the reset last begun
  straps    : Straps
  sampled   : Bool             -- straps have been sampled since power-on or pin reset
  bootAt    : Nat
  readyAt   : Nat
  readyTick : Option Nat       -- TICK of the ready point; channels are enabled at the LATCH after the next END (R420)
  enableDue : Bool             -- that END has passed
  enabled   : Bool             -- stored channels, windows and scanners are enabled (R420)
  fwVersion : BitVec 16
  schema    : BitVec 16
  imageDigest : BitVec 384      -- SHA-384 of the active image, as the boot verified it (R414)
  defaults  : List SettingsEntry
  down      : Vector Bool 3    -- control cores restarting (R396)
  coreCause : Vector Nat 3
  restarts  : Nat
  fellBack  : Bool             -- the boot has gone over to the other slot (R414)
deriving DecidableEq, Repr

/-- Adaptive core voltage (R403 to R406). VID is the preset selected; presets in mV. -/
structure PowerDyn where
  vid      : Fin 4
  nextVid  : Fin 4
  p1       : Nat
  p2       : Nat
  ended    : Bool
  writing  : Option (Fin 4 × Nat)
  tries    : Nat
  tripAt   : Option Nat
deriving DecidableEq, Repr

/-- One calibration generation (R430, R431) and its class. -/
structure Generation where
  consumed : Bool
  isSealed : Bool
  damaged  : Bool
  utc      : BitVec 32
  station  : BitVec 16
  masks    : Vector (BitVec 8) 96        -- bytes 8 to 103 of R430
  k        : Vector Nat 12               -- K_hc, unsigned 8.8; 0xFFFF absent
  chMasks  : Vector (BitVec 24) 64       -- offset, gain, delay masks
  phi      : Vector Nat 64               -- 0xFFFF absent
  slope    : Vector Nat 64               -- S_n, unsigned 8.8; 0xFFFF absent
deriving DecidableEq, Repr

/-- The OTP (R426, R428). Not cleared by a reset (R407). -/
structure Otp where
  vendorOk   : Bool
  variant    : BitVec 8
  integrator : Option Integrator         -- none: blank
  gens       : Vector Generation 4
deriving DecidableEq, Repr

/-- STATE of CAL_STATUS and its report for one item. -/
structure CalReport where
  item    : Nat
  index   : Nat
  state   : Nat
  failing : Nat
  reason  : Nat
  value   : BitVec 64
deriving DecidableEq, Repr

/-- An accepted trim (R437): its set, the accepted mask and the measured contributions of the elements. -/
structure Trim where
  place : Nat
  mask  : BitVec 8
  parts : Vector Rat 8
deriving DecidableEq, Repr

/-- What an accepted item brings into force (R437): its trims, φ_cal and S_n of a channel, K_hc of a head. -/
structure CalResult where
  trims : List Trim
  chan  : Option (Chan × Nat × Nat)
  gains : Option (Head × Vector Nat 3)
deriving DecidableEq, Repr

/-- The optical sums of the proof item (R432): the measured sum and the sum of what the glyphs and pulses would give at 1 code
per mA, of one colour over the valid ticks of a repeat. -/
structure ProofSum where
  meas : Rat
  ref  : Rat
deriving DecidableEq, Repr

/-- An accepted part of an item on its way into force (R437): its ITEM and INDEX, the LATCHes since L0, its values. -/
structure Applying where
  item   : Nat
  index  : Nat
  latch  : Nat
  result : CalResult
deriving DecidableEq, Repr

structure CalDyn where
  reports  : List CalReport    -- newest first
  running  : Option (Nat × Nat)   -- ITEM, INDEX of the command
  part     : Nat × Nat         -- ITEM, INDEX of the part that runs: differs from the command's for FULL
  todo     : List Chan         -- channels of FULL still to run
  first    : Bool              -- the part's first step has been granted
  reps     : Nat               -- repeats taken
  left     : Nat               -- µs left of the repeat begun, 0 between repeats
  stepping : Bool              -- a step runs in this tick
  lastStep : Bool              -- it is the last of the part
  meas     : Option CalMeas    -- the part's measurements
  proofTicks : Nat             -- valid ticks of the proof repeat begun
  proofNow : Vector ProofSum 3
  proofReps : List (Vector ProofSum 3)
  abort    : Option Nat        -- REASON of an abort that takes effect at the next boundary
  applying : List Applying     -- accepted parts on their way into force, oldest first
  uncommitted : Bool
  live     : Generation        -- the values in force
  inForce  : Option (Fin 4)
  inputs   : CalInputs         -- as they read at the last end of a LATCH
  commit   : Option (Fin 4 × BitVec 32 × BitVec 16 × Nat)   -- CAL_COMMIT: generation, UTC, STATION, series left
  granted  : Bool              -- a series is granted for this tick
  stationTemp : Int
  refUv    : Nat
deriving DecidableEq, Repr

/-! ## Update and Causeway (16) -/

/-- Slot states of R463: 0 EMPTY, 1 STAGED, 2 VERIFIED, 3 ACTIVE_TRIAL, 4 CONFIRMED, 5 FALLBACK. -/
structure BootRecord where
  seq      : BitVec 32
  active   : Bool
  state    : Vector Nat 2
  trials   : Nat
  set      : Vector Bool 2     -- settings copy of each slot: false S0, true S1
  migDone  : Bool
  resetReq : Bool
  pkg      : Bool
  revert   : Nat
  ids      : Vector (BitVec 192) 2
deriving DecidableEq, Repr

/-- A piece of flash work (R462, R463, R465, R472). -/
inductive FlashWork where
  | erase                                                    -- the staging slot
  | block (b : Nat) (bytes : List Byte)                      -- a block of the staging slot, read back
  | record (r : BootRecord)                                  -- a boot record append; SEQ is set when it is written
  | copy (dst : Bool) (entries : List SettingsEntry)         -- a settings copy written whole
deriving DecidableEq, Repr

/-- A flash job, in the order of the work: what is written, and what its end brings: the session's state (0 ends it), an
UPDATE_STATE with its cause, the completion of the Q1 command that waits, an UPD_RESP (OP, status, result), a reset. -/
structure FlashJob where
  work   : FlashWork
  sess   : Option Nat
  tell   : Option Nat
  answer : Option (BitVec 16 × Nat)
  up     : Option (Nat × BitVec 16 × Nat)
  reset  : Bool
deriving DecidableEq, Repr

/-- The flash as the device writes it (R462, R463). `jobs` is the work that waits, oldest first. -/
structure Flash where
  record   : BootRecord
  copyUsed : Vector Nat 2      -- entries used in each boot record copy
  current  : Bool              -- the copy that holds the current record
  copies   : Vector (List SettingsEntry) 2
  schemaOf : Vector (BitVec 16) 2   -- largest SCHEMA of each copy
  image    : List (Nat × List Byte) -- stored blocks of the staging slot
  jobs     : List FlashJob
  slice    : Bool              -- a slice of the first job runs in this tick
deriving DecidableEq, Repr

/-- An update session (R464, R465): SESSION 1 OPEN, 2 STAGED, 3 VERIFIED; source false host, true chain. -/
structure Session where
  state   : Nat
  chain   : Bool
  joined  : Bool
  scope   : Bool
  pkg     : Bool
  resetSettings : Bool
  length  : Nat
  schema  : BitVec 16
  fw      : BitVec 16
  id      : BitVec 192
  stored  : BitVec 28
  last    : Nat                -- instant of the last command or packet of it
deriving DecidableEq, Repr

/-- A firmware block in transit down the chain (R466): up to two are. -/
structure Transit where
  block    : Nat
  length   : Nat
  crc      : BitVec 32
  parts    : List (Nat × List Byte)   -- segments received
  whole    : Bool                     -- received with its CRC
  stored   : Bool                     -- programmed, or not to be
  acked    : Bool                     -- acknowledged downstream, or nothing is downstream
  resends  : Nat
  fails    : Nat                      -- failed receptions
  began     : Option Nat       -- instant of the BLOCK_START of a reception that runs
deriving DecidableEq, Repr

/-- A command of a chain session that waits for its participants: OP, who must answer, the answers (address, status, result)
and this device's own status and result once known. -/
structure ChainWait where
  op      : Nat
  expect  : List Nat
  answers : List (Nat × BitVec 16 × Nat)
  own     : Option (BitVec 16 × Nat)
deriving DecidableEq, Repr

structure UpdDyn where
  session   : Option Session
  armed     : Option (Nat × Bool)      -- AT_TICK, RESET_SETTINGS
  resetDue  : Bool                     -- warm reset at the next boundary
  trialLeft : Option Nat               -- instant at which the trial ends
  opened    : List Nat                 -- participants of a chain session of this head device, itself apart
  failed    : List Nat
  wait      : Option ChainWait
  verifyDue : Bool                     -- a participant was asked to verify before its blocks were stored (R467)
  transit   : List Transit
  held      : Option (Nat × List Byte) -- a block that waits for a transit buffer (R466)
deriving DecidableEq, Repr

/-- A Causeway port. -/
structure CwPort where
  state    : Nat               -- 0 down, 1 training, 2 running
  delay    : Nat               -- 62.5 ps
  newDelay : Option Nat        -- in use from the next boundary
  echoes   : Nat
  echoSum  : Nat
  measuring : Bool             -- ECHO exchanges are running
  wanted   : Bool
  granted  : Bool              -- an attempt is granted for the tick that the next boundary begins
  retryTick : Option Nat
  discards : Nat               -- packets discarded in this tick
  resends  : Nat
  evResends : Nat
  overTicks : Nat
deriving DecidableEq, Repr

/-- A MODE that waits for its APPLY_TICK (R454). -/
structure ModePend where
  payload : BitVec 384         -- the TIMING_SET that it stands for
  apply   : Nat                -- APPLY_TICK
deriving DecidableEq, Repr

/-- A CHAIN_SEND that waits (R459): broadcast, the targets still to answer, the answers (address, record), and the instant at
which the command was sent. -/
structure SendWait where
  bcast   : Bool
  expect  : List Nat
  answers : List (Nat × BitVec 512)
  sent    : Nat
deriving DecidableEq, Repr

/-- A CMD received (R459): target queue, data packets still to come, next data packet's place, the descriptor. -/
structure InCmd where
  tq    : Fin 4
  via   : Via
  left  : Nat
  off   : Nat
  desc  : List (BitVec 64)
deriving DecidableEq, Repr

/-- A record of another origin in the relay buffer (R457): the record as received, whether the downstream observer has
acknowledged it, and whether the host has. -/
structure Relayed where
  origin : Nat
  word   : BitVec 256
  down   : Bool
  host   : Bool
deriving DecidableEq, Repr

structure CwDyn where
  up        : CwPort
  down      : CwPort
  addr      : Nat
  len       : Nat              -- CHAIN_LEN
  follower  : Bool             -- takes BOUNDARY packets (R147)
  aSeen     : Bool
  reports   : List (Nat × BitVec 48 × BitVec 8)   -- address, TICK, variant
  enumAt    : Option Nat       -- instant at which ENUM was sent
  waitEnum  : Bool              -- a CHAIN_ENUMERATE waits for the settling
  cutDown   : Bool             -- last device of a chain over its limit
  misses    : Nat
  consec    : Nat
  alone     : Bool             -- runs on its own under R453
  voters    : List (Nat × Bool)    -- address, holds a valid commit
  caps      : List (Nat × Nat)
  mode      : Option ModePend
  voteDue   : Bool             -- a VOTE is due at the next BOUNDARY, after an enumeration (R455)
  lastCap   : Nat
  chainTmin : Nat              -- effective Tmin of the last BOUNDARY
  relay     : List Relayed     -- oldest first
  relayHead : BitVec 16
  relayTail : BitVec 16
  relayNext : BitVec 16         -- index of the next entry to issue
  relayPass : Bool
  lastSeqOf : List (Nat × BitVec 32)   -- last SEQ received per origin
  waitCmd   : Option SendWait
  inCmd     : List InCmd       -- CMD packets received and not yet executed, oldest first
deriving DecidableEq, Repr

/-! ## What the block puts out -/

/-- The requests that the device makes on CXL.cache (R354). -/
inductive CacheReq where
  | rdCurr | rdShared | rdOwn | dirtyEvict | itoMWr | woWrInv
deriving DecidableEq, Repr

/-- What leaves the block on a pin, a lane, the CXL port or the JTAG port. -/
inductive Output where
  | snoop (answer : Nat) (data : Option (BitVec 512))      -- 0 RspIHitSE, 1 RspIFwdM with data, 2 RspIHitI, 3 RspSHitSE
  | cache (r : CacheReq) (lines : List Nat)                -- requests on CXL.cache for 64-byte lines (R354)
  | cxlIo (write : Bool) (reqs : List (Nat × Nat)) (tagBits depth : Nat)
      -- memory requests on CXL.io with No Snoop, reads with Relaxed Ordering (R354): address and length of each, the width of
      -- their tags and how many reads may be outstanding (R357)
  | relFence (a : Nat) (v : BitVec 64)                     -- the 8 bytes merged into an owned line (R99)
  | completion (q : Fin 4) (a : Nat) (record : BitVec 512)
  | eventRec (a : Nat) (record : BitVec 256)
  | relayRec (a : Nat) (record : BitVec 512)
  | readData (v : BitVec 64)
  | window (bytes : List Byte)                             -- a read of BAR2
  | config (retry : Bool) (v : BitVec 64)
  | msix (vec : Fin 64)
  | doe (code : Nat) (body : List Byte)
  | lane (g : Head) (lane : Fin 8) (words : List (BitVec 66))   -- words as they leave the pins, in order (R192)
  | cw (p : Port) (ptype : BitVec 8) (dst : BitVec 9) (bcast : Bool) (src : BitVec 9) (arg : BitVec 21)
      (words : List (BitVec 64))
  | thread (line : Fin 4) (values : List (Vector Nat 3))
  | scanner (h : Head) (en : Bool)
  | fastAxis (h : Head) (drive : FastDrive) (milliHz : Nat)
  | slowAxis (h : Head) (target : SlowTarget)
  | vid (v : Fin 4)
  | cwLane (p : Port) (words : List (BitVec 66))           -- a port's words as they leave the pins, in order (R445)
  | flashErase (a size : Nat)
  | flashWrite (a : Nat) (bytes : List Byte)
  | smbus (addr cmd format : BitVec 8) (pec : Bool) (mv : Nat)   -- a write of a preset and its read-back (R404)
  | jtag (bits : List Bool)
  | hiZ
  | driven
deriving DecidableEq, Repr

/-- The mailbox commands by opcode (R381). -/
inductive Op where
  | deviceInfo | eventMask | settingsRead | settingsWrite
  | layerSet | layerEnable | lutLoad | coeffLoad | blendOrderSet | fenceModeSet | commit
  | headSet | warpLoad | timingSet | planeSeqLoad | dimSet
  | lightChannelSet | colourTargetSet | lampSet | lampFade | powerQuota | thermalSet
  | safetyWindowSet | telltaleSet | safeStateRequest
  | calRun | calCommit | calStatus
  | updateOpen | updateBlock | updateVerify | updateActivate | updateConfirm | updateAbort | updatePreempt
  | chainEnumerate | chainSend
  | unassigned (code : BitVec 16)
deriving DecidableEq, Repr

/-! ## The state -/

/-- The JTAG instructions (R417, R429). -/
inductive JtagInstr where
  | idcode | bypass | sample | extest | otp
deriving DecidableEq, Repr

/-- The JTAG port: the instruction in force, and the boundary cells as last preloaded or driven. -/
structure JtagDyn where
  instr : JtagInstr
  cells : List Bool
deriving DecidableEq, Repr

/-- The SX6440. -/
structure State where
  clk      : Clock
  cfg      : Cfg                       -- live
  pendLv   : List CfgWrite             -- pending lv writes, oldest first (R44)
  openSet  : List CfgWrite             -- the open shadow set (R87)
  com      : CommitDyn
  comp     : CompDyn
  heads    : Vector HeadDyn 4
  links    : Vector LinkDyn 4
  rasters  : Vector RasterDyn 4
  chans    : Vector ChanDyn 64
  loops    : Vector (Vector LoopDyn 3) 4
  oss      : Vector OsDyn 8
  lines    : Vector LineDyn 4
  sluice   : SluiceDyn
  therm    : ThermDyn
  safety   : SafetyDyn
  cxl      : CxlDyn
  queues   : Vector QueueDyn 4
  ev       : EvDyn
  boot     : BootDyn
  power    : PowerDyn
  otp      : Otp
  cal      : CalDyn
  flash    : Flash
  upd      : UpdDyn
  cw       : CwDyn
  jtag     : JtagDyn
  bar2     : List Host.Cell            -- the 256 KiB host window (R373)
  planes   : List Host.Cell            -- plane store bytes that the press wrote (R180), by host physical address
  canvas   : List (Nat × BitVec 72)    -- canvas pixels, key y * 8192 + x, R in bits 23:0 (R37, R80)
  mirrorGen : Nat                      -- MIRROR_GEN (R374)
  cwScram  : Vector (BitVec 58) 2      -- last 58 bits sent on CW_U and CW_D (R192, R445)
  out      : List Output               -- what the block has put out, newest first (model's own)
  free     : Nat                       -- draws of free values (model's own)
  pending  : List Instr                -- commands waiting, first in first out
deriving DecidableEq, Repr

/-! ## The state right after reset release -/

/-- The four heads or groups start alike. -/
def four {α : Type} (a : α) : Vector α 4 := Vector.replicate 4 a

/-- LAYER_SET's map: YCC_MATRIX 1, GALPHA 0xFFFF, the other fields 0 ("—" fields: log entry 1). -/
def LayerCfg.reset : LayerCfg :=
  { sh := { format := 0, gtc := false, alphaMode := 0, lutBypass := false, yccMatrix := 1, yccRange := false,
            chroma := false, coeffH := 0, coeffV := 0, galpha := 0xFFFF, pitch0 := 0, pitch1 := 0, surfW := 0, surfH := 0,
            srcX := 0, srcY := 0, srcW := 0, srcH := 0, dstX := 0, dstY := 0, dstW := 0, dstH := 0, base0 := 0, base1 := 0 }
    twoPass := false
    enable := false
    pre := .identity
    palette := [] }

/-- R124: every point (0, 0), one span over the output; kfetch 0, so that R39's k is 1.15. -/
def Mesh.reset : Mesh := { spx := 0, spy := 0, mx := 0, my := 0, kfetch := 0, pts := [] }

/-- HEAD_SET's map, R135, R156, R228, R233, R124, R267 and COLOUR_TARGET_SET's map. -/
def HeadCfg.reset : HeadCfg :=
  { sh := { enable := false, eyeEn := false, edge := false, kernel := 0, winX := 0, winY := 0, winW := 0, winH := 0 }
    raster := false, outW := 0, outH := 0
    colour := #v[0x20000, 0, 0, 0, 0, 0x20000, 0, 0, 0, 0, 0x20000, 0]
    arr := { tSettle := 0x7D0, tReset := 0x3E8, tMinPlane := 0x2710, rxPlanes := 2, levelFloor := 0xCD, dither := 0 }
    ras := { fNom := 0, track := 3, ampSet := 0, ampMin := 0, slowTop := 0, slowBot := 0, tRetrace := 0x78,
             slowTol := 0x400, trimF := 0, trimR := 0, levelFloor := 0xCD, dither := 0 }
    rtable := .uniform, rtOff := 0, rtCrc := 0
    mesh0 := Mesh.reset, mesh1 := Mesh.reset, offs := Mesh.reset
    seq := none
    ctable := .unity
    tgt := #v[0x8000, 0x8000, 0x8000]
    loop := { en := 7, gain := 0x20, ticks := 8 } }

/-- LIGHT_CHANNEL_SET's map. -/
def ChanCfg.reset : ChanCfg :=
  { lv := { enable := false, driftEn := true, vOpen := 0, vShort := 0, tolTh := 0x14, tolEff := 0x14 }
    st := { led := false, head := 0, colour := 0, tsSel := 0, tsEn := false, supply := 0, fSw := 0xFA0, iMax := 0,
            rshunt := 0, iTh := 0, lNh := 0x3E8, dt := 8, phase := 0, lvsDiv := 0, ocLevel := 0x78 } }

/-- The line record's map (R281). -/
def LineCfg.reset : LineCfg :=
  { lv := { enable := false, tRef := 0xC8, kt := #v[0, 0, 0], safe := #v[0, 0, 0] }
    st := { order := 0, tsEn := false, tsSel := 0, nodes := 0, latchUs := 0x50 } }

/-- THERMAL_SET's map. -/
def ThermCfg.reset : ThermCfg :=
  { die := { arm := 0x258, warn := 0x2F8, act := 0x348, rel := 0x320, slopeWarn := 0x32, slopeAct := 0x64, slopeHot := 5 }
    le := { arm := 0x190, warn := 0x208, act := 0x230, rel := 0x208, slopeWarn := 0x19, slopeAct := 0x32, slopeHot := 5 }
    leMask := 0
    subOffset := 0x18
    tsPair := #v[0, 1, 2, 3, 4, 5, 6, 7, 8, 9, 10, 11, 12, 13, 14, 15]
    atEn := true }

/-- The configuration at the reset values of the field maps. The window fields take the asset's values at the boot (R321);
until then they read 0 (log entry 1). -/
def Cfg.reset : Cfg :=
  { mem := { canvasBase := 0, canvasMib := 0, planeBase := 0, planeMib := 0 }
    canvas := { w := 0, h := 0, postBypass := false, bg := #v[0, 0, 0], post := .identity }
    layers := Vector.replicate 24 LayerCfg.reset
    coeffs := Vector.replicate 32 Coeffs.linear
    progOrder := false
    slots := #v[23, 22, 21, 20, 19, 18, 17, 16, 15, 14, 13, 12, 11, 10, 9, 8, 7, 6, 5, 4, 3, 2, 1, 0]
    fence := { layered := false, hold := 2, abandon := 4 }
    heads := four HeadCfg.reset
    tick := { tmin := 7500, tmax := 10000, tcut := 250 }
    span := { blankLen := 0x78, showLen := 0x1C20, skew := #v[0, 0, 0, 0] }
    scan := { underrunRepeat := 2, chainVote := false,
              lm := #v[{ src := 0, head := 0, line := 0 }, { src := 0, head := 0, line := 0 }] }
    chans := Vector.replicate 64 ChanCfg.reset
    os := Vector.replicate 8 { enable := false, head := 0, colours := 0, gainMode := 0, darkLimit := 0x7D0 }
    lines := four LineCfg.reset
    quota := { light := 0xFFFFFF, device := 0x6978, svcL := 0xFFFF, bgL := 0x64, svcD := 0x64, bgD := 0x32,
               resetE := #v[0, 0, 0, 0] }
    therm := ThermCfg.reset
    links := four { txPol := 0, rxPol := false, rateMax := 0, errLimit := 0x40 }
    wins := four { shown := false, level := #v[0, 0, 0], proofOs := 0, wx := 0, wy := 0 }
    ttOn := 0, ttBlink := 0
    chain := { evtFwd := true, relayEn := false, relaySize := 8, relayBase := 0 }
    eye := 0, dropped := 0 }

/-- FLIP before any COMMIT: tag 0 (R111). -/
def FrameInfo.reset : FrameInfo := { tag := 0, isNew := false, late := false, merged := 0, held := 0, dropped := 0 }

def CommitDyn.reset : CommitDyn :=
  { records := [], lvAtCut := 0, lines := [], bufs := Vector.replicate 24 { tag := 0, fence := none, named := false, released := false }, releases := [], relWrites := [], latchQ := []
    build := FrameInfo.reset, shown := FrameInfo.reset }

/-- Tick 0 stands in LATCH and waits for the boot start (R11, R16, R413). -/
def Clock.reset : Clock :=
  { now := 0, tick := 0, phase := .latch, start := 0, held := true, validAt := none, cutAt := none, boundary := none
    reason := .tmax, prevLen := 0, prevReason := .tmax, prevNone := true, built := false, shown := false
    effTmin := 7500, nextTmin := 7500, bwTmin := 0, bwSafe := false, alignTo := none, trans := none
    lmRaised := #v[false, false], lmOut := #v[false, false] }

def CompDyn.reset : CompDyn :=
  { band := 0, errLine := Vector.replicate 24 none, gtcFirst := Vector.replicate 24 none
    gtcCount := Vector.replicate 24 0, hostBuild := false }

/-- A head after reset: off, G_T and g_r 1.0 (DIM_SET's map), its light cap 1 (R298). -/
def HeadDyn.reset : HeadDyn :=
  { mode := .off, building := false, done := false, cut := false, stripes := 0, hasFrame := false, substs := 0
    buf := false
    pressed := #v[{ seq := none, g := 0x80000000, scale := 0 }, { seq := none, g := 0x80000000, scale := 0 }]
    lead := 0, schedFail := false, showing := false, spanDone := false, entry := 0, gateOpen := false, darkPlanes := 0, lateRaised := false
    gR := 0x80000000, gT := 0x80000000, steps := 0, reached := true, grant := false, gBuild := 0x80000000
    gShow := 0x80000000, cap := 0x80000000, tgt := #v[0x8000, 0x8000, 0x8000], heldDim := false, resetOk := false, fills := 0, fetchOver := false
    winLost := false, winLostPrev := false, proofBad := 0, proofTold := false, proven := 0, provenTold := false, rhoP := #v[0, 0, 0]
    proofVoid := false, readyWin := false, safeGrant := false, diag := [], driftNext := 0, driftOk := false
    driftDone := 0 }

/-- A lane group after reset: untrained and down (R220). -/
def LinkDyn.reset : LinkDyn :=
  { rateNow := 0, state := 0, newRate := none, lastRate := 0, step := none, attempt := 0, wanted := false, granted := false
    retryTick := none, locked := 0, eqDone := 0, ffe := Vector.replicate 8 (0, 0), echoes := Vector.replicate 8 0
    delaySum := Vector.replicate 8 0, delays := Vector.replicate 8 0, dlMax := 0, resent := 0, lost := 0, readback := 0
    trains := 0, refusals := 0, timeouts := 0, mismatches := 0, blocksLost := 0, overTicks := 0, ready := false
    parked := false, fault := false, rxHeld := 0, mismatch := false, temp := 0, sentSched := none, schedKnown := false
    schedSafe := false, resume := false, stopping := false, stopped := false, next := Vector.replicate 8 0, flights := [], lostPlanes := []
    timingRaised := false, dark := [], badBlocks := 0, acked := [], retried := []
    scram := Vector.replicate 8 0 }

/-- A scanner after reset: stopped (R228). -/
def RasterDyn.reset : RasterDyn :=
  { scan := 0, fNow := 0, ramping := false, drive := .off, slow := .off, retryTick := none, guard := false, line := 0, lineFwd := true
    lineAt := none, gateUsed := false, linesOver := false, packet := 0, flights := [], lostLines := [], tableDue := false
    tableNext := 0, tableLost := false, scnEn := false }

/-- A channel after reset (R276): off, diverted, SINCE_DRIFT 0xFFFF. -/
def ChanDyn.reset : ChanDyn :=
  { state := 0, cause := 0, latched := false, ref := 0, tEnd := 25, iCmd := 0, iMeas := 0, vS := 0, vKnown := false
    theta := 0, thetaTarget := 0, tEff := 25, unjudged := 0, since := 0xFFFF, sinceDrift := 0xFFFF
    driftTold := 0, lastOver := none, restart := none, gateOpen := false, opened := false, bucksOff := true, started := false }

/-- A colour loop after reset: κ and ρ_f are 1 (R277). -/
def LoopDyn.reset : LoopDyn :=
  { kappa := 1, kappaTarget := 1, rho := 1, rhoRef := none, frozen := false, fresh := true, relative := false
    limitTold := false, heldTold := false }

def Node.reset : Node :=
  { target := #v[0, 0, 0], start := #v[0, 0, 0], shown := #v[0, 0, 0], scurve := false, ms := 0, runS := false, runMs := 0
    elapsed := 0, fading := false }

def LineDyn.reset : LineDyn :=
  { nodes := Vector.replicate 128 Node.reset, noFit := false, tEnd := 25, doneDue := false }

/-- The Sluice after reset: the power status record's map (R316). -/
def SluiceDyn.reset : SluiceDyn :=
  { qL := 0, qD := 0, floorL := 0, floorD := 0x578, estL := 0, rated := 0, capF := 1, slice := false, series := false, shed := false, capping := false
    belowL := false, belowD := false, wroteQuota := false, seenLv := 0, deferTold := [], lastL := 0, lastD := 0 }

def Sensor.reset : Sensor :=
  { tried := false, seen := false, last := 0, raw := none, tf := 0, failed := false, cause := 0, sub := none, hold := false, holdMs := 0
    pairMs := 0, okMs := 0, hist := [], overs := 0 }

def ThermDyn.reset : ThermDyn :=
  { sensors := Vector.replicate 36 Sensor.reset
    groups := Vector.replicate 2 { max := 0, slope := 0, window := [], warned := false, clearMs := 0, upMs := 0,
                                   tripped := false, coolMs := 0, blind := false, frozen := false, coldMs := 0 }
    level := 0, downMs := 0, stepDue := none }

/-- No layout: nothing is lit. -/
def Layout.none : Layout :=
  { lit := 0, bands := [], spanCrc := 0, crcs := Vector.replicate 12 0, counts := Vector.replicate 12 0 }

/-- The safety system after reset: start, SAFE_N asserted (R348). -/
def SafetyDyn.reset : SafetyDyn :=
  { mode := .start, latched := false, darkLatched := false, headDark := 0, causes := 0, standing := 0, alive := 0, anyAlive := true
    e2eErrors := 0, q2Run := false, q2Timeout := false, ttTimeout := false, ttDue := false, hold := 0, holdBlink := 0, lit := 0
    exitDue := false, toWindow := false, firstRestart := none, noRelease := false, darkNow := false, storeFull := false, safeN := true, firstLight := false
    monitors := 0, hwDivert := false, energy := false, asset := none, staged := Vector.replicate 2 Layout.none, canvas := Vector.replicate 2 Layout.none, eccTick := Vector.replicate 11 none
    eccTimes := Vector.replicate 11 [] }

/-- The CXL port after reset: link down, BAR0 at its reset values (R360 to R363), every MSI-X vector masked (log entry 8). -/
def CxlDyn.reset : CxlDyn :=
  { link := { l0 := false, cxlMode := false, speed := 0, width := 0, hostFlit := false }
    cacheEn := false, bme := false, d0 := true, bars := #v[0, 0], cto := 0, mps := 0, aer := #v[0, 0], ideIo := none, ideCache := none, retrains := 0, hostActive := false
    attached := false, err := 0, mirrorHi := none, msixMask := BitVec.allOnes 64, msixPend := 0, msixTable := [], comp := []
    outstanding := [], retries := 0, lastSignal := Vector.replicate 64 none, sigDue := 0, errs := Vector.replicate 7 (0, 0, 0)
    summary := 4, spdm := 0, keyEpoch := 0, cfgReady := false }

def QueueDyn.reset : QueueDyn :=
  { en := false, sqTail := 0, sqHead := 0, cqBase := 0, cqHead := 0, cqTail := 0, cqNext := 0, wrap := true, count := 0
    journal := [], waiting := none }

/-- The event system after reset: SEQ 0 next, every mask all ones (R386, R389). -/
def EvDyn.reset : EvDyn :=
  { en := false, sizeLog2 := 8, vecMode := false, coalesce := 0, base := 0, head := 0, tail := 0, next := 0, ackSeq := 0
    seq := 0, store := [], sent := 0, issuedTo := 0, ackMark := 0, ackNext := 0, ring := [], fences := [], hostObs := false, chainObs := false, chainAck := 0
    chainSent := 0, chainIssued := 0, masks := Vector.replicate 8 (BitVec.allOnes 64), full := false
    dropped := Vector.replicate 8 0, owed := [], series := [] }

/-- Reset is released and the device waits for WAKE_IN (R413). -/
def BootDyn.reset : BootDyn :=
  { stage := .waiting, kind := .power, straps := { bootSrc := 0, chainRole := false, cxlEn := true }, sampled := true
    bootAt := 0, readyAt := 0, readyTick := none, enableDue := false, enabled := false, fwVersion := 0, schema := 0, imageDigest := 0, defaults := []
    down := #v[false, false, false], coreCause := #v[0, 0, 0], restarts := 0, fellBack := false }

/-- VID selects P0 (R403); the presets are 0.750 V until the process code is known (log entry 1). -/
def PowerDyn.reset : PowerDyn :=
  { vid := 0, nextVid := 0, p1 := 750, p2 := 750, ended := false, writing := none, tries := 0, tripAt := none }

/-- A generation with nothing programmed: absent values read as all ones (R430). -/
def Generation.blank : Generation :=
  { consumed := false, isSealed := false, damaged := false, utc := 0, station := 0, masks := Vector.replicate 96 0xFF, k := Vector.replicate 12 0xFFFF
    chMasks := Vector.replicate 64 0xFFFFFF, phi := Vector.replicate 64 0xFFFF, slope := Vector.replicate 64 0xFFFF }

/-- G0 as Gorolane seals it before shipment (R423, R426): every mask 0, no channel level, slope or proof gain held (log
entry 4). -/
def Generation.shipped : Generation :=
  { Generation.blank with consumed := true, isSealed := true, masks := Vector.replicate 96 0, chMasks := Vector.replicate 64 0 }

/-- The OTP of a device as shipped: the vendor block is programmed for an SX6440A and G0 is sealed (log entry 4), the
integrator block and the other generations are blank (R426, R428). -/
def Otp.shipped : Otp :=
  { vendorOk := true, variant := 0x41, integrator := none
    gens := #v[Generation.shipped, Generation.blank, Generation.blank, Generation.blank] }

def CalDyn.reset : CalDyn :=
  { reports := [], running := none, part := (0, 0), todo := [], first := false, reps := 0, left := 0, stepping := false
    lastStep := false, meas := none, proofTicks := 0, proofNow := Vector.replicate 3 { meas := 0, ref := 0 }, proofReps := []
    abort := none, applying := [], uncommitted := false, live := Generation.blank, inForce := none
    inputs := { zero := Vector.replicate 64 0, dark := Vector.replicate 8 0, refUv := 0, vppMv := 0 }, commit := none, granted := false, stationTemp := 0, refUv := 0 }

/-- The flash of a device as shipped: slot A CONFIRMED and active, slot B EMPTY, no settings stored (log entry 4). -/
def Flash.shipped : Flash :=
  { record := { seq := 0, active := false, state := #v[4, 0], trials := 0, set := #v[false, true], migDone := false
                resetReq := false, pkg := false, revert := 0, ids := #v[0, 0] }
    copyUsed := #v[1, 0], current := false, copies := #v[[], []], schemaOf := #v[0, 0], image := [], jobs := [], slice := false }

def UpdDyn.reset : UpdDyn :=
  { session := none, armed := none, resetDue := false, trialLeft := none, opened := [], failed := [], wait := none, verifyDue := false
    transit := [], held := none }

def CwPort.reset : CwPort :=
  { state := 0, delay := 0, newDelay := none, echoes := 0, echoSum := 0, measuring := false, wanted := false, granted := false, retryTick := none, discards := 0
    resends := 0, evResends := 0, overTicks := 0 }

/-- Not enumerated: CHAIN_ADDR 0x1FF, CHAIN_LEN 0 (R478). -/
def CwDyn.reset : CwDyn :=
  { up := CwPort.reset, down := CwPort.reset, addr := 0x1FF, len := 0, follower := false, aSeen := false, reports := []
    enumAt := none, waitEnum := false, cutDown := false, misses := 0, consec := 0, alone := false, voters := [], caps := []
    mode := none, voteDue := false, lastCap := 0, chainTmin := 0, relay := [], relayHead := 0, relayTail := 0
    relayNext := 0, relayPass := true, lastSeqOf := [], waitCmd := none, inCmd := [] }

/-- The machine right after reset release: every field map at its Reset column, nothing pending, and the device waiting for
its boot start. -/
def State.reset : State :=
  { clk := Clock.reset, cfg := Cfg.reset, pendLv := [], openSet := [], com := CommitDyn.reset, comp := CompDyn.reset
    heads := four HeadDyn.reset, links := four LinkDyn.reset, rasters := four RasterDyn.reset
    chans := Vector.replicate 64 ChanDyn.reset, loops := four (Vector.replicate 3 LoopDyn.reset)
    oss := Vector.replicate 8 { step := 0, satTicks := 0, faulty := false, sat := false }, lines := four LineDyn.reset
    sluice := SluiceDyn.reset, therm := ThermDyn.reset, safety := SafetyDyn.reset, cxl := CxlDyn.reset
    queues := four QueueDyn.reset, ev := EvDyn.reset, boot := BootDyn.reset, power := PowerDyn.reset, otp := Otp.shipped
    cal := CalDyn.reset, flash := Flash.shipped, upd := UpdDyn.reset, cw := CwDyn.reset, jtag := { instr := .idcode, cells := [] }, bar2 := [], planes := []
    canvas := [], mirrorGen := 0, cwScram := #v[0, 0], out := [], free := 0, pending := [] }

end Sys2Proof.Machine
end

