-- ==== Sys2Proof/Machine/Bits.lean ====
section
/-! DEFINITION. Bit fields, byte order, check codes and rounding. A field NAME[msb:lsb] is written (lsb, width); multi-byte
fields are little-endian (R8). -/

namespace Sys2Proof.Machine

/-- The field of width w at bit lo of a word. -/
def fld {n : Nat} (p : BitVec n) (lo w : Nat) : Nat := p.toNat / 2 ^ lo % 2 ^ w

/-- The signed (two's complement) field of width w at bit lo. -/
def sfld {n : Nat} (p : BitVec n) (lo w : Nat) : Int :=
  let v := fld p lo w
  if v < 2 ^ (w - 1) then (v : Int) else (v : Int) - 2 ^ w

/-- The one-bit field at bit i. -/
def bit {n : Nat} (p : BitVec n) (i : Nat) : Bool := fld p i 1 == 1

/-- The low w bits of an integer, in two's complement. -/
def twos (w : Nat) (i : Int) : Nat := (i % (2 ^ w : Nat)).toNat

/-- A number in w bits, held at the largest value that fits. -/
def sat (w v : Nat) : Nat := min v (2 ^ w - 1)

/-- One word made of fields (lsb, width, value); the bits that no field covers are 0. -/
def pack (fs : List (Nat × Nat × Nat)) : Nat :=
  fs.foldl (fun a f => a + (f.2.2 % 2 ^ f.2.1) * 2 ^ f.1) 0

/-- The mask of the fields (lsb, width). -/
def maskOf (fs : List (Nat × Nat)) : Nat := fs.foldl (fun a f => a ||| ((2 ^ f.2 - 1) * 2 ^ f.1)) 0

/-- The number of the lowest set bit below n, where one is set. -/
def lowestBit (v n : Nat) : Option Nat := (List.range n).find? (fun i => v / 2 ^ i % 2 == 1)

/-- A list of bytes, lowest first, as a number. -/
def leNat : List Byte → Nat
  | [] => 0
  | b :: r => b.toNat + 256 * leNat r

/-- The k low bytes of a number, lowest first. -/
def toBytes : Nat → Nat → List Byte
  | 0, _ => []
  | k + 1, v => BitVec.ofNat 8 v :: toBytes k (v / 256)

/-- The w-byte number at byte offset o of a list of bytes; bytes beyond its end count as 0. -/
def at8 (bs : List Byte) (o w : Nat) : Nat := leNat ((bs.drop o).take w)

/-- A number in w bits read as two's complement. -/
def signed (w v : Nat) : Int := if v % 2 ^ w < 2 ^ (w - 1) then ((v % 2 ^ w : Nat) : Int) else ((v % 2 ^ w : Nat) : Int) - 2 ^ w

/-- One bit step of the reflected CRC-32C. -/
def crc32Step : Nat → Nat → Nat
  | 0, c => c
  | k + 1, c => crc32Step k (if c % 2 == 1 then (c / 2) ^^^ 0x82F63B78 else c / 2)

/-- CRC-32C of R198. -/
def crc32c (bs : List Byte) : Nat :=
  (bs.foldl (fun c b => crc32Step 8 (c ^^^ b.toNat)) 0xFFFFFFFF) ^^^ 0xFFFFFFFF

/-- One bit step of the CRC-16 of R335. -/
def crc16Step : Nat → Nat → Nat
  | 0, c => c
  | k + 1, c => crc16Step k (if c / 0x8000 % 2 == 1 then (c * 2 ^^^ 0x1021) % 0x10000 else c * 2 % 0x10000)

/-- The CRC-16 of R335: polynomial 0x1021, initial value 0xFFFF, not reflected, no final XOR. -/
def crc16 (bs : List Byte) : Nat := bs.foldl (fun c b => crc16Step 8 (c ^^^ (b.toNat * 256))) 0xFFFF

/-- The CRC-8 of R200 over k bits of v, bit 0 first: polynomial x⁸ + x² + x + 1, initial value 0. -/
def crc8Bits : Nat → Nat → Nat → Nat
  | 0, _, c => c
  | k + 1, v, c =>
    let top := (c / 0x80 + v) % 2
    crc8Bits k (v / 2) (if top == 1 then (c * 2 % 0x100) ^^^ 0x07 else c * 2 % 0x100)

/-- The quotient rounded to the nearest integer, a half upwards. -/
def divRound (a b : Nat) : Nat := if b = 0 then 0 else (2 * a + b) / (2 * b)

/-- The quotient rounded up. -/
def divUp (a b : Nat) : Nat := if b = 0 then 0 else (a + b - 1) / b

/-- A rational rounded to the nearest integer, a half upwards. -/
def ratRound (q : Rat) : Int := (q + 1 / 2).floor

/-- A rational held between two bounds. -/
def ratClamp (lo hi q : Rat) : Rat := if q < lo then lo else if hi < q then hi else q

/-- An integer held between two bounds. -/
def intClamp (lo hi q : Int) : Int := if q < lo then lo else if hi < q then hi else q

/-- A vector with the function applied at one index. -/
def upd {α : Type} {n : Nat} (v : Vector α n) (i : Fin n) (f : α → α) : Vector α n := v.set i (f v[i])

/-- The heads in ascending order. -/
def allHeads : List Head := [0, 1, 2, 3]

/-- The colours in ascending order. -/
def allColours : List Colour := [0, 1, 2]

/-- All numbers below n, ascending. -/
def allFin (n : Nat) : List (Fin n) := List.finRange n

/-- The sum of a function over a list. -/
def sumOf {α : Type} (l : List α) (f : α → Nat) : Nat := l.foldl (fun a x => a + f x) 0

/-- The largest value of a function over a list, 0 for the empty list. -/
def maxOf {α : Type} (l : List α) (f : α → Nat) : Nat := l.foldl (fun a x => max a (f x)) 0

/-- A state carried through a list. -/
def forEach {σ α : Type} (l : List α) (f : α → σ → σ) (s : σ) : σ := l.foldl (fun s x => f x s) s

/-- 2 ns units (R19) of a time in µs. -/
def usT (us : Nat) : Nat := us * 500

/-- 2 ns units of a time in ms. -/
def msT (ms : Nat) : Nat := ms * 500000

/-! ## The byte memories: canonical lists, an unlisted byte reads 0 (log entry 7) -/

/-- The byte at an address. -/
def memGet : List Host.Cell → Nat → Byte
  | [], _ => 0
  | (b, v) :: r, a => if a = b then v else memGet r a

/-- One byte written, the canonical form kept: addresses strictly rising, no byte 0 listed. -/
def memSet : List Host.Cell → Nat → Byte → List Host.Cell
  | [], a, x => if x = 0 then [] else [(a, x)]
  | (b, v) :: r, a, x =>
    if a < b then (if x = 0 then (b, v) :: r else (a, x) :: (b, v) :: r)
    else if a = b then (if x = 0 then r else (a, x) :: r)
    else (b, v) :: memSet r a x

/-- Bytes written upwards from an address. -/
def memPut : List Host.Cell → Nat → List Byte → List Host.Cell
  | m, _, [] => m
  | m, a, x :: r => memPut (memSet m a x) (a + 1) r

/-- k bytes read upwards from an address. -/
def memRead (m : List Host.Cell) (a k : Nat) : List Byte := (List.range k).map (fun i => memGet m (a + i))

/-- The canonical form: every listed address is at least lo, addresses rise strictly, and no byte 0 is listed. -/
def Memory.wfFrom : Nat → List Host.Cell → Bool
  | _, [] => true
  | lo, (b, v) :: r => decide (lo ≤ b) && decide (v ≠ 0) && Memory.wfFrom (b + 1) r

/-- A byte memory in canonical form. -/
def Memory.wf (m : List Host.Cell) : Bool := Memory.wfFrom 0 m

/-! ## The scrambler and the sync header (R192, R445) -/

/-- A body scrambled by x⁵⁸ + x³⁹ + 1 after the last 58 bits sent, and the last 58 bits then. Each bit sent is the body's bit added
to those sent 39 and 58 bits before it. -/
def scrambleBody (st body : Nat) : Nat × Nat :=
  let low := (body ^^^ st ^^^ (st / 2 ^ 19)) % 2 ^ 39
  let high := (body / 2 ^ 39 ^^^ (st + low * 2 ^ 58) / 2 ^ 39 ^^^ low) % 2 ^ 25
  let sent := low + high * 2 ^ 39
  (sent, sent / 2 ^ 6)

/-- A word, bit 0 the first on the lane: the sync header, 0 then 1 for a data word and 1 then 0 for a marker word, then the body. A lane
of inverted polarity sends every bit inverted (R214, R220). -/
def laneWord (inverted marker : Bool) (body : Nat) : BitVec 66 :=
  let w := BitVec.ofNat 66 ((if marker then 1 else 2) + 4 * body)
  if inverted then ~~~w else w

/-- Marker words (true) and data words as they leave a lane, and the scrambler after them. -/
def codeWords (inverted : Bool) : Nat → List (Bool × Nat) → List (BitVec 66) × Nat
  | st, [] => ([], st)
  | st, w :: r =>
    let x := scrambleBody st w.2
    let y := codeWords inverted x.2 r
    (laneWord inverted w.1 x.1 :: y.1, y.2)

/-! ## Control words (R200, R201) -/

/-- The body of a control word. -/
def ctrlBody (ctype argA argB : Nat) : Nat :=
  let v := pack [(0, 8, ctype), (8, 13, argA), (21, 2, 3), (23, 33, argB)]
  v + crc8Bits 56 v 0 * 2 ^ 56

/-- TRAIN with the three taps of a lane's FFE, of which the main one takes what the others leave of 63 (R499). -/
def trainBody (h : Head) (lane : Fin 8) (rate : Nat) (ffe : Nat × Nat) : Nat :=
  ctrlBody 4 (pack [(0, 3, lane.val), (3, 2, h.val), (5, 2, rate)])
    (pack [(0, 6, ffe.1), (6, 6, 63 - ffe.1 - ffe.2), (12, 6, ffe.2)])

end Sys2Proof.Machine
end

