-- ==== Sys2Proof/Machine/Flags.lean ====
section
/-! DEFINITION. The numbers that the spec assigns: statuses (R382), event codes and sources (R390), phase codes (R21). -/

namespace Sys2Proof.Machine

/-! ## Statuses of R382 -/

/-- STATUS_OK. -/
abbrev stOk : BitVec 16 := 0x0000
/-- STATUS_OPCODE. -/
abbrev stOpcode : BitVec 16 := 0x0001
/-- STATUS_QUEUE. -/
abbrev stQueue : BitVec 16 := 0x0002
/-- STATUS_RESERVED_SET. -/
abbrev stReservedSet : BitVec 16 := 0x0003
/-- STATUS_RANGE. -/
abbrev stRange : BitVec 16 := 0x0004
/-- STATUS_BLOCK_RUNNING. -/
abbrev stBlockRunning : BitVec 16 := 0x0005
/-- STATUS_CRC. -/
abbrev stCrc : BitVec 16 := 0x0006
/-- STATUS_STAGING_RANGE. -/
abbrev stStagingRange : BitVec 16 := 0x0007
/-- STATUS_E2E_CRC. -/
abbrev stE2eCrc : BitVec 16 := 0x0008
/-- STATUS_E2E_ALIVE. -/
abbrev stE2eAlive : BitVec 16 := 0x0009
/-- STATUS_RECORD. -/
abbrev stRecord : BitVec 16 := 0x000A
/-- STATUS_BANDWIDTH. -/
abbrev stBandwidth : BitVec 16 := 0x0010
/-- STATUS_REGION_TOO_SMALL. -/
abbrev stRegionTooSmall : BitVec 16 := 0x0011
/-- STATUS_PIXEL_RATE. -/
abbrev stPixelRate : BitVec 16 := 0x0012
/-- STATUS_LINE_POOL. -/
abbrev stLinePool : BitVec 16 := 0x0013
/-- STATUS_SHOW_FIT. -/
abbrev stShowFit : BitVec 16 := 0x0014
/-- STATUS_FORMAT. -/
abbrev stFormat : BitVec 16 := 0x0100
/-- STATUS_ALIGNMENT. -/
abbrev stAlignment : BitVec 16 := 0x0101
/-- STATUS_RECT_INVALID. -/
abbrev stRectInvalid : BitVec 16 := 0x0102
/-- STATUS_SCALE_RANGE. -/
abbrev stScaleRange : BitVec 16 := 0x0103
/-- STATUS_LAYER_TYPE. -/
abbrev stLayerType : BitVec 16 := 0x0104
/-- STATUS_COEFF_SUM. -/
abbrev stCoeffSum : BitVec 16 := 0x0105
/-- STATUS_ORDER_INVALID. -/
abbrev stOrderInvalid : BitVec 16 := 0x0106
/-- STATUS_CANVAS_UNSET. -/
abbrev stCanvasUnset : BitVec 16 := 0x0107
/-- STATUS_COMMIT_QUEUE_FULL. -/
abbrev stCommitQueueFull : BitVec 16 := 0x0108
/-- STATUS_FENCE_ADDR. -/
abbrev stFenceAddr : BitVec 16 := 0x0109
/-- STATUS_FENCE_LIMIT. -/
abbrev stFenceLimit : BitVec 16 := 0x010A
/-- STATUS_FENCE_LAYER. -/
abbrev stFenceLayer : BitVec 16 := 0x010B
/-- STATUS_MESH_FORMAT. -/
abbrev stMeshFormat : BitVec 16 := 0x0200
/-- STATUS_MESH_MISMATCH. -/
abbrev stMeshMismatch : BitVec 16 := 0x0201
/-- STATUS_WARP_FOOTPRINT. -/
abbrev stWarpFootprint : BitVec 16 := 0x0202
/-- STATUS_FETCH_FACTOR. -/
abbrev stFetchFactor : BitVec 16 := 0x0203
/-- STATUS_CHAIN_FOLLOWER. -/
abbrev stChainFollower : BitVec 16 := 0x0204
/-- STATUS_SEQ_FORMAT. -/
abbrev stSeqFormat : BitVec 16 := 0x0205
/-- STATUS_HEAD_TYPE. -/
abbrev stHeadType : BitVec 16 := 0x0206
/-- STATUS_DUTY. -/
abbrev stDuty : BitVec 16 := 0x0207
/-- STATUS_DEPTH. -/
abbrev stDepth : BitVec 16 := 0x0208
/-- STATUS_LINK_SCHEDULE. -/
abbrev stLinkSchedule : BitVec 16 := 0x0209
/-- STATUS_RASTER_UNSET. -/
abbrev stRasterUnset : BitVec 16 := 0x020A
/-- STATUS_RTABLE_FORMAT. -/
abbrev stRtableFormat : BitVec 16 := 0x020B
/-- STATUS_CHANNEL_LIMIT. -/
abbrev stChannelLimit : BitVec 16 := 0x0300
/-- STATUS_LIGHT_UNSET. -/
abbrev stLightUnset : BitVec 16 := 0x0301
/-- STATUS_LEVEL_FLOOR. -/
abbrev stLevelFloor : BitVec 16 := 0x0302
/-- STATUS_OS_ASSIGN. -/
abbrev stOsAssign : BitVec 16 := 0x0303
/-- STATUS_CTABLE_FORMAT. -/
abbrev stCtableFormat : BitVec 16 := 0x0304
/-- STATUS_LAMP_FIT. -/
abbrev stLampFit : BitVec 16 := 0x0305
/-- STATUS_SAFE_LATCHED. -/
abbrev stSafeLatched : BitVec 16 := 0x0500
/-- STATUS_CAL_PRECOND_FAIL. -/
abbrev stCalPrecondFail : BitVec 16 := 0x0600
/-- STATUS_CAL_BUSY. -/
abbrev stCalBusy : BitVec 16 := 0x0601
/-- STATUS_CAL_NO_RESULT. -/
abbrev stCalNoResult : BitVec 16 := 0x0602
/-- STATUS_OTP_FULL. -/
abbrev stOtpFull : BitVec 16 := 0x0603
/-- STATUS_SESSION_BUSY. -/
abbrev stSessionBusy : BitVec 16 := 0x0700
/-- STATUS_SESSION_STATE. -/
abbrev stSessionState : BitVec 16 := 0x0701
/-- STATUS_PREEMPT_DENIED. -/
abbrev stPreemptDenied : BitVec 16 := 0x0702
/-- STATUS_SIGNATURE. -/
abbrev stSignature : BitVec 16 := 0x0703
/-- STATUS_SCHEMA_NEWER. -/
abbrev stSchemaNewer : BitVec 16 := 0x0704
/-- STATUS_IMAGE_STATE. -/
abbrev stImageState : BitVec 16 := 0x0705
/-- STATUS_CHAIN_ROLE. -/
abbrev stChainRole : BitVec 16 := 0x0800
/-- STATUS_CHAIN_ADDR. -/
abbrev stChainAddr : BitVec 16 := 0x0801
/-- STATUS_CHAIN_LIMIT. -/
abbrev stChainLimit : BitVec 16 := 0x0802
/-- STATUS_CHAIN_HOP. -/
abbrev stChainHop : BitVec 16 := 0x0803

/-! ## Event codes of R390, with those of 15 and 16 -/

/-- TICK_ALIGNED. -/
abbrev evTickAligned : BitVec 16 := 0x0000
/-- BLANK_START. -/
abbrev evBlankStart : BitVec 16 := 0x0001
/-- TIMING_APPLIED. -/
abbrev evTimingApplied : BitVec 16 := 0x0002
/-- TRANSITION_END. -/
abbrev evTransitionEnd : BitVec 16 := 0x0003
/-- LINE_MATCH. -/
abbrev evLineMatch : BitVec 16 := 0x0004
/-- DIM_REACHED. -/
abbrev evDimReached : BitVec 16 := 0x0005
/-- DIM_HELD. -/
abbrev evDimHeld : BitVec 16 := 0x0006
/-- FRAME_DONE. -/
abbrev evFrameDone : BitVec 16 := 0x0010
/-- UNDERRUN. -/
abbrev evUnderrun : BitVec 16 := 0x0011
/-- BUILD_CUT. -/
abbrev evBuildCut : BitVec 16 := 0x0012
/-- WARP_APPLIED. -/
abbrev evWarpApplied : BitVec 16 := 0x0013
/-- WARP_STAGE_CORRUPT. -/
abbrev evWarpStageCorrupt : BitVec 16 := 0x0014
/-- WARP_FETCH_OVER. -/
abbrev evWarpFetchOver : BitVec 16 := 0x0015
/-- SEQ_APPLIED. -/
abbrev evSeqApplied : BitVec 16 := 0x0016
/-- SEQ_STAGE_CORRUPT. -/
abbrev evSeqStageCorrupt : BitVec 16 := 0x0017
/-- SEQ_DUTY_LOW. -/
abbrev evSeqDutyLow : BitVec 16 := 0x0018
/-- RASTER_LOCK. -/
abbrev evRasterLock : BitVec 16 := 0x0020
/-- RASTER_FAULT. -/
abbrev evRasterFault : BitVec 16 := 0x0021
/-- RASTER_LINES_LOST. -/
abbrev evRasterLinesLost : BitVec 16 := 0x0022
/-- RTABLE_APPLIED. -/
abbrev evRtableApplied : BitVec 16 := 0x0023
/-- RTABLE_STAGE_CORRUPT. -/
abbrev evRtableStageCorrupt : BitVec 16 := 0x0024
/-- FLIP. -/
abbrev evFlip : BitVec 16 := 0x0100
/-- COMMIT_LATE. -/
abbrev evCommitLate : BitVec 16 := 0x0101
/-- COMMIT_ABANDONED. -/
abbrev evCommitAbandoned : BitVec 16 := 0x0102
/-- FENCE_ERROR. -/
abbrev evFenceError : BitVec 16 := 0x0103
/-- BUFFER_RELEASED. -/
abbrev evBufferReleased : BitVec 16 := 0x0110
/-- LAYER_HELD. -/
abbrev evLayerHeld : BitVec 16 := 0x0111
/-- LAYER_DROPPED. -/
abbrev evLayerDropped : BitVec 16 := 0x0112
/-- GTC_TILE_ERROR. -/
abbrev evGtcTileError : BitVec 16 := 0x0113
/-- SURFACE_READ_ERROR. -/
abbrev evSurfaceReadError : BitVec 16 := 0x0114
/-- TABLE_APPLIED. -/
abbrev evTableApplied : BitVec 16 := 0x0115
/-- TABLE_STAGE_CORRUPT. -/
abbrev evTableStageCorrupt : BitVec 16 := 0x0116
/-- LINK_PLANE_LOST. -/
abbrev evLinkPlaneLost : BitVec 16 := 0x0200
/-- LINK_ERRORS. -/
abbrev evLinkErrors : BitVec 16 := 0x0201
/-- LINK_READBACK_FAIL. -/
abbrev evLinkReadbackFail : BitVec 16 := 0x0202
/-- LINK_TRAINED. -/
abbrev evLinkTrained : BitVec 16 := 0x0203
/-- LINK_DOWN. -/
abbrev evLinkDown : BitVec 16 := 0x0204
/-- ARRAY_STATUS. -/
abbrev evArrayStatus : BitVec 16 := 0x0205
/-- ARRAY_TIMING. -/
abbrev evArrayTiming : BitVec 16 := 0x0206
/-- CH_FAULT. -/
abbrev evChFault : BitVec 16 := 0x0300
/-- CH_STATE. -/
abbrev evChState : BitVec 16 := 0x0301
/-- COLOUR_HELD. -/
abbrev evColourHeld : BitVec 16 := 0x0400
/-- COLOUR_LIMIT. -/
abbrev evColourLimit : BitVec 16 := 0x0401
/-- CTABLE_APPLIED. -/
abbrev evCtableApplied : BitVec 16 := 0x0402
/-- CTABLE_STAGE_CORRUPT. -/
abbrev evCtableStageCorrupt : BitVec 16 := 0x0403
/-- OS_FAULT. -/
abbrev evOsFault : BitVec 16 := 0x0410
/-- LAMP_NOFIT. -/
abbrev evLampNofit : BitVec 16 := 0x0420
/-- LAMP_FADES_DONE. -/
abbrev evLampFadesDone : BitVec 16 := 0x0421
/-- SLUICE_CUT. -/
abbrev evSluiceCut : BitVec 16 := 0x0500
/-- QUOTA_BELOW_FLOOR. -/
abbrev evQuotaBelowFloor : BitVec 16 := 0x0501
/-- LIGHT_CAP. -/
abbrev evLightCap : BitVec 16 := 0x0502
/-- SLUICE_DEFERRED. -/
abbrev evSluiceDeferred : BitVec 16 := 0x0503
/-- THERMAL_STEP. -/
abbrev evThermalStep : BitVec 16 := 0x0510
/-- THERMAL_WARN. -/
abbrev evThermalWarn : BitVec 16 := 0x0511
/-- THERMAL_TRIP. -/
abbrev evThermalTrip : BitVec 16 := 0x0512
/-- THERMAL_SENSOR_FAIL. -/
abbrev evThermalSensorFail : BitVec 16 := 0x0513
/-- THERMAL_SENSOR_OK. -/
abbrev evThermalSensorOk : BitVec 16 := 0x0514
/-- SAFETY_FAULT. -/
abbrev evSafetyFault : BitVec 16 := 0x0600
/-- SAFE_STATE_ENTER. -/
abbrev evSafeStateEnter : BitVec 16 := 0x0601
/-- SAFE_STATE_EXIT. -/
abbrev evSafeStateExit : BitVec 16 := 0x0602
/-- TELLTALE_APPLIED. -/
abbrev evTelltaleApplied : BitVec 16 := 0x0603
/-- TELLTALE_PROVEN. -/
abbrev evTelltaleProven : BitVec 16 := 0x0604
/-- PROOF_INVALID. -/
abbrev evProofInvalid : BitVec 16 := 0x0605
/-- Q2_TIMEOUT. -/
abbrev evQ2Timeout : BitVec 16 := 0x0606
/-- E2E_ERROR. -/
abbrev evE2eError : BitVec 16 := 0x0607
/-- ENERGY_TRIP. -/
abbrev evEnergyTrip : BitVec 16 := 0x0608
/-- ECC_CORRECTED. -/
abbrev evEccCorrected : BitVec 16 := 0x0609
/-- CXL_LINK. -/
abbrev evCxlLink : BitVec 16 := 0x0700
/-- CXL_ERROR. -/
abbrev evCxlError : BitVec 16 := 0x0701
/-- HOST_STATE. -/
abbrev evHostState : BitVec 16 := 0x0702
/-- BANDWIDTH_LIMITED. -/
abbrev evBandwidthLimited : BitVec 16 := 0x0703
/-- CORE_RESTART. -/
abbrev evCoreRestart : BitVec 16 := 0x0710
/-- EVENTS_SUPPRESSED. -/
abbrev evEventsSuppressed : BitVec 16 := 0x0711
/-- CAL_DONE. -/
abbrev evCalDone : BitVec 16 := 0x0720
/-- CAL_APPLIED. -/
abbrev evCalApplied : BitVec 16 := 0x0721
/-- CAL_SEALED. -/
abbrev evCalSealed : BitVec 16 := 0x0722
/-- CAL_GEN_INVALID. -/
abbrev evCalGenInvalid : BitVec 16 := 0x0723
/-- UPDATE_STATE. -/
abbrev evUpdateState : BitVec 16 := 0x0730
/-- UPDATE_REVERTED. -/
abbrev evUpdateReverted : BitVec 16 := 0x0731
/-- UPDATE_CHAIN_FAIL. -/
abbrev evUpdateChainFail : BitVec 16 := 0x0732
/-- SETTINGS_MIGRATED. -/
abbrev evSettingsMigrated : BitVec 16 := 0x0738
/-- SETTINGS_FALLBACK. -/
abbrev evSettingsFallback : BitVec 16 := 0x0739
/-- CW_LINK. -/
abbrev evCwLink : BitVec 16 := 0x0740
/-- CW_ERRORS. -/
abbrev evCwErrors : BitVec 16 := 0x0741
/-- CHAIN_ENUMERATED. -/
abbrev evChainEnumerated : BitVec 16 := 0x0748
/-- CHAIN_BOUNDARY_MISS. -/
abbrev evChainBoundaryMiss : BitVec 16 := 0x0749

/-! ## Sources of R390: SOURCE = 64 × group + index -/

/-- The tick generator. -/
abbrev srcTick : Nat := 0
/-- The commit engine. -/
abbrev srcCommit : Nat := 64
/-- The canvas. -/
abbrev srcCanvas : Nat := 65
/-- The Sluice. -/
abbrev srcSluice : Nat := 320
/-- Throttle and trips. -/
abbrev srcThermal : Nat := 321
/-- The safe state. -/
abbrev srcSafe : Nat := 384
/-- Q2 and tell-tales. -/
abbrev srcQ2 : Nat := 385
/-- Memory. -/
abbrev srcMemory : Nat := 396
/-- The CXL port. -/
abbrev srcCxl : Nat := 448
/-- The event system. -/
abbrev srcEvents : Nat := 449
/-- The control cores. -/
abbrev srcCores : Nat := 450
/-- Calibration. -/
abbrev srcCal : Nat := 451
/-- Update. -/
abbrev srcUpdate : Nat := 452
/-- Settings. -/
abbrev srcSettings : Nat := 453
/-- CW_U. -/
abbrev srcCwU : Nat := 454
/-- CW_D. -/
abbrev srcCwD : Nat := 455
/-- The chain relay. -/
abbrev srcRelay : Nat := 456
/-- Line-match comparator i. -/
abbrev srcLineMatch (i : Nat) : Nat := 1 + i
/-- Head h. -/
abbrev srcHead (h : Head) : Nat := 4 + h.val
/-- Raster scanner h. -/
abbrev srcRaster (h : Head) : Nat := 8 + h.val
/-- Layer k. -/
abbrev srcLayer (k : Layer) : Nat := 72 + k.val
/-- Lane group g. -/
abbrev srcLink (g : Head) : Nat := 128 + g.val
/-- Channel n. -/
abbrev srcChan (n : Chan) : Nat := 192 + n.val
/-- The colour loops of head h. -/
abbrev srcColour (h : Head) : Nat := 256 + h.val
/-- Optical sense input i. -/
abbrev srcOs (i : Fin 8) : Nat := 264 + i.val
/-- Thread line i. -/
abbrev srcLine (i : Fin 4) : Nat := 272 + i.val
/-- Sensor i of R303. -/
abbrev srcSensor (i : Fin 36) : Nat := 324 + i.val
/-- The safety window of head h. -/
abbrev srcWindow (h : Head) : Nat := 388 + h.val
/-- The energy integrators of head h. -/
abbrev srcEnergy (h : Head) : Nat := 392 + h.val

/-- The phase code of R21. -/
def Phase.code : Phase → Nat
  | .latch => 0 | .blank => 1 | .show => 2 | .built => 3 | .cut => 4 | .finish => 5

/-- The group of a source (R390). -/
def groupOf (src : Nat) : Nat := src / 64

/-- Group 6 and sources 448 and 449 cannot be masked (R387). -/
def unmaskable (src : Nat) : Bool := groupOf src == 6 || src == 448 || src == 449

end Sys2Proof.Machine
end

