-- ==== Sys2Proof/Machine/Ops.lean ====
section
/-! DEFINITION. The operations that every command shares: what leaves the block, MSI-X signals, the safe-state reaction,
recording and delivering events, the completion journal, Causeway packets. -/

namespace Sys2Proof.Machine

/-! ## Parts of the state -/

def onClk (f : Clock → Clock) (s : State) : State := { s with clk := f s.clk }
def onCfg (f : Cfg → Cfg) (s : State) : State := { s with cfg := f s.cfg }
def onCom (f : CommitDyn → CommitDyn) (s : State) : State := { s with com := f s.com }
def onComp (f : CompDyn → CompDyn) (s : State) : State := { s with comp := f s.comp }
def onHead (h : Head) (f : HeadDyn → HeadDyn) (s : State) : State := { s with heads := upd s.heads h f }
def onLink (g : Head) (f : LinkDyn → LinkDyn) (s : State) : State := { s with links := upd s.links g f }
def onRaster (h : Head) (f : RasterDyn → RasterDyn) (s : State) : State := { s with rasters := upd s.rasters h f }
def onChan (c : Chan) (f : ChanDyn → ChanDyn) (s : State) : State := { s with chans := upd s.chans c f }
def onLoop (h : Head) (c : Colour) (f : LoopDyn → LoopDyn) (s : State) : State :=
  { s with loops := upd s.loops h (fun v => upd v c f) }
def onOs (i : Fin 8) (f : OsDyn → OsDyn) (s : State) : State := { s with oss := upd s.oss i f }
def onLine (i : Fin 4) (f : LineDyn → LineDyn) (s : State) : State := { s with lines := upd s.lines i f }
def onSluice (f : SluiceDyn → SluiceDyn) (s : State) : State := { s with sluice := f s.sluice }
def onTherm (f : ThermDyn → ThermDyn) (s : State) : State := { s with therm := f s.therm }
def onSafety (f : SafetyDyn → SafetyDyn) (s : State) : State := { s with safety := f s.safety }
def onCxl (f : CxlDyn → CxlDyn) (s : State) : State := { s with cxl := f s.cxl }
def onQueue (q : Fin 4) (f : QueueDyn → QueueDyn) (s : State) : State := { s with queues := upd s.queues q f }
def onEv (f : EvDyn → EvDyn) (s : State) : State := { s with ev := f s.ev }
def onBoot (f : BootDyn → BootDyn) (s : State) : State := { s with boot := f s.boot }
def onPower (f : PowerDyn → PowerDyn) (s : State) : State := { s with power := f s.power }
def onCal (f : CalDyn → CalDyn) (s : State) : State := { s with cal := f s.cal }
def onFlash (f : Flash → Flash) (s : State) : State := { s with flash := f s.flash }
def onUpd (f : UpdDyn → UpdDyn) (s : State) : State := { s with upd := f s.upd }
def onCw (f : CwDyn → CwDyn) (s : State) : State := { s with cw := f s.cw }
def onHeads (f : Vector HeadDyn 4 → Vector HeadDyn 4) (s : State) : State := { s with heads := f s.heads }
def onLinks (f : Vector LinkDyn 4 → Vector LinkDyn 4) (s : State) : State := { s with links := f s.links }
def onRasters (f : Vector RasterDyn 4 → Vector RasterDyn 4) (s : State) : State := { s with rasters := f s.rasters }
def onChans (f : Vector ChanDyn 64 → Vector ChanDyn 64) (s : State) : State := { s with chans := f s.chans }
def onLoops (f : Vector (Vector LoopDyn 3) 4 → Vector (Vector LoopDyn 3) 4) (s : State) : State := { s with loops := f s.loops }
def onQueues (f : Vector QueueDyn 4 → Vector QueueDyn 4) (s : State) : State := { s with queues := f s.queues }
def onOtp (f : Otp → Otp) (s : State) : State := { s with otp := f s.otp }
def onJtag (f : JtagDyn → JtagDyn) (s : State) : State := { s with jtag := f s.jtag }
def onBar2 (f : List Host.Cell → List Host.Cell) (s : State) : State := { s with bar2 := f s.bar2 }
def onPlanes (f : List Host.Cell → List Host.Cell) (s : State) : State := { s with planes := f s.planes }
def onCanvas (f : List (Nat × BitVec 72) → List (Nat × BitVec 72)) (s : State) : State := { s with canvas := f s.canvas }
def onMirrorGen (f : Nat → Nat) (s : State) : State := { s with mirrorGen := f s.mirrorGen }
def onFree (f : Nat → Nat) (s : State) : State := { s with free := f s.free }
def onOpenSet (f : List CfgWrite → List CfgWrite) (s : State) : State := { s with openSet := f s.openSet }
def onPendLv (f : List CfgWrite → List CfgWrite) (s : State) : State := { s with pendLv := f s.pendLv }

/-- Something leaves the block. -/
def emit (o : Output) (s : State) : State := { s with out := o :: s.out }

/-- A range of memory in pieces of at most `most` bytes. -/
def pieces (most a n : Nat) : List (Nat × Nat) := (List.range (divUp n most)).map fun i => (a + i * most, min most (n - i * most))

/-- Memory requests on CXL.io: reads of at most 512 bytes, writes of at most the Max Payload Size (R357), which is never above 512. -/
def askIo (write : Bool) (ranges : List (Nat × Nat)) (s : State) : State :=
  let most := if write then 128 * 2 ^ min 2 s.cxl.mps.toNat else 512
  let big := s.cxl.link.flit256
  match (ranges.map fun r => pieces most r.1 r.2).flatten with
  | [] => s
  | reqs => emit (.cxlIo write reqs (if big then 14 else 10) (if big then 2048 else 768)) s

/-- The next free value, and the state in which it has been drawn (log entry 5). -/
def drawFree (s : State) : BitVec 64 × State := (Config.freeValue s.free, onFree (· + 1) s)

/-- A bit of a head mask. -/
def headBit (h : Head) : BitVec 4 := BitVec.ofNat 4 (2 ^ h.val)

/-! ## BAR2, the host window (R31, R34, R373) -/

/-- The upload staging area of R373 begins here. -/
def stageLo : Nat := 0x10000
/-- The first offset after the staging area. -/
def stageHi : Nat := 0x3C000

/-- STAGE_OFFSET of R373: a multiple of 64, the data wholly inside the staging area. -/
def stagedOk (off len : Nat) : Bool := off % 64 == 0 && decide (stageLo ≤ off) && decide (off + len ≤ stageHi)

/-- Staged bytes. -/
def staged (s : State) (off len : Nat) : List Byte := memRead s.bar2 off len

/-! ## Interrupts (R363, R364) -/

/-- A vector is signalled, or its pending bit is set while it is masked. -/
def signal (v : Fin 64) (s : State) : State :=
  if s.cxl.msixMask.getLsbD v.val then onCxl (fun c => { c with msixPend := c.msixPend ||| BitVec.ofNat 64 (2 ^ v.val) }) s
  else emit (.msix v) (onCxl (fun c => { c with lastSignal := c.lastSignal.set v (some s.clk.now) }) s)

/-- COALESCE_US (values above 1000 act as 1000), in 2 ns units. -/
def coalesceT (s : State) : Nat := usT (min s.ev.coalesce 1000)

/-- The event vector of a source's group (R363). -/
def eventVector (src : Nat) (s : State) : Fin 64 := if s.ev.vecMode then Fin.ofNat 64 (8 + groupOf src % 8) else 0

/-- A record of a source becomes visible (R364): its vector is signalled, or waits for COALESCE_US to pass. -/
def signalEvent (src : Nat) (s : State) : State :=
  let v := eventVector src s
  match s.cxl.lastSignal[v] with
  | some t =>
    if s.clk.now < t + coalesceT s then onCxl (fun c => { c with sigDue := c.sigDue ||| BitVec.ofNat 64 (2 ^ v.val) }) s
    else signal v s
  | none => signal v s

/-! ## The safe state (R341 to R343): the reaction without its events -/

/-- The light of channels is diverted: the shunt gates drop, and where hardware acts the buck gates go low as well. -/
def divert (p : Chan → Bool) (hard : Bool) (s : State) : State :=
  onChans (fun v => Vector.ofFn fun i =>
    if p i then { v[i] with gateOpen := false, bucksOff := v[i].bucksOff || hard } else v[i]) s

/-- 3600 s in 2 ns units (R343). -/
def hourT : Nat := 1800000000000

/-- A restartable fault came within 3600 s of the first (R343). -/
def recentRestart (s : State) : Bool :=
  match s.safety.firstRestart with
  | some t => decide (s.clk.now < t + hourT)
  | none => false

/-- The safe state is entered, or changed to its dark form, for mechanism m (R341, R342). `hd` is the head that goes dark,
`restartable` its class; a host request (m = 14) is no restartable fault for R343's 3600 s and none for R419 (log entry 9). -/
def safeReact (m : Nat) (hd : Option Head) (toDark restartable : Bool) (s : State) : State :=
  let request := m == 14
  let latch := !restartable || (!request && recentRestart s)
  let darkNow := toDark || s.safety.mode == .dark
  let s1 := onSafety (fun y => { y with
      mode := if darkNow then .dark else .window
      latched := y.latched || latch
      darkLatched := y.darkLatched || (latch && toDark)
      headDark := match hd with
        | some h => y.headDark ||| headBit h
        | none => y.headDark
      causes := y.causes ||| BitVec.ofNat 16 (2 ^ m)
      standing := if restartable && !request then y.standing ||| BitVec.ofNat 16 (2 ^ m) else y.standing
      exitDue := false
      toWindow := if request then y.toWindow else false
      firstRestart := if restartable && !request && !recentRestart s then some s.clk.now else y.firstRestart
      noRelease := y.noRelease || (y.mode == .start && !request)
      safeN := true }) s
  if toDark then divert (fun _ => true) false s1
  else match hd with
    | some h => divert (fun n => s.cfg.chans[n].st.head == h) false s1
    | none => s1

/-- SAFETY_FAULT's payload (R349). -/
def safetyFaultWord (m head colour : Nat) (latched : Bool) (rho : Nat) : Nat :=
  pack [(0, 5, m), (5, 2, head), (7, 2, colour), (9, 1, latched.toNat), (16, 16, sat 16 rho)]

/-- STATE of R348. -/
def SafeMode.code : SafeMode → Nat
  | .start => 0 | .normal => 1 | .window => 2 | .dark => 3

/-- SAFE_STATE_ENTER's payload (R349). -/
def safeEnterWord (s : State) : Nat :=
  pack [(0, 2, s.safety.mode.code), (4, 4, s.safety.headDark.toNat), (16, 16, s.safety.causes.toNat)]

/-! ## Causeway packets (R446) -/

/-- The marker word's body without CHK (R446). -/
def cwMarker (ptype : BitVec 8) (len : Nat) (dst : BitVec 9) (bcast : Bool) (src : BitVec 9) (arg : BitVec 21) : Nat :=
  pack [(0, 8, ptype.toNat), (8, 8, len), (16, 9, dst.toNat), (25, 1, bcast.toNat), (26, 9, src.toNat), (35, 21, arg.toNat)]

/-- The marker word's body with its CHK in bits 63:56. -/
def cwBody (m : Nat) : Nat := m + crc8Bits 56 m 0 * 2 ^ 56

/-- The CRC word of a packet: CRC-32C over the bodies of its earlier words. -/
def cwCrc (marker : Nat) (ws : List (BitVec 64)) : BitVec 64 :=
  BitVec.ofNat 64 (crc32c (toBytes 8 marker ++ (ws.map fun w => toBytes 8 w.toNat).flatten))

/-- The port of a direction. -/
def cwPort (p : Port) (s : State) : CwPort :=
  match p with
  | .up => s.cw.up
  | .down => s.cw.down

def onPort (p : Port) (f : CwPort → CwPort) (s : State) : State :=
  match p with
  | .up => onCw (fun c => { c with up := f c.up }) s
  | .down => onCw (fun c => { c with down := f c.down }) s

/-- Marker words (true) and data words leave on a port's transmit lane (R445). -/
def cwWords (p : Port) (ws : List (Bool × Nat)) (s : State) : State :=
  let i : Fin 2 := match p with
    | .up => 0
    | .down => 1
  let x := codeWords false s.cwScram[i].toNat ws
  emit (.cwLane p x.1) { s with cwScram := s.cwScram.set i (BitVec.ofNat 58 x.2) }

/-- A packet leaves on a port: its marker word, its data words and, where it has any, its CRC word. -/
def cwEmit (p : Port) (ptype : BitVec 8) (dst : BitVec 9) (bcast : Bool) (src : BitVec 9) (arg : BitVec 21)
    (ws : List (BitVec 64)) (s : State) : State :=
  let len := if ws.isEmpty then 0 else ws.length + 1
  let m := cwBody (cwMarker ptype len dst bcast src arg)
  let data := if ws.isEmpty then [] else ws ++ [cwCrc m ws]
  cwWords p ((true, m) :: data.map fun w => (false, w.toNat)) (emit (.cw p ptype dst bcast src arg data) s)

/-- A packet of this device, sent where the port runs. Device CHAIN_LEN − 1 of a chain that was cut sends only IDLE on CW_D
(R450). -/
def cwSend (p : Port) (ptype : BitVec 8) (dst : Nat) (arg : Nat) (ws : List (BitVec 64)) (s : State) : State :=
  if (cwPort p s).state == 2 && !(p == .down && s.cw.cutDown) then
    cwEmit p ptype (BitVec.ofNat 9 dst) false (BitVec.ofNat 9 s.cw.addr) (BitVec.ofNat 21 arg) ws s
  else s

/-! ## Events (R388 to R392) -/

/-- The record of R388. -/
def eventWord (replay : Bool) (e : Event) : BitVec 256 :=
  BitVec.ofNat 256 (pack [(0, 9, e.source), (9, 3, e.phase.code), (12, 1, replay.toNat), (16, 16, e.code.toNat),
    (32, 32, e.seq.toNat), (64, 48, e.tick.toNat), (128, 128, e.payload.toNat)])

/-- The group index of a source. -/
def groupIdx (src : Nat) : Fin 8 := Fin.ofNat 8 (groupOf src)

/-- R387: a masked source raises no event. -/
def masked (src : Nat) (s : State) : Bool := !unmaskable src && !s.ev.masks[groupIdx src].getLsbD (src % 64)

/-- Free records of the event store (R391). -/
def storeFree (s : State) : Nat := 4096 - s.ev.store.length

/-- How many records at the store's head lie before a mark. -/
def ackCount (mark : BitVec 32) (store : List Event) : Nat :=
  match store with
  | [] => 0
  | e :: _ => let k := (mark - e.seq).toNat; if k ≤ store.length then k else 0

/-- Fetching and event writing begin at the ready point (R416); in recovery the rings are served as well (R415). -/
def served (s : State) : Bool := s.boot.stage == .running || s.boot.stage == .recovery

/-- Entries of the event ring. -/
def evSize (s : State) : Nat := 2 ^ s.ev.sizeLog2

/-- The store's record of a SEQ. -/
def storeAt (seq : BitVec 32) (s : State) : Option Event := s.ev.store.find? (fun e => e.seq == seq)

/-- A record that depends on earlier writes waits for them (R112, R356): a BUFFER_RELEASED waits until every record issued before
it, and with it the FLIP of its LATCH, is globally observed, and until its release fence has been written again. -/
def dependsOn (e : Event) (s : State) : Bool :=
  e.code == evBufferReleased &&
    ((s.cxl.outstanding.any fun w => match w.id with
      | .evq _ => true
      | _ => false) ||
      s.com.relWrites.any fun w => w.event == some e.seq && w.st != .failed)

/-- One record is issued to the host ring where the ring runs, has room under EVQ_HEAD and a record waits (R391). A record of 32
bytes is a part line (R354). -/
def issueOne (s : State) : Option State :=
  if s.ev.en && served s && decide ((s.ev.next.toNat + 1) % evSize s ≠ s.ev.head.toNat) then
    match storeAt s.ev.sent s with
    | some e =>
      if dependsOn e s then none
      else
      let replay := e.seq != s.ev.issuedTo
      let a := s.ev.base.toNat + 32 * s.ev.next.toNat
      let w := eventWord replay e
      let s1 := emit (.eventRec a w) (emit (.cache .woWrInv [a / 64]) s)
      let s2 := onCxl (fun c => { c with outstanding := c.outstanding ++ [{ id := .evq e.source, addr := a, word := w.zeroExtend 512 }] }) s1
      some (onEv (fun v => { v with
        next := BitVec.ofNat 16 ((v.next.toNat + 1) % 2 ^ v.sizeLog2)
        ring := v.ring ++ [e.seq]
        sent := e.seq + 1
        issuedTo := if replay then v.issuedTo else e.seq + 1 }) s2)
    | none => none
  else none

/-- Records are issued while they can be. -/
def pumpHost : Nat → State → State
  | 0, s => s
  | k + 1, s =>
    match issueOne s with
    | some s' => pumpHost k s'
    | none => s

/-- The four data words of an event record (R447). -/
def eventWords (w : BitVec 256) : List (BitVec 64) := (List.range 4).map fun i => BitVec.ofNat 64 (fld w (64 * i) 64)

/-- Records are sent to the Causeway observer in SEQ order (R456). -/
def pumpChain : Nat → State → State
  | 0, s => s
  | k + 1, s =>
    if s.ev.chainObs && s.cw.down.state == 2 then
      match storeAt s.ev.chainSent s with
      | some e =>
        let replay := e.seq != s.ev.chainIssued
        let s1 := cwSend .down 0x50 (s.cw.addr + 1) 0 (eventWords (eventWord replay e)) s
        pumpChain k (onEv (fun v => { v with chainSent := e.seq + 1
                                             chainIssued := if replay then v.chainIssued else e.seq + 1 }) s1)
      | none => s
    else s

/-- An event takes the next SEQ, enters the store and goes to the observers (R389, R391). With no active observer it leaves
the store when it has been recorded. -/
def record (src : Nat) (code : BitVec 16) (payload : Nat) (s : State) : State :=
  let e : Event := { source := src, phase := s.clk.phase, code := code, seq := s.ev.seq, tick := BitVec.ofNat 48 s.clk.tick,
                     payload := BitVec.ofNat 128 payload }
  let keep := s.ev.hostObs || s.ev.chainObs
  let s1 := onEv (fun v => { v with seq := v.seq + 1, series := e :: v.series
                                    store := if keep then v.store ++ [e] else v.store }) s
  pumpChain 1 (pumpHost 1 s1)

/-- R392: a group-6 event finds the store full, and the device enters the safe state under mechanism 15; the two records of
that entry are owed until the reserve has room. -/
def storeFull (s : State) : State :=
  if s.safety.storeFull then s
  else
    let latched := recentRestart s
    let s1 := safeReact 15 none true true (onSafety (fun y => { y with storeFull := true }) s)
    onEv (fun v => { v with owed := v.owed ++
      [(srcSafe, evSafetyFault, BitVec.ofNat 128 (safetyFaultWord 15 0 0 latched 0)),
       (srcSafe, evSafeStateEnter, BitVec.ofNat 128 (safeEnterWord s1))] }) s1

/-- An event is raised: masked sources raise none (R387), the reserve of 256 records is kept for group 6 and
EVENTS_SUPPRESSED (R392), and CXL_LINK and CXL_ERROR signal vector 6 (R363). -/
def raise (src : Nat) (code : BitVec 16) (payload : Nat) (s : State) : State :=
  let s0 := if code == evCxlLink || code == evCxlError then signal 6 s else s
  if masked src s0 then s0
  else if groupOf src == 6 then (if storeFree s0 = 0 then storeFull s0 else record src code payload s0)
  else if src == srcEvents then (if storeFree s0 = 0 then s0 else record src code payload s0)
  else if s0.ev.full || decide (storeFree s0 ≤ 256) then
    onEv (fun v => { v with full := true, dropped := upd v.dropped (groupIdx src) (fun n => n + 1) }) s0
  else record src code payload s0

/-- EVENTS_SUPPRESSED's payload (R398). -/
def suppressedWord (d : Vector Nat 8) : Nat := pack ((allFin 8).map fun g => (16 * g.val, 16, sat 16 d[g]))

/-- The owed records of R392 enter as records become free. -/
def flushOwed : Nat → State → State
  | 0, s => s
  | k + 1, s =>
    match s.ev.owed with
    | [] => s
    | (src, code, p) :: r =>
      if storeFree s = 0 then s else flushOwed k (record src code p.toNat (onEv (fun v => { v with owed := r }) s))

/-- Records that every active observer has acknowledged leave the store (R391). Owed records then enter; with 1024 records
free, EVENTS_SUPPRESSED is recorded, recording starts again and the device may restart from cause 15 (R392). -/
def trimStore (s : State) : State :=
  let h := ackCount s.ev.ackNext s.ev.store
  let c := ackCount s.ev.chainAck s.ev.store
  let n := match s.ev.hostObs, s.ev.chainObs with
    | true, true => min h c
    | true, false => h
    | false, true => c
    | false, false => s.ev.store.length
  let s1 := flushOwed 2 (onEv (fun v => { v with store := v.store.drop n }) s)
  if 1024 ≤ storeFree s1 then
    let s2 := onSafety (fun y => { y with storeFull := false }) s1
    if s2.ev.full then
      let d := s2.ev.dropped
      raise srcEvents evEventsSuppressed (suppressedWord d)
        (onEv (fun v => { v with full := false, dropped := Vector.replicate 8 0 }) s2)
    else s2
  else s1

/-! ## Completions (R377, R393, R394) -/

/-- The completion record of R377. The CRC16 of a Q2 record is the CRC of R335 over its 64 bytes with the field 0 (R380). -/
def completionWord (wrap : Bool) (c : Completion) : BitVec 512 :=
  let q2 := c.queue == 2
  let w := pack [(0, 8, c.slot.toNat), (8, 2, c.queue.val), (16, 16, c.status.toNat), (32, 16, c.opcode.toNat),
    (48, 8, if q2 then c.alive.toNat else 0), (96, 32, c.tag.toNat), (128, 48, c.tick.toNat), (176, 3, c.phase.toNat),
    (179, 1, wrap.toNat), (180, 1, c.replay.toNat), (192, 320, c.result.toNat)]
  BitVec.ofNat 512 (if q2 then w + crc16 (toBytes 64 w) * 2 ^ 64 else w)

/-- The completion ring has a free record (R375), records whose write is not yet observed included (log entry 10). -/
def cqRoom (q : Fin 4) (s : State) : Bool := s.queues[q].cqNext + 1 != s.queues[q].cqHead

/-- The oldest journaled completion that has not been issued is written to the ring, where the queue runs and has room; a record
fills a line (R354). -/
def issueCq (q : Fin 4) (s : State) : Option State :=
  let d := s.queues[q]
  if d.en && served s && cqRoom q s then
    match d.journal.reverse.find? (fun c => !c.issued) with
    | some c =>
      let a := d.cqBase.toNat + 64 * d.cqNext.toNat
      let w := completionWord d.wrap c
      let s1 := emit (.completion q a w) (emit (.cache .itoMWr [a / 64]) s)
      let s2 := onCxl (fun x => { x with outstanding := x.outstanding ++ [{ id := .cq q c.seq, addr := a, word := w }] }) s1
      some (onQueue q (fun d => { d with
        cqNext := d.cqNext + 1
        wrap := if d.cqNext == 255 then !d.wrap else d.wrap
        journal := d.journal.map fun e => if e.seq == c.seq then { e with issued := true } else e }) s2)
    | none => none
  else none

/-- Journaled completions are written in order while they can be. -/
def pumpCq (q : Fin 4) : Nat → State → State
  | 0, s => s
  | k + 1, s =>
    match issueCq q s with
    | some s' => pumpCq q k s'
    | none => s

/-- The words of a completion record (R447). -/
def completionWords (w : BitVec 512) : List (BitVec 64) := (List.range 8).map fun i => BitVec.ofNat 64 (fld w (64 * i) 64)

/-- A command's completion enters the journal, which keeps the last 16 (R394). That of a fetched descriptor is then written to
the ring; that of a relayed one goes back as CMD_RESP, or to the CHAIN_SEND of this device, and not to the ring (R459; log
entry 30). -/
def complete (d : Deferred) (status : BitVec 16) (result : Nat) (s : State) : State :=
  let away := d.via != .ring
  let c : Completion := { seq := s.queues[d.queue].count, slot := d.slot, queue := d.queue, status := status,
                          opcode := d.opcode, alive := d.alive, tag := d.tag, tick := BitVec.ofNat 48 s.clk.tick,
                          phase := BitVec.ofNat 3 s.clk.phase.code, result := BitVec.ofNat 320 result,
                          delivered := away, issued := away, replay := false }
  let s1 := onQueue d.queue (fun x => { x with count := x.count + 1, journal := (c :: x.journal).take 16 }) s
  match d.via with
  | .ring => pumpCq d.queue 16 s1
  | .chain => cwSend .up 0x42 0 0 (completionWords (completionWord s.queues[d.queue].wrap c)) s1
  | .self => onCw (fun w => { w with waitCmd := w.waitCmd.map fun x => { x with
      expect := x.expect.filter fun a => a != 0
      answers := x.answers ++ [(0, completionWord s.queues[d.queue].wrap c)] } }) s1

/-- The command that a queue waits for completes. -/
def finish (q : Fin 4) (status : BitVec 16) (result : Nat) (s : State) : State :=
  match s.queues[q].waiting with
  | some d => complete d status result (onQueue q (fun x => { x with waiting := none }) s)
  | none => s

/-- A command's answer: done with a status, RESULT and the state, or a completion that comes later. -/
inductive Ans where
  | done (status : BitVec 16) (result : Nat) (s : State)
  | wait (s : State)

/-! ## Attachment (R369) and the summary word -/

/-- IDE_REQUIRED of the OTP fixed region (R365, R428); a blank bit reads 1 (R427). -/
def ideRequired (s : State) : Bool :=
  match s.otp.integrator with
  | some b => b.locks.getLsbD 2
  | none => true

/-- The link is in L0 in CXL mode at 8 GT/s or more (R351). -/
def cxlUp (s : State) : Bool := s.cxl.link.l0 && s.cxl.link.cxlMode && decide (0 < s.cxl.link.speed.val)

/-- Every condition of R369 holds. -/
def attachedNow (s : State) : Bool :=
  cxlUp s && s.cxl.cacheEn && s.cxl.bme && s.cxl.d0 && s.cxl.hostActive &&
    (!ideRequired s || (s.cxl.ideIo.isSome && s.cxl.ideCache.isSome))

/-- No build uses host memory any more (R369): those that run stop. -/
def stopHostBuild (s : State) : State :=
  if s.comp.hostBuild then
    onComp (fun c => { c with hostBuild := false }) (onHeads (·.map fun h => { h with building := false }) s)
  else s

/-- ATTACHED follows R369; a change raises HOST_STATE (R371) with a cause. -/
def updateAttached (cause : Nat) (s : State) : State :=
  let a := attachedNow s
  if a == s.cxl.attached then s
  else
    raise srcCxl evHostState (pack [(0, 1, a.toNat), (1, 3, if a then 0 else cause)])
      (onCxl (fun c => { c with attached := a }) (if a then s else stopHostBuild s))

/-- The window is shown on a head: its live SHOW, from the LATCH at which the boot enables the windows (R420). -/
def winShown (s : State) (h : Head) : Bool := s.boot.enabled && s.cfg.wins[h].shown

/-- A preset is written over SMBus with the address, the preset's command code, the voltage format and the PEC setting of the OTP
(R404, R428): bytes 0 and 1 of PMIC_CMD are the codes of P1 and P2, byte 2 the format, bit 0 of byte 3 PEC. -/
def smbusWrite (preset : Fin 4) (mv : Nat) (s : State) : State :=
  match s.otp.integrator with
  | some b =>
    emit (.smbus b.pmicAddr (b.pmicCmd.extractLsb' (if preset = 1 then 0 else 8) 8) (b.pmicCmd.extractLsb' 16 8)
      (b.pmicCmd.getLsbD 24) mv) s
  | none => s

/-- A thermal group. -/
def onGroup (g : Fin 2) (f : GroupDyn → GroupDyn) (s : State) : State := onTherm (fun t => { t with groups := upd t.groups g f }) s

/-- The slope window of a group restarts, and with it every condition timer of R307. -/
def restartWindow (g : Fin 2) (s : State) : State :=
  onTherm (fun t => { t with downMs := 0, groups := t.groups.map fun x => { x with upMs := 0 } })
    (onGroup g (fun x => { x with window := [], slope := 0 }) s)

/-- A thermal or an energy trip is latched. -/
def tripped (s : State) : Bool := s.safety.energy || s.therm.groups[0].tripped || s.therm.groups[1].tripped

/-- A mask with one bit per head. -/
def headMask (p : Head → Bool) : Nat := pack (allHeads.map fun h => (h.val, 1, (p h).toNat))

/-- SAFE_SUMMARY (R361). -/
def summaryWord (s : State) : BitVec 32 :=
  BitVec.ofNat 32 (pack [(0, 2, s.safety.mode.code), (2, 1, s.safety.safeN.toNat), (3, 1, s.safety.latched.toNat),
    (4, 4, s.safety.headDark.toNat), (8, 4, headMask (winShown s)), (12, 1, (tripped s).toNat),
    (13, 1, s.safety.ttTimeout.toNat), (16, 16, s.safety.causes.toNat)])

/-- The close of every command: vector 5 is signalled when a field of SAFE_SUMMARY has changed (R363). -/
def settle (s : State) : State :=
  let w := summaryWord s
  if w == s.cxl.summary then s else signal 5 (onCxl (fun c => { c with summary := w }) s)

/-! ## Releases and the events of a LATCH (R99, R106, R510) -/

/-- BUFFER_RELEASED's payload (R111). -/
def releasedWord (r : Release) (written : Bool) : Nat :=
  pack [(0, 5, r.layer.val), (5, 3, r.reason), (8, 1, written.toNat), (32, 32, r.tag.toNat), (64, 64, r.base0)]

/-- FENCE_ERROR's payload (R111). -/
def fenceErrorWord (rel : Bool) (tag : BitVec 32) (a : Nat) : Nat := pack [(0, 1, rel.toNat), (32, 32, tag.toNat), (64, 64, a)]

/-- BUFFER_RELEASED is raised; a record that the host will read keeps its fence for R112. -/
def raiseRelease (x : Release) (written : Bool) (s : State) : State :=
  let s1 := raise (srcLayer x.layer) evBufferReleased (releasedWord x written) s
  match x.fence with
  | some (a, v) =>
    if s.ev.hostObs && s1.ev.seq != s.ev.seq then onEv (fun e => { e with fences := e.fences ++ [(s.ev.seq, a, v, x.tag)] }) s1 else s1
  | none => s1

/-- The first element that meets p, changed. -/
def mapFirst {α : Type} (p : α → Bool) (f : α → α) : List α → List α
  | [] => []
  | x :: r => if p x then f x :: r else x :: mapFirst p f r

/-- Release fence writes that occupy a transient line (R355). -/
def relBusy (s : State) : Nat := s.com.relWrites.countP fun w => w.st == .issued

/-- A release fence is written: ownership of its line, the merge of the 8 bytes, and the eviction (R99, R354). -/
def putFence (w : RelWrite) (s : State) : State :=
  emit (.cache .dirtyEvict [w.addr / 64]) (emit (.relFence w.addr w.value) (emit (.cache .rdOwn [w.addr / 64]) s))

/-- Waiting release fence writes are issued while one of the 8 transient lines is free (R355). -/
def issueRel : Nat → State → State
  | 0, s => s
  | k + 1, s =>
    match s.com.relWrites.find? (fun w => w.st == .waiting) with
    | some w =>
      if relBusy s < 8 then
        issueRel k (putFence w (onCom (fun c => { c with
          relWrites := mapFirst (fun x => x.st == .waiting) (fun x => { x with st := .issued }) c.relWrites }) s))
      else s
    | none => s

/-- A release fence is to be written. -/
def addFence (w : RelWrite) (s : State) : State := issueRel 1 (onCom (fun c => { c with relWrites := c.relWrites ++ [w] }) s)

/-- The events of the running LATCH are recorded in order, as far as the release fences allow: a buffer with a release fence
waits until the write of its fence has completed (R99), and with it all that follows it in the order of R510; the LATCH itself
does not end before (log entry 11). While the device is not attached no write is made, and the event carries REL_WRITTEN 0
(R112). -/
def pumpLatch : Nat → State → State
  | 0, s => s
  | k + 1, s =>
    match s.com.latchQ with
    | [] => s
    | .event src code p :: r => pumpLatch k (raise src code p (onCom (fun c => { c with latchQ := r }) s))
    | .release x issued :: r =>
      match x.fence with
      | none => pumpLatch k (raiseRelease x false (onCom (fun c => { c with latchQ := r }) s))
      | some (a, v) =>
        if !s.cxl.attached then pumpLatch k (raiseRelease x false (onCom (fun c => { c with latchQ := r }) s))
        else if issued then s
        else addFence { addr := a, value := v, tag := x.tag, st := .waiting, event := none }
          (onCom (fun c => { c with latchQ := .release x true :: r }) s)

/-- An event that the LATCH causes takes its place behind those before it (R510). -/
def later (src : Nat) (code : BitVec 16) (payload : Nat) (s : State) : State :=
  onCom (fun c => { c with latchQ := c.latchQ ++ [.event src code payload] }) s

/-- All events of the LATCH that can be recorded now are. -/
def runLatchQ (s : State) : State := pumpLatch (s.com.latchQ.length + 1) s

end Sys2Proof.Machine
end

