-- ==== Sys2Proof/Machine/Operands.lean ====
section
/-! DEFINITION. Operand forms: the descriptor (R376), the opcodes (R381), the field maps of the payloads and of the records of
R384, the reserved bits of each (R9, R378), and the layouts of staged data. -/

namespace Sys2Proof.Machine

/-! ## Opcodes and queues (R381) -/

/-- The opcode of a command. -/
def Op.code : Op → BitVec 16
  | .deviceInfo => 0x0000 | .eventMask => 0x0001 | .settingsRead => 0x0002 | .settingsWrite => 0x0003
  | .layerSet => 0x0100 | .layerEnable => 0x0101 | .lutLoad => 0x0102 | .coeffLoad => 0x0103 | .blendOrderSet => 0x0104
  | .fenceModeSet => 0x0105 | .commit => 0x0106
  | .headSet => 0x0200 | .warpLoad => 0x0201 | .timingSet => 0x0202 | .planeSeqLoad => 0x0203 | .dimSet => 0x0204
  | .lightChannelSet => 0x0300 | .colourTargetSet => 0x0301 | .lampSet => 0x0302 | .lampFade => 0x0303
  | .powerQuota => 0x0400 | .thermalSet => 0x0401
  | .safetyWindowSet => 0x0500 | .telltaleSet => 0x0501 | .safeStateRequest => 0x0502
  | .calRun => 0x0600 | .calCommit => 0x0601 | .calStatus => 0x0602
  | .updateOpen => 0x0700 | .updateBlock => 0x0701 | .updateVerify => 0x0702 | .updateActivate => 0x0703
  | .updateConfirm => 0x0704 | .updateAbort => 0x0705 | .updatePreempt => 0x0706
  | .chainEnumerate => 0x0800 | .chainSend => 0x0801
  | .unassigned c => c

/-- The command of an opcode; a value outside the table of R381 is unassigned. -/
def opOf (c : BitVec 16) : Op :=
  match c.toNat with
  | 0x0000 => .deviceInfo | 0x0001 => .eventMask | 0x0002 => .settingsRead | 0x0003 => .settingsWrite
  | 0x0100 => .layerSet | 0x0101 => .layerEnable | 0x0102 => .lutLoad | 0x0103 => .coeffLoad | 0x0104 => .blendOrderSet
  | 0x0105 => .fenceModeSet | 0x0106 => .commit
  | 0x0200 => .headSet | 0x0201 => .warpLoad | 0x0202 => .timingSet | 0x0203 => .planeSeqLoad | 0x0204 => .dimSet
  | 0x0300 => .lightChannelSet | 0x0301 => .colourTargetSet | 0x0302 => .lampSet | 0x0303 => .lampFade
  | 0x0400 => .powerQuota | 0x0401 => .thermalSet
  | 0x0500 => .safetyWindowSet | 0x0501 => .telltaleSet | 0x0502 => .safeStateRequest
  | 0x0600 => .calRun | 0x0601 => .calCommit | 0x0602 => .calStatus
  | 0x0700 => .updateOpen | 0x0701 => .updateBlock | 0x0702 => .updateVerify | 0x0703 => .updateActivate
  | 0x0704 => .updateConfirm | 0x0705 => .updateAbort | 0x0706 => .updatePreempt
  | 0x0800 => .chainEnumerate | 0x0801 => .chainSend
  | _ => .unassigned c

/-- The queues that accept a command (R381). -/
def Op.accepts (op : Op) (q : Fin 4) : Bool :=
  match op with
  | .deviceInfo | .settingsRead => true
  | .settingsWrite | .layerSet | .layerEnable | .lutLoad | .coeffLoad | .blendOrderSet | .fenceModeSet | .commit
  | .headSet | .warpLoad | .timingSet | .planeSeqLoad | .dimSet | .colourTargetSet | .lampSet | .lampFade
  | .powerQuota => q == 0 || q == 1
  | .eventMask | .lightChannelSet | .thermalSet | .calRun | .calCommit | .calStatus | .updateOpen | .updateBlock
  | .updateVerify | .updateActivate | .updateConfirm | .updateAbort | .updatePreempt => q == 1
  | .safetyWindowSet | .telltaleSet | .safeStateRequest => q == 2
  | .chainEnumerate | .chainSend => q == 3
  | .unassigned _ => false

/-! ## The descriptor (R376) -/

/-- The 512-bit word of a descriptor. -/
def descWord (op : BitVec 16) (d : Desc) : BitVec 512 :=
  BitVec.ofNat 512 (pack [(0, 16, op.toNat), (16, 8, d.alive.toNat), (24, 8, d.rsv24.toNat), (32, 16, d.crc16.toNat),
    (48, 16, d.rsv48.toNat), (64, 32, d.tag.toNat), (96, 32, d.rsv96.toNat), (128, 384, d.payload.toNat)])

/-- The 64 bytes of a descriptor, little-endian. -/
def descBytes (op : BitVec 16) (d : Desc) : List Byte := toBytes 64 (descWord op d).toNat

/-- The descriptor that 64 bytes hold, and its OPCODE. -/
def descOf (q : Fin 4) (bs : List Byte) : BitVec 16 × Desc :=
  let w : BitVec 512 := BitVec.ofNat 512 (leNat bs)
  (BitVec.ofNat 16 (fld w 0 16),
   { queue := q, alive := BitVec.ofNat 8 (fld w 16 8), rsv24 := BitVec.ofNat 8 (fld w 24 8)
     crc16 := BitVec.ofNat 16 (fld w 32 16), rsv48 := BitVec.ofNat 16 (fld w 48 16), tag := BitVec.ofNat 32 (fld w 64 32)
     rsv96 := BitVec.ofNat 32 (fld w 96 32), payload := BitVec.ofNat 384 (fld w 128 384) })

/-- The offset in BAR2 of a descriptor slot (R373). -/
def slotOffset (q : Fin 4) (slot : BitVec 8) : Nat := 0x4000 * q.val + 64 * slot.toNat

/-- The CRC of R335 over the 64 bytes, the CRC16 field taken as 0 (R380). -/
def descCrc (op : BitVec 16) (d : Desc) : Nat := crc16 (descBytes op { d with crc16 := 0 })

/-! ## Refusals (R378, R382, R383) -/

/-- A status and its report, or none where a check passes. -/
abbrev Ref := Option (BitVec 16 × Nat)

/-- A check: passes, or refuses with a status and a report. -/
def need (ok : Bool) (st : BitVec 16) (report : Nat := 0) : Ref := if ok then none else some (st, report)

/-- The first check that refuses. -/
def firstRef : List Ref → Ref
  | [] => none
  | r :: rs => match r with
    | some x => some x
    | none => firstRef rs

/-- STATUS_RANGE for the first field, given in ascending order with its lowest bit, whose value is out of range (R383). -/
def ranges (fs : List (Nat × Bool)) : Ref :=
  match fs.find? (fun f => !f.2) with
  | some f => some (stRange, f.1)
  | none => none

/-- STATUS_BLOCK_RUNNING for the first st field, given in ascending order, that would change while its block runs (R46, R47). -/
def stFields (running : Bool) (fs : List (Nat × Bool)) : Ref :=
  if running then
    match fs.find? (fun f => f.2) with
    | some f => some (stBlockRunning, f.1)
    | none => none
  else none

/-- R9, R383: the report of the lowest reserved payload bit that is set; `base` is 0 for the payload (WHERE 0) and the place
of DATA for a record (WHERE 3). -/
def reservedBits (known : List (Nat × Nat)) (v n wh : Nat) : Ref :=
  let bad := v &&& ((2 ^ n - 1) ^^^ (maskOf known &&& (2 ^ n - 1)))
  match lowestBit bad n with
  | some i => some (stReservedSet, i + wh * 2 ^ 16)
  | none => none

/-- R9 for the descriptor bits outside the payload: ALIVE and CRC16 are reserved on Q0, Q1 and Q3 (R376). -/
def reservedDesc (op : BitVec 16) (d : Desc) : Ref :=
  let known := if d.queue == 2 then [(0, 24), (32, 16), (64, 32)] else [(0, 16), (64, 32)]
  reservedBits known ((descWord op d).toNat % 2 ^ 128) 128 1

/-- The fields of each command's payload map, as (lsb, width); every other payload bit is reserved. -/
def Op.fields : Op → List (Nat × Nat)
  | .deviceInfo | .updateVerify | .updateConfirm | .updateAbort | .updatePreempt | .chainEnumerate | .unassigned _ => []
  | .eventMask => [(0, 3), (64, 128)]
  | .settingsRead => [(0, 17)]
  | .settingsWrite => [(0, 8), (64, 256)]
  | .layerSet => [(0, 5), (8, 17), (32, 208), (256, 128)]
  | .layerEnable => [(0, 24), (32, 24)]
  | .lutLoad => [(0, 5), (8, 2), (32, 64)]
  | .coeffLoad => [(0, 5), (32, 64)]
  | .blendOrderSet => [(0, 1), (8, 120)]
  | .fenceModeSet => [(0, 1), (8, 8)]
  | .commit => [(0, 37), (48, 1), (64, 16), (96, 64)]
  | .headSet => [(0, 2), (8, 6), (16, 32), (64, 64)]
  | .warpLoad => [(0, 5), (32, 64)]
  | .timingSet => [(0, 3), (16, 42), (64, 9), (80, 53), (136, 4), (144, 20), (176, 16)]
  | .planeSeqLoad => [(0, 2), (32, 64)]
  | .dimSet => [(0, 4), (16, 8), (32, 32)]
  | .lightChannelSet => [(0, 6), (8, 15), (32, 168)]
  | .colourTargetSet => [(0, 3), (8, 3), (16, 64), (96, 64)]
  | .lampSet => [(0, 2), (8, 16), (32, 112)]
  | .lampFade => [(0, 2), (8, 7), (16, 10), (32, 16)]
  | .powerQuota => [(0, 24), (32, 24), (64, 128)]
  | .thermalSet => [(0, 248), (256, 65)]
  | .safetyWindowSet => [(0, 2), (8, 1), (12, 84)]
  | .telltaleSet => [(0, 192)]
  | .safeStateRequest => [(0, 2)]
  | .calRun => [(0, 4), (8, 6), (16, 48)]
  | .calCommit => [(0, 48)]
  | .calStatus => [(0, 4), (8, 6)]
  | .updateOpen => [(0, 3), (32, 64), (192, 192)]
  | .updateBlock => [(0, 5), (32, 64)]
  | .updateActivate => [(0, 1), (64, 48)]
  | .chainSend => [(0, 12), (32, 80), (128, 32)]

/-- The fields of each written record of R384 and R477, class ro fields included: those are ignored (R385). -/
def recordFields (number : Nat) : List (Nat × Nat) :=
  match number with
  | 0x01 => [(0, 96), (128, 96)]
  | 0x02 => [(0, 33), (64, 72)]
  | 0x03 => [(0, 2), (16, 240)]
  | 0x04 => [(0, 2), (8, 74)]
  | 0x05 => [(0, 2), (8, 19), (32, 73), (112, 66), (192, 34)]
  | 0x06 => [(0, 2), (32, 64)]
  | 0x07 => [(0, 2), (8, 11), (32, 16), (64, 4), (80, 144)]
  | 0x08 => [(0, 3), (8, 6), (16, 3), (32, 16)]
  | 0x09 => [(0, 2), (8, 5), (16, 4), (24, 16), (48, 112)]
  | 0x21 => [(0, 7), (16, 32), (64, 87), (160, 64)]
  | _ => []

/-! ## Fields of the payloads -/

/-- The object of a head, group or line command. -/
def headOf {n : Nat} (p : BitVec n) (lo : Nat := 0) : Head := Fin.ofNat 4 (fld p lo 2)

/-- STAGE_OFFSET and DATA_CRC of a load, at bits 63:32 and 95:64. -/
def loadOff {n : Nat} (p : BitVec n) : Nat := fld p 32 32
def loadCrc {n : Nat} (p : BitVec n) : Nat := fld p 64 32

/-- LAYER_SET. -/
def layerShOf (p : BitVec 384) : LayerSh :=
  { format := fld p 8 4, gtc := bit p 12, alphaMode := fld p 14 2, lutBypass := bit p 16, yccMatrix := fld p 17 2
    yccRange := bit p 19, chroma := bit p 20, coeffH := fld p 21 2, coeffV := fld p 23 2, galpha := fld p 32 16
    pitch0 := fld p 48 16, pitch1 := fld p 64 16, surfW := fld p 80 16, surfH := fld p 96 16
    srcX := fld p 112 16, srcY := fld p 128 16, srcW := fld p 144 16, srcH := fld p 160 16
    dstX := sfld p 176 16, dstY := sfld p 192 16, dstW := fld p 208 16, dstH := fld p 224 16
    base0 := fld p 256 64, base1 := fld p 320 64 }

/-- BLEND_ORDER_SET. -/
def slotsOf (p : BitVec 384) : Vector Nat 24 := Vector.ofFn (fun k => fld p (8 + 5 * k.val) 5)

/-- FENCE_MODE_SET. -/
def fenceOf (p : BitVec 384) : FenceCfg := { layered := bit p 0, hold := fld p 8 4, abandon := fld p 12 4 }

/-- HEAD_SET's sh fields. -/
def headShOf (p : BitVec 384) : HeadSh :=
  { enable := bit p 8, eyeEn := bit p 10, edge := bit p 11, kernel := fld p 12 2
    winX := fld p 64 16, winY := fld p 80 16, winW := fld p 96 16, winH := fld p 112 16 }

/-- TIMING_SET. -/
def tickOf (p : BitVec 384) : TickGroup := { tmin := fld p 16 16, tmax := fld p 32 16, tcut := fld p 48 10 }
def spanOf (p : BitVec 384) : ShowGroup :=
  { blankLen := fld p 64 9, showLen := fld p 80 16, skew := Vector.ofFn (fun k => fld p (96 + 8 * k.val) 8) }
def scanOf (p : BitVec 384) : ScanGroup :=
  { underrunRepeat := fld p 128 4, chainVote := bit p 132
    lm := #v[{ src := fld p 136 2, head := headOf p 138, line := fld p 144 16 },
             { src := fld p 160 2, head := headOf p 162, line := fld p 176 16 }] }

/-- LIGHT_CHANNEL_SET. -/
def chanLvOf (p : BitVec 384) : ChanLv :=
  { enable := bit p 8, driftEn := bit p 11, vOpen := fld p 128 16, vShort := fld p 144 16, tolTh := fld p 184 8
    tolEff := fld p 192 8 }
def chanStOf (p : BitVec 384) : ChanSt :=
  { led := bit p 10, head := headOf p 12, colour := Fin.ofNat 3 (fld p 14 2), tsSel := fld p 16 4, tsEn := bit p 20
    supply := fld p 21 2, fSw := fld p 32 16, iMax := fld p 48 16, rshunt := fld p 64 16, iTh := fld p 80 16
    lNh := fld p 96 16, dt := fld p 112 8, phase := fld p 120 8, lvsDiv := fld p 160 16, ocLevel := fld p 176 8 }

/-- COLOUR_TARGET_SET. -/
def tgtOf (p : BitVec 384) : Vector Nat 3 := #v[fld p 16 16, fld p 32 16, fld p 48 16]
def loopOf (p : BitVec 384) : LoopCfg := { en := fld p 8 3, gain := fld p 64 8, ticks := fld p 72 8 }

/-- POWER_QUOTA. -/
def quotaOf (p : BitVec 384) : QuotaCfg :=
  { light := fld p 0 24, device := fld p 32 24, svcL := fld p 64 16, bgL := fld p 80 16, svcD := fld p 96 16
    bgD := fld p 112 16, resetE := Vector.ofFn (fun k => fld p (128 + 16 * k.val) 16) }

/-- THERMAL_SET. -/
def groupOfP (p : BitVec 384) (lo : Nat) : ThermGroup :=
  { arm := sfld p lo 16, warn := sfld p (lo + 16) 16, act := sfld p (lo + 32) 16, rel := sfld p (lo + 48) 16
    slopeWarn := sfld p (lo + 64) 16, slopeAct := sfld p (lo + 80) 16, slopeHot := sfld p (lo + 96) 16 }
def thermOf (p : BitVec 384) : ThermCfg :=
  { die := groupOfP p 0, le := groupOfP p 112, leMask := BitVec.ofNat 16 (fld p 224 16), subOffset := fld p 240 8
    tsPair := Vector.ofFn (fun n => Fin.ofNat 16 (fld p (256 + 4 * n.val) 4)), atEn := bit p 320 }

/-! ## Fields of the records (DATA of SETTINGS_WRITE) -/

/-- The memory-region record (R35). -/
def memOf (d : BitVec 256) : MemCfg :=
  { canvasBase := fld d 0 64, canvasMib := fld d 64 32, planeBase := fld d 128 64, planeMib := fld d 192 32 }

/-- The head colour record (R135). -/
def colourOf (d : BitVec 256) : Vector Int 12 := Vector.ofFn (fun k => sfld d (16 + 20 * k.val) 20)

/-- The array record (R156). -/
def arrOf (d : BitVec 256) : ArrayCfg :=
  { tSettle := fld d 8 16, tReset := fld d 24 16, tMinPlane := fld d 40 16, rxPlanes := fld d 56 8
    levelFloor := fld d 64 16, dither := fld d 80 2 }

/-- The raster record (R228). -/
def rasOf (d : BitVec 256) : RasterCfg :=
  { fNom := fld d 8 16, track := fld d 24 3, ampSet := fld d 32 16, ampMin := fld d 48 16, slowTop := sfld d 64 16
    slowBot := sfld d 80 16, tRetrace := fld d 96 9, slowTol := fld d 112 16, trimF := sfld d 128 16, trimR := sfld d 144 16
    levelFloor := fld d 160 16, dither := fld d 176 2 }

/-- The link record (R220). -/
def linkOf (d : BitVec 256) : LinkCfg :=
  { txPol := fld d 8 8, rxPol := bit d 16, rateMax := fld d 17 2, errLimit := fld d 32 16 }

/-- The OS record (R265). -/
def osOf (d : BitVec 256) : OsCfg :=
  { enable := bit d 8, head := headOf d 9, colours := fld d 11 3, gainMode := fld d 16 3, darkLimit := fld d 32 16 }

/-- The line record (R281). -/
def lineLvOf (d : BitVec 256) : LineLv :=
  { enable := bit d 8, tRef := sfld d 48 16, kt := #v[sfld d 64 16, sfld d 80 16, sfld d 96 16]
    safe := #v[fld d 112 16, fld d 128 16, fld d 144 16] }
def lineStOf (d : BitVec 256) : LineSt :=
  { order := fld d 9 3, tsEn := bit d 12, tsSel := fld d 16 4, nodes := fld d 24 8, latchUs := fld d 32 8 }

/-- The chain record (R478). -/
def chainOf (d : BitVec 256) : ChainCfg :=
  { evtFwd := bit d 0, relayEn := bit d 1, relaySize := fld d 2 5, relayBase := fld d 64 64 }

/-! ## Staged data -/

/-- The words of w bytes that a list of bytes holds. -/
def wordsOf (w : Nat) : Nat → List Byte → List Nat
  | 0, _ => []
  | k + 1, bs => leNat (bs.take w) :: wordsOf w k (bs.drop w)

/-- Signed words of w bytes. -/
def signedWordsOf (w k : Nat) (bs : List Byte) : List Int := (wordsOf w k bs).map (signed (8 * w))

/-- The three parts of a colour table's words: n entries per colour, red first (R82). -/
def lutOf (n : Nat) (bs : List Byte) : Lut :=
  let ws := wordsOf 4 (3 * n) bs
  .table (ws.take n) ((ws.drop n).take n) (ws.drop (2 * n))

/-- A staged load: the bytes that the check at execution reads. -/
def loadOf (s : State) (off len : Nat) (crc : Nat) : Load := { off := off, crc := BitVec.ofNat 32 crc, bytes := staged s off len }

/-- The bytes of a load agree with its CRC. -/
def loadOk (l : Load) : Bool := BitVec.ofNat 32 (crc32c l.bytes) == l.crc

/-- The load as it reads now: at LATCH the staged bytes are read and checked again (R84). -/
def reload (s : State) (l : Load) : Load := { l with bytes := staged s l.off l.bytes.length }

end Sys2Proof.Machine
end

