-- ==== Sys2Proof/Machine/Prospect.lean ====
section
/-! DEFINITION. What a configuration write does to a configuration (R43 to R45, R88), the staged data of loads, and the
prospective states of R512 and R142. -/

namespace Sys2Proof.Machine

/-! ## Staged tables as they are stored -/

/-- A staged mesh or offset mesh set (R120 to R122): a main mesh's words hold DX and DY, signed, 16 bits each; an offset set's
hold ODX and ODY, signed, 8 bits each, plane after plane. -/
def meshOf (offsets : Bool) (bs : List Byte) : Mesh :=
  let mx := at8 bs 8 2
  let my := at8 bs 10 2
  let body := bs.drop 64
  { spx := at8 bs 5 1, spy := at8 bs 6 1, mx := mx, my := my, kfetch := at8 bs 16 2
    pts := if offsets then (wordsOf 2 (3 * mx * my) body).map fun w => (signed 8 w, signed 8 (w / 256))
           else (wordsOf 4 (mx * my) body).map fun w => (signed 16 w, signed 16 (w / 65536)) }

/-- A staged plane sequence table (R157, R158). -/
def seqOf (bs : List Byte) : PlaneSeq :=
  { depth := at8 bs 5 1, repeats := at8 bs 6 1
    entries := (wordsOf 8 (at8 bs 7 1) (bs.drop 32)).map fun w =>
      { colour := Fin.ofNat 3 (w % 4), bit := w / 4 % 16, pulse := w / 256 % 2 ^ 26 } }

/-- A staged pixel timing table (R233). -/
def rtableOf (bs : List Byte) : RTable := .table (wordsOf 2 (at8 bs 6 2) (bs.drop 16))

/-- A staged colour table (R267): A, E and V of 17 points per colour. -/
def ctableOf (bs : List Byte) : CTable :=
  .table ((List.range 51).map fun i => (at8 bs (16 + 6 * i) 2, at8 bs (18 + 6 * i) 2, at8 bs (20 + 6 * i) 2))

/-- The index of a coefficient set: layer, set, axis. -/
def coeffIdx (k set : Fin 4) (axis : Bool) : Fin 32 := Fin.ofNat 32 ((k.val * 4 + set.val) * 2 + axis.toNat)

/-! ## One write applied -/

def setLayer (k : Layer) (f : LayerCfg → LayerCfg) (c : Cfg) : Cfg := { c with layers := upd c.layers k f }
def setHead (h : Head) (f : HeadCfg → HeadCfg) (c : Cfg) : Cfg := { c with heads := upd c.heads h f }

/-- R136, R137: a mesh enters slot 0, slot 1, both, or the offset set. -/
def setMesh (kind : Fin 3) (both : Bool) (bs : List Byte) (h : HeadCfg) : HeadCfg :=
  let m := meshOf (kind == 2) bs
  if both then { h with mesh0 := m, mesh1 := m }
  else match kind with
    | 0 => { h with mesh0 := m }
    | 1 => { h with mesh1 := m }
    | 2 => { h with offs := m }

/-- The fields of a write laid over a configuration. Writes that act on no configuration field (a dimming target, a cleared fault, lamp
targets and fades) leave it as it is. -/
def applyField (w : CfgWrite) (c : Cfg) : Cfg :=
  match w with
  | .layer k v => setLayer k (fun l => { l with sh := v }) c
  | .layerEnable k on => setLayer k (fun l => { l with enable := on }) c
  | .preLut k ld => setLayer k (fun l => { l with pre := lutOf 1024 ld.bytes }) c
  | .palette k ld => setLayer k (fun l => { l with palette := wordsOf 4 256 ld.bytes }) c
  | .coeff k set axis ld =>
    { c with coeffs := c.coeffs.set (coeffIdx k set axis) (.table (signedWordsOf 2 (if axis then 384 else 512) ld.bytes)) }
  | .postLut ld => { c with canvas := { c.canvas with post := lutOf 4096 ld.bytes } }
  | .canvas b bg => { c with canvas := { c.canvas with postBypass := b, bg := bg } }
  | .blend p sl => { c with progOrder := p, slots := sl }
  | .fence v => { c with fence := v }
  | .head h v => setHead h (fun x => { x with sh := v }) c
  | .headColour h m => setHead h (fun x => { x with colour := m }) c
  | .mesh h kind both ld => setHead h (setMesh kind both ld.bytes) c
  | .seq h ld => setHead h (fun x => { x with seq := some (seqOf ld.bytes) }) c
  | .rtable h ld => setHead h (fun x => { x with rtable := rtableOf ld.bytes }) c
  | .ctable h ld => setHead h (fun x => { x with ctable := ctableOf ld.bytes }) c
  | .tgt h v => setHead h (fun x => { x with tgt := v }) c
  | .loop h v => setHead h (fun x => { x with loop := v }) c
  | .arrDither h n => setHead h (fun x => { x with arr := { x.arr with dither := n } }) c
  | .rasDither h n => setHead h (fun x => { x with ras := { x.ras with dither := n } }) c
  | .rasTrim h f r => setHead h (fun x => { x with ras := { x.ras with trimF := f, trimR := r } }) c
  | .tick v => { c with tick := v }
  | .span v => { c with span := v }
  | .scan v => { c with scan := v }
  | .errLimit g n => { c with links := upd c.links g (fun l => { l with errLimit := n }) }
  | .os i e m d => { c with os := upd c.os i (fun o => { o with enable := e, gainMode := m, darkLimit := d }) }
  | .line i v => { c with lines := upd c.lines i (fun l => { l with lv := v }) }
  | .chan n v => { c with chans := upd c.chans n (fun x => { x with lv := v }) }
  | .quota v => { c with quota := v }
  | .therm v => { c with therm := v }
  | .win h sh lv => { c with wins := upd c.wins h (fun x => { x with shown := sh, level := lv }) }
  | .telltale sel on bl =>
    { c with ttOn := (c.ttOn &&& ~~~sel) ||| (on &&& sel), ttBlink := (c.ttBlink &&& ~~~sel) ||| (bl &&& sel) }
  | .chain e r => { c with chain := { c.chain with evtFwd := e, relayEn := r } }
  | .eye v => { c with eye := v }
  | .dim _ _ _ | .faultClear _ | .lampTargets _ _ _ | .lampFade _ _ _ _ _ => c

/-- The layer of a layer part's write (03, "Fenced-layer mode"). -/
def partOf (w : CfgWrite) : Option Layer :=
  match w with
  | .layer k _ | .layerEnable k _ | .preLut k _ | .palette k _ => some k
  | .coeff k _ _ _ => some (Fin.ofNat 24 k.val)
  | _ => none

/-- A dropped layer returns when a part for it applies (R103). -/
def undrop (w : CfgWrite) (c : Cfg) : Cfg :=
  match partOf w with
  | some k => { c with dropped := c.dropped &&& ~~~BitVec.ofNat 24 (2 ^ k.val) }
  | none => c

/-- A write laid over a configuration. -/
def applyW (w : CfgWrite) (c : Cfg) : Cfg := undrop w (applyField w c)

/-- Writes laid over a configuration in order. -/
def applyWs (ws : List CfgWrite) (c : Cfg) : Cfg := ws.foldl (fun c w => applyW w c) c

/-! ## Prospective states (R512, R142) -/

/-- The live state with every pending lv write that is not held with sh fields. -/
def liveLv (s : State) : Cfg := applyWs s.pendLv s.cfg

/-- The states of R142: the live state with the pending lv writes; after each pending record as well; after the open shadow
set as well. -/
def walkStates : List Record → Cfg → List Cfg
  | [], _ => []
  | r :: rs, c => let c' := applyWs r.writes c; c' :: walkStates rs c'

/-- The configuration after every pending record. -/
def afterRecords (s : State) : Cfg := s.com.records.foldl (fun c r => applyWs r.writes c) (liveLv s)

/-- The prospective state of R512. -/
def prospect (s : State) : Cfg := applyWs s.openSet (afterRecords s)

/-- Every state that R142 judges. -/
def judged (s : State) : List Cfg := liveLv s :: walkStates s.com.records (liveLv s) ++ [prospect s]

/-- A command's sh writes enter the open shadow set (R87). -/
def addSh (ws : List CfgWrite) (s : State) : State := onOpenSet (· ++ ws) s

/-- A command's lv writes wait for the next LATCH (R44). -/
def addLv (ws : List CfgWrite) (s : State) : State := onPendLv (· ++ ws) s

/-- The head device of a chain of at least two. -/
def isChainHead (s : State) : Bool := s.boot.straps.chainRole && s.cw.addr == 0 && decide (2 ≤ s.cw.len)

/-- A write of the tick group. -/
def isTick (w : CfgWrite) : Bool :=
  match w with
  | .tick _ => true
  | _ => false

/-- The pending lv writes that the next LATCH applies, and those that wait one more: after its cut-off the head device of a
chain holds back a change of the tick group (R454). -/
def lvSplit (s : State) : List CfgWrite × List CfgWrite :=
  if isChainHead s && s.clk.cutAt.isSome then
    let early := s.pendLv.take s.com.lvAtCut
    let lateWs := s.pendLv.drop s.com.lvAtCut
    (early ++ lateWs.filter (fun w => !isTick w), lateWs.filter isTick)
  else (s.pendLv, [])

/-- The records that the next LATCH applies: those marked at the cut-off, before it those that are valid. -/
def dueRecords (s : State) : List Record :=
  s.com.records.filter fun r => !r.applied && (if s.clk.cutAt.isSome then r.marked else r.valid)

/-- The live state and everything that the next LATCH applies. -/
def nextLive (s : State) : Cfg := (dueRecords s).foldl (fun c r => applyWs r.writes c) (applyWs (lvSplit s).1 s.cfg)

/-! ## What is enabled -/

/-- A head shows host content once its enable is live. -/
def headOn (c : Cfg) (h : Head) : Bool := c.heads[h].sh.enable
/-- An enabled array head. -/
def arrayOn (c : Cfg) (h : Head) : Bool := headOn c h && !c.heads[h].raster
/-- An enabled raster head. -/
def rasterOn (c : Cfg) (h : Head) : Bool := headOn c h && c.heads[h].raster

/-- A block runs for an st write while its enable is live (R46). -/
def headRuns (s : State) (h : Head) : Bool := headOn s.cfg h
def layerRuns (s : State) (k : Layer) : Bool := s.cfg.layers[k].enable
/-- The compositor runs while any head runs (R79). -/
def compRuns (s : State) : Bool := allHeads.any (headRuns s)

end Sys2Proof.Machine
end

