-- ==== Sys2Proof/Machine/Planes.lean ====
section
/-! DEFINITION. Plane sequences (06) and raster timing (08): table rules, mirror times, the link schedule, duty, pulses and
codes. Times of the schedule are in ns; mirror times, leads and durations in units of 10 ns. -/

namespace Sys2Proof.Machine

/-! ## Table rules (R157 to R159) -/

/-- Runs of equal colour in order. -/
def colourRuns : List SeqEntry → List (Colour × Nat)
  | [] => []
  | e :: r =>
    match colourRuns r with
    | (c, n) :: rest => if e.colour = c then (c, n + 1) :: rest else (e.colour, 1) :: (c, n) :: rest
    | [] => [(e.colour, 1)]

/-- The entries of a colour that carry a bit. -/
def PlaneSeq.carrying (t : PlaneSeq) (c : Colour) (b : Nat) : List SeqEntry :=
  t.entries.filter fun e => e.colour == c && e.bit == b

/-- q0 of a colour: the sum of its bit-0 pulses (R159). -/
def PlaneSeq.q0 (t : PlaneSeq) (c : Colour) : Nat := sumOf (t.carrying c 0) (·.pulse)

/-- n_b of a colour. -/
def PlaneSeq.count (t : PlaneSeq) (c : Colour) (b : Nat) : Nat := (t.carrying c b).length

/-- The staged length that a table's header implies (R157). -/
def seqLength (count : Nat) : Nat := min (32 + 8 * count) 800

/-- R159: header fields, reserved bits, colour fields, bits and weights. -/
def seqFormatOk (bs : List Byte) : Bool :=
  let t := seqOf bs
  let n := at8 bs 7 1
  let ws := wordsOf 8 n (bs.drop 32)
  let runs := colourRuns t.entries
  at8 bs 0 4 == 0x51535047 && at8 bs 4 1 == 1 && decide (12 ≤ t.depth ∧ t.depth ≤ 16) &&
    decide (1 ≤ t.repeats ∧ t.repeats ≤ 4) && decide (3 * t.repeats ≤ n ∧ n ≤ 96) && at8 bs 8 24 == 0 &&
    ws.all (fun w => decide (w % 4 ≠ 3) && w / 64 % 4 == 0 && w / 2 ^ 34 == 0 && decide (32 ≤ w / 256)) &&
    t.entries.all (fun e => decide (e.bit < t.depth)) &&
    allColours.all (fun c => (runs.filter (fun r => r.1 == c)).length == t.repeats) &&
    runs.all (fun r => decide (r.2 ≤ 16)) &&
    allColours.all fun c => (List.range t.depth).all fun b =>
      let es := t.carrying c b
      [1, 2, 4, 8].contains es.length && es.all (fun e => some e.pulse == (es.head?.map (·.pulse))) &&
        sumOf es (·.pulse) == 2 ^ b * t.q0 c

/-! ## Mirror times and the link schedule (R160 to R165) -/

/-- t_d in units of 10 ns. -/
def deadTime (a : ArrayCfg) : Nat := a.tSettle + a.tReset

/-- M_e in units of 10 ns; a pulse counts 250 ps (R160). -/
def mirrorTime (a : ArrayCfg) (pulse : Nat) : Nat := max a.tMinPlane (divUp (40 * deadTime a + pulse) 40)

/-- The mirror times of a sequence. -/
def mirrorTimes (a : ArrayCfg) (t : PlaneSeq) : List Nat := t.entries.map fun e => mirrorTime a e.pulse

/-- Start instants of entries from the start of entry 0, in units of 10 ns. -/
def startsFrom : Nat → List Nat → List Nat
  | _, [] => []
  | x, m :: r => x :: startsFrom (x + m) r

/-- t_load in ns: blocks of the busiest lane times the block time (R163). -/
def loadTime (outW outH : Nat) (slow : Bool) : Nat := divUp (divUp (outW * outH) 4096) 8 * (if slow then 858 else 429)

/-- The loop of R164 at a head start h (10 ns), over entries (start, end); the first entry that fails, or none. `ends` holds
the ends of the entries already sent, newest first. -/
def sendLoop (rx tload : Nat) (h : Int) : Nat → Int → List Int → List (Nat × Nat) → Option Nat
  | _, _, _, [] => none
  | e, link, ends, (st, en) :: r =>
    let free : Int := match ends[rx - 1]? with
      | some x => x
      | none => -h * 10
    let due := max link free
    let link' := due + tload
    if (st : Int) * 10 - 6000 < link' then some e
    else sendLoop rx tload h (e + 1) link' (((en : Int) * 10) :: ends) r

/-- The spans of the entries. -/
def entrySpans (ms : List Nat) : List (Nat × Nat) := ((startsFrom 0 ms).zip ms).map fun p => (p.1, p.1 + p.2)

/-- The loop of R164 over a sequence at head start h. -/
def linkLoop (ms : List Nat) (rx tload : Nat) (h : Nat) : Option Nat :=
  sendLoop (max rx 1) tload h 0 (-(h : Int) * 10) [] (entrySpans ms)

/-- The smallest head start in lo..hi for which the loop succeeds, by halving: a longer head start never hurts. -/
def searchStart (ok : Nat → Bool) : Nat → Nat → Nat → Nat
  | 0, lo, _ => lo
  | k + 1, lo, hi =>
    if hi ≤ lo then lo
    else
      let mid := (lo + hi) / 2
      if ok mid then searchStart ok k lo mid else searchStart ok k (mid + 1) hi

/-- H of R164 in units of 10 ns, or the first entry that no H serves. -/
def headStart (ms : List Nat) (rx tload : Nat) : Nat ⊕ Nat :=
  let hi := divUp (ms.length * tload + 6000) 10
  match linkLoop ms rx tload hi with
  | some e => .inr e
  | none => .inl (searchStart (fun h => (linkLoop ms rx tload h).isNone) 32 0 hi)

/-- What R164 and R162 give for a head's sequence: H or the failing entry, the lead and the duration in units of 10 ns. -/
structure SeqPlan where
  fail : Option Nat
  lead : Nat
  dur  : Nat
deriving DecidableEq, Repr

def seqPlan (hc : HeadCfg) (sp : ShowGroup) (h : Head) (slow : Bool) (t : PlaneSeq) : SeqPlan :=
  let ms := mirrorTimes hc.arr t
  match headStart ms hc.arr.rxPlanes (loadTime hc.outW hc.outH slow) with
  | .inr e => { fail := some e, lead := 0, dur := ms.sum }
  | .inl hh =>
    let lead := hh - (100 * sp.blankLen + 200 * sp.skew[h])
    { fail := none, lead := lead, dur := lead + ms.sum }

/-! ## Duty and depth (R166, R171, R175) -/

/-- The duty ratio of R166, or none where D_lim is not positive. Times in units of 250 ps. -/
def dutyRatio (a : ArrayCfg) (tminUs : Nat) (t : PlaneSeq) : Option Rat :=
  let tm := tminUs * 4000
  let dead := t.entries.length * deadTime a * 40
  if tm ≤ dead then none
  else some ((sumOf t.entries (·.pulse) : Rat) / ((tm - dead : Nat) : Rat))

/-- The ratio as reported: units of 1/65 536, down, saturating; 0xFFFF where there is none (log entry 14). -/
def dutyWord (r : Option Rat) : Nat :=
  match r with
  | some q => sat 16 (q * 65536).floor.toNat
  | none => 0xFFFF

/-- The duty ratio is below 0.92. -/
def dutyLow (r : Option Rat) : Bool :=
  match r with
  | some q => decide (q < 92 / 100)
  | none => false

/-- q_b at a scale s = sn / sd (R171). -/
def scaledQ (t : PlaneSeq) (c : Colour) (sn sd b : Nat) : Nat := 2 ^ b * t.q0 c * sn / sd

/-- The kept base b0 of a colour (R171), D where no bit is kept. -/
def keptBase (t : PlaneSeq) (c : Colour) (sn sd : Nat) : Nat :=
  match (List.range t.depth).find? (fun b =>
      let q := scaledQ t c sn sd b
      (List.range (t.depth - b)).all fun i => decide (32 ≤ 2 ^ i * q / t.count c (b + i))) with
  | some b => b
  | none => t.depth

/-- The scale s of R171 at a dimming point g (unsigned 1.31): a fraction; φ = floor / 65 536. -/
def scaleOf (g floor_ : Nat) : Nat × Nat := if floor_ * 32768 ≤ g then (1, 1) else (g, floor_ * 32768)

/-- The least D − b0 over the colours at g = 1/20 000 (R175). -/
def floorDepth (t : PlaneSeq) (floor_ : Nat) : Nat :=
  let d (c : Colour) : Nat := t.depth - keptBase t c 65536 (20000 * floor_)
  min (d 0) (min (d 1) (d 2))

/-- The result word of PLANE_SEQ_LOAD. -/
def seqWord (hc : HeadCfg) (sp : ShowGroup) (tmin : Nat) (h : Head) (slow : Bool) (t : PlaneSeq) : Nat :=
  let p := seqPlan hc sp h slow t
  pack [(0, 16, dutyWord (dutyRatio hc.arr tmin t)), (16, 5, floorDepth t hc.arr.levelFloor),
    (21, 11, sat 11 (divUp p.lead 100)), (32, 32, sat 32 (p.fail.getD p.dur))]

/-- What a colour fires at a dimming point: b0, the pulses of its entries by entry number, and W. -/
structure Fired where
  b0     : Nat
  pulses : List (Nat × Nat)
  w      : Nat
deriving DecidableEq, Repr

/-- R171: the pulses p_e of a colour at scale sn / sd. -/
def firedAt (t : PlaneSeq) (c : Colour) (sn sd : Nat) : Fired :=
  let b0 := keptBase t c sn sd
  let q := scaledQ t c sn sd b0
  let ps := ((List.range t.entries.length).zip t.entries).filterMap fun p =>
    if p.2.colour = c then some (p.1, if b0 ≤ p.2.bit then p.2.pulse * q / (2 ^ b0 * t.q0 c) else 0) else none
  { b0 := b0, pulses := ps, w := sumOf ps (·.2) }

/-- λ of a colour before it is rounded to the current reference (R171). -/
def lambdaOf (t : PlaneSeq) (c : Colour) (g floor_ : Nat) : Rat :=
  let s := scaleOf g floor_
  let f := firedAt t c s.1 s.2
  if f.w = 0 then 0 else (g : Rat) / 2147483648 * ((2 ^ t.depth - 1 : Nat) : Rat) * (t.q0 c : Rat) / (f.w : Rat)

/-! ## Coding (R173, R174) -/

/-- The 8 × 8 ordered matrix of R174. -/
def bayer : Nat → Nat → Nat → Nat
  | 0, _, _ => 0
  | k + 1, y, x =>
    let m := 2 ^ k
    let q := match y / m % 2, x / m % 2 with
      | 0, 0 => 0
      | 0, _ => 2
      | _, 0 => 3
      | _, _ => 1
    4 * bayer k (y % m) (x % m) + q

/-- TP of R174. -/
def tpSeq : List Nat := [0, 8, 4, 12, 2, 10, 6, 14, 1, 9, 5, 13, 3, 11, 7, 15]

/-- The threshold index j of R174. -/
def threshold (dither : Nat) (c : Colour) (frame xo yo : Nat) : Nat :=
  let b8 := bayer 3 ((yo + 3 * c.val) % 8) ((xo + 5 * c.val) % 8)
  match dither with
  | 0 => 16 * b8 + tpSeq.getD ((frame % 16 + 5 * c.val) % 16) 0
  | 1 => 16 * b8 + 8
  | _ => 512

/-- The code of a word at kept base b0 and depth D (R173). -/
def codeOf (depth b0 j v : Nat) : Nat :=
  let l := 2 ^ (depth - b0) - 1
  min l ((v * l * 2048 + (2 * j + 1) * 0xFFFFFF) / (2048 * 0xFFFFFF)) * 2 ^ b0

/-! ## Raster heads (R231, R235, R238, R244, R245) -/

/-- NPK of a line (R238). -/
def npkOf (outW : Nat) : Nat := divUp outW 63

/-- HP_max in s as a rational, where F_NOM and TRACK give one (R231). -/
def hpMax (r : RasterCfg) : Rat :=
  if r.fNom = 0 then 0 else 100 / (2 * (r.fNom : Rat) * ((100 - r.track : Nat) : Rat))

/-- The raster duration in µs (R231). -/
def rasterDur (h : HeadCfg) : Rat := ((h.outH + 1 : Nat) : Rat) * hpMax h.ras * 1000000

/-- R231: the raster duration fits SHOW_LEN and T_RETRACE fits BLANK_LEN. -/
def rasterFits (h : HeadCfg) (sp : ShowGroup) : Bool :=
  decide (rasterDur h ≤ (sp.showLen : Rat)) && decide (h.ras.tRetrace ≤ sp.blankLen)

/-- S of R235, unsigned 1.31. -/
def rasterScale (g floor_ : Nat) : Nat := if floor_ * 32768 ≤ g then 0x80000000 else g * 65536 / floor_

/-- The 20-bit value of a word (R235). -/
def rasterCode (s j v : Nat) : Nat :=
  min 0xFFFFF ((v * s / 2147483648 * 0xFFFFF * 2048 + (2 * j + 1) * 0xFFFFFF) / (2048 * 0xFFFFFF))

/-- λ of a raster head (R235). -/
def rasterLambda (g s : Nat) : Rat := if s = 0 then 0 else (g : Rat) / (s : Rat)

/-- Lines of the safe sequence on a raster head (R245): ⌊3000 µs ÷ HP_max⌋ − 1. -/
def safeLines (r : RasterCfg) : Nat := if r.fNom = 0 then 0 else (3 / 1000 / hpMax r).floor.toNat - 1

/-! ## Areas of the plane store (R36, R179, R244) -/

/-- The bytes of a plane and its stride S. -/
def planeBytes (h : HeadCfg) : Nat := h.outW * h.outH / 8
def planeStride (h : HeadCfg) : Nat := divUp (planeBytes h) 4096 * 4096

/-- P of an array head, 0 with no sequence applied. -/
def planeCount (h : HeadCfg) : Nat :=
  match h.seq with
  | some t => t.entries.length
  | none => 0

/-- Bytes of one buffer of a head's area. -/
def bufferBytes (h : HeadCfg) : Nat :=
  if h.raster then h.outH * npkOf h.outW * 512 else planeCount h * planeStride h

/-- The area of an enabled head. -/
def areaBytes (h : HeadCfg) : Nat :=
  if h.raster then divUp (2 * bufferBytes h) 4096 * 4096 else 2 * bufferBytes h

/-- The offset of a head's area from PLANE_BASE: the areas of the enabled heads below it. -/
def areaOffset (c : Cfg) (h : Head) : Nat :=
  sumOf allHeads fun k => if k.val < h.val && headOn c k then areaBytes c.heads[k] else 0

/-- What the enabled heads need of the plane store. -/
def planeNeed (c : Cfg) : Nat := sumOf allHeads fun k => if headOn c k then areaBytes c.heads[k] else 0

end Sys2Proof.Machine
end

