-- ==== Sys2Proof/Machine/Warp.lean ====
section
/-! DEFINITION. The warp (04): mesh evaluation, source positions, block footprints, the tile cache and the fetch factor. -/

namespace Sys2Proof.Machine

/-! ## Meshes -/

/-- The smallest spacing exponent from 3 to 8 whose count of points for n pixels is at most `most` (R119, R124). -/
def leastSpacing (n most : Nat) : Nat :=
  match (List.range 6).find? (fun k => decide (divUp n (2 ^ (k + 3)) + 1 ≤ most)) with
  | some k => k + 3
  | none => 8

/-- SPX_LOG2 and SPY_LOG2 of a main mesh; the identity mesh of R124 takes the smallest that satisfy R119. -/
def mainSpx (m : Mesh) (outW : Nat) : Nat := if m.spx = 0 then leastSpacing outW 129 else m.spx
def mainSpy (m : Mesh) (outH : Nat) : Nat := if m.spy = 0 then leastSpacing outH 65 else m.spy

/-- The control points along one axis of n pixels at a spacing (R119). -/
def pointsOf (n sp : Nat) : Nat := divUp n (2 ^ sp) + 1

/-- Every displacement is 0. -/
def Mesh.flat (m : Mesh) : Bool := m.pts.all fun p => p.1 == 0 && p.2 == 0

/-- The stored word of control point (i, j). -/
def Mesh.word (m : Mesh) (i j : Nat) : Int × Int := m.pts.getD (j * m.mx + i) (0, 0)

/-- A control point of one axis with the linear extrapolation of R125 outside 0 to n − 1. -/
def extend (n : Nat) (f : Nat → Int) (i : Int) : Int :=
  if i < 0 then 2 * f 0 - f 1
  else if (n : Int) ≤ i then 2 * f (n - 1) - f (n - 2)
  else f i.toNat

/-- A control point with the extrapolation of R125 on both axes. -/
def extended (mx my : Nat) (f : Nat → Nat → Int) (i j : Int) : Int := extend my (fun j' => extend mx (fun i' => f i' j') i) j

/-- The four Catmull-Rom weights (a = −0.5) at n/s, times 2 s³ (R125). -/
def crWeights (n s : Int) : List Int :=
  [-n * s * s + 2 * n * n * s - n * n * n, 2 * s * s * s - 5 * n * n * s + 3 * n * n * n,
   n * s * s + 4 * n * n * s - 3 * n * n * n, -n * n * s + n * n * n]

/-- A weighted sum. -/
def dot (ws xs : List Int) : Int := (ws.zip xs).foldl (fun a p => a + p.1 * p.2) 0

/-- ⌊a / b + 1/2⌋ for a positive b (R68). -/
def roundDiv (a b : Int) : Int := (2 * a + b) / (2 * b)

/-- The displacement of a main mesh at an output pixel in units of 1/1024 px, from control points in units of 1/16 px
(R125). -/
def mainAt (spx spy mx my : Nat) (f : Nat → Nat → Int) (xo yo : Nat) : Int :=
  let sx := 2 ^ spx
  let sy := 2 ^ spy
  let wx := crWeights ((xo % sx : Nat) : Int) (sx : Nat)
  let wy := crWeights ((yo % sy : Nat) : Int) (sy : Nat)
  let ci : Int := ((xo / sx : Nat) : Int)
  let cj : Int := ((yo / sy : Nat) : Int)
  let row (j : Int) : Int := dot wx ([-1, 0, 1, 2].map fun d => extended mx my f (ci + d) j)
  roundDiv (64 * dot wy ([-1, 0, 1, 2].map fun d => row (cj + d))) (4 * (sx : Nat) ^ 3 * (sy : Nat) ^ 3)

/-- The bilinear offset at an output pixel: its numerator over spacing × spacing, in units of 1/32 px (R125). -/
def offsetAt (spx spy mx my : Nat) (f : Nat → Nat → Int) (xo yo : Nat) : Int :=
  let sx := 2 ^ spx
  let sy := 2 ^ spy
  let tx : Int := ((xo % sx : Nat) : Int)
  let ty : Int := ((yo % sy : Nat) : Int)
  let ci : Int := ((xo / sx : Nat) : Int)
  let cj : Int := ((yo / sy : Nat) : Int)
  let p (i j : Int) : Int := extended mx my f (ci + i) (cj + j)
  ((sy : Nat) - ty) * (((sx : Nat) - tx) * p 0 0 + tx * p 1 0) + ty * (((sx : Nat) - tx) * p 0 1 + tx * p 1 1)

/-- The blend of two displacements at an eye position (R129). -/
def eyeBlend (eye : Nat) (d0 d1 : Int) : Int := d0 + roundDiv ((d1 - d0) * (eye : Nat)) 65535

/-! ## Positions (R126) -/

/-- What the warp of a head needs. -/
structure Geom where
  outW : Nat
  outH : Nat
  winX : Nat
  winY : Nat
  winW : Nat
  winH : Nat
  m0   : Mesh
  m1   : Mesh
  offs : Mesh
  eye  : Option Nat            -- the eye position, where the two meshes are blended

/-- The geometry of a head's configuration with its meshes blended at an eye position, or slot 0 alone. -/
def geomOf (h : HeadCfg) (m0 m1 : Mesh) (eye : Option Nat) : Geom :=
  { outW := h.outW, outH := h.outH, winX := h.sh.winX, winY := h.sh.winY, winW := h.sh.winW, winH := h.sh.winH
    m0 := m0, m1 := m1, offs := h.offs, eye := eye }

/-- The warp moves no pixel from its nominal position. -/
def Geom.flat (g : Geom) : Bool := g.m0.flat && g.offs.flat && (g.eye.isNone || g.m1.flat)

/-- The nominal position on one axis, in units of 2⁻²⁰ px (R126). -/
def nominal (win0 winN outN xo : Nat) : Int :=
  (win0 : Int) * 1048576 +
    roundDiv ((2 * (xo : Int) + 1) * winN * 1048576 - (outN : Int) * 1048576) (2 * (outN : Int))

/-- A component of the displacement at an output pixel, in 1/1024 px. -/
def Geom.disp (g : Geom) (vertical : Bool) (xo yo : Nat) : Int :=
  let part (p : Int × Int) : Int := if vertical then p.2 else p.1
  let f (i j : Nat) : Int :=
    match g.eye with
    | none => part (g.m0.word i j)
    | some e => eyeBlend e (part (g.m0.word i j)) (part (g.m1.word i j))
  let sx := mainSpx g.m0 g.outW
  let sy := mainSpy g.m0 g.outH
  if g.m0.flat && (g.eye.isNone || g.m1.flat) then 0
  else mainAt sx sy (pointsOf g.outW sx) (pointsOf g.outH sy) f xo yo

/-- The source position of colour c on one axis in units of 1/1024 px (R126). -/
def Geom.pos (g : Geom) (vertical : Bool) (c : Colour) (xo yo : Nat) : Int :=
  let nom := if vertical then nominal g.winY g.winH g.outH yo else nominal g.winX g.winW g.outW xo
  if g.offs.flat then roundDiv (nom + 1024 * g.disp vertical xo yo) 1024
  else
    let part (p : Int × Int) : Int := if vertical then p.2 else p.1
    let o := offsetAt g.offs.spx g.offs.spy g.offs.mx g.offs.my
      (fun i j => part (g.offs.pts.getD ((c.val * g.offs.my + j) * g.offs.mx + i) (0, 0))) xo yo
    let d : Int := (2 ^ g.offs.spx * 2 ^ g.offs.spy : Nat)
    roundDiv (nom * d + 1024 * d * g.disp vertical xo yo + 32768 * o) (1024 * d)

/-- The displacement of a component is the nominal position alone: the position rises with the pixel. -/
def Geom.posFlat (g : Geom) (vertical : Bool) (o : Nat) : Int :=
  roundDiv (if vertical then nominal g.winY g.winH g.outH o else nominal g.winX g.winW g.outW o) 1024

/-! ## Footprints and fills (R130 to R132) -/

/-- A range of tiles: first and last column, first and last row. -/
structure Box where
  x0 : Nat
  x1 : Nat
  y0 : Nat
  y1 : Nat
deriving DecidableEq, Repr

/-- The tiles of a range. -/
def Box.count (b : Box) : Nat := (b.x1 + 1 - b.x0) * (b.y1 + 1 - b.y0)

/-- The range from lo − 1 to hi + 2 clipped to a window of n from w0, in tiles of 2^sh; none when nothing is left. -/
def clipTiles (w0 n sh : Nat) (lo hi : Int) : Option (Nat × Nat) :=
  let a := max (lo - 1) (w0 : Int)
  let b := min (hi + 2) ((w0 : Int) + n - 1)
  if a ≤ b then some (a.toNat / 2 ^ sh, b.toNat / 2 ^ sh) else none

/-- The footprint of a block: the tiles that meet the box of all its positions (R130). -/
def Geom.box (g : Geom) (bx by_ : Nat) : Option Box :=
  let xs := (List.range (min 64 (g.outW - 64 * bx))).map (64 * bx + ·)
  let ys := (List.range (min 128 (g.outH - 128 * by_))).map (128 * by_ + ·)
  let ends (vertical : Bool) : Int × Int :=
    if g.flat then
      let o := if vertical then 128 * by_ else 64 * bx
      let n := if vertical then min 128 (g.outH - 128 * by_) else min 64 (g.outW - 64 * bx)
      (g.posFlat vertical o / 1024, g.posFlat vertical (o + n - 1) / 1024)
    else
      let vals := (ys.map fun y => (xs.map fun x => allColours.map fun c => g.pos vertical c x y / 1024).flatten).flatten
      match vals with
      | [] => (0, 0)
      | v :: r => (r.foldl min v, r.foldl max v)
  let ex := ends false
  let ey := ends true
  match clipTiles g.winX g.winW 4 ex.1 ex.2, clipTiles g.winY g.winH 3 ey.1 ey.2 with
  | some (x0, x1), some (y0, y1) => some { x0 := x0, x1 := x1, y0 := y0, y1 := y1 }
  | _, _ => none

/-- The blocks of a head, stripe by stripe, left to right (R130). -/
def Geom.blocks (g : Geom) : List (Nat × Nat) :=
  ((List.range (divUp g.outH 128)).map fun s => (List.range (divUp g.outW 64)).map fun b => (b, s)).flatten

/-- The tiles of a footprint in request order. -/
def Box.tiles (b : Box) : List (Nat × Nat) :=
  ((List.range (b.y1 + 1 - b.y0)).map fun j => (List.range (b.x1 + 1 - b.x0)).map fun i => (b.x0 + i, b.y0 + j)).flatten

/-- One request of the tile cache, most recently used first: a hit moves to the front; a miss fills, and past 168 tiles the
least recently used is replaced. -/
def cacheStep (st : List (Nat × Nat) × Nat) (t : Nat × Nat) : List (Nat × Nat) × Nat :=
  if st.1.contains t then (t :: st.1.erase t, st.2) else ((t :: st.1).take 168, st.2 + 1)

/-- The fills of one build (R130, R132). -/
def Geom.fills (g : Geom) : Nat :=
  (g.blocks.foldl (fun st b =>
    match g.box b.1 b.2 with
    | some x => x.tiles.foldl cacheStep st
    | none => st) (([], 0) : List (Nat × Nat) × Nat)).2

/-- The computed fetch factor of a slot in units of 1/256, rounded up (R132). -/
def Geom.kc (g : Geom) : Nat := divUp (g.fills * 128 * 256) (g.winW * g.winH)

/-- The tiles of the box round two footprints (R131): every position between the two stays within it, whatever the eye position (log
entry 76). -/
def unionCount (a b : Option Box) : Nat :=
  match a, b with
  | some p, some q => (Box.mk (min p.x0 q.x0) (max p.x1 q.x1) (min p.y0 q.y0) (max p.y1 q.y1)).count
  | some p, none => p.count
  | none, some q => q.count
  | none, none => 0

/-- The head's k of R132 in units of 1/256 as reported: 294 for the default of 1.15. -/
def kReport (m0 : Mesh) : Nat := if m0.kfetch = 0 then 294 else m0.kfetch

/-- The rounded kc exceeds k (R132). -/
def kcOver (kc : Nat) (m0 : Mesh) : Bool := if m0.kfetch = 0 then decide (115 * 256 < kc * 100) else decide (m0.kfetch < kc)

/-- k as a rational. -/
def kOf (m0 : Mesh) : Rat := if m0.kfetch = 0 then 115 / 100 else (m0.kfetch : Rat) / 256

/-- The largest footprint and the block that has it, the first in traversal order. -/
def largestFoot : List (Nat × Nat) → (Nat → Nat → Nat) → Nat × Nat × Nat → Nat × Nat × Nat
  | [], _, best => best
  | (b, s) :: r, f, best => largestFoot r f (if best.1 < f b s then (f b s, b, s) else best)

/-- The checks of R131 and R132 on a head's configuration: the status with its result word, or none, and the word. With
EYE_EN 0 slot 0 alone is checked. -/
def warpCheck (h : HeadCfg) : Ref × Nat :=
  if h.outW = 0 || h.outH = 0 || h.sh.winW = 0 || h.sh.winH = 0 then (none, 0)
  else
    let g0 := geomOf h h.mesh0 h.mesh1 none
    let g1 := geomOf h h.mesh1 h.mesh1 none
    let foot (b s : Nat) : Nat :=
      if h.sh.eyeEn then unionCount (g0.box b s) (g1.box b s) else unionCount (g0.box b s) none
    let big := largestFoot g0.blocks foot (0, 0, 0)
    let kc := if h.sh.eyeEn then max g0.kc g1.kc else g0.kc
    let word := pack [(0, 16, sat 16 kc), (16, 8, sat 8 big.1), (32, 16, big.2.1), (48, 16, big.2.2)]
    (if 160 < big.1 then some (stWarpFootprint, word)
     else if kcOver kc h.mesh0 then some (stFetchFactor, word)
     else none, word)

/-! ## The staged header (R120, R123) -/

/-- The staged length that a mesh load's header implies, capped (WARP_LOAD, DATA_CRC). -/
def meshLength (offsets : Bool) (hdr : List Byte) : Nat :=
  let n := at8 hdr 8 2 * at8 hdr 10 2
  if offsets then min (64 + 6 * n) 12934 else min (64 + 4 * n) 33604

/-- R123: the staged mesh is well formed for a load of its kind. -/
def meshFormatOk (offsets : Bool) (b : List Byte) : Bool :=
  let lo := if offsets then 4 else 3
  let sx := at8 b 5 1
  let sy := at8 b 6 1
  let mx := at8 b 8 2
  let my := at8 b 10 2
  let kf := at8 b 16 2
  at8 b 0 4 == 0x314D5747 && at8 b 4 1 == 1 && at8 b 7 1 == offsets.toNat &&
    decide (lo ≤ sx ∧ sx ≤ lo + 5) && decide (lo ≤ sy ∧ sy ≤ lo + 5) &&
    mx == divUp (at8 b 12 2) (2 ^ sx) + 1 && my == divUp (at8 b 14 2) (2 ^ sy) + 1 &&
    decide (mx ≤ if offsets then 65 else 129) && decide (my ≤ if offsets then 33 else 65) &&
    (kf == 0 || (!offsets && decide (64 ≤ kf ∧ kf ≤ 1024))) && at8 b 18 46 == 0

/-- R123: the staged mesh matches the head in the prospective state. -/
def meshMatches (kind : Nat) (both : Bool) (h : HeadCfg) (b : List Byte) : Bool :=
  let sx := at8 b 5 1
  let sy := at8 b 6 1
  at8 b 12 2 == h.outW && at8 b 14 2 == h.outH &&
    (if kind == 2 then sx == mainSpx h.mesh0 h.outW + 1 && sy == mainSpy h.mesh0 h.outH + 1
     else if both then true
     else
       let other := if kind == 0 then h.mesh1 else h.mesh0
       sx == mainSpx other h.outW && sy == mainSpy other h.outH)

end Sys2Proof.Machine
end

