-- ==== Sys2Proof/Machine/Fit.lean ====
section
/-! DEFINITION. The limits that commands are judged by: the rate of R20, pixel rates, the line-buffer pool, bandwidth, store
regions, the show-fit rule and the link schedule. -/

namespace Sys2Proof.Machine

/-! ## The rate (R20, R42, R139, R308) -/

/-- The least effective Tmin of a throttle level, in µs (R308). -/
def throttleTmin (level : Nat) : Nat :=
  match level with
  | 5 => 10000
  | 6 => 12500
  | 7 => 16667
  | 8 => 20000
  | _ => 0

/-- The largest cap that a head device holds for its chain (R454), in µs. -/
def chainCap (s : State) : Nat := maxOf s.cw.caps (·.2)

/-- What the effective Tmin is at least, TMIN apart, for a configuration (R139). -/
def tminFloor (s : State) (c : Cfg) : Nat :=
  max (throttleTmin s.therm.level) (max (chainCap s) (if s.clk.bwSafe then c.tick.tmax else s.clk.bwTmin))

/-- The effective Tmin of a configuration, in µs; R of R20 is its inverse. -/
def tminOf (s : State) (c : Cfg) : Nat := max c.tick.tmin (tminFloor s c)

/-! ## Layers: pixel rate and line pool (R71, R74, R75, R78) -/

/-- An enabled layer that is not dropped (R103) counts. -/
def layerCounts (c : Cfg) (k : Layer) : Bool := c.layers[k].enable && !c.dropped.getLsbD k.val

/-- R71 for one layer. The limit holds for every layer that is enabled in the state judged: a disabled layer reads no pixel
(log entry 58). -/
def layerRateOk (s : State) (c : Cfg) (k : Layer) : Bool :=
  !layerCounts c k ||
    decide (c.layers[k].sh.srcW * c.layers[k].sh.srcH * (if c.layers[k].twoPass then 2 else 1) ≤ 2400 * tminOf s c)

/-- R71 for every layer. -/
def layersRateOk (s : State) (c : Cfg) : Bool := (allFin 24).all (layerRateOk s c)

/-- R78: the canvas pixel rate. -/
def canvasRateOk (s : State) (c : Cfg) : Bool := decide (c.canvas.w * c.canvas.h ≤ 2000 * tminOf s c)

/-- R71 and R78 together. -/
def rateOk (s : State) (c : Cfg) : Bool := layersRateOk s c && canvasRateOk s c

/-- L of R74. -/
def poolLines (k : Layer) (twoPass : Bool) (v : LayerSh) : Nat :=
  if v.srcH = v.dstH then 2
  else if k.val < 4 then (if twoPass then 14 else 8)
  else if v.srcH < v.dstH then 3
  else v.srcH / v.dstH + 1

/-- The granules of a layer (R74). -/
def granules (c : Cfg) (k : Layer) : Nat :=
  if k.val < 8 && layerCounts c k then
    let l := c.layers[k]
    divUp (min l.sh.srcW l.sh.dstW) 256 * poolLines k l.twoPass l.sh
  else 0

/-- The granules that a configuration takes. -/
def poolNeed (c : Cfg) : Nat := sumOf (allFin 24) (granules c)

/-- R75. -/
def poolRef (c : Cfg) : Ref :=
  need (decide (poolNeed c ≤ 224)) stLinePool (pack [(0, 16, poolNeed c), (16, 16, 224)])

/-! ## Bandwidth (R39 to R41) -/

/-- b of a format in sixteenths of a byte, with the header plane of a GTC surface and the second pass (R39). -/
def bytes16 (v : LayerSh) (twoPass : Bool) : Nat :=
  let b := match v.format with
    | 0 => 64
    | 1 => 64
    | 2 => 128
    | 3 => 48
    | 4 => 64
    | 5 => 16
    | _ => 0
  (b + (if v.gtc then 1 else 0)) * (if twoPass then 2 else 1)

/-- Bytes of surfaces, of canvas writes, of canvas reads and of plane-store traffic per frame. -/
def surfBytes (c : Cfg) : Rat :=
  (sumOf (allFin 24) fun k => if layerCounts c k then
    c.layers[k].sh.srcW * c.layers[k].sh.srcH * bytes16 c.layers[k].sh c.layers[k].twoPass else 0 : Nat) / 16
def canvasWriteBytes (c : Cfg) : Nat := c.canvas.w * c.canvas.h * 9
def canvasReadBytes (c : Cfg) : Rat :=
  allHeads.foldl (fun a h => if headOn c h then
    a + (c.heads[h].sh.winW * c.heads[h].sh.winH * 9 : Nat) * kOf c.heads[h].mesh0 else a) 0
def planeTraffic (c : Cfg) : Nat :=
  sumOf allHeads fun h => if headOn c h then
    (if c.heads[h].raster then bufferBytes c.heads[h] else planeBytes c.heads[h] * planeCount c.heads[h]) else 0

/-- Bytes read and written per frame. -/
def trafficOf (c : Cfg) : Rat × Rat :=
  (surfBytes c + canvasReadBytes c + (planeTraffic c : Rat), ((canvasWriteBytes c + planeTraffic c : Nat) : Rat))

/-- 0.90 × L in bytes per second (R40): 121 GB/s at 64 GT/s, x16 and 256-byte flits. -/
def linkLimit (l : LinkState) : Rat :=
  let gts : Nat := match l.speed.val with
    | 1 => 8
    | 2 => 16
    | 3 => 32
    | 4 => 64
    | _ => 0
  (9 / 10) * 121000000000 * (gts : Rat) / 64 * (l.width : Rat) / 16 * (if l.flit256 then 1 else 9 / 10)

/-- Bytes per second at a frame length in µs. -/
def perSecond (bytes : Rat) (tmin : Nat) : Rat := bytes * 1000000 / (tmin : Rat)

/-- Units of 10 MB/s as reported, a half upwards (log entry 15). -/
def tenMb (q : Rat) : Nat := sat 32 (ratRound (q / 10000000)).toNat

/-- R40 holds at a frame length. -/
def bandFits (s : State) (c : Cfg) (tmin : Nat) : Bool :=
  let t := trafficOf c
  let lim := linkLimit s.cxl.link
  decide (perSecond t.1 tmin ≤ lim) && decide (perSecond t.2 tmin ≤ lim)

/-- R41: judged only while the link is in L0 in CXL mode at 8 GT/s or more. -/
def bandRef (s : State) (c : Cfg) : Ref :=
  if cxlUp s then
    let t := trafficOf c
    need (bandFits s c (tminOf s c)) stBandwidth
      (pack [(0, 32, tenMb (perSecond t.1 (tminOf s c))), (32, 32, tenMb (perSecond t.2 (tminOf s c))),
        (64, 32, tenMb (linkLimit s.cxl.link))])
  else none

/-! ## Store regions (R36) -/

def regionRef (c : Cfg) : Ref :=
  need (decide (canvasWriteBytes c ≤ c.mem.canvasMib * 1048576) && decide (planeNeed c ≤ c.mem.planeMib * 1048576))
    stRegionTooSmall

/-! ## Link schedule and show fit (R141, R142, R165, R231) -/

/-- The lane rate that R163 uses: 5.0 Gbit/s when the last successful training reached it, else 10.0. -/
def slowLink (s : State) (h : Head) : Bool := s.links[h].lastRate == 1

/-- The plan of an enabled array head with a sequence. -/
def planOf (s : State) (c : Cfg) (h : Head) : Option SeqPlan :=
  if arrayOn c h then
    match c.heads[h].seq with
    | some t => some (seqPlan c.heads[h] c.span h (slowLink s h) t)
    | none => none
  else none

/-- R165: the loop of R164 fails for an enabled array head. -/
def scheduleOk (s : State) (c : Cfg) : Bool :=
  allHeads.all fun h => match planOf s c h with
    | some p => p.fail.isNone
    | none => true

/-- The largest skew of an enabled head in µs (R141). -/
def skewMax (c : Cfg) : Nat := maxOf allHeads fun h => if headOn c h then 2 * c.span.skew[h] else 0

/-- R141 and R231 in one state. -/
def showFits (s : State) (c : Cfg) : Bool :=
  decide (20 + c.span.blankLen + skewMax c + c.span.showLen + 20 ≤ c.tick.tmin) &&
    allHeads.all fun h =>
      (match planOf s c h with
      | some p => decide (p.dur ≤ 100 * c.span.showLen)
      | none => true) && (!rasterOn c h || rasterFits c.heads[h] c.span)

/-- The checks of R142 over every state that it names. -/
def showFitRef (s : State) : Ref := need ((judged s).all (showFits s)) stShowFit
def rateRef142 (s : State) : Ref := need ((judged s).all (rateOk s)) stPixelRate
def bandRef142 (s : State) : Ref := firstRef ((judged s).map (bandRef s))

/-- The checks of R165 on the prospective state. -/
def scheduleRef (s : State) : Ref := need (scheduleOk s (prospect s)) stLinkSchedule

/-- R162, R165: the duration of an enabled array head's sequence exceeds SHOW_LEN in a state of R142. -/
def durationRef (s : State) : Ref :=
  need ((judged s).all fun c => allHeads.all fun h => match planOf s c h with
    | some p => decide (p.dur ≤ 100 * c.span.showLen)
    | none => true) stShowFit

end Sys2Proof.Machine
end

