-- ==== Sys2Proof/Machine/LayerCmds.lean ====
section
/-! DEFINITION. The commands of 02 and the canvas and memory-region records: checks and effects (R35, R52 to R85). -/

namespace Sys2Proof.Machine

/-- A refusal changes nothing (R48); else the command's effect. -/
def refuseOr (r : Ref) (ok : Ans) (s : State) : Ans :=
  match r with
  | some (st, rep) => .done st rep s
  | none => ok

/-- The check that a later one depends on: evaluated only when those before it pass. -/
def andThen (a : Ref) (b : Unit → Ref) : Ref :=
  match a with
  | some x => some x
  | none => b ()

/-! ## LAYER_SET -/

/-- Bytes of a pixel of plane 0 (R53). -/
def plane0Bytes (format : Nat) : Nat :=
  match format with
  | 0 => 4
  | 1 => 4
  | 2 => 8
  | 3 => 2
  | 4 => 2
  | _ => 1

/-- The ranges of LAYER_SET's map, lowest field first. -/
def layerRanges (v : LayerSh) : Ref :=
  ranges [(14, decide (v.alphaMode ≠ 3)), (17, decide (v.yccMatrix ≠ 3)), (80, decide (1 ≤ v.surfW ∧ v.surfW ≤ 16384)),
    (96, decide (1 ≤ v.surfH ∧ v.surfH ≤ 16384)), (144, decide (1 ≤ v.srcW)), (160, decide (1 ≤ v.srcH)),
    (176, decide (-8192 ≤ v.dstX ∧ v.dstX ≤ 8191)), (192, decide (-8192 ≤ v.dstY ∧ v.dstY ≤ 8191)),
    (208, decide (1 ≤ v.dstW ∧ v.dstW ≤ 8192)), (224, decide (1 ≤ v.dstH ∧ v.dstH ≤ 4096))]

/-- R52: the formats a layer reads. -/
def formatOk (k : Nat) (v : LayerSh) : Bool :=
  decide (v.format ≤ 5) && !(v.format == 5 && decide (k < 8)) && !(v.gtc && decide (1 < v.format))

/-- A YCbCr format. -/
def isYcc (format : Nat) : Bool := format == 3 || format == 4

/-- R54, R55: the alignment rules, the evenness of a YCbCr rectangle among them (log entry 16). A PITCH1 or a BASE1 other than 0 of a
single-plane format is accepted, and not used (log entry 80). -/
def layerAligned (v : LayerSh) : Bool :=
  if v.gtc then v.base0 % 4096 == 0 && v.base1 % 4096 == 0 && v.pitch0 == 0 && decide (divUp v.surfW 16 * 8 ≤ v.pitch1 * 64)
  else
    v.base0 % 64 == 0 && v.base1 % 64 == 0 && decide (v.surfW * plane0Bytes v.format ≤ v.pitch0 * 64) &&
      (!isYcc v.format || (decide (divUp v.surfW 2 * 4 ≤ v.pitch1 * 64) && v.srcX % 2 == 0 && v.srcW % 2 == 0)) &&
      (!(v.format == 3) || (v.srcY % 2 == 0 && v.srcH % 2 == 0))

/-- R54: the source rectangle lies inside the surface. -/
def layerRectOk (v : LayerSh) : Bool := decide (v.srcX + v.srcW ≤ v.surfW) && decide (v.srcY + v.srcH ≤ v.surfH)

/-- R67 on one axis. -/
def axisScaleOk (k : Nat) (twoPass : Bool) (src dst : Nat) : Bool :=
  if k < 4 then
    (if twoPass then decide (src ≤ 8 * dst ∧ 2 * dst ≤ src) else decide (src ≤ 4 * dst ∧ dst ≤ 8 * src))
  else if k < 8 then
    decide (src ≤ dst ∧ dst ≤ 8 * src) || (src % dst == 0 && decide (2 ≤ src / dst ∧ src / dst ≤ 16))
  else src == dst

/-- The checks of LAYER_SET on the command alone, in the order of its block (R378). -/
def layerSetLocal (p : BitVec 384) : Ref :=
  let k := fld p 0 5
  let v := layerShOf p
  firstRef [need (decide (k < 24)) stLayerType, layerRanges v, need (formatOk k v) stFormat,
    need (layerAligned v) stAlignment, need (layerRectOk v) stRectInvalid,
    need (axisScaleOk k (bit p 13) v.srcW v.dstW && axisScaleOk k (bit p 13) v.srcH v.dstH) stScaleRange,
    need (!bit p 13 || decide (k < 4)) stLayerType]

/-- The state that LAYER_SET leaves: TWO_PASS at once, the sh fields in the open set. -/
def layerSetNext (p : BitVec 384) (s : State) : State :=
  let k : Layer := Fin.ofNat 24 (fld p 0 5)
  addSh [.layer k (layerShOf p)] (onCfg (setLayer k (fun l => { l with twoPass := bit p 13 })) s)

/-- The checks of LAYER_SET, in the order of its block. -/
def layerSetRef (p : BitVec 384) (s : State) : Ref :=
  let k : Layer := Fin.ofNat 24 (fld p 0 5)
  let s' := layerSetNext p s
  let c := prospect s'
  andThen (layerSetLocal p) fun _ =>
    firstRef [poolRef c, need (layersRateOk s' c) stPixelRate, bandRef s' c, regionRef c,
      stFields (layerRuns s k) [(13, bit p 13 != s.cfg.layers[k].twoPass)]]

def runLayerSet (d : Desc) (s : State) : Ans :=
  refuseOr (layerSetRef d.payload s) (.done stOk 0 (layerSetNext d.payload s)) s

/-! ## LAYER_ENABLE -/

/-- The state that LAYER_ENABLE leaves: the enable of each selected layer in the open set. -/
def layerEnableNext (p : BitVec 384) (s : State) : State :=
  addSh ((allFin 24).filterMap fun k => if bit p (32 + k.val) then some (.layerEnable k (bit p k.val)) else none) s

/-- The checks of LAYER_ENABLE. -/
def layerEnableRef (p : BitVec 384) (s : State) : Ref :=
  let s' := layerEnableNext p s
  let c := prospect s'
  firstRef [poolRef c, need (layersRateOk s' c) stPixelRate, bandRef s' c]

def runLayerEnable (d : Desc) (s : State) : Ans :=
  refuseOr (layerEnableRef d.payload s) (.done stOk 0 (layerEnableNext d.payload s)) s

/-! ## LUT_LOAD, COEFF_LOAD, BLEND_ORDER_SET (R76, R82, R83) -/

/-- The first load covers the whole place of the second, and replaces it in the open set (R43, R84). -/
def sameLoad (a b : CfgWrite) : Bool :=
  match a, b with
  | .preLut k _, .preLut k' _ => k == k'
  | .palette k _, .palette k' _ => k == k'
  | .coeff k x y _, .coeff k' x' y' _ => k == k' && x == x' && y == y'
  | .postLut _, .postLut _ => true
  | .mesh h k b _, .mesh h' k' b' _ => h == h' && ((b && decide (k'.val < 2)) || (k == k' && !b'))
  | .seq h _, .seq h' _ => h == h'
  | .rtable h _, .rtable h' _ => h == h'
  | .ctable h _, .ctable h' _ => h == h'
  | _, _ => false

/-- A load enters the open set in place of an earlier one of the same place. -/
def addLoad (w : CfgWrite) (s : State) : State :=
  onOpenSet (fun l => l.filter (fun o => !sameLoad w o) ++ [w]) s

/-- The staging check of R373. -/
def stageRef (off len : Nat) : Ref := need (stagedOk off len) stStagingRange

/-- The first entry of a colour table whose top byte is not zero (R83), as STATUS_RESERVED_SET reports it (WHERE 2). -/
def topBytes : Nat → List Nat → Ref
  | _, [] => none
  | i, w :: r =>
    if w / 2 ^ 24 = 0 then topBytes (i + 1) r
    else some (stReservedSet, 2 * 2 ^ 16 + (32 * i + 24 + (lowestBit (w / 2 ^ 24) 8).getD 0) * 2 ^ 32)

/-- The bytes of a LUT_LOAD by its KIND: layer table, canvas table, palette. -/
def lutLen (kind : Nat) : Nat :=
  match kind with
  | 0 => 12288
  | 1 => 49152
  | _ => 1024

/-- The staged load of a LUT_LOAD. -/
def lutLoadOf (p : BitVec 384) (s : State) : Load := loadOf s (loadOff p) (lutLen (fld p 8 2)) (loadCrc p)

/-- What a LUT_LOAD puts into the open set. -/
def lutWrite (p : BitVec 384) (s : State) : CfgWrite :=
  let layer : Layer := Fin.ofNat 24 (fld p 0 5)
  match fld p 8 2 with
  | 0 => .preLut layer (lutLoadOf p s)
  | 1 => .postLut (lutLoadOf p s)
  | _ => .palette layer (lutLoadOf p s)

/-- The checks of LUT_LOAD. -/
def lutLoadRef (p : BitVec 384) (s : State) : Ref :=
  let kind := fld p 8 2
  let k := fld p 0 5
  let ld := lutLoadOf p s
  andThen (firstRef [need (decide (kind ≠ 3)) stRange 8, need (!(kind == 1) || k == 0) stRange 0,
      need (decide (k < 24) && !(kind == 2 && decide (k < 8))) stLayerType, stageRef (loadOff p) (lutLen kind)]) fun _ =>
    firstRef [need (loadOk ld) stCrc, if kind == 2 then none else topBytes 0 (wordsOf 4 (lutLen kind / 4) ld.bytes)]

def runLutLoad (d : Desc) (s : State) : Ans :=
  refuseOr (lutLoadRef d.payload s) (.done stOk 0 (addLoad (lutWrite d.payload s) s)) s

/-- R83: the taps of every phase sum to 16384. -/
def tapSumsOk (taps : Nat) : Nat → List Int → Bool
  | 0, _ => true
  | k + 1, ts => (ts.take taps).sum == 16384 && tapSumsOk taps k (ts.drop taps)

/-- The staged load of a COEFF_LOAD: 8 taps of 64 phases, or 6 on the vertical axis. -/
def coeffLoadOf (p : BitVec 384) (s : State) : Load := loadOf s (loadOff p) (if bit p 4 then 768 else 1024) (loadCrc p)

/-- The checks of COEFF_LOAD. -/
def coeffLoadRef (p : BitVec 384) (s : State) : Ref :=
  let axis := bit p 4
  let len := if axis then 768 else 1024
  let ld := coeffLoadOf p s
  andThen (stageRef (loadOff p) len) fun _ =>
    firstRef [need (loadOk ld) stCrc,
      need (tapSumsOk (if axis then 6 else 8) 64 (signedWordsOf 2 (len / 2) ld.bytes)) stCoeffSum]

def runCoeffLoad (d : Desc) (s : State) : Ans :=
  let p := d.payload
  refuseOr (coeffLoadRef p s) (.done stOk 0 (addLoad (.coeff (headOf p) (headOf p 2) (bit p 4) (coeffLoadOf p s)) s)) s

/-- R76: the slots hold each identifier exactly once. -/
def orderOk (sl : Vector Nat 24) : Bool := (List.range 24).all fun k => sl.toList.contains k

def runBlendOrderSet (d : Desc) (s : State) : Ans :=
  let sl := slotsOf d.payload
  refuseOr (need (orderOk sl) stOrderInvalid) (.done stOk 0 (addSh [.blend (bit d.payload 0) sl] s)) s

/-! ## The canvas record and the memory-region record (R35, R36, R79) -/

/-- A canvas dimension is 0 or within its limits (R78). -/
def canvasDimOk (v lo hi step : Nat) : Bool := v == 0 || (decide (lo ≤ v ∧ v ≤ hi) && v % step == 0)

/-- The background of the canvas record. -/
def bgOf (r : BitVec 256) : Vector Nat 3 := #v[fld r 64 24, fld r 88 24, fld r 112 24]

def writeCanvas (r : BitVec 256) (s : State) : Ref × State :=
  let w := fld r 0 16
  let h := fld r 16 16
  let s' := addSh [.canvas (bit r 32) (bgOf r)] (onCfg (fun c => { c with canvas := { c.canvas with w := w, h := h } }) s)
  let c := prospect s'
  (firstRef [ranges [(0, canvasDimOk w 256 8192 16), (16, canvasDimOk h 128 4096 8)],
    need (canvasRateOk s' c) stPixelRate, bandRef s' c, regionRef c,
    stFields (compRuns s) [(0, w != s.cfg.canvas.w), (16, h != s.cfg.canvas.h)]], s')

/-- A store size is 0, or even from 2 to its limit (R35). -/
def storeMibOk (v hi : Nat) : Bool := v == 0 || (v % 2 == 0 && decide (2 ≤ v ∧ v ≤ hi))

/-- R35: the canvas-store fields belong to the compositor, the plane-store fields to the press engines; a press engine runs
while its head runs (R46). -/
def writeMemory (r : BitVec 256) (s : State) : Ref × State :=
  let m := memOf r
  let o := s.cfg.mem
  let s' := onCfg (fun c => { c with mem := m }) s
  (firstRef [ranges [(0, m.canvasMib == 0 || m.canvasBase % 2 ^ 21 == 0), (64, storeMibOk m.canvasMib 288),
      (128, m.planeMib == 0 || m.planeBase % 2 ^ 21 == 0), (192, storeMibOk m.planeMib 512)],
    regionRef (prospect s'),
    stFields (compRuns s) [(0, m.canvasBase != o.canvasBase), (64, m.canvasMib != o.canvasMib),
      (128, m.planeBase != o.planeBase), (192, m.planeMib != o.planeMib)]], s')

end Sys2Proof.Machine
end

