-- ==== Sys2Proof/Machine/Commit.lean ====
section
/-! DEFINITION. COMMIT, FENCE_MODE_SET, readiness, validity and lateness of records, and the fence lines (03). -/

namespace Sys2Proof.Machine

/-! ## Validity (R91, R92, R94, R146) -/

/-- A record is ready (R91); one whose common part has applied was (R102). -/
def Record.ready (r : Record) : Bool := r.applied || r.layered || r.fences.all fun f => f.acq.isNone || f.signalled

/-- The follower role of R147: an enumerated device with an address other than 0 that takes BOUNDARY packets, from the moment at
which it takes its address. -/
def isFollower (s : State) : Bool := s.cw.follower && s.cw.addr != 0 && !s.cw.alone
/-- An instant counts as an accepted commit, where none has counted before it in the tick. -/
def markValid (s : State) : State :=
  onClk (fun c => { c with validAt := some (match c.validAt with
    | some t => min t c.now
    | none => c.now) }) s

/-- A voter's entry set. -/
def setVoter (a : Nat) (holds : Bool) (vs : List (Nat × Bool)) : List (Nat × Bool) := (a, holds) :: vs.filter (fun v => v.1 != a)

/-- All voting devices hold a valid commit; without a voter none counts (R146). -/
def votesIn (s : State) : Bool := !s.cw.voters.isEmpty && s.cw.voters.all (·.2)

/-- The vote of a device that is not the head device (R455). -/
def sendVote (voter : Bool) (s : State) : State :=
  cwSend .up 0x12 0 (pack [(0, 20, s.clk.tick), (20, 1, voter.toNat)]) [] s

/-- A commit has become valid: it paces this device's ticks, or on a chain it votes where CHAIN_VOTE is 1 (R17, R146). -/
def noteValid (s : State) : State :=
  if isFollower s then (if s.cfg.scan.chainVote then sendVote true s else s)
  else if isChainHead s then
    if s.cfg.scan.chainVote then
      let s1 := onCw (fun c => { c with voters := setVoter 0 true c.voters }) s
      if votesIn s1 && s1.clk.cutAt.isNone then markValid s1 else s1
    else s
  else if s.clk.cutAt.isNone then markValid s
  else s

/-- R92: every ready record whose earlier records are all ready becomes valid; after the cut-off it is late (R94). The second
list holds the tags of the records that became late, the flag whether any became valid before the cut-off. -/
def judgeRecords (cut : Bool) (now : Nat) : List Record → List Record × List (BitVec 32) × Bool
  | [] => ([], [], false)
  | r :: rs =>
    if r.ready then
      let rest := judgeRecords cut now rs
      if r.valid then (r :: rest.1, rest.2.1, rest.2.2)
      else ({ r with valid := true, since := now, late := cut } :: rest.1, if cut then r.tag :: rest.2.1 else rest.2.1, true)
    else (r :: rs, [], false)

/-- COMMIT_LATE's payload (R111): the tag and the time after the cut-off, in 2 ns units, of which whole µs are reported. -/
def lateWord (tag : BitVec 32) (after : Nat) : Nat := pack [(0, 32, tag.toNat), (32, 16, sat 16 (after / 500))]

/-- Records are judged again, COMMIT_LATE is raised for each that became valid late (R94). -/
def judge (s : State) : State :=
  let r := judgeRecords s.clk.cutAt.isSome s.clk.now s.com.records
  let s1 := onCom (fun c => { c with records := r.1 }) s
  let s2 := forEach r.2.1 (fun tag s => raise srcCommit evCommitLate (lateWord tag (s.clk.now - s.clk.cutAt.getD s.clk.now)) s) s1
  if r.2.2 then noteValid s2 else s2

/-! ## Fence lines (R95, R96, R112) -/

/-- The 64-byte line of an address. -/
def lineOf (a : Nat) : Nat := a / 64

/-- The acquire addresses of pending records and deferred parts. -/
def watched (rs : List Record) : List Nat := (rs.map fun r => r.fences.filterMap fun f => f.acq.map (·.1)).flatten

/-- Distinct elements, each where it first stands. -/
def distinct (l : List Nat) : List Nat := l.foldl (fun a x => if a.contains x then a else a ++ [x]) []

/-- A shared read of a line is asked for (R96); while detached no traffic is sent (R368). -/
def readLine (line : Nat) (s : State) : State :=
  let keep := s.com.lines.filter fun l => l.line != line
  let up := s.cxl.attached
  let s1 := onCom (fun c => { c with lines := keep ++ [{ line := line, reading := up, failed := false, cached := none }] }) s
  if up then emit (.cache .rdShared [line]) s1 else s1

/-- Lines that no pending fence names are no longer watched (R95). -/
def trimLines (s : State) : State :=
  let ls := (watched s.com.records).map lineOf
  onCom (fun c => { c with lines := c.lines.filter fun l => ls.contains l.line }) s

/-! ## The fence list of a COMMIT -/

/-- An entry of the fence list as staged (03, COMMIT). -/
structure StagedFence where
  layer : Nat
  acqEn : Bool
  relEn : Bool
  acqA  : Nat
  acqV  : BitVec 64
  relA  : Nat
  relV  : BitVec 64

def stagedFence (w : BitVec 512) : StagedFence :=
  { layer := fld w 0 5, acqEn := bit w 8, relEn := bit w 9, acqA := fld w 64 64, acqV := BitVec.ofNat 64 (fld w 128 64)
    relA := fld w 192 64, relV := BitVec.ofNat 64 (fld w 256 64) }

/-- The 64-byte entries of a staged list. -/
def fenceWords : Nat → List Byte → List (BitVec 512)
  | 0, _ => []
  | k + 1, bs => BitVec.ofNat 512 (leNat (bs.take 64)) :: fenceWords k (bs.drop 64)

/-- R95: a fence address is a multiple of 8 bytes outside the canvas store and the plane store. -/
def fenceAddrOk (m : MemCfg) (a : Nat) : Bool :=
  a % 8 == 0 && !(decide (m.canvasBase ≤ a) && decide (a < m.canvasBase + m.canvasMib * 1048576)) &&
    !(decide (m.planeBase ≤ a) && decide (a < m.planeBase + m.planeMib * 1048576))

/-- The last LAYER_SET of a layer in a list of writes. -/
def lastLayer (k : Layer) (ws : List CfgWrite) : Option LayerSh :=
  ws.foldl (fun a w => match w with
    | .layer k' v => if k' = k then some v else a
    | _ => a) none

/-- The last enable bit of a layer in a list of writes. -/
def lastEnable (k : Layer) (ws : List CfgWrite) : Option Bool :=
  ws.foldl (fun a w => match w with
    | .layerEnable k' on => if k' = k then some on else a
    | _ => a) none

/-- R107: the record changes BASE0 or BASE1 of the layer, or enables it, against the live state with every earlier pending
record. -/
def relAllowed (s : State) (k : Layer) : Bool :=
  let prior := (afterRecords s).layers[k]
  (match lastLayer k s.openSet with
    | some v => v.base0 != prior.sh.base0 || v.base1 != prior.sh.base1
    | none => false) ||
  (match lastEnable k s.openSet with
    | some true => !prior.enable
    | _ => false)

/-- Layers named once each, all 0 to 23. -/
def layersOk : List Nat → Bool
  | [] => true
  | k :: r => decide (k < 24) && !r.contains k && layersOk r

/-- The reserved bits of a list's entries (WHERE 2, the bit offset in the staged list). -/
def fenceReserved : Nat → List (BitVec 512) → Ref
  | _, [] => none
  | i, w :: r =>
    match reservedBits [(0, 5), (8, 2), (64, 256)] w.toNat 512 2 with
    | some x => some (stReservedSet, 2 * 2 ^ 16 + (512 * i + x.2 % 2 ^ 16) * 2 ^ 32)
    | none => fenceReserved (i + 1) r

/-- The staged list of a COMMIT. -/
def commitList (p : BitVec 384) (s : State) : List (BitVec 512) :=
  let n := fld p 32 5
  if n = 0 then [] else fenceWords n (staged s (fld p 96 32) (64 * n))

/-- The checks of COMMIT in the order of its block; the staging check comes before every status that judges staged bytes. -/
def commitRef (p : BitVec 384) (s : State) : Ref :=
  let n := fld p 32 5
  let off := fld p 96 32
  andThen (firstRef [need (decide (s.com.records.length < 4)) stCommitQueueFull,
      need (decide (n ≤ 24)) stFenceLimit (pack [(0, 16, n), (16, 16, 24)]),
      if n = 0 then none else stageRef off (64 * n)]) fun _ =>
    if n = 0 then none
    else
      let bs := staged s off (64 * n)
      let ws := fenceWords n bs
      let es := ws.map stagedFence
      let lines := (distinct ((watched s.com.records ++ (es.filter (·.acqEn)).map (·.acqA)).map lineOf)).length
      firstRef [need (decide (lines ≤ 64)) stFenceLimit (pack [(0, 16, lines), (16, 16, 64)]),
        need (es.all fun e => (!e.acqEn || fenceAddrOk s.cfg.mem e.acqA) && (!e.relEn || fenceAddrOk s.cfg.mem e.relA))
          stFenceAddr,
        need (layersOk (es.map (·.layer)) && es.all fun e => !e.relEn || relAllowed s (Fin.ofNat 24 e.layer)) stFenceLayer,
        need (crc32c bs == fld p 128 32) stCrc, fenceReserved 0 ws]

/-- The record that a COMMIT makes of the open set (R87). -/
def commitRecord (p : BitVec 384) (s : State) : Record :=
  { tag := BitVec.ofNat 32 (fld p 0 32)
    writes := s.openSet ++ (if bit p 48 then [.eye (fld p 64 16)] else [])
    fences := (commitList p s).map fun w =>
      let e := stagedFence w
      { layer := Fin.ofNat 24 e.layer, acq := if e.acqEn then some (e.acqA, e.acqV) else none, signalled := false, since := 0
        held := false, rel := if e.relEn then some (e.relA, e.relV) else none }
    execTick := s.clk.tick, layered := s.cfg.fence.layered, valid := false, since := 0, marked := false, doomed := false, late := false
    applied := false, deferred := [] }

/-- COMMIT (R87, R89): the open set is frozen, its fence lines are read (R96), and the records are judged. -/
def commitNext (p : BitVec 384) (s : State) : State :=
  let r := commitRecord p s
  let s1 := onCom (fun c => { c with records := c.records ++ [r] }) (onOpenSet (fun _ => []) s)
  judge (forEach (distinct ((watched [r]).map lineOf)) readLine s1)

def runCommit (d : Desc) (s : State) : Ans :=
  let p := d.payload
  let word := pack [(0, 1, s.clk.cutAt.isSome.toNat), (1, 3, s.com.records.length + 1)]
  refuseOr (commitRef p s) (.done stOk word (commitNext p s)) s

/-- FENCE_MODE_SET (R100): lv. -/
def runFenceModeSet (d : Desc) (s : State) : Ans :=
  let v := fenceOf d.payload
  refuseOr (ranges [(8, decide (v.hold ≠ 0)), (12, decide (v.abandon ≠ 0))]) (.done stOk 0 (addLv [.fence v] s)) s

/-! ## Arrival of fence data (R96 to R98) -/

/-- The word of a line's data at an address. -/
def lineWord (line : BitVec 512) (a : Nat) : Nat := fld line (8 * (a % 64)) 64

/-- An entry is judged on a line's data; one judged signalled stays signalled. -/
def judgeFence (line now : Nat) (w : BitVec 512) (f : FenceEntry) : FenceEntry :=
  match f.acq with
  | some (a, v) =>
    if lineOf a = line && !f.signalled && decide (v.toNat ≤ lineWord w a) then { f with signalled := true, since := now } else f
  | none => f

/-- A deferred part whose fence is signalled counts as a valid record (R103). -/
def partReady (r : Record) : Bool :=
  r.applied && r.fences.any fun f => f.signalled && r.deferred.any fun p => p.1 == f.layer

/-- The data of a line has arrived. -/
def fenceData (line : Nat) (w : BitVec 512) (s : State) : State :=
  let rs := s.com.records.map fun r => { r with fences := r.fences.map (judgeFence line s.clk.now w) }
  let still := rs.any fun r => r.fences.any fun f => match f.acq with
    | some (a, _) => lineOf a == line && !f.signalled
    | none => false
  let s1 := onCom (fun c => { c with
    records := rs
    lines := c.lines.map fun l => if l.line = line then
      { l with reading := false, failed := false, cached := if still then some .shared else none } else l }) s
  let newPart := (rs.zip s.com.records).any fun p => p.1.applied && p.1.fences != p.2.fences
  judge (if newPart && s.clk.cutAt.isNone then noteValid s1 else s1)

/-- The acquire entries on a line that are not signalled, with their records' tags. -/
def openOn (line : Nat) (s : State) : List (BitVec 32 × Nat) :=
  (s.com.records.map fun r => r.fences.filterMap fun f => match f.acq with
    | some (a, _) => if lineOf a = line && !f.signalled then some (r.tag, a) else none
    | none => none).flatten

/-- The read of a line failed (R98): FENCE_ERROR for each fence on it; it is read again at every END. -/
def fenceFailed (line : Nat) (s : State) : State :=
  let s1 := onCom (fun c => { c with
    lines := c.lines.map fun l => if l.line = line then { l with reading := false, failed := true, cached := none } else l }) s
  forEach (openOn line s) (fun f s => raise srcCommit evFenceError (fenceErrorWord false f.1 f.2) s) s1

/-- Every line whose read failed is read again (R98), and every failed release write is made again (R99), at END. -/
def retryFences (s : State) : State :=
  if s.cxl.attached then
    let s1 := forEach ((s.com.lines.filter (·.failed)).map (·.line)) readLine s
    issueRel 8 (onCom (fun c => { c with
      relWrites := c.relWrites.map fun w => if w.st == .failed then { w with st := .waiting } else w }) s1)
  else s

/-- R27, R355: no line stays Modified across a boundary. A release fence write that has not ended is stopped there, and has
failed. -/
def stopFences (s : State) : State :=
  let open_ := s.com.relWrites.filter fun w => w.st != .failed
  forEach open_ (fun w s => raise srcCommit evFenceError (fenceErrorWord true w.tag w.addr) s)
    (onCom (fun c => { c with relWrites := c.relWrites.map fun w => { w with st := .failed } }) s)

/-- After an attachment every watched line is read before any judgement of a pending fence (R112). -/
def rereadFences (s : State) : State := forEach (distinct ((watched s.com.records).map lineOf)) readLine s

end Sys2Proof.Machine
end

