-- ==== Sys2Proof/Machine/HeadCmds.lean ====
section
/-! DEFINITION. The commands of 04, 05 and 06 and the head, array, raster and pixel timing records: checks and effects. -/

namespace Sys2Proof.Machine

/-! ## HEAD_SET (R113 to R117, R124, R133) -/

/-- R113: the output sizes of a head's type. -/
def outWOk (raster : Bool) (w : Nat) : Bool :=
  if raster then decide (64 ≤ w ∧ w ≤ 1280) && w % 16 == 0 else decide (256 ≤ w ∧ w ≤ 4096) && w % 32 == 0
def outHOk (raster : Bool) (h : Nat) : Bool :=
  if raster then decide (64 ≤ h ∧ h ≤ 720) && h % 8 == 0 else decide (128 ≤ h ∧ h ≤ 2304) && h % 8 == 0

/-- The safety window's size: that of the asset in force, 0 × 0 before one is loaded. -/
def windowSize (s : State) : Nat × Nat :=
  match s.safety.asset with
  | some a => (a.ww, a.wh)
  | none => (0, 0)

/-- R326: a window at (wx, wy) lies inside an output. -/
def windowFits (s : State) (wx wy outW outH : Nat) : Bool :=
  let z := windowSize s
  decide (wx + z.1 ≤ outW) && decide (wy + z.2 ≤ outH)

/-- R124, R234: what a write of OUT_W and OUT_H does to the meshes and the pixel timing table. -/
def resize (outW outH : Nat) (h : HeadCfg) : HeadCfg :=
  let h1 := if outW ≠ h.outW || outH ≠ h.outH then
    { h with mesh0 := Mesh.reset, mesh1 := Mesh.reset, offs := Mesh.reset } else h
  let h2 := if outW ≠ h.outW then { h1 with rtable := .uniform } else h1
  { h2 with outW := outW, outH := outH }

/-- The state that HEAD_SET leaves: TYPE, OUT_W and OUT_H at once, the sh fields in the open set. -/
def headSetNext (p : BitVec 384) (s : State) : State :=
  let h := headOf p
  addSh [.head h (headShOf p)]
    (onCfg (setHead h (fun x => { resize (fld p 16 16) (fld p 32 16) x with raster := bit p 9 })) s)

/-- The scale on one axis lies between 1/8 and 2 (R114). -/
def nominalScaleOk (win out : Nat) : Bool := decide (out ≤ 8 * win) && decide (win ≤ 2 * out)

/-- The checks of HEAD_SET on its own fields, in the order of its block. A HEAD_SET that enables a head without a canvas is refused under
R79, so that its window is not held against that canvas. -/
def headSetLocal (p : BitVec 384) (s : State) : Ref :=
  let h := headOf p
  let v := headShOf p
  let ow := fld p 16 16
  let oh := fld p 32 16
  let c := prospect s
  let o := s.cfg.heads[h]
  let unset := c.canvas.w == 0 || c.canvas.h == 0
  firstRef [ranges [(12, decide (v.kernel ≠ 3)), (16, outWOk (bit p 9) ow), (32, outHOk (bit p 9) oh)],
    need (decide (16 ≤ v.winW) && decide (8 ≤ v.winH) &&
      ((v.enable && unset) || (decide (v.winX + v.winW ≤ c.canvas.w) && decide (v.winY + v.winH ≤ c.canvas.h))) &&
      ((ow == o.outW && oh == o.outH) || !(liveLv s).wins[h].shown ||
        windowFits s s.cfg.wins[h].wx s.cfg.wins[h].wy ow oh)) stRectInvalid,
    need (nominalScaleOk v.winW ow && nominalScaleOk v.winH oh) stScaleRange,
    need (!v.enable || !unset) stCanvasUnset,
    need (!(v.enable && bit p 9) || (o.ras.fNom != 0 && o.ras.ampSet != 0)) stRasterUnset]

/-- A HEAD_SET repeats the checks of R131 and R132 when it changes the window or sets EYE_EN (R133). -/
def rewarps (v : HeadSh) (prior : HeadSh) : Bool :=
  v.winX != prior.winX || v.winY != prior.winY || v.winW != prior.winW || v.winH != prior.winH || (v.eyeEn && !prior.eyeEn)

/-- The refusals of the warp checks carry no word on HEAD_SET. -/
def noWord (r : Ref) : Ref := r.map fun x => (x.1, 0)

/-- The checks of HEAD_SET, in the order of its block. -/
def headSetRef (p : BitVec 384) (s : State) : Ref :=
  let h := headOf p
  let v := headShOf p
  let s' := headSetNext p s
  let c := prospect s'
  let o := s.cfg.heads[h]
  andThen (headSetLocal p s) fun _ =>
    firstRef [if rewarps v (prospect s).heads[h].sh then noWord (warpCheck c.heads[h]).1 else none,
      if v.enable then rateRef142 s' else none,
      if v.enable then bandRef142 s' else bandRef s' c,
      regionRef c, scheduleRef s',
      if v.enable then showFitRef s' else firstRef [durationRef s', need ((judged s').all fun c =>
        allHeads.all fun k => !rasterOn c k || rasterFits c.heads[k] c.span) stShowFit],
      stFields (headRuns s h) [(9, bit p 9 != o.raster), (16, fld p 16 16 != o.outW), (32, fld p 32 16 != o.outH)]]

def runHeadSet (d : Desc) (s : State) : Ans :=
  refuseOr (headSetRef d.payload s) (.done stOk 0 (headSetNext d.payload s)) s

/-! ## WARP_LOAD (R119 to R124, R131, R132, R137) -/

/-- The length of a staged mesh, which its header gives (R122). -/
def warpLen (p : BitVec 384) (s : State) : Nat :=
  let off := loadOff p
  meshLength (fld p 2 2 == 2) (if stagedOk off 64 then staged s off 64 else [])

/-- The staged load of a WARP_LOAD. -/
def warpLoadOf (p : BitVec 384) (s : State) : Load := loadOf s (loadOff p) (warpLen p s) (loadCrc p)

/-- The state that WARP_LOAD leaves: the mesh in the open set. -/
def warpLoadNext (p : BitVec 384) (s : State) : State :=
  addLoad (.mesh (headOf p) (Fin.ofNat 3 (fld p 2 2)) (bit p 4) (warpLoadOf p s)) s

/-- R131 and R132 of the head in the state that WARP_LOAD leaves: a refusal, and the result word. -/
def warpVerdict (p : BitVec 384) (s : State) : Ref × Nat :=
  if decide (fld p 2 2 ≠ 2) then warpCheck (prospect (warpLoadNext p s)).heads[headOf p] else (none, 0)

/-- The checks of WARP_LOAD. -/
def warpLoadRef (p : BitVec 384) (s : State) : Ref :=
  let kind := fld p 2 2
  let both := bit p 4
  let off := loadOff p
  let ld := warpLoadOf p s
  let s' := warpLoadNext p s
  andThen (firstRef [need (decide (kind ≠ 3)) stRange 2, need (!(both && kind != 0)) stReservedSet 4,
      stageRef off 64, stageRef off (warpLen p s)]) fun _ =>
    andThen (firstRef [need (loadOk ld) stCrc, need (meshFormatOk (kind == 2) ld.bytes) stMeshFormat,
      need (meshMatches kind both (prospect s).heads[headOf p] ld.bytes) stMeshMismatch]) fun _ =>
    if decide (kind ≠ 2) then firstRef [(warpVerdict p s).1, bandRef s' (prospect s')] else none

def runWarpLoad (d : Desc) (s : State) : Ans :=
  let p := d.payload
  refuseOr (warpLoadRef p s) (.done stOk (warpVerdict p s).2 (warpLoadNext p s)) s

/-! ## TIMING_SET (R139 to R142, R147, R149, R155) -/

/-- The writes of the groups that a TIMING_SET selects. -/
def timingWrites (p : BitVec 384) : List CfgWrite :=
  (if bit p 0 then [.tick (tickOf p)] else []) ++ (if bit p 1 then [.span (spanOf p)] else []) ++
    (if bit p 2 then [.scan (scanOf p)] else [])

/-- R155: with the show group the groups apply as one unit at the LATCH of their commit; without it they are lv. -/
def timingNext (p : BitVec 384) (s : State) : State :=
  if bit p 1 then addSh (timingWrites p) s else addLv (timingWrites p) s

/-- The height that a comparator's LINE is held against, where it has one (R149). -/
def lineLimit (c : Cfg) (v : LmCfg) : Option Nat :=
  match v.src with
  | 0 => none
  | 1 => some c.canvas.h
  | _ => some c.heads[v.head].outH

/-- R149. -/
def lineOk (c : Cfg) (v : LmCfg) : Bool :=
  match lineLimit c v with
  | some n => decide (v.line < n)
  | none => true

/-- The ranges of the selected groups, lowest field first. -/
def timingRanges (p : BitVec 384) (c : Cfg) : Ref :=
  let t := tickOf p
  let v := spanOf p
  let q := scanOf p
  ranges ((if bit p 0 then [(16, decide (4000 ≤ t.tmin ∧ t.tmin ≤ 20000)), (32, decide (t.tmin ≤ t.tmax ∧ t.tmax ≤ 20000)),
      (48, decide (100 ≤ t.tcut ∧ t.tcut ≤ 1000 ∧ t.tcut + 1000 ≤ t.tmin))] else []) ++
    (if bit p 1 then [(64, decide (40 ≤ v.blankLen ∧ v.blankLen ≤ 500)), (80, decide (3000 ≤ v.showLen ∧ v.showLen ≤ 19900)),
      (96, decide (v.skew[0] ≤ 125)), (104, decide (v.skew[1] ≤ 125)), (112, decide (v.skew[2] ≤ 125)),
      (120, decide (v.skew[3] ≤ 125))] else []) ++
    (if bit p 2 then [(128, decide (q.underrunRepeat ≤ 8)), (144, lineOk c q.lm[0]), (176, lineOk c q.lm[1])] else []))

/-- The checks of TIMING_SET. -/
def timingSetRef (p : BitVec 384) (s : State) : Ref :=
  let s' := timingNext p s
  firstRef [timingRanges p (prospect s'), showFitRef s', if bit p 1 then scheduleRef s' else none, rateRef142 s',
    bandRef142 s', need (!(isFollower s && (bit p 0 || bit p 1))) stChainFollower]

/-- TIMING_SET that selects no group changes nothing. -/
def runTimingSet (d : Desc) (s : State) : Ans :=
  let p := d.payload
  if !bit p 0 && !bit p 1 && !bit p 2 then .done stOk 0 s
  else refuseOr (timingSetRef p s) (.done stOk 0 (timingNext p s)) s

/-! ## PLANE_SEQ_LOAD (R157 to R166, R175) -/

/-- STATUS_LINK_SCHEDULE with the result word of head h: bits 63:32 give the first entry of its sequence that fails; where another
head alone fails, that head's. -/
def scheduleWord (s' : State) (h : Head) (w : Nat) : Ref :=
  let c := prospect s'
  let fail (k : Head) : Option Nat := (planOf s' c k).bind (·.fail)
  match (h :: allHeads).findSome? fail with
  | some e => some (stLinkSchedule, w % 2 ^ 32 + e * 2 ^ 32)
  | none => none

/-- The statuses that R165, R166, R175 and R142 give for a head's sequence, with its result word. A sequence that does not leave D_lim
positive does not fit, whether or not its head is enabled (R166). -/
def seqRefs (s' : State) (h : Head) : Ref × Nat :=
  let c := prospect s'
  let x := c.heads[h]
  let tmin := c.tick.tmin
  match x.seq with
  | none => (firstRef [scheduleWord s' h 0, showFitRef s'], 0)
  | some t =>
    let w := seqWord x c.span tmin h (slowLink s' h) t
    let ratio := dutyRatio x.arr tmin t
    (firstRef [scheduleWord s' h w, need (!dutyLow ratio) stDuty w,
      need (decide (12 ≤ floorDepth t x.arr.levelFloor)) stDepth w, need ratio.isSome stShowFit w,
      (showFitRef s').map fun y => (y.1, w)], w)

/-- R164 for the loaded table itself, whether or not its head is enabled. -/
def ownSchedule (s' : State) (h : Head) (w : Nat) : Ref :=
  let c := prospect s'
  match c.heads[h].seq with
  | some t => need (seqPlan c.heads[h] c.span h (slowLink s' h) t).fail.isNone stLinkSchedule w
  | none => none

/-- The length of a staged sequence, which its header gives (R158). -/
def seqLoadLen (p : BitVec 384) (s : State) : Nat :=
  let off := loadOff p
  seqLength (at8 (if stagedOk off 32 then staged s off 32 else []) 7 1)

/-- The staged load of a PLANE_SEQ_LOAD. -/
def seqLoadOf (p : BitVec 384) (s : State) : Load := loadOf s (loadOff p) (seqLoadLen p s) (loadCrc p)

/-- The state that PLANE_SEQ_LOAD leaves: the sequence in the open set. -/
def seqLoadNext (p : BitVec 384) (s : State) : State := addLoad (.seq (headOf p) (seqLoadOf p s)) s

/-- The checks of PLANE_SEQ_LOAD. -/
def seqLoadRef (p : BitVec 384) (s : State) : Ref :=
  let h := headOf p
  let off := loadOff p
  let ld := seqLoadOf p s
  let s' := seqLoadNext p s
  let c := prospect s'
  andThen (firstRef [stageRef off 32, stageRef off (seqLoadLen p s)]) fun _ =>
    andThen (firstRef [need (loadOk ld) stCrc, need (seqFormatOk ld.bytes) stSeqFormat,
      need (!c.heads[h].raster) stHeadType]) fun _ =>
    let r := seqRefs s' h
    firstRef [ownSchedule s' h r.2, r.1, rateRef142 s', bandRef142 s', regionRef c]

def runPlaneSeqLoad (d : Desc) (s : State) : Ans :=
  let p := d.payload
  refuseOr (seqLoadRef p s) (.done stOk (seqRefs (seqLoadNext p s) (headOf p)).2 (seqLoadNext p s)) s

/-! ## DIM_SET (R176) -/

/-- The lv writes of a DIM_SET: the target and the rate of each head of HEAD_MASK. -/
def dimWrites (p : BitVec 384) : List CfgWrite :=
  allHeads.filterMap fun h => if bit p h.val then some (.dim h (fld p 32 32) (fld p 16 8)) else none

def runDimSet (d : Desc) (s : State) : Ans :=
  let p := d.payload
  let g := fld p 32 32
  refuseOr (ranges [(0, decide (fld p 0 4 ≠ 0)), (32, decide (0x1A36E ≤ g ∧ g ≤ 0x80000000))])
    (.done stOk 0 (addLv (dimWrites p) s)) s

/-! ## φ_min (R256) -/

/-- I_FS in mA: 100 mV over RSHUNT in µΩ. -/
def iFs (c : ChanSt) : Rat := if c.rshunt = 0 then 0 else 100000000 / (c.rshunt : Rat)

/-- φ_min of a channel in units of 1/65 536, φ_cal from the calibration in force. -/
def phiMin (s : State) (n : Chan) (c : ChanSt) : Nat :=
  let phi := s.cal.live.phi[n]
  let cal := if phi = 0xFFFF then 0 else phi
  let span : Rat := (c.iMax : Rat) - (c.iTh : Rat)
  max cal (if c.rshunt = 0 || span ≤ 0 then 0 else (128 * iFs c / span).ceil.toNat)

/-- R256, second case: LEVEL_FLOOR is not below φ_min of an enabled channel of the head. -/
def floorHolds (s : State) (c : Cfg) (h : Head) (floor_ : Nat) : Bool :=
  (allFin 64).all fun n => !(c.chans[n].lv.enable && c.chans[n].st.head == h) || decide (phiMin s n c.chans[n].st ≤ floor_)

/-! ## The head colour, array, raster and pixel timing records -/

/-- R135: every value is in range. -/
def writeHeadColour (r : BitVec 256) (s : State) : Ref × State :=
  (none, addSh [.headColour (headOf r) (colourOf r)] s)

/-- R156, R165, R166, R175, R256. The Nat is the result word of the head's sequence, which the completion reports (log entry 84). -/
def writeArray (r : BitVec 256) (s : State) : Ref × Nat × State :=
  let h := headOf r
  let v := arrOf r
  let o := s.cfg.heads[h].arr
  let s' := addSh [.arrDither h v.dither]
    (onCfg (setHead h (fun x => { x with arr := { v with dither := x.arr.dither } })) s)
  let x := (prospect s').heads[h]
  let seq := seqRefs s' h
  (firstRef [ranges [(8, decide (50 ≤ v.tSettle ∧ v.tSettle ≤ 5000)),
      (24, decide (10 ≤ v.tReset ∧ v.tReset ≤ 5000 ∧ v.tSettle + v.tReset ≤ 10000)),
      (40, decide (v.tSettle + v.tReset + 50 ≤ v.tMinPlane ∧ v.tMinPlane ≤ 24000)),
      (56, decide (2 ≤ v.rxPlanes ∧ v.rxPlanes ≤ 64)), (64, decide (64 ≤ v.levelFloor ∧ v.levelFloor ≤ 4096)),
      (80, decide (v.dither ≠ 3))],
    need (floorHolds s (liveLv s) h v.levelFloor) stLevelFloor, scheduleWord s' h seq.2,
    need (x.raster || (x.seq.map fun t => (dutyRatio x.arr (prospect s').tick.tmin t).isSome).getD true) stShowFit seq.2,
    (durationRef s').map fun y => (y.1, seq.2),
    if x.raster then none else seq.1.bind fun y => if y.1 == stDuty || y.1 == stDepth then some y else none,
    stFields (headRuns s h) [(8, v.tSettle != o.tSettle), (24, v.tReset != o.tReset), (40, v.tMinPlane != o.tMinPlane),
      (56, v.rxPlanes != o.rxPlanes), (64, v.levelFloor != o.levelFloor)]], seq.2, s')

/-- R228, R231, R256. -/
def writeRaster (scannerRuns : Bool) (r : BitVec 256) (s : State) : Ref × State :=
  let h := headOf r
  let v := rasOf r
  let o := s.cfg.heads[h].ras
  let outH := s.cfg.heads[h].outH
  let s' := addSh [.rasDither h v.dither, .rasTrim h v.trimF v.trimR]
    (onCfg (setHead h (fun x => { x with ras := { v with dither := x.ras.dither, trimF := x.ras.trimF
                                                         trimR := x.ras.trimR } })) s)
  (firstRef [ranges [(8, v.fNom == 0 || decide (18000 ≤ v.fNom ∧ v.fNom ≤ 40000)),
      (24, decide (1 ≤ v.track ∧ v.track ≤ 5) && (v.fNom == 0 ||
        decide (17000 * 100 ≤ v.fNom * (100 - v.track) ∧ v.fNom * (100 + v.track) ≤ 42000 * 100))),
      (32, v.ampSet == 0 || decide (2048 ≤ v.ampSet ∧ v.ampSet ≤ 32000)),
      (48, decide (v.ampSet ≤ 2 * v.ampMin ∧ 100 * v.ampMin ≤ 95 * v.ampSet)),
      (80, decide (outH ≤ (v.slowBot - v.slowTop).natAbs)),
      (96, decide (40 ≤ v.tRetrace ∧ v.tRetrace ≤ 500)), (112, decide (64 ≤ v.slowTol ∧ v.slowTol ≤ 8192)),
      (128, decide (-4096 ≤ v.trimF ∧ v.trimF ≤ 4095)), (144, decide (-4096 ≤ v.trimR ∧ v.trimR ≤ 4095)),
      (160, decide (64 ≤ v.levelFloor ∧ v.levelFloor ≤ 838)), (176, decide (v.dither ≠ 3))],
    need (floorHolds s (liveLv s) h v.levelFloor) stLevelFloor,
    need ((judged s').all fun c => !rasterOn c h || rasterFits c.heads[h] c.span) stShowFit,
    stFields scannerRuns [(8, v.fNom != o.fNom), (24, v.track != o.track), (32, v.ampSet != o.ampSet),
      (48, v.ampMin != o.ampMin), (64, v.slowTop != o.slowTop), (80, v.slowBot != o.slowBot),
      (96, v.tRetrace != o.tRetrace), (112, v.slowTol != o.slowTol), (160, v.levelFloor != o.levelFloor)]], s')

/-- The entries increase strictly. -/
def strictUp : List Nat → Bool
  | a :: b :: r => decide (a < b) && strictUp (b :: r)
  | _ => true

/-- R234 and R260. -/
def rtableOk (x : HeadCfg) (bs : List Byte) : Bool :=
  let n := at8 bs 6 2
  let ts := wordsOf 2 n (bs.drop 16)
  let span := ts.getD x.outW 0 - ts.getD 0 0
  at8 bs 0 4 == 0x54505247 && at8 bs 4 1 == 1 && at8 bs 5 1 == 0 && at8 bs 8 8 == 0 && n == x.outW + 1 && strictUp ts &&
    (x.ras.fNom == 0 ||
      decide ((5 : Rat) / 2 ≤ (span : Rat) / 65536 * 1000000 * 100 / (2 * (x.ras.fNom : Rat) * ((100 + x.ras.track : Nat) : Rat))))

/-- R233, R386: the staged length is 18 + 2 × OUT_W; STAGE_OFFSET and DATA_CRC read back as last written. -/
def writePixelTiming (r : BitVec 256) (s : State) : Ref × State :=
  let h := headOf r
  let off := fld r 32 32
  let crc := fld r 64 32
  let ld := loadOf s off (18 + 2 * (prospect s).heads[h].outW) crc
  let s' := addLoad (.rtable h ld) (onCfg (setHead h fun x => { x with rtOff := off, rtCrc := crc }) s)
  (andThen (stageRef off ld.bytes.length) fun _ =>
    firstRef [need (loadOk ld) stCrc, need (rtableOk (prospect s').heads[h] ld.bytes) stRtableFormat], s')

end Sys2Proof.Machine
end

