-- ==== Sys2Proof/Machine/Light.lean ====
section
/-! DEFINITION. Light: the colour table, the current command and REF (R253), the level and the open time of each colour of a
frame, and the LIGHT estimates, floors and quotas of 10. Currents in mA, powers in mW, times in µs. -/

namespace Sys2Proof.Machine

/-! ## The colour table (R266, R267) -/

/-- The multipliers a, e and v at one temperature. -/
structure Mult where
  a : Rat
  e : Rat
  v : Rat

/-- One point of a colour. -/
def multPoint (ps : List (Nat × Nat × Nat)) (c : Colour) (i : Nat) : Mult :=
  let p := ps.getD (17 * c.val + i) (0x4000, 0x4000, 0x4000)
  { a := (p.1 : Rat) / 16384, e := (p.2.1 : Rat) / 16384, v := (p.2.2 : Rat) / 16384 }

/-- Linear interpolation between points 10 °C apart from −35 °C, held at the end points. -/
def multAt (t : CTable) (c : Colour) (temp : Rat) : Mult :=
  match t with
  | .unity => { a := 1, e := 1, v := 1 }
  | .table ps =>
    let x := (temp + 35) / 10
    if x ≤ 0 then multPoint ps c 0
    else if 16 ≤ x then multPoint ps c 16
    else
      let i := x.floor.toNat
      let f := x - (i : Rat)
      let p := multPoint ps c i
      let q := multPoint ps c (i + 1)
      { a := p.a + (q.a - p.a) * f, e := p.e + (q.e - p.e) * f, v := p.v + (q.v - p.v) * f }

/-- The sensor of TS input n (R303). -/
def tsSensor (n : Nat) : Fin 36 := Fin.ofNat 36 (16 + n % 16)

/-- The reading of a TS input, or its substitute while it is failed (R266). -/
def tsValue (s : State) (n : Nat) : Rat :=
  let x := s.therm.sensors[tsSensor n]
  if x.failed then x.sub.getD x.last else x.last

/-- T_n of R266. -/
def chanTemp (s : State) (c : Cfg) (n : Chan) : Rat := if c.chans[n].st.tsEn then tsValue s c.chans[n].st.tsSel else 25

/-! ## The current command (R253) -/

/-- I_TH, 0 for an LED channel. -/
def iTh (c : Cfg) (n : Chan) : Nat := if c.chans[n].st.led then 0 else c.chans[n].st.iTh

/-- A channel of a head and colour. -/
def ofColour (c : Cfg) (h : Head) (k : Colour) (n : Chan) : Bool := c.chans[n].st.head == h && c.chans[n].st.colour == k

/-- T_c: the mean effective temperature of the head's enabled channels of a colour. -/
def colourTemp (s : State) (c : Cfg) (h : Head) (k : Colour) : Rat :=
  let ns := (allFin 64).filter fun n => c.chans[n].lv.enable && ofColour c h k n
  if ns.isEmpty then 25 else ns.foldl (fun a n => a + s.chans[n].tEff) 0 / (ns.length : Rat)

/-- I_thm. -/
def iThm (s : State) (c : Cfg) (n : Chan) : Rat :=
  if c.chans[n].st.led then 0
  else (multAt c.heads[c.chans[n].st.head].ctable c.chans[n].st.colour s.chans[n].tEff).a * (c.chans[n].st.iTh : Rat) +
    s.chans[n].theta

/-- (I_MAX − I_TH) × TGT × κ ÷ (e(T_n) × v(T_c)): what a level of 1 adds above the threshold. -/
def levelSpan (s : State) (c : Cfg) (n : Chan) : Rat :=
  let st := c.chans[n].st
  let h := c.heads[st.head]
  let m := multAt h.ctable st.colour s.chans[n].tEff
  let v := (multAt h.ctable st.colour (colourTemp s c st.head st.colour)).v
  ((h.tgt[st.colour] : Nat) : Rat) / 32768 * s.loops[st.head][st.colour].kappa * ((st.iMax : Rat) - (iTh c n : Rat)) / (m.e * v)

/-- I_cmd at a level λ. -/
def iCmd (s : State) (c : Cfg) (n : Chan) (lam : Rat) : Rat := iThm s c n + lam * levelSpan s c n

/-- The largest REF of a channel: ⌊I_MAX × 65536 ÷ I_FS⌋. -/
def refMax (c : ChanSt) : Nat := if c.rshunt = 0 then 0 else ((c.iMax : Rat) * 65536 / iFs c).floor.toNat

/-- REF of R253; a channel without RSHUNT has none. -/
def refOf (s : State) (c : Cfg) (n : Chan) (lam : Rat) : Nat :=
  let st := c.chans[n].st
  if st.rshunt = 0 then 0 else min (iCmd s c n lam * 65536 / iFs st).floor.toNat (refMax st)

/-- The I_MAX clamp of R253 engages. -/
def clamped (s : State) (c : Cfg) (n : Chan) (lam : Rat) : Bool :=
  let st := c.chans[n].st
  decide (st.rshunt ≠ 0) && decide (refMax st < (iCmd s c n lam * 65536 / iFs st).floor.toNat)

/-- The current that the REF clamp allows. -/
def iHeld (s : State) (c : Cfg) (n : Chan) (lam : Rat) : Rat := min (iCmd s c n lam) (c.chans[n].st.iMax : Rat)

/-- The current that a REF stands for. -/
def iOfRef (c : ChanSt) (ref : Nat) : Rat := (ref : Rat) * iFs c / 65536

/-! ## What a frame asks of the light (R171, R186, R235, R245) -/

/-- One colour of one frame: its level, the open time of its gates in the tick, and whether the head shows host content or the safety
window, so that channels that are due take a diagnostic pulse (R259). -/
structure LightRow where
  lam    : Rat
  openUs : Rat
  shown  : Bool

/-- Edge i of the pixel timing table (R233, R234). -/
def rtEdge (h : HeadCfg) (i : Nat) : Nat :=
  match h.rtable with
  | .uniform => if h.outW = 0 then 0 else i * 65535 / h.outW
  | .table es => es.getD i 0

/-- The share of a line in which the gates conduct (R237). -/
def lineShare (h : HeadCfg) : Rat := ((rtEdge h h.outW : Rat) - (rtEdge h 0 : Rat)) / 65536

/-- HP in µs: the tracked half-period, or the nominal one before lock. -/
def hpUs (s : State) (c : Cfg) (h : Head) : Rat :=
  let r := s.rasters[h]
  if r.scan == 2 && decide (0 < r.fNow) then 500000000 / (r.fNow : Rat)
  else if c.heads[h].ras.fNom = 0 then 0 else 500000 / (c.heads[h].ras.fNom : Rat)

/-- LEVEL_FLOOR of a head: its array record's or its raster record's. -/
def levelFloor (h : HeadCfg) : Nat := if h.raster then h.ras.levelFloor else h.arr.levelFloor

/-- The light of an array frame pressed under a sequence, at a dimming point. -/
def arrayRow (a : ArrayCfg) (t : PlaneSeq) (g : Nat) (k : Colour) : LightRow :=
  let sc := scaleOf g a.levelFloor
  let f := firedAt t k sc.1 sc.2
  { lam := lambdaOf t k g a.levelFloor, openUs := (f.w : Rat) / 4000, shown := true }

/-- The light of a raster frame at a dimming point and the scale S it was pressed under. -/
def rasterRow (s : State) (c : Cfg) (h : Head) (g scale : Nat) : LightRow :=
  let x := c.heads[h]
  { lam := rasterLambda g scale, openUs := (x.outH : Rat) * (lineShare x * hpUs s c h), shown := true }

/-- The light of a frame of a head, none for an array head without a sequence. -/
def hostRow (s : State) (c : Cfg) (h : Head) (t : Option PlaneSeq) (g scale : Nat) (k : Colour) : LightRow :=
  if c.heads[h].raster then rasterRow s c h g scale
  else match t with
    | some t => arrayRow c.heads[h].arr t g k
    | none => { lam := 0, openUs := 0, shown := false }

/-- The light of the safe sequence (R186, R245, R325). -/
def safeRow (s : State) (c : Cfg) (h : Head) (k : Colour) : LightRow :=
  let lam : Rat := ((c.wins[h].level[k] : Nat) : Rat) / 65536
  let x := c.heads[h]
  if x.raster then { lam := lam, openUs := (safeLines x.ras : Rat) * (lineShare x * hpUs s c h), shown := true }
  else { lam := lam, openUs := 225, shown := true }

/-! ## Estimates (R289 to R291) -/

/-- V of R289 in volts. -/
def chanVolts (s : State) (c : Cfg) (n : Chan) : Rat :=
  (if s.chans[n].vKnown then (s.chans[n].vS : Rat) else (c.chans[n].lv.vOpen : Rat)) / 100

/-- A channel that carries light: running, and enabled in a configuration. -/
def litChan (s : State) (c : Cfg) (n : Chan) : Bool := s.chans[n].state == 2 && c.chans[n].lv.enable

/-- A channel that has started and waits for its grant (R274). -/
def startingChan (s : State) (c : Cfg) (n : Chan) : Bool := s.chans[n].state == 1 && c.chans[n].lv.enable

/-- The channel would be due for a diagnostic pulse in the next tick (R259). -/
def dueNext (s : State) (n : Chan) : Bool := decide (3 ≤ s.chans[n].since)

/-- P_n × effective Tmin of one channel: I_cmd × voltage × open time, with the diagnostic pulse of a channel that is due. -/
def chanEnergy (s : State) (c : Cfg) (n : Chan) (r : LightRow) : Rat :=
  let diag : Rat := if r.shown && !c.heads[c.chans[n].st.head].raster && dueNext s n then 2 else 0
  iCmd s c n r.lam * chanVolts s c n * (r.openUs + diag)

/-- The LIGHT estimate of a head whose channels `p` carry light under the rows. -/
def headEst (s : State) (c : Cfg) (h : Head) (rows : Colour → LightRow) (p : Chan → Bool) (tmin : Nat) : Rat :=
  ((allFin 64).foldl (fun a n => if p n && c.chans[n].st.head == h then a + chanEnergy s c n (rows c.chans[n].st.colour) else a)
    0) / (tmin : Rat)

/-- P_rated (R290). -/
def rated (s : State) (c : Cfg) (tmin : Nat) : Rat :=
  ((allFin 64).foldl (fun a n =>
    if c.chans[n].lv.enable && s.boot.enabled then
      let h := c.chans[n].st.head
      let r := hostRow s c h c.heads[h].seq 0x80000000 0x80000000 c.chans[n].st.colour
      a + (c.chans[n].st.iMax : Rat) * chanVolts s c n * r.openUs
    else a) 0) / (tmin : Rat)

/-- FLOOR_L (R291): the safe sequence on the heads that show the window, and one diagnostic pulse of every enabled channel of an array
head. -/
def floorL (s : State) (c : Cfg) (tmin : Nat) : Rat :=
  ((allFin 64).foldl (fun a n =>
    let h := c.chans[n].st.head
    if c.chans[n].lv.enable && s.boot.enabled then
      let r := safeRow s c h c.chans[n].st.colour
      let diag : Rat := if c.heads[h].raster then 0 else 2
      a + iCmd s c n r.lam * chanVolts s c n * ((if c.wins[h].shown then r.openUs else 0) + diag)
    else a) 0) / (tmin : Rat)

/-- The mean power of `entries` global mirror resets of a head (R287): 0.1 µJ per unit of RESET_E. -/
def resetPower (c : Cfg) (h : Head) (entries tmin : Nat) : Rat := (entries * c.quota.resetE[h] * 100 : Nat) / (tmin : Rat)

/-- FLOOR_D (R291). -/
def floorD (s : State) (c : Cfg) (tmin : Nat) : Rat :=
  allHeads.foldl (fun a h => if s.boot.enabled && c.wins[h].shown && !c.heads[h].raster then a + resetPower c h 12 tmin else a)
    1400

/-! ## Quotas (R292, R293) -/

/-- The throttle level with any step that is due (R293, R308). -/
def levelNext (s : State) : Nat :=
  match s.therm.stepDue with
  | some (true, _) => min 8 (s.therm.level + 1)
  | some (false, _) => s.therm.level - 1
  | none => s.therm.level

/-- The state that the snapshot of R293 sees: the next live state with every completed POWER_QUOTA. -/
def snapshot (s : State) : Cfg := { nextLive s with quota := (prospect s).quota }

/-- The effective quotas and the floors, in mW. -/
structure Quotas where
  qL : Rat
  qD : Rat
  fL : Rat
  fD : Rat

def quotasOf (s : State) (c : Cfg) (tmin : Nat) : Quotas :=
  let fl := floorL s c tmin
  let fd := floorD s c tmin
  let lim := rated s c tmin * (1 - 8 / 100 * (levelNext s : Rat))
  { qL := max fl (if c.quota.light = 0xFFFFFF then lim else min (c.quota.light : Rat) lim)
    qD := max fd (c.quota.device : Rat), fL := fl, fD := fd }

/-- mW as reported, in 24 bits (log entry 20). -/
def mw (q : Rat) : Nat := sat 24 q.floor.toNat

end Sys2Proof.Machine
end

