-- ==== Sys2Proof/Machine/LightCmds.lean ====
section
/-! DEFINITION. The commands of 09 and 10 and the link, OS and line records: checks and effects. -/

namespace Sys2Proof.Machine

/-! ## LIGHT_CHANNEL_SET (R248, R256, R346) -/

/-- A channel runs for its st fields (R248): its enable is in effect (R420). -/
def chanRuns (s : State) (n : Chan) : Bool := s.boot.enabled && s.cfg.chans[n].lv.enable

/-- The head and the colour that CH_MAP gives a channel, where its entry is programmed (R428). -/
def chanMap (s : State) (n : Chan) : Option (Nat × Nat) :=
  match s.otp.integrator with
  | some b =>
    let m := b.chMap[n]
    if m = 0xFF then none else some (fld m 0 2, fld m 2 2)
  | none => none

/-- The index of a head and colour in the limits of R428. -/
def limitIdx (h : Head) (c : Colour) : Fin 12 := Fin.ofNat 12 (3 * h.val + c.val)

/-- The limits of a head and colour are programmed (R346). -/
def limitsSet (s : State) (h : Head) (c : Colour) : Bool :=
  match s.otp.integrator with
  | some b => b.e1[limitIdx h c].isSome && b.e100[limitIdx h c].isSome
  | none => false

/-- R346 for a channel that a command enables: the field that breaks it, HEAD where no field is named (log entry 21). -/
def mapRanges (s : State) (n : Chan) (v : ChanSt) : List (Nat × Bool) :=
  match chanMap s n with
  | none => [(12, false)]
  | some m => [(12, m.1 == v.head.val && limitsSet s v.head v.colour), (14, m.2 == v.colour.val)]

/-- The ranges of LIGHT_CHANNEL_SET, lowest field first. -/
def chanRanges (p : BitVec 384) (s : State) : Ref :=
  let n : Chan := Fin.ofNat 64 (fld p 0 6)
  let v := chanStOf p
  let l := chanLvOf p
  let map := if l.enable && decide (fld p 14 2 ≠ 3) then mapRanges s n v else []
  ranges ((map.filter fun f => f.1 == 12) ++ [(14, decide (fld p 14 2 ≠ 3))] ++ (map.filter fun f => f.1 == 14) ++
    [(32, decide (2000 ≤ v.fSw ∧ v.fSw ≤ 8000)),
    (48, (v.iMax == 0 || decide (100 ≤ v.iMax ∧ v.iMax ≤ 20000)) &&
      (v.rshunt == 0 || decide (100 * (v.iMax : Rat) ≤ 95 * iFs v))),
    (64, v.rshunt == 0 || decide (2000 ≤ v.rshunt)),
    (80, decide (2 * v.iTh ≤ v.iMax) && (!v.led || v.iTh == 0)),
    (96, decide (100 ≤ v.lNh ∧ v.lNh ≤ 10000)), (112, decide (2 ≤ v.dt ∧ v.dt ≤ 40)),
    (144, l.vOpen == 0 || decide (l.vShort < l.vOpen)),
    (160, v.lvsDiv == 0 || decide (16 ≤ v.lvsDiv ∧ v.lvsDiv ≤ 1600)),
    (176, decide (105 ≤ v.ocLevel ∧ v.ocLevel ≤ 150)), (184, decide (1 ≤ l.tolTh ∧ l.tolTh ≤ 200)),
    (192, decide (1 ≤ l.tolEff ∧ l.tolEff ≤ 100))])

/-- Channels enabled for a head and colour in a configuration. -/
def chanCount (c : Cfg) (h : Head) (k : Colour) : Nat :=
  ((allFin 64).filter fun n => c.chans[n].lv.enable && ofColour c h k n).length

/-- The state that LIGHT_CHANNEL_SET leaves. -/
def chanSetNext (p : BitVec 384) (s : State) : State :=
  let n : Chan := Fin.ofNat 64 (fld p 0 6)
  addLv ([CfgWrite.chan n (chanLvOf p)] ++ if bit p 9 then [.faultClear n] else [])
    (onCfg (fun c => { c with chans := upd c.chans n (fun x => { x with st := chanStOf p }) }) s)

/-- The checks of LIGHT_CHANNEL_SET, in the order of its block. -/
def chanSetRef (p : BitVec 384) (s : State) : Ref :=
  let n : Chan := Fin.ofNat 64 (fld p 0 6)
  let v := chanStOf p
  let l := chanLvOf p
  let o := s.cfg.chans[n].st
  let s' := chanSetNext p s
  let c := prospect s'
  let moved := v.iMax != o.iMax || v.iTh != o.iTh || v.rshunt != o.rshunt || v.head != o.head
  firstRef [chanRanges p s,
    need (!l.enable || decide (chanCount c v.head v.colour ≤ 16)) stChannelLimit,
    need (!l.enable || (v.iMax != 0 && v.rshunt != 0 && l.vOpen != 0 && v.lvsDiv != 0)) stLightUnset,
    need (!(l.enable || moved) || decide (phiMin s n v ≤ levelFloor c.heads[v.head])) stLevelFloor,
    stFields (chanRuns s n) [(10, v.led != o.led), (12, v.head != o.head), (14, v.colour != o.colour),
      (16, v.tsSel != o.tsSel), (20, v.tsEn != o.tsEn), (21, v.supply != o.supply), (32, v.fSw != o.fSw),
      (48, v.iMax != o.iMax), (64, v.rshunt != o.rshunt), (80, v.iTh != o.iTh), (96, v.lNh != o.lNh), (112, v.dt != o.dt),
      (120, v.phase != o.phase), (160, v.lvsDiv != o.lvsDiv), (176, v.ocLevel != o.ocLevel)]]

def runLightChannelSet (d : Desc) (s : State) : Ans :=
  refuseOr (chanSetRef d.payload s) (.done stOk 0 (chanSetNext d.payload s)) s

/-! ## COLOUR_TARGET_SET (R267, R268, R275) -/

/-- R268 over the 322 staged bytes. -/
def ctableOk (bs : List Byte) : Bool :=
  at8 bs 0 4 == 0x54544347 && at8 bs 4 1 == 1 && at8 bs 5 11 == 0 &&
    (List.range 51).all (fun i => at8 bs (18 + 6 * i) 2 != 0 && at8 bs (20 + 6 * i) 2 != 0) &&
    (List.range 3).all fun c => (List.range 3).all fun f => at8 bs (16 + 102 * c + 36 + 2 * f) 2 == 0x4000

/-- The staged table of a COLOUR_TARGET_SET. -/
def ctableLoadOf (p : BitVec 384) (s : State) : Load := loadOf s (fld p 96 32) 322 (fld p 128 32)

/-- The state that COLOUR_TARGET_SET leaves: the target, the loops and, with TABLE, the table in the open set. -/
def colourTargetNext (p : BitVec 384) (s : State) : State :=
  let s1 := addSh [.tgt (headOf p) (tgtOf p), .loop (headOf p) (loopOf p)] s
  if bit p 2 then addLoad (.ctable (headOf p) (ctableLoadOf p s)) s1 else s1

/-- The checks of COLOUR_TARGET_SET. -/
def colourTargetRef (p : BitVec 384) (s : State) : Ref :=
  let t := tgtOf p
  let l := loopOf p
  let off := fld p 96 32
  let ld := ctableLoadOf p s
  let ok (v : Nat) : Bool := decide (0x800 ≤ v ∧ v ≤ 0x8000)
  andThen (firstRef [ranges [(16, ok t[0]), (32, ok t[1]), (48, ok t[2]), (64, decide (1 ≤ l.gain)),
      (72, decide (1 ≤ l.ticks ∧ l.ticks ≤ 64))], if bit p 2 then stageRef off 322 else none]) fun _ =>
    if bit p 2 then firstRef [need (loadOk ld) stCrc, need (ctableOk ld.bytes) stCtableFormat] else none

def runColourTargetSet (d : Desc) (s : State) : Ans :=
  refuseOr (colourTargetRef d.payload s) (.done stOk 0 (colourTargetNext d.payload s)) s

/-! ## LAMP_SET, LAMP_FADE (R282) -/

/-- The first staged entry whose reserved bytes 7:6 are not 0. -/
def lampReserved : Nat → List Nat → Ref
  | _, [] => none
  | i, w :: r =>
    if w / 2 ^ 48 = 0 then lampReserved (i + 1) r
    else some (stReservedSet, 2 * 2 ^ 16 + (64 * i + 48 + (lowestBit (w / 2 ^ 48) 16).getD 0) * 2 ^ 32)

/-- COUNT is 1 to 128 and FIRST + COUNT at most NODES. -/
def lampCountOk (p : BitVec 384) (s : State) : Bool :=
  let n := fld p 16 8
  decide (1 ≤ n ∧ n ≤ 128) && decide (fld p 8 7 + n ≤ s.cfg.lines[headOf p].st.nodes)

/-- The targets of a LAMP_SET: one value for all nodes, or the staged entries. -/
def lampVals (p : BitVec 384) (s : State) : List (Vector Nat 3) :=
  let n := fld p 16 8
  if bit p 15 then List.replicate n #v[fld p 96 16, fld p 112 16, fld p 128 16]
  else (wordsOf 8 n (staged s (loadOff p) (8 * n))).map fun w => #v[w % 65536, w / 65536 % 65536, w / 2 ^ 32 % 65536]

/-- The checks of LAMP_SET. -/
def lampSetRef (p : BitVec 384) (s : State) : Ref :=
  let n := fld p 16 8
  let off := loadOff p
  let bs := staged s off (8 * n)
  let uniform := bit p 15
  andThen (firstRef [ranges [(16, lampCountOk p s)], if uniform then none else stageRef off (8 * n)]) fun _ =>
    if uniform then none else firstRef [need (crc32c bs == loadCrc p) stCrc, lampReserved 0 (wordsOf 8 n bs)]

def runLampSet (d : Desc) (s : State) : Ans :=
  let p := d.payload
  refuseOr (lampSetRef p s) (.done stOk 0 (addLv [.lampTargets (headOf p) (fld p 8 7) (lampVals p s)] s)) s

def runLampFade (d : Desc) (s : State) : Ans :=
  let p := d.payload
  refuseOr (ranges [(16, lampCountOk p s), (24, decide (fld p 24 2 ≤ 1))])
    (.done stOk 0 (addLv [.lampFade (headOf p) (fld p 8 7) (fld p 16 8) (bit p 24) (fld p 32 16)] s)) s

/-! ## POWER_QUOTA, THERMAL_SET (10) -/

/-- The state with a throttle step that is due taken. -/
def stepTaken (s : State) : State := onTherm (fun t => { t with level := levelNext s }) s

/-- POWER_QUOTA: lv; the answer holds Q_L and Q_D as the next END would form them; a write at or above a floor ends
QUOTA_BELOW_FLOOR's pause (R302). -/
def quotaAfter (p : BitVec 384) (s : State) : Quotas :=
  let s' := addLv [.quota (quotaOf p)] s
  quotasOf s' (snapshot s') (tminOf (stepTaken s') (snapshot s'))

/-- The state that POWER_QUOTA leaves. -/
def quotaNext (p : BitVec 384) (s : State) : State :=
  let q := quotaOf p
  let z := quotaAfter p s
  onSluice (fun x => { x with
    wroteQuota := true
    belowL := x.belowL && decide ((q.light : Rat) < z.fL)
    belowD := x.belowD && decide ((q.device : Rat) < z.fD) }) (addLv [.quota q] s)

def runPowerQuota (d : Desc) (s : State) : Ans :=
  let z := quotaAfter d.payload s
  .done stOk (pack [(0, 24, mw z.qL), (32, 24, mw z.qD)]) (quotaNext d.payload s)

/-- The rules of a sensor group, with the place of its first field: the lowest field that breaks one. -/
def groupRanges (g : ThermGroup) (lo : Nat) (die : Bool) : List (Nat × Bool) :=
  [(lo, decide (g.arm < g.rel)), (lo + 16, decide (g.warn ≤ g.act)),
    (lo + 32, decide (g.rel < g.act) && (!die || decide (g.act ≤ 1000)))]

/-- The checks of THERMAL_SET: the rules of each group, and pairs that name each other. -/
def thermalSetRef (t : ThermCfg) : Ref :=
  ranges (groupRanges t.die 0 true ++ groupRanges t.le 112 false ++
    [(256, (allFin 16).all fun n => t.tsPair[t.tsPair[n]] == n)])

def runThermalSet (d : Desc) (s : State) : Ans :=
  let t := thermOf d.payload
  refuseOr (thermalSetRef t) (.done stOk 0 (addLv [.therm t] s)) s

/-! ## The link, OS and line records -/

/-- R220: the group runs from its first training after reset. -/
def writeLink (r : BitVec 256) (s : State) : Ref × State :=
  let g := headOf r
  let v := linkOf r
  let o := s.cfg.links[g]
  let s' := addLv [.errLimit g v.errLimit]
    (onCfg (fun c => { c with links := upd c.links g (fun l => { v with errLimit := l.errLimit }) }) s)
  (firstRef [ranges [(17, decide (v.rateMax ≠ 3)), (32, decide (v.errLimit ≠ 0))],
    stFields (decide (0 < s.links[g].trains)) [(8, v.txPol != o.txPol), (16, v.rxPol != o.rxPol),
      (17, v.rateMax != o.rateMax)]], s')

/-- Two sets of colours, one bit each, share a colour. -/
def coloursMeet (a b : Nat) : Bool := (List.range 3).any fun i => a / 2 ^ i % 2 == 1 && b / 2 ^ i % 2 == 1

/-- R265: one colour on a raster head, no colour of a head on two inputs; R331: a proof input stays disabled. -/
def osAssignOk (s : State) (i : Fin 8) (v : OsCfg) : Bool :=
  (!(prospect s).heads[v.head].raster || [1, 2, 4].contains v.colours) &&
    (allFin 8).all (fun j => j == i || s.cfg.os[j].head != v.head || !coloursMeet s.cfg.os[j].colours v.colours) &&
    !(v.enable && allHeads.any fun h => s.cfg.wins[h].proofOs == i.val)

def writeOs (r : BitVec 256) (s : State) : Ref × State :=
  let i : Fin 8 := Fin.ofNat 8 (fld r 0 3)
  let v := osOf r
  let o := s.cfg.os[i]
  let s' := addLv [.os i v.enable v.gainMode v.darkLimit]
    (onCfg (fun c => { c with os := upd c.os i (fun x => { x with head := v.head, colours := v.colours }) }) s)
  (firstRef [ranges [(16, decide (v.gainMode ≤ 4))], need (osAssignOk s i v) stOsAssign,
    stFields o.enable [(9, v.head != o.head), (11, v.colours != o.colours)]], s')

/-- R280: a frame of the line fits a tick of the effective Tmin. -/
def lampFits (nodes latchUs tmin : Nat) : Bool := decide (20 + nodes * 48 + latchUs + 20 ≤ tmin)

def writeLine (r : BitVec 256) (s : State) : Ref × State :=
  let i := headOf r
  let v := lineLvOf r
  let t := lineStOf r
  let o := s.cfg.lines[i].st
  let s' := addLv [.line i v] (onCfg (fun c => { c with lines := upd c.lines i (fun x => { x with st := t }) }) s)
  (firstRef [ranges [(8, !(v.enable && t.nodes == 0)), (9, decide (t.order ≤ 5)), (24, decide (t.nodes ≤ 128)),
      (32, decide (60 ≤ t.latchUs))],
    need (lampFits t.nodes t.latchUs (tminOf s' (prospect s'))) stLampFit,
    stFields s.cfg.lines[i].lv.enable [(9, t.order != o.order), (12, t.tsEn != o.tsEn), (16, t.tsSel != o.tsSel),
      (24, t.nodes != o.nodes), (32, t.latchUs != o.latchUs)]], s')

end Sys2Proof.Machine
end

