-- ==== Sys2Proof/Machine/Telltale.lean ====
section
/-! DEFINITION. The safety window's content (R321 to R324): tell-tale states, the lit set of a tick, glyph pixels and counts. -/

namespace Sys2Proof.Machine

/-- Tell-tale i of the asset in force. -/
def telltale? (s : State) (i : Nat) : Option Telltale :=
  match s.safety.asset with
  | some a => a.telltales[i]?
  | none => none

/-- Bit i of a 64-bit set. -/
def has (b : BitVec 64) (i : Nat) : Bool := b.getLsbD i

/-- The state of tell-tale i: 0 off, 1 on, 2 blink. Hold keeps the last commanded state (R321, R335). -/
def ttState (s : State) (i : Nat) (t : Telltale) : Nat :=
  let of (on blink : BitVec 64) : Nat := if has on i then (if has blink i then 2 else 1) else 0
  if s.safety.ttTimeout then (if t.timeoutState = 3 then of s.safety.hold s.safety.holdBlink else t.timeoutState)
  else of s.cfg.ttOn s.cfg.ttBlink

/-- R323 in tick f. -/
def ttLit (s : State) (f i : Nat) : Bool :=
  match telltale? s i with
  | some t =>
    match ttState s i t with
    | 1 => true
    | 2 => if t.blinkTicks = 0 then Config.zeroBlink f i else f / t.blinkTicks % 2 == 0
    | _ => false
  | none => false

/-- TT_LIT of tick f. -/
def litSet (s : State) (f : Nat) : BitVec 64 := BitVec.ofNat 64 (pack ((List.range 64).map fun i => (i, 1, (ttLit s f i).toNat)))

/-- The rectangle of a tell-tale contains a window pixel. -/
def ttHolds (t : Telltale) (x y : Nat) : Bool :=
  decide (t.x ≤ x) && decide (x < t.x + t.w) && decide (t.y ≤ y) && decide (y < t.y + t.h)

/-- The lit tell-tales of a set. -/
def litTelltales (a : Asset) (lit : BitVec 64) : List Telltale :=
  ((List.range 64).zip a.telltales).filterMap fun p => if has lit p.1 then some p.2 else none

/-! ## The glyph atlas (R321) -/

/-- The byte of atlas plane (c, k) that holds a window pixel's bit; the bit is bit x mod 8. -/
def atlasByte (c k x y : Nat) : Nat := (4 * c + k) * 65536 + (y * 1024 + x) / 8

/-- The 4-bit glyph value of a colour at a window pixel. -/
def atlasValue (a : Asset) (c x y : Nat) : Nat :=
  pack ((List.range 4).map fun k => (k, 1, (memGet a.atlas (atlasByte c k x y)).toNat / 2 ^ (x % 8)))

/-- The glyph value G of a window pixel in a colour (R323). -/
def glyphAt (s : State) (lit : BitVec 64) (c : Colour) (x y : Nat) : Nat :=
  match s.safety.asset with
  | some a => if (litTelltales a lit).any fun t => ttHolds t x y then atlasValue a c.val x y else 0
  | none => 0

/-- The window pixels whose bit is set in atlas plane (c, k). -/
def planePixels (a : Asset) (c k : Nat) : List (Nat × Nat) :=
  let lo := (4 * c + k) * 65536
  ((a.atlas.filter fun b => decide (lo ≤ b.1) && decide (b.1 < lo + 65536)).map fun b =>
    ((List.range 8).filter fun i => b.2.getLsbD i).map fun i => ((8 * (b.1 - lo) + i) % 1024, 8 * (b.1 - lo) / 1024)).flatten

/-- N[c][k] of a lit set (R323). -/
def glyphCountOf (a : Asset) (lit : BitVec 64) (c k : Nat) : Nat :=
  let ts := litTelltales a lit
  (planePixels a c k).countP fun p => ts.any fun t => ttHolds t p.1 p.2

/-! ## Layouts (R324, R328) -/

/-- The tell-tales whose rectangles cross a window line. -/
def crossing (a : Asset) (y : Nat) : List Nat :=
  ((a.telltales.zipIdx).filter fun p => decide (p.1.y ≤ y) && decide (y < p.1.y + p.1.h)).map (·.2)

/-- Tell-tales in ascending X. -/
def insertX (t : Telltale) : List Telltale → List Telltale
  | [] => [t]
  | u :: r => if t.x < u.x then t :: u :: r else u :: insertX t r

/-- The spans of a band: one per lit tell-tale of its set. -/
def spansOf (a : Asset) (lit : BitVec 64) (set : List Nat) : List Span :=
  ((set.filterMap fun i => if has lit i then a.telltales[i]? else none).foldl (fun l t => insertX t l) []).map fun t =>
    { x := t.x, w := t.w }

/-- The bands from a line on: the run of lines with one set, and those after it. -/
def bandsFrom (a : Asset) (lit : BitVec 64) : Nat → Nat → Nat → List Nat → List Band
  | 0, y0, n, set => if n = 0 then [] else [{ y := y0, lines := n, spans := spansOf a lit set }]
  | k + 1, y0, n, set =>
    let now := crossing a (y0 + n)
    if n = 0 then bandsFrom a lit k y0 1 now
    else if now == set then bandsFrom a lit k y0 (n + 1) set
    else { y := y0, lines := n, spans := spansOf a lit set } :: bandsFrom a lit k (y0 + n) 1 now

/-- The span table: the window's lines in bands. -/
def spanTable (a : Asset) (lit : BitVec 64) : List Band := bandsFrom a lit a.wh 0 0 []

/-- A span table as bytes: of each band its first line, its lines, its count of spans, then each span's X and width, two bytes each
(log entry 67). -/
def spanBytes (bs : List Band) : List Byte :=
  (bs.map fun b => toBytes 2 b.y ++ toBytes 2 b.lines ++ toBytes 2 b.spans.length ++
    (b.spans.map fun p => toBytes 2 p.x ++ toBytes 2 p.w).flatten).flatten

/-- A byte of window bit plane (c, k), masked by the spans of its line. -/
def maskedByte (a : Asset) (spans : List Span) (c k y j : Nat) : Byte :=
  BitVec.ofNat 8 (pack ((List.range 8).map fun i => (i, 1,
    if spans.any fun p => decide (p.x ≤ 8 * j + i) && decide (8 * j + i < p.x + p.w) then
      (memGet a.atlas (atlasByte c k (8 * j) y)).toNat / 2 ^ i else 0)))

/-- Window bit plane (c, k) as masked by the spans, row by row. -/
def maskedPlane (a : Asset) (bs : List Band) (c k : Nat) : List Byte :=
  (bs.map fun b => ((List.range b.lines).map fun r =>
    (List.range (a.ww / 8)).map fun j => maskedByte a b.spans c k (b.y + r) j).flatten).flatten

/-- The layout of a lit set. -/
def layoutOf (a : Asset) (lit : BitVec 64) : Layout :=
  let bs := spanTable a lit
  { lit := lit, bands := bs, spanCrc := BitVec.ofNat 32 (crc32c (spanBytes bs))
    crcs := Vector.ofFn fun i => BitVec.ofNat 32 (crc32c (maskedPlane a bs (i.val / 4) (i.val % 4)))
    counts := Vector.ofFn fun i => glyphCountOf a lit (i.val / 4) (i.val % 4) }

/-- The tell-tales lit in a blink phase: those that are on, and in the first phase those that blink. -/
def phaseLit (s : State) (first : Bool) : BitVec 64 :=
  BitVec.ofNat 64 (pack ((List.range 64).map fun i => (i, 1, match telltale? s i with
    | some t => (let st := ttState s i t; (st == 1 || (first && st == 2)).toNat)
    | none => 0)))

/-- The two layouts of R324 for the states in force. -/
def layoutsOf (s : State) : Vector Layout 2 :=
  match s.safety.asset with
  | some a => #v[layoutOf a (phaseLit s true), layoutOf a (phaseLit s false)]
  | none => Vector.replicate 2 Layout.none

/-- The safety pair prepares both layouts in staging. -/
def stageLayouts (s : State) : State := onSafety (fun y => { y with staged := layoutsOf s }) s

/-- A staged layout reads back as it was written: its span table agrees with its CRC (R328, step 1). -/
def layoutChecked (l : Layout) : Bool := BitVec.ofNat 32 (crc32c (spanBytes l.bands)) == l.spanCrc

/-- The staged layouts enter the safety canvas at a LATCH, once they have been checked (R33, R328). -/
def applyLayouts (s : State) : State :=
  if s.safety.staged.toList.all (fun l => l == Layout.none || layoutChecked l) then onSafety (fun y => { y with canvas := y.staged }) s
  else s

/-- The layout shown with the tick's lit set. Where tell-tales blink at different rates, a tick may light some of them only; the
two layouts of R324 do not say which layout serves it, and the model takes the layout of that lit set (log entry 68). -/
def layoutNow (s : State) : Layout :=
  if s.safety.canvas[0].lit == s.safety.lit then s.safety.canvas[0]
  else if s.safety.canvas[1].lit == s.safety.lit then s.safety.canvas[1]
  else match s.safety.asset with
    | some a => layoutOf a s.safety.lit
    | none => Layout.none

/-- N[c][k] of the tick (R323). -/
def glyphCount (s : State) (c : Colour) (k : Nat) : Nat := (layoutNow s).counts[4 * c.val + k]?.getD 0

/-- A colour has a lit pixel. -/
def colourLit (s : State) (c : Colour) : Bool := (List.range 4).any fun k => glyphCount s c k != 0

end Sys2Proof.Machine
end

