-- ==== Sys2Proof/Machine/SafetyCmds.lean ====
section
/-! DEFINITION. The commands of 11: SAFETY_WINDOW_SET, TELLTALE_SET and SAFE_STATE_REQUEST. -/

namespace Sys2Proof.Machine

/-- The TICK that the next boundary sets (R11, R12, R14). -/
def nextTick (s : State) : Nat :=
  match s.clk.alignTo with
  | some t => t
  | none => min (s.clk.tick + 1) (2 ^ 48 - 1)

/-- R331: the proof input serves one head, and its OS record is disabled in the prospective state. -/
def proofOsOk (s : State) (h : Head) (os : Nat) : Bool :=
  os == 15 || (allHeads.all (fun k => k == h || s.cfg.wins[k].proofOs != os) && !(prospect s).os[Fin.ofNat 8 os].enable)

/-- The safety pair prepares the layouts of the states that the next LATCH makes live (R324). -/
def prepareLayouts (wrote : Bool) (s : State) : State :=
  let next : State := { s with cfg := prospect s, safety := { s.safety with ttTimeout := s.safety.ttTimeout && !wrote } }
  onSafety (fun y => { y with staged := layoutsOf next }) s

/-- The state that SAFETY_WINDOW_SET leaves: SHOW and SAFE_LEVEL are lv, PROOF_OS, WX and WY st. -/
def safetyWindowNext (p : BitVec 384) (s : State) : State :=
  let h := headOf p
  prepareLayouts false (addLv [.win h (bit p 8) #v[fld p 48 16, fld p 64 16, fld p 80 16]]
    (onCfg (fun c => { c with wins := upd c.wins h (fun w => { w with
      proofOs := fld p 12 4, wx := fld p 16 16, wy := fld p 32 16 }) }) s))

/-- The checks of SAFETY_WINDOW_SET. -/
def safetyWindowRef (p : BitVec 384) (s : State) : Ref :=
  let h := headOf p
  let os := fld p 12 4
  let wx := fld p 16 16
  let wy := fld p 32 16
  let shown := bit p 8
  let level : Vector Nat 3 := #v[fld p 48 16, fld p 64 16, fld p 80 16]
  let o := s.cfg.wins[h]
  let x := (prospect s).heads[h]
  let fl := levelFloor x
  firstRef [ranges [(12, decide (os ≤ 7) || os == 15), (48, decide (fl ≤ level[0])), (64, decide (fl ≤ level[1])),
      (80, decide (fl ≤ level[2]))],
    need (!shown || windowFits s wx wy x.outW x.outH) stRectInvalid, need (proofOsOk s h os) stOsAssign,
    stFields (winShown s h) [(12, os != o.proofOs), (16, wx != o.wx), (32, wy != o.wy)]]

def runSafetyWindowSet (d : Desc) (s : State) : Ans :=
  refuseOr (safetyWindowRef d.payload s) (.done stOk 0 (safetyWindowNext d.payload s)) s

/-- The number of tell-tales of the asset in force. -/
def telltaleCount (s : State) : Nat :=
  match s.safety.asset with
  | some a => a.telltales.length
  | none => 0

/-- The state that TELLTALE_SET leaves: the states of the selected tell-tales as an lv write. -/
def telltaleNext (p : BitVec 384) (s : State) : State :=
  prepareLayouts true (onSafety (fun y => { y with ttDue := false })
    (addLv [.telltale (BitVec.ofNat 64 (fld p 0 64)) (BitVec.ofNat 64 (fld p 64 64)) (BitVec.ofNat 64 (fld p 128 64))] s))

/-- The check of TELLTALE_SET: no tell-tale is selected that the asset does not have. -/
def telltaleRef (p : BitVec 384) (s : State) : Ref := ranges [(0, decide (fld p 0 64 / 2 ^ telltaleCount s = 0))]

/-- TELLTALE_SET: the answer names the applying LATCH and whether the device is dark, which it is from the LATCH of the entry on
(R344). -/
def runTelltaleSet (d : Desc) (s : State) : Ans :=
  let p := d.payload
  refuseOr (telltaleRef p s)
    (.done stOk (pack [(0, 48, nextTick s), (48, 1, (s.safety.mode == .dark && s.safety.darkNow).toNat)]) (telltaleNext p s)) s

/-- The device is in the safe state. -/
def inSafe (s : State) : Bool := s.safety.mode == .window || s.safety.mode == .dark

/-- The safe state is entered or changed: the reaction, then SAFE_STATE_ENTER where the form is new. -/
def enterSafe (m : Nat) (hd : Option Head) (toDark restartable : Bool) (s : State) : State :=
  let s1 := safeReact m hd toDark restartable s
  if s1.safety.mode == s.safety.mode then s1 else raise srcSafe evSafeStateEnter (safeEnterWord s1) s1

/-- The judgement of a fault (R341): the reaction, SAFETY_FAULT from the source of the head's window where the fault is tied
to a head (R390), then SAFE_STATE_ENTER where the form is new. -/
def safetyFault (m : Nat) (tied : Option Head) (head colour : Nat) (toDark restartable : Bool) (rho : Nat) (s : State) : State :=
  let latched := !restartable || recentRestart s
  let s1 := safeReact m (if toDark then none else tied) toDark restartable s
  let s2 := raise (match tied with
      | some h => srcWindow h
      | none => srcSafe) evSafetyFault (safetyFaultWord m head colour latched rho) s1
  if s1.safety.mode == s.safety.mode then s2 else raise srcSafe evSafeStateEnter (safeEnterWord s2) s2

/-- SAFE_STATE_REQUEST (R343): an exit is accepted when no latched cause stands and every restartable cause has cleared. -/
def runSafeStateRequest (d : Desc) (s : State) : Ans :=
  match fld d.payload 0 2 with
  | 0 => .done stOk 0 (enterSafe 14 none false true s)
  | 1 => .done stOk 0 (enterSafe 14 none true true s)
  | 2 =>
    if !inSafe s then .done stOk 0 s
    else if s.safety.latched || s.safety.standing != 0 || s.safety.noRelease then .done stSafeLatched 0 s
    else .done stOk 0 (onSafety (fun y => { y with exitDue := true }) s)
  | _ => .done stRange 0 s

end Sys2Proof.Machine
end

