-- ==== Sys2Proof/Machine/SystemCmds.lean ====
section
/-! DEFINITION. DEVICE_INFO, EVENT_MASK and SETTINGS_READ with the records of R384, R442 and R477 as they read (13, 15, 16). -/

namespace Sys2Proof.Machine

/-! ## DEVICE_INFO -/

/-- The stepping code B1 (R6, R361). -/
def stepping : Nat := 0xB1

/-- The calibration generation in force. -/
def genInForce (s : State) : Option Generation := s.cal.inForce.map fun g => s.otp.gens[g]

/-- CAL_COUNT (R431). -/
def calCount (o : Otp) : Nat := sumOf (allFin 4) fun g => o.gens[g].isSealed.toNat

/-- UTC of the sealed generation with the highest index, 0 when there is none. -/
def calTime (o : Otp) : Nat :=
  match (allFin 4).reverse.find? (fun g => o.gens[g].isSealed) with
  | some g => o.gens[g].utc.toNat
  | none => 0

/-- The slot of the active image and its state. -/
def activeSlot (s : State) : Fin 2 := if s.flash.record.active then 1 else 0
def activeState (s : State) : Nat := s.flash.record.state[activeSlot s]

def runDeviceInfo (_ : Desc) (s : State) : Ans :=
  .done stOk (pack [(0, 16, 0x6440), (16, 8, stepping), (24, 8, s.otp.variant.toNat), (32, 16, s.boot.fwVersion.toNat),
    (48, 16, s.boot.schema.toNat), (64, 64, Config.serial.toNat), (128, 1, s.boot.straps.chainRole.toNat),
    (129, 9, s.cw.addr), (138, 10, s.cw.len), (148, 2, (activeSlot s).val), (150, 2, (activeState s == 3).toNat),
    (152, 8, calCount s.otp), (160, 32, calTime s.otp), (192, 48, s.clk.tick)]) s

/-! ## EVENT_MASK (R387) -/

def runEventMask (d : Desc) (s : State) : Ans :=
  let p := d.payload
  let g : Fin 8 := Fin.ofNat 8 (fld p 0 3)
  let mask := BitVec.ofNat 64 (fld p 64 64)
  let sel := BitVec.ofNat 64 (fld p 128 64)
  let held : BitVec 64 := if g = 6 then BitVec.allOnes 64 else if g = 7 then 3 else 0
  let m := (s.ev.masks[g] &&& ~~~sel) ||| (mask &&& sel)
  refuseOr (need (sel &&& ~~~mask &&& held == 0) stRange 64)
    (.done stOk m.toNat (onEv (fun v => { v with masks := v.masks.set g m }) s)) s

/-! ## The records as they read -/

/-- Signed values in their fields. -/
def sf (lo w : Nat) (v : Int) : Nat × Nat × Nat := (lo, w, twos w v)
def bf (lo : Nat) (b : Bool) : Nat × Nat × Nat := (lo, 1, b.toNat)

/-- The memory-region and canvas records (R35, R79). -/
def memWord (m : MemCfg) : Nat := pack [(0, 64, m.canvasBase), (64, 32, m.canvasMib), (128, 64, m.planeBase), (192, 32, m.planeMib)]
def canvasWord (c : CanvasCfg) : Nat :=
  pack [(0, 16, c.w), (16, 16, c.h), bf 32 c.postBypass, (64, 24, c.bg[0]), (88, 24, c.bg[1]), (112, 24, c.bg[2])]

/-- The head colour record (R135). -/
def colourWord (h : Head) (m : Vector Int 12) : Nat := pack ((0, 2, h.val) :: (allFin 12).map fun k => sf (16 + 20 * k.val) 20 m[k])

/-- The array record (R156). -/
def arrWord (h : Head) (a : ArrayCfg) : Nat :=
  pack [(0, 2, h.val), (8, 16, a.tSettle), (24, 16, a.tReset), (40, 16, a.tMinPlane), (56, 8, a.rxPlanes), (64, 16, a.levelFloor),
    (80, 2, a.dither)]

/-- The raster record with F_NOW and SCAN_STATE (R228). -/
def rasWord (h : Head) (r : RasterCfg) (x : RasterDyn) : Nat :=
  pack [(0, 2, h.val), (8, 16, r.fNom), (24, 3, r.track), (32, 16, r.ampSet), (48, 16, r.ampMin), sf 64 16 r.slowTop,
    sf 80 16 r.slowBot, (96, 9, r.tRetrace), (112, 16, r.slowTol), sf 128 16 r.trimF, sf 144 16 r.trimR,
    (160, 16, r.levelFloor), (176, 2, r.dither), (192, 32, x.fNow), (224, 2, x.scan)]

/-- The pixel timing table record (R386). -/
def rtableWord (h : Head) (x : HeadCfg) : Nat := pack [(0, 2, h.val), (32, 32, x.rtOff), (64, 32, x.rtCrc)]

/-- The link record (R220). -/
def linkWord (g : Head) (l : LinkCfg) (x : LinkDyn) : Nat :=
  pack [(0, 2, g.val), (8, 8, l.txPol), bf 16 l.rxPol, (17, 2, l.rateMax), (32, 16, l.errLimit), (64, 2, x.rateNow),
    (66, 2, x.state), (80, 16, sat 16 x.dlMax), (96, 32, sat 32 x.resent), (128, 32, sat 32 x.lost), (160, 32, sat 32 x.readback),
    (192, 32, sat 32 x.trains)]

/-- The OS record (R265). -/
def osWord (i : Fin 8) (o : OsCfg) : Nat :=
  pack [(0, 3, i.val), bf 8 o.enable, (9, 2, o.head.val), (11, 3, o.colours), (16, 3, o.gainMode), (32, 16, o.darkLimit)]

/-- The line record (R281). -/
def lineRecWord (i : Fin 4) (l : LineCfg) : Nat :=
  pack [(0, 2, i.val), bf 8 l.lv.enable, (9, 3, l.st.order), bf 12 l.st.tsEn, (16, 4, l.st.tsSel), (24, 8, l.st.nodes),
    (32, 8, l.st.latchUs), sf 48 16 l.lv.tRef, sf 64 16 l.lv.kt[0], sf 80 16 l.lv.kt[1], sf 96 16 l.lv.kt[2],
    (112, 16, l.lv.safe[0]), (128, 16, l.lv.safe[1]), (144, 16, l.lv.safe[2])]

/-- An enabled optical sense input serves a head and colour, and is not under OS_FAULT (R261, R264). -/
def osServes (s : State) (h : Head) (c : Colour) (i : Fin 8) : Bool :=
  s.cfg.os[i].enable && s.cfg.os[i].head == h && s.cfg.os[i].colours / 2 ^ c.val % 2 == 1 && !s.oss[i].faulty

/-- VPP_OTP is at least 2.375 V (R440). -/
def vppOk (s : State) : Bool := decide (2375 ≤ s.cal.inputs.vppMv)

/-- The trims of R437 are stepping (R438). -/
def calApplying (s : State) : Bool := !s.cal.applying.isEmpty

/-- DRIFT_OK: every condition of R261 but the grant. -/
def driftOk (s : State) (n : Chan) : Bool :=
  let c := s.cfg.chans[n]
  c.lv.driftEn && !s.cfg.heads[c.st.head].raster && (allFin 8).any (osServes s c.st.head c.st.colour) &&
    s.cal.live.slope[n] != 0xFFFF

/-- The channel status record (R276). -/
def chanWord (n : Chan) (s : State) : Nat :=
  let x := s.chans[n]
  pack [(0, 6, n.val), (8, 2, x.state), (10, 3, x.cause), (16, 16, x.ref), (32, 16, sat 16 x.iMeas), (48, 16, sat 16 x.vS),
    sf 64 16 (intClamp (-32768) 32767 (ratRound (x.theta * 100))), (80, 16, sat 16 (phiMin s n s.cfg.chans[n].st)),
    (96, 8, if x.state == 1 || x.state == 2 then sat 8 x.unjudged else 0), (104, 16, sat 16 x.sinceDrift), bf 120 (driftOk s n)]

/-- Unsigned 1.15 of a factor. -/
def u115 (q : Rat) : Nat := sat 16 (ratRound (q * 32768)).toNat

/-- The colour status record (R277). -/
def colourStatusWord (h : Head) (s : State) : Nat :=
  let l := s.loops[h]
  pack [(0, 2, h.val), bf 4 l[0].relative, bf 5 l[1].relative, bf 6 l[2].relative, bf 8 l[0].frozen, bf 9 l[1].frozen,
    bf 10 l[2].frozen, (32, 16, u115 l[0].kappa), (48, 16, u115 l[1].kappa), (64, 16, u115 l[2].kappa),
    (80, 16, u115 l[0].rho), (96, 16, u115 l[1].rho), (112, 16, u115 l[2].rho)]

/-- A temperature in units of 0.125 °C and a slope in units of 0.01 K/s, in 16 bits. -/
def t8 (q : Rat) : Nat := twos 16 (intClamp (-32768) 32767 (ratRound (q * 8)))
def k100 (q : Rat) : Nat := twos 16 (intClamp (-32768) 32767 (ratRound (q * 100)))

/-- The power status record (R316). -/
def powerWord (s : State) : Nat :=
  let t := s.therm
  let x := s.sluice
  let fail (lo n : Nat) : Nat := pack ((List.range n).map fun i => (i, 1, (t.sensors[Fin.ofNat 36 (lo + i)]).failed.toNat))
  pack [(0, 4, t.level), bf 4 (t.groups[0].frozen || t.groups[1].frozen), bf 5 t.groups[0].tripped, bf 6 t.groups[1].tripped, bf 7 x.shed,
    (8, 16, t8 t.groups[0].max), (24, 16, t8 t.groups[1].max), (40, 16, k100 t.groups[0].slope), (56, 16, k100 t.groups[1].slope),
    (72, 12, fail 0 12), (84, 16, fail 16 16), (100, 4, fail 32 4), (104, 24, x.qL), (128, 24, x.qD), (152, 24, x.floorL),
    (176, 24, x.floorD), (200, 24, x.estL), (224, 16, u115 x.capF)]

/-- The proof runs on a head (R333): its window is shown, it has a proof input and the calibration holds its proof gain. -/
def proofRuns (s : State) (h : Head) : Bool :=
  winShown s h && s.cfg.wins[h].proofOs != 15 && allColours.all fun c => s.cal.live.k[limitIdx h c] != 0xFFFF

/-- The safety status record (R348). -/
def safetyWord (s : State) : Nat :=
  let y := s.safety
  pack [(0, 2, y.mode.code), bf 2 y.latched, (4, 4, y.headDark.toNat), (8, 4, headMask (winShown s)),
    (12, 4, headMask (proofRuns s)), (16, 16, y.causes.toNat), (32, 8, y.alive.toNat), (40, 8, sat 8 y.e2eErrors),
    (48, 64, y.lit.toNat)]

/-- The update status record (R477). IDLE counts 10 ms, TRIAL_LEFT whole seconds begun. -/
def updateWord (s : State) : Nat :=
  let r := s.flash.record
  let copy : Fin 2 := if r.set[activeSlot s] then 1 else 0
  let ses : List (Nat × Nat × Nat) := match s.upd.session with
    | some x => [(10, 2, x.state), bf 12 x.chain, bf 13 x.joined, (16, 28, x.stored.toNat),
        (64, 16, sat 16 ((s.clk.now - x.last) / 5000000))]
    | none => []
  pack ([bf 0 r.active, (1, 3, r.state[0]), (4, 3, r.state[1]), (7, 2, r.trials), (9, 1, copy.val),
    (48, 16, s.flash.schemaOf[copy].toNat), (80, 16, sat 16 (match s.upd.trialLeft with
      | some t => divUp (t - s.clk.now) 500000000
      | none => 0)), (96, 32, r.seq.toNat)] ++ ses)

/-- The chain record (R478). -/
def chainWord (c : ChainCfg) (x : CwDyn) : Nat :=
  pack [bf 0 c.evtFwd, bf 1 c.relayEn, (2, 5, c.relaySize), (16, 16, x.relayHead.toNat), (32, 16, x.relayTail.toNat),
    (64, 64, c.relayBase), (128, 9, x.addr), (137, 10, x.len), (147, 2, x.up.state), (149, 2, x.down.state),
    (160, 16, sat 16 x.up.delay), (176, 16, sat 16 x.down.delay), (192, 32, sat 32 x.misses)]

/-- The calibration status record (R442). -/
def calWord (s : State) : Nat :=
  let g := s.otp.gens
  let bits (f : Generation → Bool) : Nat := pack ((allFin 4).map fun i => (i.val, 1, (f g[i]).toNat))
  pack [(0, 3, match s.cal.inForce with
      | some i => i.val
      | none => 0), (4, 4, bits (·.isSealed)), (8, 4, bits (·.consumed)), (12, 4, bits (·.damaged)), (16, 8, calCount s.otp),
    bf 24 s.cal.running.isSome, bf 25 (calApplying s), bf 26 s.cal.uncommitted, bf 27 (vppOk s),
    (32, 32, match genInForce s with
      | some x => x.utc.toNat
      | none => 0), (64, 16, match genInForce s with
      | some x => x.station.toNat
      | none => 0)]

/-- A record in a configuration (live, or prospective under VIEW 1). -/
def recordWord (number index : Nat) (c : Cfg) (s : State) : Nat :=
  let h : Head := Fin.ofNat 4 index
  match number with
  | 0x01 => memWord c.mem
  | 0x02 => canvasWord c.canvas
  | 0x03 => colourWord h c.heads[h].colour
  | 0x04 => arrWord h c.heads[h].arr
  | 0x05 => rasWord h c.heads[h].ras s.rasters[h]
  | 0x06 => rtableWord h c.heads[h]
  | 0x07 => linkWord h c.links[h] s.links[h]
  | 0x08 => osWord (Fin.ofNat 8 index) c.os[Fin.ofNat 8 index]
  | 0x09 => lineRecWord h c.lines[h]
  | 0x10 => chanWord (Fin.ofNat 64 index) s
  | 0x11 => colourStatusWord h s
  | 0x12 => powerWord s
  | 0x13 => safetyWord s
  | 0x20 => updateWord s
  | 0x21 => chainWord c.chain s.cw
  | 0x30 => calWord s
  | _ => 0

/-- How many values a record's index takes; none for a number that names no record. -/
def recordIndexes (number : Nat) : Option Nat :=
  match number with
  | 0x01 | 0x02 | 0x12 | 0x13 | 0x20 | 0x21 | 0x30 => some 1
  | 0x03 | 0x04 | 0x05 | 0x06 | 0x07 | 0x09 | 0x11 => some 4
  | 0x08 => some 8
  | 0x10 => some 64
  | _ => none

/-- The record bits, as (lowest, highest), of the fields that a pending write holds. -/
def pendingBits (number index : Nat) (w : CfgWrite) : List (Nat × Nat) :=
  match number, w with
  | 0x02, .canvas _ _ => [(32, 32), (64, 135)]
  | 0x03, .headColour h _ => if h.val = index then [(16, 255)] else []
  | 0x04, .arrDither h _ => if h.val = index then [(80, 81)] else []
  | 0x05, .rasDither h _ => if h.val = index then [(176, 177)] else []
  | 0x05, .rasTrim h _ _ => if h.val = index then [(128, 159)] else []
  | 0x07, .errLimit g _ => if g.val = index then [(32, 47)] else []
  | 0x08, .os i _ _ _ => if i.val = index then [(8, 8), (16, 18), (32, 47)] else []
  | 0x09, .line i _ => if i.val = index then [(8, 8), (48, 159)] else []
  | 0x21, .chain _ _ => [(0, 1)]
  | _, _ => []

/-- Every write that waits for a LATCH. -/
def pendingWrites (s : State) : List CfgWrite := s.pendLv ++ (s.com.records.map (·.writes)).flatten ++ s.openSet

/-- PENDING: bit k for record bits 4k + 3 to 4k. -/
def pendingMask (number index : Nat) (s : State) : Nat :=
  let rs := ((pendingWrites s).map (pendingBits number index)).flatten
  pack ((List.range 64).map fun k => (k, 1, (rs.any fun r => decide (r.1 / 4 ≤ k ∧ k ≤ r.2 / 4)).toNat))

/-- R384: Q2 reads the safety status record alone, Q3 it and the power status record. -/
def readableOn (q : Fin 4) (number : Nat) : Bool :=
  match q with
  | 2 => number == 0x13
  | 3 => number == 0x12 || number == 0x13
  | _ => true

/-- SETTINGS_READ: RECORD names the object and is judged first (R378). -/
def runSettingsRead (d : Desc) (s : State) : Ans :=
  let p := d.payload
  let number := fld p 0 8
  let index := fld p 8 8
  match recordIndexes number with
  | none => .done stRecord 0 s
  | some n =>
    refuseOr (firstRef [need (readableOn d.queue number) stRecord, need (decide (index < n)) stRange 8])
      (.done stOk (recordWord number index (if bit p 16 then prospect s else s.cfg) s + pendingMask number index s * 2 ^ 256) s) s

end Sys2Proof.Machine
end

