-- ==== Sys2Proof/Machine/CalCmds.lean ====
section
/-! DEFINITION. Calibration (15): CAL_RUN, CAL_COMMIT and CAL_STATUS, the preconditions of R433, the steps of R434, the
darning choice of R425, the judgement of R435, aborts and the application of R437. -/

namespace Sys2Proof.Machine

def absR (q : Rat) : Rat := if q < 0 then -q else q

/-! ## Preconditions (R433) -/

/-- Condition 7: the settings and the map entry of a channel. -/
def chanConfigured (s : State) (n : Chan) : Bool :=
  let c := s.cfg.chans[n]
  c.st.iMax != 0 && c.st.rshunt != 0 && c.lv.vOpen != 0 && c.st.lvsDiv != 0 &&
    chanMap s n == some (c.st.head.val, c.st.colour.val) && limitsSet s c.st.head c.st.colour

/-- The channels that FULL takes: those that meet condition 7. -/
def configured (s : State) : List Chan := (allFin 64).filter (chanConfigured s)

/-- The channels that an item affects. -/
def calChans (item index : Nat) : List Chan :=
  match item with
  | 0 => allFin 64
  | 15 => allFin 64
  | 1 => [Fin.ofNat 64 index]
  | _ => []

/-- The heads that an item holds dark. -/
def calDark (s : State) (item index : Nat) : List Head :=
  match item with
  | 0 => allHeads
  | 15 => allHeads
  | 1 => [s.cfg.chans[Fin.ofNat 64 index].st.head]
  | _ => []

/-- Condition 2: the affected channel whose sensed current is more than 8 codes from zero. -/
def offZero (s : State) (item index : Nat) : Option Nat :=
  ((calChans item index).find? fun n => decide (8 < absR s.cal.inputs.zero[n])).map (·.val)

/-- An optical sense input that an item uses: REFERENCE every enabled one, CHANNEL the one that serves its channel. -/
def calUses (s : State) (item index : Nat) (i : Fin 8) : Bool :=
  let c := s.cfg.chans[Fin.ofNat 64 index].st
  item != 2 && s.cfg.os[i].enable && (item != 1 || osServes s c.head c.colour i)

/-- Condition 3: the input used whose dark level at gain step 3 is above its DARK_LIMIT. -/
def tooBright (s : State) (item index : Nat) : Option Nat :=
  ((allFin 8).find? fun i => calUses s item index i && decide (s.cfg.os[i].darkLimit < s.cal.inputs.dark[i])).map (·.val)

/-- Condition 4: CAL_REF is more than 1.0 % from CAL_REF_UV. -/
def refOff (s : State) (item uv : Nat) : Option Nat :=
  if (item == 0 || item == 15) && decide (100 * max (s.cal.inputs.refUv - uv) (uv - s.cal.inputs.refUv) > uv) then some 0 else none

/-- The first condition of R433 that fails, by REASON, with the channel, input or head concerned. -/
def calFails (s : State) (item index uv : Nat) : Option (Nat × Nat) :=
  let h : Head := Fin.ofNat 4 index
  let n : Chan := Fin.ofNat 64 index
  [((calChans item index).find? (chanRuns s)).map fun c => (1, c.val),
    (offZero s item index).map fun n => (2, n), (tooBright s item index).map fun i => (3, i), (refOff s item uv).map fun x => (4, x),
    ((calDark s item index).find? (winShown s)).map fun k => (5, k.val),
    if s.safety.mode == .normal then none else some (6, 0),
    if item == 1 && !chanConfigured s n then some (7, n.val) else none,
    if item == 2 && !(winShown s h && s.cfg.wins[h].proofOs != 15 && allColours.all (colourLit s))
      then some (8, h.val) else none].findSome? id

/-! ## Steps (R434) -/

/-- The step limit in µs. -/
def stepLimit (tmin : Nat) : Nat := min 6000 (tmin - 1000)

/-- The measurement time of one repeat in µs: REFERENCE 50 ms; CHANNEL 4.000 ms, as part of FULL without the offset. -/
def repeatUs (item : Nat) (full : Bool) : Nat := if item = 0 then 50000 else if full then 3900 else 4000

/-- The part of a CHANNEL repeat that S_n takes. -/
def slopeUs : Nat := 1333

/-- What is left of a repeat after a step at a limit: REFERENCE fills the step; CHANNEL takes the whole repeat, or all of it
but S_n, and then S_n. -/
def afterStep (item left limit : Nat) : Nat :=
  if item = 0 then left - limit else if left ≤ limit then 0 else if slopeUs < left then slopeUs else 0

/-- Steps of one repeat at a limit. -/
def repeatSteps (item : Nat) (full : Bool) (limit : Nat) : Nat :=
  if item = 0 then divUp 50000 limit else if repeatUs item full ≤ limit then 1 else 2

/-- The measurement time in 0.1 ms and the steps of an item at the present effective Tmin. -/
def calTimeSteps (s : State) (item : Nat) : Nat × Nat :=
  let l := stepLimit s.clk.nextTmin
  let n := (configured s).length
  match item with
  | 0 => (1500, 3 * repeatSteps 0 false l)
  | 1 => (120, 3 * repeatSteps 1 false l)
  | 2 => (0, 0)
  | _ => (1500 + 117 * n, 3 * repeatSteps 0 false l + n * (3 * repeatSteps 1 true l))

/-! ## Reports -/

/-- The last run of an item. -/
def calReport (s : State) (item index : Nat) : CalReport :=
  (s.cal.reports.find? fun r => r.item == item && r.index == index).getD
    { item := item, index := index, state := 0, failing := 0xF, reason := 0, value := 0 }

/-- A report is replaced. -/
def setReport (r : CalReport) (c : CalDyn) : CalDyn :=
  { c with reports := r :: c.reports.filter fun x => !(x.item == r.item && x.index == r.index) }

/-- An item becomes pending, running, or ends in a state with a failing quantity, a reason and a value. -/
def noteItem (item index state failing reason : Nat) (value : BitVec 64) (s : State) : State :=
  onCal (setReport { item := item, index := index, state := state, failing := failing, reason := reason, value := value }) s

/-! ## CAL_RUN, CAL_COMMIT, CAL_STATUS -/

/-- ITEM and INDEX in range. -/
def calItemOk (item index : Nat) : List (Nat × Bool) :=
  [(0, item == 0 || item == 1 || item == 2 || item == 15),
    (8, item == 1 || (item == 2 && decide (index ≤ 3)) || index == 0)]

/-- R439. -/
def calBusy (s : State) : Bool := s.cal.running.isSome || s.cal.commit.isSome || calApplying s

/-- An item becomes pending. -/
def startItem (item index : Nat) (temp : Int) (uv : Nat) (s : State) : State :=
  let part := if item = 15 then (0, 0) else (item, index)
  let s1 := noteItem item index 1 0xF 0 0 (onCal (fun c => { c with
    running := some (item, index), part := part, todo := if item = 15 then configured s else [], first := false, reps := 0
    left := 0, stepping := false, lastStep := false, meas := none, abort := none, stationTemp := temp, refUv := uv
    proofTicks := 0, proofNow := Vector.replicate 3 { meas := 0, ref := 0 }, proofReps := [] }) s)
  if item = 15 then noteItem 0 0 1 0xF 0 0 s1 else s1

/-- The checks of CAL_RUN, in the order of its block. -/
def calRunRef (p : BitVec 384) (s : State) : Ref :=
  let item := fld p 0 4
  let index := fld p 8 6
  let temp := sfld p 16 16
  let uv := fld p 32 32
  let ref := item == 0 || item == 15
  firstRef [ranges (calItemOk item index ++
      [(16, if ref then decide (-320 ≤ temp ∧ temp ≤ 1000) else temp == 0),
        (32, if ref then decide (1188000 ≤ uv ∧ uv ≤ 1212000) else uv == 0)]),
    (calFails s item index uv).map fun f => (stCalPrecondFail, pack [(0, 8, f.1), (8, 8, f.2)]),
    need (!calBusy s) stCalBusy]

def runCalRun (d : Desc) (s : State) : Ans :=
  let p := d.payload
  let t := calTimeSteps s (fld p 0 4)
  refuseOr (calRunRef p s) (.done stOk (pack [(0, 16, t.1), (16, 8, sat 8 t.2)])
    (startItem (fld p 0 4) (fld p 8 6) (sfld p 16 16) (fld p 32 32) s)) s

/-- CAL_STATUS's result word. -/
def reportWord (r : CalReport) : Nat :=
  pack [(0, 4, r.state), (4, 4, r.failing), (8, 8, r.reason), (64, 64, r.value.toNat)]

def runCalStatus (d : Desc) (s : State) : Ans :=
  let item := fld d.payload 0 4
  let index := fld d.payload 8 6
  refuseOr (ranges (calItemOk item index)) (.done stOk (reportWord (calReport s item index)) s) s

/-- The lowest unconsumed of G1 to G3. -/
def freeGen (o : Otp) : Option (Fin 4) := [1, 2, 3].find? fun g => !o.gens[(g : Fin 4)].consumed

/-- CAL_COMMIT's result word. -/
def commitOutcome (outcome gen : Nat) (s : State) : Nat := pack [(0, 2, outcome), (2, 3, gen), (8, 8, calCount s.otp)]

/-- CAL_SEALED's payload (R443). -/
def sealedWord (outcome gen : Nat) (utc : BitVec 32) (s : State) : Nat :=
  pack [(0, 2, outcome), (2, 3, gen), (8, 8, calCount s.otp), (32, 32, utc.toNat)]

/-- The two OTP series of a commit: payload and CRC, then SEAL. -/
def commitSeries : Nat := 2

/-- The checks of CAL_COMMIT but STATUS_OTP_FULL. -/
def calCommitRef (p : BitVec 384) (s : State) : Ref :=
  firstRef [ranges [(0, BitVec.ofNat 32 (fld p 0 32) != 0)], need (!calBusy s) stCalBusy, need s.cal.uncommitted stCalNoResult]

def runCalCommit (d : Desc) (s : State) : Ans :=
  let utc := BitVec.ofNat 32 (fld d.payload 0 32)
  let station := BitVec.ofNat 16 (fld d.payload 32 16)
  match calCommitRef d.payload s with
  | some x => .done x.1 x.2 s
  | none =>
    match freeGen s.otp with
    | none => .done stOtpFull 0 s
    | some g =>
      if vppOk s then .wait (onCal (fun c => { c with commit := some (g, utc, station, commitSeries), granted := false }) s)
      else .done stOk (commitOutcome 2 g.val s) (raise srcCal evCalSealed (sealedWord 2 g.val utc s) s)

/-! ## Judgement (R424, R425, R435) -/

/-- The span of a trim set, in the unit of its measurements (R424). -/
def spanOfSet (place : Nat) : Rat :=
  if place = 0 then 36
  else if place = 1 then 3
  else if place < 8 then 4
  else if place < 32 then (if place % 2 = 0 then 8 else 6)
  else if place < 64 then (if place % 2 = 0 then 2 else 6)
  else if place < 88 then 10
  else if place < 96 then 120
  else match place % 3 with
    | 0 => 80
    | 1 => 6
    | _ => 1500

/-- The number of R435 that a trim set's quantity has. -/
def quantityOf (place : Nat) : Nat :=
  if place < 2 then 1 else if place < 8 then 3 else if place < 32 then 4 else if place < 88 then 5 else if place < 96 then 6
  else if place % 3 = 2 then 6 else 7

/-- The nominal weight of element i: w7 ÷ 1.8^(7 − i), the eight summing to the span. -/
def nominalWeight (place i : Nat) : Rat :=
  let w (k : Nat) : Rat := (9 / 5 : Rat) ^ k
  spanOfSet place * w i / ((List.range 8).foldl (fun a k => a + w k) 0)

def mean3 (v : Vector Rat 3) : Rat := (v[0] + v[1] + v[2]) / 3
/-- The repeats lie within a tolerance of their mean. -/
def agree3 (v : Vector Rat 3) (tol : Rat) : Bool := v.toList.all fun x => decide (absR (x - mean3 v) ≤ tol)

/-- The contributions that a measured set settles on. -/
def partsOf (m : TrimMeas) : Vector Rat 8 := m.parts.map mean3

/-- The base and the chosen elements together, less the base. -/
def maskSum (d : Vector Rat 8) (mask : Nat) : Rat :=
  (allFin 8).foldl (fun a i => if mask / 2 ^ i.val % 2 = 1 then a + d[i] else a) 0

/-- R425, step 2: the mask whose predicted value lies nearest the target, ties to the lower mask. -/
def darn (base target : Rat) (d : Vector Rat 8) : Nat :=
  ((List.range 256).foldl (fun (best : Nat × Rat) m =>
    let e := absR (base + maskSum d m - target)
    if e < best.2 then (m, e) else best) (0, absR (base - target))).1

/-- The agreement tolerance of a set's own quantity (R435). -/
def toleranceOf (place : Nat) (mean : Rat) : Rat :=
  match quantityOf place with
  | 1 => absR mean * 5 / 10000
  | 3 => absR mean * 5 / 10000
  | 4 => 2 / 10
  | 5 => absR mean / 1000
  | 6 => 20
  | _ => if place % 3 = 0 then 2 else absR mean * 5 / 10000

/-- The trim sets of a part (R432): REFERENCE those of bytes 8 to 102 of R430 and every channel's offset; CHANNEL those of its
channel, in FULL without the offset. -/
def trimOf (item index : Nat) (full : Bool) (place : Nat) : Bool :=
  if item = 0 then decide (place < 95) || (decide (96 ≤ place) && decide (place < 288) && place % 3 == 0)
  else item == 1 && decide (96 ≤ place) && (place - 96) / 3 == index && !(full && place % 3 == 0)

/-- A set judged: none where every quantity passes, else the number of the first that fails and whether by agreement. -/
def judgeTrim (stationTemp : Int) (m : TrimMeas) : Option (Nat × Bool) :=
  let q := quantityOf m.place
  let own := if q = 1 then m.base else m.value
  let v := mean3 own
  let d := partsOf m
  let base := mean3 m.base
  let full := maskSum d 255
  let within := decide (base ≤ m.target) && decide (m.target ≤ base + spanOfSet m.place)
  let ownAgree := agree3 own (toleranceOf m.place v) && (q != 1 || agree3 m.verified (toleranceOf m.place (mean3 m.verified)))
  let ownOk : Bool := match q with
    | 1 => decide (base ≤ m.target) && decide (m.target ≤ base + full) && decide (absR (mean3 m.verified - m.target) ≤ 2 * d[0])
    | 3 => decide (98 ≤ v) && decide (v ≤ 102)
    | 4 => decide (absR (v - (stationTemp : Rat) / 8) ≤ 5)
    | _ => within
  let partsAgree := (allFin 8).all fun i => agree3 m.parts[i] (absR d[i] / 10)
  let partsOk := (allFin 8).all fun i =>
    decide (absR (d[i] - nominalWeight m.place i.val) ≤ nominalWeight m.place i.val * 3 / 10)
  if q = 1 then
    (if !ownAgree then some (1, true) else if !ownOk then some (1, false)
      else if !partsAgree then some (2, true) else if !partsOk then some (2, false) else none)
  else
    (if !partsAgree then some (2, true) else if !partsOk then some (2, false)
      else if !ownAgree then some (q, true) else if !ownOk then some (q, false) else none)

/-- The first failing quantity of several judgements: the lowest number. -/
def firstFail (l : List (Option (Nat × Bool))) : Option (Nat × Bool) :=
  l.foldl (fun a b => match a, b with
    | none, x => x
    | x, none => x
    | some x, some y => if y.1 < x.1 then some y else some x) none

/-- Quantity 8: repeats within one step of 2^(1/8) of their mean, the mean 64 to 4096. -/
def judgePhi (v : Vector Rat 3) : Option (Nat × Bool) :=
  let m := mean3 v
  if !(v.toList.all fun x => decide (x ^ 8 ≤ 2 * m ^ 8) && decide (m ^ 8 ≤ 2 * x ^ 8)) then some (8, true)
  else if !(decide (64 ≤ m) && decide (m ≤ 4096)) then some (8, false) else none

/-- Quantity 9: within 1.0 %, 0.5 to 255.0. -/
def judgeSlope (v : Option (Vector Rat 3)) : Option (Nat × Bool) :=
  match v with
  | none => none
  | some v =>
    if !agree3 v (absR (mean3 v) / 100) then some (9, true)
    else if !(decide (1 / 2 ≤ mean3 v) && decide (mean3 v ≤ 255)) then some (9, false) else none

/-- An item's part judged: what it brings into force and what CAL_STATUS reports, or the failing quantity. -/
def judgeMeas (item index : Nat) (full : Bool) (stationTemp : Int) (m : CalMeas) : CalResult × BitVec 64 ⊕ Nat × Bool :=
  let chan := item == 1
  let sets := m.trims.filter fun t => trimOf item index full t.place
  match firstFail (sets.map (judgeTrim stationTemp) ++ (if chan then [judgePhi m.phi, judgeSlope m.slope] else [])) with
  | some f => .inr f
  | none =>
    let ts : List Trim := sets.map fun t =>
      { place := t.place, mask := BitVec.ofNat 8 (darn (mean3 t.base) t.target (partsOf t)), parts := partsOf t }
    let mask (p : Nat) : Nat := match ts.find? (fun t => t.place == p) with
      | some t => t.mask.toNat
      | none => 0
    let phi := sat 16 (ratRound (mean3 m.phi)).toNat
    let slope := match m.slope with
      | some v => sat 16 (ratRound (mean3 v * 256)).toNat
      | none => 0xFFFF
    let ver : Nat := match sets.find? (fun t => t.place == 0) with
      | some t => (ratRound (mean3 t.verified * 100)).toNat
      | none => 0
    if chan then
      .inl ({ trims := ts, chan := some (Fin.ofNat 64 index, phi, slope), gains := none },
        BitVec.ofNat 64 (pack [(0, 8, mask (96 + 3 * index)), (8, 8, mask (97 + 3 * index)), (16, 8, mask (98 + 3 * index)),
          (24, 16, phi), (40, 16, slope)]))
    else
      .inl ({ trims := ts, chan := none, gains := none },
        BitVec.ofNat 64 (pack [(0, 8, mask 0), (8, 8, mask 1), (16, 32, sat 32 ver)]))

/-- CAL_DONE's payload (R443). -/
def calDoneWord (item index state failing : Nat) : Nat := pack [(0, 4, item), (8, 6, index), (16, 3, state), (20, 4, failing)]

/-- The event and the report of a part's end. -/
def tellDone (item index state failing reason : Nat) (value : BitVec 64) (s : State) : State :=
  raise srcCal evCalDone (calDoneWord item index state failing) (noteItem item index state failing reason value s)

/-- The next part of FULL, or its end (R434): the whole item's own report follows its last part. The word is that of a CAL_DONE
that is owed. -/
def nextPartWord (s : State) : State × Option Nat :=
  match s.cal.running with
  | some (15, _) =>
    match s.cal.todo with
    | n :: r => (noteItem 1 n.val 1 0xF 0 0 (onCal (fun c => { c with
        part := (1, n.val), todo := r, first := false, reps := 0, left := 0, stepping := false, lastStep := false, meas := none }) s), none)
    | [] => (noteItem 15 0 3 0xF 0 0 (onCal (fun c => { c with running := none }) s), some (calDoneWord 15 0 3 0xF))
  | _ => (onCal (fun c => { c with running := none, stepping := false }) s, none)

/-- CAL_DONE is raised where it is owed. -/
def tellCal (x : State × Option Nat) : State :=
  match x.2 with
  | some w => raise srcCal evCalDone w x.1
  | none => x.1

def nextPart (s : State) : State := tellCal (nextPartWord s)

/-- A part has been accepted (R435): its result waits for L0 and for CAL_COMMIT. -/
def acceptPart (r : CalResult) (value : BitVec 64) (s : State) : State :=
  let p := s.cal.part
  let s1 := tellDone p.1 p.2 3 0xF 0 value (onCal (fun c => { c with
    applying := c.applying ++ [{ item := p.1, index := p.2, latch := 0, result := r }], uncommitted := true, first := false, reps := 0, left := 0, stepping := false
    lastStep := false, meas := none }) s)
  match s.cal.running with
  | some (15, _) => if p.1 = 0 then s1 else nextPart s1
  | _ => onCal (fun c => { c with running := none }) s1

/-- A part has been rejected: a rejected REFERENCE ends FULL, a rejected CHANNEL rejects that channel alone. -/
def rejectPart (q : Nat) (byAgree : Bool) (s : State) : State :=
  let p := s.cal.part
  let st := if byAgree then 4 else 5
  let s1 := tellDone p.1 p.2 st q 0 0 (onCal (fun c => { c with
    first := false, reps := 0, left := 0, stepping := false, lastStep := false, meas := none }) s)
  match s.cal.running with
  | some (15, _) =>
    if p.1 = 0 then tellDone 15 0 st q 0 0 (onCal (fun c => { c with running := none, todo := [] }) s1) else nextPart s1
  | _ => onCal (fun c => { c with running := none }) s1

/-- The item that runs is FULL. -/
def inFull (s : State) : Bool := s.cal.running.any fun x => x.1 == 15

/-- The END of a part's last step. -/
def endPart (s : State) : State :=
  match s.cal.meas with
  | some m =>
    match judgeMeas s.cal.part.1 s.cal.part.2 (inFull s) s.cal.stationTemp m with
    | .inl r => acceptPart r.1 r.2 s
    | .inr f => rejectPart f.1 f.2 s
  | none => s

/-- R436: an item ends aborted; the whole of FULL with the part that ran. -/
def abortWord (reason : Nat) (s : State) : State × Option Nat :=
  match s.cal.running with
  | some (item, index) =>
    let p := s.cal.part
    let s1 := onCal (fun c => { c with
      running := none, todo := [], first := false, reps := 0, left := 0, stepping := false, lastStep := false, meas := none
      abort := none }) s
    let s2 := if item = 15 && decide ((calReport s p.1 p.2).state ≤ 2) then noteItem p.1 p.2 6 0xF reason 0 s1 else s1
    (noteItem item index 6 0xF reason 0 s2, some (calDoneWord item index 6 0xF))
  | none => (s, none)

/-- An abort that takes effect at the next boundary. -/
def markAbort (reason : Nat) (s : State) : State :=
  if s.cal.running.isSome && s.cal.abort.isNone then onCal (fun c => { c with abort := some reason, stepping := false }) s else s

/-- A part wants a step: CHANNEL parts of FULL wait until the application of its REFERENCE part ends. -/
def calReady (s : State) : Bool :=
  match s.cal.running with
  | some (item, _) => item != 2 && s.cal.abort.isNone && !(s.cal.applying.any fun a => a.item == 0)
  | none => false

/-- A step begins at the end of LATCH (R433, R434): the conditions are checked again, and the step's share of the repeat is
taken; the part's last step brings its measurements. -/
def beginStep (m : LatchEnd) (s : State) : State :=
  if s.cal.stepping then
    match calFails s s.cal.part.1 s.cal.part.2 s.cal.refUv with
    | some f => markAbort f.1 s
    | none =>
      let p := s.cal.part
      let left := if s.cal.left = 0 then repeatUs p.1 (inFull s) else s.cal.left
      let left' := afterStep p.1 left (stepLimit s.clk.effTmin)
      let reps := if left' = 0 then s.cal.reps + 1 else s.cal.reps
      let last := left' == 0 && reps == 3
      let s1 := if s.cal.first then s else noteItem p.1 p.2 2 0xF 0 0 (match s.cal.running with
        | some (i, k) => noteItem i k 2 0xF 0 0 s
        | none => s)
      onCal (fun c => { c with first := true, left := left', reps := reps, lastStep := last
                               meas := if last then some m.cal else none }) s1
  else s

/-! ## The application (R437, R438) -/

/-- The mask in force of a trim set. -/
def maskNow (g : Generation) (place : Nat) : BitVec 8 :=
  if place < 96 then g.masks[Fin.ofNat 96 place]
  else BitVec.ofNat 8 (fld g.chMasks[Fin.ofNat 64 ((place - 96) / 3)] (8 * (place % 3)) 8)

/-- A mask comes into force. -/
def setMask (place : Nat) (m : BitVec 8) (g : Generation) : Generation :=
  if place < 96 then { g with masks := g.masks.set (Fin.ofNat 96 place) m }
  else
    let n : Fin 64 := Fin.ofNat 64 ((place - 96) / 3)
    let lo := 8 * (place % 3)
    let old := g.chMasks[n].toNat
    { g with chMasks := g.chMasks.set n (BitVec.ofNat 24 (old - fld g.chMasks[n] lo 8 * 2 ^ lo + m.toNat * 2 ^ lo)) }

/-- The element whose toggle brings the set nearest its accepted value, ties to the lower number. -/
def toggleElement (t : Trim) (now : BitVec 8) : Option (Fin 8) :=
  let goal := maskSum t.parts t.mask.toNat
  let diff := now ^^^ t.mask
  let err (i : Fin 8) : Rat := absR (maskSum t.parts (now ^^^ BitVec.ofNat 8 (2 ^ i.val)).toNat - goal)
  ((allFin 8).filter fun i => diff.getLsbD i.val).foldl (fun best i => match best with
    | none => some i
    | some b => if err i < err b then some i else some b) none

/-- One toggle of a trim set. -/
def toggleTrim (t : Trim) (g : Generation) : Generation :=
  let now := maskNow g t.place
  match toggleElement t now with
  | some i => setMask t.place (now ^^^ BitVec.ofNat 8 (2 ^ i.val)) g
  | none => g

/-- The sensor group whose slope window a toggle restarts (R438): TD trims the die, TS trims the light engine. -/
def slopeGroups (ts : List Trim) (g : Generation) : Bool × Bool :=
  let moving := ts.filter fun t => maskNow g t.place != t.mask
  (moving.any fun t => decide (8 ≤ t.place ∧ t.place < 32), moving.any fun t => decide (32 ≤ t.place ∧ t.place < 64))

/-- The non-mask values take effect (R437). -/
def setValues (r : CalResult) (g : Generation) : Generation :=
  let g1 := match r.chan with
    | some (n, phi, sl) => { g with phi := g.phi.set n phi, slope := g.slope.set n sl }
    | none => g
  match r.gains with
  | some (h, k) => { g1 with k := (g1.k.set (limitIdx h 0) k[0]).set (limitIdx h 1) k[1] |>.set (limitIdx h 2) k[2] }
  | none => g1

/-- CAL_APPLIED's payload. -/
def appliedWord (a : Applying) : Nat := pack [(0, 4, a.item), (8, 6, a.index)]

/-- One LATCH of one application: toggles at L0 and every fourth LATCH to L0 + 28; at L0 + 64 the other values take effect. -/
def applyOne (a : Applying) (s : State) : State :=
  if 64 ≤ a.latch then
    onCal (fun c => { c with live := setValues a.result (a.result.trims.foldl (fun g t => setMask t.place t.mask g) c.live) }) s
  else if a.latch % 4 = 0 && a.latch ≤ 28 then
    let w := slopeGroups a.result.trims s.cal.live
    let s1 := (if w.1 then restartWindow 0 else id) ((if w.2 then restartWindow 1 else id) s)
    onCal (fun c => { c with live := a.result.trims.foldl (fun g t => toggleTrim t g) c.live }) s1
  else s

/-- One LATCH of every application; the list holds those that have ended, which raise CAL_APPLIED. FULL goes on with its
channels after its REFERENCE part; the word is that of a CAL_DONE that is owed. -/
def applyLatch (s : State) : State × List Applying × Option Nat :=
  let done := s.cal.applying.filter fun a => decide (64 ≤ a.latch)
  let s1 := forEach s.cal.applying applyOne s
  let s2 := onCal (fun c => { c with applying :=
    (c.applying.filter fun a => decide (a.latch < 64)).map fun a => { a with latch := a.latch + 1 } }) s1
  match s.cal.running with
  | some (15, _) =>
    if done.any (fun a => a.item == 0) then
      let x := nextPartWord s2
      (x.1, done, x.2)
    else (s2, done, none)
  | _ => (s2, done, none)

/-- R438: the loops of a head are frozen while trims of its channels step, from L0 on. -/
def calFreezes (s : State) (h : Head) : Bool :=
  s.cal.applying.any fun a => decide (1 ≤ a.latch) && (a.item == 0 || (a.result.trims.any fun t => decide (t.place < 96) ||
    s.cfg.chans[Fin.ofNat 64 ((t.place - 96) / 3)].st.head == h))

/-- R438: a channel whose trim steps in the tick that the next LATCH begins takes no drift check in it. -/
def calSteps (s : State) (n : Chan) : Bool :=
  (((s.cal.applying.filter fun a => decide (a.latch < 64)).map fun a => a.result.trims).flatten).any fun t => decide (96 ≤ t.place) && (t.place - 96) / 3 == n.val

/-- R436: an item is aborted when the enable of an affected channel or SHOW on a dark head takes effect, or the safe state is
entered. -/
def calWatch (s : State) : State :=
  match s.cal.running with
  | some (item, index) =>
    if item != 2 && (calChans item index).any (chanRuns s) then markAbort 1 s
    else if item != 2 && (calDark s item index).any (winShown s) then markAbort 5 s
    else if inSafe s then markAbort 6 s
    else s
  | none => s

end Sys2Proof.Machine
end

