-- ==== Sys2Proof/Machine/Compose.lean ====
section
/-! DEFINITION. The compositor (02): surface formats, tile compression, conversion to codes, scaling, tables, blending. A pixel
is four numbers, red, green, blue and alpha. -/

namespace Sys2Proof.Machine

/-- The four components of a pixel. -/
abbrev Pixel := Vector Nat 4

/-- Host memory as it reads in the present tick: the device's own stores apart, it is the host's (log entry 6). -/
def hostRead (s : State) (a : Nat) : Byte := Config.hostByte s.clk.tick a

/-- A little-endian word of host memory. -/
def hostWord (rd : Nat → Byte) (a n : Nat) : Nat := leNat ((List.range n).map fun i => rd (a + i))

/-! ## Codes (R64) -/

/-- An 8-bit, a 10-bit and a 2-bit component. -/
def code8 (c : Nat) : Nat := c * 257
def code10 (c : Nat) : Nat := c * 64 + c / 16
def code2 (a : Nat) : Nat := a * 0x5555

/-- A binary16 value clamped to [0, 1], NaN taken as 0. -/
def codeHalf (w : Nat) : Nat :=
  let m := w % 1024
  let e := w / 1024 % 32
  if w / 32768 % 2 = 1 then 0
  else if e = 31 then (if m = 0 then 65535 else 0)
  else
    let mant := if e = 0 then m else 1024 + m
    min 65535 ((mant * 65535 * 2 ^ max e 1 + 2 ^ 24) / 2 ^ 25)

/-- A 32-bit word of format 0 or 1 (R53). -/
def pixelWord (format w : Nat) : Pixel :=
  if format = 1 then #v[code10 (w / 2 ^ 20 % 1024), code10 (w / 1024 % 1024), code10 (w % 1024), code2 (w / 2 ^ 30 % 4)]
  else #v[code8 (w / 65536 % 256), code8 (w / 256 % 256), code8 (w % 256), code8 (w / 2 ^ 24 % 256)]

/-! ## Gorolane tile compression (R55 to R60) -/

/-- Tiles across and down. -/
def tilesX (v : LayerSh) : Nat := divUp v.surfW 16
def tilesY (v : LayerSh) : Nat := divUp v.surfH 8

/-- The address of a tile's header. -/
def tileHeader (v : LayerSh) (tx ty : Nat) : Nat := v.base1 + ty * (64 * v.pitch1) + 8 * tx

/-- The width of a channel: B, G, R, A. -/
def chanWidth (format ch : Nat) : Nat := if format = 1 then (if ch = 3 then 2 else 10) else 8

/-- A residual from its zig-zag form. -/
def unzig (z : Nat) : Int := if z % 2 = 1 then -(((z + 1) / 2 : Nat) : Int) else ((z / 2 : Nat) : Int)

/-- The space of the payload plane: 512 bytes for each tile that PITCH1 and the surface's height give (log entry 38). -/
def payloadSpace (v : LayerSh) : Nat := 8 * v.pitch1 * tilesY v * 512

/-- The word of one pixel of a delta-predicted tile: the width codes and the residual stream as numbers. -/
def deltaPixel (format widths stream x y : Nat) : Nat :=
  let code (r c : Nat) : Nat := widths / 16 ^ (4 * r + c) % 16
  let start (r c : Nat) : Nat := 16 * sumOf (List.range (4 * r + c)) fun k => widths / 16 ^ k % 16
  let res (r c i : Nat) : Int := unzig (stream / 2 ^ (start r c + code r c * i) % 2 ^ code r c)
  let val (c : Nat) : Nat :=
    twos (chanWidth format c) (((List.range (y + 1)).map fun r => res r c 0).sum + ((List.range x).map fun i => res y c (i + 1)).sum)
  if format = 1 then val 0 + val 1 * 2 ^ 10 + val 2 * 2 ^ 20 + val 3 * 2 ^ 30
  else val 0 + val 1 * 2 ^ 8 + val 2 * 2 ^ 16 + val 3 * 2 ^ 24

/-- A tile's 128 pixel words, row by row, or none for a malformed tile (R60). -/
def tilePixels (rd : Nat → Byte) (v : LayerSh) (tx ty : Nat) : Option (List Nat) :=
  let h := hostWord rd (tileHeader v tx ty) 8
  let mode := h % 4
  let len := h / 4 % 32
  let arg := h / 256 % 2 ^ 32
  let a := v.base0 + 64 * arg
  let fits := decide (64 * arg + 32 * len ≤ payloadSpace v)
  if h / 128 % 2 = 1 || h / 2 ^ 40 ≠ 0 then none
  else match mode with
    | 0 => if len == 16 && fits then some ((List.range 128).map fun i => hostWord rd (a + 4 * i) 4) else none
    | 1 => if len = 0 then some (List.replicate 128 arg) else none
    | 2 =>
      let widths := hostWord rd a 16
      let need := 16 * sumOf (List.range 32) fun k => widths / 16 ^ k % 16
      if decide (1 ≤ len) && decide (len ≤ 16) && fits && decide (need ≤ 8 * (32 * len - 16)) &&
          (List.range 32).all fun k => decide (widths / 16 ^ k % 16 ≤ chanWidth v.format (k % 4)) then
        let stream := hostWord rd (a + 16) (32 * len - 16)
        some ((List.range 128).map fun i => deltaPixel v.format widths stream (i % 16) (i / 16))
      else none
    | _ => none

/-- The pixel of a compressed surface; a malformed tile gives transparent black. -/
def gtcPixel (rd : Nat → Byte) (v : LayerSh) (x y : Nat) : Pixel :=
  match tilePixels rd v (x / 16) (y / 8) with
  | some ps => pixelWord v.format (ps.getD (16 * (y % 8) + x % 16) 0)
  | none => #v[0, 0, 0, 0]

/-! ## YCbCr (R62, R63) -/

/-- The two chroma positions of a luma position with weights in quarters: co-sited, or midway. `last` is the last sample. -/
def chromaTaps (midway : Bool) (last x : Nat) : List (Nat × Nat) :=
  let i := min (x / 2) last
  if midway then [(i, 3), (if x % 2 = 0 then i - 1 else min (i + 1) last, 1)]
  else if x % 2 = 0 then [(i, 4)] else [(i, 2), (min (i + 1) last, 2)]

/-- An up-sampled chroma sample in sixteenths; `which` is 0 for Cb and 1 for Cr. -/
def chromaAt (rd : Nat → Byte) (v : LayerSh) (which x y : Nat) : Nat :=
  let xs := chromaTaps v.chroma (divUp v.surfW 2 - 1) x
  let ys := if v.format = 3 then chromaTaps true (divUp v.surfH 2 - 1) y else [(y, 4)]
  sumOf ys fun p => p.2 * sumOf xs fun q => q.2 * (hostWord rd (v.base1 + p.1 * (64 * v.pitch1) + 4 * q.1 + 2 * which) 2 / 64)

/-- Kr and Kb. -/
def yccK (matrix : Nat) : Rat × Rat :=
  match matrix with
  | 0 => (299 / 1000, 114 / 1000)
  | 1 => (2126 / 10000, 722 / 10000)
  | _ => (2627 / 10000, 593 / 10000)

/-- The exact R, G and B of R63, clamped to [0, 1]; chroma in sixteenths. -/
def yccExact (matrix : Nat) (full : Bool) (y cb cr : Nat) : Vector Rat 3 :=
  let k := yccK matrix
  let y' : Rat := if full then (y : Rat) / 1023 else ((y : Rat) - 64) / 876
  let c' (c : Nat) : Rat := ((c : Rat) / 16 - 512) / (if full then 1023 else 896)
  let r := y' + 2 * (1 - k.1) * c' cr
  let b := y' + 2 * (1 - k.2) * c' cb
  let g := (y' - k.1 * r - k.2 * b) / (1 - k.1 - k.2)
  #v[ratClamp 0 1 r, ratClamp 0 1 g, ratClamp 0 1 b]

/-- A code within ±1 of the exact value (R63; log entry 37). -/
def yccCode (key : List Nat) (v : Rat) : Nat :=
  let lo := max 0 (v * 65535 - 1).ceil
  let hi := min 65535 (v * 65535 + 1).floor
  (lo + ((Config.yccPick key : Nat) : Int) % (hi - lo + 1)).toNat

/-- A pixel of a YCbCr surface; its alpha is 1.0. -/
def yccPixel (rd : Nat → Byte) (v : LayerSh) (x y : Nat) : Pixel :=
  let l := hostWord rd (v.base0 + y * (64 * v.pitch0) + 2 * x) 2 / 64
  let cb := chromaAt rd v 0 x y
  let cr := chromaAt rd v 1 x y
  let e := yccExact v.yccMatrix v.yccRange l cb cr
  let u (i : Fin 3) : Nat := yccCode [v.yccMatrix, v.yccRange.toNat, l, cb, cr, i.val] e[i]
  #v[u 0, u 1, u 2, 65535]

/-- The codes of a source pixel (R61, steps 1 to 4). -/
def sourcePixel (rd : Nat → Byte) (palette : List Nat) (v : LayerSh) (x y : Nat) : Pixel :=
  let at0 (n : Nat) : Nat := hostWord rd (v.base0 + y * (64 * v.pitch0) + n * x) n
  if v.gtc then gtcPixel rd v x y
  else match v.format with
    | 0 => pixelWord 0 (at0 4)
    | 1 => pixelWord 1 (at0 4)
    | 2 => Vector.ofFn fun i => codeHalf (at0 8 / 65536 ^ i.val % 65536)
    | 5 => pixelWord 0 (palette.getD (at0 1) 0)
    | _ => yccPixel rd v x y

/-! ## Scaling (R67 to R73) -/

/-- A source position on one axis in units of 2⁻²⁰ px; `q` shifts it by q quarters of a destination step (R68, R70). The
shifted position is rounded once, from the exact sum (log entry 81). -/
def sourcePos (src0 srcN dstN xd : Nat) (q : Int) : Int :=
  (src0 : Int) * 1048576 - 524288 + roundDiv ((4 * (xd : Int) + 2 + q) * srcN * 1048576) (4 * (dstN : Int))

/-- The phase of a position. -/
def phaseOf (p : Int) : Nat := (p % 1048576).toNat / 16384

/-- The taps of a phase: linear interpolation at reset (R73), or the loaded ones. -/
def tapsOf (c : Coeffs) (vertical : Bool) (p : Nat) : List Int :=
  let n := if vertical then 6 else 8
  let first := if vertical then 2 else 3
  match c with
  | .linear => (List.range n).map fun k => if k = first then 16384 - 256 * (p : Int) else if k = first + 1 then 256 * (p : Int) else 0
  | .table ts => (ts.drop (n * p)).take n

/-- One stage of a polyphase filter: rounded and clamped. -/
def filterStage (taps : List Int) (xs : List Nat) : Nat :=
  (intClamp 0 65535 (roundDiv (dot taps (xs.map fun (x : Nat) => ((x : Nat) : Int))) 16384)).toNat

/-- A source index held inside the rectangle. -/
def heldIn (lo n : Nat) (i : Int) : Nat := (intClamp lo ((lo : Int) + n - 1) i).toNat

/-- One component of a single-pass polyphase evaluation at a position (R69). -/
def polyphase (ch cv : Coeffs) (v : LayerSh) (px : Nat → Nat → Nat) (xs ys : Int) : Nat :=
  let th := tapsOf ch false (phaseOf xs)
  let tv := tapsOf cv true (phaseOf ys)
  let cols := (List.range 8).map fun (k : Nat) => heldIn v.srcX v.srcW (xs / 1048576 - 3 + (k : Int))
  let rows := (List.range 6).map fun (k : Nat) => heldIn v.srcY v.srcH (ys / 1048576 - 2 + (k : Int))
  if v.dstW ≤ v.srcW then filterStage tv (rows.map fun y => filterStage th (cols.map fun x => px x y))
  else filterStage th (cols.map fun x => filterStage tv (rows.map fun y => px x y))

/-- The source positions and weights of one axis of V4 to V7 (R72), with the sum of the weights. -/
def axisTaps (src0 srcN dstN xd : Nat) : List (Nat × Nat) × Nat :=
  if srcN = dstN then ([(src0 + xd, 1)], 1)
  else if dstN < srcN then
    let n := srcN / dstN
    ((List.range n).map fun i => (src0 + n * xd + i, 1), n)
  else
    let p := sourcePos src0 srcN dstN xd 0
    ([(heldIn src0 srcN (p / 1048576), 64 - phaseOf p), (heldIn src0 srcN (p / 1048576 + 1), phaseOf p)], 64)

/-- One component of a layer's pixel (xd, yd) of the destination. The mean over both axes is rounded once (log entry 39). -/
def scaledPart (s : State) (k : Layer) (l : LayerCfg) (px : Nat → Nat → Nat) (xd yd : Nat) : Nat :=
  let v := l.sh
  if 8 ≤ k.val then px (v.srcX + xd) (v.srcY + yd)
  else if 4 ≤ k.val then
    let ax := axisTaps v.srcX v.srcW v.dstW xd
    let ay := axisTaps v.srcY v.srcH v.dstH yd
    divRound (sumOf ay.1 fun p => p.2 * sumOf ax.1 fun q => q.2 * px q.1 p.1) (ax.2 * ay.2)
  else
    let k4 : Fin 4 := Fin.ofNat 4 k.val
    let one (q : Int) : Nat :=
      polyphase s.cfg.coeffs[coeffIdx k4 (Fin.ofNat 4 v.coeffH) false] s.cfg.coeffs[coeffIdx k4 (Fin.ofNat 4 v.coeffV) true] v px
        (sourcePos v.srcX v.srcW v.dstW xd q) (sourcePos v.srcY v.srcH v.dstH yd q)
    if l.twoPass then divRound (one 1 + one (-1)) 2 else one 0

/-! ## Tables (R65, R80) -/

/-- Interpolation in a table of n entries whose step is `step`, with the virtual last entry. -/
def tableAt (t : List Nat) (n step x : Nat) : Nat :=
  let e (i : Nat) : Int :=
    if i < n then ((t.getD i 0 : Nat) : Int)
    else intClamp 0 0xFFFFFF (2 * ((t.getD (n - 1) 0 : Nat) : Int) - ((t.getD (n - 2) 0 : Nat) : Int))
  (e (x / step) + roundDiv ((e (x / step + 1) - e (x / step)) * ((x % step : Nat) : Int)) (step : Int)).toNat

/-- A table's part for a colour. -/
def Lut.part (t : Lut) (c : Fin 3) : Option (List Nat) :=
  match t with
  | .identity => none
  | .table r g b => some (match c with
    | 0 => r
    | 1 => g
    | 2 => b)

/-- The 24-bit word of a 16-bit code. -/
def wide (u : Nat) : Nat := u * 256 + u / 256

/-- The pre-blend table of a layer (R65). -/
def preBlend (l : LayerCfg) (c : Fin 3) (u : Nat) : Nat :=
  if l.sh.lutBypass then wide u
  else match l.pre.part c with
    | some t => tableAt t 1024 64 u
    | none => wide u

/-- The post-blend table of the canvas (R80). -/
def postBlend (v : CanvasCfg) (c : Fin 3) (x : Nat) : Nat :=
  if v.postBypass then x
  else match v.post.part c with
    | some t => tableAt t 4096 4096 x
    | none => x

/-! ## Blend (R76, R77) -/

/-- mul of R77. -/
def mul24 (x y : Nat) : Nat := (x * y + 0x7FFFFF) / 0xFFFFFF

/-- One layer over the accumulator. -/
def blendOne (alphaMode galpha a24 c acc : Nat) : Nat :=
  let ga := wide galpha
  let a := if alphaMode = 2 then ga else mul24 a24 ga
  let cs := if alphaMode = 0 then mul24 c a else mul24 c ga
  min (cs + mul24 acc (0xFFFFFF - a)) 0xFFFFFF

/-- The host layers from the bottom to the top. -/
def bottomUp (c : Cfg) : List Layer :=
  if c.progOrder then (c.slots.toList.map fun k => Fin.ofNat 24 k).reverse else allFin 24

/-- A layer contributes to a canvas pixel: enabled, not dropped, not failed above this line, its rectangle covers the pixel. -/
def covers (s : State) (k : Layer) (x y : Nat) : Bool :=
  let v := s.cfg.layers[k].sh
  layerCounts s.cfg k && (match s.comp.errLine[k] with
    | some l => decide (y < l)
    | none => true) &&
  decide (v.dstX ≤ x) && decide ((x : Int) < v.dstX + v.dstW) && decide (v.dstY ≤ y) && decide ((y : Int) < v.dstY + v.dstH)

/-- The pixel of a layer at a canvas pixel: three 24-bit words and the 24-bit alpha. -/
def layerPixel (s : State) (k : Layer) (x y : Nat) : Pixel :=
  let l := s.cfg.layers[k]
  let src (i : Fin 4) (a b : Nat) : Nat := (sourcePixel (hostRead s) l.palette l.sh a b)[i]
  let u (i : Fin 4) : Nat := scaledPart s k l (src i) (x - l.sh.dstX).toNat (y - l.sh.dstY).toNat
  #v[preBlend l 0 (u 0), preBlend l 1 (u 1), preBlend l 2 (u 2), wide (u 3)]

/-- A canvas pixel: the background, the layers above it, the post-blend table. -/
def canvasPixel (s : State) (x y : Nat) : BitVec 72 :=
  let acc := forEach (bottomUp s.cfg) (fun k (acc : Vector Nat 3) =>
    if covers s k x y then
      let p := layerPixel s k x y
      let v := s.cfg.layers[k].sh
      Vector.ofFn fun c => blendOne v.alphaMode v.galpha p[3] (p[c.val]!) acc[c]
    else acc) s.cfg.canvas.bg
  BitVec.ofNat 72 (pack ((allFin 3).map fun c => (24 * c.val, 24, postBlend s.cfg.canvas c acc[c])))

/-! ## The canvas store -/

/-- The canvas store's list: keys strictly rising, no zero listed. -/
def canvasPut : List (Nat × BitVec 72) → Nat → BitVec 72 → List (Nat × BitVec 72)
  | [], a, x => if x = 0 then [] else [(a, x)]
  | (b, v) :: r, a, x =>
    if a < b then (if x = 0 then (b, v) :: r else (a, x) :: (b, v) :: r)
    else if a = b then (if x = 0 then r else (a, x) :: r)
    else (b, v) :: canvasPut r a x

/-- A canvas pixel as stored; one that no build wrote reads 0 (log entry 7). -/
def canvasGet : List (Nat × BitVec 72) → Nat → BitVec 72
  | [], _ => 0
  | (b, v) :: r, a => if a = b then v else canvasGet r a

/-- The key of a canvas pixel. -/
def canvasKey (x y : Nat) : Nat := 8192 * y + x

/-! ## Lines and tiles that a build reads (R60, R81) -/

/-- The source rows that destination line yd needs: the first and the last. V0 to V3 take six rows at every ratio (R69). -/
def rowsOf (k : Layer) (l : LayerCfg) (yd : Nat) : Nat × Nat :=
  let v := l.sh
  let held (i : Int) : Nat := heldIn v.srcY v.srcH i
  if 8 ≤ k.val then (held ((v.srcY : Int) + yd), held ((v.srcY : Int) + yd))
  else if 4 ≤ k.val then
    let rows := (axisTaps v.srcY v.srcH v.dstH yd).1.map (·.1)
    (rows.foldl min (rows.headD 0), rows.foldl max 0)
  else
    let p (q : Int) : Int := sourcePos v.srcY v.srcH v.dstH yd q / 1048576
    if l.twoPass then (held (min (p 1) (p (-1)) - 2), held (max (p 1) (p (-1)) + 3)) else (held (p 0 - 2), held (p 0 + 3))

/-- The canvas lines of a layer, with their destination lines. -/
def layerLines (s : State) (k : Layer) : List (Nat × Nat) :=
  let v := s.cfg.layers[k].sh
  (List.range s.cfg.canvas.h).filterMap fun (y : Nat) =>
    let i : Int := (y : Int)
    if v.dstY ≤ i ∧ i < v.dstY + v.dstH then some (y, (i - v.dstY).toNat) else none

/-- The tile columns and the tile rows that the source rectangle of a layer meets. -/
def tileCols (v : LayerSh) : List Nat := (List.range (tilesX v)).filter fun tx => v.srcX / 16 ≤ tx ∧ 16 * tx < v.srcX + v.srcW
def tileRows (v : LayerSh) : List Nat := (List.range (tilesY v)).filter fun ty => v.srcY / 8 ≤ ty ∧ 8 * ty < v.srcY + v.srcH

/-- The payload of a tile as its header places it: address and bytes, none for a tile without payload. -/
def tilePayload (rd : Nat → Byte) (v : LayerSh) (tx ty : Nat) : Nat × Nat :=
  let h := hostWord rd (tileHeader v tx ty) 8
  (v.base0 + 64 * (h / 256 % 2 ^ 32), if h % 4 == 0 || h % 4 == 2 then 32 * (h / 4 % 32) else 0)

/-- The source rows that a failed read at an address of a plane concerns (R81): the row, the rows that a chroma row serves, or
the rows of the tile of the source rectangle whose header or payload it fetched, the smallest ty first. -/
def failedRows (s : State) (k : Layer) (plane : Bool) (a : Nat) : Option (Nat × Nat) :=
  let v := s.cfg.layers[k].sh
  if v.gtc then
    if plane then (if v.pitch1 = 0 then none else let ty := (a - v.base1) / (64 * v.pitch1); some (8 * ty, 8 * ty + 7))
    else
      let hit (ty : Nat) : Bool := (tileCols v).any fun tx =>
        let p := tilePayload (hostRead s) v tx ty
        decide (p.1 < a / 64 * 64 + 64) && decide (a / 64 * 64 < p.1 + p.2)
      ((tileRows v).find? hit).map fun ty => (8 * ty, 8 * ty + 7)
  else if plane then
    if v.pitch1 = 0 then none
    else
      let r := (a - v.base1) / (64 * v.pitch1)
      if v.format = 3 then some (2 * r - 1, 2 * r + 2) else some (r, r)
  else if v.pitch0 = 0 then none
  else let r := (a - v.base0) / (64 * v.pitch0); some (r, r)

/-- The first canvas line whose composition needs one of these source rows. -/
def firstLine (s : State) (k : Layer) (rows : Nat × Nat) : Option Nat :=
  ((layerLines s k).find? fun p =>
    let need := rowsOf k s.cfg.layers[k] p.2
    decide (need.1 ≤ rows.2) && decide (rows.1 ≤ need.2)).map (·.1)

/-- The canvas lines of a layer in a band, up to a line that a read error has reached. -/
def bandLines (s : State) (k : Layer) (y0 y1 : Nat) : List (Nat × Nat) :=
  let stop := match s.comp.errLine[k] with
    | some l => min l y1
    | none => y1
  (layerLines s k).filter fun p => decide (y0 ≤ p.1) && decide (p.1 < stop)

/-- The first source row that the canvas lines from `n` on need no more than those before it did. -/
def rowsEnd (s : State) (k : Layer) (n : Nat) : Nat :=
  maxOf ((layerLines s k).filter fun p => decide (p.1 < n)) fun p => (rowsOf k s.cfg.layers[k] p.2).2 + 1

/-- The source rows that the lines of a band need and no earlier line did: the first, and the one after the last. -/
def newRows (s : State) (k : Layer) (y0 y1 : Nat) : Nat × Nat :=
  let needs := (bandLines s k y0 y1).map fun p => rowsOf k s.cfg.layers[k] p.2
  match needs with
  | [] => (0, 0)
  | r :: _ => (max (rowsEnd s k y0) (needs.foldl (fun a p => min a p.1) r.1), needs.foldl (fun a p => max a (p.2 + 1)) 0)

/-- The tile rows that a band decodes: those of its new rows that no earlier line decoded. A tile row that no canvas line needs is not
decoded (log entry 78). -/
def newTileRows (s : State) (k : Layer) (y0 y1 : Nat) : List Nat :=
  let r := newRows s k y0 y1
  let first := max (divUp (rowsEnd s k y0) 8) (r.1 / 8)
  if r.2 ≤ r.1 then [] else (List.range (divUp r.2 8 - first)).map (first + ·)

/-- The malformed tiles that a band decodes for a layer (R60), in order; those past a read error are not decoded. -/
def malformedIn (s : State) (k : Layer) (y0 y1 : Nat) : List (Nat × Nat) :=
  let v := s.cfg.layers[k].sh
  if !(layerCounts s.cfg k && v.gtc) then []
  else ((newTileRows s k y0 y1).map fun ty => (tileCols v).filterMap fun tx =>
    if (tilePixels (hostRead s) v tx ty).isNone then some (tx, ty) else none).flatten

/-! ## Surface reads (R354) -/

/-- The 64-byte lines of a range of bytes. -/
def cacheLines (a n : Nat) : List Nat := if n = 0 then [] else (List.range ((a + n - 1) / 64 + 1 - a / 64)).map (a / 64 + ·)

/-- The bytes of a source pixel in plane 0. -/
def pixelBytes (format : Nat) : Nat :=
  match format with
  | 0 | 1 => 4
  | 2 => 8
  | 5 => 1
  | _ => 2

/-- The lines of an uncompressed surface that hold rows lo to hi − 1 of its source rectangle, chroma included. -/
def plainLines (v : LayerSh) (lo hi : Nat) : List Nat :=
  let n := pixelBytes v.format
  let rows := (List.range (hi - lo)).map (lo + ·)
  let luma := (rows.map fun r => cacheLines (v.base0 + r * (64 * v.pitch0) + n * v.srcX) (n * v.srcW)).flatten
  if v.format = 3 || v.format = 4 then
    let last := divUp v.surfW 2 - 1
    let c0 := v.srcX / 2 - 1
    let c1 := min last ((v.srcX + v.srcW) / 2)
    let crows := if v.format = 3 then
      let r0 := lo / 2 - 1
      (List.range (min (divUp v.surfH 2) (hi / 2 + 1) - r0)).map (r0 + ·) else rows
    luma ++ (crows.map fun r => cacheLines (v.base1 + r * (64 * v.pitch1) + 4 * c0) (4 * (c1 + 1 - c0))).flatten
  else luma

/-- The lines of a compressed surface that hold the headers and the payloads of tile rows. -/
def gtcLines (s : State) (v : LayerSh) (rows : List Nat) : List Nat :=
  (rows.map fun ty =>
    let cols := tileCols v
    cacheLines (tileHeader v (cols.headD 0) ty) (8 * cols.length) ++
      (cols.map fun tx => let p := tilePayload (hostRead s) v tx ty; cacheLines p.1 p.2).flatten).flatten

/-- The lines that a band reads for a layer; a layer in two passes is read twice (R39). -/
def surfaceLines (s : State) (k : Layer) (y0 y1 : Nat) : List Nat :=
  if !layerCounts s.cfg k then []
  else
    let l := s.cfg.layers[k]
    let r := newRows s k y0 y1
    let once := if l.sh.gtc then gtcLines s l.sh (newTileRows s k y0 y1) else plainLines l.sh r.1 r.2
    if l.twoPass then once ++ once else once

end Sys2Proof.Machine
end

