-- ==== Sys2Proof/Machine/UpdateCmds.lean ====
section
/-! DEFINITION. Firmware update (16): the boot record, flash jobs, sessions, blocks in transit, verification, activation, and
the commands UPDATE_OPEN to UPDATE_PREEMPT. -/

namespace Sys2Proof.Machine

/-! ## The boot record and flash jobs (R463, R465) -/

/-- The staging slot: the one that is not ACTIVE. -/
def stagingOf (r : BootRecord) : Fin 2 := if r.active then 0 else 1
def activeOf (r : BootRecord) : Fin 2 := if r.active then 1 else 0

/-- The settings copy in force: that of the active slot. -/
def copyOf (r : BootRecord) : Fin 2 := if r.set[activeOf r] then 1 else 0

/-- A record appended to the copy that does not hold the current one; a copy with fewer than 8 of its 32 entries free is erased
once the other copy holds the current record. -/
def appendRecord (r : BootRecord) (f : Flash) : Flash :=
  let dst : Fin 2 := if f.current then 0 else 1
  let src : Fin 2 := if f.current then 1 else 0
  let used := f.copyUsed.set dst (f.copyUsed[dst] + 1)
  { f with record := { r with seq := f.record.seq + 1 }, current := !f.current
           copyUsed := if 24 < used[src] then used.set src 0 else used }

/-- Where the flash holds a slot and a settings copy (R462). -/
def slotBase (i : Fin 2) : Nat := if i = 0 then 0x100000 else 0x300000
def copyBase (i : Fin 2) : Nat := if i = 0 then 0x10000 else 0x30000

/-- A boot record as an entry of its log (R463). -/
def recordBytes (r : BootRecord) : List Byte :=
  let body := toBytes 4 0x52425247 ++ toBytes 4 r.seq.toNat ++ [BitVec.ofBool r.active |>.setWidth 8] ++
    toBytes 1 r.state[0] ++ toBytes 1 r.state[1] ++ toBytes 1 r.trials ++ toBytes 1 r.set[0].toNat ++ toBytes 1 r.set[1].toNat ++
    toBytes 1 (r.migDone.toNat + 2 * r.resetReq.toNat + 4 * r.pkg.toNat) ++ toBytes 1 r.revert ++
    toBytes 24 r.ids[0].toNat ++ toBytes 24 r.ids[1].toNat ++ List.replicate 60 0
  body ++ toBytes 4 (crc32c body)

/-- A record is written, and the other copy erased where it must be. -/
def writeRecord (r : BootRecord) (s : State) : State :=
  let f := s.flash
  let dst : Fin 2 := if f.current then 0 else 1
  let src : Fin 2 := if f.current then 1 else 0
  let s1 := onFlash (appendRecord r) s
  let s2 := emit (.flashWrite (4096 * dst.val + 128 * f.copyUsed[dst]) (recordBytes s1.flash.record)) s1
  if 24 < f.copyUsed[src] then emit (.flashErase (4096 * src.val) 4096) s2 else s2

/-- The record as it will stand when the jobs that wait are done. -/
def nextRecord (s : State) : BootRecord :=
  s.flash.jobs.foldl (fun r j => match j.work with
    | .record x => x
    | _ => r) s.flash.record

/-- A slot's state in a record. -/
def withState (slot : Fin 2) (st : Nat) (r : BootRecord) : BootRecord := { r with state := r.state.set slot st }

/-- A job without consequences. -/
def plainJob (w : FlashWork) : FlashJob := { work := w, sess := none, tell := none, answer := none, up := none, reset := false }

def addJob (j : FlashJob) (s : State) : State := onFlash (fun f => { f with jobs := f.jobs ++ [j] }) s

/-! ## Sessions (R464, R465) -/

/-- UPDATE_STATE's payload (R479). -/
def updateStateWord (cause : Nat) (s : State) : Nat :=
  let ses : Nat × Bool := match s.upd.session with
    | some x => (x.state, x.chain)
    | none => (0, false)
  pack [(0, 2, ses.1), (2, 1, ses.2.toNat), (3, 3, s.flash.record.state[0]), (6, 3, s.flash.record.state[1]), (12, 4, cause)]

def tellUpdate (cause : Nat) (s : State) : State := raise srcUpdate evUpdateState (updateStateWord cause s) s

/-- UPDATE_CHAIN_FAIL's payload (R479). -/
def chainFailWord (addr cause : Nat) (status : BitVec 16) : Nat := pack [(0, 9, addr), (9, 3, cause), (16, 16, status.toNat)]

/-- Blocks of an image (R461). -/
def blockCount (length : Nat) : Nat := divUp length 65536
def blockLength (length b : Nat) : Nat := min 65536 (length - 65536 * b)

/-- What UPDATE_OPEN or its UPD_CTRL names. -/
structure OpenReq where
  scope : Bool
  pkg   : Bool
  reset : Bool
  length : Nat
  schema : BitVec 16
  fw    : BitVec 16
  id    : BitVec 192

def openOf (p : BitVec 384) : OpenReq :=
  { scope := bit p 0, pkg := bit p 1, reset := bit p 2, length := fld p 32 32, schema := BitVec.ofNat 16 (fld p 64 16)
    fw := BitVec.ofNat 16 (fld p 80 16), id := BitVec.ofNat 192 (fld p 192 192) }

/-- LENGTH under R460. -/
def lengthOk (pkg : Bool) (n : Nat) : Bool :=
  n % 64 == 0 && decide (1024 ≤ n) && decide (n ≤ if pkg then 65536 else 1835008)

/-- R468: the settings copy in force holds a schema above the image's. -/
def schemaNewer (s : State) (schema : BitVec 16) (reset : Bool) : Bool :=
  !reset && decide (schema.toNat < (s.flash.schemaOf[copyOf s.flash.record]).toNat)

/-- How an open ends: refused, a join, a resumption in a state, or a new session in a state. -/
inductive Opening where
  | refused (st : BitVec 16)
  | joined
  | resumed (state : Nat)
  | fresh (state : Nat)

/-- R464, R465. -/
def openHow (chain : Bool) (r : OpenReq) (s : State) : Opening :=
  let newer := !r.pkg && schemaNewer s r.schema r.reset
  let rec0 := nextRecord s
  let slot := stagingOf rec0
  let start : Opening :=
    if rec0.ids[slot] = r.id && rec0.state[slot] = 2 then .fresh 3
    else if rec0.ids[slot] = r.id && rec0.state[slot] = 1 then .fresh 2 else .fresh 1
  match s.upd.session with
  | some x =>
    if x.chain == chain then
      (if newer then .refused stSchemaNewer else if x.id = r.id then .resumed x.state else start)
    else if x.id = r.id && x.length == r.length then (if newer then .refused stSchemaNewer else .joined)
    else .refused stSessionBusy
  | none => if newer then .refused stSchemaNewer else start

/-- A new session. -/
def newSession (chain : Bool) (r : OpenReq) (state : Nat) (s : State) : State :=
  onUpd (fun u => { u with
    session := some { state := state, chain := chain, joined := false, scope := r.scope && !chain, pkg := r.pkg
                      resetSettings := r.reset, length := r.length, schema := r.schema, fw := r.fw, id := r.id
                      stored := if state = 1 then 0 else BitVec.ofNat 28 (2 ^ blockCount r.length - 1), last := s.clk.now }
    opened := [], failed := [], transit := [], held := none, armed := none, verifyDue := false }) s

/-- The session sees activity. -/
def touch (s : State) : State :=
  onUpd (fun u => { u with session := u.session.map fun x => { x with last := s.clk.now } }) s

/-- The record with the staging slot EMPTY. -/
def emptied (s : State) : BootRecord :=
  let r := nextRecord s
  { withState (stagingOf r) 0 r with ids := r.ids.set (stagingOf r) 0 }

/-- The effect of an open that is not refused; a new OPEN session appends EMPTY and then erases the slot, the append carrying
the consequences `j`. -/
def openEffect (chain : Bool) (r : OpenReq) (how : Opening) (j : FlashJob) (s : State) : State :=
  match how with
  | .refused _ => s
  | .joined => onUpd (fun u => { u with session := u.session.map fun x => { x with joined := true, last := s.clk.now } }) s
  | .resumed _ => touch s
  | .fresh st =>
    if st = 1 then
      addJob (plainJob .erase) (addJob { j with work := .record (emptied s), tell := some 0 } (newSession chain r 1 s))
    else tellUpdate 0 (newSession chain r st s)

/-- The answer bits of an open for one device: JOINED and the state at which it resumed. -/
def openBits (how : Opening) : Nat :=
  match how with
  | .joined => 2 ^ 40
  | .resumed st => st * 2 ^ 41
  | .fresh st => if st = 1 then 0 else st * 2 ^ 41
  | .refused _ => 0

/-- An open that must wait for its record. -/
def opensFresh (how : Opening) : Bool :=
  match how with
  | .fresh 1 => true
  | _ => false

/-! ## The chain side -/

/-- The head device of an enumerated chain. -/
def enumeratedHead (s : State) : Bool := s.boot.straps.chainRole && s.cw.addr == 0 && s.cw.len != 0

/-- A downstream device stands behind CW_D. -/
def hasDown (s : State) : Bool := decide (s.cw.addr + 1 < s.cw.len) && s.cw.down.state == 2 && !s.cw.cutDown

/-- The addresses of the followers. -/
def followers (s : State) : List Nat := (List.range s.cw.len).drop 1

/-- The payload's six words (R447). -/
def payloadWords (p : BitVec 384) : List (BitVec 64) := (List.range 6).map fun i => BitVec.ofNat 64 (fld p (64 * i) 64)

/-- UPD_CTRL to every follower. -/
def sendCtrl (op : Nat) (p : BitVec 384) (s : State) : State :=
  if s.cw.down.state == 2 && !s.cw.cutDown then cwEmit .down 0x33 0x1FF true (BitVec.ofNat 9 s.cw.addr) (BitVec.ofNat 21 op)
    (payloadWords p) s else s

/-- UPD_RESP to the head device. -/
def sendResp (op : Nat) (st : BitVec 16) (result : Nat) (s : State) : State :=
  cwSend .up 0x34 0 op [BitVec.ofNat 64 (pack [(0, 16, st.toNat), (16, 48, result)])] s

/-- The participants of the chain session that have not failed. -/
def participants (s : State) : List Nat := s.upd.opened.filter fun a => !s.upd.failed.contains a

/-- Every device that a chain command waits for has answered or failed. -/
def allAnswered (s : State) (w : ChainWait) : Bool :=
  w.expect.all fun a => s.upd.failed.contains a || w.answers.any fun x => x.1 == a

def okAnswers (w : ChainWait) : List (Nat × BitVec 16 × Nat) := w.answers.filter fun x => x.2.1 == stOk
def badAnswers (w : ChainWait) : List (Nat × BitVec 16 × Nat) := w.answers.filter fun x => x.2.1 != stOk

/-- The answer with the lowest address. -/
def lowestAnswer (l : List (Nat × BitVec 16 × Nat)) : Option (Nat × BitVec 16 × Nat) :=
  l.foldl (fun a x => match a with
    | none => some x
    | some y => if x.1 < y.1 then some x else some y) none

def lowestOf (l : List Nat) : Option Nat :=
  l.foldl (fun a x => match a with
    | none => some x
    | some y => some (min x y)) none

/-- The command of a chain session completes (R464, R467, R469). -/
def chainDone (w : ChainWait) (own : BitVec 16 × Nat) (s : State) : State :=
  let s0 := onUpd (fun u => { u with wait := none }) s
  let ok := okAnswers w
  let bad := badAnswers w
  let first := lowestAnswer bad
  match w.op with
  | 0 =>
    let joins := (ok.filter fun x => bit (BitVec.ofNat 48 x.2.2) 40).length
    let word := pack [(0, 10, ok.length - joins + if own.2 / 2 ^ 40 % 2 = 1 then 0 else 1),
      (10, 10, joins + own.2 / 2 ^ 40 % 2), (20, 10, bad.length), (30, 9, (first.map (·.1)).getD 0)] + own.2 / 2 ^ 40 * 2 ^ 40
    let s1 := onUpd (fun u => { u with opened := ok.map (·.1) }) s0
    let s2 := forEach bad (fun x s => raise srcUpdate evUpdateChainFail (chainFailWord x.1 0 x.2.1) s) s1
    finish 1 own.1 word s2
  | 1 =>
    let gone := (if own.1 == stOk then [] else [0]) ++ bad.map (·.1) ++ s.upd.failed
    let word := pack [(0, 10, ok.length + (own.1 == stOk).toNat), (10, 9, (lowestOf gone).getD 0), (19, 1, (!gone.isEmpty).toNat)]
      + own.2 / 2 ^ 20 % 16 * 2 ^ 20
    let s1 := match first with
      | some x => raise srcUpdate evUpdateChainFail (chainFailWord x.1 3 x.2.1) s0
      | none => s0
    finish 1 own.1 word s1
  | _ =>
    match first with
    | some x =>
      let s1 := sendCtrl 4 0 (onUpd (fun u => { u with armed := none }) s0)
      finish 1 x.2.1 (pack [(0, 10, 0), (10, 9, x.1)]) (raise srcUpdate evUpdateChainFail (chainFailWord x.1 4 x.2.1) s1)
    | none => finish 1 own.1 (pack [(0, 10, ok.length + 1)]) s0

/-- The waiting command completes once this device and every participant have answered. -/
def tryChain (s : State) : State :=
  match s.upd.wait with
  | some w =>
    match w.own with
    | some own => if allAnswered s w then chainDone w own s else s
    | none => s
  | none => s

/-- This device's own part of a Q1 command has ended. -/
def ownAnswer (st : BitVec 16) (result : Nat) (s : State) : State :=
  match s.upd.wait with
  | some w => tryChain (onUpd (fun u => { u with wait := some { w with own := some (st, result) } }) s)
  | none => finish 1 st result s

/-! ## Blocks in transit (R466) -/

/-- The 64 segments of a block. -/
def segmentWords (bytes : List Byte) (seg : Nat) : List (BitVec 64) :=
  wordsOf 8 128 ((bytes.drop (1024 * seg)).take 1024) |>.map (BitVec.ofNat 64)

/-- A block leaves on CW_D: BLOCK_START, then 64 SEGMENT packets. -/
def sendBlock (b : Nat) (bytes : List Byte) (crc : BitVec 32) (s : State) : State :=
  let dst := s.cw.addr + 1
  let s1 := cwSend .down 0x30 dst b [BitVec.ofNat 64 (pack [(0, 32, crc.toNat), (32, 17, bytes.length)])] s
  forEach (List.range 64) (fun g s => cwSend .down 0x31 dst (b + g * 32) (segmentWords bytes g) s) s1

/-- A block that this device forwards, where there is a device to forward it to. -/
def forwardBlock (b : Nat) (bytes : List Byte) (crc : BitVec 32) (s : State) : State :=
  if hasDown s then sendBlock b bytes crc s else s

/-- The bytes of a transit block. -/
def transitBytes (t : Transit) : List Byte :=
  (((List.range 64).map fun g => match t.parts.find? (fun p => p.1 == g) with
    | some p => p.2
    | none => []).flatten).take t.length

/-- The head device takes a block into transit, forwards it and programs it. -/
def startBlock (b : Nat) (bytes : List Byte) (s : State) : State :=
  let crc := BitVec.ofNat 32 (crc32c bytes)
  let t : Transit := { block := b, length := bytes.length, crc := crc, parts := (List.range 64).map fun g =>
    (g, (bytes.drop (1024 * g)).take 1024), whole := true, stored := false, acked := !hasDown s, resends := 0, fails := 0, began := none }
  addJob { plainJob (.block b bytes) with answer := some (stOk, 0) }
    (forwardBlock b bytes crc (onUpd (fun u => { u with transit := u.transit ++ [t] }) s))

/-- Buffers that are programmed and acknowledged downstream are free; a block that waits for one starts. -/
def freeTransit (s : State) : State :=
  let s1 := onUpd (fun u => { u with transit := u.transit.filter fun t => !(t.whole && t.stored && t.acked) }) s
  match s1.upd.held with
  | some (b, bytes) => if s1.upd.transit.length < 2 then startBlock b bytes (onUpd (fun u => { u with held := none }) s1) else s1
  | none => s1

/-! ## The image (R460, R461, R467) -/

/-- The bytes of the staged image. -/
def imageBytes (s : State) (length : Nat) : List Byte :=
  ((List.range (blockCount length)).map fun b => match s.flash.image.find? (fun p => p.1 == b) with
    | some p => p.2
    | none => []).flatten

/-- A big-endian number as the model's byte list gives it. -/
def beNat (bs : List Byte) : Nat := leNat bs.reverse

/-- The sections of a header: type, offset, size, CRC, and whether the three bytes between are 0. -/
def sections (bs : List Byte) : List (Nat × Nat × Nat × Nat × Bool) :=
  (List.range (min 8 (at8 bs 16 1))).map fun i =>
    let o := 128 + 16 * i
    (at8 bs o 1, at8 bs (o + 4) 4, at8 bs (o + 8) 4, at8 bs (o + 12) 4, at8 bs (o + 1) 3 == 0)

/-- No two sections overlap. -/
def sectionsApart : List (Nat × Nat × Nat × Nat × Bool) → Bool
  | [] => true
  | x :: r => r.all (fun y => decide (x.2.1 + x.2.2.1 ≤ y.2.1) || decide (y.2.1 + y.2.2.1 ≤ x.2.1)) && sectionsApart r

/-- R460 and the open's values: every header field and section CRC. -/
def headerOk (x : Session) (bs : List Byte) : Bool :=
  let ss := sections bs
  let n := at8 bs 16 1
  at8 bs 0 4 == 0x4D495747 && at8 bs 4 1 == 1 && at8 bs 5 1 == x.pkg.toNat && at8 bs 6 2 == x.fw.toNat &&
    at8 bs 8 2 == x.schema.toNat && (!x.pkg || (at8 bs 6 2 == 0 && at8 bs 10 2 == 0)) && at8 bs 12 4 == x.length &&
    decide (1 ≤ n ∧ n ≤ 8) && at8 bs 17 15 == 0 && at8 bs 256 256 == 0 && lengthOk x.pkg x.length &&
    ss.all (fun t => t.2.2.2.2 && t.2.1 % 64 == 0 && decide (512 ≤ t.2.1) && decide (t.2.1 + t.2.2.1 ≤ x.length - 96) &&
      crc32c ((bs.drop t.2.1).take t.2.2.1) == t.2.2.2.1) &&
    sectionsApart ss &&
    (if x.pkg then ss.all fun t => t.1 == 6
     else ss.length == 5 && [1, 2, 3, 4, 5].all fun k => (ss.filter fun t => t.1 == k).length == 1)

/-- The cause of the first check of R467 that fails: 0 ID24, 1 key hash, 2 signature, 3 header or section. -/
def verifyCause (x : Session) (s : State) : Option Nat :=
  let bs := imageBytes s x.length
  let digest := Config.sha384 bs
  let key := (bs.drop 32).take 96
  let keyHash := match s.otp.integrator with
    | some b => some b.keyHash
    | none => none
  if !(BitVec.ofNat 192 digest.toNat == x.id && bs.length == x.length) then some 0
  else if !(some (Config.sha384 key) == keyHash) then some 1
  else if !(Config.ecdsaOk (BitVec.ofNat 768 (beNat key)) (Config.sha384 (bs.take (x.length - 96)))
      (BitVec.ofNat 768 (beNat (bs.drop (x.length - 96))))) then some 2
  else if !headerOk x bs then some 3 else none

/-! ## Settings entries (R472) -/

/-- The entries that a run of bytes holds, to its end or to the first that is not whole. -/
def entriesOf : Nat → List Byte → List SettingsEntry
  | 0, _ => []
  | k + 1, bs =>
    let dlen := at8 bs 4 2
    let padded := divUp (56 + dlen) 4 * 4
    if bs.length < padded + 4 then []
    else if crc32c (bs.take padded) != at8 bs padded 4 then []
    else { opcode := BitVec.ofNat 16 (at8 bs 0 2), schema := BitVec.ofNat 16 (at8 bs 2 2)
           payload := BitVec.ofNat 384 (at8 bs 8 48), data := (bs.drop 56).take dlen } :: entriesOf k (bs.drop (padded + 4))

/-- The settings entries of a package. -/
def packageEntries (s : State) (length : Nat) : List SettingsEntry :=
  let bs := imageBytes s length
  ((sections bs).map fun t => let d := (bs.drop t.2.1).take t.2.2.1; entriesOf (d.length / 60) d).flatten

/-- The largest SCHEMA of a list of entries. -/
def maxSchema (es : List SettingsEntry) : BitVec 16 := es.foldl (fun a e => if a.toNat < e.schema.toNat then e.schema else a) 0

/-- An entry as a settings copy holds it. -/
def entryBytes (e : SettingsEntry) : List Byte :=
  let body := toBytes 2 e.opcode.toNat ++ toBytes 2 e.schema.toNat ++ toBytes 2 e.data.length ++ [0, 0] ++ toBytes 48 e.payload.toNat ++
    e.data
  let padded := body ++ List.replicate (divUp body.length 4 * 4 - body.length) 0
  padded ++ toBytes 4 (crc32c padded)

/-- A settings copy: its entries and the trailer, four words of 4 bytes (log entry 86). -/
def copyBytes (es : List SettingsEntry) : List Byte :=
  let all := (es.map entryBytes).flatten
  all ++ toBytes 4 0x54535347 ++ toBytes 4 es.length ++ toBytes 4 (maxSchema es).toNat ++ toBytes 4 (crc32c all)

/-- A settings copy is erased and written whole. -/
def writeCopy (i : Fin 2) (es : List SettingsEntry) (s : State) : State :=
  emit (.flashWrite (copyBase i) (copyBytes es)) (emit (.flashErase (copyBase i) 0x20000)
    (onFlash (fun f => { f with copies := f.copies.set i es, schemaOf := f.schemaOf.set i (maxSchema es) }) s))

/-! ## The end of a job -/

/-- What the flash holds after a piece of work. -/
def workDone (w : FlashWork) (s : State) : State :=
  match w with
  | .erase =>
    emit (.flashErase (slotBase (stagingOf s.flash.record)) 0x200000) (onFlash (fun f => { f with image := [] }) s)
  | .block b bytes =>
    let s1 := emit (.flashWrite (slotBase (stagingOf s.flash.record) + 65536 * b) bytes)
      (onFlash (fun f => { f with image := (b, bytes) :: f.image.filter fun p => p.1 != b }) s)
    onUpd (fun u => { u with
      session := u.session.map fun x => { x with stored := x.stored ||| BitVec.ofNat 28 (2 ^ b) }
      transit := u.transit.map fun t => if t.block = b then { t with stored := true } else t }) s1
  | .record r => writeRecord r s
  | .copy dst es => writeCopy (if dst then 1 else 0) es s

/-- When every block of an OPEN session is stored, the slot is appended as STAGED (R465). -/
def stageWhenFull (s : State) : State :=
  match s.upd.session with
  | some x =>
    let staging := s.flash.jobs.any fun j => j.sess == some 2
    if x.state = 1 && !staging && x.stored == BitVec.ofNat 28 (2 ^ blockCount x.length - 1) then
      let r := nextRecord s
      addJob { plainJob (.record { withState (stagingOf r) 1 r with ids := r.ids.set (stagingOf r) x.id }) with
        sess := some 2, tell := some 0 } s
    else s
  | none => s

/-- A session's state, 0 ending it. -/
def setSession (st : Nat) (s : State) : State :=
  onUpd (fun u => { u with session := if st = 0 then none else u.session.map fun x => { x with state := st } }) s

/-- A job has ended: its work, the session's state, UPDATE_STATE, the answer, and the reset it calls for. -/
def endJob (j : FlashJob) (s : State) : State :=
  let s1 := workDone j.work s
  let s2 := match j.sess with
    | some st => setSession st s1
    | none => s1
  let s3 := match j.tell with
    | some c => tellUpdate c s2
    | none => s2
  let s4 := match j.up with
    | some (op, st, r) => sendResp op st r s3
    | none => s3
  let s5 := match j.answer with
    | some (st, r) => ownAnswer st r s4
    | none => s4
  freeTransit (stageWhenFull (if j.reset then onUpd (fun u => { u with resetDue := true }) s5 else s5))

/-! ## Verification and activation -/

/-- This device's part of UPDATE_VERIFY: the record to append, or an answer at once. -/
def verifyPart (x : Session) (j : FlashJob) (s : State) : FlashJob ⊕ BitVec 16 × Nat :=
  match x.state with
  | 2 =>
    let r := nextRecord s
    match verifyCause x s with
    | none => .inl { j with work := .record (withState (stagingOf r) 2 r), sess := some 3, tell := some 0 }
    | some c => .inl { j with work := .record (emptied s), sess := some 0, tell := some 3
                              answer := j.answer.map fun _ => (stSignature, 2 ^ 19 + c * 2 ^ 20)
                              up := j.up.map fun u => (u.1, stSignature, 2 ^ 19 + c * 2 ^ 20) }
  | 3 => .inr (stOk, 0)
  | _ => .inr (stSessionState, 0)

/-- The checks of an activation, RANGE apart (R468, R475). -/
def activateRef (x : Session) (reset : Bool) (s : State) : Option (BitVec 16) :=
  let r := s.flash.record
  if x.state ≠ 3 then some stSessionState
  else if r.state[activeOf r] = 3 then some stImageState
  else if x.pkg then (if s.boot.schema.toNat < x.schema.toNat then some stSchemaNewer else none)
  else if schemaNewer s x.schema reset then some stSchemaNewer else none

/-- The record of an activation. -/
def activation (x : Session) (reset : Bool) (r : BootRecord) : BootRecord :=
  let old := activeOf r
  let new := stagingOf r
  if x.pkg then { r with set := r.set.set old (!r.set[old]) }
  else { r with active := !r.active, state := (r.state.set new 3).set old 5, trials := 0, migDone := false, resetReq := reset
                set := r.set.set new (!r.set[old]), revert := 0 }

/-- The jobs of an activation: a package's settings copy, then the record. -/
def activationJobs (x : Session) (reset : Bool) (j : FlashJob) (s : State) : List FlashJob :=
  (if x.pkg then [plainJob (.copy (!(s.flash.record.set[activeOf s.flash.record])) (packageEntries s x.length))] else []) ++
    [{ j with work := .record (activation x reset (nextRecord s)), sess := some 0, tell := some 0, reset := true }]

/-! ## The commands -/

/-- The ranges of UPDATE_OPEN: SCOPE on the head device of an enumerated chain alone, LENGTH by R460. -/
def updateOpenRef (p : BitVec 384) (s : State) : Ref :=
  let r := openOf p
  ranges [(0, !r.scope || enumeratedHead s), (32, lengthOk r.pkg r.length)]

def runUpdateOpen (d : Desc) (s : State) : Ans :=
  let p := d.payload
  let r := openOf p
  match updateOpenRef p s with
  | some x => .done x.1 x.2 s
  | none =>
    let how := openHow false r s
    match how with
    | .refused st => .done st 0 s
    | _ =>
      let bits := openBits how
      let s1 := openEffect false r how { plainJob .erase with answer := some (stOk, bits) } s
      if r.scope then
        let w : ChainWait := { op := 0, expect := followers s, answers := []
                               own := if opensFresh how then none else some (stOk, bits) }
        let s2 := sendCtrl 0 p (onUpd (fun u => { u with wait := some w }) s1)
        .wait s2
      else
        let joined := bits / 2 ^ 40 % 2
        if opensFresh how then .wait s1
        else .done stOk (pack [(0, 10, 1 - joined), (10, 10, joined)] + bits) s1

/-- The CRC of a stored block. -/
def storedCrc (s : State) (b : Nat) : Option Nat :=
  match s.flash.image.find? (fun p => p.1 == b) with
  | some p => some (crc32c p.2)
  | none => none

/-- UPDATE_BLOCK. A block that is stored completes as R465 states under its tables, in every state of the session (log entry 87). Without a session there is no image: BLOCK is held against the 28 blocks of R461, STAGE_OFFSET against the staging area
alone. -/
def runUpdateBlock (d : Desc) (s : State) : Ans :=
  let p := d.payload
  let b := fld p 0 5
  let off := loadOff p
  match s.upd.session with
  | none => refuseOr (firstRef [ranges [(0, decide (b < 28))], stageRef off 1]) (.done stSessionState 0 s) s
  | some x =>
    let len := blockLength x.length b
    match ranges [(0, decide (b < blockCount x.length))] with
    | some e => .done e.1 e.2 s
    | none =>
      match stageRef off len with
      | some e => .done e.1 e.2 s
      | none =>
        let bytes := staged s off len
        if crc32c bytes != loadCrc p then .done stCrc 0 s
        else if x.chain then (if x.joined then .done stOk 0 (touch s) else .done stSessionState 0 s)
        else if x.stored.getLsbD b then
          (if storedCrc s b == some (loadCrc p) then
             .done stOk 1 (touch (if x.scope then forwardBlock b bytes (BitVec.ofNat 32 (loadCrc p)) s else s))
           else .done stSessionState 0 s)
        else if !x.scope then .wait (touch (addJob { plainJob (.block b bytes) with answer := some (stOk, 0) } s))
        else if s.upd.transit.length < 2 then .wait (touch (startBlock b bytes s))
        else .wait (touch (onUpd (fun u => { u with held := some (b, bytes) }) s))

def runUpdateVerify (_ : Desc) (s : State) : Ans :=
  match s.upd.session with
  | none => .done stSessionState 0 s
  | some x =>
    if x.chain then (if x.joined then .done stOk 0 (touch s) else .done stSessionState 0 s)
    else
      match verifyPart x { plainJob .erase with answer := some (stOk, 1) } s with
      | .inr r =>
        if r.1 != stOk then .done r.1 r.2 s
        else if x.scope then
          .wait (tryChain (sendCtrl 1 0 (onUpd (fun u => { u with
            wait := some { op := 1, expect := participants s, answers := [], own := some (stOk, 0) } }) (touch s))))
        else .done stOk 1 (touch s)
      | .inl j =>
        let s1 := addJob j (touch s)
        if x.scope then
          .wait (sendCtrl 1 0 (onUpd (fun u => { u with
            wait := some { op := 1, expect := participants s, answers := [], own := none } }) s1))
        else .wait s1

/-- AT_TICK is 0, or TICK + 8 to TICK + 65 536. -/
def atTickOk (s : State) (t : Nat) : Bool := t == 0 || decide (s.clk.tick + 8 ≤ t ∧ t ≤ s.clk.tick + 65536)

def runUpdateActivate (d : Desc) (s : State) : Ans :=
  let p := d.payload
  let reset := bit p 0
  let t := fld p 64 48
  let scope := match s.upd.session with
    | some x => x.scope
    | none => false
  match ranges [(64, atTickOk s t && !(scope && t == 0))] with
  | some e => .done e.1 e.2 s
  | none =>
    match s.upd.session with
    | none => .done stSessionState 0 s
    | some x =>
      if x.chain then (if x.joined then .done stOk 0 (touch s) else .done stSessionState 0 s)
      else
        match activateRef x reset s with
        | some st => .done st 0 s
        | none =>
          if t = 0 || s.boot.stage == .recovery then
            .wait (forEach (activationJobs x reset { plainJob .erase with answer := some (stOk, 1) } s) addJob (touch s))
          else
            let s1 := touch (onUpd (fun u => { u with armed := some (t, reset) }) s)
            if x.scope then
              .wait (tryChain (sendCtrl 2 p (onUpd (fun u => { u with
                wait := some { op := 2, expect := participants s, answers := [], own := some (stOk, 0) } }) s1)))
            else .done stOk 1 s1

def runUpdateConfirm (_ : Desc) (s : State) : Ans :=
  let r := nextRecord s
  let a := activeOf r
  let o := stagingOf r
  if r.state[a] ≠ 3 then .done stImageState 0 s
  else .wait (addJob { plainJob (.record { withState a 4 r with trials := 0, set := r.set.set o r.set[a] }) with
    tell := some 0, answer := some (stOk, 0) } (onUpd (fun u => { u with trialLeft := none }) s))

/-- The session ends and the slot is appended as EMPTY, with the consequences `j`. -/
def endSession (cause : Nat) (j : FlashJob) (s : State) : State :=
  addJob { j with work := .record (emptied s), sess := some 0, tell := some cause }
    (onUpd (fun u => { u with armed := none, transit := [], held := none }) s)

def runUpdateAbort (_ : Desc) (s : State) : Ans :=
  match s.upd.session with
  | none => .done stSessionState 0 s
  | some x =>
    if x.chain then
      (if x.joined then .done stOk 0 (onUpd (fun u => { u with session := some { x with joined := false } }) s)
       else .done stSessionState 0 s)
    else
      .wait (endSession 0 { plainJob .erase with answer := some (stOk, 0) } (if x.scope then sendCtrl 3 0 s else s))

def runUpdatePreempt (_ : Desc) (s : State) : Ans :=
  match s.upd.session with
  | none => .done stSessionState 0 s
  | some x =>
    if !x.chain then .done stSessionState 0 s
    else if s.clk.now ≤ x.last + 2500000000 then .done stPreemptDenied 0 s
    else .wait (endSession 1 { plainJob .erase with answer := some (stOk, 0) } (sendResp 0 stSessionBusy 0 s))

end Sys2Proof.Machine
end

