-- ==== Sys2Proof/Machine/ChainCmds.lean ====
section
/-! DEFINITION. Enumeration of the chain (R449, R450), CHAIN_ENUMERATE, CHAIN_SEND (R459) and the written part of the chain
record (R478). -/

namespace Sys2Proof.Machine

/-! ## The relay buffer and ring (R456 to R458) -/

/-- The relay ring writes: RELAY_EN is live at 1 and the device is attached. -/
def relayWrites (s : State) : Bool := s.cfg.chain.relayEn && s.cxl.attached

/-- A record leaves the relay buffer when the downstream observer has acknowledged it or there is none, and the host has while
the ring runs. -/
def dropRelayed (s : State) : State :=
  onCw (fun c => { c with relay := c.relay.filter fun r => !((r.down || !s.ev.chainObs) && (r.host || !s.cfg.chain.relayEn)) }) s

/-- Entries from a first index up to another on the ring. -/
def ringSpan (s : State) (a b : BitVec 16) : Nat :=
  (b.toNat + 2 ^ s.cfg.chain.relaySize - a.toNat % 2 ^ s.cfg.chain.relaySize) % 2 ^ s.cfg.chain.relaySize

/-- A ring entry: the record as received, its origin and PASS. -/
def relayEntry (r : Relayed) (pass : Bool) : BitVec 512 :=
  BitVec.ofNat 512 (r.word.toNat + pack [(256, 9, r.origin), (272, 1, pass.toNat)])

/-- The next entry is written where the ring writes and has room and a record waits. -/
def issueRelay (s : State) : Option State :=
  let size := 2 ^ s.cfg.chain.relaySize
  if relayWrites s && decide (ringSpan s s.cw.relayHead s.cw.relayNext + 1 < size) then
    match (s.cw.relay.filter (!·.host))[ringSpan s s.cw.relayHead s.cw.relayNext]? with
    | some r =>
      let a := s.cfg.chain.relayBase + 64 * s.cw.relayNext.toNat
      let w := relayEntry r s.cw.relayPass
      let n := (s.cw.relayNext.toNat + 1) % size
      some (onCw (fun c => { c with relayNext := BitVec.ofNat 16 n, relayPass := if n = 0 then !c.relayPass else c.relayPass })
        (onCxl (fun c => { c with outstanding := c.outstanding ++ [{ id := .relay, addr := a, word := w }] })
          (emit (.relayRec a w) (emit (.cache .itoMWr [a / 64]) s))))
    | none => none
  else none

/-- Entries are written while they can be. -/
def pumpRelay : Nat → State → State
  | 0, s => s
  | k + 1, s =>
    match issueRelay s with
    | some s' => pumpRelay k s'
    | none => s

/-- The ring starts, or starts again after a detach: every entry from RELAY_HEAD onwards is written (R458). -/
def restartRelay (s : State) : State :=
  pumpRelay 1024 (onCw (fun c => { c with
    relayNext := c.relayHead, relayTail := c.relayHead
    relayPass := if c.relayNext.toNat < c.relayHead.toNat then !c.relayPass else c.relayPass }) s)

/-- RELAY_HEAD acknowledges the entries before it. -/
def ackRelay (head : BitVec 16) (s : State) : State :=
  let n := min (ringSpan s s.cw.relayHead head) (ringSpan s s.cw.relayHead s.cw.relayNext)
  let mark : Nat × List Relayed := s.cw.relay.foldl (fun a r =>
    if !r.host && decide (0 < a.1) then (a.1 - 1, a.2 ++ [{ r with host := true }]) else (a.1, a.2 ++ [r])) (n, [])
  pumpRelay 1024 (dropRelayed (onCw (fun c => { c with relay := mark.2, relayHead := head }) s))

/-- A relayed record leaves on CW_D, its SRC the origin. -/
def forwardRecord (replay : Bool) (r : Relayed) (s : State) : State :=
  if s.ev.chainObs && s.cw.down.state == 2 && !s.cw.cutDown then
    cwEmit .down 0x50 (BitVec.ofNat 9 (s.cw.addr + 1)) false (BitVec.ofNat 9 r.origin) 0
      (eventWords (if replay then r.word ||| BitVec.ofNat 256 0x1000 else r.word)) s
  else s

/-- Sending to the downstream observer begins again at its first unacknowledged record (R397, R456). -/
def resendEvents (s : State) : State :=
  let s1 := pumpChain 4096 (onEv (fun v => { v with chainSent := v.chainAck }) s)
  forEach (s.cw.relay.filter (!·.down)) (forwardRecord true) s1

/-- Event forwarding on CW_D follows its conditions (R456): EVT_FWD and an enumerated downstream device; it starts when the port
runs, and a hop failure only holds it up (R397). Records that still stand in the store when it starts are sent. -/
def updateObs (s : State) : State :=
  let able := s.cfg.chain.evtFwd && decide (s.cw.addr + 1 < s.cw.len) && !s.cw.cutDown
  if s.ev.chainObs && !able then
    dropRelayed (trimStore (onEv (fun v => { v with chainObs := false }) s))
  else if !s.ev.chainObs && able && s.cw.down.state == 2 then
    let first := match s.ev.store with
      | e :: _ => e.seq
      | [] => s.ev.seq
    let ack := if (s.ev.seq - s.ev.chainAck).toNat ≤ (s.ev.seq - first).toNat then s.ev.chainAck else first
    let told := if (s.ev.seq - s.ev.chainIssued).toNat ≤ (s.ev.seq - ack).toNat then s.ev.chainIssued else ack
    resendEvents (onEv (fun v => { v with chainObs := true, chainAck := ack, chainIssued := told }) s)
  else s

/-! ## Enumeration -/

/-- The VARIANT code of an SX6440A (R2). -/
def isA (s : State) : Bool := s.otp.variant == 0x41

/-- CHAIN_ENUMERATED's payload (R479). -/
def enumeratedWord (found len own : Nat) (limited aPresent : Bool) : Nat :=
  pack [(0, 10, found), (10, 10, len), (20, 9, own), (29, 1, limited.toNat), (30, 1, aPresent.toNat)]

/-- The device's full mode, for a MODE packet (R454): W1 and W2 as TIMING_SET holds the groups. -/
def modeWords (t : TickGroup) (v : ShowGroup) (at_ : Nat) : List (BitVec 64) :=
  [BitVec.ofNat 64 (pack [(0, 16, t.tmin), (16, 16, t.tmax), (32, 10, t.tcut)]),
   BitVec.ofNat 64 (pack [(0, 9, v.blankLen), (16, 16, v.showLen), (32, 8, v.skew[0]), (40, 8, v.skew[1]), (48, 8, v.skew[2]),
     (56, 8, v.skew[3])]),
   BitVec.ofNat 64 at_]

/-- MODE to every follower. -/
def sendMode (sel : Nat) (t : TickGroup) (v : ShowGroup) (at_ : Nat) (s : State) : State :=
  if s.cw.down.state == 2 && !s.cw.cutDown then
    cwEmit .down 0x11 0x1FF true (BitVec.ofNat 9 s.cw.addr) (BitVec.ofNat 21 sel) (modeWords t v at_) s
  else s

/-- The chain settles (R450): the limit, CHAIN_LEN, the cut, the alignment of R14, CHAIN_ENUMERATED, the full mode of R454, this
device's VOTE of R455, and the completion of CHAIN_ENUMERATE. `ended` is whether ENUM_END came. -/
def settleChain (found : Nat) (many aSeen ended : Bool) (s : State) : State :=
  let aPresent := isA s || aSeen || s.cw.reports.any fun r => r.2.2 == 0x41
  let limit := if aPresent then 16 else 512
  let len := min found limit
  let tooMany := decide (limit < found) || many
  let s1 := onCw (fun c => { c with
    addr := 0, len := len, aSeen := aPresent, enumAt := none, waitEnum := false, follower := false
    voters := if s.cfg.scan.chainVote then setVoter 0 (s.com.records.any (·.valid)) [] else []
    reports := c.reports.filter (fun r => decide (r.1 < len)), caps := c.caps.filter (fun r => decide (r.1 < len)) }) s
  let s2 := if tooMany then
      onCw (fun c => { c with cutDown := len == 1 })
        (if s1.cw.down.state == 2 then cwEmit .down 0x23 0x1FF true 0 (BitVec.ofNat 21 len) [] s1 else s1)
    else onCw (fun c => { c with cutDown := false }) s1
  let top := maxOf s2.cw.reports fun r => r.2.1.toNat
  let s3 := if !s2.cw.reports.isEmpty && decide (nextTick s2 < top + 16) then
    onClk (fun c => { c with alignTo := some (min (top + 16) (2 ^ 48 - 1)) }) s2 else s2
  let s4 := raise srcRelay evChainEnumerated (enumeratedWord found len 0 tooMany aPresent) s3
  let s5 := updateObs (if 2 ≤ len then sendMode 3 s4.cfg.tick s4.cfg.span (nextTick s4) s4 else s4)
  if s.cw.waitEnum then
    finish 3 (if tooMany then stChainLimit else if ended then stOk else stChainHop)
      (pack [(0, 10, found), (10, 10, len), (20, 1, aPresent.toNat)]) s5
  else s5

/-- The head device enumerates (R449). Where CW_D does not run the chain is the head device alone (log entry 31). -/
def startEnum (s : State) : State :=
  let s1 := onCw (fun c => { c with addr := 0, reports := [], enumAt := some s.clk.now, cutDown := false }) s
  if s.cw.down.state == 2 then
    cwEmit .down 0x20 1 false 0 (BitVec.ofNat 21 (pack [(0, 9, 1), (9, 1, (isA s).toNat)])) [] s1
  else settleChain 1 false false true s1

def runChainEnumerate (_ : Desc) (s : State) : Ans :=
  if !s.boot.straps.chainRole then .done stChainRole 0 s
  else .wait (startEnum (onCw (fun c => { c with waitEnum := true }) s))

/-! ## CHAIN_SEND (R459) -/

/-- The 64-byte descriptor's words and the data packets of a CMD. -/
def cmdWords (bs : List Byte) : List (BitVec 64) := (wordsOf 8 8 bs).map (BitVec.ofNat 64)

/-- A CMD and its data leave on CW_D. -/
def sendCmd (bcast : Bool) (addr tq tgt : Nat) (desc data : List Byte) (s : State) : State :=
  let n := divUp data.length 1024
  let arg := pack [(0, 2, tq), (2, 6, n), (8, 13, tgt / 64)]
  let dst := BitVec.ofNat 9 (if bcast then 0x1FF else addr)
  if s.cw.down.state == 2 && !s.cw.cutDown then
    forEach (List.range n) (fun i s =>
      cwEmit .down 0x41 dst bcast 0 (BitVec.ofNat 21 i) (segmentWords data i) s)
      (cwEmit .down 0x40 dst bcast 0 (BitVec.ofNat 21 arg) (cmdWords desc) s)
  else s

/-- A command for this device itself: the data enters the staging area, the descriptor waits for its core. -/
def sendSelf (tq : Fin 4) (tgt : Nat) (desc data : List Byte) (s : State) : State :=
  onCw (fun c => { c with inCmd := c.inCmd ++ [{ tq := tq, via := .self, left := 0, off := tgt, desc := cmdWords desc }] })
    (onBar2 (fun m => memPut m tgt data) s)

/-- CHAIN_SEND's result for a single target: the target's STATUS, TICK and RESULT bits 255:0. -/
def singleResult (rec : BitVec 512) : Nat := pack [(0, 16, fld rec 16 16), (16, 48, fld rec 128 48), (64, 256, fld rec 192 256)]

/-- CHAIN_SEND's result for a broadcast. -/
def bcastResult (answers : List (Nat × BitVec 512)) (missing : List Nat) : Nat :=
  let bad := answers.filter fun a => decide (fld a.2 16 16 ≠ 0)
  let first := (lowestAnswer (bad.map fun a => (a.1, BitVec.ofNat 16 (fld a.2 16 16), 0)))
  pack [(0, 16, match first with
      | some x => x.2.1.toNat
      | none => 0), (16, 10, answers.length - bad.length), (26, 10, bad.length + missing.length),
    (36, 9, (lowestOf (bad.map (·.1) ++ missing)).getD 0)]

/-- CHAIN_SEND completes when every target has answered. -/
def trySend (s : State) : State :=
  match s.cw.waitCmd with
  | some w =>
    if w.expect.isEmpty then
      let s1 := onCw (fun c => { c with waitCmd := none }) s
      if w.bcast then finish 3 stOk (bcastResult w.answers []) s1
      else finish 3 stOk (match w.answers.head? with
        | some a => singleResult a.2
        | none => 0) s1
    else s
  | none => s

/-- R397, R459: the targets that are still to answer are given up. -/
def failSend (s : State) : State :=
  match s.cw.waitCmd with
  | some w =>
    let s1 := onCw (fun c => { c with waitCmd := none }) s
    finish 3 stChainHop (if w.bcast then bcastResult w.answers w.expect else 0) s1
  | none => s

/-- The checks of CHAIN_SEND, in the order of its block. -/
def chainSendRef (p : BitVec 384) (s : State) : Ref :=
  let addr := fld p 0 9
  let bcast := bit p 9
  let tq := fld p 10 2
  let off := fld p 32 32
  let doff := fld p 64 32
  let dlen := fld p 96 16
  let tgt := fld p 128 32
  let role := s.boot.straps.chainRole && s.cw.len != 0
  firstRef [ranges [(10, decide (tq ≠ 3)), (32, stagedOk off 64), (64, dlen == 0 || stagedOk doff dlen),
      (96, decide (dlen ≤ 49152) && dlen % 64 == 0), (128, dlen == 0 || stagedOk tgt dlen)],
    need role stChainRole, need (bcast || decide (addr < s.cw.len)) stChainAddr,
    need (!(if bcast then decide (2 ≤ s.cw.len) else addr != 0) || s.cw.down.state == 2) stChainHop]

/-- The targets of a CHAIN_SEND: every device of the chain, or the one named. -/
def sendTargets (p : BitVec 384) (s : State) : List Nat := if bit p 9 then List.range s.cw.len else [fld p 0 9]

/-- What CHAIN_SEND starts: the wait for every target, the command for this device itself, the CMD for the others. -/
def chainSendNext (p : BitVec 384) (s : State) : State :=
  let targets := sendTargets p s
  let tq := fld p 10 2
  let tgt := fld p 128 32
  let desc := staged s (fld p 32 32) 64
  let data := staged s (fld p 64 32) (fld p 96 16)
  let s1 := onCw (fun c => { c with waitCmd := some { bcast := bit p 9, expect := targets, answers := [], sent := s.clk.now } }) s
  let s2 := if targets.contains 0 then sendSelf (Fin.ofNat 4 tq) tgt desc data s1 else s1
  if targets.all (· == 0) then s2 else sendCmd (bit p 9) (fld p 0 9) tq tgt desc data s2

def runChainSend (d : Desc) (s : State) : Ans :=
  refuseOr (chainSendRef d.payload s) (.wait (chainSendNext d.payload s)) s

/-! ## The chain record (R478) -/

def writeChain (r : BitVec 256) (s : State) : Ref × State :=
  let v := chainOf r
  let o := s.cfg.chain
  let head := BitVec.ofNat 16 (fld r 16 16)
  let s' := ackRelay head (addLv [.chain v.evtFwd v.relayEn]
    (onCfg (fun c => { c with chain := { c.chain with relaySize := v.relaySize, relayBase := v.relayBase } }) s))
  (firstRef [ranges [(2, decide (8 ≤ v.relaySize ∧ v.relaySize ≤ 16)), (64, v.relayBase % 4096 == 0)],
    stFields o.relayEn [(2, v.relaySize != o.relaySize), (64, v.relayBase != o.relayBase)]], s')

end Sys2Proof.Machine
end

