-- ==== Sys2Proof/Machine/Mailbox.lean ====
section
/-! DEFINITION. The mailbox (13): the record writes of SETTINGS_WRITE, the checks of R378, execution, fetching, submission. -/

namespace Sys2Proof.Machine

/-! ## SETTINGS_WRITE (R384, R385) -/

/-- A record's check and effect; the Nat is RESULT. -/
def refDone (r : Ref) (s' s : State) : Ans := refuseOr r (.done stOk 0 s') s

def runSettingsWrite (d : Desc) (s : State) : Ans :=
  let p := d.payload
  let number := fld p 0 8
  let r : BitVec 256 := BitVec.ofNat 256 (fld p 64 256)
  let written := !(recordFields number).isEmpty
  let pair (x : Ref × State) : Ans := refDone x.1 x.2 s
  if !written then .done stRecord 0 s
  else
    match reservedBits (recordFields number) r.toNat 256 3 with
    | some x => .done x.1 x.2 s
    | none =>
      match number with
      | 0x01 => pair (writeMemory r s)
      | 0x02 => pair (writeCanvas r s)
      | 0x03 => pair (writeHeadColour r s)
      | 0x04 => let x := writeArray r s; refuseOr x.1 (.done stOk x.2.1 x.2.2) s
      | 0x05 => pair (writeRaster (s.rasters[headOf r].scan != 0) r s)
      | 0x06 => pair (writePixelTiming r s)
      | 0x07 => pair (writeLink r s)
      | 0x08 => pair (writeOs r s)
      | 0x09 => pair (writeLine r s)
      | 0x21 => pair (writeChain r s)
      | _ => .done stRecord 0 s

/-! ## Execution -/

/-- The meaning of each opcode. -/
def runOp (op : Op) (d : Desc) (s : State) : Ans :=
  match op with
  | .deviceInfo => runDeviceInfo d s
  | .eventMask => runEventMask d s
  | .settingsRead => runSettingsRead d s
  | .settingsWrite => runSettingsWrite d s
  | .layerSet => runLayerSet d s
  | .layerEnable => runLayerEnable d s
  | .lutLoad => runLutLoad d s
  | .coeffLoad => runCoeffLoad d s
  | .blendOrderSet => runBlendOrderSet d s
  | .fenceModeSet => runFenceModeSet d s
  | .commit => runCommit d s
  | .headSet => runHeadSet d s
  | .warpLoad => runWarpLoad d s
  | .timingSet => runTimingSet d s
  | .planeSeqLoad => runPlaneSeqLoad d s
  | .dimSet => runDimSet d s
  | .lightChannelSet => runLightChannelSet d s
  | .colourTargetSet => runColourTargetSet d s
  | .lampSet => runLampSet d s
  | .lampFade => runLampFade d s
  | .powerQuota => runPowerQuota d s
  | .thermalSet => runThermalSet d s
  | .safetyWindowSet => runSafetyWindowSet d s
  | .telltaleSet => runTelltaleSet d s
  | .safeStateRequest => runSafeStateRequest d s
  | .calRun => runCalRun d s
  | .calCommit => runCalCommit d s
  | .calStatus => runCalStatus d s
  | .updateOpen => runUpdateOpen d s
  | .updateBlock => runUpdateBlock d s
  | .updateVerify => runUpdateVerify d s
  | .updateActivate => runUpdateActivate d s
  | .updateConfirm => runUpdateConfirm d s
  | .updateAbort => runUpdateAbort d s
  | .updatePreempt => runUpdatePreempt d s
  | .chainEnumerate => runChainEnumerate d s
  | .chainSend => runChainSend d s
  | .unassigned _ => .done stOpcode 0 s

/-- The commands that recovery serves on Q1 (R415). -/
def recoveryServes : Op → Bool
  | .deviceInfo | .updateOpen | .updateBlock | .updateVerify | .updateActivate => true
  | _ => false

/-- A queue accepts an opcode in the present stage (R381, R415). -/
def queueAccepts (op : Op) (q : Fin 4) (s : State) : Bool :=
  if s.boot.stage == .recovery then q == 1 && recoveryServes op else op.accepts q

/-- An opcode outside the table (recovery names every such opcode under STATUS_QUEUE). -/
def opcodeAssigned (op : Op) (s : State) : Bool :=
  match op with
  | .unassigned _ => s.boot.stage == .recovery
  | _ => true

/-- E2E_ERROR's payload (R349). -/
def e2eWord (alive : Bool) (got expected : BitVec 8) : Nat := pack [(0, 1, alive.toNat), (8, 8, got.toNat), (16, 8, expected.toNat)]

/-- A Q2 command that fails its CRC or its counter (R335). -/
def e2eRefused (isAlive : Bool) (d : Desc) (s : State) : State :=
  raise srcQ2 evE2eError (e2eWord isAlive d.alive s.safety.alive) (onSafety (fun y => { y with e2eErrors := y.e2eErrors + 1 }) s)

/-- An accepted Q2 command (R335, R380). -/
def q2Accepted (d : Desc) (s : State) : State :=
  onSafety (fun y => { y with alive := d.alive + 1, anyAlive := false, q2Run := true, q2Timeout := false }) s

/-- Steps 3 to 6 of R378 and the command itself. -/
def runChecked (op : Op) (d : Desc) (s : State) : Ans :=
  refuseOr (firstRef [need (opcodeAssigned op s) stOpcode, need (queueAccepts op d.queue s) stQueue, reservedDesc op.code d,
    reservedBits op.fields d.payload.toNat 384 0]) (runOp op d s) s

/-- R378: the descriptor is checked and executes. -/
def runDesc (op : Op) (d : Desc) (s : State) : Ans :=
  if d.queue == 2 && s.boot.stage != .recovery then
    if BitVec.ofNat 16 (descCrc op.code d) != d.crc16 then .done stE2eCrc 0 (e2eRefused false d s)
    else if !s.safety.anyAlive && d.alive != s.safety.alive then .done stE2eAlive s.safety.alive.toNat (e2eRefused true d s)
    else runChecked op d (q2Accepted d s)
  else runChecked op d s

/-- The descriptor's completion, now or later. -/
def execDesc (op : Op) (d : Desc) (via : Via) (slot : BitVec 8) (s : State) : State :=
  let x : Deferred := { queue := d.queue, opcode := op.code, slot := slot, tag := d.tag, alive := d.alive, via := via }
  match runDesc op d (onQueue d.queue (fun z => { z with waiting := some x }) s) with
  | .done st r s' => complete x st r (onQueue d.queue (fun z => { z with waiting := none }) s')
  | .wait s' => s'

/-! ## Fetching (R375) and relayed commands (R459) -/

/-- The control core that serves a queue (R372): 0 and 1 the application cores, 2 the safety pair. -/
def coreOf (q : Fin 4) : Fin 3 :=
  match q with
  | 0 => 0
  | 1 => 1
  | 2 => 2
  | _ => 1

/-- A queue's core runs, fetching has begun, and no command of the queue executes. -/
def queueIdle (q : Fin 4) (s : State) : Bool := served s && !s.boot.down[coreOf q] && s.queues[q].waiting.isNone

/-- R23, R90: SETTINGS_READ and COMMIT do not execute during LATCH. -/
def waitsForLatch (op : Op) (s : State) : Bool :=
  s.clk.phase == .latch && (op == .settingsRead || op == .commit)

/-- The descriptor at a queue's head. -/
def headDesc (q : Fin 4) (s : State) : BitVec 16 × Desc :=
  descOf q (memRead s.bar2 (slotOffset q s.queues[q].sqHead) 64)

/-- A queue fetches and executes its next descriptor, where it can (R375). -/
def fetchOne (q : Fin 4) (s : State) : Option State :=
  let x := s.queues[q]
  if x.en && queueIdle q s && x.sqHead != x.sqTail && cqRoom q s then
    let c := headDesc q s
    let op := opOf c.1
    if waitsForLatch op s then none
    else some (execDesc op c.2 .ring x.sqHead (onQueue q (fun z => { z with sqHead := z.sqHead + 1 }) s))
  else none

/-- A queue runs as far as it can. -/
def drainFuel (q : Fin 4) : Nat → State → State
  | 0, s => s
  | k + 1, s =>
    match fetchOne q s with
    | some s' => drainFuel q k s'
    | none => s

def drain (q : Fin 4) (s : State) : State := drainFuel q 256 s

/-- The descriptor of a relayed command. -/
def cmdDesc (c : InCmd) : BitVec 16 × Desc := descOf c.tq ((c.desc.map fun w => toBytes 8 w.toNat).flatten)

/-- The first relayed command that can execute (R459): after the command of its core, before the next fetch. -/
def takeCmd (s : State) : Option (InCmd × State) :=
  match s.cw.inCmd.find? (fun c => c.left == 0 && queueIdle c.tq s && !waitsForLatch (opOf (cmdDesc c).1) s) with
  | some c => some (c, onCw (fun w => { w with inCmd := w.inCmd.erase c }) s)
  | none => none

/-- Relayed commands execute; SLOT of their completions is 0 (log entry 30). -/
def runCmds : Nat → State → State
  | 0, s => s
  | k + 1, s =>
    match takeCmd s with
    | some (c, s1) =>
      let x := cmdDesc c
      runCmds k (trySend (execDesc (opOf x.1) x.2 c.via 0 s1))
    | none => s

/-- Everything that can execute does: relayed commands first, then the rings in ascending order. -/
def drainAll (s : State) : State := forEach (allFin 4) drain (trySend (runCmds (s.cw.inCmd.length + 1) s))

/-- A queue runs as far as it can; relayed commands that wait execute before its next fetch, and one that its command leaves
for this device follows it (R459). -/
def runQueue (q : Fin 4) (s : State) : State :=
  if s.cw.inCmd.isEmpty then
    let s1 := drain q s
    if s1.cw.inCmd.isEmpty then s1 else drainAll s1
  else drainAll s

/-! ## Submission (R362, R375) -/

/-- A bit of ERR_STATUS (R361). -/
def setErr (i : Nat) (s : State) : State := onCxl (fun c => { c with err := c.err ||| BitVec.ofNat 7 (2 ^ i) }) s

/-- The doorbell of R375: ignored while EN is 0; a tail that would pass SQ_HEAD is ignored and sets BAD_ACCESS. -/
def doorbell (q : Fin 4) (v : BitVec 8) (s : State) : State :=
  let x := s.queues[q]
  if !x.en then s
  else if (x.sqHead - x.sqTail - 1).toNat < (v - x.sqTail).toNat then setErr 0 s
  else runQueue q (onQueue q (fun z => { z with sqTail := v }) s)

/-- A command of a queue as R375 submits it: the descriptor enters slot SQ_TAIL, and the doorbell follows. -/
def submit (op : BitVec 16) (d : Desc) (s : State) : State :=
  let t := s.queues[d.queue].sqTail
  doorbell d.queue (t + 1) (onBar2 (fun m => memPut m (slotOffset d.queue t) (descBytes op d)) s)

/-- A SETTINGS_WRITE whose RECORD is the row's. -/
def withRecord (number : Nat) (d : Desc) : Desc :=
  { d with payload := BitVec.ofNat 384 (d.payload.toNat - d.payload.toNat % 256 + number) }

/-- A row of a mailbox command. -/
def mailbox (op : Op) (d : Desc) (s : State) : Host.Outcome State Fault Refusal := .next (settle (submit op.code d s))

end Sys2Proof.Machine
end

