-- ==== Sys2Proof/Machine/Otp.lean ====
section
/-! DEFINITION. The bytes of the OTP (R426 to R431): the fixed region and a calibration generation as they read, with their check
codes. A blank bit reads 1 (R427), so that an absent field and a reserved byte read 0xFF. -/

namespace Sys2Proof.Machine

/-- Blank bytes. -/
def blankBytes (n : Nat) : List Byte := List.replicate n 0xFF

/-- A list of byte strings in order. -/
def joinBytes (l : List (List Byte)) : List Byte := l.flatten

/-- Bytes 0 to 123 of the fixed region: SERIAL, VARIANT, PROCESS, IDENTITY_SECRET, reserved (R428). -/
def vendorBody (o : Otp) : List Byte :=
  toBytes 8 Config.serial.toNat ++ [o.variant, Config.process] ++ toBytes 32 Config.identitySecret.toNat ++ blankBytes 82

/-- The vendor block with VCRC. -/
def vendorBytes (o : Otp) : List Byte := vendorBody o ++ toBytes 4 (crc32c (vendorBody o))

/-- Bytes 128 to 317 of the fixed region: all of the integrator block before its limits. -/
def integratorHead (b : Integrator) : List Byte :=
  [b.locks, b.pmicAddr] ++ toBytes 4 b.pmicCmd.toNat ++ toBytes 4 b.subsys.toNat ++ toBytes 2 b.leTripMask.toNat ++
    toBytes 2 (twos 16 b.leTripLimit) ++ toBytes 48 b.keyHash.toNat ++ b.chMap.toList ++ b.weight.toList

/-- Four bytes of a limit, blank where it is absent. -/
def limitBytes (v : Option (BitVec 32)) : List Byte := toBytes 4 (v.getD (BitVec.allOnes 32)).toNat

/-- Bytes 318 to 413: E1 and E100 of each head and colour. -/
def limitsBytes (b : Integrator) : List Byte := joinBytes ((allFin 12).map fun i => limitBytes b.e1[i] ++ limitBytes b.e100[i])

/-- Bytes 128 to 1019: what ICRC covers. -/
def integratorBody (b : Integrator) : List Byte := integratorHead b ++ limitsBytes b ++ blankBytes 606

/-- The integrator block as it reads. -/
def integratorBytes (b : Integrator) : List Byte := integratorBody b ++ toBytes 4 b.icrc.toNat

/-- ICRC agrees with the block. -/
def integratorOk (b : Integrator) : Bool := crc32c (integratorBody b) == b.icrc.toNat

/-- The fixed region without the eye-safety limits, as measurement block 4 of R366 covers it. -/
def fixedBytes (o : Otp) : List Byte :=
  vendorBytes o ++ (match o.integrator with
    | some b => integratorHead b ++ blankBytes 606 ++ toBytes 4 b.icrc.toNat
    | none => blankBytes 800)

/-- Bytes 0 to 759 of a generation (R430). -/
def generationBody (g : Generation) : List Byte :=
  toBytes 4 g.utc.toNat ++ toBytes 2 g.station.toNat ++ blankBytes 2 ++ g.masks.toList ++
    joinBytes (g.k.toList.map (toBytes 2)) ++
    joinBytes ((allFin 64).map fun n => toBytes 3 g.chMasks[n].toNat ++ toBytes 2 g.phi[n] ++ toBytes 2 g.slope[n]) ++
    blankBytes 184

/-- A sealed generation as it reads: its CRC and SEAL. -/
def generationBytes (g : Generation) : List Byte := generationBody g ++ toBytes 4 (crc32c (generationBody g)) ++ toBytes 4 0xA53C0FF0

end Sys2Proof.Machine
end

