-- ==== Sys2Proof/Machine/Host.lean ====
section
/-! DEFINITION. The host interface (12, 13): registers of BAR0, the BAR2 window, rings, detach and attach, errors, interrupts,
snoops, DOE. -/

namespace Sys2Proof.Machine

/-! ## Errors of R367 and R371 -/

/-- The bit of ERR_STATUS that an error KIND sets (R361). -/
def errBit (kind : Nat) : Option Nat :=
  match kind with
  | 1 => some 2
  | 2 => some 4
  | 3 => some 3
  | 4 => some 6
  | 5 => some 5
  | _ => none

/-- The AER status bit of an error KIND: correctable status for KIND 0, uncorrectable status for the others; a viral entry logs
none (log entry 32). -/
def aerBit (kind : Nat) : Option (Fin 2 × Nat) :=
  match kind with
  | 0 => some (1, 0)
  | 1 => some (0, 14)
  | 2 => some (0, 20)
  | 3 => some (0, 12)
  | 4 => some (0, 28)
  | 6 => some (0, 22)
  | _ => none

/-- An error is logged: ERR_STATUS and the AER status at once, CXL_ERROR at the END with the tick's count (log entry 33). -/
def cxlError (kind : Fin 7) (traffic : Nat) (a : Nat) (s : State) : State :=
  let e := s.cxl.errs[kind]
  let s1 := match errBit kind.val with
    | some i => setErr i s
    | none => s
  let s2 := match aerBit kind.val with
    | some b => onCxl (fun c => { c with aer := upd c.aer b.1 (· ||| BitVec.ofNat 32 (2 ^ b.2)) }) s1
    | none => s1
  onCxl (fun c => { c with errs := c.errs.set kind (if e.1 = 0 then (1, traffic, a) else (e.1 + 1, e.2.1, e.2.2)) }) s2

/-- KIND of a bus error. -/
def errorKind (e : BusError) : Fin 7 :=
  match e with
  | .timeout => 1
  | .urCa => 2
  | .poison => 3

/-- CXL_ERROR's payload (R371). -/
def cxlErrorWord (kind : Nat) (e : Nat × Nat × Nat) : Nat := pack [(0, 4, kind), (4, 4, e.2.1), (16, 16, sat 16 e.1), (32, 64, e.2.2)]

/-- CXL_ERROR at END, one per KIND. -/
def tellErrors (s : State) : State :=
  let s1 := forEach (allFin 7) (fun k s =>
    if s.cxl.errs[k].1 = 0 then s else raise srcCxl evCxlError (cxlErrorWord k.val s.cxl.errs[k]) s) s
  onCxl (fun c => { c with errs := Vector.replicate 7 (0, 0, 0) }) s1

/-! ## Detach and attach (R368, R369, R395) -/

/-- The registers of a queue block return to their reset values. -/
def resetQueue (q : QueueDyn) : QueueDyn :=
  { q with sqTail := 0, sqHead := 0, cqBase := 0, cqHead := 0, cqTail := 0, cqNext := 0 }

/-- Causes 0 to 3: the fields of the queue blocks, the event ring block and the MSI-X table return to their reset values (R368).
LINK_STATUS with its CACHE_EN, BME and IDE bits, and the pending bits, are kept (log entry 34). -/
def resetBlocks (s : State) : State :=
  let s1 := onQueues (·.map resetQueue) s
  let s2 := onEv (fun v => { v with
    sizeLog2 := 8, vecMode := false, coalesce := 0, base := 0, head := 0, tail := 0, next := 0, ring := [] }) s1
  onCxl (fun c => { c with msixMask := BitVec.allOnes 64, msixTable := [] }) s2

/-- The event ring stops. Its entries from EVQ_HEAD to EVQ_TAIL stay; records whose write is not observed are written again. -/
def stopRing (v : EvDyn) : EvDyn :=
  let n := (v.tail.toNat + 2 ^ v.sizeLog2 - v.head.toNat % 2 ^ v.sizeLog2) % 2 ^ v.sizeLog2
  { v with en := false, next := v.tail, ring := v.ring.take n }

/-- A host detach (R368): traffic stops, outstanding requests are discarded, HOST_ACTIVE and every EN become 0; with causes 0 to
3 the blocks return to their reset values. Builds that run stop using host memory (R369). -/
def detach (cause : Nat) (s : State) : State :=
  let s1 := onCxl (fun c => { c with hostActive := false, outstanding := [], retries := 0, sigDue := 0 }) s
  let s2 := onCom (fun c => { c with lines := c.lines.map fun l => { l with reading := false }, relWrites := [] })
    (onQueues (·.map fun q => { q with en := false }) s1)
  let s3 := onEv (fun v => { stopRing v with ackSeq := 0 }) s2
  runLatchQ (updateAttached cause (if cause ≤ 3 then resetBlocks s3 else s3))

/-- ATTACHED is judged again; on an attachment every watched line is read before any judgement (R112), and the
relay ring starts again (R458). -/
def reattach (s : State) : State :=
  let s1 := updateAttached 0 s
  if s1.cxl.attached && !s.cxl.attached then
    let s2 := rereadFences s1
    if s2.cfg.chain.relayEn then restartRelay s2 else s2
  else s1

/-! ## Queues and the event ring (R375, R391, R395) -/

/-- EN of a queue: ignored in PCIe-only mode (R351). When it is set, the journaled completions that were not delivered are
written again with REPLAY 1 from CQ_TAIL on, and fetching follows (R395). -/
def queueEnable (q : Fin 4) (en : Bool) (s : State) : State :=
  if !cxlUp s then s
  else if !en then onQueue q (fun x => { x with en := false }) s
  else if s.queues[q].en then s
  else
    let s1 := onCxl (fun c => { c with outstanding := c.outstanding.filter fun w => match w.id with
      | .cq k _ => k != q
      | _ => true }) s
    let s2 := onQueue q (fun x => { x with
      en := true, wrap := true, cqNext := x.cqTail
      journal := x.journal.map fun c => if c.delivered then c else { c with issued := false, replay := true } }) s1
    runQueue q (pumpCq q 16 s2)

/-- CQ_HEAD frees records: waiting completions are written, then fetching resumes (R375). -/
def writeCqHead (q : Fin 4) (v : BitVec 8) (s : State) : State :=
  runQueue q (pumpCq q 16 (onQueue q (fun x => { x with cqHead := v }) s))

/-- A SEQ is not before another, in the numbering modulo 2³² of R389. -/
def seqFrom (a b : BitVec 32) : Bool := decide ((b - a).toNat < 2 ^ 31)

/-- The ring starts (R391, R395): release fences of R112 first, each before its event, then the store from ACK_MARK + 1. The host
becomes an observer with the first enabling. -/
def startRing (s : State) : State :=
  let v := s.ev
  let first : BitVec 32 := match v.store with
    | e :: _ => e.seq
    | [] => v.seq
  let from_ := if v.hostObs then v.ackNext else first
  let s1 := onEv (fun v => { stopRing v with en := true, hostObs := true, ackNext := from_, sent := from_
                                             issuedTo := if v.hostObs then v.issuedTo else from_
                                             ackSeq := v.ackMark }) s
  let due := v.fences.filter fun f => seqFrom from_ f.1
  let s2 := if s1.cxl.bme && s1.cxl.cacheEn then
      forEach due (fun f => addFence { addr := f.2.1, value := f.2.2.1, tag := f.2.2.2, st := .waiting, event := some f.1 })
        (onEv (fun v => { v with fences := due }) s1)
    else s1
  pumpHost 4096 s2

/-- The word at offset 0 of the event ring block (R361, R362). -/
def writeRingCtl (w : BitVec 32) (s : State) : State :=
  let size := fld w 1 5
  let run := s.ev.en
  let s1 := if !(decide (8 ≤ size) && decide (size ≤ 16)) then setErr 0 s
    else if run && size != s.ev.sizeLog2 then setErr 1 s
    else onEv (fun v => { v with sizeLog2 := size }) s
  let s2 := onEv (fun v => { v with vecMode := bit w 6, coalesce := fld w 16 16 }) s1
  let en := bit w 0
  if en == run || !cxlUp s then s2
  else if en then startRing s2
  else onEv (fun v => { stopRing v with ackSeq := v.ackMark }) s2

/-- The latest of some records, of those from a SEQ on. -/
def latest (from_ : BitVec 32) (l : List (BitVec 32)) : Option (BitVec 32) :=
  (l.filter (seqFrom from_)).foldl (fun a q => match a with
    | some p => if seqFrom p q then some q else some p
    | none => some q) none

/-- EVQ_HEAD acknowledges the records before it (R391). An entry that an earlier delivery left in the ring acknowledges no more
than its own record. -/
def writeEvqHead (v : BitVec 16) (s : State) : State :=
  let size := evSize s
  let new := v.toNat % size
  let n := min ((new + size - s.ev.head.toNat % size) % size) s.ev.ring.length
  let last := latest s.ev.ackNext (s.ev.ring.take n)
  let s1 := onEv (fun e => { e with
    head := BitVec.ofNat 16 new, ring := e.ring.drop n
    ackMark := last.getD e.ackMark
    ackNext := match last with
      | some q => q + 1
      | none => e.ackNext
    ackSeq := if e.en then last.getD e.ackMark else e.ackSeq
    fences := match last with
      | some q => e.fences.filter fun f => seqFrom (q + 1) f.1
      | none => e.fences }) s
  pumpHost 4096 (trimStore s1)

/-- The oldest record write is globally observed (R356): the tail advances and the vector is signalled, and a record that waited
for it is written. -/
def observed (s : State) : State :=
  match s.cxl.outstanding with
  | [] => s
  | w :: r =>
    let s1 := onCxl (fun c => { c with outstanding := r, retries := 0 }) s
    match w.id with
    | .cq q k =>
      let s2 := onQueue q (fun x => { x with
        cqTail := x.cqTail + 1
        journal := x.journal.map fun c => if c.seq == k then { c with delivered := true } else c }) s1
      if s.queues[q].en then signal (Fin.ofNat 64 (1 + q.val)) s2 else s2
    | .evq src =>
      let s2 := onEv (fun v => { v with tail := BitVec.ofNat 16 ((v.tail.toNat + 1) % 2 ^ v.sizeLog2) }) s1
      pumpHost 4096 (if s.ev.en || !s.ev.vecMode then signalEvent src s2 else s2)
    | .relay => onCw (fun c => { c with relayTail := BitVec.ofNat 16 ((c.relayTail.toNat + 1) % 2 ^ s.cfg.chain.relaySize) }) s1

/-- A record write leaves. -/
def putRecord (w : RingWrite) (s : State) : State :=
  match w.id with
  | .cq q _ => emit (.completion q w.addr w.word) (emit (.cache .itoMWr [w.addr / 64]) s)
  | .evq _ => emit (.eventRec w.addr (BitVec.ofNat 256 w.word.toNat)) (emit (.cache .woWrInv [w.addr / 64]) s)
  | .relay => emit (.relayRec w.addr w.word) (emit (.cache .itoMWr [w.addr / 64]) s)

/-- The oldest record write has failed (R367, R371) and is made again 10 µs later, up to 4 times; then the host is detached with
cause 0. -/
def retryWrite (e : BusError) (s : State) : State :=
  match s.cxl.outstanding with
  | [] => s
  | w :: _ =>
    let s1 := cxlError (errorKind e) 6 w.addr s
    if s.cxl.retries < 4 then putRecord w (onCxl (fun c => { c with retries := c.retries + 1 }) s1)
    else detach 0 s1

/-- A vector's interval has passed (R364). -/
def coalesced (v : Fin 64) (s : State) : State :=
  let b := BitVec.ofNat 64 (2 ^ v.val)
  if s.cxl.sigDue &&& b == 0 then s
  else
    let s1 := onCxl (fun c => { c with sigDue := c.sigDue &&& ~~~b }) s
    if decide (8 ≤ v.val) && !s.ev.en then s1 else signal v s1

/-- A vector is unmasked: its pending bit is served (R364). -/
def unmask (v : Fin 64) (s : State) : State :=
  let b := BitVec.ofNat 64 (2 ^ v.val)
  let s1 := onCxl (fun c => { c with msixMask := c.msixMask &&& ~~~b }) s
  if s.cxl.msixPend &&& b == 0 then s1 else signal v (onCxl (fun c => { c with msixPend := c.msixPend &&& ~~~b }) s1)

/-- HOST_ACTIVE (R369). -/
def writeHostActive (v : Bool) (s : State) : State := reattach (onCxl (fun c => { c with hostActive := v }) s)

/-! ## BAR0 (R361, R362) -/

/-- TICK_MIRROR. -/
def tickMirror (s : State) : Nat := pack [(0, 48, s.clk.tick), (48, 3, s.clk.phase.code)]

/-- DEV_ID; recovery reports FW_VERSION 0 (R415). -/
def devId (s : State) : Nat :=
  pack [(0, 16, 0x6440), (16, 8, stepping), (24, 8, s.otp.variant.toNat),
    (32, 16, if s.boot.stage == .recovery then 0 else s.boot.fwVersion.toNat)]

/-- LINK_STATUS. -/
def linkStatus (s : State) : Nat :=
  let l := s.cxl.link
  pack [(0, 4, if l.cxlMode then l.speed.val else 0), (4, 5, l.width), (9, 1, l.flit256.toNat), (10, 1, s.cxl.cacheEn.toNat),
    (11, 1, s.cxl.bme.toNat), (12, 1, s.cxl.ideIo.isSome.toNat), (13, 1, s.cxl.ideCache.isSome.toNat), (16, 16, sat 16 s.cxl.retrains)]

/-- A 4-byte register of a queue block. -/
def readQueueReg (q : Fin 4) (r : Nat) (s : State) : Nat :=
  let x := s.queues[q]
  match r with
  | 0x00 => x.en.toNat
  | 0x04 => x.sqTail.toNat
  | 0x08 => x.sqHead.toNat
  | 0x10 => x.cqBase.toNat % 2 ^ 32
  | 0x14 => x.cqBase.toNat / 2 ^ 32
  | 0x18 => x.cqHead.toNat
  | 0x1C => x.cqTail.toNat
  | _ => 0

/-- A 4-byte register of the event ring block. -/
def readRingReg (r : Nat) (s : State) : Nat :=
  let v := s.ev
  match r with
  | 0x00 => pack [(0, 1, v.en.toNat), (1, 5, v.sizeLog2), (6, 1, v.vecMode.toNat), (16, 16, v.coalesce)]
  | 0x08 => v.base.toNat % 2 ^ 32
  | 0x0C => v.base.toNat / 2 ^ 32
  | 0x10 => v.head.toNat
  | 0x14 => v.tail.toNat
  | 0x18 => v.ackSeq.toNat
  | _ => 0

/-- The MSI-X table's word at an offset in it: the vector control word holds the mask. -/
def readMsix (o : Nat) (s : State) : Nat :=
  let v : Fin 64 := Fin.ofNat 64 (o / 16)
  if o % 16 = 12 then (s.cxl.msixMask.getLsbD v.val).toNat else leNat (memRead s.cxl.msixTable o 4)

/-- A 4-byte read of BAR0; reserved offsets read 0. The CXL component registers read what was written to them: the spec names their
structures (RAS, Link, IDE) and gives no field of them (log entry 59). -/
def readReg (off : Nat) (s : State) : Nat :=
  if 0x100 ≤ off && off < 0x200 then readQueueReg (Fin.ofNat 4 ((off - 0x100) / 64)) (off % 64) s
  else if 0x200 ≤ off && off < 0x21C then readRingReg (off - 0x200) s
  else if 0x8000 ≤ off && off < 0x8400 then readMsix (off - 0x8000) s
  else if 0x10000 ≤ off then leNat (memRead s.cxl.comp off 4)
  else match off with
    | 0x0000 => devId s % 2 ^ 32
    | 0x0004 => devId s / 2 ^ 32
    | 0x0010 => tickMirror s % 2 ^ 32
    | 0x0014 => match s.cxl.mirrorHi with
      | some v => v.toNat
      | none => tickMirror s / 2 ^ 32
    | 0x0018 => (summaryWord s).toNat
    | 0x001C => pack [(0, 1, s.cxl.hostActive.toNat), (1, 1, s.cxl.attached.toNat)]
    | 0x0020 => linkStatus s
    | 0x0024 => s.cxl.err.toNat
    | 0x9000 => s.cxl.msixPend.toNat % 2 ^ 32
    | 0x9004 => s.cxl.msixPend.toNat / 2 ^ 32
    | _ => 0

/-- An access of 4 or 8 bytes at its natural alignment, inside BAR0 (R362). -/
def bar0Ok (off size : Nat) : Bool := (size == 4 || size == 8) && off % size == 0 && decide (off + size ≤ 0x20000)

/-- A read of BAR0: one that breaks R362 returns all ones and sets BAD_ACCESS; a 4-byte read of the low half of TICK_MIRROR
latches the high half, which the next 4-byte read at 0x14 returns. -/
def readBar0 (off size : Nat) (s : State) : State :=
  if !bar0Ok off size then emit (.readData (BitVec.allOnes 64)) (setErr 0 s)
  else if size = 8 then
    emit (.readData (BitVec.ofNat 64 (if off = 0x10 then tickMirror s else readReg off s + readReg (off + 4) s * 2 ^ 32))) s
  else if off = 0x10 then
    emit (.readData (BitVec.ofNat 64 (tickMirror s % 2 ^ 32)))
      (onCxl (fun c => { c with mirrorHi := some (BitVec.ofNat 32 (tickMirror s / 2 ^ 32)) }) s)
  else
    let s1 := emit (.readData (BitVec.ofNat 64 (readReg off s))) s
    if off = 0x14 then onCxl (fun c => { c with mirrorHi := none }) s1 else s1

/-- One half of a 64-bit register replaced. -/
def setHalf (old : BitVec 64) (high : Bool) (w : BitVec 32) : BitVec 64 :=
  if high then BitVec.ofNat 64 (old.toNat % 2 ^ 32 + w.toNat * 2 ^ 32) else BitVec.ofNat 64 (old.toNat / 2 ^ 32 * 2 ^ 32 + w.toNat)

/-- An st base register: a change while its owner runs is ignored and sets ST_WRITE. -/
def stBase (running : Bool) (old new : BitVec 64) (f : BitVec 64 → State → State) (s : State) : State :=
  if new == old then s else if running then setErr 1 s else f new s

/-- A 4-byte write to a queue block. CQ_BASE keeps bits 13:0 at 0. -/
def writeQueueReg (q : Fin 4) (r : Nat) (w : BitVec 32) (s : State) : State :=
  let x := s.queues[q]
  let base (high : Bool) : State :=
    stBase x.en x.cqBase (setHalf x.cqBase high w &&& ~~~0x3FFF) (fun v s => onQueue q (fun x => { x with cqBase := v }) s) s
  match r with
  | 0x00 => queueEnable q (bit w 0) s
  | 0x04 => doorbell q (BitVec.ofNat 8 (fld w 0 8)) s
  | 0x10 => base false
  | 0x14 => base true
  | 0x18 => writeCqHead q (BitVec.ofNat 8 (fld w 0 8)) s
  | _ => s

/-- A 4-byte write to the event ring block. EVQ_BASE keeps bits 11:0 at 0. -/
def writeRingReg (r : Nat) (w : BitVec 32) (s : State) : State :=
  let base (high : Bool) : State :=
    stBase s.ev.en s.ev.base (setHalf s.ev.base high w &&& ~~~0xFFF) (fun v s => onEv (fun e => { e with base := v }) s) s
  match r with
  | 0x00 => writeRingCtl w s
  | 0x08 => base false
  | 0x0C => base true
  | 0x10 => writeEvqHead (BitVec.ofNat 16 (fld w 0 16)) s
  | _ => s

/-- A 4-byte write to the MSI-X table. -/
def writeMsix (o : Nat) (w : BitVec 32) (s : State) : State :=
  let v : Fin 64 := Fin.ofNat 64 (o / 16)
  if o % 16 = 12 then
    (if bit w 0 then onCxl (fun c => { c with msixMask := c.msixMask ||| BitVec.ofNat 64 (2 ^ v.val) }) s else unmask v s)
  else onCxl (fun c => { c with msixTable := memPut c.msixTable o (toBytes 4 w.toNat) }) s

/-- A 4-byte write to BAR0: fields of class ro and reserved offsets keep their values. The CXL component registers keep every
written bit and start at 0 (log entry 59). -/
def writeReg (off : Nat) (w : BitVec 32) (s : State) : State :=
  if 0x100 ≤ off && off < 0x200 then writeQueueReg (Fin.ofNat 4 ((off - 0x100) / 64)) (off % 64) w s
  else if 0x200 ≤ off && off < 0x21C then writeRingReg (off - 0x200) w s
  else if 0x8000 ≤ off && off < 0x8400 then writeMsix (off - 0x8000) w s
  else if 0x10000 ≤ off then onCxl (fun c => { c with comp := memPut c.comp off (toBytes 4 w.toNat) }) s
  else if off = 0x1C then writeHostActive (bit w 0) s
  else if off = 0x24 then onCxl (fun c => { c with err := c.err &&& ~~~(BitVec.ofNat 7 (fld w 0 7)) }) s
  else s

/-- A write of BAR0 (R362). -/
def writeBar0 (off : Nat) (data : List Byte) (s : State) : State :=
  if !bar0Ok off data.length then setErr 0 s
  else
    let s1 := writeReg off (BitVec.ofNat 32 (leNat (data.take 4))) s
    if data.length = 8 then writeReg (off + 4) (BitVec.ofNat 32 (leNat (data.drop 4))) s1 else s1

/-! ## BAR2 (R34, R373, R374) -/

/-- A host write of the window: the journal, the mirrors and the reserved areas take none. -/
def writeBar2 (off : Nat) (data : List Byte) (s : State) : State :=
  onBar2 (fun m => memPut m off (data.take (stageHi - off))) s

/-- The record words that the mirrors hold, with their places (R373). -/
def mirrorWords (s : State) : List (Nat × Nat) :=
  (0x3D000, safetyWord s) :: (0x3D020, powerWord s) :: (allHeads.map fun h => (0x3D040 + 32 * h.val, colourStatusWord h s)) ++
    (allFin 64).map fun n => (0x3D100 + 32 * n.val, chanWord n s)

/-- Every mirror is rewritten at END; MIRROR_GEN counts before the first write and after the last (R374). -/
def writeMirrors (s : State) : State :=
  onMirrorGen (· + 2) (onBar2 (fun m => (mirrorWords s).foldl (fun m p => memPut m p.1 (toBytes 32 p.2)) m) s)

/-- A byte of the window as the host reads it: the journals (R393), MIRROR_GEN, and what is stored. -/
def windowByte (s : State) (a : Nat) : Byte :=
  if 0x3C000 ≤ a && a < 0x3D000 then
    let q : Fin 4 := Fin.ofNat 4 ((a - 0x3C000) / 0x400)
    match s.queues[q].journal.find? (fun c => c.seq % 16 == (a % 0x400) / 64) with
    | some c => BitVec.ofNat 8 ((completionWord s.queues[q].wrap c).toNat / 2 ^ (8 * (a % 64)))
    | none => 0
  else if 0x3DF00 ≤ a && a < 0x3DF08 then BitVec.ofNat 8 (s.mirrorGen / 2 ^ (8 * (a % 8)))
  else memGet s.bar2 a

/-- A read of BAR2: the window, and all ones beyond it (R34). -/
def readBar2 (off size : Nat) (s : State) : State :=
  emit (.window ((List.range size).map fun i => if off + i < 0x40000 then windowByte s (off + i) else 0xFF)) s

/-! ## The link (R350, R351, R368, R370) -/

/-- CXL_LINK's payload (R371). -/
def cxlLinkWord (state : Nat) (s : State) : Nat :=
  let l := s.cxl.link
  pack [(0, 4, if l.cxlMode then l.speed.val else 0), (4, 5, l.width), (9, 1, l.flit256.toNat), (10, 2, state),
    (16, 16, sat 16 s.cxl.retrains)]

def tellLink (state : Nat) (s : State) : State := raise srcCxl evCxlLink (cxlLinkWord state s) s

/-- The link goes down. -/
def linkDown (s : State) : State :=
  if s.cxl.link.l0 then
    detach 0 (tellLink 0 (onCxl (fun c => { c with link := CxlDyn.reset.link }) s))
  else s

/-- A width that the device trains to (R350). -/
def widthOk (n : Nat) : Bool := [1, 2, 4, 8, 16].contains n

/-- The link comes up, goes down, or has been trained again. A link that settles below 8 GT/s or outside CXL mode carries no host
traffic, which is a detach (R351; log entry 35). With the CXL_EN strap low the PHY stays idle, and no link comes up at a width that
the device does not have. -/
def linkChange (l : LinkState) (s : State) : State :=
  if !s.boot.straps.cxlEn then s
  else if !l.l0 then linkDown s
  else if !widthOk l.width then s
  else
    let old := s.cxl.link
    let s1 := onCxl (fun c => { c with link := l, retrains := if old.l0 then c.retrains + 1 else c.retrains }) s
    let s2 := if l == old then s1 else tellLink (if old.l0 then 2 else 1) s1
    if old.l0 && cxlUp s && !cxlUp s2 then detach 0 s2 else reattach s2

/-! ## Fences (R96 to R99) -/

/-- Data or an error of an outstanding shared read arrives. -/
def fenceArrives (a : Addr) (r : ReadResult) (s : State) : State :=
  let line := lineOf a.toNat
  if s.com.lines.any fun l => l.line == line && l.reading then
    match r with
    | .data w => fenceData line w s
    | .error e => fenceFailed line (cxlError (errorKind e) 1 a.toNat s)
  else s

/-- The write that a release at the front of the LATCH waits for has ended: the release is told, and what waited behind it. -/
def releaseTold (w : RelWrite) (written : Bool) (s : State) : State :=
  match s.com.latchQ with
  | .release x true :: r =>
    if (x.fence.map (·.1)) == some w.addr then
      runLatchQ (raiseRelease x written (onCom (fun c => { c with latchQ := r }) s))
    else s
  | _ => s

/-- The device's own write of a watched line is followed by a read of it, without a snoop (R99). -/
def rereadOwn (a : Nat) (s : State) : State :=
  if s.com.lines.any fun l => l.line == lineOf a then readLine (lineOf a) s else s

/-- An issued write of a release fence at an address. -/
def relAt (a : Nat) (s : State) : Option RelWrite := s.com.relWrites.find? fun w => w.addr == a && w.st == .issued

/-- A transient line is free again: the next release fence write leaves, and an event that waited for its fence. -/
def relEnded (s : State) : State := pumpHost 4096 (issueRel 8 s)

/-- A release fence write has become globally visible (R99). -/
def fenceWritten (w : RelWrite) (s : State) : State :=
  relEnded (rereadOwn w.addr (releaseTold w true (onCom (fun c => { c with relWrites := c.relWrites.erase w }) s)))

/-- A release fence write has failed (R99): FENCE_ERROR, and the release is told with REL_WRITTEN 0. -/
def fenceRefused (w : RelWrite) (s : State) : State :=
  relEnded (releaseTold w false (raise srcCommit evFenceError (fenceErrorWord true w.tag w.addr)
    (onCom (fun c => { c with relWrites := mapFirst (fun x => x == w) (fun x => { x with st := .failed }) c.relWrites }) s)))

/-- The end of a release fence write. An error of its RdOwn is one of R367; a refused DirtyEvict is none of those that R367 names
(log entry 64). -/
def releaseWritten (a : Addr) (r : FenceWrite) (s : State) : State :=
  match relAt a.toNat s with
  | none => s
  | some w =>
    match r with
    | .done => fenceWritten w s
    | .error e => fenceRefused w (cxlError (errorKind e) 1 a.toNat s)
    | .refused => fenceRefused w s

/-! ## Snoops (R355) -/

/-- The state of a line in the device cache: Modified while its release fence is written, Shared while a fence watches it. -/
def lineState (line : Nat) (s : State) : Option LineState :=
  if s.com.relWrites.any fun w => lineOf w.addr == line && w.st == .issued then some .modified
  else match s.com.lines.find? (fun l => l.line == line) with
    | some l => l.cached
    | none => none

/-- A Modified line's 64 bytes: what the RdOwn returned, which is host memory, with the fences merged that are being written. -/
def lineData (line : Nat) (s : State) : BitVec 512 :=
  let host := (List.range 64).map fun i => Config.hostByte s.clk.tick (64 * line + i)
  let ws := s.com.relWrites.filter fun w => lineOf w.addr == line && w.st == .issued
  BitVec.ofNat 512 (leNat (ws.foldl (fun bs w =>
    bs.take (w.addr % 64) ++ toBytes 8 w.value.toNat ++ bs.drop (w.addr % 64 + 8)) host))

/-- A snoop of a Modified line takes its data: RspIFwdM leaves the line Invalid, and the stores in it are globally visible with the
data (log entry 65). -/
def forwardLine (line : Nat) (s : State) : State :=
  let ws := s.com.relWrites.filter fun w => lineOf w.addr == line && w.st == .issued
  forEach ws fenceWritten (emit (.snoop 1 (some (lineData line s))) s)

/-- SnpInv, answered by line state; it invalidates a Shared fence line and starts its re-read (R96). -/
def snoopInv (a : Addr) (s : State) : State :=
  let line := lineOf a.toNat
  match lineState line s with
  | some .modified => forwardLine line s
  | some .shared => readLine line (emit (.snoop 0 none) s)
  | none => emit (.snoop 2 none) s

/-- SnpData and SnpCur. -/
def snoopRead (a : Addr) (s : State) : State :=
  let line := lineOf a.toNat
  match lineState line s with
  | some .modified => forwardLine line s
  | some .shared => emit (.snoop 3 none) s
  | none => emit (.snoop 2 none) s

/-- CXL Reset writes the device cache back before it is invalidated (R368, cause 3). -/
def writeBack (s : State) : State :=
  let s1 := forEach (s.com.relWrites.filter fun w => w.st == .issued) fenceWritten s
  onCom (fun c => { c with lines := c.lines.map fun l => { l with cached := none } }) s1

/-! ## DOE and SPDM (R365, R366) -/

/-- An object leaves on DOE. -/
def doeSend (code : Nat) (body : List Byte) (s : State) : State := emit (.doe code body) s

/-- The SPDM error response (code 0x7F; log entry 27). -/
def spdmError (s : State) : State := doeSend 0x7F [] s

/-- The bytes of a body in a DOE object of 8 KiB, after two words of DOE header and one of SPDM header (R366; log entry 27). -/
def doeRoom : Nat := 8180

/-- An SPDM request that is served once the connection has reached a stage; it then stands at `next`. The answer is as much as one
object holds. -/
def spdmServe (least : Nat) (ok : Bool) (next : Nat) (code : Nat) (body : List Byte) (s : State) : State :=
  if s.cxl.cfgReady && decide (least ≤ s.cxl.spdm) && ok then doeSend code (body.take doeRoom) (onCxl (fun c => { c with spdm := next }) s)
  else spdmError s

/-- DOE Discovery: the object protocols by index, and the next index (R366). -/
def doeDiscover (index : Nat) (s : State) : State :=
  if !s.cxl.cfgReady then s
  else if index ≤ 2 then doeSend 0 (toBytes 4 (pack [(0, 16, 1), (16, 8, index), (24, 8, if index = 2 then 0 else index + 1)])) s
  else doeSend 0 (toBytes 4 0xFFFF) s

/-- The versions served, 1.2 and 1.3, as a VERSION response lists them (layout: log entry 27). -/
def spdmVersions : List Byte := [0, 2, 0x00, 0x12, 0x00, 0x13]

/-- A measurement block of R366. What does not exist yet is measured as no bytes. -/
def measurement (i : Nat) (s : State) : BitVec 384 :=
  match i with
  | 1 => Config.romDigest
  | 2 => s.boot.imageDigest
  | 3 => Config.sha384 (match s.safety.asset with
      | some a => a.table ++ memRead a.atlas 0 786432
      | none => [])
  | 4 => Config.sha384 (fixedBytes s.otp)
  | _ => Config.sha384 (match s.cal.inForce with
      | some g => generationBytes s.otp.gens[g]
      | none => [])

/-- The blocks that a GET_MEASUREMENTS names: their number for 0, one for 1 to 5, all of them for 255. -/
def measurements (index : Nat) (s : State) : List Byte :=
  if index = 0 then [5]
  else if index = 255 then ([1, 2, 3, 4, 5].map fun i => toBytes 48 (measurement i s).toNat).flatten
  else toBytes 48 (measurement index s).toNat

/-- A key of a stream is programmed over the secured session (R365): the stream is secure from then on, and the message is
acknowledged. Outside the session it is refused. -/
def programKey (secured : Bool) (f : CxlDyn → CxlDyn) (s : State) : State :=
  if secured && s.cxl.spdm == 5 then reattach (doeSend 0x7E [] (onCxl f s)) else spdmError s

/-! ## Configuration requests (R350, R359, R360, R416) -/

/-- The identity of R359: Vendor, Device, Revision and Class Code. -/
def identityWord : Nat := pack [(0, 16, 0x1EC7), (16, 16, 0x6440), (32, 8, stepping), (40, 24, 0x038000)]

/-- The Subsystem Vendor ID and Subsystem ID, each 0 where it is not programmed. -/
def subsystemWord (s : State) : Nat :=
  let id (v : Nat) : Nat := if v = 0xFFFF then 0 else v
  match s.otp.integrator with
  | some b => id (fld b.subsys 0 16) + id (fld b.subsys 16 16) * 2 ^ 16
  | none => 0

/-- The structures of R359 in its order: capability ID, whether it is an extended capability, DVSEC vendor and DVSEC ID (log
entry 36). -/
def structures : List (Nat × Bool × Nat × Nat) :=
  [(0x01, false, 0, 0), (0x10, false, 0, 0), (0x11, false, 0, 0), (0x0001, true, 0, 0), (0x0025, true, 0, 0), (0x0026, true, 0, 0),
   (0x002A, true, 0, 0), (0x0031, true, 0, 0), (0x0027, true, 0, 0), (0x002E, true, 0, 0), (0x0030, true, 0, 0),
   (0x0023, true, 0x1E98, 0), (0x0023, true, 0x1E98, 7), (0x0023, true, 0x1E98, 8)]

/-- A structure as a read finds it, 0 beyond the list: no other feature is advertised (R350). -/
def structureWord (i : Nat) : Nat :=
  match structures[i]? with
  | some x => pack [(0, 16, x.1), (16, 1, x.2.1.toNat), (32, 16, x.2.2.1), (48, 16, x.2.2.2)]
  | none => 0

/-- The fields of the PCIe DVSEC for CXL Devices that R359 names: Cache_Capable, IO_Capable, Mem_Capable, HDM_Count, Cache
Writeback and Invalidate Capable, CXL Reset Capable, Viral_Capable, Cache Size Unit, Cache Size (positions: log entry 36). -/
def dvsecWord : Nat := pack [(0, 1, 1), (1, 1, 1), (2, 1, 0), (4, 2, 0), (6, 1, 1), (7, 1, 1), (14, 1, 1), (16, 4, 1), (24, 8, 1)]

/-- The Register Locator's one entry: BAR0, component registers, offset 0x1_0000 (positions: log entry 36). -/
def locatorWord : Nat := pack [(0, 3, 0), (8, 8, 1), (16, 16, 1)]

/-- The low bits of a BAR and its size (R360): both are 64-bit memory BARs, BAR2 alone is prefetchable. -/
def barKind (b : Fin 2) : Nat × Nat := if b = 0 then (0x4, 0x20000) else (0xC, 0x40000)

/-- The half of a 64-bit BAR that a BAR register is; none for those that are not implemented. -/
def barHalf (i : Fin 7) : Option (Fin 2 × Bool) :=
  match i with
  | 0 => some (0, false)
  | 1 => some (0, true)
  | 2 => some (1, false)
  | 3 => some (1, true)
  | _ => none

/-- A BAR register as it reads. -/
def readBar (i : Fin 7) (s : State) : Nat :=
  match barHalf i with
  | some (b, high) => if high then s.cxl.bars[b].toNat / 2 ^ 32 else s.cxl.bars[b].toNat % 2 ^ 32 + (barKind b).1
  | none => 0

/-- A BAR register is written: the address bits below the size stay 0. -/
def writeBar (i : Fin 7) (v : BitVec 32) (s : State) : State :=
  match barHalf i with
  | some (b, high) => onCxl (fun c => { c with
      bars := upd c.bars b fun x => BitVec.ofNat 64 ((setHalf x high v).toNat / (barKind b).2 * (barKind b).2) }) s
  | none => s

/-- Device Control 2 keeps a completion timeout value of Range A; 0 selects 1.0 ms, and the timeout is never disabled (R350; codes:
log entry 36). -/
def timeoutKept (v : BitVec 5) : Bool := v == 0 || v == 1 || v == 2

/-- Device Control keeps a Max Payload Size of at most 512 bytes (R357). -/
def payloadKept (v : BitVec 3) : Bool := decide (v.toNat ≤ 2)

def configure (r : CfgReq) (s : State) : State :=
  if !s.cxl.cfgReady then emit (.config true 0) s
  else
    let answer (v : Nat) (s : State) : State := emit (.config false (BitVec.ofNat 64 v)) s
    match r with
    | .readId => answer identityWord s
    | .readSubsystem => answer (subsystemWord s) s
    | .readStructure i => answer (structureWord i) s
    | .readCapabilities => answer dvsecWord s
    | .readLocator => answer locatorWord s
    | .readBar i => answer (readBar i s) s
    | .writeBar i v => writeBar i v (answer 0 s)
    | .readControl => answer (pack [(0, 5, s.cxl.cto.toNat), (8, 3, s.cxl.mps.toNat)]) s
    | .writeTimeout v => onCxl (fun c => if timeoutKept v then { c with cto := v } else c) (answer 0 s)
    | .writePayload v => onCxl (fun c => if payloadKept v then { c with mps := v } else c) (answer 0 s)
    | .readAer k => answer (if k then s.cxl.aer[1] else s.cxl.aer[0]).toNat s
    | .clearAer k bits => onCxl (fun c => { c with aer := upd c.aer (if k then 1 else 0) (· &&& ~~~bits) }) (answer 0 s)
    | .busMaster on =>
      if on then reattach (onCxl (fun c => { c with bme := true }) (answer 0 s))
      else detach 4 (onCxl (fun c => { c with bme := false }) (answer 0 s))
    | .cacheEnable on =>
      if on then reattach (onCxl (fun c => { c with cacheEn := true }) (answer 0 s))
      else detach 4 (onCxl (fun c => { c with cacheEn := false }) (answer 0 s))
    | .powerD0 => reattach (onCxl (fun c => { c with d0 := true }) (answer 0 s))

end Sys2Proof.Machine
end

