-- ==== Sys2Proof/Machine/Press.lean ====
section
/-! DEFINITION. The picture path (02, 04, 06): phases, line match, the canvas bands, warp, press, errors of the path. -/

namespace Sys2Proof.Machine

/-! ## Phases (R21) -/

/-- The end of BLANK in a tick in which no head is enabled: 20 µs + BLANK_LEN after the boundary. -/
def blankEnd (s : State) : Nat := s.clk.start + usT (20 + s.cfg.span.blankLen)

/-- The trigger of SHOW has come. -/
def showDue (s : State) : Bool :=
  s.clk.shown || s.clk.cutAt.isSome || (allHeads.all (fun h => !headOn s.cfg h) && decide (blankEnd s ≤ s.clk.now))

/-- A build of a head runs. -/
def pressing (s : State) (h : Head) : Bool := s.heads[h].building && !s.heads[h].done

/-- The phases that are due are entered, none skipped; END is entered by TICK_END, BLANK by LATCH_END. -/
def enterPhases (s : State) : State :=
  let s1 := if s.clk.phase == .blank && showDue s then onClk (fun c => { c with phase := .show }) s else s
  let s2 := if s1.clk.phase == .show && (s1.clk.built || s1.clk.cutAt.isSome) then onClk (fun c => { c with phase := .built }) s1 else s1
  if s2.clk.phase == .built && s2.clk.cutAt.isSome then onClk (fun c => { c with phase := .cut }) s2 else s2

/-- The device's time reaches an instant. -/
def reach (t : Nat) (s : State) : State := onClk (fun c => { c with now := max c.now t }) s

/-- 2 ns pass with nothing commanded (log entry 12). -/
def idle (s : State) : State := enterPhases (onClk (fun c => { c with now := c.now + 1 }) s)

/-- BUILT's trigger: every press engine that runs has completed the frame being built. -/
def noteBuilt (s : State) : State :=
  if s.clk.phase != .latch && allHeads.all (fun h => !pressing s h) then enterPhases (onClk (fun c => { c with built := true }) s)
  else s

/-! ## Line match (R149) -/

/-- LINE_MATCH's payload. -/
def lineMatchWord (i : Nat) (v : LmCfg) (range : Bool) : Nat :=
  pack [(0, 1, i), (1, 2, v.src), (3, 2, v.head.val), (5, 1, range.toNat), (16, 16, v.line)]

/-- The lines lo to hi − 1 of a source are reached: each comparator on them raises LINE_MATCH, at most once per tick. -/
def reachLines (src : Nat) (h : Option Head) (lo hi : Nat) (s : State) : State :=
  forEach (allFin 2) (fun i s =>
    let v := s.cfg.scan.lm[i]
    if v.src == src && (h.isNone || h == some v.head) && decide (lo ≤ v.line) && decide (v.line < hi) &&
        !s.clk.lmRaised[i] && !s.clk.lmOut[i] then
      raise (srcLineMatch i.val) evLineMatch (lineMatchWord i.val v false) (onClk (fun c => { c with lmRaised := c.lmRaised.set i true }) s)
    else s) s

/-! ## The canvas (R60, R149) -/

/-- Malformed tiles are counted for the END. -/
def noteTiles (k : Layer) (bad : List (Nat × Nat)) (s : State) : State :=
  match bad with
  | [] => s
  | t :: _ => onComp (fun c => { c with
      gtcFirst := c.gtcFirst.set k (some (c.gtcFirst[k].getD t)), gtcCount := c.gtcCount.set k (c.gtcCount[k] + bad.length) }) s

/-- The compositor works for the build of the tick: some enabled head whose build has not been cut runs (R79), and the cut-off has not
come. -/
def composes (s : State) : Bool :=
  s.comp.hostBuild && s.clk.cutAt.isNone && allHeads.any fun h => headOn s.cfg h && !s.heads[h].cut

/-- A surface read by CXL.cache (R354). -/
def readSurface (lines : List Nat) (s : State) : State := if lines.isEmpty then s else emit (.cache .rdCurr lines) s

/-- The place of canvas tile rows in the canvas store, whose layout is the device's own (R37, log entry 77): tiles of 16 × 8 pixels and
1152 bytes, row by row. -/
def canvasTiles (c : Cfg) : Nat := divUp c.canvas.w 16
def canvasAt (c : Cfg) (tx ty : Nat) : Nat := c.mem.canvasBase + (ty * canvasTiles c + tx) * 1152

/-- The next band of 64 lines is composed from the surfaces and written. -/
def bandWritten (s : State) : State :=
  let y0 := 64 * s.comp.band
  let y1 := min (y0 + 64) s.cfg.canvas.h
  if composes s && decide (y0 < s.cfg.canvas.h) then
    let pixels := ((List.range (y1 - y0)).map fun j => (List.range s.cfg.canvas.w).map fun x => (x, y0 + j)).flatten
    let s0 := forEach (allFin 24) (fun k x => readSurface (surfaceLines s k y0 y1) x) s
    let s1 := onCanvas (fun m => pixels.foldl (fun m p => canvasPut m (canvasKey p.1 p.2) (canvasPixel s p.1 p.2)) m)
      (askIo true [(canvasAt s.cfg 0 (y0 / 8), (divUp y1 8 - y0 / 8) * canvasTiles s.cfg * 1152)] s0)
    let s2 := forEach (allFin 24) (fun k x => noteTiles k (malformedIn s k y0 y1) x) s1
    reachLines 1 none y0 y1 (onComp (fun c => { c with band := c.band + 1 }) s2)
  else s

/-- SURFACE_READ_ERROR's payload (R86). -/
def surfaceWord (k : Layer) (plane : Bool) (e : BusError) (line a : Nat) : Nat :=
  pack [(0, 5, k.val), (5, 1, plane.toNat), (6, 2, (errorKind e).val - 1), (16, 16, line), (64, 64, a)]

/-- A surface read fails (R81): the layer contributes nothing from the first canvas line affected on; its event is raised at
the first failed read of the layer in the tick. A read whose data no line needs raises none (log entry 79). -/
def surfaceFails (k : Layer) (plane : Bool) (e : BusError) (a : Nat) (s : State) : State :=
  let s1 := cxlError (errorKind e) 0 a s
  if composes s && layerCounts s.cfg k then
    match (failedRows s k plane a).bind (firstLine s k) with
    | some line =>
      match s1.comp.errLine[k] with
      | some l => onComp (fun c => { c with errLine := c.errLine.set k (some (min l line)) }) s1
      | none =>
        raise (srcLayer k) evSurfaceReadError (surfaceWord k plane e line a)
          (onComp (fun c => { c with errLine := c.errLine.set k (some line) }) s1)
    | none => s1
  else s1

/-! ## Resampling (R127, R128, R135) -/

/-- The constant a of a kernel. -/
def kernelA (kernel : Nat) : Rat :=
  match kernel with
  | 0 => -1 / 2
  | 1 => -3 / 4
  | _ => -1

/-- K(d) of R127. -/
def kernelAt (a d : Rat) : Rat :=
  if d ≤ 1 then (a + 2) * d * d * d - (a + 3) * d * d + 1
  else if d < 2 then a * d * d * d - 5 * a * d * d + 8 * a * d - 4 * a
  else 0

/-- The four weights of a phase, the largest adjusted so that they sum to 16384. -/
def kernelWeights (kernel p : Nat) : List Int :=
  let ws := [0, 1, 2, 3].map fun (m : Nat) =>
    let d : Rat := ((m : Int) : Rat) - 1 - (p : Rat) / 64
    ratRound (16384 * kernelAt (kernelA kernel) (if d < 0 then -d else d))
  let top := ws.foldl max (ws.headD 0)
  let at_ := (ws.findIdx? (· == top)).getD 0
  (List.range 4).map fun i => ws.getD i 0 + if i = at_ then 16384 - ws.sum else 0

/-- A canvas word that a tap takes (R128): outside the window 0, or the nearest pixel inside it with EDGE 1. -/
def tapWord (s : State) (v : HeadSh) (c : Colour) (x y : Int) : Int :=
  let inside := decide ((v.winX : Int) ≤ x) && decide (x < (v.winX : Int) + v.winW) && decide ((v.winY : Int) ≤ y) &&
    decide (y < (v.winY : Int) + v.winH)
  if !inside && !v.edge then 0
  else
    let xi := heldIn v.winX v.winW x
    let yi := heldIn v.winY v.winH y
    ((fld (canvasGet s.canvas (canvasKey xi yi)) (24 * c.val) 24 : Nat) : Int)

/-- The resampled word of a colour at an output pixel. -/
def resample (s : State) (x : HeadCfg) (g : Geom) (c : Colour) (xo yo : Nat) : Nat :=
  let px := g.pos false c xo yo
  let py := g.pos true c xo yo
  let wx := kernelWeights x.sh.kernel ((px % 1024).toNat / 16)
  let wy := kernelWeights x.sh.kernel ((py % 1024).toNat / 16)
  let row (j : Int) : Int := dot wx ([-1, 0, 1, 2].map fun i => tapWord s x.sh c (px / 1024 + i) (py / 1024 + j))
  (intClamp 0 0xFFFFFF (roundDiv (dot wy ([-1, 0, 1, 2].map row)) 268435456)).toNat

/-- The head colour matrix (R135). -/
def colourMix (m : Vector Int 12) (v : Vector Nat 3) (c : Colour) : Nat :=
  let k (j : Nat) : Int := m[4 * c.val + j]!
  let w (j : Nat) : Int := ((v[j]! : Nat) : Int)
  (intClamp 0 0xFFFFFF ((k 0 * w 0 + k 1 * w 1 + k 2 * w 2 + 65536) / 131072 + k 3 * 16)).toNat

/-- The eye position that a build uses (R129). -/
def eyeOf (s : State) (h : Head) : Option Nat := if s.cfg.heads[h].sh.eyeEn then some s.cfg.eye else none

/-- The geometry of the build of a head. -/
def buildGeom (s : State) (h : Head) : Geom :=
  geomOf s.cfg.heads[h] s.cfg.heads[h].mesh0 s.cfg.heads[h].mesh1 (eyeOf s h)

/-- An output pixel lies under the head's safety window (R51, R117). -/
def underWindow (s : State) (h : Head) (x y : Nat) : Bool :=
  let w := s.cfg.wins[h]
  let z := windowSize s
  winShown s h && decide (w.wx ≤ x) && decide (x < w.wx + z.1) && decide (w.wy ≤ y) && decide (y < w.wy + z.2)

/-- The three words of an output pixel; 0 under the safety window (R173, R236). -/
def outPixel (s : State) (h : Head) (xo yo : Nat) : Vector Nat 3 :=
  if underWindow s h xo yo then #v[0, 0, 0]
  else
    let x := s.cfg.heads[h]
    let g := buildGeom s h
    let v : Vector Nat 3 := Vector.ofFn fun c => resample s x g c xo yo
    Vector.ofFn fun c => colourMix x.colour v c

/-! ## The press (R173, R180, R183, R235, R244) -/

/-- The buffer that the press writes, and its address. -/
def pressBuf (s : State) (h : Head) : Bool := !s.heads[h].buf
def bufAddr (s : State) (h : Head) (b : Bool) : Nat :=
  s.cfg.mem.planeBase + areaOffset s.cfg h + (if b then bufferBytes s.cfg.heads[h] else 0)

/-- The code of a colour at an output pixel of an array head. -/
def arrayCode (s : State) (h : Head) (t : PlaneSeq) (c : Colour) (x y v : Nat) : Nat :=
  let a := s.cfg.heads[h].arr
  let sc := scaleOf s.heads[h].gBuild a.levelFloor
  codeOf t.depth (keptBase t c sc.1 sc.2) (threshold a.dither c (nextTick s) x y) v

/-- Byte i of entry e of an array frame: eight mirrors, mirror 0 in bit 0. A colour under the window has code 0. -/
def planeByte (s : State) (h : Head) (t : PlaneSeq) (e : SeqEntry) (i : Nat) : Byte :=
  let w := s.cfg.heads[h].outW
  BitVec.ofNat 8 (pack ((List.range 8).map fun b =>
    let x := (8 * i + b) % w
    let y := (8 * i + b) / w
    let code := if underWindow s h x y then 0 else arrayCode s h t e.colour x y (outPixel s h x y)[e.colour]
    (b, 1, code / 2 ^ e.bit % 2)))

/-- The 20-bit value of a raster pixel. -/
def rasterPixel (s : State) (h : Head) (c : Colour) (x y : Nat) : Nat :=
  let r := s.cfg.heads[h].ras
  if underWindow s h x y then 0
  else rasterCode (rasterScale s.heads[h].gBuild r.levelFloor) (threshold r.dither c (nextTick s) x y) (outPixel s h x y)[c]

/-- The 512 bytes of packet p of line y as stored: the descriptor 0, then 63 slots (R239). -/
def packetBytes (s : State) (h : Head) (y p : Nat) : List Byte :=
  List.replicate 8 0 ++ ((List.range 63).map fun i =>
    let x := 63 * p + i
    toBytes 8 (if x < s.cfg.heads[h].outW then pack (allColours.map fun c => (20 * c.val, 20, rasterPixel s h c x y)) else 0)).flatten

/-- The rows y0 to y1 − 1 of a head are written into the first `most` planes, or as line packets. -/
def pressRows (h : Head) (y0 y1 most : Nat) (s : State) : State :=
  let x := s.cfg.heads[h]
  let base := bufAddr s h (pressBuf s h)
  if x.raster then
    let packs := ((List.range (y1 - y0)).map fun j => (List.range (npkOf x.outW)).map fun p => (y0 + j, p)).flatten
    askIo true [(base + y0 * npkOf x.outW * 512, (y1 - y0) * npkOf x.outW * 512)] <| onPlanes (fun m => packs.foldl (fun m q => memPut m (base + (q.1 * npkOf x.outW + q.2) * 512) (packetBytes s h q.1 q.2)) m) s
  else match x.seq with
    | none => s
    | some t =>
      let lo := y0 * x.outW / 8
      let n := y1 * x.outW / 8 - lo
      let k := min most t.entries.length
      askIo true ((List.range k).map fun e => (base + e * planeStride x + lo, n)) <| onPlanes (fun m => ((List.range k).zip t.entries).foldl (fun m e =>
          memPut m (base + e.1 * planeStride x + lo) ((List.range n).map fun i => planeByte s h t e.2 (lo + i))) m) s

/-! ## Stripes (R130, R134, R183) -/

/-- The stripes of a head. -/
def stripeCount (x : HeadCfg) : Nat := divUp x.outH 128

/-- The tiles that miss the cache in a request (R130), with the cache. -/
def missStep (stripe : Nat) (st : List (Nat × Nat) × List (Nat × Nat × Nat)) (t : Nat × Nat) :
    List (Nat × Nat) × List (Nat × Nat × Nat) :=
  if st.1.contains t then (t :: st.1.erase t, st.2) else ((t :: st.1).take 168, (stripe, t) :: st.2)

/-- The tiles that the first n stripes of a build fill, each with its stripe, the latest first. -/
def Geom.misses (g : Geom) (n : Nat) : List (Nat × Nat × Nat) :=
  ((g.blocks.filter fun b => decide (b.2 < n)).foldl (fun st b =>
    match g.box b.1 b.2 with
    | some x => x.tiles.foldl (missStep b.2) st
    | none => st) (([], []) : List (Nat × Nat) × List (Nat × Nat × Nat))).2

/-- The canvas lines that a stripe reads have been written in this tick. -/
def stripeFed (s : State) (h : Head) (n : Nat) : Bool :=
  let g := buildGeom s h
  (List.range (divUp g.outW 64)).all fun b =>
    match g.box b n with
    | some x => decide (min s.cfg.canvas.h (8 * (x.y1 + 1)) ≤ 64 * s.comp.band)
    | none => true

/-- The next stripe of a head is warped from the canvas tiles that it fills, and written into all its planes. -/
def stripeDone (h : Head) (s : State) : State :=
  let n := s.heads[h].stripes
  let x := s.cfg.heads[h]
  if pressing s h && s.comp.hostBuild && decide (n < stripeCount x) && stripeFed s h n then
    let y0 := 128 * n
    let y1 := min (y0 + 128) x.outH
    let miss := (buildGeom s h).misses (n + 1)
    let fill := (miss.filter fun m => m.1 == n).reverse.map fun m => (canvasAt s.cfg m.2.1 m.2.2, 1152)
    let s1 := pressRows h y0 y1 256 (askIo false fill s)
    let s2 := onHead h (fun d => { d with
      stripes := n + 1, done := decide (n + 1 = stripeCount x), fills := miss.length }) s1
    reachLines 2 (some h) y0 y1 s2
  else s

/-! ## Cut builds (R26, R183, R367) -/

/-- How many entries have their final stripe written when a build stops: none while an earlier stripe is missing; in the last stripe,
which is written in entry order, how far the press came is free (log entry 40). -/
def entriesDone (h : Head) (s : State) : Nat × State :=
  let x := s.cfg.heads[h]
  let p := planeCount x
  let n := s.heads[h].stripes
  if x.raster || n + 1 < stripeCount x || p = 0 || !s.comp.hostBuild || !stripeFed s h n then (0, s)
  else
    let d := drawFree s
    (d.1.toNat % p, d.2)

/-- The build of a head is stopped, with BUILD_CUT; its frame will not be shown. The rows that the last stripe brought stay written. -/
def cutBuild (h : Head) (s : State) : State :=
  if pressing s h then
    let e := entriesDone h s
    let n := s.heads[h].stripes
    let s1 := if e.1 = 0 then e.2 else pressRows h (128 * n) s.cfg.heads[h].outH e.1 e.2
    raise (srcHead h) evBuildCut (pack [(0, 2, h.val), (8, 8, if e.1 = 0 then 0xFF else e.1 - 1), (16, 8, n)])
      (onHead h (fun d => { d with building := false, cut := true }) s1)
  else s

/-- An error of a canvas access or a plane-store write (R367): every affected build is cut at once. -/
def canvasFails (heads : BitVec 4) (traffic : Traffic) (e : BusError) (a : Nat) (s : State) : State :=
  noteBuilt (forEach allHeads (fun h s => if heads.getLsbD h.val then cutBuild h s else s) (cxlError (errorKind e) traffic.val a s))

/-- UNDERRUN's payload (R148). -/
def underrunWord (h : Head) (cause : Nat) (safeSeq : Bool) (n : Nat) : Nat :=
  pack [(0, 2, h.val), (2, 2, cause), (4, 1, safeSeq.toNat), (8, 4, sat 4 n)]

/-- A plane (or line) is sent dark because its data is late or could not be read (R151, R242, R367). -/
def darkPlane (h : Head) (s : State) : State :=
  let s1 := onHead h (fun d => { d with darkPlanes := d.darkPlanes + 1 }) s
  if s.heads[h].lateRaised then s1
  else raise (srcHead h) evUnderrun (underrunWord h 1 false s.heads[h].substs) (onHead h (fun d => { d with lateRaised := true }) s1)

/-- Plane e of a head, or packet y × NPK + p of a raster head, goes out dark: planes are counted, or the lines that hold such a
packet. -/
def noteDark (h : Head) (e : Nat) (s : State) : State :=
  let x := s.cfg.heads[h]
  let dark := s.links[h].dark
  let s1 := onLink h (fun l => { l with dark := e :: l.dark }) s
  if dark.contains e then s
  else if x.raster && dark.any (fun q => q / npkOf x.outW == e / npkOf x.outW) then s1
  else darkPlane h s1

/-- A plane-store read fails: the plane (of a raster head, the packet) is dark under R151 while the head shows host content. -/
def planeReadFails (h : Head) (plane : Nat) (e : BusError) (a : Nat) (s : State) : State :=
  let s1 := cxlError (errorKind e) 4 a s
  if s.heads[h].mode == .host || s.heads[h].mode == .subst then noteDark h plane s1 else s1

/-! ## The rows -/

/-- CANVAS_BAND_WRITTEN (R149). -/
def execCanvasBandWritten (s : State) : Host.Outcome State Fault Refusal := .next (settle (bandWritten s))

/-- WARP_STRIPE_DONE (R183). -/
def execWarpStripeDone (h : Head) (s : State) : Host.Outcome State Fault Refusal := .next (settle (stripeDone h s))

/-- BUILD_COMPLETE (R21). -/
def execBuildComplete (s : State) : Host.Outcome State Fault Refusal := .next (settle (noteBuilt s))

/-- SURFACE_READ_ERROR (R81). -/
def execSurfaceReadError (k : Layer) (plane : Bool) (e : BusError) (a : Addr) (s : State) : Host.Outcome State Fault Refusal :=
  .next (settle (surfaceFails k plane e a.toNat s))

/-- CANVAS_ACCESS_ERROR (R367). -/
def execCanvasAccessError (heads : BitVec 4) (traffic : Traffic) (e : BusError) (a : Addr) (s : State) :
    Host.Outcome State Fault Refusal := .next (settle (canvasFails heads traffic e a.toNat s))

/-- PLANE_STORE_READ_ERROR (R151, R367). -/
def execPlaneStoreReadError (h : Head) (plane : Nat) (e : BusError) (a : Addr) (s : State) :
    Host.Outcome State Fault Refusal := .next (settle (planeReadFails h plane e a.toNat s))

end Sys2Proof.Machine
end

