-- ==== Sys2Proof/Machine/Lanes.lean ====
section
/-! DEFINITION. The coding of the plane link (R192 to R201): blocks and control words as bodies of 66-bit words, and the words as they
leave a lane's pins. -/

namespace Sys2Proof.Machine

/-- Words go out on a lane. -/
def sendWords (g : Head) (lane : Fin 8) (ws : List (Bool × Nat)) (s : State) : State :=
  let x := codeWords (s.cfg.links[g].txPol.testBit lane.val) s.links[g].scram[lane].toNat ws
  emit (.lane g lane x.1) (onLink g (fun l => { l with scram := l.scram.set lane (BitVec.ofNat 58 x.2) }) s)

/-! ## Blocks (R193, R196 to R198) -/

/-- The CRC-32C over header and payload (R198). -/
def blockCrc (header : BitVec 32) (payload : List Byte) : BitVec 32 := BitVec.ofNat 32 (crc32c (toBytes 4 header.toNat ++ payload))

/-- A block as its 65 words: one marker word and 64 data words, which carry the header, the payload and the CRC in transmission
order. -/
def blockWords (header : BitVec 32) (payload : List Byte) : List (Bool × Nat) :=
  let bytes := toBytes 4 header.toNat ++ payload ++ toBytes 4 (blockCrc header payload).toNat
  (List.range 65).map fun w => (w == 0, leNat ((bytes.drop (8 * w)).take 8))

/-- A block goes out on a lane. -/
def emitBlock (g : Head) (lane : Fin 8) (header : BitVec 32) (payload : List Byte) (s : State) : State :=
  sendWords g lane (blockWords header payload) s

/-! ## Control words (R200, R201) -/

def idleBody : Nat := ctrlBody 0 0 0
def schedBody (entry time : Nat) : Nat := ctrlBody 1 (pack [(0, 7, entry)]) (pack [(0, 21, time)])
def syncBody (frame : Nat) (h : Head) (at_ count : Nat) : Nat :=
  ctrlBody 2 (pack [(0, 9, frame), (9, 2, h.val)]) (pack [(0, 24, at_), (24, 7, count)])
def echoBody (tag : Nat) : Nat := ctrlBody 3 tag 0

/-- A control word goes out on a lane. -/
def laneCtrl (g : Head) (lane : Fin 8) (body : Nat) (s : State) : State := sendWords g lane [(true, body)] s

/-- IDLE, for as long as a lane has nothing else to send (R193, R195). -/
def sendIdle (g : Head) (lane : Fin 8) (s : State) : State := laneCtrl g lane idleBody s

end Sys2Proof.Machine
end

