-- ==== Sys2Proof/Machine/Link.lean ====
section
/-! DEFINITION. The plane link (07): blocks, acknowledgement and re-send, read-back, array status, training. -/

namespace Sys2Proof.Machine

/-! ## The frame on a head -/

/-- Bits 8:0 of the show tick's number (R197). -/
def frameNo (s : State) : Nat := s.clk.tick % 512

/-- What an array head sends in this tick: the sequence of the frame shown, or the safe sequence. -/
inductive Shown where
  | host (t : PlaneSeq)
  | safe
  | nothing
deriving DecidableEq, Repr

/-- The index of a buffer. -/
def bufIdx (b : Bool) : Fin 2 := if b then 1 else 0

/-- What a head shows as planes. -/
def shownOf (s : State) (h : Head) : Shown :=
  match s.heads[h].mode with
  | .host | .subst => match s.heads[h].pressed[bufIdx s.heads[h].buf].seq with
    | some t => .host t
    | none => .safe
  | .safe => .safe
  | _ => .nothing

/-- Entries of what is shown; the safe sequence has twelve (R186). -/
def Shown.entries : Shown → Nat
  | .host t => t.entries.length
  | .safe => 12
  | .nothing => 0

/-- The colour and the glyph bit of an entry of the safe sequence (R186). -/
def safeEntry (i : Nat) : Colour × Nat := (Fin.ofNat 3 (i / 4), 3 - i % 4)

/-- The colour of entry e and the glyph bit that it shows in the window, where it shows one (R199). -/
def entryGlyph (w : Shown) (e : Nat) : Colour × Option Nat :=
  match w with
  | .safe => ((safeEntry e).1, some (safeEntry e).2)
  | .host t => match t.entries[e]? with
    | some x => (x.colour, if t.depth ≤ x.bit + 4 then some (x.bit + 4 - t.depth) else none)
    | none => (0, none)
  | .nothing => (0, none)

/-- Blocks of a plane (R163). -/
def planeBlocks (x : HeadCfg) : Nat := divUp (x.outW * x.outH) 4096

/-- A mirror's place by its number in the plane. -/
def mirrorAt (x : HeadCfg) (i : Nat) : Nat × Nat := (i % x.outW, i / x.outW)

/-- A block holds a safety-window mirror (R199). -/
def windowBlock (s : State) (h : Head) (b : Nat) : Bool :=
  let x := s.cfg.heads[h]
  (List.range (min 4096 (x.outW * x.outH - 4096 * b))).any fun j =>
    let m := mirrorAt x (4096 * b + j)
    underWindow s h m.1 m.2

/-- The bytes of the plane store that block b of plane e is made of, as (address, length). -/
def blockRange (s : State) (h : Head) (w : Shown) (e b : Nat) : Nat × Nat :=
  let x := s.cfg.heads[h]
  match w with
  | .host t => (s.cfg.mem.planeBase + areaOffset s.cfg h +
      (if s.heads[h].buf then t.entries.length * planeStride x else 0) + e * planeStride x + 512 * b, min 512 (planeBytes x - 512 * b))
  | _ => (0, 0)

/-- What the prefetch brings of a block: its bytes in the plane store, none of a plane sent dark or of the safe sequence. -/
def fetchBlock (s : State) (h : Head) (w : Shown) (dark : Bool) (e b : Nat) : List Byte :=
  let r := blockRange s h w e b
  if dark then [] else memRead s.planes r.1 r.2

/-- Byte j of block b of plane e as sent: the fetched byte with the window's bits merged in (R199). -/
def sentByte (s : State) (h : Head) (w : Shown) (data : List Byte) (e b j : Nat) : Byte :=
  let x := s.cfg.heads[h]
  let host : Byte := data.getD j 0
  let g := entryGlyph w e
  BitVec.ofNat 8 (pack ((List.range 8).map fun i =>
    let n := 8 * (512 * b + j) + i
    let m := mirrorAt x n
    let v := if decide (n < x.outW * x.outH) && underWindow s h m.1 m.2 then
        match g.2 with
        | some k => glyphAt s s.safety.lit g.1 (m.1 - s.cfg.wins[h].wx) (m.2 - s.cfg.wins[h].wy) / 2 ^ k % 2
        | none => 0
      else (host.getLsbD i).toNat
    (i, 1, v)))

/-- The payload of a block (R196, R199). -/
def blockPayload (s : State) (h : Head) (w : Shown) (data : List Byte) (e b : Nat) : List Byte :=
  (List.range 512).map fun j => sentByte s h w data e b j

/-- The header of R197. -/
def blockHeader (s : State) (h : Head) (kind plane block : Nat) : BitVec 32 :=
  BitVec.ofNat 32 (pack [(0, 12, block), (12, 7, plane), (19, 2, h.val), (21, 2, kind), (23, 9, frameNo s)])

/-- The group runs: its lanes carry words. Before that they are electrically idle but for a training (R195). -/
def linkLive (s : State) (g : Head) : Bool := decide (2 ≤ s.links[g].state)

/-- The group sends: it runs at the rate of its last training and is not stopped. -/
def linkSends (s : State) (g : Head) : Bool := linkLive s g && s.links[g].newRate.isNone && !s.links[g].stopped

/-- The group runs with READY (R418). -/
def linkReady (s : State) (g : Head) : Bool := s.links[g].state == 2 && s.links[g].ready && !s.links[g].fault

/-- The head type's group: RX_PLANES of the array record, 4 on a raster head (R241). -/
def rxPlanes (x : HeadCfg) : Nat := if x.raster then 4 else x.arr.rxPlanes

/-! ## Sending blocks (R164, R190, R209, R210) -/

/-- Plane e has a free receiver buffer: entry e − RX_PLANES has ended, that is the next entry has started. -/
def bufferFree (s : State) (h : Head) (e : Nat) : Bool :=
  let rx := rxPlanes s.cfg.heads[h]
  decide (e < rx) || decide (e - rx + 1 < s.heads[h].entry) || !s.heads[h].showing && decide (0 < s.heads[h].entry)

/-- The block of a lane's pointer: plane, index on the lane; the block's number is 8 × index + lane. -/
def lanePlane (p : Nat) : Nat := p / 4096
def laneBlock (p : Nat) (lane : Fin 8) : Nat := 8 * (p % 4096) + lane.val

/-- The pointer after a block: the lane's next block, or the next plane. -/
def laneNext (x : HeadCfg) (lane : Fin 8) (p : Nat) : Nat :=
  if laneBlock (p + 1) lane < planeBlocks x then p + 1 else (p / 4096 + 1) * 4096

/-- Only safety-window blocks of a plane are sent: the safe sequence, and a plane sent dark (R151, R186). -/
def onlyWindow (s : State) (h : Head) (w : Shown) (e : Nat) : Bool := w == .safe || s.links[h].dark.contains e

/-- The pointer past the blocks that are not to be sent, and past planes whose entries have started. -/
def skipTo (s : State) (h : Head) (w : Shown) (lane : Fin 8) : Nat → Nat → Nat
  | 0, p => p
  | k + 1, p =>
    let x := s.cfg.heads[h]
    let e := lanePlane p
    if w.entries ≤ e then p
    else if s.heads[h].showing && decide (e < s.heads[h].entry) then skipTo s h w lane k ((e + 1) * 4096)
    else if decide (planeBlocks x ≤ laneBlock p lane) then skipTo s h w lane k ((e + 1) * 4096)
    else if onlyWindow s h w e && !windowBlock s h (laneBlock p lane) then skipTo s h w lane k (laneNext x lane p)
    else p

/-- More steps than a lane has blocks in a frame: 96 planes of 512 blocks on a lane (R116, R159). -/
def skipFuel : Nat := 100000

/-- Blocks of a lane that are held in the re-send buffer. -/
def laneHeld (l : LinkDyn) (lane : Fin 8) : Nat := (l.flights.filter fun f => f.block % 8 == lane.val).length

/-- A block of a plane goes out, for the first time or again, with the data that the buffer holds of it. -/
def sendPlaneBlock (h : Head) (lane : Fin 8) (e b : Nat) (data : List Byte) (s : State) : State :=
  emitBlock h lane (blockHeader s h (if windowBlock s h b then 1 else 0) e b) (blockPayload s h (shownOf s h) data e b) s

/-- A re-send that is due on a lane (R209): ahead of any block not yet sent. -/
def dueResend (l : LinkDyn) (lane : Fin 8) : Option Flight := l.flights.find? fun f => !f.waiting && f.block % 8 == lane.val

/-- One block of another. -/
def Flight.same (f g : Flight) : Bool := f.plane == g.plane && f.block == g.block

/-- The block is transmitted again. -/
def resendBlock (h : Head) (lane : Fin 8) (f : Flight) (s : State) : State :=
  sendPlaneBlock h lane f.plane f.block f.data (onLink h (fun l => { l with
    resent := sat 32 (l.resent + 1)
    flights := l.flights.map fun x => if x.same f then { x with waiting := true, resends := x.resends + 1 } else x }) s)

/-- The lane's next block is fetched, enters the buffer and goes out. -/
def firstSend (h : Head) (lane : Fin 8) (w : Shown) (e p : Nat) (s : State) : State :=
  let b := laneBlock p lane
  let dark := s.links[h].dark.contains e
  let data := fetchBlock s h w dark e b
  let s1 := if data.isEmpty then s else askIo false [blockRange s h w e b] s
  sendPlaneBlock h lane e b data (onLink h (fun l => { l with
    next := l.next.set lane (laneNext s.cfg.heads[h] lane p)
    flights := l.flights ++ [{ plane := e, block := b, resends := 0, waiting := true, data := data }] }) s1)

/-- The next block boundary of a lane that sends: a re-send that is due, else the lane's next block once the receiver has a free
buffer for its plane and the lane has a free place (R164, R209, R210), else IDLE. `late` says that the plane's data was not
prefetched when the block was due, as it is not from a detached host (R368): the plane goes out dark (R151). -/
def laneSend (h : Head) (lane : Fin 8) (late : Bool) (s : State) : State :=
  let w := shownOf s h
  match dueResend s.links[h] lane with
  | some f => resendBlock h lane f s
  | none =>
    let p := skipTo s h w lane skipFuel s.links[h].next[lane]
    let e := lanePlane p
    if w.entries ≤ e || !bufferFree s h e || 8 ≤ laneHeld s.links[h] lane then sendIdle h lane s
    else
      let fresh := !s.links[h].dark.contains e && w != .safe && (allFin 8).all fun k => decide (s.links[h].next[k] ≤ e * 4096)
      let s1 := if (late || !s.cxl.attached) && fresh then noteDark h e s else s
      let p1 := skipTo s1 h w lane skipFuel p
      if lanePlane p1 ≠ e then sendIdle h lane (onLink h (fun l => { l with next := l.next.set lane p1 }) s1)
      else firstSend h lane w e p1 s1

/-- The start of a unit on a lane of an array head: a block where the group sends, IDLE where it runs and does not (R195, R212). The
lanes of a group that does not run carry no blocks. -/
def blockSend (h : Head) (lane : Fin 8) (late : Bool) (s : State) : State :=
  if s.cfg.heads[h].raster || !linkLive s h then s
  else if !linkSends s h || s.clk.phase == .latch || shownOf s h == .nothing then sendIdle h lane s
  else laneSend h lane late s

/-- A stop takes effect at an entry boundary, which on a raster head is a line start (R212). -/
def stopAtEntry (h : Head) (s : State) : State :=
  if s.links[h].stopping then onLink h (fun l => { l with stopping := false, stopped := true }) s else s

/-! ## Answers (R207 to R211) -/

/-- CHK of a back-channel word (R200, R207). -/
def backOk (btype : Nat) (w : BackWord) : Bool := crc8Bits 56 (btype + w.fields.toNat * 256) 0 == w.chk.toNat

/-- The place of an answer: lane, block, plane and frame, and KIND2. -/
def ackLane (w : BackWord) : Nat := fld w.fields 0 3
def ackBlock (w : BackWord) : Nat := fld w.fields 3 12
def ackPlane (w : BackWord) : Nat := fld w.fields 15 7
def ackFrame (w : BackWord) : Nat := fld w.fields 22 9
def ackRaster (w : BackWord) : Bool := bit w.fields 31

/-- The lane of a flight: block mod 8, or of a line packet (y × NPK + p) mod 8 (R190, R238). -/
def flightLane (x : HeadCfg) (f : Flight) : Nat := if x.raster then (f.block * npkOf x.outW + f.plane) % 8 else f.block % 8

/-- The flights of a head. -/
def flightsOf (s : State) (h : Head) : List Flight := if s.cfg.heads[h].raster then s.rasters[h].flights else s.links[h].flights
def onFlights (h : Head) (f : List Flight → List Flight) (s : State) : State :=
  if s.cfg.heads[h].raster then onRaster h (fun r => { r with flights := f r.flights }) s
  else onLink h (fun l => { l with flights := f l.flights }) s

/-- The flight that an answer names, while it waits for one. -/
def answered (h : Head) (w : BackWord) (s : State) : Option Flight :=
  if ackFrame w == frameNo s && ackRaster w == s.cfg.heads[h].raster then
    (flightsOf s h).find? fun f => f.waiting && f.block == ackBlock w && f.plane == ackPlane w && flightLane s.cfg.heads[h] f == ackLane w
  else none

/-- A head's window is lost: a latched fault, mechanism 7 or 9 (R329, R332, R341). -/
def windowLoss (m : Nat) (h : Head) (colour rho : Nat) (s : State) : State := safetyFault m (some h) h.val colour false false rho s

/-- A KIND 1 block, or a packet with window pixels, is lost: the first in each of two consecutive ticks is a window loss (R329). -/
def noteWinLost (h : Head) (s : State) : State :=
  let s1 := onHead h (fun d => { d with winLost := true }) s
  if s.heads[h].winLostPrev && !s.heads[h].winLost then windowLoss 9 h 0 0 s1 else s1

/-- An array block is lost (R209): its plane is remembered until RESET_DONE, a KIND 1 block counts for R329. -/
def blockLost (h : Head) (plane block : Nat) (s : State) : State :=
  let s1 := onLink h (fun l => { l with
    blocksLost := l.blocksLost + 1
    lostPlanes := match l.lostPlanes.find? (fun p => p.1 == plane) with
      | some p => l.lostPlanes.map fun q => if q.1 == plane then (plane, p.2 + 1) else q
      | none => l.lostPlanes ++ [(plane, 1)] }) s
  if windowBlock s h block then noteWinLost h s1 else s1

/-- The lines of what a raster head shows. -/
def linesShown (s : State) (h : Head) : Nat :=
  match s.heads[h].mode with
  | .safe => safeLines s.cfg.heads[h].ras
  | .host | .subst => s.cfg.heads[h].outH
  | .off | .dark => 0

/-- The output row of line y of a raster head: y, or the glyph row of the safe sequence (R245). -/
def lineRow (s : State) (h : Head) (y : Nat) : Nat :=
  if s.heads[h].mode == .safe then
    s.cfg.wins[h].wy + divRound (y * ((windowSize s).2 - 1)) (safeLines s.cfg.heads[h].ras - 1)
  else y

/-- A line packet holds window pixels. -/
def windowPacket (s : State) (h : Head) (y p : Nat) : Bool :=
  (List.range 63).any fun i => underWindow s h (63 * p + i) (lineRow s h y)

/-- A line packet is lost (R242); a table packet loses the table (R243). -/
def packetLost (h : Head) (p y : Nat) (s : State) : State :=
  let s1 := onLink h (fun l => { l with blocksLost := l.blocksLost + 1 }) s
  if y = 0xFFF then onRaster h (fun r => { r with tableLost := true }) s1
  else
    let s2 := onRaster h (fun r => { r with lostLines := if r.lostLines.contains y then r.lostLines else r.lostLines ++ [y] }) s1
    if windowPacket s h y p then noteWinLost h s2 else s2

/-- A flight is lost. -/
def flightLost (h : Head) (f : Flight) (s : State) : State :=
  let s1 := onFlights h (fun l => l.filter fun x => !x.same f) s
  if s.cfg.heads[h].raster then packetLost h f.plane f.block s1 else blockLost h f.plane f.block s1

/-- A block counts as refused (R209): it is due for re-sending, at most three times, else lost. -/
def refused (h : Head) (f : Flight) (s : State) : State :=
  if f.resends < 3 then onFlights h (fun l => l.map fun x => if x.same f then { x with waiting := false } else x) s
  else flightLost h f s

/-- ACK: the block is acknowledged; the read-back may yet take the acknowledgement back (R219). -/
def acked (h : Head) (w : BackWord) (s : State) : State :=
  if !backOk 0x10 w then s
  else match answered h w s with
    | some f => onLink h (fun l => { l with acked := f :: l.acked }) (onFlights h (fun l => l.filter fun x => !x.same f) s)
    | none => s

/-- REFUSE. -/
def refusal (h : Head) (w : BackWord) (s : State) : State :=
  if !backOk 0x11 w then s
  else match answered h w s with
    | some f => refused h f (onLink h (fun l => { l with refusals := l.refusals + 1 }) s)
    | none => s

/-- The answer window of a block ends without an answer. -/
def unanswered (h : Head) (plane block : Nat) (s : State) : State :=
  match (flightsOf s h).find? (fun f => f.waiting && f.plane == plane && f.block == block) with
  | some f => refused h f (onLink h (fun l => { l with timeouts := l.timeouts + 1 }) s)
  | none => s

/-- The blocks of plane e that a lane has not sent and would send. -/
def unsent (s : State) (h : Head) (w : Shown) (e : Nat) (lane : Fin 8) : List Nat :=
  let x := s.cfg.heads[h]
  let p := s.links[h].next[lane]
  ((List.range (divUp (planeBlocks x) 8)).map fun i => 8 * i + lane.val).filter fun b =>
    decide (b < planeBlocks x) && decide (p ≤ e * 4096 + b / 8) && (!onlyWindow s h w e || windowBlock s h b)

/-- The packets of a line that are not yet sent at its deadline. -/
def unsentPackets (s : State) (h : Head) (y : Nat) : List Nat :=
  let n := npkOf s.cfg.heads[h].outW
  (List.range n).filter fun p => decide (s.rasters[h].packet ≤ y * n + p)

/-- RASTER_FAULT's payload (R246). -/
def rasterFaultWord (h : Head) (cause f : Nat) : Nat := pack [(0, 2, h.val), (2, 3, cause), (32, 32, f)]

/-- R243 when the table's deadline has passed, at S_k or at a boundary: a table that is due and not wholly delivered leaves the head
dark, with cause 4, and is sent again in the next tick. A group that does not send has no table due: it is due again when READY has
risen. -/
def tableCheck (h : Head) (s : State) : State :=
  let r := s.rasters[h]
  if !s.cfg.heads[h].raster || !r.tableDue then s
  else if !linkSends s h then onRaster h (fun r => { r with tableDue := false }) s
  else if r.tableLost || r.tableNext < 6 || r.flights.any (fun f => f.block == 0xFFF) then
    raise (srcRaster h) evRasterFault (rasterFaultWord h 4 r.fNow)
      (onHead h (fun d => { d with mode := .dark })
        (onRaster h (fun r => { r with tableNext := 0, tableLost := false, flights := r.flights.filter fun f => f.block != 0xFFF }) s))
  else onRaster h (fun r => { r with tableDue := false }) s

/-- The deadline of a line's packets (R240, R242): those in flight and those not sent are lost. -/
def lineDeadline (h : Head) (y : Nat) (s : State) : State :=
  let n := npkOf s.cfg.heads[h].outW
  let rest := if y < linesShown s h then unsentPackets s h y else []
  let s1 := forEach (s.rasters[h].flights.filter fun f => f.block == y) (flightLost h) s
  onRaster h (fun r => { r with packet := max r.packet ((y + 1) * n) }) (forEach rest (fun p s => packetLost h p y s) s1)

/-- The deadline of a plane (R163, R209): blocks that are not acknowledged are lost, and nothing more of it is sent. On a raster
head the deadline is that of a line's packets, or with 0xFFF that of the table packets. -/
def deadline (h : Head) (plane : Nat) (s : State) : State :=
  let w := shownOf s h
  if s.cfg.heads[h].raster then
    (if plane = 0xFFF then forEach (s.rasters[h].flights.filter fun f => f.block == plane) (flightLost h) s
    else if linkSends s h then lineDeadline h plane s else s)
  else if !linkSends s h || w.entries ≤ plane then s
  else
    let open_ := s.links[h].flights.filter fun f => f.plane == plane
    let rest := ((allFin 8).map fun k => unsent s h w plane k).flatten
    let s1 := forEach open_ (flightLost h) s
    let s2 := forEach rest (fun b s => blockLost h plane b s) s1
    onLink h (fun l => { l with next := l.next.map fun p => max p ((plane + 1) * 4096) }) s2

/-! ## Read-back (R217 to R219) -/

/-- LINK_READBACK_FAIL's payload (R221). -/
def readbackWord (g : Head) (lane : Fin 8) (special control : Bool) (block plane : Nat) : Nat :=
  pack [(0, 2, g.val), (2, 3, lane.val), (5, 1, special.toNat), (6, 1, control.toNat), (7, 12, block), (19, 7, plane)]

/-- The instant of entry 0 of the frame shown, from the boundary, in units of 250 ps: S_k, then the lead. -/
def entryStart (s : State) (h : Head) : Nat :=
  (20 + s.cfg.span.blankLen + 2 * s.cfg.span.skew[h]) * 4000 +
    (if shownOf s h == .safe then 480000 else 40 * s.heads[h].lead)

/-- The mirror time of entry e as SCHED carries it (R202). -/
def schedTime (s : State) (h : Head) (e : Nat) : Nat :=
  match shownOf s h with
  | .host t => (mirrorTimes s.cfg.heads[h].arr t).getD e 0
  | _ => 24000

/-- AT of a SYNC that has left a lane `done` (in 250 ps) after the boundary: entry 0's start less that time and the lane's delay
(R202). -/
def syncAt (s : State) (h : Head) (lane : Fin 8) (done : Nat) : Nat := entryStart s h - done - s.links[h].delays[lane]

/-- The time that n words take on a lane, in 250 ps. -/
def wordsTime (s : State) (h : Head) (n : Nat) : Nat := divUp (264 * n * (if s.links[h].rateNow = 1 then 2 else 1)) 10

/-- SYNC of a lane. -/
def sendSync (h : Head) (done : Nat) (lane : Fin 8) (s : State) : State :=
  laneCtrl h lane (syncBody (frameNo s) h (syncAt s h lane done) (shownOf s h).entries) s

/-- SCHED of an entry. -/
def sendSched (h : Head) (lane : Fin 8) (e : Nat) (s : State) : State := laneCtrl h lane (schedBody e (schedTime s h e)) s

/-- TRAIN of a lane at the rate of the attempt. -/
def sendTrain (h : Head) (rate : Nat) (lane : Fin 8) (s : State) : State :=
  laneCtrl h lane (trainBody h lane rate s.links[h].ffe[lane]) s

/-- The TAG of the n-th ECHO of a lane: the lane in bits 6:4 (log entry 70). -/
def echoTag (lane : Fin 8) (n : Nat) : Nat := 16 * lane.val + n

/-- The mirror times of what is shown. -/
def schedule (s : State) (h : Head) : List Nat := (List.range (shownOf s h).entries).map (schedTime s h)

/-- SCHED words where the schedule differs from the last one sent or none was sent, then SYNC on all eight lanes (R202). -/
def sendTiming (h : Head) (s : State) : State :=
  let w := shownOf s h
  if s.cfg.heads[h].raster || !linkSends s h || w == .nothing then s
  else
    let l := s.links[h]
    let seq : Option PlaneSeq := match w with
      | .host t => some t
      | _ => none
    let same := l.schedKnown && l.schedSafe == (w == .safe) && l.sentSched == seq
    let s1 := if same then s else forEach (List.range w.entries) (fun e s => sendSched h (Fin.ofNat 8 e) e s) s
    let s2 := forEach (allFin 8) (fun k s =>
      sendSync h (wordsTime s h (1 + if same then 0 else (w.entries + 7 - k.val) / 8)) k s) s1
    onLink h (fun l => { l with schedKnown := true, schedSafe := w == .safe, sentSched := seq }) s2

/-- The rates of the policy of R215, coded as RATE_NOW. -/
def policy (rateMax : Nat) : List Nat :=
  match rateMax with
  | 0 => [2, 2, 1, 1]
  | 1 => [2, 2]
  | _ => [1, 1]

/-- The rate of the present attempt. -/
def attemptRate (g : Head) (s : State) : Nat := (policy s.cfg.links[g].rateMax).getD s.links[g].attempt 0

/-- The control word is sent again; `done` is when it has left the lane. -/
def resendWord (h : Head) (lane : Fin 8) (word : CtrlWord) (done : Nat) (s : State) : State :=
  match word with
  | .sync => sendSync h done lane s
  | .sched e => sendSched h lane e s
  | .echo n => laneCtrl h lane (echoBody (echoTag lane n)) s
  | .train => sendTrain h (attemptRate h s) lane s
  | .idle => sendIdle h lane s

/-- A mismatch on a control word: it is sent again at once. A SYNC or SCHED word that fails on its second sending is a window loss
(R217, R329). -/
def readbackCtrl (h : Head) (lane : Fin 8) (word : CtrlWord) (done : Nat) (s : State) : State :=
  let timing := match word with
    | .sched _ | .sync => true
    | _ => false
  let again := s.links[h].retried.contains (lane, word)
  let s1 := raise (srcLink h) evLinkReadbackFail (readbackWord h lane timing true 0 0) s
  let s2 := if timing then onLink h (fun l => { l with retried := (lane, word) :: l.retried }) s1 else s1
  resendWord h lane word done (if again && timing then windowLoss 9 h 0 0 s2 else s2)

/-- A mismatch on a block: it counts as refused, even where it has been acknowledged (R217, R219). -/
def readbackBlock (h : Head) (lane : Fin 8) (plane block : Nat) (s : State) : State :=
  let window := if s.cfg.heads[h].raster then block == 0xFFF || windowPacket s h block plane else windowBlock s h block
  let s1 := raise (srcLink h) evLinkReadbackFail (readbackWord h lane window false block plane)
    (onLink h (fun l => { l with badBlocks := l.badBlocks + 1 }) s)
  let this (f : Flight) : Bool := f.plane == plane && f.block == block
  match (flightsOf s h).find? (fun f => f.waiting && this f), s.links[h].acked.find? this with
  | some f, _ => refused h f s1
  | none, some f => refused h f (onFlights h (fun l => f :: l)
      (onLink h (fun l => { l with acked := l.acked.filter fun x => !this x }) s1))
  | none, none => s1

/-- A read-back mismatch. -/
def readback (h : Head) (lane : Fin 8) (r : Readback) (s : State) : State :=
  let s1 := onLink h (fun l => { l with mismatches := l.mismatches + 1, readback := sat 32 (l.readback + 1) }) s
  match r with
  | .block plane block => readbackBlock h lane plane block s1
  | .control word done => readbackCtrl h lane word done s1

/-! ## Training (R213 to R216) -/

/-- LINK_DOWN's payload. -/
def linkDownWord (g : Head) (cause lane : Nat) : Nat := pack [(0, 2, g.val), (2, 2, cause), (4, 3, lane)]

/-- The group goes down and asks for training (R215). -/
def groupDown (g : Head) (cause lane : Nat) (s : State) : State :=
  raise (srcLink g) evLinkDown (linkDownWord g cause lane)
    (onRaster g (fun r => { r with flights := [] }) (onLink g (fun l => { l with
      state := 0, rateNow := 0, newRate := none, step := none, attempt := 0, wanted := true, granted := false, retryTick := none
      ready := false, schedKnown := false, resume := false, stopping := false, stopped := true, flights := [], acked := []
      overTicks := 0 }) s))

/-- A running group loses its lock, its back-channel or its quality. -/
def groupFails (g : Head) (cause lane : Nat) (s : State) : State := if 2 ≤ s.links[g].state then groupDown g cause lane s else s

/-- A granted attempt starts at the end of LATCH: TRAIN words on all lanes. -/
def startTraining (g : Head) (s : State) : State :=
  let s1 := onLink g (fun l => { l with
    state := 1, granted := false, wanted := false, step := some .lock, locked := 0, eqDone := 0, ready := false
    ffe := Vector.replicate 8 (0, 0), echoes := Vector.replicate 8 0, delaySum := Vector.replicate 8 0
    trains := sat 32 (l.trains + 1), rateNow := 0, schedKnown := false, flights := [], acked := [] }) s
  forEach (allFin 8) (sendTrain g (attemptRate g s)) s1

/-- The attempt fails, for one lane where one is the cause: the policy's next attempt is asked for, or the group is down for 64
ticks. -/
def attemptFails (g : Head) (lane : Nat) (s : State) : State :=
  let l := s.links[g]
  if l.attempt + 1 < (policy s.cfg.links[g].rateMax).length then
    onLink g (fun l => { l with state := 0, step := none, attempt := l.attempt + 1, wanted := true }) s
  else raise (srcLink g) evLinkDown (linkDownWord g 3 lane)
    (onLink g (fun l => { l with state := 0, step := none, attempt := 0, wanted := false, retryTick := some (s.clk.tick + 64) }) s)

/-- The lane whose bit alone is missing from a mask; 0 where none or several are. -/
def loneLane (m : BitVec 8) : Nat :=
  match (allFin 8).filter fun k => !m.getLsbD k.val with
  | [k] => k.val
  | _ => 0

/-- A step's time limit passes with its condition unmet. -/
def stepTimeout (g : Head) (s : State) : State :=
  match s.links[g].step with
  | some .lock => attemptFails g (loneLane s.links[g].locked) s
  | some .equalise => attemptFails g (loneLane s.links[g].eqDone) s
  | some .echo | some .ready => attemptFails g 0 s
  | none => s

/-- 64 ticks after the last failure the policy starts again. -/
def retrainRetry (g : Head) (s : State) : State :=
  match s.links[g].retryTick with
  | some t => if t ≤ s.clk.tick then onLink g (fun l => { l with retryTick := none, wanted := true }) s else s
  | none => s

/-- One FFE request of a tap: 1 up, 2 down, within the codes of R499. -/
def ffeStep (most req v : Nat) : Nat :=
  match req with
  | 1 => min most (v + 1)
  | 2 => v - 1
  | _ => v

/-- Every bit of a lane mask is set. -/
def allLanes (m : BitVec 8) : Bool := m == BitVec.allOnes 8

/-- The 16 ECHO words of every lane. -/
def sendEchoes (g : Head) (s : State) : State :=
  forEach (allFin 8) (fun k s => forEach (List.range 16) (fun n s => laneCtrl g k (echoBody (echoTag k n)) s) s) s

/-- A TRAIN word of the back-channel. -/
def trainWord (g : Head) (w : BackWord) (s : State) : State :=
  if !backOk 0x31 w || s.links[g].state = 0 then s
  else
    let lane : Fin 8 := Fin.ofNat 8 (fld w.fields 0 3)
    let mask := BitVec.ofNat 8 (2 ^ lane.val)
    match s.links[g].step with
    | some .lock =>
      let s1 := if bit w.fields 3 then onLink g (fun l => { l with locked := l.locked ||| mask }) s else s
      if allLanes s1.links[g].locked then onLink g (fun l => { l with step := some .equalise }) s1 else s1
    | some .equalise =>
      let s1 := onLink g (fun l => { l with
        ffe := upd l.ffe lane (fun t => (ffeStep 13 (fld w.fields 4 2) t.1, ffeStep 25 (fld w.fields 6 2) t.2))
        eqDone := if bit w.fields 8 then l.eqDone ||| mask else l.eqDone }) s
      if allLanes s1.links[g].eqDone then sendEchoes g (onLink g (fun l => { l with step := some .echo }) s1)
      else sendTrain g (attemptRate g s1) lane s1
    | _ => onLink g (fun l => { l with
        ffe := upd l.ffe lane (fun t => (ffeStep 13 (fld w.fields 4 2) t.1, ffeStep 25 (fld w.fields 6 2) t.2)) }) s

/-- An ECHO reply: after 16 on a lane its one-way delay is known; over 400 ns the attempt fails. -/
def echoWord (g : Head) (roundTrip : Nat) (w : BackWord) (s : State) : State :=
  let tag := fld w.fields 0 13
  let lane : Fin 8 := Fin.ofNat 8 (tag / 16)
  if !backOk 0x30 w || s.links[g].step != some .echo || 128 ≤ tag || s.links[g].echoes[lane].getLsbD (tag % 16) then s
  else
    let s1 := onLink g (fun l => { l with
      echoes := upd l.echoes lane (fun m => m ||| BitVec.ofNat 16 (2 ^ (tag % 16)))
      delaySum := upd l.delaySum lane (fun n => n + (roundTrip - fld w.fields 13 16)) }) s
    if s1.links[g].echoes[lane] != BitVec.allOnes 16 then s1
    else
      let d := divRound s1.links[g].delaySum[lane] 32
      let s2 := onLink g (fun l => { l with delays := l.delays.set lane d }) s1
      if 1600 < d then attemptFails g lane.val s2
      else if (allFin 8).all fun k => s2.links[g].echoes[k] == BitVec.allOnes 16 then
        onLink g (fun l => { l with step := some .ready, dlMax := maxOf l.delays.toList id }) s2
      else s2

/-! ## Array status (R212) -/

/-- ARRAY_STATUS's payload. -/
def arrayStatusWord (h : Head) (s : State) : Nat :=
  let l := s.links[h]
  pack [(0, 2, h.val), (2, 1, l.ready.toNat), (3, 1, l.fault.toNat), (4, 1, l.mismatch.toNat), (8, 8, l.rxHeld)]

def tellArray (h : Head) (s : State) : State := raise (srcLink h) evArrayStatus (arrayStatusWord h s) s

/-- READY ends a training (R213, R215): the group runs, and sends at the new rate from the next LATCH. -/
def trained (h : Head) (s : State) : State :=
  let r := attemptRate h s
  raise (srcLink h) evLinkTrained (pack [(0, 2, h.val), (2, 2, r), (16, 16, sat 16 s.links[h].dlMax)])
    (onLink h (fun l => { l with
      state := 2, step := none, attempt := 0, newRate := some r, lastRate := r, stopping := false, stopped := true, resume := true }) s)

/-- A STATUS word: what it reports, the end of a training, and the reactions of R212. After a fall of READY or a rise of FAULT the
group stops at the next entry boundary. -/
def statusWord (h : Head) (w : BackWord) (s : State) : State :=
  if !backOk 0x20 w || s.links[h].state = 0 then s
  else
    let old := s.links[h]
    let ready := bit w.fields 0
    let fault := bit w.fields 2
    let rx := fld w.fields 16 8
    let mis := decide (rx < rxPlanes s.cfg.heads[h])
    let s1 := onLink h (fun l => { l with
      ready := ready, parked := bit w.fields 1, fault := fault, temp := signed 12 (fld w.fields 4 12), rxHeld := rx, mismatch := mis }) s
    let s2 := if old.step == some .ready && ready then trained h s1 else s1
    let down := (old.ready && !ready) || (!old.fault && fault)
    let up := !old.ready && ready && !fault
    let s3 := if s2.links[h].state < 2 then s2
      else if down then onLink h (fun l => { l with stopping := !l.stopped, resume := false, state := 3 }) s2
      else if up then onLink h (fun l => { l with resume := true, schedKnown := false, state := 2 }) s2
      else s2
    if down || up || (mis && !old.mismatch) then tellArray h s3 else s3

/-- RESET_DONE (R205, R206): an incomplete plane counts as dark; with a block of it lost, LINK_PLANE_LOST. -/
def resetDoneWord (h : Head) (w : BackWord) (s : State) : State :=
  let plane := fld w.fields 0 7
  if !backOk 0x21 w || s.cfg.heads[h].raster || s.links[h].state < 2 || fld w.fields 7 9 ≠ frameNo s || bit w.fields 16 then s
  else
    let told := s.links[h].dark.contains plane
    let s1 := if told then s else onHead h (fun d => { d with darkPlanes := d.darkPlanes + 1 }) s
    match s.links[h].lostPlanes.find? (fun p => p.1 == plane) with
    | some p =>
      raise (srcLink h) evLinkPlaneLost (pack [(0, 2, h.val), (8, 7, plane), (15, 9, frameNo s), (24, 12, sat 12 p.2)])
        (onLink h (fun l => { l with lost := sat 32 (l.lost + 1), lostPlanes := l.lostPlanes.filter fun q => q.1 != plane }) s1)
    | none => s1

/-- ARRAY_TIMING, once per tick per head. -/
def arrayLate (h : Head) (plane : Nat) (missing : Bool) (s : State) : State :=
  if s.links[h].timingRaised || s.links[h].state < 2 || s.cfg.heads[h].raster then s
  else raise (srcLink h) evArrayTiming (pack [(0, 2, h.val), (8, 7, plane), (15, 1, missing.toNat)])
    (onLink h (fun l => { l with timingRaised := true }) s)

/-! ## The rows -/

/-- PLANE_BLOCK_SEND (R164). -/
def execPlaneBlockSend (g : Head) (lane : Fin 8) (late : Bool) (s : State) : Host.Outcome State Fault Refusal :=
  .next (settle (blockSend g lane late s))

/-- ACK (R209). -/
def execAck (g : Head) (w : BackWord) (s : State) : Host.Outcome State Fault Refusal := .next (settle (acked g w s))

/-- REFUSE (R209). -/
def execRefuse (g : Head) (w : BackWord) (s : State) : Host.Outcome State Fault Refusal := .next (settle (refusal g w s))

/-- STATUS (R212). -/
def execStatus (g : Head) (w : BackWord) (s : State) : Host.Outcome State Fault Refusal := .next (settle (statusWord g w s))

/-- RESET_DONE (R206). -/
def execResetDone (g : Head) (w : BackWord) (s : State) : Host.Outcome State Fault Refusal := .next (settle (resetDoneWord g w s))

/-- BACKCHANNEL_ECHO (R213). -/
def execBackchannelEcho (g : Head) (roundTrip : Nat) (w : BackWord) (s : State) : Host.Outcome State Fault Refusal :=
  .next (settle (echoWord g roundTrip w s))

/-- BACKCHANNEL_TRAIN (R213). -/
def execBackchannelTrain (g : Head) (w : BackWord) (s : State) : Host.Outcome State Fault Refusal := .next (settle (trainWord g w s))

/-- ANSWER_TIMEOUT (R209). -/
def execAnswerTimeout (g : Head) (plane block : Nat) (s : State) : Host.Outcome State Fault Refusal :=
  .next (settle (unanswered g plane block s))

/-- PLANE_DEADLINE (R209). -/
def execPlaneDeadline (h : Head) (plane : Nat) (s : State) : Host.Outcome State Fault Refusal := .next (settle (deadline h plane s))

/-- LINK_READBACK_FAIL (R217). -/
def execLinkReadbackFail (g : Head) (lane : Fin 8) (r : Readback) (s : State) : Host.Outcome State Fault Refusal :=
  .next (settle (readback g lane r s))

/-- BACKCHANNEL_SILENT (R212). -/
def execBackchannelSilent (g : Head) (s : State) : Host.Outcome State Fault Refusal := .next (settle (groupFails g 1 0 s))

/-- ARRAY_TIMING (R212). -/
def execArrayTiming (h : Head) (plane : Nat) (missing : Bool) (s : State) : Host.Outcome State Fault Refusal :=
  .next (settle (arrayLate h plane missing s))

/-- LOCK_LOST (R194). -/
def execLockLost (g : Head) (lane : Fin 8) (s : State) : Host.Outcome State Fault Refusal := .next (settle (groupFails g 0 lane.val s))

/-- TRAINING_STEP_TIMEOUT (R213). -/
def execTrainingStepTimeout (g : Head) (s : State) : Host.Outcome State Fault Refusal := .next (settle (stepTimeout g s))

/-- LINK_RETRAIN_RETRY (R215). -/
def execLinkRetrainRetry (g : Head) (s : State) : Host.Outcome State Fault Refusal := .next (settle (retrainRetry g s))

end Sys2Proof.Machine
end

