-- ==== Sys2Proof/Machine/Channels.lean ====
section
/-! DEFINITION. The light channels as they run (09): judged windows, faults, restarts, diagnostic pulses, drift checks, and the
energy trip (11). -/

namespace Sys2Proof.Machine

/-! ## Light held off -/

/-- A hardware cut holds every buck gate low (R315, R334, R337, R345). -/
def lightCut (s : State) : Bool :=
  s.safety.hwDivert || s.safety.energy || s.therm.groups[(0 : Fin 2)].tripped || s.therm.groups[(1 : Fin 2)].tripped

/-- A head may light: no dark reaction stands on it (R341). -/
def mayLight (s : State) (h : Head) : Bool :=
  !lightCut s && s.safety.mode != .dark && !s.safety.headDark.getLsbD h.val && !s.rasters[h].guard

/-- The head shows host content or the safety window. -/
def showsLight (s : State) (h : Head) : Bool :=
  s.heads[h].mode == .host || s.heads[h].mode == .subst || (s.heads[h].mode == .safe && winShown s h)

/-! ## Faults (R258, R262, R330) -/

/-- CH_FAULT's payload (R285). -/
def chFaultWord (n : Chan) (cause : Nat) (latched : Bool) (vS iMeas extra : Nat) : Nat :=
  pack [(0, 6, n.val), (8, 3, cause), (11, 1, latched.toNat), (16, 16, sat 16 vS), (32, 16, sat 16 iMeas), (48, 16, extra)]

/-- CH_STATE's payload. -/
def chStateWord (n : Chan) (st : Nat) : Nat := pack [(0, 6, n.val), (8, 2, st)]

/-- A second over-current within 4096 ticks of the last. -/
def againOver (s : State) (n : Chan) : Bool :=
  match s.chans[n].lastOver with
  | some t => decide (s.clk.tick < t + 4096)
  | none => false

/-- The fault's latch: causes 0, 1 and 5 always, 2 the second time. -/
def faultLatches (s : State) (n : Chan) (cause : Nat) : Bool := cause != 2 || againOver s n

/-- The reaction to a fault: both buck gates low, LCSG high, CH_FAULT, then CH_STATE where the channel was in no fault. -/
def faultChan (n : Chan) (cause vS iMeas : Nat) (s : State) : State :=
  let latched := faultLatches s n cause
  let s1 := onChan n (fun c => { c with
    state := 3, cause := cause, latched := latched, gateOpen := false, bucksOff := true, started := false, unjudged := 0
    lastOver := if cause = 2 then some s.clk.tick else c.lastOver
    restart := if latched then none else some (s.clk.tick + 64) }) s
  let s2 := raise (srcChan n) evChFault (chFaultWord n cause latched vS iMeas 0) s1
  if s.chans[n].state == 3 then s2 else raise (srcChan n) evChState (chStateWord n 3) s2

/-- A channel starts (R274): from REF 0, waiting for its grant. -/
def startChan (n : Chan) (s : State) : State :=
  raise (srcChan n) evChState (chStateWord n 1) (onChan n (fun c => { c with
    state := 1, ref := 0, latched := false, restart := none, started := false, unjudged := 0 }) s)

/-- The open-string and short-string conditions of R258; open first. -/
def judgeCause (s : State) (n : Chan) (vS : Nat) (m : ChanMeas) : Option Nat :=
  let v := s.cfg.chans[n].lv
  if v.vOpen ≤ vS || (decide (97 / 100 ≤ m.dPass) && decide (m.iMean < 3 / 4 * s.chans[n].iCmd)) then some 0
  else if vS ≤ v.vShort then some 1
  else none

/-- V_S of R252, in units of 10 mV: the supply at the input that SUPPLY selects, 1.000 V being 4096 codes, through LVS_DIV, by the
difference of the duties (log entry 75). -/
def stringVolts (c : ChanSt) (m : ChanMeas) : Nat :=
  let pin : Rat := ((m.lvs[Fin.ofNat 4 c.supply] : BitVec 12).toNat : Rat) / 4096
  (ratRound ((m.dPass - m.dDiv) * (pin * (c.lvsDiv : Rat) / 16) * 100)).toNat

/-- The end of a window of a running channel: judged where LCSG stayed low for 2 µs (R252, R257). A diagnostic pulse ends with it. -/
def judgeChan (n : Chan) (m : ChanMeas) (s : State) : State :=
  let st := s.cfg.chans[n].st
  if s.chans[n].state != 2 || !s.chans[n].opened || m.ns < 2000 then s
  else
    let vS := sat 16 (stringVolts st m)
    let iMeas := (ratRound m.iMean).toNat
    let s1 := onChan n (fun c => { c with
      vS := vS, vKnown := true, iMeas := iMeas, since := 0, unjudged := 0
      gateOpen := c.gateOpen && s.heads[st.head].gateOpen, opened := c.gateOpen && s.heads[st.head].gateOpen }) s
    match judgeCause s n vS m with
    | some cause => faultChan n cause vS iMeas s1
    | none => s1

/-- The conditions of over-current (R258). -/
def overCurrent (c : ChanSt) (m : OverMeas) : Bool :=
  decide ((c.ocLevel : Rat) / 100 * (c.iMax : Rat) < m.iMean) || decide (16 ≤ m.peaks)

/-- Over-current, at any time while the stage runs. -/
def overCurrentFault (n : Chan) (m : OverMeas) (s : State) : State :=
  if (s.chans[n].state == 1 || s.chans[n].state == 2) && overCurrent s.cfg.chans[n].st m then
    faultChan n 2 s.chans[n].vS (ratRound m.iMean).toNat s
  else s

/-- The automatic restart, 64 ticks after an over-current. -/
def restartChan (n : Chan) (s : State) : State :=
  match s.chans[n].restart with
  | some t => if s.chans[n].state == 3 && decide (t ≤ s.clk.tick) && chanRuns s n then startChan n s else s
  | none => s

/-- A gate fault latches the channel, also one that is in fault already (R330); it is told once while it is latched for it. -/
def gateFaultChan (n : Chan) (s : State) : State :=
  if s.chans[n].state == 3 && s.chans[n].latched && s.chans[n].cause == 5 then s
  else faultChan n 5 s.chans[n].vS s.chans[n].iMeas s

/-! ## Trips (R315, R345): hardware acts, then the events -/

/-- Every channel is cut and the safe state entered; SAFETY_FAULT, the trip's own event, SAFE_STATE_ENTER. -/
def tripFault (m head colour : Nat) (restartable : Bool) (src : Nat) (code : BitVec 16) (payload : Nat) (s : State) : State :=
  let latched := !restartable || recentRestart s
  let s1 := safeReact m none true restartable (divert (fun _ => true) true s)
  let s2 := raise src code payload (raise srcSafe evSafetyFault (safetyFaultWord m head colour latched 0) s1)
  if s1.safety.mode == s.safety.mode then s2 else raise srcSafe evSafeStateEnter (safeEnterWord s2) s2

/-- The energy limiter trips; it stays latched until reset. -/
def energyTrips (h : Head) (c : Colour) (long : Bool) (s : State) : State :=
  if s.safety.energy then s
  else tripFault 10 h.val c.val false (srcEnergy h) evEnergyTrip (pack [(0, 2, h.val), (2, 2, c.val), (4, 1, long.toNat)])
    (onHeads (·.map fun x => { x with proofVoid := true }) (onSafety (fun y => { y with energy := true }) s))

/-! ## Diagnostic pulses (R259) -/

/-- The slots of a tick. -/
def diagSlots (s : State) : Nat := (s.cfg.span.blankLen - 6) / 3

/-- The start of slot i, in 2 ns units. -/
def diagAt (s : State) (h : Head) (i : Nat) : Nat := s.clk.start + usT (24 + 2 * s.cfg.span.skew[h] + 3 * i)

/-- The channel of a slot fires. -/
def diagPulse (h : Head) (i : Nat) (s : State) : State :=
  match s.heads[h].diag[i]? with
  | some n =>
    if decide (i < diagSlots s) && s.clk.phase != .latch && !s.heads[h].showing && !s.heads[h].spanDone && showsLight s h &&
        s.chans[n].state == 2 && mayLight s h then
      onChan n (fun c => { c with gateOpen := true, opened := true }) (reach (diagAt s h i) s)
    else s
  | none => s

/-! ## Drift checks (R261, R262) -/

/-- Slots of 20 µs after the last diagnostic slot. -/
def driftSlots (s : State) (h : Head) : Nat := (s.cfg.span.blankLen - 6 - 3 * min s.heads[h].diag.length (diagSlots s)) / 20

/-- The next channel of the round robin. -/
def driftChan (s : State) (h : Head) : Option Chan :=
  ((List.range 64).map fun i => (Fin.ofNat 64 (s.heads[h].driftNext + i) : Chan)).find? fun n =>
    s.cfg.chans[n].st.head == h && s.chans[n].state == 2 && driftOk s n

/-- The serving input of a head and colour. -/
def driftOs (s : State) (h : Head) (c : Colour) : Option (Fin 8) := (allFin 8).find? (osServes s h c)

/-- A free rational (log entry 5): numerator and denominator of one draw. -/
def freeRat (s : State) : Rat × State :=
  let d := drawFree s
  (((d.1.toInt : Int) : Rat) / 4294967296, d.2)

/-- The deviations δ and ε of a check; a slope of 0 leaves δ without a value, a slope item of 0 leaves ε without one. -/
def driftDev (n : Chan) (g : Rat) (pA pB : Nat) (s : State) : (Rat × Rat) × State :=
  let st := s.cfg.chans[n].st
  let span : Rat := (st.iMax : Rat) - (iTh s.cfg n : Rat)
  let thm := iThm s s.cfg n
  let iA := thm + span / 2
  let eta : Rat := ((pA : Rat) - (pB : Rat)) / (span / 4)
  let e := (multAt s.cfg.heads[st.head].ctable st.colour s.chans[n].tEff).e
  let want : Rat := (s.cal.live.slope[n] : Rat) / 256 * e * g
  let d := if eta = 0 then freeRat s else (iA - (pA : Rat) / eta - thm, s)
  let x := if want = 0 then freeRat d.2 else (eta / want, d.2)
  ((d.1, x.1), x.2)

/-- A cause of drift is raised once until a check passes. -/
def driftFault (n : Chan) (cause extra : Nat) (s : State) : State :=
  let c := s.chans[n]
  if c.driftTold.getLsbD cause then s
  else raise (srcChan n) evChFault (chFaultWord n cause false c.vS c.iMeas extra)
    (onChan n (fun c => { c with cause := cause, driftTold := c.driftTold ||| BitVec.ofNat 8 (2 ^ cause) }) s)

/-- A check judged. A reading of 65 000 codes or more in the tick leaves it unjudged (R264). -/
def judgeDrift (n : Chan) (pA pB : Nat) (s : State) : State :=
  let st := s.cfg.chans[n].st
  let lv := s.cfg.chans[n].lv
  match driftOs s st.head st.colour with
  | none => s
  | some i =>
    if 65000 ≤ pA || 65000 ≤ pB || s.oss[i].sat then onOs i (fun d => { d with sat := true }) s
    else
      let d := driftDev n ((4 ^ s.oss[i].step : Nat) : Rat) pA pB s
      let delta := d.1.1
      let eps := d.1.2
      let badTh := decide ((lv.tolTh : Rat) / 400 * (st.iMax : Rat) < absR delta)
      let badEff := decide ((lv.tolEff : Rat) / 200 < absR (eps - 1))
      let s1 := if badTh then driftFault n 3 (twos 16 (intClamp (-32768) 32767 (ratRound (delta * 10)))) d.2 else d.2
      let s2 := if badEff then driftFault n 4 (sat 16 (ratRound (eps * 32768)).toNat) s1 else s1
      if badTh || badEff then s2
      else onChan n (fun c => { c with driftTold := 0, thetaTarget := if st.led then 0 else c.theta + delta }) s2

/-- A drift-check slot. -/
def driftCheckSlot (h : Head) (pA pB : Nat) (s : State) : State :=
  let d := s.heads[h]
  if !d.driftOk || s.cfg.heads[h].raster || s.clk.phase == .latch || d.showing || d.spanDone || !mayLight s h ||
      decide (driftSlots s h ≤ d.driftDone) then s
  else match driftChan s h with
    | none => s
    | some n =>
      let at_ := diagAt s h (min d.diag.length (diagSlots s)) + usT (20 * d.driftDone)
      let s1 := onHead h (fun d => { d with driftDone := d.driftDone + 1, driftNext := (n.val + 1) % 64 }) (reach at_ s)
      judgeDrift n pA pB (onChan n (fun c => { c with sinceDrift := 0 }) s1)

/-! ## The rows -/

/-- DIAGNOSTIC_PULSE (R259). -/
def execDiagnosticPulse (h : Head) (slot : Nat) (s : State) : Host.Outcome State Fault Refusal :=
  .next (settle (diagPulse h slot s))

/-- DRIFT_CHECK (R261). -/
def execDriftCheck (h : Head) (pA pB : Nat) (s : State) : Host.Outcome State Fault Refusal :=
  .next (settle (driftCheckSlot h pA pB s))

/-- CHANNEL_JUDGE (R258). -/
def execChannelJudge (c : Chan) (m : ChanMeas) (s : State) : Host.Outcome State Fault Refusal := .next (settle (judgeChan c m s))

/-- OVER_CURRENT (R258). -/
def execOverCurrent (c : Chan) (m : OverMeas) (s : State) : Host.Outcome State Fault Refusal :=
  .next (settle (overCurrentFault c m s))

/-- CH_FAULT_RESTART (R262). -/
def execChFaultRestart (c : Chan) (s : State) : Host.Outcome State Fault Refusal := .next (settle (restartChan c s))

/-- GATE_FAULT (R330). -/
def execGateFault (c : Chan) (s : State) : Host.Outcome State Fault Refusal := .next (settle (gateFaultChan c s))

/-- ENERGY_TRIP (R345). -/
def execEnergyTrip (h : Head) (c : Colour) (long : Bool) (s : State) : Host.Outcome State Fault Refusal :=
  .next (settle (energyTrips h c long s))

end Sys2Proof.Machine
end

