-- ==== Sys2Proof/Machine/Optics.lean ====
section
/-! DEFINITION. The optical sense inputs (R263, R264): counted samples, the dark level, saturation, gain, and the sums that the colour
loops (R269) and the optical proof (R332) are judged by. -/

namespace Sys2Proof.Machine

/-- A sample counts when its aperture of 250 ns lies wholly inside the light window and begins at least 500 ns after its opening. -/
def sampleCounts (x : OsSample) : Bool := decide (500 ≤ x.after) && decide (250 ≤ x.before)

/-- The dark level: the mean of the last 32 samples taken while every channel of the head diverts. -/
def darkLevel (i : Fin 8) (t : OsTick) : Rat :=
  let l := t.dark.drop (t.dark.length - 32)
  if l.isEmpty then (Config.noDark i.val : Rat) else ((l.sum : Nat) : Rat) / (l.length : Rat)

/-- A sample saturates (R264). -/
def saturates (code : Nat) : Bool := decide (65000 ≤ code)

/-- A reading of the tick saturates. -/
def osSaturates (t : OsTick) : Bool := t.samples.any (fun x => saturates x.code) || t.dark.any saturates

/-- The largest sample of the tick, its dark level subtracted. -/
def osPeak (i : Fin 8) (t : OsTick) : Rat := t.samples.foldl (fun a x => max a ((x.code : Rat) - darkLevel i t)) 0

/-- The gain of an input's step. -/
def osGain (s : State) (i : Fin 8) : Rat := ((4 ^ s.oss[i].step : Nat) : Rat)

/-- A light window of a head's entry belongs to a colour: on a raster head every line lights every colour. -/
def windowOf (s : State) (h : Head) (c : Colour) (e : Nat) : Bool := s.cfg.heads[h].raster || (entryGlyph (shownOf s h) e).1 == c

/-- The glyph bit of a window-bearing entry of a colour (R325): an entry of a sequence with a bit of the glyph, or a line that crosses
the window. -/
def bearing (s : State) (h : Head) (c : Colour) (e : Nat) : Option Nat :=
  if s.cfg.heads[h].raster then
    let y := lineRow s h e
    if decide (s.cfg.wins[h].wy ≤ y) && decide (y < s.cfg.wins[h].wy + (windowSize s).2) then some (Config.lineBit e).val else none
  else if (entryGlyph (shownOf s h) e).1 == c then (entryGlyph (shownOf s h) e).2 else none

/-- The light that the channels of a colour open at a sample give: the sum of weight × e(T_n) × (I_REF_n − I_thm_n). -/
def openLight (s : State) (h : Head) (c : Colour) (weight : Chan → Rat) (mask : BitVec 64) : Rat :=
  (allFin 64).foldl (fun a n =>
    if mask.getLsbD n.val && ofColour s.cfg h c n then
      a + weight n * (multAt s.cfg.heads[h].ctable c s.chans[n].tEff).e *
        (iOfRef s.cfg.chans[n].st s.chans[n].ref - iThm s s.cfg n)
    else a) 0

/-- E_meas over samples. -/
def measured (i : Fin 8) (t : OsTick) (l : List OsSample) : Rat := l.foldl (fun a x => a + ((x.code : Rat) - darkLevel i t)) 0

/-! ## The proof's sums (R332) -/

/-- The measurement of a colour by a proof input: how many samples count, whether one saturates, E_meas, and the two expectations
without K. -/
structure ProofSums where
  count : Nat
  sat   : Bool
  meas  : Rat
  lit   : Rat
  full  : Rat
deriving DecidableEq, Repr

/-- The sums of R332 over the samples of the colour's window-bearing entries. -/
def proofSums (s : State) (h : Head) (i : Fin 8) (t : OsTick) (c : Colour) : ProofSums :=
  let l := t.samples.filter fun x => sampleCounts x && (bearing s h c x.entry).isSome
  let p (x : OsSample) : Rat := osGain s i * openLight s h c (fun _ => 1) x.openMask
  { count := l.length, sat := l.any fun x => saturates x.code, meas := measured i t l
    lit := l.foldl (fun a x => a + ((glyphCount s c ((bearing s h c x.entry).getD 0) : Nat) : Rat) / 1024 * p x) 0
    full := l.foldl (fun a x => a + p x) 0 }

/-- The proof input of a head. -/
def proofInput (s : State) (h : Head) : Fin 8 := Fin.ofNat 8 s.cfg.wins[h].proofOs

end Sys2Proof.Machine
end

