-- ==== Sys2Proof/Machine/Show.lean ====
section
/-! DEFINITION. The show span (05, 06): its start and end, plane entries and their CRC check, the shunt gates, and the optical
proof (11). -/

namespace Sys2Proof.Machine

/-! ## The span (R140, R143) -/

/-- S_k and E_k as instants. -/
def showAt (s : State) (h : Head) : Nat := s.clk.start + usT (20 + s.cfg.span.blankLen + 2 * s.cfg.span.skew[h])
def showEnd (s : State) (h : Head) : Nat := showAt s h + usT s.cfg.span.showLen

/-- The show span of a head starts: SHOW is entered with the first of them (R21). -/
def startShow (h : Head) (s : State) : State :=
  let d := s.heads[h]
  if s.clk.phase == .latch || d.mode == .off || d.showing || d.spanDone then s
  else
    let s1 := enterPhases (onClk (fun c => { c with shown := true }) (reach (showAt s h) s))
    let s2 := tableCheck h s1
    onRaster h (fun r => { r with line := 0, linesOver := false, gateUsed := false }) (onHead h (fun d => { d with showing := true, entry := 0, gateOpen := false }) s2)

/-! ## Shunt gates (R161, R237, R255) -/

/-- A channel's gate opens with those of its head and colour. -/
def gateFollows (s : State) (h : Head) (c : Option Colour) (n : Chan) : Bool :=
  let st := s.cfg.chans[n].st
  st.head == h && (c.isNone || c == some st.colour) && s.chans[n].state == 2 && !s.chans[n].bucksOff

/-- The gates of a head and colour (of every colour, on a raster head) open. -/
def openGates (h : Head) (c : Option Colour) (s : State) : State :=
  if mayLight s h && showsLight s h then
    onHead h (fun d => { d with gateOpen := true })
      (onChans (fun v => Vector.ofFn fun n => if gateFollows s h c n then { v[n] with gateOpen := true, opened := true } else v[n]) s)
  else s

/-- Every gate of a head diverts. -/
def closeGates (h : Head) (s : State) : State :=
  onHead h (fun d => { d with gateOpen := false }) (divert (fun n => s.cfg.chans[n].st.head == h) false s)

/-- The pulse of entry e of what a head shows, in units of 250 ps; one that would be shorter than 8 ns is not fired. -/
def entryPulse (s : State) (h : Head) (e : Nat) : Nat :=
  match shownOf s h with
  | .host t =>
    let sc := scaleOf s.heads[h].gShow s.cfg.heads[h].arr.levelFloor
    match t.entries[e]? with
    | some x => match (firedAt t x.colour sc.1 sc.2).pulses.find? (fun p => p.1 == e) with
      | some p => if p.2 < 32 then 0 else p.2
      | none => 0
    | none => 0
  | .safe => 60000 * 2 ^ (3 - e % 4)
  | .nothing => 0

/-- The gates of a raster head may conduct (R230, R237): a line of the frame runs under lock, and they have not conducted in it. -/
def lineLights (s : State) (h : Head) : Bool :=
  let r := s.rasters[h]
  r.scan == 2 && decide (0 < r.line) && !r.gateUsed && !r.linesOver && linkSends s h

/-- The light window opens: of the entry that runs, where its pulse is fired, the gates of its colour; of a line, from T[0] on, all
gates of the head. -/
def gateOpens (h : Head) (s : State) : State :=
  let d := s.heads[h]
  if s.cfg.heads[h].raster then
    (if d.showing && lineLights s h then openGates h none (onRaster h (fun r => { r with gateUsed := true }) s) else s)
  else if d.showing && decide (0 < d.entry) && linkSends s h && decide (0 < entryPulse s h (d.entry - 1)) then
    openGates h (some (entryGlyph (shownOf s h) (d.entry - 1)).1) s
  else s

/-- The light window ends, on a raster head at T[OUT_W]: every gate of the head diverts. -/
def gateCloses (h : Head) (s : State) : State :=
  if s.cfg.heads[h].raster then onRaster h (fun r => { r with gateUsed := true }) (closeGates h s) else closeGates h s

/-! ## The safety canvas CRC (R328) -/

/-- The CRC of window bit plane (c, k) in the layout shown. -/
def planeCrc (s : State) (c : Colour) (k : Nat) : BitVec 32 := ((layoutNow s).crcs[4 * c.val + k]?).getD 0

/-- The CRC that the merge hardware formed over an entry agrees; an entry without window bits has none to compare. -/
def entryCrcOk (s : State) (h : Head) (e : Nat) (crc : BitVec 32) : Bool :=
  match entryGlyph (shownOf s h) e with
  | (c, some k) => !winShown s h || crc == planeCrc s c k
  | (_, none) => true

/-- The CRCs at the end of a span: of the last entry of an array head, and of every window bit plane that the packets of a raster head
carried over the lines of its frame (log entry 74). -/
def spanCrcsOk (s : State) (h : Head) (crcs : Vector (BitVec 32) 12) : Bool :=
  if s.cfg.heads[h].raster then
    !winShown s h || s.rasters[h].line < linesShown s h || (List.range 12).all fun i => crcs[i]? == (layoutNow s).crcs[i]?
  else
    let e := s.heads[h].entry
    e == 0 || entryCrcOk s h (e - 1) (match entryGlyph (shownOf s h) (e - 1) with
      | (c, some k) => (crcs[4 * c.val + k]?).getD 0
      | (_, none) => 0)

/-- A mismatch is a safe-path fault: the device goes dark. -/
def canvasCrcFault (h : Head) (s : State) : State := safetyFault 0 none h.val 0 true true 0 s

/-- The next plane entry of an array head starts; the one before it has ended and is checked. A stop that READY or FAULT has caused takes
effect here (R212). -/
def startEntry (h : Head) (crc : BitVec 32) (s : State) : State :=
  let d := s.heads[h]
  let w := shownOf s h
  if !d.showing || s.cfg.heads[h].raster || !linkSends s h || w.entries ≤ d.entry then s
  else
    let s1 := if s.links[h].stopping then stopAtEntry h (closeGates h s)
      else onHead h (fun d => { d with entry := d.entry + 1 }) (closeGates h s)
    if d.entry = 0 || entryCrcOk s h (d.entry - 1) crc then s1 else canvasCrcFault h s1

/-! ## The optical proof (R332, R333) -/

/-- K_hc in codes per mA. -/
def proofGain (s : State) (h : Head) (c : Colour) : Rat := (s.cal.live.k[limitIdx h c] : Rat) / 256

/-- A colour's verdict. -/
inductive Verdict where
  | invalid
  | pass (rho : Nat)
  | fail (m rho : Nat)
deriving DecidableEq, Repr

/-- ρ_p in units of 1/32 768. -/
def rhoUnits (q : Rat) : Nat := sat 16 (ratRound (q * 32768)).toNat

/-- The lit test or the dark test of a colour; both need 16 samples, 256 codes and no saturation, and an energy trip of the tick makes
them invalid (R344). -/
def judgeColour (s : State) (h : Head) (c : Colour) (m : ProofSums) : Verdict :=
  let lit := colourLit s c
  let want := proofGain s h c * (if lit then m.lit else m.full)
  if m.count < 16 || m.sat || decide (want < 256) || s.heads[h].proofVoid then .invalid
  else
    let rho := rhoUnits (m.meas / want)
    if lit then
      (if decide (m.meas < 85 / 100 * want) || decide (115 / 100 * want < m.meas) then .fail 7 rho else .pass rho)
    else if decide (15 / 100 * want < m.meas) then .fail 8 rho else .pass 0

/-- The verdict of a colour acts: a pass is remembered until every colour has one since the layout last changed. -/
def actVerdict (h : Head) (c : Colour) (v : Verdict) (s : State) : State :=
  match v with
  | .invalid => s
  | .pass rho => onHead h (fun d => { d with
      proven := d.proven ||| BitVec.ofNat 3 (2 ^ c.val), rhoP := d.rhoP.set c (if colourLit s c then rho else 0) }) s
  | .fail 7 rho => windowLoss 7 h c.val rho s
  | .fail _ rho => safetyFault 8 (some h) h.val c.val true false rho s

/-- TELLTALE_PROVEN, at the first valid pass of every colour after a layout change. -/
def tellProven (h : Head) (s : State) : State :=
  let d := s.heads[h]
  if d.proven == 7 && !d.provenTold then
    raise (srcWindow h) evTelltaleProven
      (pack [(0, 2, h.val), (16, 16, d.rhoP[0]), (32, 16, d.rhoP[1]), (48, 16, d.rhoP[2])])
      (onHead h (fun d => { d with provenTold := true }) s)
  else s

/-- PROOF_INVALID after 8 consecutive ticks with an invalid test while a tell-tale is lit; again only after a valid tick. -/
def countInvalid (h : Head) (bad : Nat) (s : State) : State :=
  if bad = 0 then onHead h (fun d => { d with proofBad := 0, proofTold := false }) s
  else
    let s1 := onHead h (fun d => { d with proofBad := d.proofBad + 1 }) s
    if 8 ≤ s1.heads[h].proofBad && !s1.heads[h].proofTold && s.safety.lit != 0 then
      raise (srcWindow h) evProofInvalid (pack [(0, 2, h.val), (2, 3, bad)]) (onHead h (fun d => { d with proofTold := true }) s1)
    else s1

/-- The proof of a head is judged (R332). -/
def judgeProof (h : Head) (t : OsTick) (s : State) : State :=
  if !proofRuns s h || !showsLight s h then s
  else
    let vs : Vector Verdict 3 := Vector.ofFn fun c => judgeColour s h c (proofSums s h (proofInput s h) t c)
    let bad := pack (allColours.map fun c => (c.val, 1, (vs[c] == .invalid).toNat))
    let s1 := forEach allColours (fun c s => actVerdict h c vs[c] s) s
    countInvalid h bad (tellProven h s1)

/-! ## The proof item of calibration (R432, R434) -/

/-- A tick counts for the item: every colour has 16 samples, none saturated, and 256 codes measured (log entry 42). -/
def proofCounts (s : State) (h : Head) (p : Vector ProofSums 3) : Bool :=
  showsLight s h && !s.heads[h].proofVoid && allColours.all fun c =>
    colourLit s c && decide (16 ≤ p[c].count) && !p[c].sat && decide (256 ≤ p[c].meas)

/-- A valid tick enters the repeat; 16 make a repeat. -/
def proofStep (h : Head) (t : OsTick) (s : State) : State :=
  match s.cal.running with
  | some (2, i) =>
    let p : Vector ProofSums 3 := Vector.ofFn (proofSums s h (proofInput s h) t)
    if i == h.val && s.cal.proofReps.length < 4 && s.cal.abort.isNone && proofCounts s h p then
      let now : Vector ProofSum 3 := Vector.ofFn fun c =>
        { meas := s.cal.proofNow[c].meas + p[c].meas, ref := s.cal.proofNow[c].ref + p[c].lit }
      let full := s.cal.proofTicks + 1 == 16
      let s1 := if s.cal.first then s else noteItem 2 i 2 0xF 0 0 s
      onCal (fun c => { c with
        first := true
        proofTicks := if full then 0 else c.proofTicks + 1
        proofNow := if full then Vector.replicate 3 { meas := 0, ref := 0 } else now
        proofReps := if full then c.proofReps ++ [now] else c.proofReps }) s1
    else s
  | _ => s

/-! ## The end of the span -/

/-- FRAME_DONE's payload. -/
def frameDoneWord (h : Head) (safe subst : Bool) (dark : Nat) : Nat :=
  pack [(0, 2, h.val), (2, 1, safe.toNat), (3, 1, subst.toNat), (8, 8, sat 8 dark)]

/-- Dark planes of the show: those substituted, and on an array head those that a stopped link did not show. -/
def darkCount (s : State) (h : Head) : Nat :=
  s.heads[h].darkPlanes +
    if s.cfg.heads[h].raster || (linkSends s h && !s.links[h].stopping) then 0 else (shownOf s h).entries - s.heads[h].entry

/-- E_k: the head enters hold, FRAME_DONE is raised, and the CRCs of the window and the optical proof are judged. -/
def endShow (h : Head) (crcs : Vector (BitVec 32) 12) (t : OsTick) (s : State) : State :=
  let d := s.heads[h]
  if !d.showing then s
  else
    let s1 := onHead h (fun d => { d with showing := false, spanDone := true }) (closeGates h (reach (showEnd s h) s))
    let s2 := if headOn s.cfg h || d.mode == .safe then
        raise (srcHead h) evFrameDone (frameDoneWord h (d.mode == .safe) (d.mode == .subst) (darkCount s h)) s1
      else s1
    let s3 := judgeProof h t s2
    let s4 := if spanCrcsOk s h crcs then s3 else canvasCrcFault h s3
    proofStep h t (stopAtEntry h s4)

/-! ## The rows -/

/-- SHOW_START (R140). -/
def execShowStart (h : Head) (s : State) : Host.Outcome State Fault Refusal := .next (settle (startShow h s))

/-- PLANE_ENTRY_START (R161). -/
def execPlaneEntryStart (h : Head) (crc : BitVec 32) (s : State) : Host.Outcome State Fault Refusal :=
  .next (settle (startEntry h crc s))

/-- SHUNT_GATE_OPEN (R161). -/
def execShuntGateOpen (h : Head) (s : State) : Host.Outcome State Fault Refusal := .next (settle (gateOpens h s))

/-- SHUNT_GATE_CLOSE (R161). -/
def execShuntGateClose (h : Head) (s : State) : Host.Outcome State Fault Refusal := .next (settle (gateCloses h s))

/-- SHOW_SPAN_END (R140). -/
def execShowSpanEnd (h : Head) (crcs : Vector (BitVec 32) 12) (proof : OsTick) (s : State) : Host.Outcome State Fault Refusal :=
  .next (settle (endShow h crcs proof s))

end Sys2Proof.Machine
end

