-- ==== Sys2Proof/Machine/Raster.lean ====
section
/-! DEFINITION. Raster heads (08): acquisition, lock, the guard, the slow axis, lines and line packets. Times within a tick are in
units of 250 ps from its boundary. -/

namespace Sys2Proof.Machine

/-! ## The slow axis (R226, R245) -/

/-- The slow-axis position of an output row of a head, in sense codes. -/
def rowPosition (x : HeadCfg) (row : Rat) : Rat :=
  if x.outH ≤ 1 then (x.ras.slowTop : Rat)
  else (x.ras.slowTop : Rat) + ((x.ras.slowBot : Rat) - (x.ras.slowTop : Rat)) * row / ((x.outH - 1 : Nat) : Rat)

/-- The last row of the safety window, clipped to the output. -/
def lastWindowRow (s : State) (h : Head) : Nat :=
  min (s.cfg.wins[h].wy + (windowSize s).2 - 1) (s.cfg.heads[h].outH - 1)

/-- The position at which line y of what a head shows starts; at and after the last line it is the end position (log entry 71). -/
def linePosition (s : State) (h : Head) (y : Nat) : Rat :=
  let x := s.cfg.heads[h]
  let n := linesShown s h
  if s.heads[h].mode == .safe then
    let a := rowPosition x (s.cfg.wins[h].wy : Rat)
    let b := rowPosition x (lastWindowRow s h : Rat)
    if n ≤ 1 then a else a + (b - a) * ((min y (n - 1) : Nat) : Rat) / ((n - 1 : Nat) : Rat)
  else rowPosition x ((min y (x.outH - 1) : Nat) : Rat)

/-- The position that a target holds, or ends at. -/
def SlowTarget.rest : SlowTarget → Option Rat
  | .off => none
  | .held p => some p
  | .retrace _ p _ _ => some p
  | .ramp p _ => some p

/-- The slow axis takes a target. -/
def steer (h : Head) (t : SlowTarget) (s : State) : State :=
  emit (.slowAxis h t) (onRaster h (fun r => { r with slow := t }) s)

/-- The position from which a retrace starts: where the target rests; a scanner that has only just started stands at a position that
no rule gives (log entry 5). -/
def slowNow (h : Head) (s : State) : Rat × State :=
  match s.rasters[h].slow.rest with
  | some p => (p, s)
  | none =>
    let d := drawFree s
    (((d.1.toNat % 65536 : Nat) : Rat) - 32768, d.2)

/-- The retrace of a tick: from 20 µs + SKEW, to the start position of the frame that the tick shows, held from its end on. -/
def retrace (h : Head) (s : State) : State :=
  if s.rasters[h].scan = 0 then s
  else
    let p := slowNow h s
    let x := s.cfg.heads[h]
    steer h (.retrace p.1 (linePosition s h 0) (20 + 2 * s.cfg.span.skew[h]) x.ras.tRetrace) p.2

/-! ## The scanner (R223 to R225, R227) -/

/-- RASTER_FAULT. -/
def tellRaster (h : Head) (cause : Nat) (s : State) : State :=
  raise (srcRaster h) evRasterFault (rasterFaultWord h cause s.rasters[h].fNow) s

/-- The fast axis is driven. -/
def drive (h : Head) (d : FastDrive) (s : State) : State :=
  emit (.fastAxis h d s.rasters[h].fNow) (onRaster h (fun r => { r with drive := d }) s)

/-- The edges of the tracking band in 0.001 Hz. -/
def bandLow (r : RasterCfg) : Nat := r.fNom * 10 * (100 - r.track)
def bandHigh (r : RasterCfg) : Nat := r.fNom * 10 * (100 + r.track)

/-- Acquisition starts: the sweep upward across the band at a tenth of full drive. -/
def acquire (h : Head) (s : State) : State :=
  drive h .sweep (onRaster h (fun r => { r with scan := 1, ramping := false, retryTick := none }) s)

/-- The frequency of largest sensed amplitude, the lowest of equals. -/
def loudest : List (Nat × Nat) → Option (Nat × Nat)
  | [] => none
  | p :: r => match loudest r with
    | some q => if p.2 < q.2 then some q else some p
    | none => some p

/-- The sweep ends: the phase loop locks at the frequency of largest amplitude within the band, and the amplitude rises. `sweep`
lists frequencies in 0.001 Hz with their sensed amplitudes. -/
def sweepEnd (h : Head) (sweep : List (Nat × Nat)) (s : State) : State :=
  let r := s.cfg.heads[h].ras
  if s.rasters[h].scan == 1 && !s.rasters[h].ramping then
    match loudest (sweep.filter fun p => decide (bandLow r ≤ p.1) && decide (p.1 ≤ bandHigh r)) with
    | some p => drive h .rising (onRaster h (fun r => { r with ramping := true, fNow := p.1 }) s)
    | none => s
  else s

/-- The amplitude has held: lock, and the guard is armed again. -/
def locks (h : Head) (milliHz : Nat) (s : State) : State :=
  if s.rasters[h].scan == 1 && s.rasters[h].ramping then
    raise (srcRaster h) evRasterLock (pack [(0, 2, h.val), (32, 32, milliHz)])
      (drive h .held (onRaster h (fun r => { r with scan := 2, ramping := false, fNow := milliHz, guard := false, lineAt := none }) s))
  else s

/-- No lock by 200 ms: acquisition starts again 64 ticks later. -/
def acquireFails (h : Head) (s : State) : State :=
  if s.rasters[h].scan == 1 then
    tellRaster h 3 (drive h .off (onRaster h (fun r => { r with scan := 3, ramping := false, retryTick := some (s.clk.tick + 64) }) s))
  else s

/-- The 64 ticks have passed. -/
def acquireAgain (h : Head) (s : State) : State :=
  match s.rasters[h].retryTick with
  | some t => if s.rasters[h].scan == 3 && decide (t ≤ s.clk.tick) then acquire h s else s
  | none => s

/-- Lock is lost: the head enters hold and acquisition starts at once. -/
def lockLoss (h : Head) (s : State) : State :=
  if s.rasters[h].scan == 2 then acquire h (tellRaster h 0 (closeGates h s)) else s

/-- The guard, armed while the scanner is locked, diverts the head's channels and drops SCNEN. -/
def guardTrips (h : Head) (slow : Bool) (s : State) : State :=
  if s.rasters[h].scan == 2 then
    let s1 := emit (.scanner h false) (onRaster h (fun r => { r with guard := true, scnEn := false }) (closeGates h s))
    acquire h (tellRaster h (if slow then 2 else 1) s1)
  else s

/-! ## Lines (R229, R230, R232, R237, R245) -/

/-- The shift of a line start by its direction (R229). -/
def lineTrim (x : HeadCfg) (forward : Bool) : Int := if forward then x.ras.trimF else x.ras.trimR

/-- The tracked half-period in 250 ps. -/
def halfPeriod (s : State) (h : Head) : Rat :=
  if s.rasters[h].fNow = 0 then 0 else 2000000000000 / (s.rasters[h].fNow : Rat)

/-- S_k in 250 ps from the boundary. -/
def showStart (s : State) (h : Head) : Nat := (20 + s.cfg.span.blankLen + 2 * s.cfg.span.skew[h]) * 4000

/-- A line of the frame starts: the slow axis ramps to the next line's position. -/
def openLine (h : Head) (y : Nat) (s : State) : State :=
  steer h (.ramp (linePosition s h y) (linePosition s h (y + 1)))
    (onRaster h (fun r => { r with line := y + 1, gateUsed := false }) s)

/-- The end of the last line: hold at the end position. -/
def endLines (h : Head) (s : State) : State :=
  if s.rasters[h].linesOver || s.rasters[h].line = 0 then s
  else steer h (.held (linePosition s h s.rasters[h].line)) (onRaster h (fun r => { r with linesOver := true }) s)

/-- A sensed extreme at which a line starts, `at_` after the boundary. The line before it ends. An extreme of the kind of the last
one within a frame is none (R230), and a frequency at an edge of the band is a loss of lock (R225). -/
def lineStart (h : Head) (forward : Bool) (at_ milliHz : Nat) (s : State) : State :=
  let r := s.rasters[h]
  let x := s.cfg.heads[h]
  if !x.raster || r.scan != 2 || (decide (0 < r.line) && forward == r.lineFwd) then s
  else
    let start : Int := (at_ : Int) + lineTrim x forward
    let s1 := onRaster h (fun r => { r with fNow := milliHz, lineFwd := forward, lineAt := some start }) s
    if milliHz ≤ bandLow x.ras || bandHigh x.ras ≤ milliHz then lockLoss h s1
    else
      let s2 := closeGates h s1
      if !s.heads[h].showing || decide (start < (showStart s h : Int)) then s2
      else if linesShown s h ≤ r.line then endLines h s2
      else
        let s3 := openLine h r.line (stopAtEntry h s2)
        if s.heads[h].mode == .safe then s3 else reachLines 3 (some h) r.line (r.line + 1) s3

/-! ## Predicted line starts (R240) -/

/-- The start of the j-th line start after the last one, and its direction. -/
def startAfter (s : State) (h : Head) (t : Int) (j : Nat) : Rat × Bool :=
  let r := s.rasters[h]
  let forward := if j % 2 = 0 then r.lineFwd else !r.lineFwd
  let x := s.cfg.heads[h]
  (((t - lineTrim x r.lineFwd : Int) : Rat) + (j : Rat) * halfPeriod s h + ((lineTrim x forward : Int) : Rat), forward)

/-- How many line starts after the last one the start of line 0 is expected: the first at or after S_k. -/
def toLineZero (s : State) (h : Head) (t : Int) : Nat :=
  let s0 : Rat := (showStart s h : Rat)
  let hp := halfPeriod s h
  let j0 := if hp = 0 then 1 else ((s0 - (t : Rat) - 8192) / hp).floor.toNat
  (((List.range 4).map (fun i => max 1 (j0 + i))).find? fun j => decide (s0 ≤ (startAfter s h t j).1)).getD (j0 + 4)

/-- The predicted start of line y and its direction, once a line start has been sensed since lock. -/
def predicted (s : State) (h : Head) (y : Nat) : Option (Rat × Bool) :=
  let r := s.rasters[h]
  r.lineAt.map fun t => startAfter s h t (if r.line = 0 then toLineZero s h t + y else y + 1 - r.line)

/-! ## Packets (R236, R238 to R243) -/

/-- HP in ns, rounded. -/
def hpNs (s : State) (h : Head) : Nat := if s.rasters[h].fNow = 0 then 0 else divRound 500000000000 s.rasters[h].fNow

/-- A window pixel's value (R236) at the scale the frame was pressed under, 1.0 on the safe sequence. -/
def windowValue (s : State) (h : Head) (g : Nat) : Nat :=
  let sc := if s.heads[h].mode == .safe then 0x80000000 else s.heads[h].pressed[bufIdx s.heads[h].buf].scale
  g * 0x10000 * sc / 2147483648

/-- Slot i of packet p of line y as sent. -/
def slotWord (s : State) (h : Head) (y p i : Nat) (data : List Byte) : Nat :=
  let x := 63 * p + i
  let row := lineRow s h y
  if s.cfg.heads[h].outW ≤ x then 0
  else if underWindow s h x row then
    pack (allColours.map fun c =>
      (20 * c.val, 20, windowValue s h (glyphAt s s.safety.lit c (x - s.cfg.wins[h].wx) (row - s.cfg.wins[h].wy))))
  else leNat ((data.drop (8 * i)).take 8)

/-- The 504 stored bytes of a packet's slots, as (address, length). -/
def slotRange (s : State) (h : Head) (y p : Nat) : Nat × Nat :=
  (bufAddr s h s.heads[h].buf + (y * npkOf s.cfg.heads[h].outW + p) * 512 + 8, 504)

/-- What the prefetch brings of a packet: none on the safe sequence and of a packet that is late. -/
def fetchPacket (s : State) (h : Head) (y p : Nat) : List Byte :=
  let r := slotRange s h y p
  if s.heads[h].mode == .safe || s.links[h].dark.contains (y * npkOf s.cfg.heads[h].outW + p) then [] else memRead s.planes r.1 r.2

/-- The time of a block on a lane in 250 ps (R193). -/
def blockTime (s : State) (h : Head) : Nat := if s.links[h].rateNow = 1 then 3432 else 1716

/-- The descriptor of a line packet whose last word leaves at `done`: START is the time from there to the predicted line start, less
the lane's delay. -/
def packetDesc (s : State) (h : Head) (lane : Fin 8) (line : Rat × Bool) (done : Nat) : Nat :=
  pack [(0, 24, (ratRound (line.1 - ((done + s.links[h].delays[lane] : Nat) : Rat))).toNat), (24, 1, (!line.2).toNat),
    (25, 1, (s.heads[h].mode == .safe).toNat), (32, 16, hpNs s h)]

/-- The lane of a packet. -/
def packetLane (x : HeadCfg) (y p : Nat) : Fin 8 := Fin.ofNat 8 (y * npkOf x.outW + p)

/-- A line packet goes out. -/
def emitPacket (h : Head) (y p : Nat) (line : Rat × Bool) (done : Nat) (data : List Byte) (s : State) : State :=
  let lane := packetLane s.cfg.heads[h] y p
  emitBlock h lane (blockHeader s h 2 p y)
    (toBytes 8 (packetDesc s h lane line done) ++ ((List.range 63).map fun i => toBytes 8 (slotWord s h y p i data)).flatten) s

/-- Table packet t goes out (R243). -/
def emitTable (h : Head) (t : Nat) (s : State) : State :=
  let x := s.cfg.heads[h]
  let count := x.outW + 1
  emitBlock h (packetLane x 0xFFF (96 + t)) (blockHeader s h 2 (96 + t) 0xFFF)
    (toBytes 8 (pack [(0, 12, count)]) ++
      ((List.range 252).map fun i => toBytes 2 (if 252 * t + i < count then rtEdge x (252 * t + i) else 0)).flatten) s

/-- A packet enters the re-send buffer. -/
def packetFlight (h : Head) (y p : Nat) (data : List Byte) (s : State) : State :=
  onRaster h (fun r => { r with flights := r.flights ++ [{ plane := p, block := y, resends := 0, waiting := true, data := data }] }) s

/-- The packet is transmitted again; a line packet with a START of its own (R240). -/
def packetResend (h : Head) (f : Flight) (line : Rat × Bool) (done : Nat) (s : State) : State :=
  let s1 := onLink h (fun l => { l with resent := sat 32 (l.resent + 1) }) (onRaster h (fun r => { r with
    flights := r.flights.map fun x => if x.same f then { x with waiting := true, resends := x.resends + 1 } else x }) s)
  if f.block = 0xFFF then emitTable h (f.plane - 96) s1 else emitPacket h f.block f.plane line done f.data s1

/-- The lane of a packet has a free place (R210). -/
def laneFree (s : State) (h : Head) (lane : Fin 8) : Bool :=
  decide ((s.rasters[h].flights.filter fun f => flightLane s.cfg.heads[h] f == lane.val).length < 8)

/-- A transmission that ends at `done` meets the deadline of its line, 1.000 µs before its start (R209, R240), or of the table, 1.000 µs
before S_k (R243). -/
def inTime (s : State) (h : Head) (y : Nat) (line : Rat × Bool) (done : Nat) : Bool :=
  decide ((done : Rat) + 4000 ≤ if y = 0xFFF then (showStart s h : Rat) else line.1)

/-- A table packet is to be sent: the table is due, and S_k has not come. -/
def tableWaits (s : State) (h : Head) : Bool :=
  !s.heads[h].showing && !s.heads[h].spanDone && s.rasters[h].tableDue && decide (s.rasters[h].tableNext < 6)

/-- The next table packet goes out, where it goes on this lane. -/
def tableSend (h : Head) (lane : Fin 8) (done : Nat) (s : State) : State :=
  let t := s.rasters[h].tableNext
  if packetLane s.cfg.heads[h] 0xFFF (96 + t) == lane && laneFree s h lane && inTime s h 0xFFF (0, true) done then
    emitTable h t (packetFlight h 0xFFF (96 + t) [] (onRaster h (fun r => { r with tableNext := r.tableNext + 1 }) s))
  else sendIdle h lane s

/-- The next packet of the lines goes out, where it goes on this lane, no earlier than two half-periods before its line's predicted
start. A packet that is late carries no host pixels (R242). -/
def lineSend (h : Head) (lane : Fin 8) (at_ : Nat) (late : Bool) (s : State) : State :=
  let x := s.cfg.heads[h]
  let n := npkOf x.outW
  let y := s.rasters[h].packet / n
  let p := s.rasters[h].packet % n
  let done := at_ + blockTime s h
  match if n = 0 || linesShown s h ≤ y || s.heads[h].spanDone || packetLane x y p != lane || !laneFree s h lane then none
    else predicted s h y with
  | some line =>
    if decide ((at_ : Rat) < line.1 - 2 * halfPeriod s h) || !inTime s h y line done then sendIdle h lane s
    else
      let s1 := if (late || !s.cxl.attached) && s.heads[h].mode != .safe then noteDark h (y * n + p) s else s
      let data := fetchPacket s1 h y p
      let s2 := if data.isEmpty then s1 else askIo false [slotRange s1 h y p] s1
      emitPacket h y p line done data (packetFlight h y p data (onRaster h (fun r => { r with packet := r.packet + 1 }) s2))
  | none => sendIdle h lane s

/-- The next unit of a lane of a raster head, which starts `at_` after the boundary: a re-send that is due and still meets its
deadline, then the table before S_k, then the lines in order, else IDLE. -/
def packetSend (h : Head) (lane : Fin 8) (at_ : Nat) (late : Bool) (s : State) : State :=
  let x := s.cfg.heads[h]
  let done := at_ + blockTime s h
  let line (f : Flight) : Rat × Bool := (predicted s h f.block).getD (0, true)
  if !x.raster || !linkLive s h then s
  else if !linkSends s h || s.clk.phase == .latch then sendIdle h lane s
  else match s.rasters[h].flights.find? (fun f => !f.waiting && flightLane x f == lane.val && inTime s h f.block (line f) done) with
    | some f => packetResend h f (line f) done s
    | none => if tableWaits s h then tableSend h lane done s else lineSend h lane at_ late s

/-! ## The rows -/

/-- RASTER_SWEEP_END (R224). -/
def execRasterSweepEnd (h : Head) (sweep : List (Nat × Nat)) (s : State) : Host.Outcome State Fault Refusal :=
  .next (settle (sweepEnd h sweep s))

/-- RASTER_LOCK (R224). -/
def execRasterLock (h : Head) (milliHz : Nat) (s : State) : Host.Outcome State Fault Refusal := .next (settle (locks h milliHz s))

/-- RASTER_ACQUIRE_TIMEOUT (R224). -/
def execRasterAcquireTimeout (h : Head) (s : State) : Host.Outcome State Fault Refusal := .next (settle (acquireFails h s))

/-- RASTER_ACQUIRE_RETRY (R224). -/
def execRasterAcquireRetry (h : Head) (s : State) : Host.Outcome State Fault Refusal := .next (settle (acquireAgain h s))

/-- RASTER_LOCK_LOST (R225). -/
def execRasterLockLost (h : Head) (s : State) : Host.Outcome State Fault Refusal := .next (settle (lockLoss h s))

/-- RASTER_GUARD_TRIP (R227). -/
def execRasterGuardTrip (h : Head) (slow : Bool) (s : State) : Host.Outcome State Fault Refusal := .next (settle (guardTrips h slow s))

/-- RASTER_LINE_START (R229). -/
def execRasterLineStart (h : Head) (forward : Bool) (at_ milliHz : Nat) (s : State) : Host.Outcome State Fault Refusal :=
  .next (settle (lineStart h forward at_ milliHz s))

/-- LINE_PACKET_SEND (R240). -/
def execLinePacketSend (h : Head) (lane : Fin 8) (at_ : Nat) (late : Bool) (s : State) : Host.Outcome State Fault Refusal :=
  .next (settle (packetSend h lane at_ late s))

end Sys2Proof.Machine
end

