-- ==== Sys2Proof/Machine/Frame.lean ====
section
/-! DEFINITION. The frame that a tick shows: dark changes (R153, R182), what each head shows (R116, R150, R185, R296, R300, R342,
R369), the dimming ramp (R176), the light of the frame shown, and the bounded corrections of R271. The LATCH acts on these; the
END foresees them. -/

namespace Sys2Proof.Machine

/-! ## Dark changes (R153, R182) -/

/-- The offset or the size of the area of a head that is enabled before and after changes. -/
def areaChanges (old new : Cfg) (h : Head) : Bool :=
  headOn old h && headOn new h &&
    (areaOffset old h != areaOffset new h || areaBytes old.heads[h] != areaBytes new.heads[h])

/-- A change of any field of the show group, or of an area, is a dark change with TL 1. -/
def darkChange (old new : Cfg) : Bool := old.span != new.span || allHeads.any (areaChanges old new)

/-- A transition that ends at the LATCH of a tick has ended. -/
def transOver (tick : Nat) (s : State) : State :=
  onClk (fun c => { c with trans := match c.trans with
    | some t => if t ≤ tick then none else some t
    | none => none }) s

/-- The transition that a dark change starts at the LATCH of a tick ends TL ticks later, no earlier than a running one. -/
def transStart (tick : Nat) (s : State) : State :=
  onClk (fun c => { c with trans := some (max (tick + 1) (c.trans.getD 0)) }) s

/-! ## What a head shows -/

/-- UNDERRUN of R150: cause, whether the head goes to the safe sequence, consecutive substitutions. -/
structure Underrun where
  cause : Nat
  safe  : Bool
  count : Nat
deriving DecidableEq, Repr

/-- What a head shows in a tick, with the UNDERRUN that it raises. -/
structure Content where
  mode  : HeadMode
  under : Option Underrun
deriving DecidableEq, Repr

/-- A head keeps to the safe sequence for a reason other than R150. -/
def heldSafe (s : State) (h : Head) : Bool :=
  let x := s.cfg.heads[h]
  !s.cxl.attached || s.clk.bwSafe || s.sluice.shed || s.clk.trans.isSome || s.links[h].mismatch ||
    (!x.raster && (!s.heads[h].resetOk || x.seq.isNone || s.heads[h].schedFail))

/-- R150: the frame of a build that was cut. -/
def cutContent (s : State) (h : Head) : Content :=
  let d := s.heads[h]
  let n := d.substs + 1
  if !d.hasFrame then { mode := .safe, under := some { cause := 2, safe := true, count := n } }
  else if s.cfg.scan.underrunRepeat < n then { mode := .safe, under := some { cause := 0, safe := true, count := n } }
  else { mode := .subst, under := some { cause := 0, safe := false, count := n } }

/-- A calibration step of the tick holds a head dark (R434). -/
def calHolds (s : State) (h : Head) : Bool := s.cal.stepping && (calDark s s.cal.part.1 s.cal.part.2).contains h

/-- What head h shows in the tick whose LATCH has made the configuration of s live; `fresh` says that its enable takes effect
there. A head on the safe sequence whose window is not shown lights nothing. -/
def contentOf (s : State) (h : Head) (fresh : Bool) : Content :=
  let d := s.heads[h]
  let on := headOn s.cfg h
  let win := winShown s h
  if s.safety.mode == .dark || s.safety.headDark.getLsbD h.val then { mode := if on || win then .dark else .off, under := none }
  else if s.safety.mode == .window || !on then { mode := if on || win then .safe else .off, under := none }
  else if calHolds s h then { mode := .dark, under := none }
  else if fresh || heldSafe s h then { mode := .safe, under := none }
  else if d.cut then cutContent s h
  else if d.building && d.done then { mode := .host, under := none }
  else { mode := .safe, under := none }

/-- R418: a head shows its window on the safe sequence from the first LATCH at which it is ready. -/
def readyGate (s : State) (h : Head) (c : Content) : Content :=
  if c.mode == .safe && winShown s h && !s.heads[h].readyWin then { c with mode := .dark } else c

/-- A head is ready to show the window (R418). -/
def headReady (s : State) (h : Head) : Bool :=
  winShown s h && linkReady s h && (!s.cfg.heads[h].raster || s.rasters[h].scan == 2) && s.heads[h].safeGrant

/-! ## The dimming ramp (R176) -/

/-- The largest n of lo..hi with n^r ≤ v. -/
def rootSearch (r v : Nat) : Nat → Nat → Nat → Nat
  | 0, lo, _ => lo
  | k + 1, lo, hi =>
    if hi ≤ lo then lo
    else
      let mid := (lo + hi + 1) / 2
      if mid ^ r ≤ v then rootSearch r v k mid hi else rootSearch r v k lo (mid - 1)

/-- One ramp step: g × (G ÷ g)^(1 ÷ r) to a unit of 2⁻³¹, never past G; the last step is G. -/
def rampStep (g goal r : Nat) : Nat :=
  if r ≤ 1 then goal
  else
    let v := g ^ (r - 1) * goal
    let n := rootSearch r v 33 (min g goal) (max g goal)
    if n ^ r = v then n
    else
      let up := Config.rampRoundsUp g goal r
      if g ≤ goal then (if up then min (n + 1) goal else n) else (if up then n + 1 else max n goal)

/-- The ramp value after the next step of a head. -/
def rampNext (d : HeadDyn) : Nat := if d.reached then d.gR else rampStep d.gR d.gT d.steps

/-- The step raises the dimming point of R170. -/
def rampRaises (d : HeadDyn) : Bool := decide (min d.gR d.cap < min (rampNext d) d.cap)

/-! ## The light of the frame shown (R170, R178, R253, R325) -/

/-- The level and the open time of a colour of what a head shows. -/
def shownRow (s : State) (h : Head) (k : Colour) : LightRow :=
  let d := s.heads[h]
  let p := d.pressed[bufIdx d.buf]
  match d.mode with
  | .host => hostRow s s.cfg h p.seq d.gShow p.scale k
  | .subst => hostRow s s.cfg h p.seq d.gShow p.scale k
  | .safe => if winShown s h then safeRow s s.cfg h k else { lam := 0, openUs := 0, shown := false }
  | _ => { lam := 0, openUs := 0, shown := false }

/-- A configuration with the targets in use in place of the live ones (R273). -/
def usedTargets (s : State) (c : Cfg) : Cfg :=
  { c with heads := Vector.ofFn fun h => { c.heads[h] with tgt := s.heads[h].tgt } }

/-- The running channels of a head and colour. -/
def runningOf (s : State) (h : Head) (k : Colour) : List Chan :=
  (allFin 64).filter fun n => ofColour s.cfg h k n && s.chans[n].state == 2

/-- R275, R273: a lower target is used at once, a higher one where the rise is granted. -/
def stepTargets (h : Head) (granted : Bool) (s : State) : State :=
  let live := s.cfg.heads[h].tgt
  onHead h (fun d => { d with tgt := if granted then live else Vector.ofFn fun k => min d.tgt[k] live[k] }) s

/-! ## Bounded corrections (R271) -/

/-- The current that a level adds above the threshold, and the whole current, of each channel of a list. -/
structure Basis where
  chan : Chan
  cmd  : Rat
  lim  : Rat      -- 0.5 % of I_cmd − I_thm
deriving DecidableEq, Repr

/-- I_cmd and its bound for the running channels of a colour, before the step. -/
def basisOf (s : State) (h : Head) (k : Colour) (lam : Rat) : List Basis :=
  let c := usedTargets s s.cfg
  (runningOf s h k).map fun n => { chan := n, cmd := iCmd s c n lam, lim := lam * levelSpan s c n * 5 / 1000 }

/-- The share of the way to their readings that the temperatures of a colour's channels go (log entry 56): tried are the whole
way, then the part that the bounds allow and its halves. -/
def tempMove (f : Rat) (ns : List Chan) (s : State) : State :=
  forEach ns (fun n s => onChan n (fun c => { c with tEff := c.tEff + f * (c.tEnd - c.tEff) }) s) s

/-- Every channel keeps within its bound. -/
def within (s : State) (lam : Rat) (bs : List Basis) : Bool :=
  let c := usedTargets s s.cfg
  bs.all fun b => decide (absR (iCmd s c b.chan lam - b.cmd) ≤ b.lim)

/-- The temperatures of channels move as far as R271 allows. -/
def moveTemps (lam : Rat) (bs : List Basis) (ns : List Chan) (s : State) : State :=
  let whole := tempMove 1 ns s
  if within whole lam bs then whole
  else
    let c := usedTargets s s.cfg
    let f : Rat := bs.foldl (fun a b =>
      let d := absR (iCmd whole c b.chan lam - b.cmd)
      if d = 0 then a else min a (b.lim / d)) 1
    match ((List.range 12).map fun i => f / (2 ^ i : Nat)).find? (fun f => within (tempMove f ns s) lam bs) with
    | some f => tempMove f ns s
    | none => s

/-- No channel's command has risen. -/
def noneRises (s t : State) (lam : Rat) (bs : List Basis) : Bool :=
  bs.all fun b => decide (iCmd t (usedTargets t t.cfg) b.chan lam ≤ iCmd s (usedTargets s s.cfg) b.chan lam)

/-- The feed-forward of a colour. Where a rise is held, the temperatures move one channel at a time, and a move that would raise a
channel is held (R273). -/
def stepTemps (h : Head) (k : Colour) (lam : Rat) (held : Bool) (bs : List Basis) (s : State) : State :=
  let ns := (allFin 64).filter fun n => ofColour s.cfg h k n && s.chans[n].state != 0
  let all := moveTemps lam bs ns s
  if !held || noneRises s all lam bs then all
  else forEach ns (fun n s =>
    let t := moveTemps lam bs [n] s
    if noneRises s t lam bs then t else s) s

/-- The threshold trim of a channel moves by what the feed-forward has left of its bound. -/
def stepTheta (lam : Rat) (held : Bool) (b : Basis) (s : State) : State :=
  let c := usedTargets s s.cfg
  let used := iCmd s c b.chan lam - b.cmd
  let x := s.chans[b.chan]
  let d := ratClamp (-b.lim - used) (b.lim - used) (x.thetaTarget - x.theta)
  if held && decide (0 < d) then s else onChan b.chan (fun c => { c with theta := c.theta + d }) s

/-- The loop factor of a colour moves by what both have left, on every channel of the colour. -/
def stepKappa (h : Head) (k : Colour) (lam : Rat) (held : Bool) (bs : List Basis) (s : State) : State :=
  let c := usedTargets s s.cfg
  let l := s.loops[h][k]
  let bound (up : Bool) : Rat := bs.foldl (fun a b =>
    let span := lam * levelSpan s c b.chan
    let used := iCmd s c b.chan lam - b.cmd
    if span = 0 then a else min a ((if up then b.lim - used else b.lim + used) / span)) 1000
  let d := ratClamp (-(bound false) * l.kappa) (bound true * l.kappa) (l.kappaTarget - l.kappa)
  if held && decide (0 < d) then s else onLoop h k (fun l => { l with kappa := l.kappa + d }) s

/-- The corrections of one colour at a boundary: the feed-forward first, then the trims, then the loop factor. While the colour
carries no light, no bound binds (log entry 56). -/
def stepColour (h : Head) (held : Bool) (k : Colour) (s : State) : State :=
  let lam := (shownRow s h k).lam
  let bs := basisOf s h k lam
  if lam = 0 || bs.isEmpty then
    let ns := (allFin 64).filter (ofColour s.cfg h k)
    onLoop h k (fun l => { l with kappa := l.kappaTarget })
      (forEach ns (fun n s => onChan n (fun c => { c with tEff := c.tEnd, theta := c.thetaTarget }) s) s)
  else
    let s1 := stepTemps h k lam held bs s
    stepKappa h k lam held bs (forEach bs (fun b s => stepTheta lam held b s) s1)

/-- REF of a channel for the frame shown (R253); 0 where its head shows neither host content nor the window (R249). -/
def frameRef (s : State) (n : Chan) : Nat :=
  let h := s.cfg.chans[n].st.head
  if s.chans[n].state == 2 && showsLight s h then
    refOf s (usedTargets s s.cfg) n (shownRow s h s.cfg.chans[n].st.colour).lam
  else 0

/-- The command and REF of a channel for the frame shown take effect. -/
def setRef (n : Chan) (s : State) : State :=
  let h := s.cfg.chans[n].st.head
  let lit := s.chans[n].state == 2 && showsLight s h
  onChan n (fun c => { c with
    ref := frameRef s n
    iCmd := if lit then iCmd s (usedTargets s s.cfg) n (shownRow s h s.cfg.chans[n].st.colour).lam else 0
    bucksOff := c.bucksOff && !(c.state == 2 && !lightCut s) }) s

end Sys2Proof.Machine
end

