-- ==== Sys2Proof/Machine/Apply.lean ====
section
/-! DEFINITION. What a LATCH applies (03): staged data read again (R84), lv writes and commit records, deferred layer parts
(R102 to R105), drops, abandoned records (R101), and the buffers that are released (R106, R107). Events take their place in the
queue of the LATCH; the whole queue is put into the order of R510 at the end. -/

namespace Sys2Proof.Machine

/-! ## One write -/

/-- The staged data of a write. -/
def loadIn (w : CfgWrite) : Option Load :=
  match w with
  | .preLut _ ld | .palette _ ld | .coeff _ _ _ ld | .postLut ld | .mesh _ _ _ ld | .seq _ ld | .rtable _ ld | .ctable _ ld => some ld
  | _ => none

/-- The write with its staged data as it reads now. -/
def reread (s : State) (w : CfgWrite) : CfgWrite :=
  match w with
  | .preLut k ld => .preLut k (reload s ld)
  | .palette k ld => .palette k (reload s ld)
  | .coeff k i a ld => .coeff k i a (reload s ld)
  | .postLut ld => .postLut (reload s ld)
  | .mesh h k b ld => .mesh h k b (reload s ld)
  | .seq h ld => .seq h (reload s ld)
  | .rtable h ld => .rtable h (reload s ld)
  | .ctable h ld => .ctable h (reload s ld)
  | w => w

/-- The table that a load fills. -/
def tableKey (w : CfgWrite) : Option (Nat × Nat × Nat) :=
  match w with
  | .preLut k _ => some (0, k.val, 0)
  | .postLut _ => some (1, 0, 0)
  | .palette k _ => some (2, k.val, 0)
  | .coeff k i a _ => some (3, k.val, i.val * 2 + a.toNat)
  | .mesh h k b _ => some (4, h.val, k.val * 2 + b.toNat)
  | .seq h _ => some (5, h.val, 0)
  | .rtable h _ => some (6, h.val, 0)
  | .ctable h _ => some (7, h.val, 0)
  | _ => none

/-- A later load of the same table supersedes an earlier one of the same record (R43, R84). -/
def lastLoads : List CfgWrite → List CfgWrite
  | [] => []
  | w :: r => if (tableKey w).isSome && r.any (fun v => tableKey v == tableKey w) then lastLoads r else w :: lastLoads r

/-- A LATCH as it runs: the state, the writes that it has applied in order, and whether their staged data agreed with its CRC. -/
structure Run where
  s  : State
  ws : List (CfgWrite × Bool)

/-- A write takes effect. -/
def applyOneWrite (r : Run) (w : CfgWrite) : Run :=
  let v := reread r.s w
  let ok : Bool := match loadIn v with
    | some ld => loadOk ld
    | none => true
  { s := if ok then onCfg (applyW v) r.s else r.s, ws := r.ws ++ [(v, ok)] }

/-- Writes take effect in order. -/
def applyMany (ws : List CfgWrite) (r : Run) : Run := (lastLoads ws).foldl applyOneWrite r

/-! ## Layer parts and buffers (R102, R106, R107) -/

/-- The layer part of a layer, and the common part. -/
def partWrites (k : Layer) (r : Record) : List CfgWrite := r.writes.filter fun w => partOf w == some k
def commonWrites (r : Record) : List CfgWrite := r.writes.filter fun w => (partOf w).isNone

/-- The layers of which a record holds a part. -/
def partLayers (r : Record) : List Layer := (allFin 24).filter fun k => r.writes.any fun w => partOf w == some k

/-- The release part that a record's list carries for a layer. -/
def relOf (k : Layer) (r : Record) : Option (Nat × BitVec 64) := (r.fences.find? fun f => f.layer == k).bind (·.rel)

/-- The acquire fence of a layer was signalled by the last cut-off; a part without one waits for none. -/
def partHeld (k : Layer) (r : Record) : Bool := r.fences.all fun f => f.layer != k || f.acq.isNone || f.held

/-- The base that a record names for a layer. -/
def namedBase (k : Layer) (r : Record) : Option (Nat × Nat) := (lastLayer k r.writes).map fun v => (v.base0, v.base1)

/-- The layer's live buffer. -/
def liveBase (k : Layer) (s : State) : Nat × Nat := (s.cfg.layers[k].sh.base0, s.cfg.layers[k].sh.base1)

/-- A release falls due. -/
def addRelease (x : Release) (s : State) : State := onCom (fun c => { c with releases := c.releases ++ [x] }) s

/-- A buffer that a record named and that never became live is released. -/
def releaseNamed (due reason : Nat) (k : Layer) (r : Record) (s : State) : State :=
  match namedBase k r with
  | some b =>
    if b == liveBase k s then s
    else addRelease { due := due, layer := k, reason := reason, tag := r.tag, base0 := b.1, fence := relOf k r } s
  | none => s

/-- The live buffer of a layer is released, where a record has named it and it has not been released since it was last named or
read again: "at most once for each record that named it or replaced it" is read as once for all of them (log entry 60). -/
def releaseLive (due reason : Nat) (k : Layer) (base0 : Nat) (b : Buffer) (s : State) : State :=
  if b.named && !b.released then
    addRelease { due := due, layer := k, reason := reason, tag := b.tag, base0 := base0, fence := b.fence } s
  else s

/-- What an applied record still holds: the writes and the fences of its deferred parts. The rest of it is in the live state. -/
def Record.keepDeferred (r : Record) : Record :=
  let waits (k : Layer) : Bool := r.deferred.any fun p => p.1 == k
  { r with writes := r.writes.filter fun w => (match partOf w with
                       | some k => waits k
                       | none => false)
           fences := r.fences.filter fun f => waits f.layer }

/-- A record without the deferred part of a layer. -/
def Record.dropPart (k : Layer) (r : Record) : Record :=
  if r.applied then { r with deferred := r.deferred.filter fun p => p.1 != k }.keepDeferred else r

/-- The record at place i holds a part for the layer: it ends every deferred part of an earlier record for it; their buffers are
released when this record's frame is shown (R104). -/
def supersede (i : Nat) (k : Layer) (s : State) : State :=
  let old := (s.com.records.take i).filter fun r => r.applied && r.deferred.any fun p => p.1 == k
  let s1 := onCom (fun c => { c with records := (c.records.take i).map (Record.dropPart k) ++ c.records.drop i }) s
  forEach old (releaseNamed (s.clk.tick + 1) 3 k) s1

/-- What the live buffer of a layer carries after a part has applied. Of several records that wrote the same live base, the
first since its last release gives the tag (log entry 61). A buffer that is read again, because its layer is enabled or returns
from a drop, may be released again. -/
def bufferAfter (old new : LayerCfg) (back : Bool) (tag : BitVec 32) (rel : Option (Nat × BitVec 64)) (wrote : Bool) (b : Buffer) :
    Buffer :=
  let off := old.enable && !new.enable
  if old.sh.base0 != new.sh.base0 || old.sh.base1 != new.sh.base1 then { tag := tag, fence := rel, named := true, released := false }
  else
    { tag := if wrote && (!b.named || b.released) then tag else b.tag
      fence := if rel.isSome then rel else if off then none else b.fence
      named := b.named || wrote
      released := if off then true else if back || (!old.enable && new.enable) then false else b.released }

/-- A layer part applies: the layer returns from a drop, and a buffer that it replaces or disables is released when its frame is
shown. -/
def applyPart (i : Nat) (r : Record) (k : Layer) (x : Run) : Run :=
  let ws := partWrites k r
  let old := x.s.cfg.layers[k]
  let b := x.s.com.bufs[k]
  let y := applyMany ws x
  let new := y.s.cfg.layers[k]
  let off := old.enable && !new.enable
  let moved := old.sh.base0 != new.sh.base0 || old.sh.base1 != new.sh.base1
  let s1 := if moved || off then releaseLive (y.s.clk.tick + 1) (if off then 1 else 0) k old.sh.base0 b y.s else y.s
  let back := x.s.cfg.dropped.getLsbD k.val
  let s2 := onCom (fun c => { c with bufs := c.bufs.set k (bufferAfter old new back r.tag (relOf k r) (namedBase k r).isSome b) })
    (onCfg (fun c => { c with dropped := c.dropped &&& ~~~BitVec.ofNat 24 (2 ^ k.val) }) s1)
  { y with s := supersede i k s2 }

/-- Parts of the record at place i apply in ascending layer order. -/
def applyParts (i : Nat) (ks : List Layer) (r : Record) (x : Run) : Run := ks.foldl (fun x k => applyPart i r k x) x

/-! ## Records (R93, R102 to R105) -/

/-- R105: the state fits R40, R71, R75 and R78. -/
def stateFits (s : State) : Bool := rateOk s s.cfg && (poolRef s.cfg).isNone && (bandRef s s.cfg).isNone

/-- Records without anything pending leave (R89). -/
def sweepRecords (s : State) : State :=
  onCom (fun c => { c with records := c.records.filter fun r => !r.applied || !r.deferred.isEmpty }) s

/-- LAYER_HELD's and LAYER_DROPPED's payload. -/
def heldWord (k : Layer) (tag : BitVec 32) : Nat := pack [(0, 5, k.val), (32, 32, tag.toNat)]

/-- One list place of the records: its record becomes what f makes of it, in a run. -/
def onRecordAt (i : Nat) (f : Record → Record) (s : State) : State :=
  onCom (fun c => { c with records := (c.records.zipIdx).map fun p => if p.2 = i then f p.1 else p.1 }) s

/-- The deferred parts of an applied record whose fences were signalled by the cut-off apply, unless others of it are still
deferred and the result would not fit: all parts of the record then stay deferred, as R105 states it for the first deferral (log
entry 62). -/
def applyReady (i : Nat) (x : Run) : Run :=
  match x.s.com.records[i]? with
  | some r =>
    if !r.applied then x
    else
      let ks := r.deferred.map (·.1)
      let ready := ks.filter fun k => partHeld k r
      let rest := ks.filter fun k => !partHeld k r
      if ready.isEmpty then x
      else
        let s1 := onRecordAt i (fun r => { r with deferred := r.deferred.filter fun p => rest.contains p.1 }.keepDeferred) x.s
        let y := applyParts i ready r { x with s := s1 }
        if rest.isEmpty || stateFits y.s then y else x
  | none => x

/-- Every part that stays deferred counts one deferral more. -/
def countDeferrals (s : State) : State :=
  onCom (fun c => { c with records := c.records.map fun r =>
    if r.applied then { r with deferred := r.deferred.map fun p => (p.1, p.2 + 1) } else r }) s

/-- A marked record applies: the whole of it, or in fenced-layer mode its common part and the parts that are not deferred; the
others are deferred, all of them where the result would not fit. -/
def applyRecord (i : Nat) (x : Run) : Run :=
  match x.s.com.records[i]? with
  | some r =>
    if r.applied || !r.marked then x
    else
      let ks := partLayers r
      let x1 := applyMany (commonWrites r) { x with s := onRecordAt i (fun r => { r with applied := true }) x.s }
      let late := if r.layered then ks.filter fun k => !partHeld k r else []
      let y := applyParts i (ks.filter fun k => !late.contains k) r x1
      let z := if late.isEmpty then (y, []) else if stateFits y.s then (y, late) else (x1, ks)
      let s1 := onRecordAt i (fun r => { r with deferred := z.2.map fun k => (k, 1) }.keepDeferred) z.1.s
      { z.1 with s := forEach z.2 (fun k s => later (srcLayer k) evLayerHeld (heldWord k r.tag) s) s1 }
  | none => x

/-- A layer whose part is deferred once more than HOLD_TICKS is dropped, and its live buffer released (R103, R106). -/
def dropLayer (k : Layer) (tag : BitVec 32) (s : State) : State :=
  let b := s.com.bufs[k]
  let s1 := releaseLive s.clk.tick 2 k s.cfg.layers[k].sh.base0 b s
  later (srcLayer k) evLayerDropped (heldWord k tag)
    (onCfg (fun c => { c with dropped := c.dropped ||| BitVec.ofNat 24 (2 ^ k.val) })
      (onCom (fun c => { c with bufs := c.bufs.set k { b with released := b.released || b.named, fence := none } }) s1))

/-- The record whose deferred part of a layer has counted out. -/
def countedOut (k : Layer) (s : State) : Option Record :=
  if s.cfg.dropped.getLsbD k.val then none
  else s.com.records.find? fun r => r.applied && r.deferred.any fun p => p.1 == k && decide (s.cfg.fence.hold < p.2)

/-- R103 for one layer. -/
def dropIfDue (k : Layer) (s : State) : State :=
  match countedOut k s with
  | some r => dropLayer k r.tag s
  | none => s

/-! ## Abandoned records (R101) -/

/-- The layers whose acquire fences of a record were not signalled. -/
def unsignalled (r : Record) : Nat :=
  pack ((allFin 24).map fun k => (k.val, 1, (r.fences.any fun f => f.layer == k && f.acq.isSome && !f.signalled).toNat))

/-- COMMIT_ABANDONED's payload. -/
def abandonedWord (r : Record) : Nat := pack [(0, 32, r.tag.toNat), (32, 24, unsignalled r)]

/-- A record is abandoned: its fields are discarded, and the buffers that it named are released. -/
def abandon (r : Record) (s : State) : State :=
  forEach (partLayers r) (fun k s => releaseNamed s.clk.tick 4 k r s) (later srcCommit evCommitAbandoned (abandonedWord r) s)

/-- Every record that its cut-off found unready for too long is abandoned, in execution order. -/
def abandonDue (s : State) : State :=
  let gone := s.com.records.filter fun r => r.doomed && !r.applied
  let s1 := onCom (fun c => { c with records := c.records.filter fun r => !(r.doomed && !r.applied) }) s
  trimLines (forEach gone abandon s1)

/-! ## Releases (R106, R99) -/

/-- The releases that are due take their place in the LATCH. -/
def fireReleases (s : State) : State :=
  let due := s.com.releases.filter fun x => decide (x.due ≤ s.clk.tick)
  onCom (fun c => { c with
    releases := c.releases.filter fun x => !decide (x.due ≤ s.clk.tick)
    latchQ := c.latchQ ++ due.map fun x => .release x false }) s

/-! ## The whole of it -/

/-- What FLIP will say of the frame whose build begins here. -/
def buildInfo (news : List Record) (s : State) : FrameInfo :=
  { tag := match news.getLast? with
      | some r => r.tag
      | none => s.com.build.tag
    isNew := !news.isEmpty, late := news.any (·.late), merged := min 3 (news.length - 1)
    held := BitVec.ofNat 24 (pack ((allFin 24).map fun k =>
      (k.val, 1, (s.com.records.any fun r => r.applied && r.deferred.any fun p => p.1 == k).toNat)))
    dropped := s.cfg.dropped }

/-- The lv writes, the ready deferred parts, the marked records in execution order, the drops; and then the records to abandon,
whose buffers are judged against what has become live. -/
def applyAll (lv : List CfgWrite) (s : State) : Run :=
  let news := s.com.records.filter fun r => !r.applied && r.marked
  let idx := List.range s.com.records.length
  let x1 := applyMany lv { s := s, ws := [] }
  let x2 := idx.foldl (fun x i => applyReady i x) x1
  let x3 := idx.foldl (fun x i => applyRecord i x) { x2 with s := countDeferrals x2.s }
  let s4 := forEach (allFin 24) dropIfDue x3.s
  let s5 := trimLines (sweepRecords (abandonDue s4))
  { x3 with s := fireReleases (onCom (fun c => { c with shown := c.build, build := buildInfo news s5 }) s5) }

/-! ## The order of R510 -/

/-- The place of an event of a LATCH. -/
def latchPlace (code : BitVec 16) (src : Nat) : Nat :=
  if code == evTickAligned then 1
  else if code == evFlip then 2
  else if code == evCommitAbandoned then 3
  else if code == evTableApplied || code == evTableStageCorrupt then 5
  else if code == evWarpApplied || code == evWarpStageCorrupt then 6
  else if code == evSeqApplied || code == evSeqStageCorrupt then 7
  else if code == evRtableApplied || code == evRtableStageCorrupt then 8
  else if code == evCtableApplied || code == evCtableStageCorrupt then 9
  else if code == evLayerHeld || code == evLayerDropped then 10
  else if code == evUnderrun then 11
  else if code == evTimingApplied then 12
  else if code == evTransitionEnd then 13
  else if code == evLineMatch then 14
  else if code == evSeqDutyLow then 15
  else if code == evDimReached then 16
  else if code == evLampNofit then 17
  else if code == evLampFadesDone then 18
  else if code == evTelltaleApplied then 19
  else if code == evSafeStateExit then 20
  else if code == evCalApplied then 21
  else 22 + 65536 * src + code.toNat

/-- The rank of an item in the LATCH: its place, then within the place its source, and KIND of a table, the REASON of a release. -/
def latchRank (x : LatchItem) : Nat × Nat :=
  match x with
  | .event src code p =>
    let kind := if code == evTableApplied || code == evTableStageCorrupt then p / 32 % 8 else 0
    (latchPlace code src, 16 * src + kind)
  | .release r _ => (4, 8 * r.layer.val + r.reason)

/-- Stable insertion by rank. -/
def insertItem (x : LatchItem) : List LatchItem → List LatchItem
  | [] => [x]
  | y :: r =>
    let a := latchRank x
    let b := latchRank y
    if a.1 < b.1 || (a.1 == b.1 && decide (a.2 < b.2)) then x :: y :: r else y :: insertItem x r

/-- The queue of the LATCH in the order of R510. -/
def orderLatch (s : State) : State := onCom (fun c => { c with latchQ := c.latchQ.foldl (fun l x => insertItem x l) [] }) s

/-! ## Table events (R84, R136, R184, R233, R268) -/

/-- The event of an applied or refused load; `dark` says that the LATCH made a dark change. -/
def tableEvent (dark : Bool) (p : CfgWrite × Bool) (s : State) : State :=
  let t (k kind set : Nat) (src : Nat) : State :=
    later src (if p.2 then evTableApplied else evTableStageCorrupt) (pack [(0, 5, k), (5, 3, kind), (8, 2, set)]) s
  match p.1 with
  | .preLut k _ => t k.val 0 0 (srcLayer k)
  | .postLut _ => t 0 1 0 srcCanvas
  | .palette k _ => t k.val 2 0 (srcLayer k)
  | .coeff k i a _ => t k.val (if a then 4 else 3) i.val (srcLayer (Fin.ofNat 24 k.val))
  | .mesh h k b _ => later (srcHead h) (if p.2 then evWarpApplied else evWarpStageCorrupt)
      (pack [(0, 2, h.val), (2, 2, k.val), (4, 1, b.toNat)]) s
  | .seq h ld =>
    let q := seqOf ld.bytes
    if p.2 then later (srcHead h) evSeqApplied (pack [(0, 2, h.val), (2, 1, dark.toNat), (8, 8, q.entries.length), (16, 5, q.depth)]) s
    else later (srcHead h) evSeqStageCorrupt (pack [(0, 2, h.val)]) s
  | .rtable h ld =>
    if p.2 then later (srcRaster h) evRtableApplied (pack [(0, 2, h.val), (4, 12, at8 ld.bytes 6 2)]) s
    else later (srcRaster h) evRtableStageCorrupt (pack [(0, 2, h.val)]) s
  | .ctable h _ => later (srcColour h) (if p.2 then evCtableApplied else evCtableStageCorrupt) (pack [(0, 2, h.val)]) s
  | _ => s

/-! ## The row -/

/-- LAYER_DROPPED (R103): the count of a layer's deferred part has run out, at its LATCH. -/
def execLayerDropped (k : Layer) (s : State) : Host.Outcome State Fault Refusal :=
  .next (settle (if s.clk.phase == .latch then runLatchQ (orderLatch (fireReleases (dropIfDue k s))) else s))

/-- COMMIT_ABANDONED (R101): records that the cut-off found unready for too long are abandoned at the LATCH. -/
def execCommitAbandoned (s : State) : Host.Outcome State Fault Refusal :=
  .next (settle (if s.clk.phase == .latch then judge (runLatchQ (orderLatch (fireReleases (abandonDue s)))) else s))

end Sys2Proof.Machine
end

