-- ==== Sys2Proof/Machine/Assets.lean ====
section
/-! DEFINITION. The safety asset as the image carries it (R321), and the checks of R322. -/

namespace Sys2Proof.Machine

/-- Two rectangles overlap. -/
def overlap (a b : Telltale) : Bool :=
  decide (a.x < b.x + b.w) && decide (b.x < a.x + a.w) && decide (a.y < b.y + b.h) && decide (b.y < a.y + a.h)

/-- No two tell-tales overlap. -/
def apart : List Telltale → Bool
  | [] => true
  | t :: r => r.all (fun u => !overlap t u) && apart r

/-- The defaults of a head in the table of R321. -/
def assetHead (t : List Byte) (h : Nat) : AssetHead :=
  let o := 16 + 12 * h
  { wx := at8 t o 2, wy := at8 t (o + 2) 2, shown := at8 t (o + 4) 1 % 2 == 1, proofOs := at8 t (o + 5) 1
    level := #v[at8 t (o + 6) 2, at8 t (o + 8) 2, at8 t (o + 10) 2] }

/-- A tell-tale in the table of R321. -/
def assetTelltale (t : List Byte) (i : Nat) : Telltale :=
  let o := 64 + 16 * i
  { x := at8 t o 2, y := at8 t (o + 2) 2, w := at8 t (o + 4) 2, h := at8 t (o + 6) 2, bootState := at8 t (o + 8) 1
    timeoutState := at8 t (o + 9) 1, blinkTicks := at8 t (o + 10) 1 }

/-- The asset as its table says (R321); entries from COUNT on are ignored (R322). -/
def assetOf (r : RawAsset) : Asset :=
  let t := r.table
  { ww := at8 t 6 2, wh := at8 t 8 2, q2TimeoutMs := at8 t 10 2, heads := Vector.ofFn fun h => assetHead t h.val
    telltales := (List.range (at8 t 5 1)).map (assetTelltale t), table := t, atlas := r.atlas }

/-- Every reserved byte of the table, and every reserved bit of a SHOW byte, is 0. -/
def reservedZero (t : List Byte) : Bool :=
  at8 t 12 4 == 0 && (List.range 4).all (fun h => decide (at8 t (20 + 12 * h) 1 ≤ 1)) &&
    (List.range (at8 t 5 1)).all fun i => at8 t (75 + 16 * i) 5 == 0

/-- R322, without the places that the boot settings decide. -/
def assetOk (r : RawAsset) : Bool :=
  let a := assetOf r
  r.table.length == 1088 && at8 r.table 0 4 == 0x54415347 && at8 r.table 4 1 == 1 &&
    decide (1 ≤ a.telltales.length ∧ a.telltales.length ≤ 64) &&
    decide (64 ≤ a.ww ∧ a.ww ≤ 1024) && a.ww % 8 == 0 && decide (64 ≤ a.wh ∧ a.wh ≤ 512) &&
    decide (20 ≤ a.q2TimeoutMs ∧ a.q2TimeoutMs ≤ 2000) && reservedZero r.table &&
    a.heads.toList.all (fun h => decide (h.proofOs ≤ 7) || h.proofOs == 15) &&
    a.telltales.all (fun t => decide (t.bootState ≤ 2) && decide (t.timeoutState ≤ 3) && decide (t.x + t.w ≤ a.ww) &&
      decide (t.y + t.h ≤ a.wh) && (t.blinkTicks != 0 || (t.bootState != 2 && t.timeoutState != 2))) &&
    apart a.telltales

end Sys2Proof.Machine
end

