-- ==== Sys2Proof/Machine/SafetyRows.lean ====
section
/-! DEFINITION. Hardware faults and their recovery (11), and the restart of a control core (13, R396). -/

namespace Sys2Proof.Machine

/-! ## Control cores (R396) -/

/-- A control core restarts: its queues are not fetched meanwhile. CAUSE: 0 uncorrectable error, 1 heartbeat, 2 pair fault. -/
def coreDown (core : Fin 3) (cause : Nat) (s : State) : State :=
  if s.boot.down[core] then s
  else onBoot (fun b => { b with down := b.down.set core true, coreCause := b.coreCause.set core cause }) s

/-- The undelivered completions of a queue are written again with REPLAY 1, without a change of indices. -/
def redeliver (q : Fin 4) (s : State) : State :=
  if s.queues[q].en then
    let s1 := onCxl (fun c => { c with outstanding := c.outstanding.filter fun w => match w.id with
      | .cq k _ => k != q
      | _ => true }) s
    pumpCq q 16 (onQueue q (fun x => { x with
      cqNext := x.cqTail, wrap := if x.cqNext.toNat < x.cqTail.toNat then !x.wrap else x.wrap
      journal := x.journal.map fun c => if c.delivered then c else { c with issued := false, replay := true } }) s1)
  else s

/-- The undelivered completions of a queue that runs. -/
def undelivered (s : State) (q : Fin 4) : Nat :=
  if s.queues[q].en then (s.queues[q].journal.filter fun c => !c.delivered).length else 0

/-- The restart ends: re-delivery, CORE_RESTART, fetching. -/
def coreUp (core : Fin 3) (s : State) : State :=
  if !s.boot.down[core] then s
  else
    let qs := (allFin 4).filter fun q => coreOf q == core
    let n := sumOf qs (undelivered s)
    let s1 := onBoot (fun b => { b with down := b.down.set core false, restarts := b.restarts + 1 }) s
    let s2 := if core = 2 then onSafety (fun y => { y with anyAlive := true, hwDivert := y.monitors != 0 }) s1 else s1
    let s3 := forEach qs redeliver s2
    drainAll (raise srcCores evCoreRestart
      (pack [(0, 2, core.val), (2, 2, s.boot.coreCause[core]), (8, 8, n), (16, 16, sat 16 (s.boot.restarts + 1))]) s3)

/-! ## Hardware faults (R334, R337, R338) -/

/-- Hardware drives every channel's buck gates low and its LCSG high, until it releases them. -/
def cutAll (s : State) : State := divert (fun _ => true) true (onSafety (fun y => { y with hwDivert := true }) s)

/-- A fault of the safety pair: the device goes dark by hardware and the pair is reset. -/
def pairFault (m : Nat) (s : State) : State := coreDown 2 2 (safetyFault m none 0 0 true true 0 (cutAll s))

/-- A clock (bit 0) or voltage (bit 1) fault, once while its condition stands. -/
def monitorFault (i m : Nat) (s : State) : State :=
  if s.safety.monitors.getLsbD i then s
  else safetyFault m none 0 0 true true 0
    (cutAll (onSafety (fun y => { y with monitors := y.monitors ||| BitVec.ofNat 2 (2 ^ i) }) s))

/-- The condition has been absent for 1 ms: the channels are released when nothing else holds them. -/
def monitorClears (i : Nat) (s : State) : State :=
  onSafety (fun y =>
    let left := y.monitors &&& ~~~BitVec.ofNat 2 (2 ^ i)
    { y with monitors := left, hwDivert := left != 0 || s.boot.down[(2 : Fin 3)] }) s

/-! ## ECC (R336, R341) -/

/-- The regions of the safe path (R340). -/
def safeRegion (r : Fin 11) : Bool := r == 1 || r == 8 || r == 9 || r == 10

/-- An ECC_CORRECTED of the region came within the last second. -/
def eccTold (r : Fin 11) (s : State) : Bool :=
  match s.safety.eccTick[r] with
  | some t => decide (s.clk.now < t + msT 1000)
  | none => false

/-- A corrected error: ECC_CORRECTED at most once per second per region, with the corrections of the last second. -/
def eccCorrected (r : Fin 11) (s : State) : State :=
  let now := s.clk.now
  let times := now :: (s.safety.eccTimes[r].filter fun t => decide (now < t + msT 1000))
  let s1 := onSafety (fun y => { y with eccTimes := y.eccTimes.set r times }) s
  if eccTold r s then s1
  else raise srcMemory evEccCorrected (pack [(0, 4, r.val), (16, 16, sat 16 times.length)])
    (onSafety (fun y => { y with eccTick := y.eccTick.set r (some now) }) s1)

/-- The block that an error in a plane-link buffer hits is fetched again and treated as refused (R209). -/
def bufferBlock (g : Head) (plane block : Nat) (s : State) : State :=
  match (flightsOf s g).find? (fun f => f.plane == plane && f.block == block) with
  | some f =>
    let r := if s.cfg.heads[g].raster then slotRange s g block plane else blockRange s g (shownOf s g) plane block
    let data := if f.data.isEmpty then [] else memRead s.planes r.1 r.2
    let s1 := if f.data.isEmpty then s else askIo false [r] s
    refused g f (onFlights g (fun l => l.map fun x => if x.same f then { x with data := data } else x) s1)
  | none => s

/-- An uncorrectable error, by region. -/
def eccFatal (r : Fin 11) (heads : BitVec 4) (core : Bool) (plane block : Nat) (s : State) : State :=
  if safeRegion r then safetyFault 1 none 0 0 true true 0 s
  else match r.val with
    | 0 => coreDown (if core then 1 else 0) 0 s
    | 7 => forEach allHeads (fun g s => if heads.getLsbD g.val then bufferBlock g plane block s else s) s
    | 2 => s
    | _ => noteBuilt (forEach allHeads (fun h s => if heads.getLsbD h.val then cutBuild h s else s) s)

/-- A SECDED error. -/
def eccFound (r : Fin 11) (uncorrectable : Bool) (heads : BitVec 4) (core : Bool) (plane block : Nat) (s : State) : State :=
  if uncorrectable then eccFatal r heads core plane block s else eccCorrected r s

/-! ## Supervision and recovery (R335, R343) -/

/-- Q2_TIMEOUT_MS of the asset in force. -/
def q2TimeoutMs (s : State) : Nat :=
  match s.safety.asset with
  | some a => a.q2TimeoutMs
  | none => 0

/-- No accepted Q2 command for Q2_TIMEOUT_MS after the last one. -/
def q2Expires (s : State) : State :=
  if s.safety.q2Run && !s.safety.q2Timeout then
    raise srcQ2 evQ2Timeout (pack [(0, 16, q2TimeoutMs s)]) (onSafety (fun y => { y with q2Timeout := true, ttDue := true }) s)
  else s

/-- Every restartable cause has cleared, and the safety pair runs: the clock and voltage conditions, the trip latches, the event store
(R341, R343). -/
def reloadable (s : State) : Bool :=
  s.safety.standing != 0 && s.safety.monitors == 0 && !s.safety.storeFull && (allFin 2).all (fun g => !s.therm.groups[g].tripped) &&
    !s.boot.down[(2 : Fin 3)] && inSafe s

/-- The asset has been read again from the active slot and the self-tests have run: SAFE_WINDOW follows at the next LATCH. A failed test
or a rejected asset is latched (R340, R341). -/
def reloadDone (passed : Bool) (a : RawAsset) (s : State) : State :=
  if !reloadable s then s
  else if !passed then safetyFault 12 none 0 0 true false 0 s
  else if !assetOk a then safetyFault 13 none 0 0 true false 0 s
  else stageLayouts (onSafety (fun y => { y with
    asset := some (assetOf a), standing := 0, toWindow := y.mode == .dark && !y.darkLatched }) s)

/-! ## The rows -/

/-- LOCKSTEP_FAULT (R334). -/
def execLockstepFault (s : State) : Host.Outcome State Fault Refusal := .next (settle (pairFault 2 s))

/-- CLOCK_FAULT (R337). -/
def execClockFault (s : State) : Host.Outcome State Fault Refusal := .next (settle (monitorFault 0 5 s))

/-- VOLTAGE_FAULT (R337). -/
def execVoltageFault (s : State) : Host.Outcome State Fault Refusal := .next (settle (monitorFault 1 6 s))

/-- MONITOR_FAULT_CLEAR (R337). -/
def execMonitorFaultClear (voltage : Bool) (s : State) : Host.Outcome State Fault Refusal :=
  .next (settle (if voltage then monitorClears 1 s else monitorClears 0 s))

/-- WATCHDOG_EXPIRY (R338). -/
def execWatchdogExpiry (s : State) : Host.Outcome State Fault Refusal := .next (settle (pairFault 3 s))

/-- ECC_ERROR (R336). -/
def execEccError (region : Fin 11) (uncorrectable : Bool) (heads : BitVec 4) (core : Bool) (plane block : Nat) (s : State) :
    Host.Outcome State Fault Refusal := .next (settle (eccFound region uncorrectable heads core plane block s))

/-- Q2_TIMEOUT (R335). -/
def execQ2Timeout (s : State) : Host.Outcome State Fault Refusal := .next (settle (q2Expires s))

/-- SAFE_PATH_RELOAD_DONE (R343). -/
def execSafePathReloadDone (passed : Bool) (asset : RawAsset) (s : State) : Host.Outcome State Fault Refusal :=
  .next (settle (reloadDone passed asset s))

/-- CORE_HEARTBEAT_TIMEOUT (R396). -/
def execCoreHeartbeatTimeout (core : Fin 2) (s : State) : Host.Outcome State Fault Refusal :=
  .next (settle (coreDown (Fin.ofNat 3 core.val) 1 s))

/-- CORE_RESTART (R396). -/
def execCoreRestart (core : Fin 3) (s : State) : Host.Outcome State Fault Refusal := .next (settle (coreUp core s))

end Sys2Proof.Machine
end

