-- ==== Sys2Proof/Machine/Thermal.lean ====
section
/-! DEFINITION. Thermal sensing, failed sensors, throttle timers and hardware trips (10). Temperatures in °C, slopes in K/s;
one sample is one ms. -/

namespace Sys2Proof.Machine

/-! ## Groups, neighbours, pairs (R303) -/

/-- A sensor of a group: 0 die, 1 light engine. -/
def inGroup (s : State) (g : Fin 2) (i : Fin 36) : Bool :=
  if g = 0 then decide (i.val < 12)
  else if i.val < 16 then false
  else if i.val < 32 then s.cfg.therm.leMask.getLsbD (i.val - 16)
  else s.cfg.therm.atEn && decide (2 ≤ s.links[Fin.ofNat 4 i.val].state)

/-- The groups. -/
def bothGroups : List (Fin 2) := [0, 1]

/-- The group of a sensor. -/
def groupOfSensor (s : State) (i : Fin 36) : Option (Fin 2) := bothGroups.find? fun g => inGroup s g i

/-- A valid sensor, and a member that counts: valid, or failed and carried as a substitute. -/
def sensorValid (s : State) (i : Fin 36) : Bool := s.therm.sensors[i].seen && !s.therm.sensors[i].failed
def groupMembers (s : State) (g : Fin 2) : List (Fin 36) := (allFin 36).filter fun i => inGroup s g i && (s.therm.sensors[i].seen || s.therm.sensors[i].failed)

/-- The other valid members of a sensor's group. -/
def neighbours (s : State) (i : Fin 36) : List (Fin 36) :=
  match groupOfSensor s i with
  | some g => (allFin 36).filter fun j => j != i && inGroup s g j && sensorValid s j
  | none => []

/-- The largest of a list of values. -/
def maxRat : List Rat → Option Rat
  | [] => none
  | x :: r => some (r.foldl (fun a b => if a < b then b else a) x)

/-- The neighbours' maximum. -/
def nbrMax (s : State) (i : Fin 36) : Option Rat := maxRat ((neighbours s i).map fun j => s.therm.sensors[j].tf)

/-- The pair partner of a sensor, where it has one. -/
def pairOf (s : State) (i : Fin 36) : Option (Fin 36) :=
  if i.val < 12 then some (Fin.ofNat 36 (if i.val % 2 = 0 then i.val + 1 else i.val - 1))
  else if 16 ≤ i.val && i.val < 32 then
    let n : Fin 16 := Fin.ofNat 16 (i.val - 16)
    if s.cfg.therm.tsPair[n] == n then none else some (tsSensor s.cfg.therm.tsPair[n].val)
  else none

def onSensor (i : Fin 36) (f : Sensor → Sensor) (s : State) : State := onTherm (fun t => { t with sensors := upd t.sensors i f }) s

/-! ## Readings (R304) -/

/-- The limit of a sensor's trip comparator (R315); the light-engine trip is armed once the boot has read the OTP (R412). -/
def tripLimit (s : State) (i : Fin 36) : Option Rat :=
  if i.val < 12 then some 130
  else if 16 ≤ i.val && i.val < 32 && s.boot.stage != .waiting then
    match s.otp.integrator with
    | some b => if b.leTripMask.getLsbD (i.val - 16) then some ((b.leTripLimit : Rat) / 8) else none
    | none => none
  else none

/-- A reading out of range: cause 0. -/
def outOfRange (v : Option Rat) : Bool :=
  match v with
  | some t => decide (t < -55) || decide (175 < t)
  | none => true

/-- A conversion enters a sensor: the filter of a valid one, the trip's count, and the return test's last value. -/
def takeReading (i : Fin 36) (v : Option Rat) (s : State) : State :=
  let hot : Bool := match v, tripLimit s i with
    | some t, some l => decide (l ≤ t)
    | _, _ => false
  let bad := outOfRange v
  onSensor i (fun x =>
    let t := v.getD x.last
    { x with
      tried := true
      raw := v
      overs := if hot then x.overs + 1 else 0
      seen := x.seen || !bad
      last := if bad then x.last else t
      tf := if bad || x.failed then x.tf else if x.seen then x.tf + (t - x.tf) / 32 else t }) s

/-- The natural logarithm of a number from 1 to 2, by 15 terms of the series of 2 artanh: within 10⁻¹⁶. -/
def lnUnit (m : Rat) : Rat :=
  let z := (m - 1) / (m + 1)
  2 * ((List.range 15).foldl (fun (a : Rat × Rat) i => (a.1 + a.2 / (2 * i + 1 : Nat), a.2 * (z * z))) (0, z)).1

/-- ln 2. -/
def ln2 : Rat := 693147180559945309417 / 1000000000000000000000

/-- The natural logarithm of a positive number, brought between 1 and 2 by at most so many halvings or doublings. -/
def lnRat : Nat → Rat → Rat
  | 0, q => lnUnit q
  | k + 1, q => if 2 ≤ q then ln2 + lnRat k (q / 2) else if q < 1 then lnRat k (2 * q) - ln2 else lnUnit q

/-- R498: the temperature of a thermistor at a TS input, from the input's voltage, to 0.001 degree C (log entry 88); none for the open
and the short code. -/
def thermistor (micro : Nat) : Option Rat :=
  if 1190000 < micro || micro < 10000 then none
  else
    let v : Rat := (micro : Rat) / 1000000
    let t := 1 / (1 / (29815 / 100) + lnRat 8 (v / (12 / 10 - v)) / 3435) - 27315 / 100
    some ((ratRound (t * 1000) : Rat) / 1000)

/-- The temperature of a row's reading. -/
def readingOf (r : Reading) : Option Rat :=
  match r with
  | .die m => some ((m : Rat) / 1000)
  | .volts u => thermistor u

/-- An AT sensor holds the TEMP of its group's last STATUS while the group runs. -/
def takeAt (s : State) : State :=
  forEach allHeads (fun k s =>
    if 2 ≤ s.links[k].state then takeReading (Fin.ofNat 36 (32 + k.val)) (some ((s.links[k].temp : Rat) / 8)) s else s) s

/-- The readings of a sample. -/
def takeReadings (r : List (Fin 36 × Reading)) (s : State) : State :=
  takeAt (forEach (r.filter fun p => decide (p.1.val < 12) || (decide (16 ≤ p.1.val) && decide (p.1.val < 32)))
    (fun p s => takeReading p.1 (readingOf p.2) s) s)

/-- The 30 s history of a sensor: its reading and its neighbours' maximum. -/
def takeHistory (i : Fin 36) (s : State) : State :=
  match nbrMax s i, s.therm.sensors[i].raw with
  | some m, some t => onSensor i (fun x => { x with hist := (t, m) :: x.hist.take 30000 }) s
  | _, _ => onSensor i (fun x => { x with hist := [] }) s

/-! ## Failure tests (R310) -/

/-- Stuck: less than 0.05 K over 30 s while the neighbours' maximum moved by more than 2 K. -/
def isStuck (x : Sensor) : Bool :=
  match x.hist.head?, x.hist[30000]? with
  | some a, some b => decide (absR (a.1 - b.1) < 1 / 20) && decide (2 < absR (a.2 - b.2))
  | _, _ => false

/-- More than 15 K from a valid partner. -/
def disagrees (s : State) (i : Fin 36) : Bool :=
  match pairOf s i with
  | some p => sensorValid s p && decide (15 < absR (s.therm.sensors[i].last - s.therm.sensors[p].last))
  | none => false

/-- A value in its place in an ascending list. -/
def insertRat (a : Rat) : List Rat → List Rat
  | [] => [a]
  | x :: r => if a ≤ x then a :: x :: r else x :: insertRat a r

/-- The median: the middle value, or the mean of the two in the middle. -/
def medianRat (l : List Rat) : Option Rat :=
  let s := l.foldr insertRat []
  let n := s.length
  if n = 0 then none
  else if n % 2 = 1 then s[n / 2]?
  else some ((s.getD (n / 2 - 1) 0 + s.getD (n / 2) 0) / 2)

/-- The distance of a sensor from the median of its neighbours other than its partner. -/
def fromMedian (s : State) (i p : Fin 36) : Option Rat :=
  (medianRat (((neighbours s i).filter fun j => j != p).map fun j => s.therm.sensors[j].last)).map fun m =>
    absR (s.therm.sensors[i].last - m)

/-- After 100 ms of disagreement: the member farther from the median fails; both where one has no other valid neighbour, or at
equal distances (log entry 44). -/
def pairFails (s : State) (i : Fin 36) : Bool :=
  decide (100 ≤ s.therm.sensors[i].pairMs) &&
  match pairOf s i with
  | some p => match fromMedian s i p, fromMedian s p i with
    | some a, some b => decide (b ≤ a)
    | _, _ => true
  | none => false

/-- The cause for which a valid sensor fails now. -/
def failCause (s : State) (i : Fin 36) : Option Nat :=
  let x := s.therm.sensors[i]
  if x.failed then none
  else if x.tried && outOfRange x.raw then some 0
  else if !x.seen then none
  else if isStuck x then some 1
  else if pairFails s i then some 2
  else none

/-- The counters of the failure tests and of the return test, in which a failed sensor meets the same tests (R310, R314). -/
def countTests (i : Fin 36) (s : State) : State :=
  let apart := disagrees s i
  onSensor i (fun x =>
    let n := if apart then x.pairMs + 1 else 0
    { x with
      pairMs := n
      holdMs := if x.hold then x.holdMs + 1 else 0
      okMs := if x.failed && !outOfRange x.raw && !isStuck x && decide (n < 100) then x.okMs + 1 else 0 }) s

/-! ## Substitutes (R311 to R313) -/

/-- The group of a failed sensor holds no valid sensor. -/
def inBlind (s : State) (i : Fin 36) : Bool := (groupOfSensor s i).isSome && (neighbours s i).isEmpty

/-- The substitute of a failed sensor as R311 and R313 give it. -/
def substitute (s : State) (i : Fin 36) : Rat :=
  let off := (s.cfg.therm.subOffset : Rat) / 8
  if inBlind s i then
    (if s.therm.sensors[i].seen then s.therm.sensors[i].tf + 5 else (Config.neverRead i.val : Rat) / 1000)
  else match nbrMax s i with
    | some m => m + off
    | none => match pairOf s i with
      | some p => if sensorValid s p then s.therm.sensors[p].tf + off else 85
      | none => 85

/-- Every failed sensor carries its substitute; the failed holder of a maximum keeps its last value plus 5 K for 60 s. -/
def carry (i : Fin 36) (s : State) : State :=
  let x := s.therm.sensors[i]
  if x.failed && !x.hold then onSensor i (fun y => { y with sub := some (substitute s i) }) s else s

/-- What a member contributes to its group's maximum. -/
def memberValue (s : State) (i : Fin 36) : Rat :=
  let x := s.therm.sensors[i]
  if x.failed then x.sub.getD x.tf else x.tf

/-- The group's maximum. -/
def groupMax (s : State) (g : Fin 2) : Option Rat := maxRat ((groupMembers s g).map (memberValue s))

/-- THERMAL_SENSOR_FAIL's payload. -/
def sensorFailWord (i : Fin 36) (cause : Nat) (holder : Bool) (sub_ : Rat) : Nat :=
  pack [(0, 6, i.val), (8, 3, cause), (11, 1, holder.toNat), (16, 16, t8 sub_)]

/-- A sensor fails. -/
def failSensor (i : Fin 36) (cause : Nat) (s : State) : State :=
  let g := groupOfSensor s i
  let holder : Bool := match g with
    | some k => decide (1 ≤ s.therm.level) && groupMax s k == some (memberValue s i) && s.therm.sensors[i].seen
    | none => false
  let s1 := onSensor i (fun x => { x with failed := true, cause := cause, okMs := 0, pairMs := 0, holdMs := 0
                                          hold := holder, sub := if holder then some (x.tf + 5) else none }) s
  let s2 := carry i s1
  let s3 := match g with
    | some k => onGroup k (fun x => { x with frozen := x.frozen || holder, coldMs := if holder then 0 else x.coldMs }) (restartWindow k s2)
    | none => s2
  raise (srcSensor i) evThermalSensorFail (sensorFailWord i cause holder (memberValue s3 i)) s3

/-- A group holds only substitutes. -/
def onlySubs (s : State) (g : Fin 2) : Bool :=
  !(groupMembers s g).isEmpty && (groupMembers s g).all fun i => s.therm.sensors[i].failed

/-- A group becomes blind, with cause 3 from a sensor that failed in this sample where there is one (R313), or has a valid sensor
again. -/
def judgeBlind (fails : List (Fin 36)) (g : Fin 2) (s : State) : State :=
  let now := onlySubs s g
  let s1 := onGroup g (fun x => { x with blind := now }) s
  if now && !s.therm.groups[g].blind then
    match ((fails.filter (inGroup s g)) ++ groupMembers s g).head? with
    | some i => raise (srcSensor i) evThermalSensorFail (sensorFailWord i 3 s.therm.sensors[i].hold (memberValue s i)) s1
    | none => s1
  else s1

/-! ## Maxima, slopes, warnings, timers (R304 to R307, R312) -/

/-- A group's maximum and slope after a sample. -/
def updateGroup (g : Fin 2) (s : State) : State :=
  match groupMax s g with
  | none => onGroup g (fun x => { x with max := 0, slope := 0, window := [] }) s
  | some m => onGroup g (fun x =>
      let w := m :: x.window.take 1000
      { x with max := m, window := w, slope := match w[1000]? with
        | some old => m - old
        | none => 0 }) s

/-- The thresholds of a group. -/
def thermGroup (s : State) (g : Fin 2) : ThermGroup := if g = 0 then s.cfg.therm.die else s.cfg.therm.le

/-- A temperature, or a slope, is at least a threshold. -/
def atLeast (q : Rat) (t : Int) : Bool := decide ((t : Rat) / 8 ≤ q)
def steep (q : Rat) (t : Int) : Bool := decide ((t : Rat) / 100 ≤ q)

/-- A group with sensors. -/
def present (s : State) (g : Fin 2) : Bool := !(groupMembers s g).isEmpty

/-- THERMAL_WARN, once until both conditions have been absent for 2 s (R306). -/
def warnGroup (g : Fin 2) (s : State) : State :=
  let x := s.therm.groups[g]
  let c := thermGroup s g
  let hot := present s g && atLeast x.max c.warn
  let rising := present s g && steep x.slope c.slopeWarn && atLeast x.max c.arm
  if hot || rising then
    let s1 := onGroup g (fun x => { x with warned := true, clearMs := 0 }) s
    if x.warned then s1
    else raise srcThermal evThermalWarn (pack [(0, 1, g.val), (1, 1, (!hot).toNat), (16, 16, t8 x.max), (32, 16, k100 x.slope)]) s1
  else onGroup g (fun x => { x with clearMs := x.clearMs + 1, warned := x.warned && decide (x.clearMs + 1 < 2000) }) s

/-- The slope is at least the act slope in force; a blind group steps up to 5 whatever the slopes (R313). -/
def upHolds (s : State) (g : Fin 2) : Bool :=
  let x := s.therm.groups[g]
  let c := thermGroup s g
  present s g &&
  if x.blind && decide (s.therm.level < 5) then true
  else if !atLeast x.max c.arm then false
  else if atLeast x.max c.act then steep x.slope c.slopeHot
  else steep x.slope c.slopeAct

/-- In both groups the slope is not positive and the maximum below T_REL; an absent group hinders nothing. -/
def downHolds (s : State) : Bool :=
  bothGroups.all (fun g => !present s g || (decide (s.therm.groups[g].slope ≤ 0) && !atLeast s.therm.groups[g].max (thermGroup s g).rel)) &&
    !(bothGroups.any fun g => s.therm.groups[g].frozen)

/-- The timers of the throttle and of the freeze. -/
def countThrottle (s : State) : State :=
  let s1 := forEach bothGroups (fun g s =>
    let up := upHolds s g
    let cold := s.therm.groups[g].frozen && decide (s.therm.groups[g].max < ((thermGroup s g).rel : Rat) / 8 - 5)
    onGroup g (fun x => { x with upMs := if up then x.upMs + 1 else 0, coldMs := if cold then x.coldMs + 1 else 0 }) s) s
  let down := downHolds s1
  onTherm (fun t => { t with downMs := if down then t.downMs + 1 else 0 }) s1

/-! ## Trips (R315) -/

/-- The sensors of a trip. -/
def tripSensors (s : State) (g : Fin 2) : List (Fin 36) :=
  (allFin 36).filter fun i => (tripLimit s i).isSome && (if g = 0 then decide (i.val < 12) else decide (16 ≤ i.val))

/-- The group reads 15 K below its limit. -/
def tripCool (s : State) (g : Fin 2) : Bool :=
  (tripSensors s g).all fun i => match s.therm.sensors[i].raw, tripLimit s i with
    | some t, some l => decide (t ≤ l - 15)
    | _, _ => false

/-- Two consecutive conversions at or above the limit trip a group; a tripped group counts its cool time. -/
def tripGroup (g : Fin 2) (s : State) : State :=
  if s.therm.groups[g].tripped then
    let cool := tripCool s g
    onGroup g (fun x => { x with coolMs := if cool then x.coolMs + 1 else 0 }) s
  else match (tripSensors s g).find? (fun i => decide (2 ≤ s.therm.sensors[i].overs)) with
    | some i =>
      tripFault 11 0 0 true srcThermal evThermalTrip
        (pack [(0, 1, g.val), (1, 6, i.val), (16, 16, t8 (s.therm.sensors[i].raw.getD s.therm.sensors[i].last))])
        (onGroup g (fun x => { x with tripped := true, coolMs := 0 }) s)
    | none => s

/-! ## The sample and the expiries -/

/-- One sample of every sensor; in reset nothing converts. -/
def sampleAll (r : List (Fin 36 × Reading)) (s : State) : State :=
  if s.boot.stage == .reset then s
  else
  let every := allFin 36
  let s1 := takeReadings r s
  let s2 := forEach every countTests (forEach every takeHistory s1)
  let fails := every.filterMap fun i => (failCause s2 i).map fun c => (i, c)
  let s3 := forEach fails (fun p s => failSensor p.1 p.2 s) s2
  let s4 := forEach bothGroups updateGroup (forEach bothGroups (judgeBlind (fails.map (·.1))) (forEach every carry s3))
  forEach bothGroups tripGroup (countThrottle (forEach bothGroups warnGroup s4))

/-- A step's condition has held for its dwell: the step is due at the next END, and the timers restart. -/
def stepIsDue (up : Bool) (g : Fin 2) (s : State) : State :=
  let t := s.therm
  let blind := bothGroups.any fun k => t.groups[k].blind
  let ok := if up then decide (250 ≤ t.groups[g].upMs) && decide (t.level < 8)
    else decide (2000 ≤ t.downMs) && decide ((if blind then 5 else 0) < t.level)
  if ok && t.stepDue.isNone then
    onTherm (fun t => { t with stepDue := some (up, g == 1), downMs := 0, groups := t.groups.map fun x => { x with upMs := 0 } }) s
  else s

/-- The 60 s of a failed holder end: it is carried under R311, and the slope window restarts. -/
def holdEnds (i : Fin 36) (s : State) : State :=
  let x := s.therm.sensors[i]
  if x.hold && decide (60000 ≤ x.holdMs) then
    let s1 := carry i (onSensor i (fun y => { y with hold := false, holdMs := 0 }) s)
    match groupOfSensor s i with
    | some g => restartWindow g s1
    | none => s1
  else s

/-- Ten seconds below T_REL − 5 K lift the freeze of a group. -/
def freezeLifts (s : State) : State :=
  forEach bothGroups (fun g s =>
    if s.therm.groups[g].frozen && decide (10000 ≤ s.therm.groups[g].coldMs) then
      onTherm (fun t => { t with downMs := 0 }) (onGroup g (fun x => { x with frozen := false, coldMs := 0 }) s)
    else s) s

/-- A failed sensor returns after 30 s in which it met every test; its filter starts from its reading. -/
def sensorReturns (i : Fin 36) (s : State) : State :=
  let x := s.therm.sensors[i]
  if x.failed && decide (30000 ≤ x.okMs) then
    let s1 := onSensor i (fun y => { y with failed := false, sub := none, hold := false, holdMs := 0, okMs := 0, tf := y.last }) s
    let s2 := match groupOfSensor s i with
      | some g => onGroup g (fun y => { y with blind := false }) (restartWindow g s1)
      | none => s1
    raise (srcSensor i) evThermalSensorOk (pack [(0, 6, i.val)]) s2
  else s

/-- A trip's latch is released after 10 s at 15 K below the limit. -/
def tripReleases (g : Fin 2) (s : State) : State :=
  if s.therm.groups[g].tripped && decide (10000 ≤ s.therm.groups[g].coolMs) then
    onGroup g (fun x => { x with tripped := false, coolMs := 0 }) s
  else s

/-! ## The rows -/

/-- The group that a row's flag names: false die, true light engine. -/
def groupFlag (b : Bool) : Fin 2 := if b then 1 else 0

/-- THERMAL_SAMPLE (R304). -/
def execThermalSample (r : List (Fin 36 × Reading)) (s : State) : Host.Outcome State Fault Refusal := .next (settle (sampleAll r s))

/-- THROTTLE_STEP_DUE (R307). -/
def execThrottleStepDue (up group : Bool) (s : State) : Host.Outcome State Fault Refusal :=
  .next (settle (stepIsDue up (groupFlag group) s))

/-- SUBSTITUTE_HOLD_END (R312). -/
def execSubstituteHoldEnd (i : Fin 36) (s : State) : Host.Outcome State Fault Refusal := .next (settle (holdEnds i s))

/-- THROTTLE_FREEZE_LIFT (R312). -/
def execThrottleFreezeLift (s : State) : Host.Outcome State Fault Refusal := .next (settle (freezeLifts s))

/-- THERMAL_SENSOR_OK (R314). -/
def execThermalSensorOk (i : Fin 36) (s : State) : Host.Outcome State Fault Refusal := .next (settle (sensorReturns i s))

/-- THERMAL_TRIP_CLEAR (R315). -/
def execThermalTripClear (group : Bool) (s : State) : Host.Outcome State Fault Refusal :=
  .next (settle (tripReleases (groupFlag group) s))

end Sys2Proof.Machine
end

