-- ==== Sys2Proof/Machine/Cutoff.lean ====
section
/-! DEFINITION. The commit cut-off (01, 03): the boundary of R17, the marks of R93, the builds that are cut under R26, and what
the head device of a chain sends (R451, R454). -/

namespace Sys2Proof.Machine

/-! ## The boundary (R17, R139, R309) -/

/-- The instant from which a tick's length counts: its boundary, in tick 0 the boot start (R413). -/
def tickBase (s : State) : Nat := if s.clk.prevNone then s.boot.bootAt else s.clk.start

/-- The effective Tmax in µs: TMAX, or the effective Tmin where that is larger (R309); tick 0 lasts 10.000 ms (R413). -/
def effTmax (s : State) : Nat := if s.clk.prevNone then 10000 else max s.cfg.tick.tmax s.clk.effTmin

/-- The cut-off under R17 and its reason. Tick 0 has no held commit (R413). -/
def cutInstant (s : State) : Nat × Reason :=
  let base := tickBase s
  let last := base + usT (effTmax s - s.cfg.tick.tcut)
  let first := base + usT (s.clk.effTmin - s.cfg.tick.tcut)
  match s.clk.validAt with
  | some v =>
    if s.clk.prevNone then (last, .tmax)
    else if v ≤ first then (first, .held)
    else if v < last then (v, .paced)
    else (last, .tmax)
  | none => (last, .tmax)

/-! ## The marks (R93, R94, R97, R101) -/

/-- The record was ready at an instant that has passed (R91). -/
def Record.readyBy (cut : Nat) (r : Record) : Bool :=
  r.applied || r.layered || r.fences.all fun f => f.acq.isNone || (f.signalled && decide (f.since ≤ cut))

/-- The time that a VOTE of this device takes to the head device, in 2 ns units: that of the chain between them, which no field
gives this device, within the 186.4 ns per hop of R452 (log entry 85). -/
def voteTransit (s : State) : Nat :=
  if isFollower s && s.cfg.scan.chainVote then min (Config.voteTransit s.cw.addr) (932 * s.cw.addr / 10) else 0

/-- The instant at which a record counts as valid at a cut-off: on a voting follower that at which its vote reaches the head device
(R146). -/
def Record.counts (transit : Nat) (r : Record) : Nat := r.since + transit

/-- A record at a cut-off: valid ones are marked, fences signalled by then are held, one that is not ready at the cut-off of its
ABANDON_TICKS-th tick after its own is abandoned at the next LATCH. ABANDON_TICKS is the value live at that cut-off, and ticks are
counted by their TICK numbers, so that a forward alignment counts as the ticks that it skips (log entry 63). -/
def markRecord (cut transit tick abandon : Nat) (r : Record) : Record :=
  { r with
    marked := r.valid && decide (r.counts transit ≤ cut)
    late := r.late || (r.valid && decide (cut < r.counts transit))
    fences := r.fences.map fun f => { f with held := f.signalled && decide (f.since ≤ cut) }
    doomed := !r.readyBy cut && decide (r.execTick + abandon ≤ tick) }

/-- The records that a cut-off in the past finds late, or whose votes came after it: their tags and the time by which each came
after it. -/
def lateTags (cut : Nat) (s : State) : List (BitVec 32 × Nat) :=
  let d := voteTransit s
  (s.com.records.filter fun r => r.valid && !r.late && !r.applied && decide (cut < r.counts d)).map fun r => (r.tag, r.counts d - cut)

/-! ## The chain (R146, R451, R454) -/

/-- AT of a packet that leaves at an instant and names a boundary `ahead` 2 ns units later, in 250 ps: the packet lasts 26.4 ns
(R452; log entry 46). -/
def atField (ahead : Nat) : Nat := divRound (80 * ahead - 1056) 10

/-- The words of a BOUNDARY packet (R447). -/
def boundaryWords (tick at250 tmin len : Nat) : List (BitVec 64) :=
  [BitVec.ofNat 64 tick, BitVec.ofNat 64 (pack [(0, 32, at250), (32, 16, tmin), (48, 10, len)])]

/-- One copy of BOUNDARY leaves on CW_D. -/
def sendBoundary (copy tick at250 tmin len : Nat) (s : State) : State :=
  if s.cw.down.state == 2 && !s.cw.cutDown then
    cwEmit .down 0x10 0x1FF true (BitVec.ofNat 9 s.cw.addr) (BitVec.ofNat 21 copy) (boundaryWords tick at250 tmin len) s
  else s

/-- The groups of a timing mode that the next LATCH changes. -/
def modeSel (s : State) : Nat :=
  let n := nextLive s
  (decide (n.tick ≠ s.cfg.tick)).toNat + 2 * (decide (n.span ≠ s.cfg.span)).toNat

/-- What the head device sends at its cut-off: both copies of BOUNDARY, COPY 1 1.000 µs later, and MODE for a change. The votes
held so far have counted; those that arrive from now on count in the next tick. -/
def chainCut (b : Nat) (s : State) : State :=
  if isChainHead s then
    let ahead := b - s.clk.now
    let t := nextTick s
    let s1 := sendBoundary 1 t (atField (ahead - 500)) s.clk.effTmin s.cw.len
      (sendBoundary 0 t (atField ahead) s.clk.effTmin s.cw.len s)
    let sel := modeSel s
    let n := nextLive s
    let s2 := if sel = 0 then s1 else sendMode sel n.tick n.span t s1
    onCw (fun c => { c with voters := c.voters.map fun v => (v.1, false) }) s2
  else s

/-! ## The cut-off (R18, R26) -/

/-- The boundary is fixed: unfinished builds are stopped, BUILT and CUT are entered, the records are marked. A tick whose SHOW had no
trigger yet enters it here, since no phase is skipped (log entry 82). -/
def cutOff (cut b : Nat) (reason : Reason) (s : State) : State :=
  let s1 := enterPhases (onClk (fun c => { c with shown := c.shown || c.phase == .blank }) (reach cut s))
  let s2 := forEach allHeads cutBuild s1
  let tags := lateTags cut s2
  let s3 := onCom (fun c => { c with
    records := c.records.map (markRecord cut (voteTransit s2) s2.clk.tick s2.cfg.fence.abandon), lvAtCut := s2.pendLv.length }) s2
  let s4 := enterPhases (onClk (fun c => { c with cutAt := some cut, boundary := some b, reason := reason }) s3)
  forEach tags (fun t s => raise srcCommit evCommitLate (lateWord t.1 t.2) s) s4

/-- COMMIT_CUTOFF: the cut-off of the running tick, once per tick. A follower's boundary comes with BOUNDARY (R451); a tick 0
that waits for its boot start has no cut-off yet. -/
def commitCutoff (s : State) : State :=
  if s.clk.cutAt.isSome || s.clk.held || isFollower s then s
  else
    let c := cutInstant s
    let s1 := cutOff c.1 (c.1 + usT s.cfg.tick.tcut) c.2 s
    chainCut (c.1 + usT s.cfg.tick.tcut) s1

def execCommitCutoff (s : State) : Host.Outcome State Fault Refusal := .next (settle (commitCutoff s))

end Sys2Proof.Machine
end

