-- ==== Sys2Proof/Machine/Causeway.lean ====
section
/-! DEFINITION. The Causeway ports and packets (16): reception and relaying, training and delays, enumeration, boundaries,
modes, votes, caps, relayed events and commands. -/

namespace Sys2Proof.Machine

/-! ## Reception (R446, R447) -/

/-- The words of a packet less its CRC word. -/
def content (p : Packet) : List (BitVec 64) := p.words.dropLast

/-- Word i of a packet, counted from 1. -/
def wordOf (p : Packet) (i : Nat) : BitVec 64 := (p.words[i - 1]?).getD 0

/-- Data words that a packet type has, the CRC word included (R447). -/
def cwLength (ptype : BitVec 8) : Nat :=
  match ptype.toNat with
  | 0x10 => 3 | 0x11 => 4 | 0x21 => 3 | 0x30 => 2 | 0x31 => 129 | 0x33 => 7 | 0x34 => 2 | 0x40 => 9 | 0x41 => 129 | 0x42 => 9
  | 0x50 => 5 | 0x51 => 2 | _ => 0

/-- The framing, the length, the CHK and the CRC of a packet are right. -/
def cwGood (ptype : BitVec 8) (p : Packet) : Bool :=
  let m := cwMarker ptype p.len.toNat p.dst p.bcast p.src p.arg
  p.framed && p.len.toNat == cwLength ptype && p.words.length == p.len.toNat && p.chk.toNat == crc8Bits 56 m 0 &&
    (p.words.isEmpty || p.words.getLast? == some (cwCrc (cwBody m) (content p)))

/-- A packet is received on a port: none where the port is down; one that breaks R446, and every one on the CW_D of a device that
the chain was cut after, is discarded. -/
def receive (ptype : BitVec 8) (p : Packet) (f : State → State) (s : State) : State :=
  if (cwPort p.port s).state = 0 then s
  else if p.port == .down && s.cw.cutDown then s
  else if !cwGood ptype p then onPort p.port (fun c => { c with discards := c.discards + 1 }) s
  else f s

/-- The other port. -/
def otherPort : Port → Port
  | .up => .down
  | .down => .up

/-- A packet is relayed as it came. -/
def relay (ptype : BitVec 8) (p : Packet) (s : State) : State :=
  let o := otherPort p.port
  if (cwPort o s).state == 2 && !(o == .down && s.cw.cutDown) then
    cwEmit o ptype p.dst p.bcast p.src p.arg (content p) s
  else s

/-- The device holds an address: a follower from ENUM, address 511 included (R450), the head device from its own enumeration. -/
def hasAddress (s : State) : Bool := s.cw.follower || s.cw.addr != 0x1FF

/-- The device holds the packet's destination address, or is one of every enumerated device. -/
def forMe (p : Packet) (s : State) : Bool := hasAddress s && (p.bcast || p.dst.toNat == s.cw.addr)

/-- A packet with a destination, that travels from one side: relayed where it is not for this device alone. A packet that comes
from the wrong side has no effect (log entry 47). -/
def addressed (ptype : BitVec 8) (from_ : Port) (p : Packet) (f : State → State) (s : State) : State :=
  if p.port != from_ then s
  else
    receive ptype p (fun s =>
      let s1 := if p.bcast || !forMe p s then relay ptype p s else s
      if forMe p s then f s1 else s1) s

/-- A packet between neighbours. -/
def nextHop (ptype : BitVec 8) (from_ : Port) (p : Packet) (f : State → State) (s : State) : State :=
  if p.port != from_ then s else receive ptype p f s

/-! ## Ports (R448) -/

/-- The event source of a port (R479). -/
def srcPort (p : Port) : Nat :=
  match p with
  | .up => 454
  | .down => 455

/-- CW_LINK's payload. -/
def cwLinkWord (c : CwPort) (cause : Nat) : Nat := pack [(0, 2, c.state), (2, 3, cause), (16, 16, sat 16 c.delay)]

def tellPort (p : Port) (cause : Nat) (s : State) : State := raise (srcPort p) evCwLink (cwLinkWord (cwPort p s) cause) s

/-- An ECHO leaves, its TAG counting the exchanges. -/
def sendEcho (p : Port) (s : State) : State := cwEmit p 0x01 0 false 0 (BitVec.ofNat 21 ((cwPort p s).echoes % 256)) [] s

/-- 256 ECHO exchanges begin. -/
def measure (p : Port) (s : State) : State :=
  sendEcho p (onPort p (fun c => { c with echoes := 0, echoSum := 0, measuring := true }) s)

/-- A granted attempt starts at the end of LATCH: TRAIN with HEAD 0 at 10.0 Gbit/s, then ECHO. -/
def startPort (p : Port) (s : State) : State :=
  measure p (cwWords p [(true, trainBody 0 0 2 (0, 0))] (onPort p (fun c => { c with state := 1, wanted := false, granted := false }) s))

/-- An attempt fails: the next one comes 64 ticks later. -/
def portAttemptFails (p : Port) (cause : Nat) (s : State) : State :=
  tellPort p cause (onPort p (fun c => { c with
    state := 0, measuring := false, wanted := false, retryTick := some (s.clk.tick + 64) }) s)

/-- A follower asks the head device to enumerate. -/
def sendEnumReq (s : State) : State := cwSend .up 0x24 0 0 [] s

/-- A port begins to run: the head device enumerates, a follower asks for it (R449, R453). -/
def portRuns (p : Port) (delay : Nat) (s : State) : State :=
  let s1 := tellPort p 0 (onPort p (fun c => { c with state := 2, delay := delay, measuring := false, retryTick := none }) s)
  let s2 := match p with
    | .down => if s.boot.straps.chainRole then startEnum s1 else sendEnumReq s1
    | .up => if s.cw.alone && !s.boot.straps.chainRole then sendEnumReq s1 else s1
  if p == .down && s.ev.chainObs then resendEvents s2 else updateObs s2

/-- R466: the head device counts every participant at and beyond a failed hop as failed, and tells of the first. -/
def hopFailed (first : Nat) (s : State) : State :=
  let lost := (participants s).filter fun a => decide (first ≤ a)
  match lowestOf lost with
  | some a =>
    tryChain (raise srcUpdate evUpdateChainFail (chainFailWord a 1 0) (onUpd (fun u => { u with failed := u.failed ++ lost }) s))
  | none => s

/-- A chain session runs on this device. -/
def inChain (s : State) : Bool :=
  match s.upd.session with
  | some x => x.chain || x.scope
  | none => false

/-- Blocks no longer wait for the downstream device. -/
def dropDown (s : State) : State := freeTransit (onUpd (fun u => { u with transit := u.transit.map fun t => { t with acked := true } }) s)

/-- A port stops running. -/
def portStops (p : Port) (s : State) : State :=
  onPort p (fun c => { c with state := 0, measuring := false, wanted := true, newDelay := none }) s

/-- A device that stops following its head device counts its own valid commits from now on (R17, R453). -/
def ownCommits (s : State) : State :=
  if s.clk.cutAt.isNone && s.com.records.any (fun r => r.valid && !r.applied) then markValid s else s

/-- What a hop failure ends besides the port (R397, R453, R466). -/
def hopEnds (p : Port) (s : State) : State :=
  match p with
  | .up =>
    let s1 := onCw (fun c => { c with alone := c.alone || isFollower s, inCmd := c.inCmd.filter fun x => x.via != .chain })
      (onUpd (fun u => { u with transit := u.transit.filter (·.whole) }) s)
    if isFollower s then ownCommits s1 else s1
  | .down =>
    let s2 := dropDown s
    let s3 := if !inChain s then s2
      else if s.boot.straps.chainRole then hopFailed 1 s2
      else sendResp 0 stChainHop (s.cw.addr + 1) s2
    if s.cw.waitCmd.any (fun w => w.expect.any (· != 0)) then failSend s3 else s3

/-- A hop failure: CW_LINK, and what it ends (R448). -/
def portFails (p : Port) (cause : Nat) (s : State) : State := hopEnds p (tellPort p cause (portStops p s))

/-- A port's receiver has lost its words, lock (cause 1) or any word for 16 µs (cause 2): a running port fails, an attempt too. -/
def portLost (p : Port) (cause : Nat) (s : State) : State :=
  match (cwPort p s).state with
  | 0 => s
  | 1 => portAttemptFails p 5 s
  | _ => drainAll (portFails p cause s)

/-- ECHO is answered with its TAG; TURN is the time that this takes, which no rule gives (log entry 5). -/
def echoed (p : Packet) (s : State) : State :=
  receive 0x01 p (fun s =>
    let d := drawFree s
    cwEmit p.port 0x02 0 false 0 (BitVec.ofNat 21 (fld p.arg 0 8 + d.1.toNat % 8192 * 256)) [] d.2) s

/-- An answer arrives after a round trip in units of 62.5 ps. After 256 the one-way delay is their mean: an attempt fails above
60 ns; a running port uses the new value from the next boundary. -/
def echoAnswered (p : Packet) (roundTrip : Nat) (s : State) : State :=
  receive 0x02 p (fun s =>
    let c := cwPort p.port s
    if !c.measuring then s
    else
      let sum := c.echoSum + (roundTrip - 4 * fld p.arg 8 13)
      let s1 := onPort p.port (fun c => { c with echoes := c.echoes + 1, echoSum := sum }) s
      if c.echoes + 1 < 256 then sendEcho p.port s1
      else
        let delay := divRound sum 512
        let s2 := onPort p.port (fun c => { c with measuring := false }) s1
        if c.state = 2 then onPort p.port (fun c => { c with newDelay := some delay }) s2
        else if 960 < delay then portAttemptFails p.port 4 (onPort p.port (fun c => { c with delay := delay }) s2)
        else drainAll (portRuns p.port delay s2)) s

/-- A running port's delay is measured again every 1 s. -/
def remeasure (p : Port) (s : State) : State :=
  if (cwPort p s).state = 2 && !(p == .down && s.cw.cutDown) then measure p s else s

/-- 64 ticks after a failed attempt another is asked for. -/
def portRetry (p : Port) (s : State) : State :=
  match (cwPort p s).retryTick with
  | some t => if t ≤ s.clk.tick then onPort p (fun c => { c with retryTick := none, wanted := true }) s else s
  | none => s

/-! ## Enumeration (R449, R450) -/

/-- What a device reports of itself. -/
def reportWords (s : State) : List (BitVec 64) :=
  [BitVec.ofNat 64 (pack [(0, 48, s.clk.tick), (48, 8, s.otp.variant.toNat), (56, 8, 0xB1)]),
   BitVec.ofNat 64 (pack [(0, 16, s.boot.fwVersion.toNat), (16, 16, (s.flash.schemaOf[copyOf s.flash.record]).toNat),
     (32, 32, Config.serial.toNat % 2 ^ 32)])]

def sendEnumEnd (count : Nat) (many aSeen : Bool) (s : State) : State :=
  cwSend .up 0x22 0 (pack [(0, 10, count), (10, 1, many.toNat), (11, 1, aSeen.toNat)]) [] s

/-- A follower takes the address offered, reports, and passes the enumeration on. Device 511 has no address to offer (log
entry 48). -/
def takeAddress (a : Nat) (aSeen : Bool) (s : State) : State :=
  let seen := aSeen || isA s
  if seen && decide (15 < a) then
    sendEnumEnd a true seen (ownCommits (onCw (fun c => { c with addr := 0x1FF, len := 0, follower := false }) s))
  else
    let s1 := onCw (fun c => { c with addr := a, follower := true, alone := false, consec := 0, voteDue := true, cutDown := false }) s
    let s2 := cwSend .up 0x21 0 a (reportWords s1) s1
    if s2.cw.down.state = 2 then
      (if a = 511 then sendEnumEnd 512 true seen s2
       else cwSend .down 0x20 (a + 1) (pack [(0, 9, a + 1), (9, 1, seen.toNat)]) [] s2)
    else sendEnumEnd (a + 1) false seen s2

def enumOffered (p : Packet) (s : State) : State :=
  if s.boot.straps.chainRole then s
  else nextHop 0x20 .up p (fun s => updateObs (takeAddress (fld p.arg 0 9) (bit p.arg 9) s)) s

/-- A report reaches the head device. -/
def reported (p : Packet) (s : State) : State :=
  addressed 0x21 .down p (onCw (fun c => { c with
    reports := c.reports.filter (fun r => r.1 != fld p.arg 0 9) ++
      [(fld p.arg 0 9, BitVec.ofNat 48 (fld (wordOf p 1) 0 48), BitVec.ofNat 8 (fld (wordOf p 1) 48 8))] })) s

/-- ENUM_END: the chain settles. -/
def enumEnded (p : Packet) (s : State) : State :=
  addressed 0x22 .down p (fun s =>
    if s.cw.enumAt.isSome then drainAll (settleChain (fld p.arg 0 10) (bit p.arg 10) (bit p.arg 11) true s) else s) s

/-- 50 ms without ENUM_END: the devices that reported are kept, and the hop after the last of them counts as failed (R397, R466). -/
def enumTimeout (s : State) : State :=
  if s.cw.enumAt.isNone then s
  else
    let n := s.cw.reports.length + 1
    let s1 := settleChain n false false false s
    let s2 := if inChain s1 then hopFailed n s1 else s1
    drainAll (if s2.cw.waitCmd.any (fun w => w.expect.any fun a => decide (n ≤ a)) then failSend s2 else s2)

/-- ENUM_CUT: devices at or beyond the address drop theirs, the one before it closes its CW_D. CHAIN_LEN 512 takes ten bits (log
entry 48). -/
def enumCutOff (p : Packet) (s : State) : State :=
  if p.port != .up then s
  else
    receive 0x23 p (fun s =>
      let a := fld p.arg 0 10
      let s1 := relay 0x23 p s
      if !hasAddress s then s1
      else if a ≤ s.cw.addr then updateObs (ownCommits (onCw (fun c => { c with addr := 0x1FF, len := 0, follower := false }) s1))
      else if s.cw.addr + 1 = a then updateObs (onCw (fun c => { c with cutDown := true }) s1) else s1) s

/-- ENUM_REQ reaches the head device, which enumerates. -/
def enumAsked (p : Packet) (s : State) : State := addressed 0x24 .down p (fun s => drainAll (startEnum s)) s

/-! ## Boundaries (R451, R453) -/

/-- The reason of a tick whose boundary came from the head device: by its length, as R17 gives it (log entry 49). -/
def reasonOf (b : Nat) (s : State) : Reason :=
  if b ≤ s.clk.start + usT s.clk.effTmin then .held else if s.clk.start + usT (effTmax s) ≤ b then .tmax else .paced

/-- A follower's boundary: the end of the copy at its pins, less the CW_U delay, plus AT, in 62.5 ps relative to now. A negative
AT is discarded. -/
def boundaryAhead (p : Packet) (s : State) : Int := 4 * signed 32 (fld (wordOf p 2) 0 32) - s.cw.up.delay

/-- The first valid copy places the boundary and is this device's cut-off; every copy goes on with AT recomputed. -/
def boundaryHeard (p : Packet) (s : State) : State :=
  nextHop 0x10 .up p (fun s =>
    if !s.cw.follower || s.cw.alone then s
    else
      let u := boundaryAhead p s
      if signed 32 (fld (wordOf p 2) 0 32) < 0 || u < 0 then onPort .up (fun c => { c with discards := c.discards + 1 }) s
      else
        let t := fld (wordOf p 1) 0 48
        let tmin := fld (wordOf p 2) 32 16
        let len := fld (wordOf p 2) 48 10
        let ahead := u.toNat
        let s1 := sendBoundary (fld p.arg 0 21) t (twos 32 (ratRound ((((ahead : Rat) * 625 / 10000) - 264 / 10) * 4))) tmin len s
        if s.clk.boundary.isSome || s.clk.held then s1
        else
          let b := s.clk.now + divRound ahead 32
          let s2 := onCw (fun c => { c with len := len, chainTmin := tmin, consec := 0 }) s1
          let s3 := onClk (fun c => { c with alignTo := if c.tick + 1 < t then some t else none }) s2
          let s4 := cutOff (b - usT s.cfg.tick.tcut) b (reasonOf b s) s3
          let s5 := if s4.cw.voteDue then sendVote s4.cfg.scan.chainVote (onCw (fun c => { c with voteDue := false }) s4) else s4
          updateObs s5) s

/-- CHAIN_BOUNDARY_MISS's payload (R479). -/
def missWord (n : Nat) (alone : Bool) : Nat := pack [(0, 8, sat 8 n), (8, 1, alone.toNat)]

/-- No valid copy by Tmax: the boundary is placed there, and the cut-off with it (log entry 83); after two in a row the device runs on
its own. -/
def boundaryMissed (s : State) : State :=
  if isFollower s && s.clk.boundary.isNone && !s.clk.held then
    let n := s.cw.consec + 1
    let b := s.clk.start + usT (effTmax s)
    let s1 := onCw (fun c => { c with misses := sat 32 (c.misses + 1), consec := n, alone := decide (2 ≤ n) }) s
    cutOff b b .tmax (raise srcRelay evChainBoundaryMiss (missWord n (decide (2 ≤ n))) (reach b s1))
  else s

/-! ## Modes, votes and caps (R454, R455) -/

/-- The TIMING_SET payload that a MODE stands for. -/
def modePayload (p : Packet) : BitVec 384 :=
  BitVec.ofNat 384 (pack [(0, 2, fld p.arg 0 2), (16, 48, fld (wordOf p 1) 0 48), (64, 64, (wordOf p 2).toNat)])

/-- What refuses the groups of a MODE. -/
def modeRef (d : BitVec 384) (s : State) : Ref :=
  let s' := addLv (timingWrites d) s
  firstRef [timingRanges d (prospect s'), showFitRef s', if bit d 1 then scheduleRef s' else none, rateRef142 s', bandRef142 s']

/-- A follower keeps a MODE that nothing refuses. -/
def takeMode (d : BitVec 384) (apply : Nat) (s : State) : State :=
  if !isFollower s || (modeRef d s).isSome then s else onCw (fun c => { c with mode := some { payload := d, apply := apply } }) s

/-- MODE: its groups wait for APPLY_TICK, where a TIMING_SET of them would be accepted (log entry 50). -/
def modeHeard (p : Packet) (s : State) : State :=
  addressed 0x11 .up p (takeMode (modePayload p) (fld (wordOf p 3) 0 48)) s

/-- VOTE at the head device: a device's first vote after an enumeration with VOTER 1 makes it a voting device, a later one says
that it holds a valid commit; VOTER 0 ends it (log entry 51). -/
def voteHeard (p : Packet) (s : State) : State :=
  addressed 0x12 .down p (fun s =>
    let a := p.src.toNat
    let known := s.cw.voters.any fun v => v.1 == a
    let s1 := onCw (fun c => { c with
      voters := if bit p.arg 20 then setVoter a known c.voters else c.voters.filter fun v => v.1 != a }) s
    if isChainHead s1 && votesIn s1 && s1.clk.cutAt.isNone then markValid s1 else s1) s

/-- CAP at the head device. -/
def capHeard (p : Packet) (s : State) : State :=
  addressed 0x13 .down p (onCw (fun c => { c with
    caps := (p.src.toNat, fld p.arg 0 15) :: c.caps.filter (fun r => r.1 != p.src.toNat) })) s

/-! ## Relayed events (R456, R457) -/

/-- EVT_ACK to the upstream device. -/
def ackEvent (origin : Nat) (seq : BitVec 32) (s : State) : State :=
  cwSend .up 0x51 (s.cw.addr - 1) 0 [BitVec.ofNat 64 (pack [(0, 32, seq.toNat), (32, 9, origin)])] s

/-- A record of another origin: held, forwarded, written to the ring and acknowledged where the buffer has room; one held before
is only acknowledged again (log entry 52). -/
def eventHeard (p : Packet) (s : State) : State :=
  addressed 0x50 .up p (fun s =>
    let w := BitVec.ofNat 256 (pack [(0, 64, (wordOf p 1).toNat), (64, 64, (wordOf p 2).toNat), (128, 64, (wordOf p 3).toNat),
      (192, 64, (wordOf p 4).toNat)])
    let seq := BitVec.ofNat 32 (fld w 32 32)
    let origin := p.src.toNat
    let again := bit w 12 && s.cw.lastSeqOf.any (fun x => x.1 == origin && decide ((x.2 - seq).toNat < 4096))
    if again then ackEvent origin seq s
    else if 1024 ≤ s.cw.relay.length then s
    else
      let r : Relayed := { origin := origin, word := w, down := false, host := false }
      let s1 := onCw (fun c => { c with
        relay := c.relay ++ [r], lastSeqOf := (origin, seq) :: c.lastSeqOf.filter (fun x => x.1 != origin) }) s
      dropRelayed (pumpRelay 1 (forwardRecord false r (ackEvent origin seq s1)))) s

/-- EVT_ACK acknowledges a SEQ and every earlier record of its origin. -/
def eventAcked (p : Packet) (s : State) : State :=
  addressed 0x51 .down p (fun s =>
    let seq := BitVec.ofNat 32 (fld (wordOf p 1) 0 32)
    let origin := fld (wordOf p 1) 32 9
    if origin == s.cw.addr then
      if (seq - s.ev.chainAck).toNat < (s.ev.chainSent - s.ev.chainAck).toNat then
        pumpChain 4096 (trimStore (onEv (fun v => { v with chainAck := seq + 1 }) s))
      else s
    else
      let mark (r : Relayed) : Relayed :=
        if r.origin == origin && decide ((seq - BitVec.ofNat 32 (fld r.word 32 32)).toNat < 4096) then { r with down := true } else r
      dropRelayed (onCw (fun c => { c with relay := c.relay.map mark }) s)) s

/-- 200 µs without an acknowledgement: everything from the first unacknowledged record is sent again. -/
def eventTimeout (s : State) : State :=
  let n := (s.ev.chainSent - s.ev.chainAck).toNat + (s.cw.relay.filter (!·.down)).length
  if s.ev.chainObs && s.cw.down.state == 2 && decide (n ≠ 0) then
    resendEvents (onPort .down (fun c => { c with evResends := c.evResends + n }) s)
  else s

/-! ## Relayed commands (R459) -/

/-- CMD: the descriptor waits for its data packets, then for its core. -/
def cmdHeard (p : Packet) (s : State) : State :=
  addressed 0x40 .up p (fun s => drainAll (onCw (fun c => { c with inCmd := c.inCmd ++
    [{ tq := Fin.ofNat 4 (fld p.arg 0 2), via := .chain, left := fld p.arg 2 6, off := 64 * fld p.arg 8 13, desc := content p }] }) s)) s

/-- The data packet of the oldest command that waits for data. -/
def takeData (index : Nat) (bytes : List Byte) : List InCmd → State → List InCmd × State
  | [], s => ([], s)
  | c :: r, s =>
    if c.left = 0 || c.via != .chain then let x := takeData index bytes r s; (c :: x.1, x.2)
    else
      let a := c.off + 1024 * index
      let b := if a < stageLo then [] else bytes.take (stageHi - a)
      ({ c with left := c.left - 1 } :: r, onBar2 (fun m => memPut m a b) s)

/-- CMD_DATA: 1024 bytes enter the staging area at TGT_OFFSET; bytes past its end are dropped (log entry 53). -/
def dataHeard (p : Packet) (s : State) : State :=
  addressed 0x41 .up p (fun s =>
    let x := takeData (fld p.arg 0 6) ((content p).map (fun w => toBytes 8 w.toNat)).flatten s.cw.inCmd s
    drainAll (onCw (fun c => { c with inCmd := x.1 }) x.2)) s

/-- CMD_RESP: a target's completion record. -/
def respHeard (p : Packet) (s : State) : State :=
  addressed 0x42 .down p (fun s =>
    let a := p.src.toNat
    let rec_ := BitVec.ofNat 512 (leNat ((content p).map (fun w => toBytes 8 w.toNat)).flatten)
    let answer (w : SendWait) : SendWait :=
      if w.expect.contains a then { w with expect := w.expect.filter (fun x => x != a), answers := w.answers ++ [(a, rec_)] } else w
    drainAll (trySend (onCw (fun c => { c with waitCmd := c.waitCmd.map answer }) s))) s

/-- 90 ms without CMD_RESP. -/
def respTimeout (s : State) : State := if s.cw.waitCmd.isSome then drainAll (failSend s) else s

/-! ## The commands -/

def execEcho (p : Packet) (s : State) : Host.Outcome State Fault Refusal := .next (settle (echoed p s))
def execEchoReply (p : Packet) (roundTrip : Nat) (s : State) : Host.Outcome State Fault Refusal :=
  .next (settle (echoAnswered p roundTrip s))
def execBoundary (p : Packet) (s : State) : Host.Outcome State Fault Refusal := .next (settle (boundaryHeard p s))
def execMode (p : Packet) (s : State) : Host.Outcome State Fault Refusal := .next (settle (modeHeard p s))
def execVote (p : Packet) (s : State) : Host.Outcome State Fault Refusal := .next (settle (voteHeard p s))
def execCap (p : Packet) (s : State) : Host.Outcome State Fault Refusal := .next (settle (capHeard p s))
def execEnum (p : Packet) (s : State) : Host.Outcome State Fault Refusal := .next (settle (enumOffered p s))
def execEnumReport (p : Packet) (s : State) : Host.Outcome State Fault Refusal := .next (settle (reported p s))
def execEnumEnd (p : Packet) (s : State) : Host.Outcome State Fault Refusal := .next (settle (enumEnded p s))
def execEnumCut (p : Packet) (s : State) : Host.Outcome State Fault Refusal := .next (settle (enumCutOff p s))
def execEnumReq (p : Packet) (s : State) : Host.Outcome State Fault Refusal := .next (settle (enumAsked p s))
def execEnumTimeout (s : State) : Host.Outcome State Fault Refusal := .next (settle (enumTimeout s))
def execChainBoundaryMiss (s : State) : Host.Outcome State Fault Refusal := .next (settle (boundaryMissed s))
def execCmd (p : Packet) (s : State) : Host.Outcome State Fault Refusal := .next (settle (cmdHeard p s))
def execCmdData (p : Packet) (s : State) : Host.Outcome State Fault Refusal := .next (settle (dataHeard p s))
def execCmdResp (p : Packet) (s : State) : Host.Outcome State Fault Refusal := .next (settle (respHeard p s))
def execCmdRespTimeout (s : State) : Host.Outcome State Fault Refusal := .next (settle (respTimeout s))
def execEvt (p : Packet) (s : State) : Host.Outcome State Fault Refusal := .next (settle (eventHeard p s))
def execEvtAck (p : Packet) (s : State) : Host.Outcome State Fault Refusal := .next (settle (eventAcked p s))
def execEvtAckTimeout (s : State) : Host.Outcome State Fault Refusal := .next (settle (eventTimeout s))
def execCwPortSilent (p : Port) (s : State) : Host.Outcome State Fault Refusal := .next (settle (portLost p 2 s))
def execCwDelayRemeasure (p : Port) (s : State) : Host.Outcome State Fault Refusal := .next (settle (remeasure p s))
def execCwTrainingRetry (p : Port) (s : State) : Host.Outcome State Fault Refusal := .next (settle (portRetry p s))
def execCwLockLost (p : Port) (s : State) : Host.Outcome State Fault Refusal := .next (settle (portLost p 1 s))

end Sys2Proof.Machine
end

