-- ==== Sys2Proof/Machine/UpdateRows.lean ====
section
/-! DEFINITION. The update packets of a chain (R464 to R469): blocks in transit, UPD_CTRL at a participant, UPD_RESP at the head
device. -/

namespace Sys2Proof.Machine

/-! ## Blocks (R466) -/

/-- A packet of the chain session arrives. -/
def touchChain (s : State) : State := if s.upd.session.any (·.chain) then touch s else s

/-- This device stores the chain's blocks: it holds a chain session that is OPEN. -/
def stores (s : State) : Bool := s.upd.session.any fun x => x.chain && x.state == 1

/-- A block is held with every byte and the CRC named. -/
def blockHeld (b : Nat) (crc : BitVec 32) (s : State) : Bool :=
  s.upd.session.any (fun x => x.stored.getLsbD b) && storedCrc s b == some crc.toNat

/-- The transit block that a hop is receiving. -/
def receiving (b : Nat) (s : State) : Option Transit := s.upd.transit.find? fun t => t.block == b && t.began.isSome

/-- The transit block of an index replaced. -/
def onTransit (b : Nat) (f : Transit → Transit) (s : State) : State :=
  onUpd (fun u => { u with transit := u.transit.map fun t => if t.block == b && !t.whole then f t else t }) s

/-- BLOCK_ACK to the upstream device. -/
def ackHop (b : Nat) (resend : Bool) (s : State) : State :=
  cwSend .up 0x32 (s.cw.addr - 1) (b + 32 * resend.toNat) [] s

/-- A reception fails: RESEND, up to 8 times; the ninth failure ends this device's part in the session. -/
def blockFails (t : Transit) (s : State) : State :=
  let s1 := onTransit t.block (fun x => { x with began := none, parts := [], fails := x.fails + 1 }) s
  if t.fails < 8 then ackHop t.block true s1
  else
    let s2 := onUpd (fun u => { u with transit := u.transit.filter fun x => x.block != t.block || x.whole }) s1
    if s.upd.session.any (·.chain) then
      let s3 := setSession 0 (sendResp 0 stCrc 0 s2)
      tellUpdate 2 s3
    else s2

/-- BLOCK_START: a reception begins in a free transit buffer, or again in the block's own. -/
def blockStarts (p : Packet) (s : State) : State :=
  addressed 0x30 .up p (fun s0 =>
    let b := fld p.arg 0 5
    let s := touchChain s0
    let begin_ (t : Transit) : Transit :=
      { t with crc := BitVec.ofNat 32 (fld (wordOf p 1) 0 32), length := fld (wordOf p 1) 32 17, parts := [], began := some s.clk.now }
    if s.upd.transit.any (fun t => t.block == b && !t.whole) then onTransit b begin_ s
    else if s.upd.transit.length < 2 then
      onUpd (fun u => { u with transit := u.transit ++ [begin_ { block := b, length := 0, crc := 0, parts := [], whole := false
                                                                 stored := false, acked := false, resends := 0, fails := 0
                                                                 began := none }] }) s
    else s) s

/-- A whole block: its CRC is judged; it goes on downstream and BLOCK_ACK upstream at the same moment, and a participant
programs it. -/
def blockWhole (t : Transit) (s : State) : State :=
  let bytes := transitBytes t
  if crc32c bytes != t.crc.toNat then blockFails t s
  else
    let keep := stores s && !blockHeld t.block t.crc s && !(s.upd.session.any fun x => x.stored.getLsbD t.block)
    let s1 := onTransit t.block (fun x => { x with whole := true, began := none, stored := !keep, acked := !hasDown s }) s
    let s2 := ackHop t.block false (forwardBlock t.block bytes t.crc s1)
    freeTransit (if keep then addJob (plainJob (.block t.block bytes)) s2 else s2)

/-- SEGMENT: 1 KiB of the block; with the last of the 64 the block is whole. The last segment of a block that found no buffer is
answered with RESEND. -/
def segmentHeard (p : Packet) (s : State) : State :=
  addressed 0x31 .up p (fun s0 =>
    let s := touchChain s0
    let b := fld p.arg 0 5
    let g := fld p.arg 5 6
    match receiving b s with
    | none => if g = 63 && !s.upd.transit.any (fun t => t.block == b) then ackHop b true s else s
    | some t =>
      let part := ((content p).map fun w => toBytes 8 w.toNat).flatten
      let t1 := { t with parts := (g, part) :: t.parts.filter fun x => x.1 != g }
      let s1 := onTransit b (fun _ => t1) s
      if t1.parts.length = 64 then blockWhole t1 s1 else s1) s

/-- 200 µs after its BLOCK_START a block is incomplete. -/
def blockLate (s : State) : State :=
  match s.upd.transit.find? (fun t => t.began.isSome) with
  | some t => blockFails t s
  | none => s

/-- The bytes and CRC of a block to send again: from its buffer, or from the flash. -/
def blockAgain (b : Nat) (s : State) : Option (List Byte × BitVec 32) :=
  match s.upd.transit.find? (fun t => t.block == b && t.whole) with
  | some t => some (transitBytes t, t.crc)
  | none => (s.flash.image.find? (fun x => x.1 == b)).map fun x => (x.2, BitVec.ofNat 32 (crc32c x.2))

/-- BLOCK_ACK: the downstream device holds the block, or asks for it again, up to 8 times. -/
def blockAcked (p : Packet) (s : State) : State :=
  addressed 0x32 .down p (fun s =>
    let b := fld p.arg 0 5
    let sent := (s.upd.transit.find? fun t => t.block == b).elim 0 (·.resends)
    if bit p.arg 5 && decide (sent < 8) then
      match blockAgain b s with
      | some x =>
        sendBlock b x.1 x.2 (onPort .down (fun c => { c with resends := c.resends + 1 })
          (onUpd (fun u => { u with transit := u.transit.map fun t => if t.block == b then { t with resends := t.resends + 1 } else t }) s))
      | none => s
    else drainAll (freeTransit (onUpd (fun u => { u with
      transit := u.transit.map fun t => if t.block == b then { t with acked := true } else t }) s))) s

/-! ## A participant (R464, R467, R469) -/

/-- The payload of the command that an UPD_CTRL carries. -/
def ctrlPayload (p : Packet) : BitVec 384 :=
  BitVec.ofNat 384 (pack ((List.range 6).map fun i => (64 * i, 64, (wordOf p (i + 1)).toNat)))

/-- UPD_CTRL at a participant; the row's operation must be the packet's. -/
def control (op : Nat) (p : Packet) (f : State → State) (s : State) : State :=
  if fld p.arg 0 4 ≠ op then s else addressed 0x33 .up p f s

/-- The head device opens a chain session here. -/
def ctrlOpen (p : Packet) (s : State) : State :=
  control 0 p (fun s =>
    let r := openOf (ctrlPayload p)
    if !lengthOk r.pkg r.length then sendResp 0 stRange 0 s
    else
      let how := openHow true r s
      match how with
      | .refused st => sendResp 0 st 0 s
      | _ =>
        let s1 := openEffect true r how { plainJob .erase with up := some (0, stOk, openBits how) } s
        if opensFresh how then s1 else sendResp 0 stOk (openBits how) s1) s

/-- Blocks of the session are still on their way into the flash. -/
def storing (s : State) : Bool := !s.upd.transit.isEmpty || !s.flash.jobs.isEmpty

/-- This participant verifies now. -/
def verifyHere (x : Session) (s : State) : State :=
  match verifyPart x { plainJob .erase with up := some (1, stOk, 0) } s with
  | .inl j => addJob j s
  | .inr r => sendResp 1 r.1 r.2 s

/-- A verification that waited runs once the slot is STAGED, and is refused where it will not be. -/
def resumeVerify (s : State) : State :=
  if !s.upd.verifyDue then s
  else
    match s.upd.session with
    | some x =>
      if x.state = 1 && storing s then s
      else verifyHere x (onUpd (fun u => { u with verifyDue := false }) s)
    | none => sendResp 1 stSessionState 0 (onUpd (fun u => { u with verifyDue := false }) s)

/-- The head device asks for verification. -/
def ctrlVerify (p : Packet) (s : State) : State :=
  control 1 p (fun s =>
    match s.upd.session with
    | none => sendResp 1 stSessionState 0 s
    | some x =>
      if !x.chain then sendResp 1 (if x.joined then stOk else stSessionState) 0 s
      else resumeVerify (onUpd (fun u => { u with verifyDue := true }) (touch s))) s

/-- The head device arms an activation. -/
def ctrlActivate (p : Packet) (s : State) : State :=
  control 2 p (fun s =>
    let d := ctrlPayload p
    let t := fld d 64 48
    match s.upd.session with
    | none => sendResp 2 stSessionState 0 s
    | some x =>
      if !x.chain then sendResp 2 (if x.joined then stOk else stSessionState) 0 s
      else if t = 0 || !atTickOk s t then sendResp 2 stRange 0 s
      else
        match activateRef x (bit d 0) s with
        | some st => sendResp 2 st 0 (touch s)
        | none => sendResp 2 stOk 0 (touch (onUpd (fun u => { u with armed := some (t, bit d 0) }) s))) s

/-- The head device ends its session; a joined one loses the join. -/
def ctrlAbort (p : Packet) (s : State) : State :=
  control 3 p (fun s =>
    match s.upd.session with
    | none => s
    | some x =>
      if x.chain then endSession 0 (plainJob .erase) (onUpd (fun u => { u with verifyDue := false }) s)
      else onUpd (fun u => { u with session := some { x with joined := false } }) s) s

/-- The head device cancels an armed activation. -/
def ctrlDisarm (p : Packet) (s : State) : State :=
  control 4 p (fun s =>
    if s.upd.session.any (·.chain) then onUpd (fun u => { u with armed := none }) s else s) s

/-! ## UPD_RESP at the head device -/

/-- An answer, or word of a participant that has left the session: its blocks failed (cause 2), a hop beyond it failed (1), or its
host took the staging slot (0). -/
def respAnswered (p : Packet) (s : State) : State :=
  addressed 0x34 .down p (fun s =>
    let a := p.src.toNat
    let op := fld p.arg 0 4
    let st := BitVec.ofNat 16 (fld (wordOf p 1) 0 16)
    let r := fld (wordOf p 1) 16 48
    let left (cause : Nat) : State :=
      if (participants s).contains a then
        tryChain (raise srcUpdate evUpdateChainFail (chainFailWord a cause st) (onUpd (fun u => { u with failed := u.failed ++ [a] }) s))
      else s
    let asked := s.upd.wait.any fun w => w.op == op && w.expect.contains a && !w.answers.any (fun x => x.1 == a)
    if op = 0 && st == stChainHop then drainAll (hopFailed (r % 512) s)
    else if op = 0 && st == stCrc then drainAll (left 2)
    else if asked then
      drainAll (tryChain (onUpd (fun u => { u with wait := u.wait.map fun w => { w with answers := w.answers ++ [(a, st, r)] } }) s))
    else if op = 0 && st == stSessionBusy then drainAll (left 0)
    else s) s

/-! ## The commands -/

def execBlockStart (p : Packet) (s : State) : Host.Outcome State Fault Refusal := .next (settle (blockStarts p s))
def execSegment (p : Packet) (s : State) : Host.Outcome State Fault Refusal := .next (settle (segmentHeard p s))
def execBlockAck (p : Packet) (s : State) : Host.Outcome State Fault Refusal := .next (settle (blockAcked p s))
def execBlockIncompleteTimeout (s : State) : Host.Outcome State Fault Refusal := .next (settle (blockLate s))
def execUpdCtrlOpen (p : Packet) (s : State) : Host.Outcome State Fault Refusal := .next (settle (ctrlOpen p s))
def execUpdCtrlVerify (p : Packet) (s : State) : Host.Outcome State Fault Refusal := .next (settle (ctrlVerify p s))
def execUpdCtrlActivate (p : Packet) (s : State) : Host.Outcome State Fault Refusal := .next (settle (ctrlActivate p s))
def execUpdCtrlAbort (p : Packet) (s : State) : Host.Outcome State Fault Refusal := .next (settle (ctrlAbort p s))
def execUpdCtrlDisarm (p : Packet) (s : State) : Host.Outcome State Fault Refusal := .next (settle (ctrlDisarm p s))
def execUpdResp (p : Packet) (s : State) : Host.Outcome State Fault Refusal := .next (settle (respAnswered p s))

end Sys2Proof.Machine
end

