-- ==== Sys2Proof/Machine/Boot.lean ====
section
/-! DEFINITION. Resets, the boot path, the ready point (14), the settings applied at boot (R473, R474), trial and revert (R470),
the core voltage rows, the flash and OTP rows, and JTAG (R417, R429). -/

namespace Sys2Proof.Machine

/-! ## Resets (R407, R410) -/

/-- A generation replaced in the OTP. -/
def onGen (g : Fin 4) (f : Generation → Generation) (s : State) : State :=
  onOtp (fun o => { o with gens := upd o.gens g f }) s

/-- A latched thermal trip survives a reset (R407): its cause stands and the device is dark. -/
def keepTrips (old new : State) : State :=
  let t (i : Fin 2) : Bool := old.therm.groups[i].tripped
  if t 0 || t 1 then
    onSafety (fun y => { y with mode := .dark, causes := 0x0800, standing := 0x0800 })
      (onTherm (fun x => { x with groups := Vector.ofFn fun i => { x.groups[i] with tripped := t i } }) new)
  else new

/-- A reset while a series of the first words runs (R441): the generation is consumed and unsealed where a bit had been cleared, which
no rule fixes (log entry 5). A reset at any other time leaves the OTP as it is. -/
def cutCommit (s : State) : State :=
  match s.cal.commit with
  | some (g, utc, station, left) =>
    if s.cal.granted && left == commitSeries && s.clk.phase != .latch && s.clk.phase != .finish then
      let d := drawFree s
      if d.1.getLsbD 0 then
        onGen g (fun _ => { s.cal.live with consumed := true, isSealed := false, damaged := false, utc := utc, station := station }) d.2
      else d.2
    else s
  | none => s

/-- A reset begins: every part returns to its reset state but the OTP, the flash and a latched thermal trip; the stores in host
memory are not the device's. Outputs are at high impedance until the release. -/
def beginReset (kind : ResetKind) (s0 : State) : State :=
  let s := cutCommit s0
  let new : State := { State.reset with
    clk := { Clock.reset with now := s.clk.now, start := s.clk.now }
    boot := { BootDyn.reset with stage := .reset, kind := kind, straps := s.boot.straps, sampled := kind == .warm && s.boot.sampled }
    otp := s.otp
    flash := { s.flash with jobs := [], slice := false }
    planes := s.planes, canvas := s.canvas, out := s.out, free := s.free, pending := s.pending }
  emit .hiZ (keepTrips s new)

/-- POWER_ON_RESET: a rail has fallen below its threshold. -/
def powerReset (s : State) : State := beginReset .power s
/-- PIN_RESET: RESET_N is low. -/
def pinReset (s : State) : State := beginReset .pin s
/-- WARM_RESET: the reset that firmware has asked for. -/
def warmReset (s : State) : State := if s.upd.resetDue then beginReset .warm s else s

/-! ## The boot record at boot (R414, R470) -/

/-- A record appended at once, as the boot ROM does. -/
def appendNow (r : BootRecord) (s : State) : State := writeRecord r s

/-- A revert: the other slot CONFIRMED and active, the trial slot VERIFIED. -/
def revertRecord (cause : Nat) (r : BootRecord) : BootRecord :=
  let old := activeOf r
  let new := stagingOf r
  { r with active := !r.active, state := (r.state.set new 4).set old 2, revert := cause, trials := 0 }

/-- R470 at boot: a trial counts its boots, the fourth reverts where a FALLBACK slot is present. -/
def countTrial (s : State) : State :=
  let r := s.flash.record
  if r.state[activeOf r] ≠ 3 then s
  else if r.trials < 3 then appendNow { r with trials := r.trials + 1 } s
  else if r.state[stagingOf r] = 5 then appendNow (revertRecord 1 r) s
  else s

/-! ## Boot faults (R414, R415, R341) -/

/-- The stage after a boot fault: recovery where the CXL port runs. -/
def faultStage (s : State) : BootStage := if s.boot.straps.cxlEn then .recovery else .dead

/-- The mechanism of a boot fault: 13 for a rejected asset, 12 otherwise. -/
def bootMechanism (k : BootFaultKind) : Nat :=
  match k with
  | .asset => 13
  | .otpVendor | .otpIntegrator | .noPll | .selfTest | .imageLoad | .signature | .noGeneration | .straps => 12

/-- A boot fault: latched, device dark, then recovery. -/
def bootFails (k : BootFaultKind) (s : State) : State :=
  drainAll (onBoot (fun b => { b with stage := faultStage s }) (safetyFault (bootMechanism k) none 0 0 true false 0 s))

/-- A load or a signature check failed: the other slot is loaded once, where the record marks it usable. -/
def slotFails (k : BootFaultKind) (s : State) : State :=
  let r := s.flash.record
  if !s.boot.fellBack && decide (3 ≤ r.state[stagingOf r] ∧ r.state[stagingOf r] ≤ 5) then
    onBoot (fun b => { b with fellBack := true }) (appendNow (revertRecord 3 r) s)
  else bootFails k s

/-- BOOT_FAULT: a step of the boot fails. -/
def bootFault (k : BootFaultKind) (s : State) : State :=
  if s.boot.stage != .booting then s
  else
    match k with
    | .imageLoad => slotFails .imageLoad s
    | .signature => slotFails .signature s
    | .otpVendor | .otpIntegrator | .noPll | .selfTest | .asset | .noGeneration | .straps => bootFails k s

/-- PLL_LOCK_TIMEOUT (R402). -/
def pllTimeout (s : State) : State := if s.boot.stage == .booting then bootFails .noPll s else s

/-! ## Boot start (R413, R414) -/

/-- The boot starts: the OTP fixed region is read, and what it and the straps decide happens at once. -/
def startBoot (s : State) : State :=
  let s1 := onCxl (fun c => { c with cfgReady := s.boot.straps.cxlEn })
    (onClk (fun c => { c with held := false }) (onBoot (fun b => { b with stage := .booting, bootAt := s.clk.now }) s))
  if !s.otp.vendorOk then bootFails .otpVendor s1
  else
    if s.boot.straps.bootSrc = 2 then
      (if s.boot.straps.cxlEn then onBoot (fun b => { b with stage := .recovery }) s1 else bootFails .straps s1)
    else
      match s.otp.integrator with
      | none => onBoot (fun b => { b with stage := if s.boot.straps.cxlEn then .recovery else .factory }) s1
      | some i => if integratorOk i then countTrial s1 else bootFails .otpIntegrator s1

/-- BOOT_START: WAKE_IN has been high for 100 µs. -/
def bootStart (s : State) : State := if s.boot.stage == .waiting then startBoot s else s

/-- RESET_RELEASE: TICK is 0, the levels of R412 are driven, the straps are sampled but after a warm reset, and the boot starts at
once after a warm reset or with WAKE_IN high. -/
def release (straps : Straps) (wake : Bool) (s : State) : State :=
  if s.boot.stage != .reset then s
  else
    let warm := s.boot.kind == .warm && s.boot.sampled
    let s1 := emit .driven (onClk (fun c => { c with start := c.now })
      (onBoot (fun b => { b with stage := .waiting, sampled := true, straps := if warm then b.straps else straps }) s))
    if warm || wake then startBoot s1 else s1

/-! ## The safety asset (R321, R322) -/

/-- R322: a default that shows a window places it inside its head's output under the boot settings (log entry 54). -/
def placesOk (a : Asset) (c : Cfg) : Bool :=
  allHeads.all fun h => !a.heads[h].shown ||
    (decide (a.heads[h].wx + a.ww ≤ c.heads[h].outW) && decide (a.heads[h].wy + a.wh ≤ c.heads[h].outH))

/-- The bits of the tell-tales in a state at boot. -/
def bootBits (a : Asset) (p : Nat → Bool) : BitVec 64 :=
  BitVec.ofNat 64 (pack ((a.telltales.zipIdx).map fun x => (x.2, 1, (p x.1.bootState).toNat)))

/-- The asset's defaults take effect. -/
def loadAsset (a : Asset) (s : State) : State :=
  stageLayouts (onSafety (fun y => { y with asset := some a })
    (onCfg (fun c => { c with
      wins := Vector.ofFn fun i => { shown := a.heads[i].shown, level := a.heads[i].level, proofOs := a.heads[i].proofOs
                                     wx := a.heads[i].wx, wy := a.heads[i].wy }
      ttOn := bootBits a (fun st => st == 1 || st == 2), ttBlink := bootBits a (fun st => st == 2) }) s))

/-! ## Settings at boot (R472 to R474) -/

/-- The object that an entry names beside its opcode: record and its head, input or line; head; channel; line; event group. -/
def entryKey (e : SettingsEntry) : Nat :=
  match opOf e.opcode with
  | .settingsWrite =>
    let n := fld e.payload 0 8
    n * 8 + (match n with
      | 0x03 | 0x04 | 0x05 | 0x06 | 0x07 | 0x09 => fld e.payload 64 2
      | 0x08 => fld e.payload 64 3
      | _ => 0)
  | .lightChannelSet => fld e.payload 0 6
  | .headSet | .warpLoad | .planeSeqLoad | .colourTargetSet | .dimSet | .lampSet | .lampFade => fld e.payload 0 2
  | .eventMask => fld e.payload 0 3
  | _ => 0

/-- The opcodes that an entry may hold (R472). -/
def entryAllowed (op : Op) : Bool :=
  match op with
  | .settingsWrite | .lightChannelSet | .thermalSet | .powerQuota | .timingSet | .dimSet | .headSet | .warpLoad | .planeSeqLoad
  | .colourTargetSet | .lampSet | .lampFade | .eventMask => true
  | _ => false

/-- The default entry for the object of an entry. -/
def defaultFor (defaults : List SettingsEntry) (e : SettingsEntry) : Option SettingsEntry :=
  defaults.find? fun d => d.opcode == e.opcode && entryKey d == entryKey e

/-- An entry as if it arrived on Q1, its data at 0x1_0000. -/
def applyEntry (e : SettingsEntry) (s : State) : BitVec 16 × State :=
  let op := opOf e.opcode
  let d : Desc := { queue := 1, alive := 0, rsv24 := 0, crc16 := 0, rsv48 := 0, tag := 0, rsv96 := 0, payload := e.payload }
  if !entryAllowed op then (stOpcode, s)
  else
    match runChecked op d (onBar2 (fun m => memPut m stageLo e.data) s) with
    | .done st _ s' => (st, if st == stOk then s' else s)
    | .wait s' => (stOk, s')

/-- SETTINGS_FALLBACK's payload (R479). -/
def fallbackWord (e : SettingsEntry) (index : Nat) (status action : Nat) (second : BitVec 16) : Nat :=
  pack [(0, 16, e.opcode.toNat), (16, 16, e.schema.toNat), (32, 16, index), (48, 16, status), (64, 2, action), (80, 16, second.toNat)]

/-- The entries of a copy in order; the list holds the payloads of SETTINGS_FALLBACK. -/
def applyEntries (defaults : List SettingsEntry) : Nat → List SettingsEntry → State → State × List Nat
  | _, [], s => (s, [])
  | i, e :: r, s =>
    let a := applyEntry e s
    if a.1 == stOk then applyEntries defaults (i + 1) r a.2
    else
      let b : State × Nat :=
        match defaultFor defaults e with
        | none => (s, fallbackWord e i a.1.toNat 1 0)
        | some d =>
          let x := applyEntry d s
          if x.1 == stOk then (x.2, fallbackWord e i a.1.toNat 0 0) else (s, fallbackWord e i a.1.toNat 2 x.1)
      let rest := applyEntries defaults (i + 1) r b.1
      (rest.1, b.2 :: rest.2)

/-- One old entry through the migration code: the new entry and, where it is replaced, SETTINGS_FALLBACK's payload. -/
def migrateOne (b : BootLoad) (i : Nat) (e : SettingsEntry) (m : Option SettingsEntry) : Option SettingsEntry × Option Nat :=
  if e.schema.toNat < b.schemaMin.toNat then (defaultFor b.defaults e, some (fallbackWord e i 0xFFFF 0 0))
  else
    match m with
    | some x => (some { x with schema := b.schema }, none)
    | none => (defaultFor b.defaults e, some (fallbackWord e i 0xFFFF 0 0))

/-- R474: the new copy, its entries that are defaults, and the payloads of SETTINGS_FALLBACK. -/
def migrated (b : BootLoad) (old : List SettingsEntry) : List (Option SettingsEntry × Option Nat) :=
  (old.zipIdx).map fun x => migrateOne b x.2 x.1 ((b.migration[x.2]?).getD none)

/-- SETTINGS_MIGRATED's payload. -/
def migratedWord (old new : BitVec 16) (n replaced : Nat) : Nat :=
  pack [(0, 16, old.toNat), (16, 16, new.toNat), (32, 16, sat 16 n), (48, 16, sat 16 replaced)]

/-- The settings step of a boot: at the first start of a new image the copy is built first. The list holds the events. -/
def bootSettings (b : BootLoad) (s : State) : State × List (BitVec 16 × Nat) :=
  let r := s.flash.record
  let cur := copyOf r
  let first := r.state[activeOf r] == 3 && !r.migDone
  let oldCopy : Fin 2 := if cur = 0 then 1 else 0
  let rows := if r.resetReq then b.defaults.map (fun e => (some e, none)) else migrated b s.flash.copies[oldCopy]
  let fresh := rows.filterMap (·.1)
  let s1 := if first then
      appendNow { r with migDone := true }
        (writeCopy cur fresh s)
    else s
  let bad := rows.filterMap (·.2)
  let replaced := if r.resetReq then rows.length else bad.length
  let tell : List (BitVec 16 × Nat) := if first then
      (evSettingsMigrated, migratedWord s.flash.schemaOf[oldCopy] b.schema (rows.length - replaced) replaced) ::
        bad.map fun w => (evSettingsFallback, w)
    else []
  let x := applyEntries b.defaults 0 s1.flash.copies[cur] s1
  (x.1, tell ++ x.2.map fun w => (evSettingsFallback, w))

/-! ## The ready point (R414, R431) -/

/-- The sealed generation with the highest index. -/
def sealedGen (o : Otp) : Option (Fin 4) :=
  [3, 2, 1, 0].find? fun i : Fin 4 => o.gens[i].isSealed && !o.gens[i].damaged

/-- CAL_GEN_INVALID's payload (R443), where one is consumed and unsealed, or damaged. -/
def genInvalidWord (o : Otp) : Nat :=
  pack ((allFin 4).map fun i => (i.val, 1, (o.gens[i].consumed && !o.gens[i].isSealed && !o.gens[i].damaged).toNat)) +
    pack ((allFin 4).map fun i => (4 + i.val, 1, o.gens[i].damaged.toNat))

/-- READY_POINT: the boot has ended. A rejected asset or a device without a sealed generation is a boot fault. Its events
precede every other (R479); fetching begins, the Causeway ports ask for training, and the head device enumerates. -/
def readyPoint (b : BootLoad) (s : State) : State :=
  if s.boot.stage != .booting then s
  else if !assetOk b.asset then bootFails .asset s
  else
    match sealedGen s.otp with
    | none => bootFails .noGeneration s
    | some g =>
      let a := assetOf b.asset
      let s1 := onBoot (fun x => { x with
        fwVersion := b.fwVersion, schema := b.schema, defaults := b.defaults, imageDigest := b.digest }) (loadAsset a s)
      let x := bootSettings b s1
      if !placesOk a (prospect x.1) then bootFails .asset x.1
      else
        let r := x.1.flash.record
        let reverted : List (Nat × BitVec 16 × Nat) :=
          if r.revert = 0 then [] else [(srcUpdate, evUpdateReverted, pack [(0, 1, (stagingOf r).val), (1, 2, r.revert)])]
        let s2 := onBoot (fun y => { y with stage := .running, readyAt := s.clk.now, readyTick := some s.clk.tick }) x.1
        let s3 := forEach (reverted ++ x.2.map fun w => (srcSettings, w.1, w.2)) (fun e s => raise e.1 e.2.1 e.2.2 s) s2
        let s4 := onCal (fun c => { c with inForce := some g, live := s.otp.gens[g] }) s3
        let w := genInvalidWord s.otp
        let s5 := if w = 0 then s4 else raise srcCal evCalGenInvalid w s4
        let s6 := onUpd (fun u => { u with
          trialLeft := if r.state[activeOf r] = 3 then some (s.clk.now + 300000000000) else none }) s5
        let s7 := onPort .up (fun c => { c with wanted := true }) (onPort .down (fun c => { c with wanted := true }) s6)
        let s8 := if s7.boot.straps.chainRole then startEnum s7 else s7
        drainAll (pumpHost 4096 (forEach (allFin 4) (fun q s => pumpCq q 16 s) s8))

/-- FIRST_LIGHT_TIMEOUT (R419): 400 ms after boot start a head that shows its window and is not ready is lost. -/
def firstLightTimeout (s : State) : State :=
  if s.boot.stage != .running || s.safety.firstLight then s
  else forEach allHeads (fun h s =>
    if s.cfg.wins[h].shown && !s.heads[h].readyWin && !s.safety.headDark.getLsbD h.val then
      safetyFault 9 (some h) h.val 0 false false 0 s
    else s) s

/-- TRIAL_TIMEOUT (R470): 600 s after the ready point of a trial boot without UPDATE_CONFIRM the firmware reverts, and resets at
the next boundary. -/
def trialTimeout (s : State) : State :=
  let r := nextRecord s
  if s.upd.trialLeft.isSome && r.state[activeOf r] = 3 && r.state[stagingOf r] = 5 then
    addJob { plainJob (.record (revertRecord 2 r)) with tell := some 0, reset := true } (onUpd (fun u => { u with trialLeft := none }) s)
  else s

/-! ## Core voltage (R403 to R406) -/

/-- The voltage of a preset in mV. -/
def presetMv (p : PowerDyn) (v : Fin 4) : Nat :=
  match v with
  | 0 => 750
  | 1 => p.p1
  | 2 => p.p2
  | _ => 850

/-- VID selects a preset. -/
def selectVid (v : Fin 4) (s : State) : State :=
  if s.power.vid = v then s else emit (.vid v) (onPower (fun p => { p with vid := v }) s)

/-- PMIC_WRITE_DONE: the preset holds its target and is selected at the next boundary, or the second failure of one write ends adaptive control. -/
def presetWritten (ok : Bool) (s : State) : State :=
  match s.power.writing with
  | none => s
  | some w =>
    if ok then
      onPower (fun p => { p with
        p1 := if w.1 = 1 then w.2 else p.p1, p2 := if w.1 = 2 then w.2 else p.p2, writing := none, tries := 0
        nextVid := if p.tripAt.isSome then p.nextVid else w.1 }) s
    else if s.power.tries = 0 then smbusWrite w.1 w.2 (onPower (fun p => { p with tries := 1 }) s)
    else
      let s1 := onPower (fun p => { p with writing := none, tries := 0, ended := true, nextVid := if p.vid = 3 then 3 else 0 }) s
      if s.power.vid = 3 then s1 else selectVid 0 s1

/-- TIMING_MARGIN_TRIP: hardware selects P3. -/
def marginTrip (s : State) : State :=
  if s.power.vid = 3 then s
  else selectVid 3 (onPower (fun p => { p with tripAt := some (presetMv p p.vid), nextVid := 3 }) s)

/-! ## Flash and OTP (R295, R440) -/

/-- FLASH_SLICE_DONE: a slice ends; where the first job is complete and read back, it ends. A slice that failed is made again. -/
def sliceDone (finished ok : Bool) (s : State) : State :=
  let recovery := s.boot.stage == .recovery
  if !s.flash.slice && !recovery then s
  else
    let s1 := onFlash (fun f => { f with slice := false }) s
    match s1.flash.jobs with
    | j :: r =>
      if finished && ok then
        let s2 := resumeVerify (endJob j (onFlash (fun f => { f with jobs := r }) s1))
        if recovery then drainAll (warmReset s2) else drainAll s2
      else s1
    | [] => s1

/-- OTP_SERIES_DONE: the first series leaves the generation written and unsealed, the second seals it; a word that fails ends the
commit. -/
def seriesDone (ok : Bool) (s : State) : State :=
  match s.cal.commit with
  | none => s
  | some (g, utc, station, left) =>
    if !s.cal.granted then s
    else
      let wrote := onGen g (fun _ => { s.cal.live with
        consumed := true, isSealed := false, damaged := false, utc := utc, station := station }) s
      if !ok then
        let s1 := onCal (fun c => { c with commit := none, granted := false }) wrote
        drainAll (finish 1 stOk (commitOutcome 1 g.val s1) (raise srcCal evCalSealed (sealedWord 1 g.val utc s1) s1))
      else if 1 < left then onCal (fun c => { c with commit := some (g, utc, station, left - 1), granted := false }) wrote
      else
        let s1 := onGen g (fun x => { x with isSealed := true }) wrote
        let s2 := onCal (fun c => { c with commit := none, granted := false, uncommitted := false, inForce := some g }) s1
        let s3 := onLoops (·.map fun v => v.map fun l => { l with rhoRef := none }) s2
        drainAll (finish 1 stOk (commitOutcome 0 g.val s3) (raise srcCal evCalSealed (sealedWord 0 g.val utc s3) s3))

/-! ## JTAG (R417, R429) -/

/-- The lock of R417, 3 acting as 2; a blank integrator block serves IDCODE, BYPASS and OTP programming, whatever LOCKS reads. -/
def jtagServes (i : JtagInstr) (s : State) : Bool :=
  match s.otp.integrator with
  | none => match i with
    | .idcode | .bypass | .otp => true
    | .sample | .extest => false
  | some b =>
    let lock := b.locks.toNat % 4
    match i with
    | .idcode | .bypass => true
    | .sample | .extest => decide (lock ≤ 1)
    | .otp => false

/-- The bits of a word, lowest first. -/
def bitsOf (n v : Nat) : List Bool := (List.range n).map fun i => v / 2 ^ i % 2 == 1

/-- The BYPASS register: one bit of delay, 0 first (log entry 55). -/
def runBypass (tdi : List Bool) (s : State) : State :=
  emit (.jtag (false :: tdi)) (onJtag (fun j => { j with instr := .bypass }) s)

/-- IDCODE: 0x6440 in bits 27:12, the stepping digit in 31:28, bit 0 set; bits 11:1 are no rule's (log entries 5, 55). -/
def runIdcode (s : State) : State :=
  let d := drawFree s
  emit (.jtag (bitsOf 32 (pack [(0, 1, 1), (1, 11, d.1.toNat), (12, 16, 0x6440), (28, 4, stepping % 16)])))
    (onJtag (fun j => { j with instr := .idcode }) d.2)

/-- SAMPLE/PRELOAD: the levels on the balls are shifted out and become the preloaded cells. An instruction that is not served
selects BYPASS (log entry 55). -/
def runSample (pins : List Bool) (s : State) : State :=
  if jtagServes .sample s then emit (.jtag pins) (onJtag (fun _ => { instr := .sample, cells := pins }) s) else runBypass [] s

/-- EXTEST: the cells drive the balls, but LCGH, LCGL, LCSG and SAFE_N, which hold the levels of R412 (safeNDriven, gateLow). -/
def runExtest (cells : List Bool) (s : State) : State :=
  if jtagServes .extest s then onJtag (fun _ => { instr := .extest, cells := cells }) s else runBypass [] s

/-- The SAFE_N driver is on. -/
def safeNDriven (s : State) : Bool := !s.safety.safeN && s.jtag.instr != .extest
/-- LCSG of a channel is low, so that its light is not diverted. -/
def gateLow (n : Chan) (s : State) : Bool := s.chans[n].gateOpen && s.jtag.instr != .extest

/-- The OTP programming instruction: the station programs the integrator block while it is blank (R429). A block of ones leaves it
blank. -/
def runOtpInstr (b : Integrator) (s : State) : State :=
  if jtagServes .otp s then
    onOtp (fun o => { o with integrator := if (integratorBytes b).all (· == 0xFF) then none else some b }) (onJtag (fun j => { j with instr := .otp }) s)
  else runBypass [] s

/-! ## The commands -/

def execPowerOnReset (s : State) : Host.Outcome State Fault Refusal := .next (settle (powerReset s))
def execPinReset (s : State) : Host.Outcome State Fault Refusal := .next (settle (pinReset s))
def execWarmReset (s : State) : Host.Outcome State Fault Refusal := .next (settle (warmReset s))
def execResetRelease (straps : Straps) (wakeIn : Bool) (s : State) : Host.Outcome State Fault Refusal :=
  .next (settle (release straps wakeIn s))
def execBootStart (s : State) : Host.Outcome State Fault Refusal := .next (settle (bootStart s))
def execPllLockTimeout (s : State) : Host.Outcome State Fault Refusal := .next (settle (pllTimeout s))
def execReadyPoint (b : BootLoad) (s : State) : Host.Outcome State Fault Refusal := .next (settle (readyPoint b s))
def execFirstLightTimeout (s : State) : Host.Outcome State Fault Refusal := .next (settle (firstLightTimeout s))
def execTrialTimeout (s : State) : Host.Outcome State Fault Refusal := .next (settle (trialTimeout s))
def execBootFault (k : BootFaultKind) (s : State) : Host.Outcome State Fault Refusal := .next (settle (bootFault k s))
def execTimingMarginTrip (s : State) : Host.Outcome State Fault Refusal := .next (settle (marginTrip s))
def execPmicWriteDone (ok : Bool) (s : State) : Host.Outcome State Fault Refusal := .next (settle (presetWritten ok s))
def execFlashSliceDone (finished ok : Bool) (s : State) : Host.Outcome State Fault Refusal := .next (settle (sliceDone finished ok s))
def execOtpSeriesDone (ok : Bool) (s : State) : Host.Outcome State Fault Refusal := .next (settle (seriesDone ok s))
def execIdcode (s : State) : Host.Outcome State Fault Refusal := .next (settle (runIdcode s))
def execBypass (tdi : Bool) (s : State) : Host.Outcome State Fault Refusal := .next (settle (runBypass [tdi] s))
def execSamplePreload (pins : List Bool) (s : State) : Host.Outcome State Fault Refusal := .next (settle (runSample pins s))
def execExtest (cells : List Bool) (s : State) : Host.Outcome State Fault Refusal := .next (settle (runExtest cells s))
def execOtpProgrammingInstruction (b : Integrator) (s : State) : Host.Outcome State Fault Refusal := .next (settle (runOtpInstr b s))

end Sys2Proof.Machine
end

