-- ==== Sys2Proof/Machine/HostRows.lean ====
section
/-! DEFINITION. The rows of the host interface (12, 13): register accesses, snoops, fences, record writes, the link, resets of
the port, configuration, DOE and IDE. -/

namespace Sys2Proof.Machine

/-- SQ_TAIL (R375). -/
def execSqTail (q : Fin 4) (v : BitVec 8) (s : State) : Host.Outcome State Fault Refusal := .next (settle (doorbell q v s))

/-- CQ_HEAD (R375). -/
def execCqHead (q : Fin 4) (v : BitVec 8) (s : State) : Host.Outcome State Fault Refusal := .next (settle (writeCqHead q v s))

/-- QUEUE_ENABLE (R395). -/
def execQueueEnable (q : Fin 4) (en : Bool) (s : State) : Host.Outcome State Fault Refusal := .next (settle (queueEnable q en s))

/-- EVENT_RING_ENABLE (R112, R395). -/
def execEventRingEnable (w : BitVec 32) (s : State) : Host.Outcome State Fault Refusal := .next (settle (writeRingCtl w s))

/-- EVQ_HEAD (R391). -/
def execEvqHead (v : BitVec 16) (s : State) : Host.Outcome State Fault Refusal := .next (settle (writeEvqHead v s))

/-- HOST_ACTIVE (R369). -/
def execHostActive (v : Bool) (s : State) : Host.Outcome State Fault Refusal := .next (settle (writeHostActive v s))

/-- TICK_MIRROR_LOW_READ (R361). -/
def execTickMirrorLowRead (s : State) : Host.Outcome State Fault Refusal := .next (settle (readBar0 0x10 4 s))

/-- MSIX_UNMASK (R364). -/
def execMsixUnmask (vec : Fin 64) (s : State) : Host.Outcome State Fault Refusal := .next (settle (unmask vec s))

/-- REGISTER_WRITE (R34, R362). -/
def execRegisterWrite (bar2 : Bool) (off : Nat) (data : List Byte) (s : State) : Host.Outcome State Fault Refusal :=
  .next (settle (if bar2 then writeBar2 off data s else writeBar0 off data s))

/-- BAD_ACCESS_READ (R34, R362): the row stands for every read of a BAR. -/
def execBadAccessRead (bar2 : Bool) (off size : Nat) (s : State) : Host.Outcome State Fault Refusal :=
  .next (settle (if bar2 then readBar2 off size s else readBar0 off size s))

/-- SNP_INV (R355). -/
def execSnpInv (a : Addr) (s : State) : Host.Outcome State Fault Refusal := .next (settle (snoopInv a s))

/-- SNP_DATA (R355). -/
def execSnpData (a : Addr) (s : State) : Host.Outcome State Fault Refusal := .next (settle (snoopRead a s))

/-- SNP_CUR (R355). -/
def execSnpCur (a : Addr) (s : State) : Host.Outcome State Fault Refusal := .next (settle (snoopRead a s))

/-- FENCE_READ_COMPLETE (R96, R98). -/
def execFenceReadComplete (a : Addr) (r : ReadResult) (s : State) : Host.Outcome State Fault Refusal :=
  .next (settle (fenceArrives a r s))

/-- RELEASE_FENCE_WRITE_COMPLETE (R99). -/
def execReleaseFenceWriteComplete (a : Addr) (r : FenceWrite) (s : State) : Host.Outcome State Fault Refusal :=
  .next (settle (releaseWritten a r s))

/-- RECORD_GLOBALLY_OBSERVED (R356). -/
def execRecordGloballyObserved (s : State) : Host.Outcome State Fault Refusal := .next (settle (observed s))

/-- RECORD_WRITE_RETRY (R367). -/
def execRecordWriteRetry (e : BusError) (s : State) : Host.Outcome State Fault Refusal := .next (settle (retryWrite e s))

/-- EVENT_VECTOR_SIGNAL (R364). -/
def execEventVectorSignal (vec : Fin 64) (s : State) : Host.Outcome State Fault Refusal := .next (settle (coalesced vec s))

/-- CXL_LINK (R370). -/
def execCxlLink (l : LinkState) (s : State) : Host.Outcome State Fault Refusal := .next (settle (linkChange l s))

/-- HOT_RESET (R368). -/
def execHotReset (s : State) : Host.Outcome State Fault Refusal := .next (settle (detach 1 s))

/-- FLR (R368). -/
def execFlr (s : State) : Host.Outcome State Fault Refusal := .next (settle (detach 2 s))

/-- CXL_RESET (R368): the cache is written back and invalidated first. -/
def execCxlReset (s : State) : Host.Outcome State Fault Refusal := .next (settle (detach 3 (writeBack s)))

/-- BUS_MASTER_ENABLE_CLEARED (R368): Bus Master Enable or Cache_Enable is cleared. -/
def execBusMasterEnableCleared (cacheEnable : Bool) (s : State) : Host.Outcome State Fault Refusal :=
  .next (settle (detach 4 (onCxl (fun c => if cacheEnable then { c with cacheEn := false } else { c with bme := false }) s)))

/-- D3HOT_ENTRY (R368). -/
def execD3hotEntry (s : State) : Host.Outcome State Fault Refusal :=
  .next (settle (detach 5 (onCxl (fun c => { c with d0 := false }) s)))

/-- VIRAL (R367, R368, R371). -/
def execViral (s : State) : Host.Outcome State Fault Refusal := .next (settle (detach 6 (cxlError 5 15 0 s)))

/-- IDE_INTEGRITY_FAILURE (R365, R368): in containment mode nothing of what failed its check has been used; both streams lose their
keys (log entry 66). -/
def execIdeIntegrityFailure (s : State) : Host.Outcome State Fault Refusal :=
  .next (settle (detach 7 (onCxl (fun c => { c with ideIo := none, ideCache := none }) (cxlError 4 15 0 s))))

/-- PERST_N (R408): the CXL port alone is reset, as on a lost link. -/
def execPerstN (s : State) : Host.Outcome State Fault Refusal := .next (settle (if s.boot.straps.cxlEn then linkDown s else s))

/-- CONFIGURATION_REQUEST (R359, R369, R416). -/
def execConfigurationRequest (r : CfgReq) (s : State) : Host.Outcome State Fault Refusal := .next (settle (configure r s))

/-- DOE_DISCOVERY (R366). -/
def execDoeDiscovery (index : Nat) (s : State) : Host.Outcome State Fault Refusal := .next (settle (doeDiscover index s))

/-- GET_VERSION (R366): versions 1.2 and 1.3; it begins the connection. -/
def execGetVersion (s : State) : Host.Outcome State Fault Refusal := .next (settle (spdmServe 0 true 1 0x04 spdmVersions s))

/-- GET_CAPABILITIES (R366). -/
def execGetCapabilities (body : List Byte) (s : State) : Host.Outcome State Fault Refusal :=
  .next (settle (spdmServe 1 true 2 0x61 (Config.spdmBytes 0x61 body) s))

/-- NEGOTIATE_ALGORITHMS (R366): one algorithm of each kind is supported, and must be offered. -/
def execNegotiateAlgorithms (offer : AlgOffer) (body : List Byte) (s : State) : Host.Outcome State Fault Refusal :=
  .next (settle (spdmServe 2 (offer.p384 && offer.sha384 && offer.secp384r1 && offer.aes256gcm) 3 0x63 (Config.spdmBytes 0x63 body) s))

/-- GET_DIGESTS (R366). -/
def execGetDigests (s : State) : Host.Outcome State Fault Refusal :=
  .next (settle (spdmServe 3 true (max 3 s.cxl.spdm) 0x01 (Config.spdmBytes 0x01 []) s))

/-- GET_CERTIFICATE (R366): slot 0 holds the one chain. -/
def execGetCertificate (slot offset length : Nat) (s : State) : Host.Outcome State Fault Refusal :=
  .next (settle (spdmServe 3 (slot == 0) (max 3 s.cxl.spdm) 0x02
    (((Config.spdmBytes 0x02 []).drop offset).take length) s))

/-- CHALLENGE (R366). -/
def execChallenge (slot : Nat) (body : List Byte) (s : State) : Host.Outcome State Fault Refusal :=
  .next (settle (spdmServe 3 (slot == 0) (max 3 s.cxl.spdm) 0x03 (Config.spdmBytes 0x03 body) s))

/-- GET_MEASUREMENTS (R366): blocks 1 to 5, all of them, or their number. -/
def execGetMeasurements (index : Nat) (body : List Byte) (s : State) : Host.Outcome State Fault Refusal :=
  .next (settle (spdmServe 3 (decide (index ≤ 5) || index == 255) (max 3 s.cxl.spdm) 0x60
    (measurements index s ++ Config.spdmBytes 0x60 body) s))

/-- KEY_EXCHANGE (R366). -/
def execKeyExchange (slot : Nat) (body : List Byte) (s : State) : Host.Outcome State Fault Refusal :=
  .next (settle (spdmServe 3 (slot == 0) 4 0x64 (Config.spdmBytes 0x64 body) s))

/-- FINISH (R366): it opens the session. -/
def execFinish (macOk : Bool) (s : State) : Host.Outcome State Fault Refusal :=
  .next (settle (spdmServe 4 (macOk && s.cxl.spdm == 4) 5 0x65 [] s))

/-- HEARTBEAT (R366). -/
def execHeartbeat (s : State) : Host.Outcome State Fault Refusal := .next (settle (spdmServe 5 true 5 0x68 [] s))

/-- KEY_UPDATE (R366). -/
def execKeyUpdate (body : List Byte) (s : State) : Host.Outcome State Fault Refusal :=
  .next (settle (spdmServe 5 true 5 0x69 body
    (if s.cxl.spdm == 5 then onCxl (fun c => { c with keyEpoch := c.keyEpoch + 1 }) s else s)))

/-- END_SESSION (R366). -/
def execEndSession (s : State) : Host.Outcome State Fault Refusal := .next (settle (spdmServe 5 true 3 0x6C [] s))

/-- IDE_KM (R365): the key of the CXL.io stream. -/
def execIdeKm (secured : Bool) (key : BitVec 256) (s : State) : Host.Outcome State Fault Refusal :=
  .next (settle (programKey secured (fun c => { c with ideIo := some key }) s))

/-- CXL_KP (R365): the key of the CXL.cache stream. -/
def execCxlKp (secured : Bool) (key : BitVec 256) (s : State) : Host.Outcome State Fault Refusal :=
  .next (settle (programKey secured (fun c => { c with ideCache := some key }) s))

/-- AER_ERROR_LOG (R367, R371). -/
def execAerErrorLog (kind : Fin 7) (traffic : Traffic) (a : Addr) (s : State) : Host.Outcome State Fault Refusal :=
  .next (settle (cxlError kind traffic.val a.toNat s))

end Sys2Proof.Machine
end

