-- ==== Sys2Proof/Machine/Turn.lean ====
section
/-! DEFINITION. The turn from one tick to the next: the clock and the per-tick parts (R11, R14, R148), what a head shows and the
swap of its buffers (R150, R181), the safe state at a LATCH (R343, R418), and tell-tales (R321, R335). The LATCH performs the
turn; the END foresees it. -/

namespace Sys2Proof.Machine

/-! ## Heads -/

/-- A head as the turn leaves it: the buffers swap where a build is complete, the frame built in the tick before is shown with the
dimming point it was pressed with, a repeated frame with the present one (R178), and the next build begins. -/
def turnHead (s : State) (h : Head) (c : Content) (d : HeadDyn) : HeadDyn :=
  let x := s.cfg.heads[h]
  let swap := d.building && d.done
  let buf := if swap then !d.buf else d.buf
  let g := min d.gR d.cap
  let next : Pressed := { seq := if x.raster then none else x.seq, g := g, scale := rasterScale g x.ras.levelFloor }
  { d with
    mode := c.mode, buf := buf
    pressed := d.pressed.set (bufIdx (!buf)) next
    gShow := if swap then d.gBuild else g
    gBuild := g
    substs := match c.under with
      | some u => u.count
      | none => if c.mode == .host then 0 else d.substs
    hasFrame := match c.under with
      | some u => u.cause != 2 && d.hasFrame
      | none => c.mode == .host
    building := headOn s.cfg h && s.cxl.attached && (x.raster || x.seq.isSome)
    done := false, cut := false, stripes := 0, fills := 0 }

/-- LEAD_k and the verdict of R165 for the frame shown, under the show group in force. -/
def planHead (h : Head) (s : State) : State :=
  let d := s.heads[h]
  match d.pressed[bufIdx d.buf].seq with
  | some t =>
    let p := seqPlan s.cfg.heads[h] s.cfg.span h (slowLink s h) t
    onHead h (fun d => { d with lead := p.lead }) s
  | none => onHead h (fun d => { d with lead := 0 }) s

/-- R165: the loop of R164 fails for what the head would show, or its duration exceeds SHOW_LEN. -/
def judgePlan (h : Head) (s : State) : State :=
  let d := s.heads[h]
  let buf := if d.building && d.done then !d.buf else d.buf
  let bad : Bool := match d.pressed[bufIdx buf].seq with
    | some t =>
      let p := seqPlan s.cfg.heads[h] s.cfg.span h (slowLink s h) t
      headOn s.cfg h && (p.fail.isSome || decide (100 * s.cfg.span.showLen < p.dur))
    | none => false
  onHead h (fun d => { d with schedFail := bad }) s

/-- A head is ready from the first LATCH at which it can show the window (R418). -/
def readyHead (h : Head) (s : State) : State :=
  if headReady s h then onHead h (fun d => { d with readyWin := true }) s else s

/-- Contents of every head in the tick that begins. -/
def contents (old : Cfg) (s : State) : Vector Content 4 :=
  Vector.ofFn fun h => readyGate s h (contentOf s h (headOn s.cfg h && !headOn old h))

/-- Every head turns. -/
def turnHeads (cs : Vector Content 4) (s : State) : State :=
  forEach allHeads (fun h s => planHead h (onHead h (turnHead s h cs[h]) s)) s

/-! ## The safe state (R343, R418) -/

/-- The safe state moves to its window form. -/
def windowForm (s : State) : State :=
  if s.safety.toWindow && s.safety.mode == .dark && !s.safety.darkLatched then
    onSafety (fun y => { y with mode := .window, toWindow := false }) s
  else onSafety (fun y => { y with toWindow := false }) s

/-- An accepted exit takes effect. -/
def leaveSafe (s : State) : State :=
  if s.safety.exitDue then
    onSafety (fun y => { y with
      mode := if y.firstLight then .normal else .start, causes := 0, headDark := 0, exitDue := false
      safeN := !y.firstLight || y.noRelease }) s
  else s

/-- Every head whose SHOW is 1 is ready, and the ready point has passed. -/
def allReady (s : State) : Bool :=
  s.boot.readyTick.isSome && allHeads.all fun h => !s.cfg.wins[h].shown || s.heads[h].readyWin

/-- The first safe light. -/
def firstLight (s : State) : State :=
  if !s.safety.firstLight && s.safety.mode == .start && allReady s then
    onSafety (fun y => { y with firstLight := true, mode := .normal, safeN := y.noRelease }) s
  else s

/-- The safety changes that a LATCH brings before its heads turn. -/
def turnSafety (s : State) : State :=
  onSafety (fun y => { y with darkNow := y.mode == .dark }) (firstLight (forEach allHeads readyHead (leaveSafe (windowForm s))))

/-! ## Tell-tales (R321, R323, R335, R343) -/

/-- A write of tell-tales. -/
def isTelltale (w : CfgWrite) : Bool :=
  match w with
  | .telltale _ _ _ => true
  | _ => false

/-- The states of every tell-tale. -/
def ttStates (s : State) : List Nat :=
  match s.safety.asset with
  | some a => (a.telltales.zipIdx).map fun p => ttState s p.2 p.1
  | none => []

/-- TIMEOUT_STATE is taken at a LATCH where it is due, and left where a TELLTALE_SET applies; hold keeps what was commanded last. -/
def turnTimeout (wrote windowed : Bool) (s : State) : State :=
  let now := if wrote then s.safety.ttDue else s.safety.ttTimeout || s.safety.ttDue || windowed
  let begins := now && !s.safety.ttTimeout
  onSafety (fun y => { y with
    ttTimeout := now, ttDue := false
    hold := if begins then s.cfg.ttOn else y.hold, holdBlink := if begins then s.cfg.ttBlink else y.holdBlink }) s

/-- The lit set of the tick; a changed layout starts the proof's remembering again (R332). -/
def turnLit (before : List Nat) (oldShown : Vector Bool 4) (s : State) : State :=
  let after := ttStates s
  let s1 := onSafety (fun y => { y with lit := litSet s s.clk.tick }) s
  forEach allHeads (fun h s =>
    if before != after || oldShown[h] != winShown s h then onHead h (fun d => { d with proven := 0, provenTold := false }) s else s) s1

/-! ## The clock and the per-tick parts -/

/-- The parts of a head that count one tick. -/
def freshHead (d : HeadDyn) : HeadDyn :=
  { d with
    showing := false, spanDone := false, entry := 0, gateOpen := false, darkPlanes := 0, lateRaised := false
    winLostPrev := d.winLost, winLost := false, proofVoid := false, diag := [], driftDone := 0 }

/-- A lane group at a boundary: a new rate takes effect (R215), and sending resumes (R212). Blocks that still wait for an answer are lost
there; LINK_ERRORS of the tick that begins reports them (R27, log entry 69). -/
def freshLink (l : LinkDyn) : LinkDyn :=
  { l with
    rateNow := l.newRate.getD l.rateNow, newRate := none
    stopped := (l.stopped || l.stopping) && !l.resume, stopping := false, resume := false
    refusals := 0, timeouts := 0, mismatches := 0, blocksLost := l.flights.length
    next := Vector.replicate 8 0, flights := [], acked := [], retried := [], lostPlanes := [], timingRaised := false, dark := []
    badBlocks := 0 }

/-- A scanner at a boundary; its table is sent after READY has risen (R243). Packets that still wait for an answer are lost there;
RASTER_LINES_LOST of the tick that begins reports their lines (R27, log entry 69). `len` is the tick that ends, in 250 ps. -/
def freshRaster (rises : Bool) (len : Nat) (r : RasterDyn) : RasterDyn :=
  { r with
    line := 0, linesOver := false, gateUsed := false, lineAt := r.lineAt.map fun t => t - (len : Int), packet := 0, flights := []
    lostLines := distinct ((r.flights.map fun f => f.block).filter fun y => y != 0xFFF)
    tableDue := r.tableDue || rises, tableNext := 0, tableLost := false }

/-- The table of a head whose show span did not come is judged at the boundary. -/
def tableOver (h : Head) (s : State) : State := if s.heads[h].showing || s.heads[h].spanDone then s else tableCheck h s

/-- A channel counts the tick that has ended; a pulse that is still open is stopped (R27). -/
def freshChan (c : ChanDyn) : ChanDyn :=
  { c with
    gateOpen := false, opened := false
    since := min 0xFFFF (c.since + 1), sinceDrift := min 0xFFFF (c.sinceDrift + 1)
    unjudged := if c.state == 1 || c.state == 2 then min 255 (c.unjudged + 1) else 0 }

/-- TICK_ALIGNED's payload (R398). -/
def alignedWord (old new : Nat) : Nat := pack [(0, 48, old), (64, 48, new)]

/-- The boundary at b begins a tick. -/
def beginTick (b : Nat) (s : State) : State :=
  let new := nextTick s
  let s1 := onClk (fun c => { c with
    now := max c.now b, tick := new, phase := .latch, start := b, held := false, validAt := none, cutAt := none, boundary := none
    prevLen := b - c.start, prevNone := false, built := false, shown := false, lmRaised := Vector.replicate 2 false, alignTo := none
    prevReason := if c.alignTo.isSome then .aligned else c.reason }) s
  let s2 := if s.clk.alignTo.isSome then later srcTick evTickAligned (alignedWord s.clk.tick new) s1 else s1
  let rises (h : Head) : Bool := s.links[h].newRate.isSome || s.links[h].resume
  let s3 := onHeads (·.map freshHead) (onLinks (·.map freshLink)
    (onRasters (fun v => Vector.ofFn fun h => freshRaster (rises h) (8 * (b - s.clk.start)) v[h])
      (onChans (·.map freshChan) (forEach allHeads tableOver s2))))
  let s4 := onComp (fun c => { c with
    band := 0, errLine := Vector.replicate 24 none, gtcFirst := Vector.replicate 24 none, gtcCount := Vector.replicate 24 0
    hostBuild := s.cxl.attached }) s3
  let s5 := onBoot (fun x => { x with enabled := x.enabled || x.enableDue, enableDue := false }) s4
  onCal (fun c => { c with granted := s.sluice.series })
    (onFlash (fun f => { f with slice := s.sluice.slice }) (onSluice (fun x => { x with slice := false, series := false }) s5))

end Sys2Proof.Machine
end

