-- ==== Sys2Proof/Machine/Latch.lean ====
section
/-! DEFINITION. TICK_BOUNDARY, which begins a LATCH and does all of its work, LATCH_END, and the rows that name a part of a LATCH
(R21, R33, R139, R148, R149, R153, R169, R176, R224, R259, R271 to R275, R280 to R284, R309, R343, R405, R437, R454, R510). -/

namespace Sys2Proof.Machine

/-! ## Timing (R153, R155, R169) -/

/-- The group of TIMING_SET that a write belongs to. -/
def timingGroup (w : CfgWrite) : Nat :=
  match w with
  | .tick _ => 1
  | .span _ => 2
  | .scan _ => 4
  | _ => 0

/-- The groups that writes apply, as a mask. -/
def timingGroups (ws : List CfgWrite) : Nat := ws.foldl (fun m w => m ||| timingGroup w) 0

/-- TIMING_APPLIED, once per LATCH. -/
def tellTiming (groups : Nat) (dark : Bool) (s : State) : State :=
  if groups = 0 then s
  else later srcTick evTimingApplied (pack [(0, 3, groups), (3, 2, dark.toNat), (16, 16, s.cfg.tick.tmin)]) s

/-- TRANSITION_END's payload: the heads that show host content. -/
def hostMask (s : State) : Nat := headMask fun h => s.heads[h].mode == .host || s.heads[h].mode == .subst

/-- A transition that has ended is told of. -/
def tellTransition (ended : Bool) (s : State) : State :=
  if ended then later srcTick evTransitionEnd (pack [(0, 4, hostMask s)]) s else s

/-- SEQ_DUTY_LOW, where a new TMIN has taken effect. -/
def tellDuty (old : Cfg) (s : State) : State :=
  if old.tick.tmin = s.cfg.tick.tmin then s
  else forEach allHeads (fun h s =>
    let x := s.cfg.heads[h]
    match x.seq with
    | some t =>
      let r := dutyRatio x.arr s.cfg.tick.tmin t
      if !x.raster && dutyLow r then later (srcHead h) evSeqDutyLow (pack [(0, 2, h.val), (16, 16, dutyWord r)]) s else s
    | none => s) s

/-- LINE_MATCH with RANGE: a comparator's line leaves its range. -/
def tellRange (s : State) : State :=
  forEach (allFin 2) (fun i s =>
    let v := s.cfg.scan.lm[i]
    let out := v.src != 0 && !lineOk s.cfg v
    let s1 := onClk (fun c => { c with lmOut := c.lmOut.set i out }) s
    if out && !s.clk.lmOut[i] then later (srcLineMatch i.val) evLineMatch (lineMatchWord i.val v true) s1 else s1) s

/-! ## Bandwidth (R40, R42, R369) -/

/-- The shortest tick at which R40 holds, in µs. -/
def bandNeeded (s : State) (c : Cfg) : Nat :=
  let t := trafficOf c
  let m := if t.1 < t.2 then t.2 else t.1
  let l := linkLimit s.cxl.link
  if l = 0 then 0 else (m * 1000000 / l).ceil.toNat

/-- R42. -/
def bandEnd (c : Cfg) (s : State) : State :=
  let need := bandNeeded s c
  let base := max c.tick.tmin (max (throttleTmin s.therm.level) (chainCap s))
  if !cxlUp s || need ≤ base then onClk (fun k => { k with bwTmin := 0, bwSafe := false }) s
  else onClk (fun k => { k with bwTmin := need, bwSafe := decide (c.tick.tmax < need) }) s

/-- The figure of R42 is in force and new. -/
def bandNew (old : Clock) (s : State) : Bool :=
  s.clk.bwTmin != 0 && (s.clk.bwTmin != old.bwTmin || s.clk.bwSafe != old.bwSafe)

/-- BANDWIDTH_LIMITED's payload. -/
def bandWord (tmin : Nat) (s : State) : Nat :=
  pack [(0, 32, if s.clk.bwSafe then 0 else tmin), (32, 32, tenMb (linkLimit s.cxl.link))]

/-- R369: R40 is applied at the first LATCH at which the device is attached, with the L then in force. -/
def bandLatch (joined : Bool) (s : State) : State :=
  if !joined then s
  else
    let s1 := bandEnd s.cfg s
    if bandNew s.clk s1 then later srcCxl evBandwidthLimited (bandWord (tminOf s1 s1.cfg) s1) s1 else s1

/-! ## Dimming (R176, R177) -/

/-- A DIM_SET applies. DIM_HELD counts from the END that first decided on the target. -/
def applyDim (late : Vector Bool 4) (w : CfgWrite) (s : State) : State :=
  match w with
  | .dim h g r => onHead h (fun d => { d with gT := g, steps := r, reached := false, heldDim := d.heldDim && !late[h] }) s
  | _ => s

/-- The heads with a DIM_SET that completed after the decision of the last END. -/
def undecided (s : State) (h : Head) : Bool :=
  (s.pendLv.drop s.sluice.seenLv).any fun w => match w with
    | .dim k _ _ => k == h
    | _ => false

/-- The step of a head's ramp: a step that raises the light needs the grant of the last END. -/
def rampHead (late : Bool) (d : HeadDyn) : HeadDyn :=
  if d.reached || (rampRaises d && (late || !d.grant)) then d
  else
    let g := rampNext d
    { d with gR := g, steps := d.steps - 1, reached := decide (g = d.gT) }

/-- DIM_REACHED for the heads that have reached one target. -/
def tellReached (hs : List Head) (g : Nat) (s : State) : State :=
  later srcTick evDimReached (pack [(0, 4, headMask fun h => hs.contains h && s.heads[h].gT == g), (32, 32, g)]) s

/-- Every ramp steps. -/
def stepRamps (late : Vector Bool 4) (s : State) : State :=
  let s1 := forEach allHeads (fun h s => onHead h (rampHead late[h]) s) s
  let hs := allHeads.filter fun h => s1.heads[h].reached && !s.heads[h].reached
  forEach (distinct (hs.map fun h => s1.heads[h].gT)) (tellReached hs) s1

/-! ## Scanners (R224, R489) -/

/-- The scanner of a head runs. -/
def scannerRuns (s : State) (h : Head) : Bool :=
  s.boot.enabled && (rasterOn s.cfg h || (s.cfg.heads[h].raster && s.cfg.wins[h].shown))

/-- A scanner starts or stops with its drives, and drives its enable. -/
def turnScanner (h : Head) (s : State) : State :=
  let r := s.rasters[h]
  let run := scannerRuns s h
  let s1 := if run && r.scan == 0 then acquire h s
    else if !run && r.scan != 0 then
      steer h .off (drive h .off (onRaster h (fun r => { r with scan := 0, ramping := false, retryTick := none, guard := false }) s))
    else s
  if r.scnEn == run then s1 else emit (.scanner h run) (onRaster h (fun r => { r with scnEn := run }) s1)

/-- A table that has applied is sent in this tick (R243). -/
def tableApplied (p : CfgWrite × Bool) (s : State) : State :=
  match p.1 with
  | .rtable h _ => if p.2 then onRaster h (fun r => { r with tableDue := true }) s else s
  | _ => s

/-! ## Channels (R248, R249, R262, R274, R276) -/

/-- The channels whose fault a write clears. -/
def clears (ws : List (CfgWrite × Bool)) (n : Chan) : Bool :=
  ws.any fun p => match p.1 with
    | .faultClear k => k == n
    | _ => false

/-- A channel's STATE changes at a LATCH. -/
def chanTo (n : Chan) (st : Nat) (f : ChanDyn → ChanDyn) (s : State) : State :=
  later (srcChan n) evChState (chStateWord n st) (onChan n (fun c => { f c with state := st, started := false }) s)

/-- A channel at a LATCH: it starts with its enable or the end of its fault, lights after its grant, and is off while disabled. -/
def turnChan (ws : List (CfgWrite × Bool)) (n : Chan) (s : State) : State :=
  let c := s.chans[n]
  let again : Bool := match c.restart with
    | some t => decide (t ≤ s.clk.tick)
    | none => false
  let start (s : State) : State := chanTo n 1 (fun c => { c with ref := 0, latched := false, restart := none, unjudged := 0 }) s
  if !chanRuns s n then
    if c.state = 0 then s
    else chanTo n 0 (fun c => { c with
      ref := 0, iCmd := 0, latched := false, restart := none, unjudged := 0, gateOpen := false, bucksOff := true }) s
  else if c.state = 0 then start s
  else if c.state = 3 && (again || (c.latched && clears ws n)) then start s
  else if c.state = 1 && c.started then chanTo n 2 id s
  else s

/-! ## Light of the tick (R251, R253, R259, R271 to R275) -/

/-- A channel in its place by the time since it was last judged, longest first. -/
def insertDue (s : State) (n : Chan) : List Chan → List Chan
  | [] => [n]
  | m :: r => if s.chans[m].since < s.chans[n].since then n :: m :: r else m :: insertDue s n r

/-- The channels of a head that are due for a diagnostic pulse, in slot order (R259). -/
def dueNow (s : State) (h : Head) : List Chan :=
  if s.cfg.heads[h].raster || !showsLight s h then []
  else ((allFin 64).filter fun n =>
    s.cfg.chans[n].st.head == h && s.chans[n].state == 2 && decide (4 ≤ s.chans[n].since)).foldl (fun l n => insertDue s n l) []

/-- Targets and corrections of a head step, where a rise is granted whole. -/
def stepHead (h : Head) (s : State) : State :=
  let ok := s.heads[h].grant
  forEach allColours (stepColour h (!ok)) (stepTargets h ok s)

/-- A fixed gain step takes effect, every head in hold (R264). -/
def turnGain (i : Fin 8) (s : State) : State :=
  if s.cfg.os[i].gainMode = 0 then s else onOs i (fun d => { d with step := s.cfg.os[i].gainMode - 1 }) s

/-- The light of the tick that begins. -/
def turnLight (ws : List (CfgWrite × Bool)) (s : State) : State :=
  let s1 := forEach (allFin 64) (turnChan ws) s
  let s2 := forEach allHeads stepHead s1
  let s3 := forEach (allFin 64) setRef s2
  forEach (allFin 8) turnGain (forEach allHeads (fun h s => onHead h (fun d => { d with diag := dueNow s h }) s) s3)

/-! ## Lamps (R280, R282, R284) -/

/-- s(u) of a fade. -/
def fadeCurve (sCurve : Bool) (u : Rat) : Rat := if sCurve then 3 * u * u - 2 * u * u * u else u

/-- The shown value of one colour at u. -/
def fadeAt (sCurve : Bool) (start target : Nat) (u : Rat) : Nat :=
  ((start : Int) + ratRound (((target : Rat) - (start : Rat)) * fadeCurve sCurve u)).toNat

/-- A fade goes on by the length of a tick. -/
def fadeNode (dt : Nat) (n : Node) : Node :=
  if !n.fading then n
  else
    let e := n.elapsed + dt
    let u : Rat := if n.runMs = 0 then 1 else min 1 ((e : Rat) / (msT n.runMs : Rat))
    { n with elapsed := e, fading := decide (u < 1), shown := Vector.ofFn fun c => fadeAt n.runS n.start[c] n.target[c] u }

/-- A fade to the target begins from a value, with the curve and the time that the node holds. -/
def startFade (shown : Vector Nat 3) (n : Node) : Node :=
  if n.ms = 0 then { n with shown := n.target, fading := false }
  else { n with start := shown, shown := shown, runS := n.scurve, runMs := n.ms, elapsed := 0, fading := true }

/-- A lamp write acts on a node; in the safe state a target is only kept. -/
def lampNode (safe : Bool) (first : Nat) (vals : List (Vector Nat 3)) (i : Nat) (n : Node) : Node :=
  match if first ≤ i then vals[i - first]? else none with
  | some v => if safe then { n with target := v, fading := false } else startFade n.shown { n with target := v }
  | none => n

/-- The nodes of a line changed by number. -/
def onNodes (i : Fin 4) (f : Nat → Node → Node) (s : State) : State :=
  onLine i (fun l => { l with nodes := Vector.ofFn fun k => f k.val l.nodes[k] }) s

/-- A lamp write applies. -/
def applyLamp (safe : Bool) (w : CfgWrite) (s : State) : State :=
  match w with
  | .lampTargets i first vals =>
    let now := !safe && (List.range vals.length).any fun k => decide ((s.lines[i].nodes[first + k]?.map (·.ms)) = some 0)
    onLine i (fun l => { l with doneDue := l.doneDue || now }) (onNodes i (lampNode safe first vals) s)
  | .lampFade i first count sc ms =>
    onNodes i (fun k n => if first ≤ k && decide (k < first + count) then { n with scurve := sc, ms := ms } else n) s
  | _ => s

/-- The fades of a line go on; one that ends owes LAMP_FADES_DONE. In the safe state none goes on. -/
def fadeLine (safe : Bool) (i : Fin 4) (s : State) : State :=
  if safe then onNodes i (fun _ n => { n with fading := false }) s
  else
    let s1 := onNodes i (fun _ => fadeNode s.clk.prevLen) s
    let ended := (allFin 128).any fun k => s.lines[i].nodes[k].fading && !s1.lines[i].nodes[k].fading
    onLine i (fun l => { l with doneDue := l.doneDue || ended }) s1

/-- On leaving the safe state every node of a line fades from its safe value. -/
def relight (i : Fin 4) (s : State) : State :=
  let c := s.cfg.lines[i]
  let now := (allFin 128).any fun k => decide (k.val < c.st.nodes) && s.lines[i].nodes[k].ms == 0
  onLine i (fun l => { l with doneDue := l.doneDue || now })
    (onNodes i (fun k n => if k < c.st.nodes then startFade c.lv.safe n else n) s)

/-- LAMP_FADES_DONE: the last fade of a line has ended. -/
def tellFades (i : Fin 4) (s : State) : State :=
  let l := s.lines[i]
  if l.doneDue && l.nodes.toList.all (fun n => !n.fading) then
    later (srcLine i) evLampFadesDone (pack [(0, 2, i.val)]) (onLine i (fun l => { l with doneDue := false }) s)
  else if l.doneDue then onLine i (fun l => { l with doneDue := false }) s
  else s

/-- LAMP_NOFIT: an enabled line no longer fits the effective Tmin. -/
def fitLine (i : Fin 4) (s : State) : State :=
  let c := s.cfg.lines[i]
  let bad := c.lv.enable && !lampFits c.st.nodes c.st.latchUs s.clk.effTmin
  let s1 := onLine i (fun l => { l with noFit := bad }) s
  if bad && !s.lines[i].noFit then
    later (srcLine i) evLampNofit (pack [(0, 2, i.val), (16, 16, c.st.nodes * 48 + c.st.latchUs)]) s1
  else s1

/-- The lamps of a tick. -/
def turnLamps (left : Bool) (ws : List CfgWrite) (s : State) : State :=
  let safe := inSafe s
  let s1 := if left then s else forEach (allFin 4) (fadeLine safe) s
  let s2 := forEach ws (applyLamp (safe || left)) s1
  let s3 := if left then forEach (allFin 4) relight s2 else s2
  forEach (allFin 4) (fun i s => tellFades i (fitLine i s)) s3

/-- The colour order of a line's node (R279). -/
def lineOrder (order : Nat) (v : Vector Nat 3) : Vector Nat 3 :=
  match order with
  | 0 => v
  | 1 => #v[v[0], v[2], v[1]]
  | 2 => #v[v[1], v[0], v[2]]
  | 3 => #v[v[1], v[2], v[0]]
  | 4 => #v[v[2], v[0], v[1]]
  | _ => #v[v[2], v[1], v[0]]

/-- The value sent for a node: the safe value, or the shown one with the compensation of R283. -/
def lineValue (s : State) (i : Fin 4) (n : Node) : Vector Nat 3 :=
  let c := s.cfg.lines[i]
  if inSafe s then c.lv.safe
  else if c.st.tsEn then Vector.ofFn fun k =>
    (intClamp 0 0xFFFF (ratRound ((n.shown[k] : Rat) *
      (1 + (c.lv.kt[k] : Rat) * (s.lines[i].tEnd - (c.lv.tRef : Rat) / 8) / 65536)))).toNat
  else n.shown

/-- A line's frame leaves at the end of LATCH (R280, R284, R418). -/
def sendLine (i : Fin 4) (s : State) : State :=
  let c := s.cfg.lines[i]
  if c.lv.enable && !s.lines[i].noFit && (s.safety.firstLight || inSafe s) then
    emit (.thread i ((s.lines[i].nodes.toList.take c.st.nodes).map fun n => lineOrder c.st.order (lineValue s i n))) s
  else s

/-! ## Calibration, voltage, chain -/

/-- CAL_APPLIED for every application that has ended, and a CAL_DONE that the LATCH owes. -/
def tellApplied (done : List Applying) (word : Option Nat) (s : State) : State :=
  let s1 := forEach done (fun a s => later srcCal evCalApplied (appliedWord a) s) s
  match word with
  | some w => later srcCal evCalDone w s1
  | none => s1

/-- Calibration at a LATCH: an abort that was marked takes effect, applications step, and the conditions of R436 are watched. -/
def turnCal (s : State) : State :=
  let x : State × Option Nat := match s.cal.abort with
    | some r => abortWord r s
    | none => (s, none)
  let y := applyLatch (tellApplied [] x.2 x.1)
  calWatch (tellApplied y.2.1 y.2.2 y.1)

/-- The preset that was written is selected (R405). -/
def turnVid (s : State) : State := if s.power.writing.isNone then selectVid s.power.nextVid s else s

/-- CHAIN_VOTE has changed: the device votes, or enters or leaves the voters of its chain (R455). -/
def turnVote (old : Cfg) (s : State) : State :=
  let v := s.cfg.scan.chainVote
  if old.scan.chainVote == v then s
  else if isFollower s then sendVote v s
  else if isChainHead s then
    onCw (fun c => { c with voters := if v then setVoter 0 false c.voters else c.voters.filter fun x => x.1 != 0 }) s
  else s

/-- A valid record, or a deferred part that is ready, counts as held at the start of the tick (R18, R92, R103). -/
def heldAtStart (s : State) : State :=
  let any := s.com.records.any fun r => (r.valid && !r.applied) || partReady r
  if isFollower s then s
  else
    let s1 := if any then noteValid s else s
    if isChainHead s1 && votesIn s1 then markValid s1 else s1

/-- The relay and event forwarding follow the chain record (R456, R458). -/
def turnRelay (old : Cfg) (s : State) : State :=
  let s1 := if old.chain.evtFwd == s.cfg.chain.evtFwd then s else updateObs s
  if old.chain.relayEn == s1.cfg.chain.relayEn then s1
  else if s1.cfg.chain.relayEn then restartRelay s1
  else dropRelayed s1

/-- The writes of a MODE whose APPLY_TICK has come (R454). -/
def modeWrites (s : State) : List CfgWrite × State :=
  match s.cw.mode with
  | some m => if m.apply ≤ s.clk.tick then (timingWrites m.payload, onCw (fun c => { c with mode := none }) s) else ([], s)
  | none => ([], s)

/-- The effective Tmin of the tick: a follower's comes with its boundary. -/
def turnTmin (s : State) : State :=
  onClk (fun c => { c with effTmin := if isFollower s && s.cw.chainTmin != 0 then s.cw.chainTmin else tminOf s s.cfg }) s

/-! ## The LATCH -/

/-- FLIP of the frame that begins showing. -/
def tellFlip (s : State) : State :=
  let i := s.com.shown
  later srcCommit evFlip (pack [(0, 32, i.tag.toNat), (32, 1, i.isNew.toNat), (33, 1, i.late.toNat), (34, 2, i.merged),
    (36, 4, headMask fun h => s.heads[h].mode == .subst), (40, 24, i.held.toNat), (64, 24, i.dropped.toNat)]) s

/-- UNDERRUN of the heads whose build was cut. -/
def tellUnderruns (cs : Vector Content 4) (s : State) : State :=
  forEach allHeads (fun h s => match cs[h].under with
    | some u => later (srcHead h) evUnderrun (underrunWord h u.cause u.safe u.count) s
    | none => s) s

/-- What the turn of the heads needs to know of the LATCH. -/
structure LatchInfo where
  old    : Cfg
  ws     : List (CfgWrite × Bool)
  late   : Vector Bool 4
  dark   : Bool
  ended  : Bool
  states : List Nat
  shown  : Vector Bool 4
  left   : Bool

/-- TELLTALE_APPLIED, where a write of tell-tales has applied. -/
def tellTelltale (wrote : Bool) (s : State) : State :=
  if wrote then later srcQ2 evTelltaleApplied (pack [(0, 64, s.cfg.ttOn.toNat), (64, 64, s.cfg.ttBlink.toNat)]) s else s

/-- The heads turn: contents, buffers, scanners, light, and their events. -/
def latchHeads (i : LatchInfo) (s : State) : State :=
  let ws := i.ws.filterMap fun p => if p.2 then some p.1 else none
  let s1 := forEach allHeads turnScanner (forEach i.ws tableApplied s)
  let s2 := stepRamps i.late (forEach ws (applyDim i.late) s1)
  let s3 := forEach allHeads judgePlan s2
  let cs := contents i.old s3
  let s4 := forEach allHeads retrace (turnHeads cs s3)
  let s5 := tellTransition i.ended (tellTiming (timingGroups ws) i.dark (tellUnderruns cs (tellFlip s4)))
  let s6 := tellDuty i.old (tellRange s5)
  turnLamps i.left ws (turnLight i.ws (turnTmin s6))

/-- The rest of the device at the LATCH. -/
def latchRest (i : LatchInfo) (s : State) : State :=
  let wrote := i.ws.any fun p => isTelltale p.1
  let s1 := tellTelltale wrote s
  let s2 := if i.left then later srcSafe evSafeStateExit 0 s1 else s1
  let s3 := applyLayouts (stageLayouts (turnLit i.states i.shown s2))
  let s4 := turnVid (turnCal s3)
  let s5 := onPort .up (fun c => { c with delay := c.newDelay.getD c.delay, newDelay := none })
    (onPort .down (fun c => { c with delay := c.newDelay.getD c.delay, newDelay := none }) s4)
  let s6 := heldAtStart (judge (turnRelay i.old (turnVote i.old s5)))
  forEach allHeads sendTiming s6

/-- Everything that waits for the LATCH applies, in the tick that has begun; `joined` says that no LATCH since the attachment came
before it. -/
def latchAll (joined : Bool) (lv held : List CfgWrite) (s : State) : State :=
  let m := modeWrites s
  let late : Vector Bool 4 := Vector.ofFn (undecided s)
  let states := ttStates s
  let shown : Vector Bool 4 := Vector.ofFn (winShown s)
  let run := applyAll (lv ++ m.1) (onPendLv (fun _ => held) m.2)
  let new := run.s.cfg
  let dark := darkChange s.cfg new
  let ended : Bool := match s.clk.trans with
    | some t => decide (t ≤ s.clk.tick)
    | none => false
  let s1 := transOver s.clk.tick run.s
  let s2 := bandLatch joined (if dark then transStart s.clk.tick s1 else s1)
  let left := s2.safety.exitDue
  let windowed := s2.safety.toWindow && s2.safety.mode == .dark && !s2.safety.darkLatched
  let wrote := run.ws.any fun p => isTelltale p.1
  let s3 := turnTimeout wrote windowed (turnSafety s2)
  let i : LatchInfo := { old := s.cfg, ws := run.ws, late := late, dark := dark, ended := ended, states := states, shown := shown, left := left }
  runLatchQ (orderLatch (latchRest i (forEach run.ws (tableEvent (allHeads.any (areaChanges s.cfg new))) (latchHeads i s3))))

/-- R339: TICK and the phases go on as they should, and the tick that ends is as long, on ROSC, as its effective Tmin and Tmax allow. -/
def tickOk (s : State) (c : TickCheck) : Bool :=
  c.counted && decide (850 * s.clk.effTmin ≤ c.rosc) && decide (c.rosc ≤ 1150 * effTmax s)

/-- R328: the span table that the merge hardware reads has the CRC of the layout in force. -/
def spanOk (s : State) (crc : BitVec 32) : Bool := s.safety.asset.isNone || crc == (layoutNow s).spanCrc

/-- R328, R339: faults that hardware finds at a boundary. -/
def boundaryFaults (ok : Bool) (crc : BitVec 32) (s : State) : State :=
  let s1 := if ok then s else safetyFault 4 none 0 0 true true 0 s
  if spanOk s crc then s1 else safetyFault 0 none 0 0 true true 0 s1

/-- The boundary that END has reached: a reset that is due, or the LATCH of the next tick. -/
def boundaryAt (b : Nat) (c : TickCheck) (crc : BitVec 32) (s : State) : State :=
  if s.upd.resetDue then warmReset (reach b s)
  else
    let lv := lvSplit s
    boundaryFaults (tickOk s c) crc
      (latchAll (s.cxl.attached && !s.comp.hostBuild) lv.1 lv.2 (beginTick b (stopFences s)))

/-- TICK_BOUNDARY, after END. -/
def tickBoundary (c : TickCheck) (crc : BitVec 32) (s : State) : State :=
  match s.clk.phase, s.clk.boundary with
  | .finish, some b => drainAll (boundaryAt b c crc s)
  | _, _ => s

/-! ## The end of LATCH (R21, R148, R213, R280, R434) -/

/-- The code of a boundary reason. -/
def Reason.code : Reason → Nat
  | .held => 0 | .paced => 1 | .tmax => 2 | .aligned => 3

/-- BLANK_START's payload. -/
def blankWord (c : Clock) : Nat :=
  pack [(0, 32, if c.prevNone then 0 else sat 32 c.prevLen), (32, 2, if c.prevNone then 0 else c.prevReason.code),
    (34, 1, c.prevNone.toNat), (48, 16, sat 16 c.effTmin)]

/-- The work that begins at the end of LATCH. -/
def startWork (m : LatchEnd) (s : State) : State :=
  let s1 := forEach allHeads (fun g s => if s.links[g].granted then startTraining g s else s) s
  let s2 := forEach [Port.up, Port.down] (fun p s => if (cwPort p s).granted then startPort p s else s) s1
  let s3 := forEach (allFin 4) sendLine s2
  beginStep m (onCal (fun c => { c with inputs := m.inputs }) s3)

/-- LATCH ends: BLANK is entered, and what waited for it goes on. A LATCH that still waits for the write of a release fence does not
end (log entry 11). -/
def latchEnds (m : LatchEnd) (s : State) : State :=
  if s.clk.phase != .latch || s.clk.held || !s.com.latchQ.isEmpty then s
  else
    let s2 := raise srcTick evBlankStart (blankWord s.clk) (onClk (fun c => { c with phase := .blank }) s)
    drainAll (enterPhases (startWork m s2))

/-! ## The rows -/

/-- TICK_BOUNDARY (R21). -/
def execTickBoundary (check : TickCheck) (spanCrc : BitVec 32) (s : State) : Host.Outcome State Fault Refusal :=
  .next (settle (tickBoundary check spanCrc s))

/-- LATCH_END (R21). -/
def execLatchEnd (m : LatchEnd) (s : State) : Host.Outcome State Fault Refusal := .next (settle (latchEnds m s))

/-- A part of a LATCH, while the LATCH lasts. -/
def inLatch (f : State → State) (s : State) : State :=
  if s.clk.phase == .latch then runLatchQ (orderLatch (f s)) else s

/-- The transition that ends at this LATCH. -/
def endTransition (s : State) : State :=
  match s.clk.trans with
  | some t => if t ≤ s.clk.tick then tellTransition true (transOver s.clk.tick s) else s
  | none => s

/-- TRANSITION_END (R153). -/
def execTransitionEnd (s : State) : Host.Outcome State Fault Refusal := .next (settle (inLatch endTransition s))

/-- LAMP_FADES_DONE (R282). -/
def execLampFadesDone (line : Fin 4) (s : State) : Host.Outcome State Fault Refusal := .next (settle (inLatch (tellFades line) s))

/-- The applications whose last LATCH has come. -/
def endApplications (s : State) : State :=
  if s.cal.applying.any (fun a => decide (64 ≤ a.latch)) then
    let y := applyLatch s
    tellApplied y.2.1 y.2.2 y.1
  else s

/-- CAL_APPLIED (R437). -/
def execCalApplied (s : State) : Host.Outcome State Fault Refusal := .next (settle (inLatch endApplications s))

end Sys2Proof.Machine
end

