-- ==== Sys2Proof/Machine/MailboxRows.lean ====
section
/-! DEFINITION. The rows that are mailbox commands: the host submits the descriptor on its queue (R375), and the queue executes
it as soon as it can. -/

namespace Sys2Proof.Machine

/-- DEVICE_INFO (R381). -/
def execDeviceInfo (d : Desc) (s : State) : Host.Outcome State Fault Refusal := mailbox .deviceInfo d s

/-- EVENT_MASK (R387). -/
def execEventMask (d : Desc) (s : State) : Host.Outcome State Fault Refusal := mailbox .eventMask d s

/-- SETTINGS_READ (R384). -/
def execSettingsRead (d : Desc) (s : State) : Host.Outcome State Fault Refusal := mailbox .settingsRead d s

/-- SETTINGS_WRITE_MEMORY_REGION (R35). -/
def execSettingsWriteMemoryRegion (d : Desc) (s : State) : Host.Outcome State Fault Refusal := mailbox .settingsWrite (withRecord 0x01 d) s

/-- SETTINGS_WRITE_CANVAS (R79). -/
def execSettingsWriteCanvas (d : Desc) (s : State) : Host.Outcome State Fault Refusal := mailbox .settingsWrite (withRecord 0x02 d) s

/-- SETTINGS_WRITE_HEAD_COLOUR (R135). -/
def execSettingsWriteHeadColour (d : Desc) (s : State) : Host.Outcome State Fault Refusal := mailbox .settingsWrite (withRecord 0x03 d) s

/-- SETTINGS_WRITE_ARRAY (R156). -/
def execSettingsWriteArray (d : Desc) (s : State) : Host.Outcome State Fault Refusal := mailbox .settingsWrite (withRecord 0x04 d) s

/-- SETTINGS_WRITE_RASTER (R228). -/
def execSettingsWriteRaster (d : Desc) (s : State) : Host.Outcome State Fault Refusal := mailbox .settingsWrite (withRecord 0x05 d) s

/-- SETTINGS_WRITE_PIXEL_TIMING (R233). -/
def execSettingsWritePixelTiming (d : Desc) (s : State) : Host.Outcome State Fault Refusal := mailbox .settingsWrite (withRecord 0x06 d) s

/-- SETTINGS_WRITE_LINK (R220). -/
def execSettingsWriteLink (d : Desc) (s : State) : Host.Outcome State Fault Refusal := mailbox .settingsWrite (withRecord 0x07 d) s

/-- SETTINGS_WRITE_OS (R265). -/
def execSettingsWriteOs (d : Desc) (s : State) : Host.Outcome State Fault Refusal := mailbox .settingsWrite (withRecord 0x08 d) s

/-- SETTINGS_WRITE_LINE (R281). -/
def execSettingsWriteLine (d : Desc) (s : State) : Host.Outcome State Fault Refusal := mailbox .settingsWrite (withRecord 0x09 d) s

/-- SETTINGS_WRITE_CHAIN (R478). -/
def execSettingsWriteChain (d : Desc) (s : State) : Host.Outcome State Fault Refusal := mailbox .settingsWrite (withRecord 0x21 d) s

/-- LAYER_SET (R54). -/
def execLayerSet (d : Desc) (s : State) : Host.Outcome State Fault Refusal := mailbox .layerSet d s

/-- LAYER_ENABLE (R75). -/
def execLayerEnable (d : Desc) (s : State) : Host.Outcome State Fault Refusal := mailbox .layerEnable d s

/-- LUT_LOAD (R83). -/
def execLutLoad (d : Desc) (s : State) : Host.Outcome State Fault Refusal := mailbox .lutLoad d s

/-- COEFF_LOAD (R83). -/
def execCoeffLoad (d : Desc) (s : State) : Host.Outcome State Fault Refusal := mailbox .coeffLoad d s

/-- BLEND_ORDER_SET (R76). -/
def execBlendOrderSet (d : Desc) (s : State) : Host.Outcome State Fault Refusal := mailbox .blendOrderSet d s

/-- FENCE_MODE_SET (R100). -/
def execFenceModeSet (d : Desc) (s : State) : Host.Outcome State Fault Refusal := mailbox .fenceModeSet d s

/-- COMMIT (R87). -/
def execCommit (d : Desc) (s : State) : Host.Outcome State Fault Refusal := mailbox .commit d s

/-- HEAD_SET (R116). -/
def execHeadSet (d : Desc) (s : State) : Host.Outcome State Fault Refusal := mailbox .headSet d s

/-- WARP_LOAD (R123). -/
def execWarpLoad (d : Desc) (s : State) : Host.Outcome State Fault Refusal := mailbox .warpLoad d s

/-- TIMING_SET (R155). -/
def execTimingSet (d : Desc) (s : State) : Host.Outcome State Fault Refusal := mailbox .timingSet d s

/-- PLANE_SEQ_LOAD (R159). -/
def execPlaneSeqLoad (d : Desc) (s : State) : Host.Outcome State Fault Refusal := mailbox .planeSeqLoad d s

/-- DIM_SET (R176). -/
def execDimSet (d : Desc) (s : State) : Host.Outcome State Fault Refusal := mailbox .dimSet d s

/-- LIGHT_CHANNEL_SET (R248). -/
def execLightChannelSet (d : Desc) (s : State) : Host.Outcome State Fault Refusal := mailbox .lightChannelSet d s

/-- COLOUR_TARGET_SET (R268). -/
def execColourTargetSet (d : Desc) (s : State) : Host.Outcome State Fault Refusal := mailbox .colourTargetSet d s

/-- LAMP_SET (R282). -/
def execLampSet (d : Desc) (s : State) : Host.Outcome State Fault Refusal := mailbox .lampSet d s

/-- LAMP_FADE (R282). -/
def execLampFade (d : Desc) (s : State) : Host.Outcome State Fault Refusal := mailbox .lampFade d s

/-- POWER_QUOTA (R292). -/
def execPowerQuota (d : Desc) (s : State) : Host.Outcome State Fault Refusal := mailbox .powerQuota d s

/-- THERMAL_SET (R307). -/
def execThermalSet (d : Desc) (s : State) : Host.Outcome State Fault Refusal := mailbox .thermalSet d s

/-- SAFETY_WINDOW_SET (R326). -/
def execSafetyWindowSet (d : Desc) (s : State) : Host.Outcome State Fault Refusal := mailbox .safetyWindowSet d s

/-- TELLTALE_SET (R324). -/
def execTelltaleSet (d : Desc) (s : State) : Host.Outcome State Fault Refusal := mailbox .telltaleSet d s

/-- SAFE_STATE_REQUEST (R343). -/
def execSafeStateRequest (d : Desc) (s : State) : Host.Outcome State Fault Refusal := mailbox .safeStateRequest d s

/-- CAL_RUN (R433). -/
def execCalRun (d : Desc) (s : State) : Host.Outcome State Fault Refusal := mailbox .calRun d s

/-- CAL_COMMIT (R440). -/
def execCalCommit (d : Desc) (s : State) : Host.Outcome State Fault Refusal := mailbox .calCommit d s

/-- CAL_STATUS (R381). -/
def execCalStatus (d : Desc) (s : State) : Host.Outcome State Fault Refusal := mailbox .calStatus d s

/-- UPDATE_OPEN (R464). -/
def execUpdateOpen (d : Desc) (s : State) : Host.Outcome State Fault Refusal := mailbox .updateOpen d s

/-- UPDATE_BLOCK (R465). -/
def execUpdateBlock (d : Desc) (s : State) : Host.Outcome State Fault Refusal := mailbox .updateBlock d s

/-- UPDATE_VERIFY (R467). -/
def execUpdateVerify (d : Desc) (s : State) : Host.Outcome State Fault Refusal := mailbox .updateVerify d s

/-- UPDATE_ACTIVATE (R468). -/
def execUpdateActivate (d : Desc) (s : State) : Host.Outcome State Fault Refusal := mailbox .updateActivate d s

/-- UPDATE_CONFIRM (R471). -/
def execUpdateConfirm (d : Desc) (s : State) : Host.Outcome State Fault Refusal := mailbox .updateConfirm d s

/-- UPDATE_ABORT (R464). -/
def execUpdateAbort (d : Desc) (s : State) : Host.Outcome State Fault Refusal := mailbox .updateAbort d s

/-- UPDATE_PREEMPT (R464). -/
def execUpdatePreempt (d : Desc) (s : State) : Host.Outcome State Fault Refusal := mailbox .updatePreempt d s

/-- CHAIN_ENUMERATE (R449). -/
def execChainEnumerate (d : Desc) (s : State) : Host.Outcome State Fault Refusal := mailbox .chainEnumerate d s

/-- CHAIN_SEND (R459). -/
def execChainSend (d : Desc) (s : State) : Host.Outcome State Fault Refusal := mailbox .chainSend d s

/-- UNASSIGNED_OPCODE (R381): a descriptor whose opcode stands outside the table. -/
def execUnassignedOpcode (op : BitVec 16) (d : Desc) (s : State) : Host.Outcome State Fault Refusal :=
  .next (settle (submit op d s))

end Sys2Proof.Machine
end

