-- ==== Sys2Proof/Machine/Decide.lean ====
section
/-! DEFINITION. The decision of the Sluice at END (R177, R273, R287 to R302, R420): the tick that the next boundary begins is
foreseen, its requests are served, and the light caps step. Powers in mW, dimming points and caps in units of 2⁻³¹. -/

namespace Sys2Proof.Machine

/-! ## The next tick foreseen (R293) -/

/-- The safe sequence of a head may have its SAFETY grant: its window is shown, and its link and scanner are ready (R418, R420). -/
def safeWanted (s : State) (h : Head) : Bool :=
  winShown s h && linkReady s h && (!s.cfg.heads[h].raster || s.rasters[h].scan == 2)

/-- A head before the turn as the END foresees it: the reset verdict of R296, and a ramp step that lowers the light. -/
def aheadHead (denied : Head → Bool) (h : Head) (s : State) : State :=
  judgePlan h (onHead h (fun d => rampHead false { d with resetOk := !denied h, safeGrant := safeWanted s h, grant := false }) s)

/-- The tick that the next boundary begins, before any rise: the configuration c is live, pending DIM_SETs have applied, and the
heads have turned. `denied` names the heads whose resets are not granted. -/
def foresee (c : Cfg) (denied : Head → Bool) (shed : Bool) (s : State) : State :=
  let s1 := forEach (lvSplit s).1 (applyDim (Vector.replicate 4 false)) { s with cfg := c, links := s.links.map freshLink }
  let s2 := transOver (nextTick s) (onSluice (fun x => { x with shed := shed }) s1)
  let s3 := if darkChange s.cfg c then transStart (nextTick s) s2 else s2
  let s4 := turnSafety (forEach allHeads (aheadHead denied) s3)
  turnHeads (contents s.cfg s4) s4

/-- A head is foreseen to show host content, or the safe sequence. -/
def aheadHost (p : State) (h : Head) : Bool := p.heads[h].mode == .host || p.heads[h].mode == .subst
def aheadSafe (p : State) (h : Head) : Bool := p.heads[h].mode == .safe && winShown p h

/-- The foreseen tick with the rises of some heads granted: starting channels light, targets and corrections step. -/
def withRises (grant : Head → Bool) (p : State) : State :=
  let p1 := forEach (allFin 64) (fun n s =>
    if startingChan s s.cfg n && grant s.cfg.chans[n].st.head then onChan n (fun c => { c with state := 2 }) s else s) p
  forEach allHeads (fun h s => forEach allColours (stepColour h (!grant h)) (stepTargets h (grant h) s)) p1

/-- The LIGHT estimate of a head in the foreseen tick. -/
def aheadEst (p : State) (tmin : Nat) (h : Head) : Rat :=
  headEst p (usedTargets p p.cfg) h (shownRow p h) (litChan p p.cfg) tmin

/-- The rows of a host frame of a head built at a dimming point. -/
def frameRow (p : State) (h : Head) (g : Nat) (k : Colour) : LightRow :=
  let x := p.cfg.heads[h]
  hostRow p p.cfg h x.seq g (rasterScale g x.ras.levelFloor) k

/-- The LIGHT estimate of a host frame of a head built at a dimming point. -/
def frameEst (p : State) (tmin : Nat) (h : Head) (g : Nat) : Rat :=
  headEst p (usedTargets p p.cfg) h (frameRow p h g) (litChan p p.cfg) tmin

/-- The lit channels of a head. -/
def litOf (p : State) (h : Head) : List Chan := (allFin 64).filter fun n => p.cfg.chans[n].st.head == h && litChan p p.cfg n

/-- I_cmd of a channel in a host frame. -/
def frameCmd (p : State) (h : Head) (g : Nat) (n : Chan) : Rat :=
  iCmd p (usedTargets p p.cfg) n (frameRow p h g p.cfg.chans[n].st.colour).lam

/-! ## Light caps (R298 to R301) -/

/-- 1 and 1/20 000 in units of 2⁻³¹. -/
def one31 : Nat := 2 ^ 31
def minCap : Nat := 0x1A36E

/-- The cap of a head at a common factor. -/
def capAt (s : State) (f : Nat) (h : Head) : Nat := max minCap (f * s.heads[h].gBuild / one31)

/-- No channel's command falls by more than 0.0625 × I_MAX below its value for the frame being built (R298). -/
def fallOk (s p : State) (hosts : List Head) (f : Nat) : Bool :=
  hosts.all fun h => (litOf p h).all fun n =>
    let d := s.heads[h]
    let b := d.pressed[bufIdx (!d.buf)]
    let now := iCmd p (usedTargets p p.cfg) n (hostRow p p.cfg h b.seq d.gBuild b.scale p.cfg.chans[n].st.colour).lam
    decide (now - frameCmd p h (min p.heads[h].gR (capAt s f h)) n ≤ (p.cfg.chans[n].st.iMax : Rat) / 16)

/-- The largest number of 0..2³¹ that a falling condition admits, found by halving. -/
def largest (ok : Nat → Bool) : Nat := one31 - searchStart (fun m => ok (one31 - m)) 33 0 one31

/-- The smallest number of 0..2³¹ that a rising condition admits. -/
def smallest (ok : Nat → Bool) : Nat := searchStart ok 33 0 one31

/-- What becomes of the light caps at an END. `first` and `settled` say that LIGHT_CAP is raised. -/
structure CapStep where
  caps    : Vector Nat 4
  f       : Rat
  capping : Bool
  shed    : Bool
  settled : Bool
  tell    : Bool
deriving DecidableEq, Repr

/-- Caps stay as they are; a cut whose estimate fits has settled. -/
def keepCaps (s : State) : CapStep :=
  { caps := Vector.ofFn fun h => s.heads[h].cap, f := s.sluice.capF, capping := false, shed := s.sluice.shed
    settled := true, tell := s.sluice.capping }

/-- Every cap at 1/20 000, with the heads shed or returning (R300). -/
def floorCaps (s : State) (hosts : List Head) (shed : Bool) : CapStep :=
  { caps := Vector.ofFn fun h => if hosts.contains h then minCap else s.heads[h].cap, f := s.sluice.capF
    capping := false, shed := shed, settled := false, tell := shed }

/-- step_down of the LIGHT domain (R298 to R300): `rest` is what the other heads take of the budget. -/
def stepDown (s p : State) (tmin : Nat) (hosts : List Head) (rest budget : Rat) : CapStep :=
  let fits (f : Nat) : Bool :=
    decide (hosts.foldl (fun a h => a + frameEst p tmin h (min p.heads[h].gR (capAt s f h))) rest ≤ budget)
  if !fits 0 then floorCaps s hosts true
  else
    let f1 := largest fits
    let f2 := smallest (fallOk s p hosts)
    let f := max f1 f2
    let settled := decide (f2 ≤ f1)
    if f = one31 then keepCaps s
    else
      { caps := Vector.ofFn fun h => if hosts.contains h then capAt s f h else s.heads[h].cap
        f := (if s.sluice.capping then s.sluice.capF else 1) * ((f : Rat) / (one31 : Rat))
        capping := !settled, shed := false, settled := settled, tell := settled || !s.sluice.capping }

/-- The cap of a head after a rise (R301), none where no cap binds. -/
def capRise (p : State) (d : HeadDyn) (h : Head) : Option Nat :=
  if d.gR ≤ d.cap then none
  else
    let ok (c : Nat) : Bool := (litOf p h).all fun n =>
      decide (frameCmd p h (min d.gR c) n - frameCmd p h d.cap n ≤ (p.cfg.chans[n].st.iMax : Rat) / 16)
    some (max d.cap (largest ok))

/-! ## Requests (R287, R288, R295, R296) -/

/-- What has been granted so far: each domain's sum, and within it the SERVICE and BACKGROUND shares. -/
structure Sums where
  light  : Rat
  device : Rat
  svcL   : Rat
  svcD   : Rat
  bgL    : Rat

/-- Every part of a decision. -/
structure Decision where
  q        : Quotas
  tmin     : Nat
  ahead    : State
  caps     : CapStep
  sums     : Sums
  resets   : Vector Bool 4
  grants   : Vector Bool 4
  rises    : Vector (Option Nat) 4
  held     : Vector Nat 4
  cutL     : Bool
  cutD     : Bool
  trains   : Vector Bool 4
  portUp   : Bool
  portDown : Bool
  slice    : Bool
  series   : Bool
  step     : Bool
  drifts   : Vector Bool 4
  deferred : List (Nat × Nat)

/-- Requests in order, each granted whole or not at all while the sum stays within the budget. -/
def serve {α : Type} (budget : Rat) (ask : α → Option Rat) : List α → Rat → List α × Rat
  | [], sum => ([], sum)
  | x :: r, sum =>
    match ask x with
    | none => serve budget ask r sum
    | some a =>
      if sum + a ≤ budget then
        let y := serve budget ask r (sum + a)
        (x :: y.1, y.2)
      else serve budget ask r sum

/-- The amount of the global mirror resets of a frame: KIND 2 for host content, SAFETY for the safe sequence. -/
def hostResets (p : State) (tmin : Nat) (h : Head) : Option Rat :=
  let d := p.heads[h]
  if p.cfg.heads[h].raster || !aheadHost p h then none
  else match d.pressed[bufIdx d.buf].seq with
    | some t => some (resetPower p.cfg h t.entries.length tmin)
    | none => some 0

def safeResets (p : State) (tmin : Nat) : Rat :=
  allHeads.foldl (fun a h => if !p.cfg.heads[h].raster && aheadSafe p h then a + resetPower p.cfg h 12 tmin else a) 0

/-- KIND 2: the heads whose resets are granted. -/
def grantResets (p : State) (tmin : Nat) (q : Quotas) : List Head :=
  (serve q.qD (hostResets p tmin) allHeads (safeResets p tmin)).1

/-- The heads whose resets are refused show the safe sequence instead (R296). -/
def settleResets (c : Cfg) (shed : Bool) (q : Quotas) (tmin : Nat) (s : State) : State × List Head :=
  let p := foresee c (fun _ => false) shed s
  let ok := grantResets p tmin q
  let no := allHeads.filter fun h => (hostResets p tmin h).isSome && !ok.contains h
  (if no.isEmpty then p else foresee c (fun h => no.contains h) shed s, no)

/-- A lane group asks for a training attempt (R215, R420). -/
def trainWanted (s : State) (c : Cfg) (g : Head) : Bool :=
  let l := s.links[g]
  s.boot.readyTick.isSome && l.state == 0 && l.retryTick.isNone && l.newRate.isNone && l.step.isNone &&
    (l.wanted || headOn c g || c.wins[g].shown)

/-- A Causeway port asks for one (R448). -/
def portWanted (s : State) (p : Port) : Bool :=
  let c := cwPort p s
  s.boot.readyTick.isSome && c.state == 0 && c.wanted && c.retryTick.isNone

/-- I_A + I_B of a check (R261). -/
def driftCurrent (p : State) (n : Chan) : Rat :=
  2 * iThm p p.cfg n + ((p.cfg.chans[n].st.iMax : Rat) - (iTh p.cfg n : Rat)) * 3 / 4

/-- What is left of the repeat that the next step goes on with, in µs (R434). -/
def repeatLeft (s : State) : Nat :=
  let full := match s.cal.running with
    | some (i, _) => i == 15
    | none => false
  if s.cal.left = 0 then repeatUs s.cal.part.1 full else s.cal.left

/-- The LIGHT estimate of a calibration step (R432): of a CHANNEL step, the 2 ms of φ_cal at its highest level of 1/16, and the two-point
checks of S_n, whichever of both the step holds. Offset, gain and delay are measured without light, and so is REFERENCE. -/
def stepLight (s : State) (c : Cfg) (tmin : Nat) : Rat :=
  if s.cal.part.1 = 1 then
    let n : Chan := Fin.ofNat 64 s.cal.part.2
    let st := c.chans[n].st
    let p : State := { s with cfg := c }
    let left := repeatLeft s
    let after := afterStep 1 left (stepLimit tmin)
    let phi : Rat := if slopeUs < left then (iThm p c n + ((st.iMax : Rat) - (iTh c n : Rat)) / 16) * 2000 else 0
    let slope : Rat := if after = 0 && (allFin 8).any (osServes p st.head st.colour) then
      driftCurrent p n * 2 * (slopeUs : Rat) / 20 else 0
    (phi + slope) * chanVolts s c n / (tmin : Rat)
  else 0

/-- The remaining steps of an item whose first step was granted go on in every tick (R295). -/
def calGoesOn (s : State) : Bool :=
  calReady s && (s.cal.first || (match s.cal.running with
    | some (i, _) => i == 15 && s.cal.part.1 == 1
    | none => false))

/-- The slots that the drift checks of a head have in the foreseen tick (R259, R261). -/
def aheadSlots (p : State) (h : Head) : Nat :=
  let due := ((allFin 64).filter fun n => p.cfg.chans[n].st.head == h && p.chans[n].state == 2 && dueNext p n).length
  (p.cfg.span.blankLen - 6 - 3 * min due (diagSlots p)) / 20

/-- The channels of a head that drift checks take, from the next of the round robin on. -/
def driftList (p : State) (h : Head) : List Chan :=
  ((List.range 64).map fun i => (Fin.ofNat 64 (p.heads[h].driftNext + i) : Chan)).filter fun n =>
    p.cfg.chans[n].st.head == h && p.chans[n].state == 2 && driftOk p n && !calSteps p n

/-- KIND 7 of a head, where it has checks to take. -/
def driftPower (p : State) (tmin : Nat) (h : Head) : Option Rat :=
  let l := driftList p h
  let k := aheadSlots p h
  if p.cfg.heads[h].raster || l.isEmpty || k = 0 || !mayLight p h then none
  else some (((List.range k).foldl (fun a i =>
    match l[i % l.length]? with
    | some n => a + driftCurrent p n * chanVolts p p.cfg n * 2
    | none => a) 0) / (tmin : Rat))

/-! ## The decision (R293) -/

/-- KIND 0 of a head: the rises of its targets, corrections and starting channels, of its dimming step and of its cap. -/
def riseOf (p p1 : State) (tmin : Nat) (e0 : Rat) (d : HeadDyn) (cap : Option Nat) (h : Head) : Rat :=
  let up (a b : Rat) : Rat := if a < b then b - a else 0
  let host := aheadHost p h
  let dim : Rat := if host && rampRaises d then
    up (frameEst p tmin h (min d.gR d.cap)) (frameEst p tmin h (min (rampNext d) d.cap)) else 0
  let lift : Rat := match cap with
    | some c => if host then up (frameEst p tmin h d.cap) (frameEst p tmin h (min d.gR c)) else 0
    | none => 0
  up e0 (aheadEst p1 tmin h) + dim + lift

/-- The light of a colour of a host frame grows from one dimming point to another. -/
def frameGrows (p : State) (h : Head) (a b : Nat) (k : Colour) : Bool :=
  let c := usedTargets p p.cfg
  (litOf p h).any fun n => p.cfg.chans[n].st.colour == k &&
    decide (chanEnergy p c n (frameRow p h a k) < chanEnergy p c n (frameRow p h b k))

/-- The colours of a head, as a mask, with a rise that is held: a channel would start, its REF would rise, or the dimming step or the
cap would raise its light. -/
def heldColours (p p0 p1 : State) (d : HeadDyn) (cap : Option Nat) (h : Head) : Nat :=
  allColours.foldl (fun m k =>
    let ref := (allFin 64).any fun n => ofColour p0.cfg h k n && (startingChan p0 p0.cfg n ||
      (litChan p0 p0.cfg n &&
        decide (iHeld p0 (usedTargets p0 p0.cfg) n (shownRow p0 h k).lam < iHeld p1 (usedTargets p1 p1.cfg) n (shownRow p1 h k).lam)))
    let dim := aheadHost p h && rampRaises d && frameGrows p h (min d.gR d.cap) (min (rampNext d) d.cap) k
    let lift : Bool := match cap with
      | some c => aheadHost p h && frameGrows p h d.cap (min d.gR c) k
      | none => false
    if ref || dim || lift then m + 2 ^ k.val else m) 0

/-- A cut of a domain (R297): a POWER_QUOTA or a step up has brought the new quota below the old one and below what was granted last. -/
def isCut (cause : Bool) (old last : Nat) (q : Rat) : Bool := cause && decide (mw q < old) && decide (mw q < last)

/-- The heads' requests in ascending order, after a sum: each head with whether it is granted. -/
def serveHeads (budget : Rat) (safe : Head → Bool) (amount : Head → Rat) : List Head → Rat → List (Head × Bool) × Rat
  | [], sum => ([], sum)
  | h :: r, sum =>
    let a := amount h
    let ok := safe h || decide (a ≤ 0) || decide (sum + a ≤ budget)
    let y := serveHeads budget safe amount r (if ok && !safe h then sum + a else sum)
    ((h, ok) :: y.1, y.2)

/-- The ramp of a head that the decision sees: pending DIM_SETs have applied, the step has not been taken. -/
def rampSeen (s : State) (h : Head) : HeadDyn :=
  (forEach (lvSplit s).1 (applyDim (Vector.replicate 4 false)) s).heads[h]

/-- step_down where it is needed, or the return from shedding. -/
def lightCaps (s : State) (c : Cfg) (q : Quotas) (tmin : Nat) : CapStep × State × List Head :=
  let y := settleResets c s.sluice.shed q tmin s
  let total (p : State) : Rat :=
    allHeads.foldl (fun a h => a + aheadEst (withRises (fun k => aheadSafe p k) p) tmin h) 0
  if s.sluice.shed then
    let z := settleResets c false q tmin s
    let p := withRises (fun k => aheadSafe z.1 k) z.1
    let hosts := allHeads.filter (aheadHost p)
    let others := allHeads.foldl (fun a h => if hosts.contains h then a else a + aheadEst p tmin h) 0
    if hosts.foldl (fun a h => a + frameEst p tmin h minCap) others ≤ q.qL then (floorCaps s hosts false, z)
    else (keepCaps s, y)
  else if total y.1 ≤ q.qL then (keepCaps s, y)
  else
    let p := withRises (fun k => aheadSafe y.1 k) y.1
    let hosts := allHeads.filter (aheadHost p)
    let others := allHeads.foldl (fun a h => if hosts.contains h then a else a + aheadEst p tmin h) 0
    let k := stepDown s p tmin hosts others q.qL
    if k.shed then (k, settleResets c true q tmin s) else (k, y)

/-- The DISPLAY, SERVICE and BACKGROUND requests of both domains. `ended` is the calibration as the part's end at this END
leaves it; `up` says that a throttle step up takes effect. At the END of a cut neither BACKGROUND nor new SERVICE work is granted
(R297). -/
def decideAll (s : State) (ended : CalDyn) (c : Cfg) (tmin : Nat) (up : Bool) : Decision :=
  let q := quotasOf s c tmin
  let cutL := isCut (s.sluice.wroteQuota || up) s.sluice.qL s.sluice.lastL q.qL
  let cutD := isCut s.sluice.wroteQuota s.sluice.qD s.sluice.lastD q.qD
  let rest := !cutL && !cutD
  let k := lightCaps s c q tmin
  let p := k.2.1
  let sc : State := { s with cal := ended }
  let goes := calGoesOn sc
  -- LIGHT
  let p0 := withRises (fun h => aheadSafe p h) p
  let p1 := withRises (fun _ => true) p
  let base := allHeads.foldl (fun a h => a + aheadEst p0 tmin h) 0
  let calL := if goes then stepLight sc c tmin else 0
  let calm := !k.1.tell && !k.1.shed && !s.sluice.capping && k.1.shed == s.sluice.shed
  let rises : Vector (Option Nat) 4 := Vector.ofFn fun h => if calm then capRise p (rampSeen s h) h else none
  let y := serveHeads q.qL (fun h => aheadSafe p h) (fun h => riseOf p p1 tmin (aheadEst p0 tmin h) (rampSeen s h) rises[h] h)
    allHeads (base + calL)
  let granted (h : Head) : Bool := y.1.any fun x => x.1 == h && x.2
  -- DEVICE
  let dev0 := allHeads.foldl (fun a h => a + (hostResets p tmin h).getD 0) (safeResets p tmin)
  let dev1 := if goes then dev0 + 100 else dev0
  let t := serve q.qD (fun g => if trainWanted s c g then some 350 else none) allHeads dev1
  let w := serve q.qD (fun x => if portWanted s x then some 350 else none) [Port.up, Port.down] t.2
  -- SERVICE
  let svcCapD : Rat := (c.quota.svcD : Rat) * 10
  let svcD0 : Rat := if goes then 100 else 0
  let okD (sum svc a : Rat) : Bool := rest && decide (sum + a ≤ q.qD) && decide (svc + a ≤ svcCapD)
  let ask4 := !s.flash.jobs.isEmpty
  let ok4 := ask4 && okD w.2 svcD0 120
  let d4 : Rat := if ok4 then 120 else 0
  let ask5 := s.cal.commit.isSome
  let ok5 := ask5 && okD (w.2 + d4) (svcD0 + d4) 200
  let d5 : Rat := if ok5 then 200 else 0
  let ask6 := calReady sc && !goes
  let l6 := stepLight sc c tmin
  let okL6 := decide (y.2 + l6 ≤ q.qL) && (c.quota.svcL == 0xFFFF || decide (calL + l6 ≤ (c.quota.svcL : Rat) * 10))
  let ok6 := ask6 && okL6 && okD (w.2 + d4 + d5) (svcD0 + d4 + d5) 100
  let d6 : Rat := if ok6 then 100 else 0
  let sumL := if ok6 then y.2 + l6 else y.2
  -- BACKGROUND
  let b := if rest then serve (min q.qL (sumL + (c.quota.bgL : Rat) * 10)) (driftPower p tmin) allHeads sumL else ([], sumL)
  let asked7 := allHeads.filter fun h => (driftPower p tmin h).isSome
  let def4 := if ask4 && !ok4 then [(2, 4)] else []
  let def5 := if ask5 && !ok5 then [(2, 5)] else []
  let def6 := if ask6 && !ok6 then [(2, 6)] else []
  let def7 := if asked7.any (fun h => !b.1.contains h) then [(3, 7)] else []
  { q := q, tmin := tmin
    ahead := withRises (fun h => granted h) p
    caps := k.1
    sums := { light := b.2, device := w.2 + d4 + d5 + d6, svcL := calL, svcD := svcD0 + d4 + d5 + d6, bgL := b.2 - sumL }
    resets := Vector.ofFn fun h => !k.2.2.contains h
    grants := Vector.ofFn granted
    rises := rises
    held := Vector.ofFn fun h => if granted h then 0 else heldColours p p0 p1 (rampSeen s h) rises[h] h
    cutL := cutL, cutD := cutD
    trains := Vector.ofFn fun g => t.1.contains g
    portUp := w.1.contains .up, portDown := w.1.contains .down
    slice := ok4, series := ok5, step := goes || ok6
    drifts := Vector.ofFn fun h => b.1.contains h
    deferred := def4 ++ def5 ++ def6 ++ def7 }

end Sys2Proof.Machine
end

