-- ==== Sys2Proof/Machine/TickEnd.lean ====
section
/-! DEFINITION. TICK_END: the END of a tick (R21, R42, R60, R134, R177, R216, R221, R242, R264 to R274, R293 to R302, R308, R329,
R405, R406, R434, R435, R454, R468, R479, R511). -/

namespace Sys2Proof.Machine

/-! ## Optical sense inputs (R263, R264) -/

/-- What an input gave in the tick. -/
def osTick (m : EndMeas) (i : Fin 8) : Option OsTick := (m.find? fun x => x.1 == i).map (·.2)

/-- The gain step of the next tick under GAIN_MODE 0: the highest at which the peak would stay at or below 90 % of full scale. Without a
sample it stays. -/
def gainNext (step : Nat) (i : Fin 8) (t : OsTick) : Nat :=
  if t.samples.isEmpty then step
  else ([3, 2, 1].find? fun k => decide (osPeak i t * ((4 ^ k * 10 : Nat) : Rat) ≤ ((9 * 65536 * 4 ^ step : Nat) : Rat))).getD 0

/-- The input serves as proof input of a head that shows its window (R331). -/
def isProofInput (s : State) (i : Fin 8) : Bool := allHeads.any fun h => winShown s h && s.cfg.wins[h].proofOs == i.val

/-- The judgement of an enabled input, with the causes of OS_FAULT that begin. -/
def osJudge (m : EndMeas) (i : Fin 8) (s : State) : State × List Nat :=
  let c := s.cfg.os[i]
  let d := s.oss[i]
  match if c.enable then osTick m i else none with
  | none => (onOs i (fun d => { d with satTicks := 0, faulty := false }) s, [])
  | some t =>
    let sat := if d.step == 0 && osSaturates t then d.satTicks + 1 else 0
    let bad := (if 4 ≤ sat then [0] else []) ++ (if d.step == 3 && decide ((c.darkLimit : Rat) < darkLevel i t) then [1] else [])
    (onOs i (fun d => { d with satTicks := min 4 sat, faulty := !bad.isEmpty }) s, if d.faulty then [] else bad)

/-- The gain that an input has from the next boundary on; a proof input chooses its own as with GAIN_MODE 0. -/
def osGains (m : EndMeas) (i : Fin 8) (s : State) : State :=
  let auto := if s.cfg.os[i].enable then s.cfg.os[i].gainMode == 0 else isProofInput s i
  onOs i (fun d => { d with
    sat := false
    step := match if auto then osTick m i else none with
      | some t => gainNext d.step i t
      | none => d.step }) s

/-! ## The colour loops (R269, R270, R272) -/

/-- The input that serves a head and colour, with what it gave in the tick. -/
def loopInput (m : EndMeas) (s : State) (h : Head) (k : Colour) : Option (Fin 8 × OsTick) :=
  m.find? fun x => osServes s h k x.1

/-- The samples that count for a colour. -/
def loopSamples (s : State) (h : Head) (k : Colour) (t : OsTick) : List OsSample :=
  t.samples.filter fun x => sampleCounts x && windowOf s h k x.entry

/-- The enabled channels of a colour. -/
def loopChans (s : State) (h : Head) (k : Colour) : List Chan :=
  (allFin 64).filter fun n => ofColour s.cfg h k n && s.cfg.chans[n].lv.enable

/-- The loop is frozen: a channel starts, is in fault or has its trim on the way, or the trims of R438 step. -/
def loopFrozen (s : State) (h : Head) (k : Colour) : Bool :=
  calFreezes s h || (loopChans s h k).any fun n =>
    s.chans[n].state == 1 || s.chans[n].state == 3 || s.chans[n].theta != s.chans[n].thetaTarget

/-- A channel of the colour lacks S_n. -/
def loopRelative (s : State) (h : Head) (k : Colour) : Bool :=
  (loopChans s h k).any fun n => s.cal.live.slope[n] == 0xFFFF

/-- S_n in codes per mA, or 1 where the loop runs relative. -/
def loopSlope (s : State) (relative : Bool) (n : Chan) : Rat := if relative then 1 else (s.cal.live.slope[n] : Rat) / 256

/-- E_exp, over the channels open at each sample. -/
def loopExpected (s : State) (h : Head) (k : Colour) (i : Fin 8) (relative : Bool) (l : List OsSample) : Rat :=
  l.foldl (fun a x => a + osGain s i * openLight s h k (loopSlope s relative) x.openMask) 0

/-- A quotient; by 0 it has no stated value and is free (log entry 5). -/
def quotient (a b : Rat) (s : State) : Rat × State := if b = 0 then freeRat s else (a / b, s)

/-- A valid measurement updates ρ_f and the wanted κ. -/
def loopStep (h : Head) (k : Colour) (rho : Rat) (s : State) : State :=
  let l := s.loops[h][k]
  let c := s.cfg.heads[h].loop
  let ref := if l.relative then l.rhoRef.getD rho else 1
  let r := if l.relative then quotient rho ref s else (rho, s)
  let f := if l.fresh then r.1 else l.rho + (r.1 - l.rho) / (c.ticks : Rat)
  let inv := quotient 1 f r.2
  let want := l.kappa * (1 + (c.gain : Rat) / 256 * (inv.1 - 1))
  onLoop h k (fun l => { l with
    rho := f, fresh := false, rhoRef := if l.relative then some ref else l.rhoRef
    kappaTarget := ratClamp (3 / 4) (3 / 2) want }) inv.2

/-- A colour's loop at END. A valid measurement is stored as ρ_ref also while the loop is frozen. -/
def loopEnd (m : EndMeas) (h : Head) (k : Colour) (s : State) : State :=
  let frozen := loopFrozen s h k
  let rel := loopRelative s h k
  let s1 := onLoop h k (fun l => { l with frozen := frozen, relative := rel, fresh := l.fresh || frozen }) s
  if s.cfg.heads[h].loop.en / 2 ^ k.val % 2 == 0 then
    onLoop h k (fun l => { l with kappaTarget := l.kappa, rhoRef := none }) s1
  else if !(allFin 8).any (osServes s h k) then onLoop h k (fun l => { l with kappaTarget := l.kappa }) s1
  else match loopInput m s h k with
    | some (i, t) =>
      let l := loopSamples s h k t
      let e := loopExpected s h k i rel l
      let rho := measured i t l / e
      if l.length < 16 || osSaturates t || s.oss[i].sat || decide (e < 256) then s1
      else if frozen then onLoop h k (fun l => { l with rhoRef := if rel then some (l.rhoRef.getD rho) else l.rhoRef }) s1
      else loopStep h k rho s1
    | none => s1

/-- COLOUR_LIMIT: κ at a bound, or the I_MAX clamp engaged in the foreseen tick, once until it has cleared. -/
def limitEnd (p : State) (h : Head) (k : Colour) (s : State) : State :=
  let l := s.loops[h][k]
  let bound := decide (l.kappa ≤ 3 / 4) || decide (3 / 2 ≤ l.kappa)
  let lam := (shownRow p h k).lam
  let clamp := decide (0 < lam) && (runningOf p h k).any fun n => clamped p (usedTargets p p.cfg) n lam
  let s1 := onLoop h k (fun l => { l with limitTold := bound || clamp }) s
  if (bound || clamp) && !l.limitTold then
    raise (srcColour h) evColourLimit
      (pack [(0, 2, h.val), (2, 2, k.val), (4, 1, bound.toNat), (5, 1, clamp.toNat), (16, 16, u115 l.kappa)]) s1
  else s1

/-! ## What the END takes up before its decision (R42, R266, R308, R420) -/

/-- The temperatures of R266 and R283, as this END reads them. -/
def readTemps (c : Cfg) (s : State) : State :=
  let s1 := forEach (allFin 64) (fun n s => onChan n (fun x => { x with tEnd := chanTemp s c n }) s) s
  forEach (allFin 4) (fun i s =>
    let v := c.lines[i].st
    onLine i (fun l => { l with tEnd := if v.tsEn then tsValue s v.tsSel else 25 }) s) s1

/-- A throttle step that is due takes effect. -/
def throttleEnd (s : State) : State := onTherm (fun t => { t with level := levelNext s, stepDue := none }) s

/-- The effective Tmin of a follower without TMIN, which it sends as CAP. -/
def ownCap (s : State) : Nat :=
  max (throttleTmin s.therm.level) (if s.clk.bwSafe then s.cfg.tick.tmax else s.clk.bwTmin)

/-- CAP at an END where it has changed (R454). -/
def sendCap (s : State) : State :=
  if isFollower s && ownCap s != s.cw.lastCap then
    cwSend .up 0x13 0 (ownCap s) [] (onCw (fun c => { c with lastCap := ownCap s }) s)
  else s

/-! ## Events of the decision, in the order of R511 -/

/-- THERMAL_STEP. -/
def tellStep (old : ThermDyn) (s : State) : State :=
  match old.stepDue with
  | none => s
  | some (up, g) =>
    let y := s.therm.groups[groupFlag g]
    raise srcThermal evThermalStep
      (pack [(0, 4, s.therm.level), (4, 1, up.toNat), (5, 1, g.toNat), (16, 16, t8 y.max), (32, 16, k100 y.slope),
        (48, 16, sat 16 s.clk.nextTmin)]) s

/-- SLUICE_CUT. -/
def tellCut (dom : Nat) (isCut : Bool) (last : Nat) (q : Rat) (s : State) : State :=
  if isCut then raise srcSluice evSluiceCut (pack [(0, 1, dom), (8, 24, last), (32, 24, mw q)]) s else s

/-- QUOTA_BELOW_FLOOR, once until a write at or above the floor. -/
def tellBelow (dom : Nat) (wrote told : Bool) (quota : Nat) (floor_ : Rat) (s : State) : State :=
  if wrote && !told && decide ((quota : Rat) < floor_) then
    raise srcSluice evQuotaBelowFloor (pack [(0, 1, dom), (8, 24, quota), (32, 24, mw floor_)]) s
  else s

/-- LIGHT_CAP. -/
def tellCap (d : Decision) (s : State) : State :=
  if d.caps.tell then
    raise srcSluice evLightCap
      (pack [(0, 1, d.caps.settled.toNat), (1, 1, d.caps.shed.toNat), (16, 16, u115 d.caps.f), (32, 24, mw d.sums.light)]) s
  else s

/-- SLUICE_DEFERRED, once per episode. -/
def tellDeferred (d : Decision) (s : State) : State :=
  let s1 := forEach d.deferred (fun x s =>
    if s.sluice.deferTold.contains x then s
    else raise srcSluice evSluiceDeferred (pack [(0, 2, x.1), (4, 3, x.2)]) s) s
  onSluice (fun x => { x with deferTold := d.deferred }) s1

/-- BANDWIDTH_LIMITED, where the figure of R42 is new. -/
def tellBand (old : Clock) (s : State) : State :=
  if bandNew old s then raise srcCxl evBandwidthLimited (bandWord s.clk.nextTmin s) s else s

/-- GTC_TILE_ERROR (R60). -/
def tellTiles (s : State) : State :=
  forEach (allFin 24) (fun k s => match s.comp.gtcFirst[k] with
    | some t => raise (srcLayer k) evGtcTileError
        (pack [(0, 5, k.val), (16, 16, t.1), (32, 16, t.2), (48, 16, sat 16 s.comp.gtcCount[k])]) s
    | none => s) s

/-- The fills of a build exceed the limit of R134. -/
def fetchesOver (s : State) (h : Head) : Bool :=
  let x := s.cfg.heads[h]
  decide (kOf x.mesh0 * ((x.sh.winW * x.sh.winH : Nat) : Rat) / 128 < ((s.heads[h].fills : Nat) : Rat))

/-- WARP_FETCH_OVER, once until a tick ends within the limit. -/
def tellFetch (h : Head) (s : State) : State :=
  let x := s.cfg.heads[h]
  let high := fetchesOver s h
  let s1 := onHead h (fun d => { d with fetchOver := high }) s
  if high && !s.heads[h].fetchOver then
    let f := if x.sh.winW * x.sh.winH = 0 then 0xFFFF else divUp (s.heads[h].fills * 128 * 256) (x.sh.winW * x.sh.winH)
    raise (srcHead h) evWarpFetchOver (pack [(0, 2, h.val), (16, 16, sat 16 f), (32, 16, sat 16 (kReport x.mesh0))]) s1
  else s1

/-- A DIM_SET of a head waits for the next LATCH. -/
def dimWaits (s : State) (h : Head) : Bool :=
  (lvSplit s).1.any fun w => match w with
    | .dim k _ _ => k == h
    | _ => false

/-- DIM_HELD (R177): the heads whose step is held for the first time at their target, one event per ramp value. -/
def tellDim (d : Decision) (s : State) : State :=
  let heldNow (h : Head) : Bool := rampRaises (rampSeen s h) && !d.grants[h]
  let told (h : Head) : Bool := s.heads[h].heldDim && !dimWaits s h
  let hs := allHeads.filter fun h => heldNow h && !told h
  let s1 := forEach (distinct (hs.map fun h => s.heads[h].gR)) (fun g s' =>
    raise srcTick evDimHeld (pack [(0, 4, headMask fun h => hs.contains h && s.heads[h].gR == g), (32, 32, g)]) s') s
  forEach allHeads (fun h s' => onHead h (fun x => { x with heldDim := told h || heldNow h }) s') s1

/-- COLOUR_HELD (R273), once per held episode of the head. -/
def tellHeld (d : Decision) (h : Head) (s : State) : State :=
  let m := d.held[h]
  let isHeld (k : Colour) : Bool := m / 2 ^ k.val % 2 == 1
  let new := allColours.any isHeld && !allColours.any fun k => s.loops[h][k].heldTold
  let s1 := forEach allColours (fun k s => onLoop h k (fun l => { l with heldTold := isHeld k }) s) s
  if new then raise (srcColour h) evColourHeld (pack [(0, 2, h.val), (2, 3, m)]) s1 else s1

/-- LINK_ERRORS (R221). -/
def tellLink1 (g : Head) (s : State) : State :=
  let l := s.links[g]
  if l.refusals = 0 && l.timeouts = 0 && l.mismatches = 0 && l.blocksLost = 0 then s
  else raise (srcLink g) evLinkErrors
    (pack [(0, 2, g.val), (8, 8, sat 8 l.refusals), (16, 8, sat 8 l.timeouts), (24, 8, sat 8 l.mismatches),
      (32, 8, sat 8 l.blocksLost)]) s

/-- RASTER_LINES_LOST (R242). -/
def tellLines (h : Head) (s : State) : State :=
  let l := s.rasters[h].lostLines
  match l with
  | [] => s
  | y :: _ => raise (srcRaster h) evRasterLinesLost (pack [(0, 2, h.val), (8, 8, sat 8 l.length), (16, 12, y)]) s

/-! ## Calibration (R434, R435) -/

/-- K of each colour in one repeat of PROOF. -/
def proofK (v : Vector ProofSum 3) (k : Colour) : Rat := if v[k].ref = 0 then 0 else v[k].meas / v[k].ref

/-- PROOF judged over its four repeats (quantity 10): the gains, or whether it fails by agreement. -/
def judgeProofItem (reps : List (Vector ProofSum 3)) : Vector Nat 3 × Option Bool :=
  let mean (k : Colour) : Rat := reps.foldl (fun a v => a + proofK v k) 0 / (reps.length : Rat)
  let agrees (k : Colour) : Bool := reps.all fun v => decide (absR (proofK v k - mean k) ≤ absR (mean k) * 2 / 100)
  let plausible (k : Colour) : Bool := decide (1 / 256 ≤ mean k) && decide (mean k ≤ 255)
  (Vector.ofFn fun k => sat 16 (ratRound (mean k * 256)).toNat,
    if !allColours.all agrees then some true else if !allColours.all plausible then some false else none)

/-- The part that ends at this END, with its CAL_DONE. -/
def calEnd (s : State) : State :=
  match s.cal.running with
  | some (2, i) =>
    if s.cal.proofReps.length < 4 || s.cal.abort.isSome then s
    else
      let r := judgeProofItem s.cal.proofReps
      match r.2 with
      | some byAgree => rejectPart 10 byAgree s
      | none =>
        acceptPart { trims := [], chan := none, gains := some (Fin.ofNat 4 i, r.1) }
          (BitVec.ofNat 64 (pack [(0, 16, r.1[0]), (16, 16, r.1[1]), (32, 16, r.1[2])])) s
  | _ => if s.cal.stepping && s.cal.lastStep then endPart s else s

/-! ## The rest of the END -/

/-- CW_ERRORS (R479), and the counts begin again. -/
def cwEnd (p : Port) (s : State) : State :=
  let c := cwPort p s
  let s1 := if c.discards = 0 && c.resends = 0 && c.evResends = 0 then s
    else raise (srcPort p) evCwErrors (pack [(0, 16, sat 16 c.discards), (16, 16, sat 16 c.resends), (32, 16, sat 16 c.evResends)]) s
  onPort p (fun c => { c with
    overTicks := if 64 < c.discards then c.overTicks + 1 else 0, discards := 0, resends := 0, evResends := 0 }) s1

/-- A port had more than 64 discarded packets in each of 4 consecutive ticks, so it fails (R448). -/
def portPoor (p : Port) (s : State) : Bool := decide (4 ≤ (cwPort p s).overTicks) && (cwPort p s).state == 2

/-- The ports that fail for quality: what the failure ends, then CW_LINK of each. -/
def cwQuality (s : State) : State :=
  let bad := [Port.up, Port.down].filter fun p => portPoor p s
  let fresh (p : Port) (s : State) : State := onPort p (fun c => { c with overTicks := if 4 ≤ c.overTicks then 0 else c.overTicks }) s
  let s1 := forEach bad (fun p s => hopEnds p (portStops p s)) (fresh .down (fresh .up s))
  forEach bad (fun p s => tellPort p 3 s) s1

/-- R216. -/
def linkQuality (g : Head) (s : State) : State :=
  let l := s.links[g]
  let n := if s.cfg.links[g].errLimit < l.refusals + l.timeouts + l.badBlocks then l.overTicks + 1 else 0
  let s1 := onLink g (fun l => { l with overTicks := n }) s
  if 4 ≤ n then groupFails g 2 0 (onLink g (fun l => { l with overTicks := 0 }) s1) else s1

/-- R468: an armed activation appends its record before the first boundary that begins a tick of at least AT_TICK. -/
def activateAt (s : State) : State :=
  match s.upd.armed, s.upd.session with
  | some (t, reset), some x =>
    if t ≤ nextTick s then
      forEach (activationJobs x reset (plainJob .erase) s) endJob (onUpd (fun u => { u with armed := none }) s)
    else s
  | _, _ => s

/-- R405, R406: the target, and the write that brings it. The choice is the device's (log entry 28). -/
def voltageEnd (s : State) : State :=
  let p := s.power
  if p.ended || p.writing.isSome then s
  else
    let want := min 850 (650 + 5 * (Config.coreTarget s.free).toNat)
    let s1 := onFree (· + 1) s
    let now := presetMv p p.vid
    let target := max want (now - 10)
    match p.tripAt with
    | some v =>
      if target < v + 20 then s1
      else writePreset target (onPower (fun p => { p with tripAt := none }) s1)
    | none => if target = now then s1 else writePreset target s1
where
  /-- The preset that is not selected takes the target: P2 while P1 is selected, else P1. -/
  writePreset (mv : Nat) (s : State) : State :=
    let i : Fin 4 := if s.power.vid = 1 then 2 else 1
    smbusWrite i mv (onPower (fun p => { p with writing := some (i, mv), tries := 0 }) s)

/-- MODE every 64 ticks (R454). -/
def modeEnd (s : State) : State :=
  if isChainHead s && nextTick s % 64 == 0 then sendMode 3 (nextLive s).tick (nextLive s).span (nextTick s) s else s

/-! ## The decision takes effect -/

/-- What was granted for the next tick. -/
def applyGrants (d : Decision) (s : State) : State :=
  let cap (h : Head) : Nat := match d.rises[h] with
    | some c => if d.grants[h] then (if s.heads[h].gR ≤ c then one31 else c) else d.caps.caps[h]
    | none => d.caps.caps[h]
  let s1 := forEach allHeads (fun h s => onHead h (fun x => { x with
    grant := d.grants[h], resetOk := d.resets[h], cap := cap h, safeGrant := d.ahead.heads[h].safeGrant, driftOk := d.drifts[h] })
    (onLink h (fun l => { l with granted := d.trains[h] }) s)) s
  let s2 := forEach (allFin 64) (fun n s =>
    if s.chans[n].state == 1 && d.ahead.cfg.chans[n].lv.enable then
      onChan n (fun c => { c with started := d.grants[s.cfg.chans[n].st.head] }) s
    else s) s1
  let s3 := onPort .up (fun c => { c with granted := d.portUp }) (onPort .down (fun c => { c with granted := d.portDown }) s2)
  onSluice (fun x => { x with
    slice := d.slice, series := d.series, shed := d.caps.shed, capping := d.caps.capping, capF := d.caps.f }) s3

/-- What the power status record and the next END see of the decision. -/
def noteDecision (d : Decision) (s : State) : State :=
  let q := d.ahead.cfg.quota
  onSluice (fun x => { x with
    qL := mw d.q.qL, qD := mw d.q.qD, floorL := mw d.q.fL, floorD := mw d.q.fD, estL := mw d.sums.light
    rated := mw (rated d.ahead d.ahead.cfg d.tmin), lastL := mw d.sums.light, lastD := mw d.sums.device, wroteQuota := false
    belowL := x.belowL || (x.wroteQuota && decide ((q.light : Rat) < d.q.fL))
    belowD := x.belowD || (x.wroteQuota && decide ((q.device : Rat) < d.q.fD))
    seenLv := s.pendLv.length }) s

/-- The snapshot and all that forms it: the enable of R420, the throttle, the bandwidth figure, temperatures, inputs, loops. The
list holds the OS_FAULT causes that begin. -/
def prepare (m : EndMeas) (s : State) : State × List (Fin 8 × Nat) :=
  let s1 := throttleEnd (onBoot (fun x => { x with enableDue := x.readyTick.isSome && !x.enabled }) s)
  let c := snapshot s1
  let s2 := bandEnd c s1
  let s3 := readTemps c (onClk (fun k => { k with nextTmin := tminOf s2 c }) s2)
  let y := (allFin 8).foldl (fun (a : State × List (Fin 8 × Nat)) i =>
    let z := osJudge m i a.1
    (z.1, a.2 ++ z.2.map fun k => (i, k))) (s3, [])
  let s4 := forEach allHeads (fun h s => forEach allColours (fun k s => loopEnd m h k s) s) y.1
  (forEach (allFin 8) (osGains m) s4, y.2)

/-- The decision of a prepared state. The calibration part that ends here frees or continues its item. `up`
says that the throttle has stepped up. -/
def decided (up : Bool) (s : State) : Decision :=
  let z := onBoot (fun x => { x with enabled := x.enabled || x.enableDue }) s
  let c := snapshot z
  let ended := (calEnd z).cal
  let goes := calGoesOn { z with cal := ended }
  decideAll (onCal (fun _ => { ended with stepping := goes }) z) ended c (tminOf z c) up

/-- The events of the decision and of the tick, places 1 to 14 of R511. -/
def tellEnd (old : State) (d : Decision) (s : State) : State :=
  let x := s.sluice
  let q := d.ahead.cfg.quota
  let s1 := tellStep old.therm s
  let s2 := tellCut 1 d.cutD x.lastD d.q.qD (tellCut 0 d.cutL x.lastL d.q.qL s1)
  let s3 := tellBelow 1 x.wroteQuota x.belowD q.device d.q.fD (tellBelow 0 x.wroteQuota x.belowL q.light d.q.fL s2)
  let s4 := tellTiles (tellBand old.clk (tellDeferred d (tellCap d s3)))
  let s5 := forEach allHeads (tellHeld d) (tellDim d (forEach allHeads tellFetch s4))
  let s6 := forEach allHeads tellLines (forEach allHeads tellLink1 s5)
  cwEnd .down (cwEnd .up (calEnd s6))

/-- Every other event of the END, in ascending source number. -/
def tellRest (d : Decision) (faults : List (Fin 8 × Nat)) (s : State) : State :=
  let s1 := forEach allHeads linkQuality s
  let s2 := forEach allHeads (fun h s => forEach allColours (fun k s => limitEnd d.ahead h k s) s) s1
  let s3 := forEach faults (fun x s => raise (srcOs x.1) evOsFault (pack [(0, 3, x.1.val), (3, 2, x.2)]) s) s2
  cwQuality (activateAt (tellErrors s3))

/-- The END at its instant. -/
def endAt (m : EndMeas) (s : State) : State :=
  let y := prepare m s
  let d := decided (match s.therm.stepDue with
    | some (up, _) => up
    | none => false) y.1
  let s1 := noteDecision d (tellEnd s d (onClk (fun c => { c with phase := .finish }) y.1))
  let s2 := onCal (fun c => { c with stepping := d.step && c.running.isSome && c.abort.isNone }) (applyGrants d s1)
  let s3 := tellRest d y.2 s2
  drainAll (writeMirrors (retryFences (voltageEnd (modeEnd (sendCap s3)))))

/-- TICK_END: 60 µs before the boundary; a cut-off that has not come by then comes first. -/
def tickEnd (m : EndMeas) (s : State) : State :=
  if s.clk.phase == .latch || s.clk.phase == .finish then s
  else
    let s1 := commitCutoff s
    match s1.clk.boundary with
    | some b => endAt m (reach (b - usT 60) s1)
    | none => s

/-- TICK_END (R293). -/
def execTickEnd (m : EndMeas) (s : State) : Host.Outcome State Fault Refusal := .next (settle (tickEnd m s))

end Sys2Proof.Machine
end

