-- ==== Sys2Proof/Machine/Dispatch.lean ====
section
/-! DEFINITION. The dispatch: one arm per command, in the table's order, each a direct call of its meaning. -/

namespace Sys2Proof.Machine

def exec (i : Instr) (s : State) : Host.Outcome State Fault Refusal :=
  match i with
  | .deviceInfo d => Sys2Proof.Machine.execDeviceInfo d s
  | .eventMask d => Sys2Proof.Machine.execEventMask d s
  | .settingsRead d => Sys2Proof.Machine.execSettingsRead d s
  | .settingsWriteMemoryRegion d => Sys2Proof.Machine.execSettingsWriteMemoryRegion d s
  | .settingsWriteCanvas d => Sys2Proof.Machine.execSettingsWriteCanvas d s
  | .settingsWriteHeadColour d => Sys2Proof.Machine.execSettingsWriteHeadColour d s
  | .settingsWriteArray d => Sys2Proof.Machine.execSettingsWriteArray d s
  | .settingsWriteRaster d => Sys2Proof.Machine.execSettingsWriteRaster d s
  | .settingsWritePixelTiming d => Sys2Proof.Machine.execSettingsWritePixelTiming d s
  | .settingsWriteLink d => Sys2Proof.Machine.execSettingsWriteLink d s
  | .settingsWriteOs d => Sys2Proof.Machine.execSettingsWriteOs d s
  | .settingsWriteLine d => Sys2Proof.Machine.execSettingsWriteLine d s
  | .settingsWriteChain d => Sys2Proof.Machine.execSettingsWriteChain d s
  | .layerSet d => Sys2Proof.Machine.execLayerSet d s
  | .layerEnable d => Sys2Proof.Machine.execLayerEnable d s
  | .lutLoad d => Sys2Proof.Machine.execLutLoad d s
  | .coeffLoad d => Sys2Proof.Machine.execCoeffLoad d s
  | .blendOrderSet d => Sys2Proof.Machine.execBlendOrderSet d s
  | .fenceModeSet d => Sys2Proof.Machine.execFenceModeSet d s
  | .commit d => Sys2Proof.Machine.execCommit d s
  | .headSet d => Sys2Proof.Machine.execHeadSet d s
  | .warpLoad d => Sys2Proof.Machine.execWarpLoad d s
  | .timingSet d => Sys2Proof.Machine.execTimingSet d s
  | .planeSeqLoad d => Sys2Proof.Machine.execPlaneSeqLoad d s
  | .dimSet d => Sys2Proof.Machine.execDimSet d s
  | .lightChannelSet d => Sys2Proof.Machine.execLightChannelSet d s
  | .colourTargetSet d => Sys2Proof.Machine.execColourTargetSet d s
  | .lampSet d => Sys2Proof.Machine.execLampSet d s
  | .lampFade d => Sys2Proof.Machine.execLampFade d s
  | .powerQuota d => Sys2Proof.Machine.execPowerQuota d s
  | .thermalSet d => Sys2Proof.Machine.execThermalSet d s
  | .safetyWindowSet d => Sys2Proof.Machine.execSafetyWindowSet d s
  | .telltaleSet d => Sys2Proof.Machine.execTelltaleSet d s
  | .safeStateRequest d => Sys2Proof.Machine.execSafeStateRequest d s
  | .calRun d => Sys2Proof.Machine.execCalRun d s
  | .calCommit d => Sys2Proof.Machine.execCalCommit d s
  | .calStatus d => Sys2Proof.Machine.execCalStatus d s
  | .updateOpen d => Sys2Proof.Machine.execUpdateOpen d s
  | .updateBlock d => Sys2Proof.Machine.execUpdateBlock d s
  | .updateVerify d => Sys2Proof.Machine.execUpdateVerify d s
  | .updateActivate d => Sys2Proof.Machine.execUpdateActivate d s
  | .updateConfirm d => Sys2Proof.Machine.execUpdateConfirm d s
  | .updateAbort d => Sys2Proof.Machine.execUpdateAbort d s
  | .updatePreempt d => Sys2Proof.Machine.execUpdatePreempt d s
  | .chainEnumerate d => Sys2Proof.Machine.execChainEnumerate d s
  | .chainSend d => Sys2Proof.Machine.execChainSend d s
  | .sqTail q v => Sys2Proof.Machine.execSqTail q v s
  | .cqHead q v => Sys2Proof.Machine.execCqHead q v s
  | .queueEnable q en => Sys2Proof.Machine.execQueueEnable q en s
  | .eventRingEnable w => Sys2Proof.Machine.execEventRingEnable w s
  | .evqHead v => Sys2Proof.Machine.execEvqHead v s
  | .hostActive v => Sys2Proof.Machine.execHostActive v s
  | .tickMirrorLowRead => Sys2Proof.Machine.execTickMirrorLowRead s
  | .msixUnmask vec => Sys2Proof.Machine.execMsixUnmask vec s
  | .registerWrite bar2 off data => Sys2Proof.Machine.execRegisterWrite bar2 off data s
  | .tickBoundary check spanCrc => Sys2Proof.Machine.execTickBoundary check spanCrc s
  | .latchEnd m => Sys2Proof.Machine.execLatchEnd m s
  | .diagnosticPulse h slot => Sys2Proof.Machine.execDiagnosticPulse h slot s
  | .driftCheck h pA pB => Sys2Proof.Machine.execDriftCheck h pA pB s
  | .showStart h => Sys2Proof.Machine.execShowStart h s
  | .planeEntryStart h crc => Sys2Proof.Machine.execPlaneEntryStart h crc s
  | .shuntGateOpen h => Sys2Proof.Machine.execShuntGateOpen h s
  | .shuntGateClose h => Sys2Proof.Machine.execShuntGateClose h s
  | .canvasBandWritten => Sys2Proof.Machine.execCanvasBandWritten s
  | .warpStripeDone h => Sys2Proof.Machine.execWarpStripeDone h s
  | .buildComplete => Sys2Proof.Machine.execBuildComplete s
  | .commitCutoff => Sys2Proof.Machine.execCommitCutoff s
  | .tickEnd m => Sys2Proof.Machine.execTickEnd m s
  | .showSpanEnd h crcs proof => Sys2Proof.Machine.execShowSpanEnd h crcs proof s
  | .transitionEnd => Sys2Proof.Machine.execTransitionEnd s
  | .commitAbandoned => Sys2Proof.Machine.execCommitAbandoned s
  | .layerDropped k => Sys2Proof.Machine.execLayerDropped k s
  | .lampFadesDone line => Sys2Proof.Machine.execLampFadesDone line s
  | .snpInv a => Sys2Proof.Machine.execSnpInv a s
  | .snpData a => Sys2Proof.Machine.execSnpData a s
  | .snpCur a => Sys2Proof.Machine.execSnpCur a s
  | .fenceReadComplete a r => Sys2Proof.Machine.execFenceReadComplete a r s
  | .releaseFenceWriteComplete a r => Sys2Proof.Machine.execReleaseFenceWriteComplete a r s
  | .surfaceReadError k plane e a => Sys2Proof.Machine.execSurfaceReadError k plane e a s
  | .canvasAccessError heads traffic e a => Sys2Proof.Machine.execCanvasAccessError heads traffic e a s
  | .planeStoreReadError h plane e a => Sys2Proof.Machine.execPlaneStoreReadError h plane e a s
  | .recordGloballyObserved => Sys2Proof.Machine.execRecordGloballyObserved s
  | .recordWriteRetry e => Sys2Proof.Machine.execRecordWriteRetry e s
  | .eventVectorSignal vec => Sys2Proof.Machine.execEventVectorSignal vec s
  | .cxlLink l => Sys2Proof.Machine.execCxlLink l s
  | .hotReset => Sys2Proof.Machine.execHotReset s
  | .flr => Sys2Proof.Machine.execFlr s
  | .cxlReset => Sys2Proof.Machine.execCxlReset s
  | .busMasterEnableCleared cacheEnable => Sys2Proof.Machine.execBusMasterEnableCleared cacheEnable s
  | .d3hotEntry => Sys2Proof.Machine.execD3hotEntry s
  | .viral => Sys2Proof.Machine.execViral s
  | .ideIntegrityFailure => Sys2Proof.Machine.execIdeIntegrityFailure s
  | .perstN => Sys2Proof.Machine.execPerstN s
  | .configurationRequest r => Sys2Proof.Machine.execConfigurationRequest r s
  | .doeDiscovery index => Sys2Proof.Machine.execDoeDiscovery index s
  | .getVersion => Sys2Proof.Machine.execGetVersion s
  | .getCapabilities body => Sys2Proof.Machine.execGetCapabilities body s
  | .negotiateAlgorithms offer body => Sys2Proof.Machine.execNegotiateAlgorithms offer body s
  | .getDigests => Sys2Proof.Machine.execGetDigests s
  | .getCertificate slot offset length => Sys2Proof.Machine.execGetCertificate slot offset length s
  | .challenge slot body => Sys2Proof.Machine.execChallenge slot body s
  | .getMeasurements index body => Sys2Proof.Machine.execGetMeasurements index body s
  | .keyExchange slot body => Sys2Proof.Machine.execKeyExchange slot body s
  | .finish macOk => Sys2Proof.Machine.execFinish macOk s
  | .heartbeat => Sys2Proof.Machine.execHeartbeat s
  | .keyUpdate body => Sys2Proof.Machine.execKeyUpdate body s
  | .endSession => Sys2Proof.Machine.execEndSession s
  | .planeBlockSend g lane late => Sys2Proof.Machine.execPlaneBlockSend g lane late s
  | .ack g w => Sys2Proof.Machine.execAck g w s
  | .refuse g w => Sys2Proof.Machine.execRefuse g w s
  | .status g w => Sys2Proof.Machine.execStatus g w s
  | .resetDone g w => Sys2Proof.Machine.execResetDone g w s
  | .backchannelEcho g roundTrip w => Sys2Proof.Machine.execBackchannelEcho g roundTrip w s
  | .backchannelTrain g w => Sys2Proof.Machine.execBackchannelTrain g w s
  | .answerTimeout g plane block => Sys2Proof.Machine.execAnswerTimeout g plane block s
  | .planeDeadline h plane => Sys2Proof.Machine.execPlaneDeadline h plane s
  | .linkReadbackFail g lane r => Sys2Proof.Machine.execLinkReadbackFail g lane r s
  | .backchannelSilent g => Sys2Proof.Machine.execBackchannelSilent g s
  | .arrayTiming h plane missing => Sys2Proof.Machine.execArrayTiming h plane missing s
  | .lockLost g lane => Sys2Proof.Machine.execLockLost g lane s
  | .trainingStepTimeout g => Sys2Proof.Machine.execTrainingStepTimeout g s
  | .linkRetrainRetry g => Sys2Proof.Machine.execLinkRetrainRetry g s
  | .rasterSweepEnd h sweep => Sys2Proof.Machine.execRasterSweepEnd h sweep s
  | .rasterLock h milliHz => Sys2Proof.Machine.execRasterLock h milliHz s
  | .rasterAcquireTimeout h => Sys2Proof.Machine.execRasterAcquireTimeout h s
  | .rasterAcquireRetry h => Sys2Proof.Machine.execRasterAcquireRetry h s
  | .rasterLockLost h => Sys2Proof.Machine.execRasterLockLost h s
  | .rasterGuardTrip h slow => Sys2Proof.Machine.execRasterGuardTrip h slow s
  | .rasterLineStart h forward at_ milliHz => Sys2Proof.Machine.execRasterLineStart h forward at_ milliHz s
  | .linePacketSend h lane at_ late => Sys2Proof.Machine.execLinePacketSend h lane at_ late s
  | .channelJudge c m => Sys2Proof.Machine.execChannelJudge c m s
  | .overCurrent c m => Sys2Proof.Machine.execOverCurrent c m s
  | .chFaultRestart c => Sys2Proof.Machine.execChFaultRestart c s
  | .gateFault c => Sys2Proof.Machine.execGateFault c s
  | .energyTrip h c long => Sys2Proof.Machine.execEnergyTrip h c long s
  | .lockstepFault => Sys2Proof.Machine.execLockstepFault s
  | .clockFault => Sys2Proof.Machine.execClockFault s
  | .voltageFault => Sys2Proof.Machine.execVoltageFault s
  | .monitorFaultClear voltage => Sys2Proof.Machine.execMonitorFaultClear voltage s
  | .watchdogExpiry => Sys2Proof.Machine.execWatchdogExpiry s
  | .eccError region uncorrectable heads core plane block => Sys2Proof.Machine.execEccError region uncorrectable heads core plane block s
  | .q2Timeout => Sys2Proof.Machine.execQ2Timeout s
  | .safePathReloadDone passed asset => Sys2Proof.Machine.execSafePathReloadDone passed asset s
  | .thermalSample r => Sys2Proof.Machine.execThermalSample r s
  | .throttleStepDue up group => Sys2Proof.Machine.execThrottleStepDue up group s
  | .substituteHoldEnd sensor => Sys2Proof.Machine.execSubstituteHoldEnd sensor s
  | .throttleFreezeLift => Sys2Proof.Machine.execThrottleFreezeLift s
  | .thermalSensorOk sensor => Sys2Proof.Machine.execThermalSensorOk sensor s
  | .thermalTripClear group => Sys2Proof.Machine.execThermalTripClear group s
  | .timingMarginTrip => Sys2Proof.Machine.execTimingMarginTrip s
  | .powerOnReset => Sys2Proof.Machine.execPowerOnReset s
  | .pinReset => Sys2Proof.Machine.execPinReset s
  | .warmReset => Sys2Proof.Machine.execWarmReset s
  | .resetRelease straps wakeIn => Sys2Proof.Machine.execResetRelease straps wakeIn s
  | .bootStart => Sys2Proof.Machine.execBootStart s
  | .pllLockTimeout => Sys2Proof.Machine.execPllLockTimeout s
  | .readyPoint b => Sys2Proof.Machine.execReadyPoint b s
  | .firstLightTimeout => Sys2Proof.Machine.execFirstLightTimeout s
  | .trialTimeout => Sys2Proof.Machine.execTrialTimeout s
  | .coreHeartbeatTimeout core => Sys2Proof.Machine.execCoreHeartbeatTimeout core s
  | .coreRestart core => Sys2Proof.Machine.execCoreRestart core s
  | .calApplied => Sys2Proof.Machine.execCalApplied s
  | .idcode => Sys2Proof.Machine.execIdcode s
  | .bypass tdi => Sys2Proof.Machine.execBypass tdi s
  | .samplePreload pins => Sys2Proof.Machine.execSamplePreload pins s
  | .extest cells => Sys2Proof.Machine.execExtest cells s
  | .otpProgrammingInstruction b => Sys2Proof.Machine.execOtpProgrammingInstruction b s
  | .echo p => Sys2Proof.Machine.execEcho p s
  | .echoReply p roundTrip => Sys2Proof.Machine.execEchoReply p roundTrip s
  | .boundary p => Sys2Proof.Machine.execBoundary p s
  | .mode p => Sys2Proof.Machine.execMode p s
  | .vote p => Sys2Proof.Machine.execVote p s
  | .cap p => Sys2Proof.Machine.execCap p s
  | .enum p => Sys2Proof.Machine.execEnum p s
  | .enumReport p => Sys2Proof.Machine.execEnumReport p s
  | .enumEnd p => Sys2Proof.Machine.execEnumEnd p s
  | .enumCut p => Sys2Proof.Machine.execEnumCut p s
  | .enumReq p => Sys2Proof.Machine.execEnumReq p s
  | .enumTimeout => Sys2Proof.Machine.execEnumTimeout s
  | .chainBoundaryMiss => Sys2Proof.Machine.execChainBoundaryMiss s
  | .blockStart p => Sys2Proof.Machine.execBlockStart p s
  | .segment p => Sys2Proof.Machine.execSegment p s
  | .blockAck p => Sys2Proof.Machine.execBlockAck p s
  | .blockIncompleteTimeout => Sys2Proof.Machine.execBlockIncompleteTimeout s
  | .updCtrlOpen p => Sys2Proof.Machine.execUpdCtrlOpen p s
  | .updCtrlVerify p => Sys2Proof.Machine.execUpdCtrlVerify p s
  | .updCtrlActivate p => Sys2Proof.Machine.execUpdCtrlActivate p s
  | .updCtrlAbort p => Sys2Proof.Machine.execUpdCtrlAbort p s
  | .updCtrlDisarm p => Sys2Proof.Machine.execUpdCtrlDisarm p s
  | .updResp p => Sys2Proof.Machine.execUpdResp p s
  | .cmd p => Sys2Proof.Machine.execCmd p s
  | .cmdData p => Sys2Proof.Machine.execCmdData p s
  | .cmdResp p => Sys2Proof.Machine.execCmdResp p s
  | .cmdRespTimeout => Sys2Proof.Machine.execCmdRespTimeout s
  | .evt p => Sys2Proof.Machine.execEvt p s
  | .evtAck p => Sys2Proof.Machine.execEvtAck p s
  | .evtAckTimeout => Sys2Proof.Machine.execEvtAckTimeout s
  | .cwPortSilent p => Sys2Proof.Machine.execCwPortSilent p s
  | .cwDelayRemeasure p => Sys2Proof.Machine.execCwDelayRemeasure p s
  | .cwTrainingRetry p => Sys2Proof.Machine.execCwTrainingRetry p s
  | .unassignedOpcode op d => Sys2Proof.Machine.execUnassignedOpcode op d s
  | .badAccessRead bar2 off size => Sys2Proof.Machine.execBadAccessRead bar2 off size s
  | .ideKm secured key => Sys2Proof.Machine.execIdeKm secured key s
  | .cxlKp secured key => Sys2Proof.Machine.execCxlKp secured key s
  | .aerErrorLog kind traffic a => Sys2Proof.Machine.execAerErrorLog kind traffic a s
  | .pmicWriteDone ok => Sys2Proof.Machine.execPmicWriteDone ok s
  | .flashSliceDone finished ok => Sys2Proof.Machine.execFlashSliceDone finished ok s
  | .otpSeriesDone ok => Sys2Proof.Machine.execOtpSeriesDone ok s
  | .bootFault k => Sys2Proof.Machine.execBootFault k s
  | .cwLockLost p => Sys2Proof.Machine.execCwLockLost p s

end Sys2Proof.Machine
end

