-- ==== Sys2Proof/Machine/Step.lean ====
section
/-! DEFINITION. One step: the command at the front of the queue runs. On an empty queue the block idles for one unit of its
own time, 2 ns (R19; log entry 12), and a phase that is due is entered. -/

namespace Sys2Proof.Machine

/-- The front command runs on the state with the rest of the queue; with nothing pending, 2 ns pass. -/
def step (s : State) : Host.Outcome State Fault Refusal :=
  match s.pending with
  | i :: rest => exec i { s with pending := rest }
  | [] => .next (idle s)

/-- s with the command that a table word spells at the front of its queue; s where the word spells none. -/
def State.withFetchWord (s : State) (nbits w : Nat) : State :=
  match decodeTableWord nbits w with
  | some i => { s with pending := i :: s.pending }
  | none => s

end Sys2Proof.Machine
end

