-- ==== Sys2Proof/Safety.lean ====
section
/-! DEFINITION. What every state of a run keeps, and when a queue executes a descriptor, in the terms the statements use. -/

namespace Sys2Proof.Machine

/-- The parts of a state: one per field. -/
inductive Part where
  | clk | cfg | pendLv | openSet | com | comp | heads | links | rasters | chans | loops | oss | lines | sluice | therm | safety
  | cxl | queues | ev | boot | power | otp | cal | flash | upd | cw | jtag | bar2 | planes | canvas | mirrorGen | out | free | pending
deriving DecidableEq, Repr

/-- A part is the same in two states. -/
def Part.same (x : Part) (t s : State) : Prop :=
  match x with
  | .clk => t.clk = s.clk
  | .cfg => t.cfg = s.cfg
  | .pendLv => t.pendLv = s.pendLv
  | .openSet => t.openSet = s.openSet
  | .com => t.com = s.com
  | .comp => t.comp = s.comp
  | .heads => t.heads = s.heads
  | .links => t.links = s.links
  | .rasters => t.rasters = s.rasters
  | .chans => t.chans = s.chans
  | .loops => t.loops = s.loops
  | .oss => t.oss = s.oss
  | .lines => t.lines = s.lines
  | .sluice => t.sluice = s.sluice
  | .therm => t.therm = s.therm
  | .safety => t.safety = s.safety
  | .cxl => t.cxl = s.cxl
  | .queues => t.queues = s.queues
  | .ev => t.ev = s.ev
  | .boot => t.boot = s.boot
  | .power => t.power = s.power
  | .otp => t.otp = s.otp
  | .cal => t.cal = s.cal
  | .flash => t.flash = s.flash
  | .upd => t.upd = s.upd
  | .cw => t.cw = s.cw
  | .jtag => t.jtag = s.jtag
  | .bar2 => t.bar2 = s.bar2
  | .planes => t.planes = s.planes
  | .canvas => t.canvas = s.canvas
  | .mirrorGen => t.mirrorGen = s.mirrorGen
  | .out => (t.out, t.cwScram) = (s.out, s.cwScram)
  | .free => t.free = s.free
  | .pending => t.pending = s.pending

/-- t differs from s in the listed parts alone. -/
structure Only (f : List Part) (t s : State) : Prop where
  /-- Every part outside the list is the same. -/
  same : ∀ x : Part, f.contains x = false → x.same t s

end Sys2Proof.Machine

namespace Sys2Proof

open Machine

/-- The canvas keeps its canonical form: keys rise, and no pixel that is listed is 0. -/
def canvasWf (m : List (Nat × BitVec 72)) : Prop := m.Pairwise (fun a b => a.1 < b.1) ∧ ∀ p ∈ m, p.2 ≠ 0

/-- The byte memories and the canvas keep their canonical form, TICK stays in 48 bits, as does the value, not below it,
that it is to be aligned to (R11, R12, R14), and no journal is over 16 completions (R394). -/
def Safe (s : State) : Prop :=
  Memory.wf s.bar2 = true ∧ Memory.wf s.planes = true ∧ canvasWf s.canvas ∧ s.clk.tick < 2 ^ 48 ∧
    (∀ a, s.clk.alignTo = some a → s.clk.tick ≤ a ∧ a < 2 ^ 48) ∧ ∀ q : Fin 4, s.queues[q].journal.length ≤ 16

/-- The rows in which a reset can begin (R407): the resets themselves, the boundary at which a requested warm reset falls due, and
the end of a recovery write. -/
def mayReset (c : Instr) : Bool :=
  match c with
  | .powerOnReset | .pinReset | .warmReset => true
  | .tickBoundary _ _ => true
  | .flashSliceDone _ _ => true
  | _ => false

/-- The rows that can change a part, for the parts that few rows own; true for every other part. -/
def mayChange (x : Part) (c : Instr) : Bool :=
  match x with
  | .pending => false
  | .planes => (match c with
    | .warpStripeDone _ | .canvasAccessError _ _ _ _ | .eccError _ _ _ _ _ _ | .commitCutoff | .boundary _ | .chainBoundaryMiss
    | .tickEnd _ => true
    | _ => false)
  | .canvas => (match c with | .canvasBandWritten => true | _ => false)
  | .otp => mayReset c || (match c with | .otpSeriesDone _ | .otpProgrammingInstruction _ => true | _ => false)
  | .jtag => mayReset c || (match c with
    | .idcode | .bypass _ | .samplePreload _ | .extest _ | .otpProgrammingInstruction _ => true | _ => false)
  | .mirrorGen => mayReset c || (match c with | .tickEnd _ => true | _ => false)
  | .oss => mayReset c || (match c with | .tickEnd _ | .driftCheck _ _ _ => true | _ => false)
  | .loops => mayReset c || (match c with | .tickEnd _ | .otpSeriesDone _ => true | _ => false)
  | .lines => mayReset c || (match c with | .tickEnd _ | .lampFadesDone _ => true | _ => false)
  | .power => mayReset c || (match c with | .tickEnd _ | .timingMarginTrip | .pmicWriteDone _ => true | _ => false)
  | .therm => mayReset c || (match c with
    | .tickEnd _ | .thermalSample _ | .throttleStepDue _ _ | .substituteHoldEnd _ | .throttleFreezeLift | .thermalSensorOk _
    | .thermalTripClear _ | .calApplied => true
    | _ => false)
  | _ => true

/-- No command waits: every submission queue is empty, no relayed command has come, no CHAIN_SEND is under way. -/
def Quiet (s : State) : Prop :=
  (∀ q : Fin 4, s.queues[q].sqHead = s.queues[q].sqTail) ∧ s.cw.inCmd = [] ∧ s.cw.waitCmd = none

/-- t is u but for what a completion, an interrupt and a record leave: the queues, the CXL port and the output. -/
def Agrees (t u : State) : Prop := t = { u with queues := t.queues, cxl := t.cxl, out := t.out, cwScram := t.cwScram }

/-- A queue executes at once what is submitted to it (R375): it is enabled and empty, its core runs and executes nothing, and
its completion ring has room, and no relayed command waits (R459). -/
def Serves (q : Fin 4) (s : State) : Prop :=
  Memory.wf s.bar2 = true ∧ s.queues[q].en = true ∧ s.queues[q].sqHead = s.queues[q].sqTail ∧ queueIdle q s = true ∧
    cqRoom q s = true ∧ s.cw.inCmd = []

/-- A descriptor passes R378 up to the command's own checks: the check code and ALIVE on Q2 (R335), an assigned opcode that
the queue accepts (R381), no reserved bit set (R9). -/
def Admitted (op : Op) (d : Desc) (s : State) : Prop :=
  (∀ c, op ≠ .unassigned c) ∧ s.boot.stage = .running ∧ waitsForLatch op s = false ∧ op.accepts d.queue = true ∧
    reservedDesc op.code d = none ∧ reservedBits op.fields d.payload.toNat 384 0 = none ∧
    (d.queue = 2 → BitVec.ofNat 16 (descCrc op.code d) = d.crc16 ∧ (s.safety.anyAlive = true ∨ d.alive = s.safety.alive))

/-- What a queue remembers of the descriptor that it executes. -/
def taken (op : Op) (d : Desc) (s : State) : Deferred :=
  { queue := d.queue, opcode := op.code, slot := s.queues[d.queue].sqTail, tag := d.tag, alive := d.alive, via := .ring }

/-- The state in which a submitted descriptor executes: it stands in its slot of BAR2, SQ_TAIL and SQ_HEAD are past it, and on
Q2 it counts as accepted (R335). -/
def fetched (op : Op) (d : Desc) (s : State) : State :=
  let t := s.queues[d.queue].sqTail
  let s1 := onQueue d.queue (fun z => { z with sqTail := t + 1, sqHead := t + 1, waiting := some (taken op d s) })
    (onBar2 (fun m => memPut m (slotOffset d.queue t) (descBytes op.code d)) s)
  if d.queue = 2 then q2Accepted d s1 else s1

/-- The newest completion of a queue's journal (R394). -/
def newest (q : Fin 4) (t : State) : Option Completion := t.queues[q].journal.head?

/-- The descriptor has completed with a status and RESULT: the queue's journal tells it (R377), its indexes are past it, it
waits for nothing, and the other queues are as before. -/
def Told (op : Op) (d : Desc) (status : BitVec 16) (result : Nat) (s t : State) : Prop :=
  (∃ c, newest d.queue t = some c ∧ c.queue = d.queue ∧ c.opcode = op.code ∧ c.slot = s.queues[d.queue].sqTail ∧
    c.tag = d.tag ∧ c.alive = d.alive ∧ c.status = status ∧ c.result = BitVec.ofNat 320 result ∧
    c.tick = BitVec.ofNat 48 s.clk.tick ∧ c.phase = BitVec.ofNat 3 s.clk.phase.code) ∧
  t.queues[d.queue].sqTail = s.queues[d.queue].sqTail + 1 ∧ t.queues[d.queue].sqHead = s.queues[d.queue].sqTail + 1 ∧
  t.queues[d.queue].waiting = none ∧ ∀ q, q ≠ d.queue → t.queues[q] = s.queues[q]

/-- The descriptor has been fetched and has not completed: its queue waits for it. -/
def Awaits (op : Op) (d : Desc) (s t : State) : Prop :=
  t.queues[d.queue].waiting = some (taken op d s) ∧ t.queues[d.queue].journal = s.queues[d.queue].journal ∧
  ∀ q, q ≠ d.queue → t.queues[q] = s.queues[q]

/-- The command answers a next state in which the descriptor has completed with a status and RESULT; but for the queues, the
CXL port and the output, that state is u. -/
def Does (i : Instr) (op : Op) (d : Desc) (s u : State) (status : BitVec 16) (result : Nat) : Prop :=
  ∃ t, exec i s = .next t ∧ Agrees t u ∧ Told op d status result s t

/-- The command answers a next state in which its queue waits for it; but for the queues, the CXL port and the output, that
state is u. -/
def Starts (i : Instr) (op : Op) (d : Desc) (s u : State) : Prop :=
  ∃ t, exec i s = .next t ∧ Agrees t u ∧ Awaits op d s t

/-- DATA of a SETTINGS_WRITE. -/
def recordOf (d : Desc) : BitVec 256 := BitVec.ofNat 256 (fld d.payload 64 256)

/-- A SETTINGS_WRITE of the record `number` is admitted and sets no reserved bit of the record (R385). -/
def RecordAdmitted (number : Nat) (d : Desc) (s : State) : Prop :=
  Admitted .settingsWrite (withRecord number d) s ∧
    reservedBits (recordFields number) (recordOf (withRecord number d)).toNat 256 3 = none

/-- The command answers a next state of which P holds, and which differs from s in the listed parts alone. -/
def Ends (c : Instr) (s : State) (f : List Part) (P : State → Prop) : Prop := ∃ t, exec c s = .next t ∧ Only f t s ∧ P t

/-- Something has left the block since s; after it at most its words on a lane and a vector did. -/
def Sends (o : Output) (s t : State) : Prop := ∃ l, t.out = l ++ o :: s.out ∧ l.length ≤ 2

/-- The rows that a Causeway packet with a destination brings: its type, the port it comes from on the way it travels, the packet
(R446, R447). -/
def packetRow (i : Instr) : Option (BitVec 8 × Port × Packet) :=
  match i with
  | .mode p => some (0x11, .up, p)
  | .vote p => some (0x12, .down, p)
  | .cap p => some (0x13, .down, p)
  | .enumReport p => some (0x21, .down, p)
  | .enumEnd p => some (0x22, .down, p)
  | .enumReq p => some (0x24, .down, p)
  | .blockStart p => some (0x30, .up, p)
  | .segment p => some (0x31, .up, p)
  | .blockAck p => some (0x32, .down, p)
  | .updResp p => some (0x34, .down, p)
  | .cmd p => some (0x40, .up, p)
  | .cmdData p => some (0x41, .up, p)
  | .cmdResp p => some (0x42, .down, p)
  | .evt p => some (0x50, .up, p)
  | .evtAck p => some (0x51, .down, p)
  | _ => none

/-- A packet of a type reaches the device on its port, whole and right. -/
def Arrives (ptype : BitVec 8) (side : Port) (p : Packet) (s : State) : Prop :=
  p.port = side ∧ (cwPort side s).state ≠ 0 ∧ (side = .down → s.cw.cutDown = false) ∧ cwGood ptype p = true

/-- It is for this device. -/
def Heard (ptype : BitVec 8) (side : Port) (p : Packet) (s : State) : Prop := Arrives ptype side p s ∧ forMe p s = true

/-- What a host detach leaves (R368): ATTACHED, HOST_ACTIVE and every EN are 0, no request is outstanding, and with causes 0 to
3 the queue blocks, the event ring block and the MSI-X table hold their reset values, and what LINK_STATUS shows is kept;
configuration and journals are as before. -/
def Detached (cause : Nat) (s t : State) : Prop :=
  t.cxl.attached = false ∧ t.cxl.hostActive = false ∧ t.cxl.outstanding = [] ∧ t.ev.en = false ∧ t.cfg = s.cfg ∧
    (s.cxl.attached = true → t.comp.hostBuild = false) ∧ (∀ l ∈ t.com.lines, l.reading = false) ∧ t.com.relWrites = [] ∧
    (∀ q : Fin 4, t.queues[q] = if cause ≤ 3 then
        { s.queues[q] with en := false, sqTail := 0, sqHead := 0, cqBase := 0, cqHead := 0, cqTail := 0, cqNext := 0 }
      else { s.queues[q] with en := false }) ∧
    (cause ≤ 3 → t.cxl.bme = s.cxl.bme ∧ t.cxl.cacheEn = s.cxl.cacheEn ∧ t.ev.base = 0 ∧ t.ev.head = 0 ∧ t.ev.tail = 0 ∧ t.ev.sizeLog2 = 8 ∧
      t.cxl.msixMask = BitVec.allOnes 64) ∧
    (s.cxl.attached = true → s.com.latchQ = [] → masked srcCxl s = false → s.ev.full = false → s.ev.store.length + 258 < 4096 →
      ∃ e, t.ev.series.head? = some e ∧ e.source = srcCxl ∧ e.code = evHostState ∧ e.payload = BitVec.ofNat 128 (2 * cause))

end Sys2Proof
end

