-- ==== Sys2Proof/Certificates/Slice0/Obligations.lean ====
section
/-! DEFINITION. The statements for the provers. -/

open Sys2Proof Sys2Proof.Machine

/-! ## The mailbox (R375 to R381) -/

/-- The commands of 02 that fill the open set: LAYER_SET sets TWO_PASS at once and its other fields in the open set (R54);
LAYER_ENABLE (R75), LUT_LOAD and COEFF_LOAD (R83) and BLEND_ORDER_SET (R76) join the open set; FENCE_MODE_SET is an lv write
(R100). The memory-region and canvas records (R35, R79): the st fields at once, the sh fields of the canvas in the open set. -/
def Obligations.LayerCommandsTakeEffect : Prop := (
  ∀ (d : Desc) (s : State), Serves d.queue s →
    (Admitted .layerSet d s → layerSetRef d.payload (fetched .layerSet d s) = none →
      Does (.layerSet d) .layerSet d s (addSh [.layer (Fin.ofNat 24 (fld d.payload 0 5)) (layerShOf d.payload)]
        (onCfg (setLayer (Fin.ofNat 24 (fld d.payload 0 5)) (fun l => { l with twoPass := bit d.payload 13 }))
          (fetched .layerSet d s))) stOk 0) ∧
    (Admitted .layerEnable d s → layerEnableRef d.payload (fetched .layerEnable d s) = none →
      Does (.layerEnable d) .layerEnable d s (addSh ((allFin 24).filterMap fun k =>
        if bit d.payload (32 + k.val) then some (.layerEnable k (bit d.payload k.val)) else none) (fetched .layerEnable d s)) stOk 0) ∧
    (Admitted .lutLoad d s → lutLoadRef d.payload (fetched .lutLoad d s) = none →
      Does (.lutLoad d) .lutLoad d s (addLoad (lutWrite d.payload (fetched .lutLoad d s)) (fetched .lutLoad d s)) stOk 0) ∧
    (Admitted .coeffLoad d s → coeffLoadRef d.payload (fetched .coeffLoad d s) = none →
      Does (.coeffLoad d) .coeffLoad d s (addLoad (.coeff (headOf d.payload) (headOf d.payload 2) (bit d.payload 4)
        (coeffLoadOf d.payload (fetched .coeffLoad d s))) (fetched .coeffLoad d s)) stOk 0) ∧
    (Admitted .blendOrderSet d s → orderOk (slotsOf d.payload) = true →
      Does (.blendOrderSet d) .blendOrderSet d s (addSh [.blend (bit d.payload 0) (slotsOf d.payload)] (fetched .blendOrderSet d s))
        stOk 0) ∧
    (Admitted .fenceModeSet d s → fld d.payload 8 4 ≠ 0 → fld d.payload 12 4 ≠ 0 →
      Does (.fenceModeSet d) .fenceModeSet d s (addLv [.fence (fenceOf d.payload)] (fetched .fenceModeSet d s)) stOk 0)) ∧ (
  ∀ (d : Desc) (s : State), Serves d.queue s →
    (let e := withRecord 0x01 d
     let s1 := fetched .settingsWrite e s
     RecordAdmitted 0x01 d s → (writeMemory (recordOf e) s1).1 = none →
      Does (.settingsWriteMemoryRegion d) .settingsWrite e s (onCfg (fun c => { c with mem := memOf (recordOf e) }) s1) stOk 0) ∧
    (let e := withRecord 0x02 d
     let s1 := fetched .settingsWrite e s
     RecordAdmitted 0x02 d s → (writeCanvas (recordOf e) s1).1 = none →
      Does (.settingsWriteCanvas d) .settingsWrite e s
        (addSh [.canvas (bit (recordOf e) 32) #v[fld (recordOf e) 64 24, fld (recordOf e) 88 24, fld (recordOf e) 112 24]]
          (onCfg (fun c => { c with canvas := { c.canvas with w := fld (recordOf e) 0 16, h := fld (recordOf e) 16 16 } }) s1))
        stOk 0))

/-- COMMIT (R87): the open set becomes one pending record, in order behind the others, with the command's tag, its tick and the
fence list as staged, and the open set is empty; RESULT says whether the cut-off has passed and how many records pend. Live
settings and pending lv writes are as before. -/
def Obligations.CommitFreezesTheOpenSet : Prop :=
  ∀ (d : Desc) (s : State), Serves d.queue s → Admitted .commit d s →
    commitRef d.payload (fetched .commit d s) = none →
    ∃ t, exec (.commit d) s = .next t ∧
      Told .commit d stOk (pack [(0, 1, s.clk.cutAt.isSome.toNat), (1, 3, s.com.records.length + 1)]) s t ∧
      t.openSet = [] ∧ t.cfg = s.cfg ∧ t.pendLv = s.pendLv ∧
      t.com.records.map (fun r => (r.tag, r.writes, r.execTick)) =
        s.com.records.map (fun r => (r.tag, r.writes, r.execTick)) ++
          [(BitVec.ofNat 32 (fld d.payload 0 32), s.openSet ++ (if bit d.payload 48 then [.eye (fld d.payload 64 16)] else []),
            s.clk.tick)]

/-- HEAD_SET (R116, R124), WARP_LOAD (R122), TIMING_SET (R155), PLANE_SEQ_LOAD (R159) and DIM_SET (R176): the st fields take
effect at once, sh fields and loads join the open set, lv writes wait for the next LATCH. The head colour (R135), array (R156),
raster (R228) and pixel timing (R233) records. -/
def Obligations.HeadCommandsTakeEffect : Prop := (
  ∀ (d : Desc) (s : State), Serves d.queue s →
    (Admitted .headSet d s → headSetRef d.payload (fetched .headSet d s) = none →
      Does (.headSet d) .headSet d s (addSh [.head (headOf d.payload) (headShOf d.payload)]
        (onCfg (setHead (headOf d.payload) (fun x =>
          { resize (fld d.payload 16 16) (fld d.payload 32 16) x with raster := bit d.payload 9 })) (fetched .headSet d s))) stOk 0) ∧
    (Admitted .warpLoad d s → warpLoadRef d.payload (fetched .warpLoad d s) = none →
      Does (.warpLoad d) .warpLoad d s (addLoad (.mesh (headOf d.payload) (Fin.ofNat 3 (fld d.payload 2 2)) (bit d.payload 4)
        (warpLoadOf d.payload (fetched .warpLoad d s))) (fetched .warpLoad d s)) stOk
        (warpVerdict d.payload (fetched .warpLoad d s)).2) ∧
    (Admitted .timingSet d s → (bit d.payload 0 || bit d.payload 1 || bit d.payload 2) = true →
      timingSetRef d.payload (fetched .timingSet d s) = none →
      Does (.timingSet d) .timingSet d s (if bit d.payload 1 then addSh (timingWrites d.payload) (fetched .timingSet d s)
        else addLv (timingWrites d.payload) (fetched .timingSet d s)) stOk 0) ∧
    (Admitted .planeSeqLoad d s → seqLoadRef d.payload (fetched .planeSeqLoad d s) = none →
      Does (.planeSeqLoad d) .planeSeqLoad d s (addLoad (.seq (headOf d.payload) (seqLoadOf d.payload (fetched .planeSeqLoad d s)))
        (fetched .planeSeqLoad d s)) stOk (seqRefs (seqLoadNext d.payload (fetched .planeSeqLoad d s)) (headOf d.payload)).2) ∧
    (Admitted .dimSet d s → fld d.payload 0 4 ≠ 0 → 0x1A36E ≤ fld d.payload 32 32 → fld d.payload 32 32 ≤ 0x80000000 →
      Does (.dimSet d) .dimSet d s (addLv (dimWrites d.payload) (fetched .dimSet d s)) stOk 0)) ∧ (
  ∀ (d : Desc) (s : State), Serves d.queue s →
    (let e := withRecord 0x03 d
     RecordAdmitted 0x03 d s →
      Does (.settingsWriteHeadColour d) .settingsWrite e s
        (addSh [.headColour (headOf (recordOf e)) (colourOf (recordOf e))] (fetched .settingsWrite e s)) stOk 0) ∧
    (let e := withRecord 0x04 d
     let s1 := fetched .settingsWrite e s
     RecordAdmitted 0x04 d s → (writeArray (recordOf e) s1).1 = none →
      Does (.settingsWriteArray d) .settingsWrite e s (addSh [.arrDither (headOf (recordOf e)) (arrOf (recordOf e)).dither]
        (onCfg (setHead (headOf (recordOf e)) (fun x =>
          { x with arr := { arrOf (recordOf e) with dither := x.arr.dither } })) s1)) stOk (writeArray (recordOf e) s1).2.1) ∧
    (let e := withRecord 0x05 d
     let s1 := fetched .settingsWrite e s
     let v := rasOf (recordOf e)
     RecordAdmitted 0x05 d s → (writeRaster (s.rasters[headOf (recordOf e)].scan != 0) (recordOf e) s1).1 = none →
      Does (.settingsWriteRaster d) .settingsWrite e s
        (addSh [.rasDither (headOf (recordOf e)) v.dither, .rasTrim (headOf (recordOf e)) v.trimF v.trimR]
          (onCfg (setHead (headOf (recordOf e)) (fun x =>
            { x with ras := { v with dither := x.ras.dither, trimF := x.ras.trimF, trimR := x.ras.trimR } })) s1)) stOk 0) ∧
    (let e := withRecord 0x06 d
     let s1 := fetched .settingsWrite e s
     RecordAdmitted 0x06 d s → (writePixelTiming (recordOf e) s1).1 = none →
      Does (.settingsWritePixelTiming d) .settingsWrite e s (writePixelTiming (recordOf e) s1).2 stOk 0))

/-- LIGHT_CHANNEL_SET (R248), COLOUR_TARGET_SET (R275), LAMP_SET and LAMP_FADE (R282). The link (R220), OS (R265) and line (R281)
records: st fields at once, the rest with the next LATCH. -/
def Obligations.LightCommandsTakeEffect : Prop := (
  ∀ (d : Desc) (s : State), Serves d.queue s →
    (Admitted .lightChannelSet d s → chanSetRef d.payload (fetched .lightChannelSet d s) = none →
      Does (.lightChannelSet d) .lightChannelSet d s
        (addLv ([.chan (Fin.ofNat 64 (fld d.payload 0 6)) (chanLvOf d.payload)] ++
            if bit d.payload 9 then [.faultClear (Fin.ofNat 64 (fld d.payload 0 6))] else [])
          (onCfg (fun c => { c with chans := upd c.chans (Fin.ofNat 64 (fld d.payload 0 6)) (fun x =>
            { x with st := chanStOf d.payload }) }) (fetched .lightChannelSet d s))) stOk 0) ∧
    (Admitted .colourTargetSet d s → colourTargetRef d.payload (fetched .colourTargetSet d s) = none →
      Does (.colourTargetSet d) .colourTargetSet d s (colourTargetNext d.payload (fetched .colourTargetSet d s)) stOk 0) ∧
    (Admitted .lampSet d s → lampSetRef d.payload (fetched .lampSet d s) = none →
      Does (.lampSet d) .lampSet d s (addLv [.lampTargets (headOf d.payload) (fld d.payload 8 7)
        (lampVals d.payload (fetched .lampSet d s))] (fetched .lampSet d s)) stOk 0) ∧
    (Admitted .lampFade d s → 1 ≤ fld d.payload 16 8 → fld d.payload 16 8 ≤ 128 →
      fld d.payload 8 7 + fld d.payload 16 8 ≤ s.cfg.lines[headOf d.payload].st.nodes → fld d.payload 24 2 ≤ 1 →
      Does (.lampFade d) .lampFade d s (addLv [.lampFade (headOf d.payload) (fld d.payload 8 7) (fld d.payload 16 8)
        (bit d.payload 24) (fld d.payload 32 16)] (fetched .lampFade d s)) stOk 0)) ∧ (
  ∀ (d : Desc) (s : State), Serves d.queue s →
    (let e := withRecord 0x07 d
     let s1 := fetched .settingsWrite e s
     let v := linkOf (recordOf e)
     RecordAdmitted 0x07 d s → (writeLink (recordOf e) s1).1 = none →
      Does (.settingsWriteLink d) .settingsWrite e s (addLv [.errLimit (headOf (recordOf e)) v.errLimit]
        (onCfg (fun c => { c with links := upd c.links (headOf (recordOf e)) (fun l => { v with errLimit := l.errLimit }) }) s1))
        stOk 0) ∧
    (let e := withRecord 0x08 d
     let s1 := fetched .settingsWrite e s
     let i : Fin 8 := Fin.ofNat 8 (fld (recordOf e) 0 3)
     let v := osOf (recordOf e)
     RecordAdmitted 0x08 d s → (writeOs (recordOf e) s1).1 = none →
      Does (.settingsWriteOs d) .settingsWrite e s (addLv [.os i v.enable v.gainMode v.darkLimit]
        (onCfg (fun c => { c with os := upd c.os i (fun x => { x with head := v.head, colours := v.colours }) }) s1)) stOk 0) ∧
    (let e := withRecord 0x09 d
     let s1 := fetched .settingsWrite e s
     RecordAdmitted 0x09 d s → (writeLine (recordOf e) s1).1 = none →
      Does (.settingsWriteLine d) .settingsWrite e s (addLv [.line (headOf (recordOf e)) (lineLvOf (recordOf e))]
        (onCfg (fun c => { c with lines := upd c.lines (headOf (recordOf e)) (fun x => { x with st := lineStOf (recordOf e) }) }) s1))
        stOk 0))

/-- POWER_QUOTA (R290, R302) and THERMAL_SET (R308): lv writes; POWER_QUOTA answers the quotas that the next END would form.
CAL_RUN (R434), CAL_COMMIT (R439) and CAL_STATUS (R442). CAL_RUN makes its item pending; CAL_COMMIT starts the two OTP series of
the lowest generation that is free; CAL_STATUS answers the last report of the item. -/
def Obligations.PowerAndCalibrationCommandsTakeEffect : Prop := (
  ∀ (d : Desc) (s : State), Serves d.queue s →
    (Admitted .powerQuota d s →
      let s1 := fetched .powerQuota d s
      let z := quotaAfter d.payload s1
      ∃ t, exec (.powerQuota d) s = .next t ∧ Told .powerQuota d stOk (pack [(0, 24, mw z.qL), (32, 24, mw z.qD)]) s t ∧
        t.pendLv = s.pendLv ++ [.quota (quotaOf d.payload)] ∧ t.sluice.wroteQuota = true ∧
        Agrees t { s1 with pendLv := t.pendLv, sluice := t.sluice }) ∧
    (Admitted .thermalSet d s → thermalSetRef (thermOf d.payload) = none →
      Does (.thermalSet d) .thermalSet d s (addLv [.therm (thermOf d.payload)] (fetched .thermalSet d s)) stOk 0)) ∧ (
  ∀ (d : Desc) (s : State), Serves d.queue s →
    (Admitted .calRun d s → calRunRef d.payload (fetched .calRun d s) = none →
      ∃ t, exec (.calRun d) s = .next t ∧
        Told .calRun d stOk (pack [(0, 16, (calTimeSteps s (fld d.payload 0 4)).1),
          (16, 8, sat 8 (calTimeSteps s (fld d.payload 0 4)).2)]) s t ∧
        t.cal.running = some (fld d.payload 0 4, fld d.payload 8 6) ∧
        (calReport t (fld d.payload 0 4) (fld d.payload 8 6)).state = 1 ∧
        t.cal.live = s.cal.live ∧ t.otp = s.otp ∧ Agrees t { fetched .calRun d s with cal := t.cal }) ∧
    (Admitted .calCommit d s → calCommitRef d.payload s = none → ∀ g, freeGen s.otp = some g → vppOk s = true →
      Starts (.calCommit d) .calCommit d s (onCal (fun c => { c with
        commit := some (g, BitVec.ofNat 32 (fld d.payload 0 32), BitVec.ofNat 16 (fld d.payload 32 16), 2)
        granted := false }) (fetched .calCommit d s))) ∧
    (Admitted .calStatus d s → ranges (calItemOk (fld d.payload 0 4) (fld d.payload 8 6)) = none →
      Does (.calStatus d) .calStatus d s (fetched .calStatus d s) stOk
        (reportWord (calReport s (fld d.payload 0 4) (fld d.payload 8 6)))))

/-- SAFETY_WINDOW_SET (R327), TELLTALE_SET (R324, R344) and SAFE_STATE_REQUEST (R343). The first two also prepare the layouts of the
states that the next LATCH makes live. A request for the window or for the dark form is
executed in any mode: the device is then in the safe state, and a dark device stays dark. A release is accepted where no latched
and no standing cause holds it, and waits for the next LATCH. -/
def Obligations.SafetyCommandsTakeEffect : Prop :=
  ∀ (d : Desc) (s : State), Serves d.queue s →
    (Admitted .safetyWindowSet d s → safetyWindowRef d.payload (fetched .safetyWindowSet d s) = none →
      Does (.safetyWindowSet d) .safetyWindowSet d s
        (prepareLayouts false (addLv [.win (headOf d.payload) (bit d.payload 8) #v[fld d.payload 48 16, fld d.payload 64 16, fld d.payload 80 16]]
          (onCfg (fun c => { c with wins := upd c.wins (headOf d.payload) (fun w => { w with
            proofOs := fld d.payload 12 4, wx := fld d.payload 16 16, wy := fld d.payload 32 16 }) })
            (fetched .safetyWindowSet d s)))) stOk 0) ∧
    (Admitted .telltaleSet d s → fld d.payload 0 64 / 2 ^ telltaleCount s = 0 →
      Does (.telltaleSet d) .telltaleSet d s (prepareLayouts true (onSafety (fun y => { y with ttDue := false })
        (addLv [.telltale (BitVec.ofNat 64 (fld d.payload 0 64)) (BitVec.ofNat 64 (fld d.payload 64 64))
          (BitVec.ofNat 64 (fld d.payload 128 64))] (fetched .telltaleSet d s)))) stOk
        (pack [(0, 48, nextTick s), (48, 1, (s.safety.mode == .dark && s.safety.darkNow).toNat)])) ∧
    (Admitted .safeStateRequest d s → fld d.payload 0 2 ≤ 1 → s.ev.store.length < 4096 →
      ∃ t, exec (.safeStateRequest d) s = .next t ∧ Told .safeStateRequest d stOk 0 s t ∧
        t.safety.mode = (if fld d.payload 0 2 = 1 ∨ s.safety.mode = .dark then .dark else .window) ∧
        t.safety.causes = s.safety.causes ||| 0x4000 ∧ t.safety.safeN = true ∧ t.cfg = s.cfg) ∧
    (Admitted .safeStateRequest d s → fld d.payload 0 2 = 2 → inSafe s = true → s.safety.latched = false →
      s.safety.standing = 0 → s.safety.noRelease = false →
      Does (.safeStateRequest d) .safeStateRequest d s
        (onSafety (fun y => { y with exitDue := true }) (fetched .safeStateRequest d s)) stOk 0)

/-- DEVICE_INFO (R381), EVENT_MASK (R387), SETTINGS_READ (R384), and an opcode outside the table (R378), which completes with
STATUS_OPCODE and changes nothing. -/
def Obligations.SystemCommandsTakeEffect : Prop :=
  ∀ (d : Desc) (s : State), Serves d.queue s →
    (Admitted .deviceInfo d s →
      ∃ r, Does (.deviceInfo d) .deviceInfo d s (fetched .deviceInfo d s) stOk r ∧ r % 2 ^ 16 = 0x6440 ∧
        r / 2 ^ 24 % 2 ^ 8 = s.otp.variant.toNat ∧ r / 2 ^ 32 % 2 ^ 16 = s.boot.fwVersion.toNat ∧
        r / 2 ^ 64 % 2 ^ 64 = Config.serial.toNat ∧ r / 2 ^ 129 % 2 ^ 9 = s.cw.addr % 2 ^ 9 ∧
        r / 2 ^ 192 % 2 ^ 48 = s.clk.tick % 2 ^ 48) ∧
    (Admitted .eventMask d s →
      let g : Fin 8 := Fin.ofNat 8 (fld d.payload 0 3)
      let sel := BitVec.ofNat 64 (fld d.payload 128 64)
      let m := (s.ev.masks[g] &&& ~~~sel) ||| (BitVec.ofNat 64 (fld d.payload 64 64) &&& sel)
      (g = 6 → sel &&& ~~~BitVec.ofNat 64 (fld d.payload 64 64) = 0) →
      (g = 7 → sel &&& ~~~BitVec.ofNat 64 (fld d.payload 64 64) &&& 3 = 0) →
      Does (.eventMask d) .eventMask d s (onEv (fun v => { v with masks := v.masks.set g m }) (fetched .eventMask d s)) stOk m.toNat) ∧
    (Admitted .settingsRead d s → ∀ n, recordIndexes (fld d.payload 0 8) = some n → fld d.payload 8 8 < n →
      readableOn d.queue (fld d.payload 0 8) = true →
      Does (.settingsRead d) .settingsRead d s (fetched .settingsRead d s) stOk
        (recordWord (fld d.payload 0 8) (fld d.payload 8 8) (if bit d.payload 16 then prospect s else s.cfg) s +
          pendingMask (fld d.payload 0 8) (fld d.payload 8 8) s * 2 ^ 256)) ∧
    (∀ c : BitVec 16, opOf c = .unassigned c → s.boot.stage = .running → waitsForLatch (.unassigned c) s = false → d.queue ≠ 2 →
      Does (.unassignedOpcode c d) (.unassigned c) d s (fetched (.unassigned c) d s) stOpcode 0)

/-! ## Update and chain commands of the mailbox (R449, R459, R464 to R470, R478) -/

/-- UPDATE_OPEN (R464, R465). A new session of this device empties the staging slot by a record and an erase; an image that is
already staged or verified there is taken up where it stands; the session in progress for the same image resumes, one of the chain
is joined. UPDATE_BLOCK and UPDATE_VERIFY in a session of this device alone (R465, R467): a block whose CRC is right goes to the
flash, one that is stored already is answered with RESULT 1 in every state of the session, and one that is stored with another CRC
is refused (the model's choice: log entry 87); a staged image is verified and its slot's
record says so, or the slot is emptied with the cause. -/
def Obligations.UpdateSessionsTakeEffect : Prop := (
  ∀ (d : Desc) (s : State), Serves d.queue s → Admitted .updateOpen d s →
    let s1 := fetched .updateOpen d s
    let r := openOf d.payload
    let how := openHow false r s1
    updateOpenRef d.payload s1 = none →
    (∀ st, how = .refused st → Does (.updateOpen d) .updateOpen d s s1 st 0) ∧
    (r.scope = false → how = .fresh 1 → Starts (.updateOpen d) .updateOpen d s
      (addJob (plainJob .erase) (addJob { plainJob (.record (emptied s1)) with tell := some 0, answer := some (stOk, 0) }
        (newSession false r 1 s1)))) ∧
    (∀ st, r.scope = false → how = .fresh st → st ≠ 1 →
      Does (.updateOpen d) .updateOpen d s (tellUpdate 0 (newSession false r st s1)) stOk (1 + st * 2 ^ 41)) ∧
    (∀ st, r.scope = false → how = .resumed st → Does (.updateOpen d) .updateOpen d s
      (onUpd (fun u => { u with session := u.session.map fun x => { x with last := s.clk.now } }) s1) stOk (1 + st * 2 ^ 41)) ∧
    (r.scope = false → how = .joined → Does (.updateOpen d) .updateOpen d s
      (onUpd (fun u => { u with session := u.session.map fun x => { x with joined := true, last := s.clk.now } }) s1) stOk
      (2 ^ 10 + 2 ^ 40)) ∧
    (r.scope = true → how = .fresh 1 → ∃ t, exec (.updateOpen d) s = .next t ∧ Awaits .updateOpen d s t ∧
      t.upd.wait = some { op := 0, expect := followers s, answers := [], own := none } ∧ t.flash = (openEffect false r how
        { plainJob .erase with answer := some (stOk, 0) } s1).flash)) ∧ (
  ∀ (d : Desc) (s : State) (x : Session), Serves d.queue s → s.upd.session = some x → x.chain = false → x.scope = false →
    let here (u : State) : State := onUpd (fun v => { v with session := some { x with last := s.clk.now } }) u
    (Admitted .updateBlock d s →
      let s1 := fetched .updateBlock d s
      let b := fld d.payload 0 5
      let bytes := staged s1 (loadOff d.payload) (blockLength x.length b)
      b < blockCount x.length → stageRef (loadOff d.payload) (blockLength x.length b) = none →
      (crc32c bytes ≠ loadCrc d.payload → Does (.updateBlock d) .updateBlock d s s1 stCrc 0) ∧
      (crc32c bytes = loadCrc d.payload →
        (x.stored.getLsbD b = true → storedCrc s b = some (loadCrc d.payload) →
          Does (.updateBlock d) .updateBlock d s (here s1) stOk 1) ∧
        (x.stored.getLsbD b = true → storedCrc s b ≠ some (loadCrc d.payload) →
          Does (.updateBlock d) .updateBlock d s s1 stSessionState 0) ∧
        (x.stored.getLsbD b = false → Starts (.updateBlock d) .updateBlock d s
          (here (addJob { plainJob (.block b bytes) with answer := some (stOk, 0) } s1))))) ∧
    (Admitted .updateVerify d s →
      let s1 := fetched .updateVerify d s
      let r := nextRecord s
      (x.state = 1 → Does (.updateVerify d) .updateVerify d s s1 stSessionState 0) ∧
      (x.state = 3 → Does (.updateVerify d) .updateVerify d s (here s1) stOk 1) ∧
      (x.state = 2 → verifyCause x s = none → Starts (.updateVerify d) .updateVerify d s
        (addJob { plainJob (.record (withState (stagingOf r) 2 r)) with sess := some 3, tell := some 0, answer := some (stOk, 1) }
          (here s1))) ∧
      (∀ c, x.state = 2 → verifyCause x s = some c → Starts (.updateVerify d) .updateVerify d s
        (addJob { plainJob (.record (emptied s)) with sess := some 0, tell := some 3, answer := some (stSignature, 2 ^ 19 + c * 2 ^ 20) }
          (here s1)))))

/-- UPDATE_ACTIVATE, UPDATE_CONFIRM, UPDATE_ABORT and UPDATE_PREEMPT (R464, R468 to R470). An activation at AT_TICK 0 writes its
record and resets the device at the next boundary; one at a later tick is armed; CONFIRM ends a trial; ABORT ends this device's
session and empties its slot, and PREEMPT does so with a chain session that has been silent for 5 s. -/
def Obligations.UpdateEndsTakeEffect : Prop :=
  ∀ (d : Desc) (s : State), Serves d.queue s →
    (∀ x, Admitted .updateActivate d s → s.upd.session = some x → x.chain = false → x.scope = false →
      let s1 := fetched .updateActivate d s
      let reset := bit d.payload 0
      let t := fld d.payload 64 48
      let here (u : State) : State := onUpd (fun v => { v with session := some { x with last := s.clk.now } }) u
      (∀ st, atTickOk s t = true → activateRef x reset s = some st → Does (.updateActivate d) .updateActivate d s s1 st 0) ∧
      (t = 0 → activateRef x reset s = none → x.pkg = false → Starts (.updateActivate d) .updateActivate d s
        (addJob { plainJob (.record (activation x reset (nextRecord s))) with
          sess := some 0, tell := some 0, reset := true, answer := some (stOk, 1) } (here s1))) ∧
      (t ≠ 0 → s.clk.tick + 8 ≤ t → t ≤ s.clk.tick + 65536 → activateRef x reset s = none →
        Does (.updateActivate d) .updateActivate d s (here (onUpd (fun u => { u with armed := some (t, reset) }) s1)) stOk 1)) ∧
    (Admitted .updateConfirm d s →
      let s1 := fetched .updateConfirm d s
      let r := nextRecord s
      (r.state[activeOf r] ≠ 3 → Does (.updateConfirm d) .updateConfirm d s s1 stImageState 0) ∧
      (r.state[activeOf r] = 3 → Starts (.updateConfirm d) .updateConfirm d s
        (addJob { plainJob (.record { withState (activeOf r) 4 r with trials := 0, set := r.set.set (stagingOf r) r.set[activeOf r] }) with
          tell := some 0, answer := some (stOk, 0) } (onUpd (fun u => { u with trialLeft := none }) s1)))) ∧
    (Admitted .updateAbort d s →
      let s1 := fetched .updateAbort d s
      (s.upd.session = none → Does (.updateAbort d) .updateAbort d s s1 stSessionState 0) ∧
      (∀ x, s.upd.session = some x → x.chain = true → x.joined = true → Does (.updateAbort d) .updateAbort d s
        (onUpd (fun u => { u with session := some { x with joined := false } }) s1) stOk 0) ∧
      (∀ x, s.upd.session = some x → x.chain = false → x.scope = false → Starts (.updateAbort d) .updateAbort d s
        (addJob { plainJob (.record (emptied s)) with sess := some 0, tell := some 0, answer := some (stOk, 0) }
          (onUpd (fun u => { u with armed := none, transit := [], held := none }) s1)))) ∧
    (∀ x, Admitted .updatePreempt d s → s.upd.session = some x → x.chain = true →
      let s1 := fetched .updatePreempt d s
      (s.clk.now ≤ x.last + 2500000000 → Does (.updatePreempt d) .updatePreempt d s s1 stPreemptDenied 0) ∧
      (x.last + 2500000000 < s.clk.now → Starts (.updatePreempt d) .updatePreempt d s
        (addJob { plainJob (.record (emptied s)) with sess := some 0, tell := some 1, answer := some (stOk, 0) }
          (onUpd (fun u => { u with armed := none, transit := [], held := none }) s1))))

/-- CHAIN_ENUMERATE (R449, R450), CHAIN_SEND (R459) and the chain record (R478). Where CW_D does not run, the head device
enumerates a chain of itself alone (the model's choice: log entry 31). A CHAIN_SEND waits for the answers of its targets. -/
def Obligations.ChainCommandsTakeEffect : Prop :=
  ∀ (d : Desc) (s : State), Serves d.queue s →
    (Admitted .chainEnumerate d s →
      let s1 := fetched .chainEnumerate d s
      (s.boot.straps.chainRole = false → Does (.chainEnumerate d) .chainEnumerate d s s1 stChainRole 0) ∧
      (s.boot.straps.chainRole = true → s.cw.down.state = 2 → Starts (.chainEnumerate d) .chainEnumerate d s
        (onCw (fun c => { c with waitEnum := true, addr := 0, reports := [], enumAt := some s.clk.now, cutDown := false }) s1)) ∧
      (s.boot.straps.chainRole = true → s.cw.down.state ≠ 2 → ∃ t, exec (.chainEnumerate d) s = .next t ∧
        Told .chainEnumerate d stOk (pack [(0, 10, 1), (10, 10, 1), (20, 1, (isA s).toNat)]) s t ∧
        t.cw.addr = 0 ∧ t.cw.len = 1 ∧ t.cw.reports = [] ∧ t.cw.enumAt = none)) ∧
    (Admitted .chainSend d s → bit d.payload 9 = false → fld d.payload 0 9 ≠ 0 → chainSendRef d.payload (fetched .chainSend d s) = none →
      Starts (.chainSend d) .chainSend d s (onCw (fun c => { c with
        waitCmd := some { bcast := false, expect := [fld d.payload 0 9], answers := [], sent := s.clk.now } })
        (fetched .chainSend d s))) ∧
    (let e := withRecord 0x21 d
     let s1 := fetched .settingsWrite e s
     let v := chainOf (recordOf e)
     RecordAdmitted 0x21 d s → (writeChain (recordOf e) s1).1 = none → s.cw.relay = [] →
      Does (.settingsWriteChain d) .settingsWrite e s
        (addLv [.chain v.evtFwd v.relayEn] (onCw (fun c => { c with relayHead := BitVec.ofNat 16 (fld (recordOf e) 16 16) })
          (onCfg (fun c => { c with chain := { c.chain with relaySize := v.relaySize, relayBase := v.relayBase } }) s1))) stOk 0)
/-! ## The host interface (R355 to R371, R391, R395) -/

/-- The registers of a queue block (R375, R395). A doorbell is ignored while EN is 0, and one that passes SQ_HEAD sets BAD_ACCESS;
else it moves SQ_TAIL, and a descriptor that stands in the slot executes as the queue's submission of it. CQ_HEAD frees records.
EN is ignored outside CXL mode (R351), and a queue that is enabled begins again at CQ_TAIL with WRAP 1. -/
def Obligations.QueueRegistersAct : Prop :=
  ∀ (q : Fin 4) (s : State),
    (∀ v, s.queues[q].en = false → exec (.sqTail q v) s = .next (settle s)) ∧
    (∀ v, s.queues[q].en = true → (s.queues[q].sqHead - s.queues[q].sqTail - 1).toNat < (v - s.queues[q].sqTail).toNat →
      exec (.sqTail q v) s = .next (settle (setErr 0 s))) ∧
    (∀ v, s.queues[q].en = true → (v - s.queues[q].sqTail).toNat ≤ (s.queues[q].sqHead - s.queues[q].sqTail - 1).toNat →
      served s = false → s.cw.inCmd = [] →
      exec (.sqTail q v) s = .next (settle (onQueue q (fun z => { z with sqTail := v }) s))) ∧
    (∀ op d, d.queue = q → Memory.wf s.bar2 = true → s.queues[q].en = true → s.queues[q].sqHead = s.queues[q].sqTail →
      memRead s.bar2 (slotOffset q s.queues[q].sqTail) 64 = descBytes op d →
      exec (.sqTail q (s.queues[q].sqTail + 1)) s = exec (.unassignedOpcode op d) s) ∧
    (∀ v, s.queues[q].sqHead = s.queues[q].sqTail → s.cw.inCmd = [] → (∀ c ∈ s.queues[q].journal, c.issued = true) →
      exec (.cqHead q v) s = .next (settle (onQueue q (fun z => { z with cqHead := v }) s))) ∧
    (∀ v, cxlUp s = false → exec (.queueEnable q v) s = .next (settle s)) ∧
    (cxlUp s = true → exec (.queueEnable q false) s = .next (settle (onQueue q (fun z => { z with en := false }) s))) ∧
    (cxlUp s = true → s.queues[q].en = false → s.queues[q].sqHead = s.queues[q].sqTail → s.cw.inCmd = [] →
      (∀ c ∈ s.queues[q].journal, c.issued = true ∧ c.delivered = true) →
      ∃ w, exec (.queueEnable q true) s = .next (settle (onQueue q (fun z => { z with
        en := true, wrap := true, cqNext := z.cqTail }) (onCxl (fun c => { c with outstanding := w }) s))) ∧
        (∀ x ∈ w, ∀ k, x.id ≠ .cq q k) ∧ w.Sublist s.cxl.outstanding)

/-- The event ring (R391, R395): SIZE_LOG2 outside 8 to 16 is ignored and sets BAD_ACCESS, a change of it while EN is 1 sets
ST_WRITE (R361); EN = 1 starts the ring at ACK_MARK + 1 without moving its tail, and EN = 0 shows ACK_MARK in ACK_SEQ. EVQ_HEAD
acknowledges the latest record that it passes, and an entry of an earlier delivery acknowledges no more than its own record. -/
def Obligations.EventRingRegistersAct : Prop :=
  ∀ s : State,
    (∀ w : BitVec 32, bit w 0 = s.ev.en → fld w 1 5 < 8 ∨ 16 < fld w 1 5 →
      exec (.eventRingEnable w) s = .next (settle (onEv (fun v => { v with vecMode := bit w 6, coalesce := fld w 16 16 }) (setErr 0 s)))) ∧
    (∀ w : BitVec 32, bit w 0 = s.ev.en → 8 ≤ fld w 1 5 → fld w 1 5 ≤ 16 → s.ev.en = true → fld w 1 5 ≠ s.ev.sizeLog2 →
      exec (.eventRingEnable w) s = .next (settle (onEv (fun v => { v with vecMode := bit w 6, coalesce := fld w 16 16 }) (setErr 1 s)))) ∧
    (∀ w : BitVec 32, 8 ≤ fld w 1 5 → fld w 1 5 ≤ 16 → s.ev.en = false → bit w 0 = false →
      exec (.eventRingEnable w) s = .next (settle (onEv (fun v => { v with
        sizeLog2 := fld w 1 5, vecMode := bit w 6, coalesce := fld w 16 16 }) s))) ∧
    (∀ w : BitVec 32, cxlUp s = true → fld w 1 5 = s.ev.sizeLog2 → 8 ≤ s.ev.sizeLog2 → s.ev.sizeLog2 ≤ 16 → s.ev.en = true →
      bit w 0 = false → exec (.eventRingEnable w) s = .next (settle (onEv (fun v =>
        { stopRing v with ackSeq := v.ackMark, vecMode := bit w 6, coalesce := fld w 16 16 }) s))) ∧
    (∀ w : BitVec 32, cxlUp s = true → 8 ≤ fld w 1 5 → fld w 1 5 ≤ 16 → s.ev.en = false → bit w 0 = true →
      Ends (.eventRingEnable w) s [.com, .ev, .cxl, .out] fun t =>
        t.ev.en = true ∧ t.ev.hostObs = true ∧ t.ev.sizeLog2 = fld w 1 5 ∧ t.ev.ackSeq = s.ev.ackMark ∧ t.ev.store = s.ev.store ∧
        t.ev.tail = s.ev.tail ∧ (s.ev.hostObs = true → t.ev.ackNext = s.ev.ackNext)) ∧
    (∀ v : BitVec 16, let n := min ((v.toNat % evSize s + evSize s - s.ev.head.toNat % evSize s) % evSize s) s.ev.ring.length
      Ends (.evqHead v) s [.safety, .ev, .cxl, .out] fun t =>
        t.ev.head = BitVec.ofNat 16 (v.toNat % evSize s) ∧
        t.ev.ackMark = (latest s.ev.ackNext (s.ev.ring.take n)).getD s.ev.ackMark ∧
        (s.ev.en = true → t.ev.ackSeq = (latest s.ev.ackNext (s.ev.ring.take n)).getD s.ev.ackMark)) ∧
    (∀ e, s.ev.ring = [e] → s.ev.ackNext = e → s.ev.hostObs = true → s.ev.chainObs = false → s.ev.owed = [] → s.ev.full = false →
      s.ev.store.map (·.seq) = [e] → s.ev.sent = e + 1 → s.ev.head.toNat < evSize s → 1 ≤ s.ev.sizeLog2 → s.ev.sizeLog2 ≤ 16 →
      Ends (.evqHead (BitVec.ofNat 16 ((s.ev.head.toNat + 1) % evSize s))) s [.safety, .ev, .cxl, .out] fun t =>
        t.ev.ackMark = e ∧ t.ev.ackNext = e + 1 ∧ t.ev.ring = [] ∧ t.ev.store = [])

/-- Record writes (R356, R367): the oldest one that is globally observed advances the tail of its ring, and the vector of an
enabled queue is signalled; one that fails is logged (R371) and made again 10 µs later, up to 4 times, and then the host is
detached. The event ring's clause is for a ring that has delivered what the store holds.
MSI-X (R363, R364). A vector that is unmasked is signalled if it pends, and its pending bit clears; one whose interval has
passed is signalled once, and sets its pending bit where it is masked; with the event ring stopped its vectors from 8 on are not. -/
def Obligations.RecordWritesAreObserved : Prop := (
  ∀ (s : State) (w : RingWrite) (r : List RingWrite), s.cxl.outstanding = w :: r →
    let s1 := onCxl (fun c => { c with outstanding := r, retries := 0 }) s
    (∀ q k, w.id = .cq q k → ∃ u : State, exec .recordGloballyObserved s = .next (settle u) ∧
      u = (let s2 := onQueue q (fun x => { x with
            cqTail := x.cqTail + 1, journal := x.journal.map fun c => if c.seq == k then { c with delivered := true } else c }) s1
          if s.queues[q].en then signal (Fin.ofNat 64 (1 + q.val)) s2 else s2)) ∧
    (∀ src, w.id = .evq src → storeAt s.ev.sent s = none → Ends .recordGloballyObserved s [.ev, .cxl, .out] fun t =>
      t.ev = { s.ev with tail := BitVec.ofNat 16 ((s.ev.tail.toNat + 1) % 2 ^ s.ev.sizeLog2) } ∧ t.cxl.outstanding = r) ∧
    (w.id = .relay → Ends .recordGloballyObserved s [.cw, .cxl, .out] fun t =>
      t.cw = { s.cw with relayTail := BitVec.ofNat 16 ((s.cw.relayTail.toNat + 1) % 2 ^ s.cfg.chain.relaySize) } ∧
      t.cxl.outstanding = r) ∧
    (∀ e : BusError,
      (s.cxl.retries < 4 → Ends (.recordWriteRetry e) s [.cxl, .out] fun t =>
        t.cxl.retries = s.cxl.retries + 1 ∧ t.cxl.outstanding = s.cxl.outstanding ∧ (putRecord w s).out <:+ t.out ∧
        t.cxl.errs[errorKind e].1 = s.cxl.errs[errorKind e].1 + 1 ∧
        (s.cxl.errs[errorKind e].1 = 0 → t.cxl.errs[errorKind e].2 = (6, w.addr))) ∧
      (4 ≤ s.cxl.retries → Ends (.recordWriteRetry e) s [.com, .comp, .heads, .chans, .safety, .cxl, .queues, .ev, .out] fun t =>
        Detached 0 s t ∧ t.cxl.errs[errorKind e].1 = s.cxl.errs[errorKind e].1 + 1))) ∧ (
  ∀ (v : Fin 64) (s : State),
    (s.cxl.msixPend.getLsbD v.val = false → exec (.msixUnmask v) s =
      .next (settle (onCxl (fun c => { c with msixMask := c.msixMask &&& ~~~BitVec.ofNat 64 (2 ^ v.val) }) s))) ∧
    (s.cxl.msixPend.getLsbD v.val = true → exec (.msixUnmask v) s =
      .next (settle (emit (.msix v) (onCxl (fun c => { c with
        msixMask := c.msixMask &&& ~~~BitVec.ofNat 64 (2 ^ v.val), msixPend := c.msixPend &&& ~~~BitVec.ofNat 64 (2 ^ v.val)
        lastSignal := c.lastSignal.set v (some s.clk.now) }) s)))) ∧
    (s.cxl.sigDue.getLsbD v.val = false → exec (.eventVectorSignal v) s = .next (settle s)) ∧
    (s.cxl.sigDue.getLsbD v.val = true → v.val < 8 ∨ s.ev.en = true → s.cxl.msixMask.getLsbD v.val = false →
      exec (.eventVectorSignal v) s = .next (settle (emit (.msix v) (onCxl (fun c => { c with
        sigDue := c.sigDue &&& ~~~BitVec.ofNat 64 (2 ^ v.val), lastSignal := c.lastSignal.set v (some s.clk.now) }) s)))) ∧
    (s.cxl.sigDue.getLsbD v.val = true → v.val < 8 ∨ s.ev.en = true → s.cxl.msixMask.getLsbD v.val = true →
      exec (.eventVectorSignal v) s = .next (settle (onCxl (fun c => { c with
        sigDue := c.sigDue &&& ~~~BitVec.ofNat 64 (2 ^ v.val), msixPend := c.msixPend ||| BitVec.ofNat 64 (2 ^ v.val) }) s))) ∧
    (s.cxl.sigDue.getLsbD v.val = true → 8 ≤ v.val → s.ev.en = false →
      exec (.eventVectorSignal v) s = .next (settle (onCxl (fun c => { c with
        sigDue := c.sigDue &&& ~~~BitVec.ofNat 64 (2 ^ v.val) }) s))))

/-- Register accesses (R34, R361, R362). A BAR2 write stores its bytes below 0x3C000 and no others; a BAR2 read answers the window's
bytes, and all ones beyond its 256 KiB. In BAR0 an access of another
size or alignment, or outside it, changes nothing, sets BAD_ACCESS, and a read of it returns all ones; ERR_STATUS clears bits
written 1; HOST_ACTIVE is written at 0x1C. The low half of TICK_MIRROR latches the high half for the next read of 0x14. -/
def Obligations.RegisterAccessesAct : Prop :=
  ∀ (off : Nat) (data : List Byte) (s : State),
    (Memory.wf s.bar2 = true → Ends (.registerWrite true off data) s [.bar2, .cxl, .out] fun t =>
      Memory.wf t.bar2 = true ∧ ∀ a, memGet t.bar2 a = if off ≤ a ∧ a < 0x3C000 ∧ a < off + data.length
        then data.getD (a - off) 0 else memGet s.bar2 a) ∧
    (bar0Ok off data.length = false → exec (.registerWrite false off data) s = .next (settle (setErr 0 s))) ∧
    (data.length = 4 → exec (.registerWrite false 0x24 data) s =
      .next (settle (onCxl (fun c => { c with err := c.err &&& ~~~BitVec.ofNat 7 (leNat data % 128) }) s))) ∧
    (data.length = 4 → exec (.registerWrite false 0x1C data) s = exec (.hostActive (leNat data % 2 == 1)) s) ∧
    (data.length = 4 → exec (.registerWrite false 0x18 data) s = .next (settle s)) ∧
    (∀ n, exec (.badAccessRead true off n) s = .next (settle (emit (.window ((List.range n).map fun i =>
      if off + i < 0x40000 then windowByte s (off + i) else 0xFF)) s))) ∧
    (∀ n, bar0Ok off n = false →
      exec (.badAccessRead false off n) s = .next (settle (emit (.readData (BitVec.allOnes 64)) (setErr 0 s)))) ∧
    exec .tickMirrorLowRead s = .next (settle (emit (.readData (BitVec.ofNat 64 (s.clk.tick % 2 ^ 32)))
      (onCxl (fun c => { c with mirrorHi := some (BitVec.ofNat 32 (tickMirror s / 2 ^ 32)) }) s))) ∧
    (∀ v, s.cxl.mirrorHi = some v → exec (.badAccessRead false 0x14 4) s =
      .next (settle (onCxl (fun c => { c with mirrorHi := none }) (emit (.readData (BitVec.ofNat 64 v.toNat)) s))))

/-- The link, HOST_ACTIVE, the configuration controls and the IDE keys (R351, R359, R365, R369, R370, R416): each takes its value,
and ATTACHED is 1 exactly where every condition of R369 holds. With CXL_EN low the link stays as it is; a request before the
configuration space is ready completes with CRS. The causes of a host detach (R368): a lost link 0, a hot reset 1, an FLR 2, a CXL
reset 3, Bus Master Enable or Cache_Enable cleared 4, D3hot 5, Viral 6, an IDE integrity failure 7. The Viral and IDE failures are
logged (R361, R371). A stream's key is held as it was programmed, over the secured session only (R365). -/
def Obligations.AttachmentFollowsItsConditions : Prop := (
  ∀ s : State,
    let f : List Part := [.com, .comp, .heads, .chans, .safety, .cxl, .ev, .cw, .out]
    (∀ v, Ends (.hostActive v) s f fun t => t.cxl.hostActive = v ∧ t.cxl.attached = attachedNow t ∧ t.cxl.link = s.cxl.link) ∧
    (∀ l : LinkState, s.boot.straps.cxlEn = true → l.l0 = true → widthOk l.width = true → s.cxl.link.l0 = false →
      Ends (.cxlLink l) s f fun t => t.cxl.link = l ∧ t.cxl.attached = attachedNow t ∧ t.cxl.retrains = s.cxl.retrains) ∧
    (∀ l : LinkState, l.l0 = true → widthOk l.width = false → exec (.cxlLink l) s = .next (settle s)) ∧
    (∀ l : LinkState, s.boot.straps.cxlEn = true → l.l0 = true → widthOk l.width = true → s.cxl.link.l0 = true → l.cxlMode = true →
      0 < l.speed.val →
      Ends (.cxlLink l) s f fun t => t.cxl.link = l ∧ t.cxl.attached = attachedNow t ∧ t.cxl.retrains = s.cxl.retrains + 1) ∧
    (∀ l, s.boot.straps.cxlEn = false → exec (.cxlLink l) s = .next (settle s)) ∧
    (s.boot.straps.cxlEn = false → exec .perstN s = .next (settle s)) ∧
    (∀ r, s.cxl.cfgReady = false → exec (.configurationRequest r) s = .next (settle (emit (.config true 0) s))) ∧
    (s.cxl.cfgReady = true →
      exec (.configurationRequest .readId) s = .next (settle (emit (.config false 0x038000B164401EC7) s)) ∧
      exec (.configurationRequest .readSubsystem) s = .next (settle (emit (.config false (BitVec.ofNat 64 (subsystemWord s))) s)) ∧
      exec (.configurationRequest .readCapabilities) s = .next (settle (emit (.config false (BitVec.ofNat 64 dvsecWord)) s)) ∧
      Ends (.configurationRequest (.busMaster true)) s f (fun t => t.cxl.bme = true ∧ t.cxl.attached = attachedNow t) ∧
      Ends (.configurationRequest (.cacheEnable true)) s f (fun t => t.cxl.cacheEn = true ∧ t.cxl.attached = attachedNow t) ∧
      Ends (.configurationRequest .powerD0) s f (fun t => t.cxl.d0 = true ∧ t.cxl.attached = attachedNow t) ∧
      Ends (.configurationRequest (.busMaster false)) s (.queues :: f) (fun t => Detached 4 s t ∧ t.cxl.bme = false) ∧
      Ends (.configurationRequest (.cacheEnable false)) s (.queues :: f) (fun t => Detached 4 s t ∧ t.cxl.cacheEn = false)) ∧
    (∀ secured k, secured = false ∨ s.cxl.spdm ≠ 5 →
      exec (.ideKm secured k) s = .next (settle (emit (.doe 0x7F []) s)) ∧
      exec (.cxlKp secured k) s = .next (settle (emit (.doe 0x7F []) s))) ∧
    (∀ k, s.cxl.spdm = 5 →
      Ends (.ideKm true k) s f (fun t => t.cxl.ideIo = some k ∧ t.cxl.ideCache = s.cxl.ideCache ∧ t.cxl.attached = attachedNow t) ∧
      Ends (.cxlKp true k) s f (fun t => t.cxl.ideCache = some k ∧ t.cxl.ideIo = s.cxl.ideIo ∧ t.cxl.attached = attachedNow t))) ∧ (
  ∀ s : State,
    let f : List Part := [.com, .comp, .heads, .chans, .safety, .cxl, .queues, .ev, .out]
    Ends .hotReset s f (Detached 1 s) ∧ Ends .flr s f (Detached 2 s) ∧ Ends .cxlReset s f (Detached 3 s) ∧
    Ends (.busMasterEnableCleared false) s f (fun t => Detached 4 s t ∧ t.cxl.bme = false) ∧
    Ends (.busMasterEnableCleared true) s f (fun t => Detached 4 s t ∧ t.cxl.cacheEn = false) ∧
    Ends .d3hotEntry s f (fun t => Detached 5 s t ∧ t.cxl.d0 = false) ∧
    Ends .viral s f (fun t => Detached 6 s t ∧ t.cxl.err.getLsbD 5 = true) ∧
    Ends .ideIntegrityFailure s f (fun t => Detached 7 s t ∧ t.cxl.err.getLsbD 6 = true ∧ t.cxl.ideIo = none ∧ t.cxl.ideCache = none) ∧
    (s.boot.straps.cxlEn = true → s.cxl.link.l0 = true → Ends .perstN s f (fun t => Detached 0 s t ∧ t.cxl.link.l0 = false)) ∧
    (∀ l, s.boot.straps.cxlEn = true → s.cxl.link.l0 = true → l.l0 = false →
      Ends (.cxlLink l) s f (fun t => Detached 0 s t ∧ t.cxl.link.l0 = false)))

/-- An error of the port is logged (R361, R367, R371): ERR_STATUS takes the bit of its KIND, and the tick's count of that KIND
rises, with the TRAFFIC and address of the first. DOE and SPDM (R365, R366): discovery walks the indexes 0 to 2; each SPDM request
is answered, in order, once the connection stands where it may be made, and moves the connection; else the SPDM error leaves. The
measurements are the digests of R366. The bodies that R366 leaves to the SPDM standard are the configuration's, and the codes, the
order and the SPDM error are the model's reading (log entry 27). -/
def Obligations.PortServicesAct : Prop := (
  ∀ (k : Fin 7) (tr : Traffic) (a : Addr) (s : State), Ends (.aerErrorLog k tr a) s [.cxl, .out] fun t =>
    (∀ b, errBit k.val = some b → t.cxl.err = s.cxl.err ||| BitVec.ofNat 7 (2 ^ b)) ∧
    (errBit k.val = none → t.cxl.err = s.cxl.err) ∧
    t.cxl.errs[k].1 = s.cxl.errs[k].1 + 1 ∧
    (s.cxl.errs[k].1 = 0 → t.cxl.errs[k].2 = (tr.val, a.toNat)) ∧ (s.cxl.errs[k].1 ≠ 0 → t.cxl.errs[k].2 = s.cxl.errs[k].2) ∧
    (∀ j, j ≠ k → t.cxl.errs[j] = s.cxl.errs[j]) ∧ t.cxl.attached = s.cxl.attached) ∧ (
  ∀ s : State, s.cxl.cfgReady = true →
    (∀ i, i ≤ 2 → exec (.doeDiscovery i) s = .next (settle (emit (.doe 0 (toBytes 4 (pack [(0, 16, 1), (16, 8, i),
      (24, 8, if i = 2 then 0 else i + 1)]))) s))) ∧
    (∀ i, 2 < i → exec (.doeDiscovery i) s = .next (settle (emit (.doe 0 (toBytes 4 0xFFFF)) s))) ∧
    (let at_ (n : Nat) (s : State) := onCxl (fun c => { c with spdm := n }) s
     let tell (code n : Nat) (body : List Byte) (s : State) : Host.Outcome State Fault Refusal :=
       .next (settle (emit (.doe code (body.take doeRoom)) (at_ n s)))
     let cur := max 3 s.cxl.spdm
     exec .getVersion s = .next (settle (emit (.doe 0x04 [0, 2, 0x00, 0x12, 0x00, 0x13]) (at_ 1 s))) ∧
     (1 ≤ s.cxl.spdm → ∀ b, exec (.getCapabilities b) s = tell 0x61 2 (Config.spdmBytes 0x61 b) s) ∧
     (2 ≤ s.cxl.spdm → ∀ (o : AlgOffer) b, o.p384 = true → o.sha384 = true → o.secp384r1 = true → o.aes256gcm = true →
       exec (.negotiateAlgorithms o b) s = tell 0x63 3 (Config.spdmBytes 0x63 b) s) ∧
     (3 ≤ s.cxl.spdm →
       exec .getDigests s = tell 0x01 cur (Config.spdmBytes 0x01 []) s ∧
       (∀ o n, exec (.getCertificate 0 o n) s = tell 0x02 cur (((Config.spdmBytes 0x02 []).drop o).take n) s) ∧
       (∀ b, exec (.challenge 0 b) s = tell 0x03 cur (Config.spdmBytes 0x03 b) s) ∧
       (∀ b, exec (.getMeasurements 0 b) s = tell 0x60 cur (5 :: Config.spdmBytes 0x60 b) s) ∧
       (∀ i b, 1 ≤ i → i ≤ 5 →
         exec (.getMeasurements i b) s = tell 0x60 cur (toBytes 48 (measurement i s).toNat ++ Config.spdmBytes 0x60 b) s) ∧
       (∀ b, exec (.getMeasurements 255 b) s =
         tell 0x60 cur (([1, 2, 3, 4, 5].map fun i => toBytes 48 (measurement i s).toNat).flatten ++ Config.spdmBytes 0x60 b) s) ∧
       (∀ b, exec (.keyExchange 0 b) s = tell 0x64 4 (Config.spdmBytes 0x64 b) s)) ∧
     (s.cxl.spdm = 4 → exec (.finish true) s = tell 0x65 5 [] s) ∧
     (s.cxl.spdm = 5 → exec .heartbeat s = tell 0x68 5 [] s ∧
       (∀ b, exec (.keyUpdate b) s = tell 0x69 5 b (onCxl (fun c => { c with keyEpoch := c.keyEpoch + 1 }) s)) ∧
       exec .endSession s = tell 0x6C 3 [] s)) ∧
    (let no := Host.Outcome.next (settle (emit (.doe 0x7F []) s))
     (s.cxl.spdm < 1 → ∀ b, exec (.getCapabilities b) s = no) ∧
     (∀ (o : AlgOffer) b, s.cxl.spdm < 2 ∨ (o.p384 && o.sha384 && o.secp384r1 && o.aes256gcm) = false →
       exec (.negotiateAlgorithms o b) s = no) ∧
     (s.cxl.spdm < 3 → exec .getDigests s = no ∧ (∀ i b, exec (.getMeasurements i b) s = no) ∧
       (∀ i o n, exec (.getCertificate i o n) s = no) ∧ ∀ i b, exec (.challenge i b) s = no ∧ exec (.keyExchange i b) s = no) ∧
     (∀ i, i ≠ 0 → (∀ o n, exec (.getCertificate i o n) s = no) ∧ ∀ b, exec (.challenge i b) s = no ∧ exec (.keyExchange i b) s = no) ∧
     (∀ i b, 5 < i → i ≠ 255 → exec (.getMeasurements i b) s = no) ∧
     (s.cxl.spdm ≠ 4 → ∀ ok, exec (.finish ok) s = no) ∧ exec (.finish false) s = no ∧
     (s.cxl.spdm < 5 → exec .heartbeat s = no ∧ exec .endSession s = no ∧ ∀ b, exec (.keyUpdate b) s = no)))

/-- Snoops and fences (R96 to R99, R355). A snoop is answered by the state of the line in the device cache: SnpInv invalidates a
Shared line, and where the host is attached the line is read again; a snoop of a Modified line takes its data, and its stores are
then visible (the model's choice: log entry 65). Data of a fence line ends its read; a failed read raises one FENCE_ERROR for each
fence on it and leaves them unsignalled. A release write that succeeds is no longer outstanding, one that fails is kept for the next
END, and the next waiting one leaves. -/
def Obligations.SnoopsAndFencesAct : Prop :=
  ∀ (a : Addr) (s : State),
    let line := lineOf a.toNat
    let f := [Part.com, .heads, .chans, .safety, .cxl, .ev, .out]
    let calm : Prop := s.com.latchQ = [] ∧ ∀ w ∈ s.com.relWrites, w.st ≠ .waiting
    (lineState line s = none → ∀ i, i = .snpInv a ∨ i = .snpData a ∨ i = .snpCur a → exec i s = .next (settle (emit (.snoop 2 none) s))) ∧
    (lineState line s = some .modified → ∀ i, i = .snpInv a ∨ i = .snpData a ∨ i = .snpCur a → Ends i s f fun t =>
      Output.snoop 1 (some (lineData line s)) ∈ t.out ∧
      (calm → t.com.relWrites = s.com.relWrites.filter fun w => !(lineOf w.addr == line && w.st == .issued))) ∧
    (lineState line s = some .shared →
      (∀ i, i = .snpData a ∨ i = .snpCur a → exec i s = .next (settle (emit (.snoop 3 none) s))) ∧
      Ends (.snpInv a) s [.com, .cxl, .out] fun t =>
        Output.snoop 0 none ∈ t.out ∧ (∀ l ∈ t.com.lines, l.line = line → l.cached = none ∧ l.reading = s.cxl.attached) ∧
        (∃ l ∈ t.com.lines, l.line = line) ∧ t.com.records = s.com.records) ∧
    (∀ r, (∀ l ∈ s.com.lines, l.line = line → l.reading = false) → exec (.fenceReadComplete a r) s = .next (settle s)) ∧
    (∀ w l, l ∈ s.com.lines → l.line = line → l.reading = true →
      Ends (.fenceReadComplete a (.data w)) s [.clk, .com, .heads, .chans, .safety, .cxl, .ev, .cw, .out] fun t =>
        ∀ x ∈ t.com.lines, x.line = line → x.reading = false ∧ x.failed = false) ∧
    (∀ e l, l ∈ s.com.lines → l.line = line → l.reading = true →
      Ends (.fenceReadComplete a (.error e)) s f fun t =>
        t.com.records = s.com.records ∧ (∀ x ∈ t.com.lines, x.line = line → x.reading = false ∧ x.failed = true ∧ x.cached = none) ∧
        t.cxl.errs[errorKind e].1 = s.cxl.errs[errorKind e].1 + 1) ∧
    (∀ r, relAt a.toNat s = none → exec (.releaseFenceWriteComplete a r) s = .next (settle s)) ∧
    (∀ w, relAt a.toNat s = some w →
      Ends (.releaseFenceWriteComplete a .done) s f (fun t => calm → t.com.relWrites = s.com.relWrites.erase w) ∧
      Ends (.releaseFenceWriteComplete a .refused) s f (fun t => t.cxl.errs = s.cxl.errs ∧
        (calm → t.com.relWrites = mapFirst (fun x => x == w) (fun x => { x with st := .failed }) s.com.relWrites)) ∧
      ∀ e, Ends (.releaseFenceWriteComplete a (.error e)) s f (fun t =>
        t.cxl.errs[errorKind e].1 = s.cxl.errs[errorKind e].1 + 1 ∧
        (calm → t.com.relWrites = mapFirst (fun x => x == w) (fun x => { x with st := .failed }) s.com.relWrites)))

/-! ## The tick (R11 to R26, R140, R149, R161) -/

/-- COMMIT_CUTOFF (R17, R18, R26, R93): once per tick, the boundary is fixed Tcut after the cut-off, every unfinished build is
stopped, and every record is marked. The cut-off lies no earlier than the effective Tmin less Tcut and no later than Tmax less
Tcut (R17); a commit that is valid between the two is the cut-off, and tick 0 has none (R413). That the chain head also sends its
packets is left out here. -/
def Obligations.CutoffFixesTheBoundary : Prop := (
  ∀ s : State,
    (s.clk.cutAt.isSome = true ∨ s.clk.held = true ∨ isFollower s = true → exec .commitCutoff s = .next (settle s)) ∧
    (s.clk.cutAt = none → s.clk.held = false → isFollower s = false → isChainHead s = false →
      let c := cutInstant s
      Ends .commitCutoff s [.clk, .com, .heads, .chans, .safety, .cxl, .ev, .planes, .out, .free] fun t =>
        t.clk.cutAt = some c.1 ∧ t.clk.boundary = some (c.1 + usT s.cfg.tick.tcut) ∧ t.clk.reason = c.2 ∧ t.clk.tick = s.clk.tick ∧
        t.clk.now = max s.clk.now c.1 ∧ (∀ h : Head, pressing t h = false) ∧ t.com.lvAtCut = s.pendLv.length ∧
        t.com.records = s.com.records.map (markRecord c.1 0 s.clk.tick s.cfg.fence.abandon))) ∧ (
  ∀ s : State,
    let first := tickBase s + usT (s.clk.effTmin - s.cfg.tick.tcut)
    let last := tickBase s + usT (effTmax s - s.cfg.tick.tcut)
    first ≤ last → first ≤ (cutInstant s).1 ∧ (cutInstant s).1 ≤ last ∧
      (∀ v, s.clk.prevNone = false → s.clk.validAt = some v → first < v → v < last → cutInstant s = (v, .paced)) ∧
      (∀ v, s.clk.prevNone = false → s.clk.validAt = some v → v ≤ first → cutInstant s = (first, .held)) ∧
      (∀ v, s.clk.validAt = some v → first < v → last ≤ v → cutInstant s = (last, .tmax)) ∧
      (s.clk.validAt = none ∨ s.clk.prevNone = true → cutInstant s = (last, .tmax)))

/-- TICK_END, TICK_BOUNDARY and LATCH_END (R11, R20, R21, R22, R374), each in its phase alone. END begins 60 µs before the
boundary and changes no live setting; the boundary begins the next tick in LATCH, with every per-tick count at its start, and a
tick whose check or whose span table's CRC fails leaves the device dark (R328, R339, R341); LATCH ends in BLANK, once the release
fences of its buffers are written. While no command waits. -/
def Obligations.TheTickTurns : Prop :=
  ∀ s : State,
    (∀ m, s.clk.phase = .latch ∨ s.clk.phase = .finish → exec (.tickEnd m) s = .next (settle s)) ∧
    (∀ m b, Quiet s → s.clk.phase ≠ .latch → s.clk.phase ≠ .finish → s.clk.cutAt.isSome = true → s.clk.boundary = some b →
      Ends (.tickEnd m) s [.clk, .com, .heads, .links, .rasters, .chans, .loops, .oss, .lines, .sluice, .therm, .safety, .cxl, .queues,
          .ev, .boot, .power, .cal, .flash, .upd, .cw, .bar2, .mirrorGen, .out, .free] fun t =>
        t.clk.phase = .finish ∧ t.clk.tick = s.clk.tick ∧ t.clk.now = max s.clk.now (b - usT 60) ∧ t.clk.boundary = some b ∧
        t.mirrorGen = s.mirrorGen + 2) ∧
    (∀ a b, s.clk.phase ≠ .finish ∨ s.clk.boundary = none → exec (.tickBoundary a b) s = .next (settle s)) ∧
    (∀ a c b, Quiet s → s.clk.phase = .finish → s.clk.boundary = some b → s.upd.resetDue = false →
      Ends (.tickBoundary a c) s [.clk, .cfg, .pendLv, .com, .comp, .heads, .links, .rasters, .chans, .loops, .oss, .lines, .sluice, .therm,
          .safety, .cxl, .ev, .boot, .power, .cal, .flash, .cw, .out, .free] fun t =>
        t.clk.tick = nextTick s ∧ t.clk.phase = .latch ∧ t.clk.start = b ∧ t.clk.cutAt = none ∧ t.clk.boundary = none ∧
        t.comp.band = 0 ∧ (∀ h : Head, t.heads[h].showing = false ∧ t.heads[h].spanDone = false ∧ t.heads[h].entry = 0) ∧
        (s.pendLv = [] → s.com.records = [] → s.cw.mode = none → t.cfg = s.cfg) ∧
        (tickOk s a = false ∨ spanOk t c = false → t.safety.mode = .dark ∧ t.safety.safeN = true ∧ ∀ n : Chan, t.chans[n].gateOpen = false)) ∧
    (∀ m, s.clk.phase ≠ .latch ∨ s.clk.held = true ∨ s.com.latchQ ≠ [] → exec (.latchEnd m) s = .next (settle s)) ∧
    (∀ m : LatchEnd, Quiet s → s.clk.phase = .latch → s.clk.held = false → s.com.latchQ = [] →
      Ends (.latchEnd m) s [.clk, .com, .links, .chans, .safety, .cxl, .ev, .cal, .cw, .out] fun t =>
        t.clk.phase ≠ .latch ∧ t.clk.tick = s.clk.tick ∧ t.clk.cutAt = s.clk.cutAt ∧ t.com.latchQ = [] ∧ t.cal.inputs = m.inputs)

/-- BUILD_COMPLETE (R21) marks BUILT once no press engine runs. A band of the canvas (R80, R149) holds the composed pixels of its
lines, and the other lines keep theirs; a stripe of the warp (R183) whose canvas lines are written is pressed into the build
buffer, and the last one completes the build. -/
def Obligations.BuildsAdvance : Prop :=
  ∀ s : State,
    (s.clk.phase = .latch ∨ (∃ h : Head, pressing s h = true) → exec .buildComplete s = .next (settle s)) ∧
    (s.clk.phase ≠ .latch → (∀ h : Head, pressing s h = false) →
      Ends .buildComplete s [.clk, .cxl, .out] fun t => t.clk.built = true ∧ t.clk.phase ≠ .show ∧ t.clk.tick = s.clk.tick) ∧
    (composes s = false ∨ s.cfg.canvas.h ≤ 64 * s.comp.band → exec .canvasBandWritten s = .next (settle s)) ∧
    (composes s = true → 64 * s.comp.band < s.cfg.canvas.h → s.cfg.canvas.w ≤ 8192 → canvasWf s.canvas →
      Ends .canvasBandWritten s [.clk, .comp, .heads, .chans, .safety, .cxl, .ev, .canvas, .out] fun t =>
        t.comp.band = s.comp.band + 1 ∧ canvasWf t.canvas ∧
        (∀ x y, x < s.cfg.canvas.w → 64 * s.comp.band ≤ y → y < min (64 * s.comp.band + 64) s.cfg.canvas.h →
          canvasGet t.canvas (canvasKey x y) = canvasPixel s x y) ∧
        (∀ x y, x < 8192 → y < 64 * s.comp.band ∨ 64 * s.comp.band + 64 ≤ y →
          canvasGet t.canvas (canvasKey x y) = canvasGet s.canvas (canvasKey x y))) ∧
    (∀ h : Head, let n := s.heads[h].stripes
      let ok := pressing s h && s.comp.hostBuild && decide (n < stripeCount s.cfg.heads[h]) && stripeFed s h n
      (ok = false → exec (.warpStripeDone h) s = .next (settle s)) ∧
      (ok = true → Ends (.warpStripeDone h) s [.clk, .heads, .chans, .safety, .cxl, .ev, .planes, .out] fun t =>
        t.heads[h].stripes = n + 1 ∧ t.heads[h].done = decide (n + 1 = stripeCount s.cfg.heads[h]) ∧
        t.heads[h].building = true ∧ t.planes = (pressRows h (128 * n) (min (128 * n + 128) s.cfg.heads[h].outH) 256 s).planes))

/-- The show (R140, R161, R328): a span starts outside LATCH once per tick for a head that is on; an entry starts with the gates
closed, and a wrong CRC of the one before it makes the device dark; the gates that follow open while the pulse is fired, and all
gates of the head close again; the span ends once, and a wrong CRC of the window in it makes the device dark. The gates of a raster
head are in RasterLinesAct. -/
def Obligations.TheShowRuns : Prop :=
  ∀ (h : Head) (s : State),
    (s.clk.phase = .latch ∨ s.heads[h].mode = .off ∨ s.heads[h].showing = true ∨ s.heads[h].spanDone = true →
      exec (.showStart h) s = .next (settle s)) ∧
    (s.clk.phase ≠ .latch → s.heads[h].mode ≠ .off → s.heads[h].showing = false → s.heads[h].spanDone = false →
      Ends (.showStart h) s [.clk, .heads, .rasters, .chans, .safety, .cxl, .ev, .out] fun t =>
        t.heads[h].showing = true ∧ t.heads[h].entry = 0 ∧ t.heads[h].gateOpen = false ∧ t.rasters[h].line = 0 ∧
        t.clk.shown = true ∧ t.clk.now = max s.clk.now (showAt s h) ∧ t.clk.tick = s.clk.tick) ∧
    (∀ crc, s.heads[h].showing = true → s.cfg.heads[h].raster = false → linkSends s h = true →
      s.heads[h].entry < (shownOf s h).entries →
      (s.links[h].stopping = false → s.heads[h].entry = 0 ∨ entryCrcOk s h (s.heads[h].entry - 1) crc = true →
        exec (.planeEntryStart h crc) s = .next (settle (onHead h (fun d => { d with entry := d.entry + 1 }) (closeGates h s)))) ∧
      (0 < s.heads[h].entry → entryCrcOk s h (s.heads[h].entry - 1) crc = false →
        Ends (.planeEntryStart h crc) s [.heads, .links, .chans, .safety, .cxl, .ev, .out] fun t =>
          t.safety.mode = .dark ∧ t.safety.causes.getLsbD 0 = true ∧ ∀ n : Chan, t.chans[n].gateOpen = false)) ∧
    (s.heads[h].showing = true → s.cfg.heads[h].raster = false → linkSends s h = true → 0 < s.heads[h].entry →
      0 < entryPulse s h (s.heads[h].entry - 1) → mayLight s h = true → showsLight s h = true →
      Ends (.shuntGateOpen h) s [.heads, .chans, .cxl, .out] fun t => t.heads[h].gateOpen = true ∧
        ∀ n : Chan, t.chans[n].gateOpen =
          (s.chans[n].gateOpen || gateFollows s h (some (entryGlyph (shownOf s h) (s.heads[h].entry - 1)).1) n)) ∧
    (s.cfg.heads[h].raster = false → mayLight s h = false ∨ showsLight s h = false ∨ s.heads[h].showing = false →
      exec (.shuntGateOpen h) s = .next (settle s)) ∧
    Ends (.shuntGateClose h) s [.heads, .rasters, .chans, .cxl, .out] (fun t => t.heads[h].gateOpen = false ∧
      (s.cfg.heads[h].raster = false → t.rasters = s.rasters) ∧
      ∀ n : Chan, t.chans[n].gateOpen = (s.chans[n].gateOpen && s.cfg.chans[n].st.head != h)) ∧
    (∀ crcs p, s.heads[h].showing = false → exec (.showSpanEnd h crcs p) s = .next (settle s)) ∧
    (∀ crcs p, s.heads[h].showing = true →
      Ends (.showSpanEnd h crcs p) s [.clk, .heads, .links, .chans, .safety, .cxl, .ev, .cal, .out] fun t =>
        t.heads[h].showing = false ∧ t.heads[h].spanDone = true ∧ t.heads[h].gateOpen = false ∧
        (∀ n : Chan, s.cfg.chans[n].st.head = h → t.chans[n].gateOpen = false) ∧
        (spanCrcsOk s h crcs = false → t.safety.mode = .dark ∧ t.safety.causes.getLsbD 0 = true))

/-- Errors of the picture path (R81, R151, R183, R367): a surface read that fails takes the layer from the first line that it
affects, the tick's first one with its event; an error of a canvas access cuts every build it names; a plane that cannot be read
goes out dark. Each is logged under its KIND. -/
def Obligations.PictureErrorsAct : Prop :=
  ∀ (e : BusError) (a : Addr) (s : State),
    (∀ k plane line, composes s = true → layerCounts s.cfg k = true →
      (failedRows s k plane a.toNat).bind (firstLine s k) = some line →
      Ends (.surfaceReadError k plane e a) s [.comp, .heads, .chans, .safety, .cxl, .ev, .out] fun t =>
        t.comp.errLine[k] = some (min line (s.comp.errLine[k].getD line)) ∧
        t.cxl.errs[errorKind e].1 = s.cxl.errs[errorKind e].1 + 1 ∧ (s.comp.errLine[k].isSome = true → t.ev = s.ev)) ∧
    (∀ k plane, composes s = false ∨ layerCounts s.cfg k = false →
      Ends (.surfaceReadError k plane e a) s [.cxl, .out] fun t => t.cxl.errs[errorKind e].1 = s.cxl.errs[errorKind e].1 + 1) ∧
    (∀ heads tr, Ends (.canvasAccessError heads tr e a) s [.clk, .heads, .chans, .safety, .cxl, .ev, .planes, .out, .free] fun t =>
      (∀ h : Head, heads.getLsbD h.val = true → pressing t h = false) ∧
      (∀ h : Head, heads.getLsbD h.val = true → pressing s h = true → t.heads[h].cut = true) ∧
      (∀ h : Head, heads.getLsbD h.val = false → pressing t h = pressing s h) ∧
      t.cxl.errs[errorKind e].1 = s.cxl.errs[errorKind e].1 + 1) ∧
    (∀ h plane, Ends (.planeStoreReadError h plane e a) s [.heads, .links, .chans, .safety, .cxl, .ev, .out] fun t =>
      t.cxl.errs[errorKind e].1 = s.cxl.errs[errorKind e].1 + 1 ∧
      (s.heads[h].mode = .host ∨ s.heads[h].mode = .subst → s.cfg.heads[h].raster = false → s.links[h].dark.contains plane = false →
        t.heads[h].darkPlanes = s.heads[h].darkPlanes + 1 ∧ t.links[h].dark = plane :: s.links[h].dark))

/-- What ends at a LATCH (R101, R105, R153, R282, R437) ends while the LATCH lasts, when its count is due; in any other phase the
row changes nothing. -/
def Obligations.ExpiriesActInTheLatch : Prop :=
  ∀ s : State,
    (s.clk.phase ≠ .latch → exec .transitionEnd s = .next (settle s) ∧ exec .commitAbandoned s = .next (settle s) ∧
      (∀ k, exec (.layerDropped k) s = .next (settle s)) ∧ (∀ i, exec (.lampFadesDone i) s = .next (settle s)) ∧
      exec .calApplied s = .next (settle s)) ∧
    (s.clk.phase = .latch → s.com.latchQ = [] →
      (∀ t0, s.clk.trans = some t0 → t0 ≤ s.clk.tick →
        Ends .transitionEnd s [.clk, .com, .heads, .chans, .safety, .cxl, .ev, .out] fun t => t.clk.trans = none) ∧
      (∀ t0, s.clk.trans = some t0 → s.clk.tick < t0 →
        Ends .transitionEnd s [.com, .heads, .chans, .safety, .cxl, .ev, .out] fun t => t.clk.trans = some t0) ∧
      Ends .commitAbandoned s [.clk, .com, .heads, .chans, .safety, .cxl, .ev, .cw, .out] (fun t =>
        ∀ r ∈ t.com.records, ¬ (r.doomed = true ∧ r.applied = false)) ∧
      (∀ k, countedOut k s = none → Ends (.layerDropped k) s [.com, .chans, .safety, .cxl, .ev, .out] fun t =>
        t.com.records = s.com.records) ∧
      (∀ k, (countedOut k s).isSome = true → Ends (.layerDropped k) s [.cfg, .com, .chans, .safety, .cxl, .ev, .out] fun t =>
        t.cfg = { s.cfg with dropped := s.cfg.dropped ||| BitVec.ofNat 24 (2 ^ k.val) }) ∧
      (∀ i : Fin 4, s.lines[i].doneDue = true → Ends (.lampFadesDone i) s [.com, .lines, .heads, .chans, .safety, .cxl, .ev, .out] fun t =>
        t.lines[i].doneDue = false) ∧
      (s.cal.applying.any (fun a => decide (64 ≤ a.latch)) = true → s.cal.running = none →
        Ends .calApplied s [.com, .therm, .heads, .chans, .safety, .cal, .cxl, .ev, .out] fun t =>
          ∀ a ∈ t.cal.applying, a.latch ≤ 64) ∧
      (s.cal.applying.any (fun a => decide (64 ≤ a.latch)) = false →
        Ends .calApplied s [.com, .heads, .chans, .safety, .cxl, .ev, .out] fun t => t.cal = s.cal))

/-! ## The plane link (R164, R190 to R222) -/

/-- Answers (R200, R207, R209, R219). A word whose CHK is wrong, or that names no block which waits for an answer, changes
nothing. ACK ends a block's flight; REFUSE, or the end of the answer window, makes the block due for re-sending, at most three
times, after which it is lost. -/
def Obligations.AnswersMoveTheResendBuffer : Prop :=
  ∀ (g : Head) (w : BackWord) (s : State),
    let others (t : State) : Prop := ∀ k, k ≠ g → t.links[k] = s.links[k] ∧ t.rasters[k] = s.rasters[k]
    let gone (f : Flight) (t : State) : Prop := flightsOf t g = (flightsOf s g).filter fun x => !x.same f
    let due (f : Flight) (t : State) : Prop :=
      flightsOf t g = (flightsOf s g).map fun x => if x.same f then { x with waiting := false } else x
    let waits (p b : Nat) : Option Flight := (flightsOf s g).find? fun f => f.waiting && f.plane == p && f.block == b
    let lost := [Part.heads, .links, .rasters, .chans, .safety, .cxl, .ev, .out]
    (backOk 0x10 w = false ∨ answered g w s = none → exec (.ack g w) s = .next (settle s)) ∧
    (backOk 0x11 w = false ∨ answered g w s = none → exec (.refuse g w) s = .next (settle s)) ∧
    (∀ f, answered g w s = some f → backOk 0x10 w = true →
      Ends (.ack g w) s [.links, .rasters, .cxl, .out] fun t =>
        gone f t ∧ t.links[g].acked = f :: s.links[g].acked ∧ t.links[g].refusals = s.links[g].refusals ∧ others t) ∧
    (∀ f, answered g w s = some f → f.resends < 3 → backOk 0x11 w = true →
      Ends (.refuse g w) s [.links, .rasters, .cxl, .out] fun t =>
        due f t ∧ t.links[g].refusals = s.links[g].refusals + 1 ∧ t.links[g].blocksLost = s.links[g].blocksLost ∧ others t) ∧
    (∀ f, answered g w s = some f → 3 ≤ f.resends → backOk 0x11 w = true →
      Ends (.refuse g w) s lost fun t =>
        gone f t ∧ t.links[g].refusals = s.links[g].refusals + 1 ∧ t.links[g].blocksLost = s.links[g].blocksLost + 1 ∧ others t) ∧
    (∀ p b, waits p b = none → exec (.answerTimeout g p b) s = .next (settle s)) ∧
    (∀ p b f, waits p b = some f → f.resends < 3 →
      Ends (.answerTimeout g p b) s [.links, .rasters, .cxl, .out] fun t =>
        due f t ∧ t.links[g].timeouts = s.links[g].timeouts + 1 ∧ others t) ∧
    (∀ p b f, waits p b = some f → 3 ≤ f.resends →
      Ends (.answerTimeout g p b) s lost fun t =>
        gone f t ∧ t.links[g].timeouts = s.links[g].timeouts + 1 ∧ t.links[g].blocksLost = s.links[g].blocksLost + 1 ∧ others t)

/-- PLANE_BLOCK_SEND and PLANE_DEADLINE (R163, R164, R192 to R199, R209, R210, R242). A lane of a group that does not run sends
nothing, one that runs and has no block to send sends IDLE. A re-send that is due goes first, as the buffer holds it; else the lane's
next block goes out once the receiver has a free buffer and the lane a free place, and takes a place; a plane whose data came late
goes out dark (R151). A block leaves the lane as 65 words of 66 bits, its host data read over CXL.io (R357). At a plane's deadline
its blocks in flight and those not sent are lost, and no lane sends more of it; on a raster head a line's packets are. -/
def Obligations.BlocksAreSent : Prop :=
  ∀ (g : Head) (lane : Fin 8) (s : State),
    let x := s.cfg.heads[g]
    let l := s.links[g]
    let w := shownOf s g
    let block (e b : Nat) (data : List Byte) : Output :=
      .lane g lane (codeWords (s.cfg.links[g].txPol.testBit lane.val) l.scram[lane].toNat
        (blockWords (blockHeader s g (if windowBlock s g b then 1 else 0) e b) (blockPayload s g w data e b))).1
    let p := skipTo s g w lane skipFuel l.next[lane]
    let e := lanePlane p
    let b := laneBlock p lane
    let others (t : State) : Prop := ∀ k, k ≠ g → t.links[k] = s.links[k]
    let lost := [Part.heads, .links, .chans, .safety, .cxl, .ev, .out]
    (∀ late, x.raster = true ∨ linkLive s g = false → exec (.planeBlockSend g lane late) s = .next (settle s)) ∧
    (∀ late, x.raster = false → linkLive s g = true → linkSends s g = false ∨ s.clk.phase = .latch ∨ w = .nothing →
      exec (.planeBlockSend g lane late) s = .next (settle (sendIdle g lane s))) ∧
    (x.raster = false → linkSends s g = true → s.clk.phase ≠ .latch → w ≠ .nothing →
      (∀ late f, dueResend l lane = some f →
        Ends (.planeBlockSend g lane late) s [.links, .cxl, .out] fun t =>
          Sends (block f.plane f.block f.data) s t ∧ t.links[g].resent = sat 32 (l.resent + 1) ∧ t.links[g].next = l.next ∧
          t.links[g].flights = (l.flights.map fun y => if y.same f then { y with waiting := true, resends := y.resends + 1 } else y) ∧
          others t) ∧
      (∀ late, dueResend l lane = none → w.entries ≤ e ∨ bufferFree s g e = false ∨ 8 ≤ laneHeld l lane →
        exec (.planeBlockSend g lane late) s = .next (settle (sendIdle g lane s))) ∧
      (∀ late, dueResend l lane = none → e < w.entries → bufferFree s g e = true → laneHeld l lane < 8 →
        skipTo s g w lane skipFuel p = p →
        (late = false ∧ s.cxl.attached = true) ∨ w = .safe ∨ l.dark.contains e = true ∨ (∃ k : Fin 8, e * 4096 < l.next[k]) →
        let data := fetchBlock s g w (l.dark.contains e) e b
        Ends (.planeBlockSend g lane late) s [.links, .cxl, .out] fun t =>
          Sends (block e b data) (if data.isEmpty then s else askIo false [blockRange s g w e b] s) t ∧
          t.links[g].next = l.next.set lane (laneNext x lane p) ∧
          t.links[g].flights = l.flights ++ [{ plane := e, block := b, resends := 0, waiting := true, data := data }] ∧
          t.links[g].dark = l.dark ∧ others t) ∧
      (∀ late, dueResend l lane = none → e < w.entries → bufferFree s g e = true → laneHeld l lane < 8 →
        late = true ∨ s.cxl.attached = false → w ≠ .safe → l.dark.contains e = false → (∀ k : Fin 8, l.next[k] ≤ e * 4096) →
        Ends (.planeBlockSend g lane late) s lost fun t =>
          t.links[g].dark = e :: l.dark ∧ t.heads[g].darkPlanes = s.heads[g].darkPlanes + 1 ∧ others t)) ∧
    (∀ n, x.raster = false → linkSends s g = false ∨ w.entries ≤ n → exec (.planeDeadline g n) s = .next (settle s)) ∧
    (∀ n, x.raster = false → linkSends s g = true → n < w.entries →
      Ends (.planeDeadline g n) s lost fun t =>
        t.links[g].flights = l.flights.filter (fun f => f.plane != n) ∧
        (∀ k : Fin 8, t.links[g].next[k] = max l.next[k] ((n + 1) * 4096)) ∧
        t.links[g].blocksLost = l.blocksLost + (l.flights.filter fun f => f.plane == n).length +
          ((allFin 8).map fun k => unsent s g w n k).flatten.length) ∧
    (∀ n, x.raster = true → n ≠ 0xFFF → linkSends s g = false → exec (.planeDeadline g n) s = .next (settle s)) ∧
    (∀ n, x.raster = true → n ≠ 0xFFF → linkSends s g = true →
      Ends (.planeDeadline g n) s (.rasters :: lost) fun t =>
        t.rasters[g].flights = s.rasters[g].flights.filter (fun f => f.block != n) ∧
        t.rasters[g].packet = max s.rasters[g].packet ((n + 1) * npkOf x.outW)) ∧
    (x.raster = true → Ends (.planeDeadline g 0xFFF) s [.links, .rasters, .cxl, .out] fun t =>
      t.rasters[g].flights = s.rasters[g].flights.filter (fun f => f.block != 0xFFF) ∧ t.rasters[g].packet = s.rasters[g].packet)

/-- Back-channel words of an array (R205, R206, R212). STATUS holds READY, FAULT, the temperature and the planes that the receiver
holds; a running group is to stop at the next entry boundary where READY falls or FAULT rises, and sends again from the next LATCH
where READY rises with FAULT clear; READY ends a training. RESET_DONE counts an incomplete plane dark, once. ARRAY_TIMING is raised
once per tick. -/
def Obligations.ArrayWordsAct : Prop :=
  ∀ (h : Head) (w : BackWord) (s : State),
    let l := s.links[h]
    let f := [Part.links, .cxl, .ev, .out]
    let plane := fld w.fields 0 7
    (backOk 0x20 w = false ∨ l.state = 0 → exec (.status h w) s = .next (settle s)) ∧
    (backOk 0x20 w = true → l.state ≠ 0 →
      Ends (.status h w) s f fun t =>
        t.links[h].ready = bit w.fields 0 ∧ t.links[h].parked = bit w.fields 1 ∧ t.links[h].fault = bit w.fields 2 ∧
        t.links[h].temp = signed 12 (fld w.fields 4 12) ∧ t.links[h].rxHeld = fld w.fields 16 8 ∧
        (∀ k, k ≠ h → t.links[k] = s.links[k]) ∧
        (l.step ≠ some .ready → 2 ≤ l.state →
          (l.ready = true ∧ bit w.fields 0 = false ∨ l.fault = false ∧ bit w.fields 2 = true →
            t.links[h].state = 3 ∧ t.links[h].stopping = !l.stopped ∧ t.links[h].stopped = l.stopped ∧ t.links[h].resume = false) ∧
          (l.ready = false → bit w.fields 0 = true → bit w.fields 2 = false →
            t.links[h].state = 2 ∧ t.links[h].resume = true ∧ t.links[h].schedKnown = false)) ∧
        (l.step = some .ready → bit w.fields 0 = true →
          t.links[h].step = none ∧ t.links[h].newRate = some (attemptRate h s) ∧ t.links[h].stopped = true)) ∧
    (backOk 0x21 w = false ∨ s.cfg.heads[h].raster = true ∨ l.state < 2 ∨ fld w.fields 7 9 ≠ frameNo s ∨ bit w.fields 16 = true →
      exec (.resetDone h w) s = .next (settle s)) ∧
    (backOk 0x21 w = true → s.cfg.heads[h].raster = false → 2 ≤ l.state → fld w.fields 7 9 = frameNo s → bit w.fields 16 = false →
      (l.lostPlanes.find? (fun p => p.1 == plane) = none → l.dark.contains plane = true →
        exec (.resetDone h w) s = .next (settle s)) ∧
      (l.lostPlanes.find? (fun p => p.1 == plane) = none → l.dark.contains plane = false →
        exec (.resetDone h w) s = .next (settle (onHead h (fun d => { d with darkPlanes := d.darkPlanes + 1 }) s))) ∧
      (∀ p, l.lostPlanes.find? (fun p => p.1 == plane) = some p →
        Ends (.resetDone h w) s (.heads :: f) fun t => t.links[h].lost = sat 32 (l.lost + 1) ∧
          t.links[h].lostPlanes = l.lostPlanes.filter (fun q => q.1 != plane) ∧
          t.heads[h].darkPlanes = s.heads[h].darkPlanes + (!l.dark.contains plane).toNat)) ∧
    (∀ p missing, l.timingRaised = true ∨ l.state < 2 ∨ s.cfg.heads[h].raster = true →
      exec (.arrayTiming h p missing) s = .next (settle s)) ∧
    (∀ p missing, l.timingRaised = false → 2 ≤ l.state → s.cfg.heads[h].raster = false →
      Ends (.arrayTiming h p missing) s f fun t => t.links[h].timingRaised = true)

/-- A group that runs and loses its lock or its back-channel goes down and asks for training (R194, R212, R215). A read-back that
fails is counted; a block counts as refused by it, even where it has been acknowledged; a SYNC or SCHED word that fails on its second
sending costs the window (R217 to R219, R329). Training (R213 to R215): TRAIN words
lock and equalise the lanes, ECHO replies give the lanes' delays, each once for each of a lane's 16 words; a step that does not
end in its time, or a delay above 400 ns, fails the attempt, and after the policy's last attempt the group waits 64 ticks. -/
def Obligations.LinkFailuresAct : Prop := (
  ∀ (g : Head) (s : State),
    let l := s.links[g]
    let only (t : State) : Prop := ∀ k, k ≠ g → t.links[k] = s.links[k]
    let down (t : State) : Prop := t.links[g].state = 0 ∧ t.links[g].wanted = true ∧ t.links[g].stopped = true ∧
      t.links[g].flights = [] ∧ t.rasters[g].flights = [] ∧ t.links[g].rateNow = 0 ∧ t.links[g].attempt = 0 ∧ only t
    let all := [Part.heads, .links, .rasters, .chans, .safety, .cxl, .ev, .out]
    let isTiming (c : CtrlWord) : Prop := c = .sync ∨ ∃ e, c = .sched e
    (∀ lane, l.state < 2 → exec (.lockLost g lane) s = .next (settle s)) ∧
    (l.state < 2 → exec (.backchannelSilent g) s = .next (settle s)) ∧
    (∀ lane, 2 ≤ l.state → Ends (.lockLost g lane) s [.links, .rasters, .cxl, .ev, .out] down) ∧
    (2 ≤ l.state → Ends (.backchannelSilent g) s [.links, .rasters, .cxl, .ev, .out] down) ∧
    (∀ lane r, Ends (.linkReadbackFail g lane r) s all fun t =>
      t.links[g].mismatches = l.mismatches + 1 ∧ t.links[g].readback = sat 32 (l.readback + 1) ∧ only t) ∧
    (∀ lane p b, Ends (.linkReadbackFail g lane (.block p b)) s all fun t =>
      t.links[g].badBlocks = l.badBlocks + 1 ∧
      (∀ f, (flightsOf s g).find? (fun f => f.waiting && (f.plane == p && f.block == b)) = some f → f.resends < 3 →
        flightsOf t g = (flightsOf s g).map fun x => if x.same f then { x with waiting := false } else x) ∧
      (∀ f, (flightsOf s g).find? (fun f => f.waiting && (f.plane == p && f.block == b)) = none →
        l.acked.find? (fun f => f.plane == p && f.block == b) = some f → f.resends < 3 →
        { f with waiting := false } ∈ flightsOf t g ∧ t.links[g].acked = l.acked.filter fun f => !(f.plane == p && f.block == b))) ∧
    (∀ lane c done, isTiming c → l.retried.contains (lane, c) = true →
      Ends (.linkReadbackFail g lane (.control c done)) s [.links, .chans, .safety, .cxl, .ev, .out] fun t =>
        t.safety.headDark.getLsbD g.val = true ∧ t.safety.latched = true ∧ t.safety.safeN = true) ∧
    (∀ lane c done, ¬ isTiming c ∨ l.retried.contains (lane, c) = false →
      Ends (.linkReadbackFail g lane (.control c done)) s [.links, .cxl, .ev, .out] fun t =>
        isTiming c → t.links[g].retried = (lane, c) :: l.retried)) ∧ (
  ∀ (g : Head) (w : BackWord) (s : State),
    let l := s.links[g]
    let k := Fin.ofNat 8 (fld w.fields 0 3)
    let tag := fld w.fields 0 13
    let lane : Fin 8 := Fin.ofNat 8 (tag / 16)
    let heard := l.echoes[lane] ||| BitVec.ofNat 16 (2 ^ (tag % 16))
    let ignored := backOk 0x30 w = false ∨ l.step ≠ some .echo ∨ 128 ≤ tag ∨ l.echoes[lane].getLsbD (tag % 16) = true
    let only (t : State) : Prop := ∀ i, i ≠ g → t.links[i] = s.links[i]
    (backOk 0x31 w = false ∨ l.state = 0 → exec (.backchannelTrain g w) s = .next (settle s)) ∧
    (backOk 0x31 w = true → l.state ≠ 0 → l.step = some .lock →
      Ends (.backchannelTrain g w) s [.links, .cxl, .out] fun t => only t ∧ t.links[g].ffe = l.ffe ∧
        t.links[g].locked = (if bit w.fields 3 then l.locked ||| BitVec.ofNat 8 (2 ^ k.val) else l.locked) ∧
        (t.links[g].step = some .equalise ↔ t.links[g].locked = BitVec.allOnes 8)) ∧
    (backOk 0x31 w = true → l.state ≠ 0 → l.step ≠ some .lock →
      Ends (.backchannelTrain g w) s [.links, .cxl, .out] fun t => only t ∧ t.links[g].locked = l.locked ∧
        t.links[g].ffe[k] = (ffeStep 13 (fld w.fields 4 2) l.ffe[k].1, ffeStep 25 (fld w.fields 6 2) l.ffe[k].2) ∧
        (∀ i, i ≠ k → t.links[g].ffe[i] = l.ffe[i]) ∧
        (l.step = some .equalise → (t.links[g].step = some .echo ↔ t.links[g].eqDone = BitVec.allOnes 8))) ∧
    (∀ r, ignored → exec (.backchannelEcho g r w) s = .next (settle s)) ∧
    (∀ r, ¬ ignored → heard ≠ BitVec.allOnes 16 →
      Ends (.backchannelEcho g r w) s [.links, .cxl, .out] fun t => only t ∧ t.links[g].step = some .echo ∧
        t.links[g].echoes[lane] = heard ∧ t.links[g].delaySum[lane] = l.delaySum[lane] + (r - fld w.fields 13 16)) ∧
    (∀ r, ¬ ignored → heard = BitVec.allOnes 16 →
      let d := divRound (l.delaySum[lane] + (r - fld w.fields 13 16)) 32
      Ends (.backchannelEcho g r w) s [.links, .cxl, .ev, .out] fun t => only t ∧
        t.links[g].echoes[lane] = heard ∧ t.links[g].delays[lane] = d ∧
        (1600 < d → t.links[g].state = 0 ∧ t.links[g].step = none) ∧
        (d ≤ 1600 → t.links[g].step = some .echo ∨ t.links[g].step = some .ready)) ∧
    (l.step = none → exec (.trainingStepTimeout g) s = .next (settle s)) ∧
    (l.step.isSome = true → l.attempt + 1 < (policy s.cfg.links[g].rateMax).length →
      exec (.trainingStepTimeout g) s = .next (settle (onLink g (fun l => { l with
        state := 0, step := none, attempt := l.attempt + 1, wanted := true }) s))) ∧
    (l.step.isSome = true → (policy s.cfg.links[g].rateMax).length ≤ l.attempt + 1 →
      Ends (.trainingStepTimeout g) s [.links, .cxl, .ev, .out] fun t => only t ∧ t.links[g].state = 0 ∧ t.links[g].step = none ∧
        t.links[g].attempt = 0 ∧ t.links[g].wanted = false ∧ t.links[g].retryTick = some (s.clk.tick + 64)) ∧
    ((∀ n, l.retryTick = some n → s.clk.tick < n) → exec (.linkRetrainRetry g) s = .next (settle s)) ∧
    (∀ n, l.retryTick = some n → n ≤ s.clk.tick →
      exec (.linkRetrainRetry g) s = .next (settle (onLink g (fun l => { l with retryTick := none, wanted := true }) s))))

/-! ## Raster heads (R223 to R247) -/

/-- The scanner (R224, R225, R227): the sweep ends at the loudest frequency within the band, the amplitude rises, the scanner locks;
no lock by the time limit waits 64 ticks; a loss of lock puts the head in hold and starts acquisition at once, and so does the guard,
which also drops SCNEN and diverts the head's channels. -/
def Obligations.ScannerFollowsItsLock : Prop :=
  ∀ (h : Head) (f : Nat) (s : State),
    let r := s.rasters[h]
    let x := s.cfg.heads[h].ras
    let e := [Part.heads, .rasters, .chans, .cxl, .ev, .out]
    let held (t : State) : Prop := t.heads[h].gateOpen = false ∧
      (∀ n : Chan, t.chans[n].gateOpen = (s.chans[n].gateOpen && s.cfg.chans[n].st.head != h)) ∧
      t.rasters[h].scan = 1 ∧ t.rasters[h].drive = .sweep ∧ t.rasters[h].ramping = false ∧ t.rasters[h].retryTick = none ∧
      ∀ k, k ≠ h → t.rasters[k] = s.rasters[k]
    (∀ sweep, r.scan ≠ 1 ∨ r.ramping = true → exec (.rasterSweepEnd h sweep) s = .next (settle s)) ∧
    (∀ sweep, r.scan = 1 → r.ramping = false → (∀ p ∈ sweep, p.1 < bandLow x ∨ bandHigh x < p.1) →
      exec (.rasterSweepEnd h sweep) s = .next (settle s)) ∧
    (∀ sweep, r.scan = 1 → r.ramping = false → (∃ p ∈ sweep, bandLow x ≤ p.1 ∧ p.1 ≤ bandHigh x) →
      Ends (.rasterSweepEnd h sweep) s [.rasters, .cxl, .out] fun t => ∃ p ∈ sweep, bandLow x ≤ p.1 ∧ p.1 ≤ bandHigh x ∧
        (∀ q ∈ sweep, bandLow x ≤ q.1 → q.1 ≤ bandHigh x → q.2 ≤ p.2) ∧
        t.rasters = s.rasters.set h { r with ramping := true, fNow := p.1, drive := .rising } ∧ Sends (.fastAxis h .rising p.1) s t) ∧
    (r.scan ≠ 1 ∨ r.ramping = false → exec (.rasterLock h f) s = .next (settle s)) ∧
    (r.scan = 1 → r.ramping = true →
      Ends (.rasterLock h f) s [.rasters, .cxl, .ev, .out] fun t =>
        t.rasters = s.rasters.set h { r with scan := 2, ramping := false, fNow := f, guard := false, lineAt := none, drive := .held }) ∧
    (r.scan ≠ 1 → exec (.rasterAcquireTimeout h) s = .next (settle s)) ∧
    (r.scan = 1 → Ends (.rasterAcquireTimeout h) s [.rasters, .cxl, .ev, .out] fun t =>
      t.rasters = s.rasters.set h { r with scan := 3, ramping := false, retryTick := some (s.clk.tick + 64), drive := .off }) ∧
    ((∀ n, r.retryTick = some n → r.scan = 3 → s.clk.tick < n) → exec (.rasterAcquireRetry h) s = .next (settle s)) ∧
    (∀ n, r.retryTick = some n → r.scan = 3 → n ≤ s.clk.tick →
      Ends (.rasterAcquireRetry h) s [.rasters, .cxl, .out] fun t =>
        t.rasters = s.rasters.set h { r with scan := 1, ramping := false, retryTick := none, drive := .sweep }) ∧
    (r.scan ≠ 2 → exec (.rasterLockLost h) s = .next (settle s) ∧ ∀ slow, exec (.rasterGuardTrip h slow) s = .next (settle s)) ∧
    (r.scan = 2 → Ends (.rasterLockLost h) s e (fun t => held t ∧ t.rasters[h].guard = r.guard ∧ t.rasters[h].scnEn = r.scnEn) ∧
      ∀ slow, Ends (.rasterGuardTrip h slow) s e fun t => held t ∧ t.rasters[h].guard = true ∧ t.rasters[h].scnEn = false ∧
        .scanner h false ∈ t.out)

/-- Lines (R225, R226, R229, R230, R237). A sensed extreme is a line start at its trimmed instant, and closes the gates; one of the
kind of the last one is none, one at an edge of the band is a loss of lock. In the show span it opens the next line of the frame: the
slow axis ramps to the position after it; after the last line it holds. Within a line, under lock, the gates of the head open once
and close with their light window. -/
def Obligations.RasterLinesAct : Prop :=
  ∀ (h : Head) (forward : Bool) (at_ n : Nat) (s : State),
    let x := s.cfg.heads[h]
    let r := s.rasters[h]
    let start : Int := (at_ : Int) + lineTrim x forward
    let tracked : RasterDyn := { r with fNow := n, lineFwd := forward, lineAt := some start }
    let within := bandLow x.ras < n ∧ n < bandHigh x.ras
    let shut (t : State) : Prop := t.heads[h].gateOpen = false ∧
      ∀ i : Chan, t.chans[i].gateOpen = (s.chans[i].gateOpen && s.cfg.chans[i].st.head != h)
    let isNew := r.line = 0 ∨ forward ≠ r.lineFwd
    (x.raster = false ∨ r.scan ≠ 2 ∨ ¬ isNew → exec (.rasterLineStart h forward at_ n) s = .next (settle s)) ∧
    (x.raster = true → r.scan = 2 → isNew → ¬ within →
      Ends (.rasterLineStart h forward at_ n) s [.heads, .rasters, .chans, .cxl, .ev, .out] fun t =>
        shut t ∧ t.rasters[h].scan = 1 ∧ t.rasters[h].line = r.line) ∧
    (x.raster = true → r.scan = 2 → isNew → within → s.heads[h].showing = false ∨ start < (showStart s h : Int) →
      Ends (.rasterLineStart h forward at_ n) s [.heads, .rasters, .chans, .cxl, .out] fun t =>
        t.rasters = s.rasters.set h tracked ∧ shut t) ∧
    (x.raster = true → r.scan = 2 → isNew → within → s.heads[h].showing = true → (showStart s h : Int) ≤ start →
      (linesShown s h ≤ r.line → Ends (.rasterLineStart h forward at_ n) s [.heads, .rasters, .chans, .cxl, .out] fun t =>
        t.rasters[h].line = r.line ∧ (0 < r.line → t.rasters[h].linesOver = true) ∧
        (0 < r.line → r.linesOver = false → t.rasters[h].slow = .held (linePosition s h r.line)) ∧ shut t) ∧
      (r.line < linesShown s h →
        Ends (.rasterLineStart h forward at_ n) s [.clk, .heads, .links, .rasters, .chans, .cxl, .ev, .out] fun t =>
          t.rasters = s.rasters.set h { tracked with
            line := r.line + 1, gateUsed := false, slow := .ramp (linePosition s h r.line) (linePosition s h (r.line + 1)) } ∧
          (s.links[h].stopping = true → t.links[h].stopped = true) ∧ (s.links[h].stopping = false → t.links = s.links) ∧
          shut t ∧ t.clk.tick = s.clk.tick ∧ t.clk.now = s.clk.now)) ∧
    (x.raster = true → s.heads[h].showing = false ∨ lineLights s h = false → exec (.shuntGateOpen h) s = .next (settle s)) ∧
    (x.raster = true → s.heads[h].showing = true → lineLights s h = true →
      Ends (.shuntGateOpen h) s [.heads, .rasters, .chans, .cxl, .out] fun t =>
        t.rasters = s.rasters.set h { r with gateUsed := true } ∧
        ∀ i : Chan, t.chans[i].gateOpen = (s.chans[i].gateOpen || (mayLight s h && showsLight s h && gateFollows s h none i))) ∧
    (x.raster = true → Ends (.shuntGateClose h) s [.heads, .rasters, .chans, .cxl, .out] fun t =>
      t.rasters = s.rasters.set h { r with gateUsed := true } ∧ shut t)

/-- Line packets and table packets (R236, R238 to R243). A lane of a group that runs sends IDLE where it has nothing else to send.
A packet that is due again goes first, where it still meets its deadline; before S_k a due table goes next; then the packets of the
lines, on their lane, no earlier than two half-periods before the predicted start of their line and no later than its deadline, with
the slots as pressed and the window's pixels over them. A packet waits in the re-send buffer for its answer. -/
def Obligations.PacketsAreSent : Prop :=
  ∀ (h : Head) (lane : Fin 8) (at_ : Nat) (s : State),
    let x := s.cfg.heads[h]
    let r := s.rasters[h]
    let k := npkOf x.outW
    let y := r.packet / k
    let p := r.packet % k
    let done := at_ + blockTime s h
    let line (f : Flight) : Rat × Bool := (predicted s h f.block).getD (0, true)
    let resend := r.flights.find? fun f => !f.waiting && flightLane x f == lane.val && inTime s h f.block (line f) done
    let words (b : Fin 8) (p y : Nat) (payload : List Byte) : Output :=
      .lane h b (codeWords (s.cfg.links[h].txPol.testBit b.val) s.links[h].scram[b].toNat
        (blockWords (blockHeader s h 2 p y) payload)).1
    let slots (y p : Nat) (at_ : Rat × Bool) (data : List Byte) : List Byte :=
      toBytes 8 (packetDesc s h (packetLane x y p) at_ done) ++ ((List.range 63).map fun i => toBytes 8 (slotWord s h y p i data)).flatten
    let table (i : Nat) : List Byte :=
      toBytes 8 (pack [(0, 12, x.outW + 1)]) ++ ((List.range 252).map fun j =>
        toBytes 2 (if 252 * i + j < x.outW + 1 then rtEdge x (252 * i + j) else 0)).flatten
    let flight (p y : Nat) (data : List Byte) : Flight := { plane := p, block := y, resends := 0, waiting := true, data := data }
    (∀ late, x.raster = false ∨ linkLive s h = false → exec (.linePacketSend h lane at_ late) s = .next (settle s)) ∧
    (∀ late, x.raster = true → linkLive s h = true → linkSends s h = false ∨ s.clk.phase = .latch →
      exec (.linePacketSend h lane at_ late) s = .next (settle (sendIdle h lane s))) ∧
    (x.raster = true → linkSends s h = true → s.clk.phase ≠ .latch →
      (∀ late f, resend = some f →
        Ends (.linePacketSend h lane at_ late) s [.links, .rasters, .cxl, .out] fun t =>
          t.links[h].resent = sat 32 (s.links[h].resent + 1) ∧ t.rasters[h].packet = r.packet ∧
          Sends (if f.block = 0xFFF then words (packetLane x 0xFFF (96 + (f.plane - 96))) (96 + (f.plane - 96)) 0xFFF (table (f.plane - 96))
            else words (packetLane x f.block f.plane) f.plane f.block (slots f.block f.plane (line f) f.data)) s t) ∧
      (∀ late, resend = none → tableWaits s h = true → packetLane x 0xFFF (96 + r.tableNext) = lane → laneFree s h lane = true →
        inTime s h 0xFFF (0, true) done = true →
        Ends (.linePacketSend h lane at_ late) s [.links, .rasters, .cxl, .out] fun t =>
          t.rasters = s.rasters.set h { r with
            tableNext := r.tableNext + 1, flights := r.flights ++ [flight (96 + r.tableNext) 0xFFF []] } ∧
          Sends (words lane (96 + r.tableNext) 0xFFF (table r.tableNext)) s t) ∧
      (∀ late, resend = none → tableWaits s h = true → packetLane x 0xFFF (96 + r.tableNext) ≠ lane ∨ laneFree s h lane = false ∨
          inTime s h 0xFFF (0, true) done = false →
        exec (.linePacketSend h lane at_ late) s = .next (settle (sendIdle h lane s))) ∧
      (∀ late, resend = none → tableWaits s h = false → k = 0 ∨ linesShown s h ≤ y ∨ s.heads[h].spanDone = true ∨
          packetLane x y p ≠ lane ∨ laneFree s h lane = false ∨ predicted s h y = none →
        exec (.linePacketSend h lane at_ late) s = .next (settle (sendIdle h lane s))) ∧
      (∀ late q, resend = none → tableWaits s h = false → predicted s h y = some q →
          (at_ : Rat) < q.1 - 2 * halfPeriod s h ∨ inTime s h y q done = false →
        exec (.linePacketSend h lane at_ late) s = .next (settle (sendIdle h lane s))) ∧
      (∀ late q, resend = none → tableWaits s h = false → 0 < k → y < linesShown s h → s.heads[h].spanDone = false →
        packetLane x y p = lane → laneFree s h lane = true → predicted s h y = some q → q.1 - 2 * halfPeriod s h ≤ (at_ : Rat) →
        inTime s h y q done = true → (late = false ∧ s.cxl.attached = true) ∨ s.heads[h].mode = .safe →
        let data := fetchPacket s h y p
        Ends (.linePacketSend h lane at_ late) s [.links, .rasters, .cxl, .out] fun t =>
          t.rasters = s.rasters.set h { r with packet := r.packet + 1, flights := r.flights ++ [flight p y data] } ∧
          Sends (words lane p y (slots y p q data)) (if data.isEmpty then s else askIo false [slotRange s h y p] s) t))

/-! ## Light channels (R248 to R285, R345) -/

/-- Judged windows, faults and restarts (R252, R257, R258, R262, R330). A window is judged where the gate stayed open for 2 µs; V_S is
computed from the supply voltage and the duties. Open string (open first) and short string latch; an
over-current restarts after 64 ticks unless another came within 4096 ticks; each fault holds both buck gates low and diverts.
DIAGNOSTIC_PULSE (R259) and DRIFT_CHECK (R261, R262). A pulse opens the channel's gate in its slot, between the LATCH and the show
of a head that shows light and may light; a check takes the next channel of the round robin, once in each of the tick's slots of
20 µs. A check whose samples are 65 000 codes or more is taken and leaves no judgement (R264). -/
def Obligations.ChannelsAreJudged : Prop := (
  ∀ (n : Chan) (m : ChanMeas) (o : OverMeas) (s : State),
    let c := s.chans[n]
    let lv := s.cfg.chans[n].lv
    let st := s.cfg.chans[n].st
    let v := sat 16 (stringVolts st m)
    let starved := 97 / 100 ≤ m.dPass ∧ m.iMean < 3 / 4 * c.iCmd
    let faulted (cause : Nat) (t : State) : Prop := t.chans[n].state = 3 ∧ t.chans[n].cause = cause ∧ t.chans[n].gateOpen = false ∧
      t.chans[n].bucksOff = true ∧ t.chans[n].started = false ∧ ∀ k, k ≠ n → t.chans[k] = s.chans[k]
    let tooMuch := (st.ocLevel : Rat) / 100 * (st.iMax : Rat) < o.iMean ∨ 16 ≤ o.peaks
    let f := [Part.chans, .cxl, .ev, .out]
    (c.state ≠ 2 ∨ c.opened = false ∨ m.ns < 2000 → exec (.channelJudge n m) s = .next (settle s)) ∧
    (c.state = 2 → c.opened = true → 2000 ≤ m.ns →
      (judgeCause s n v m = none → Ends (.channelJudge n m) s [.chans, .cxl, .out] fun t =>
        t.chans[n].state = 2 ∧ t.chans[n].vS = v ∧ t.chans[n].vKnown = true ∧ t.chans[n].iMeas = (ratRound m.iMean).toNat ∧
        t.chans[n].since = 0 ∧ t.chans[n].unjudged = 0 ∧ t.chans[n].gateOpen = (c.gateOpen && s.heads[st.head].gateOpen) ∧
        ∀ k, k ≠ n → t.chans[k] = s.chans[k]) ∧
      (lv.vOpen ≤ v ∨ starved → Ends (.channelJudge n m) s f fun t =>
        faulted 0 t ∧ t.chans[n].latched = true ∧ t.chans[n].restart = none ∧ t.chans[n].vS = v) ∧
      (v < lv.vOpen → ¬ starved → v ≤ lv.vShort → Ends (.channelJudge n m) s f fun t =>
        faulted 1 t ∧ t.chans[n].latched = true ∧ t.chans[n].restart = none ∧ t.chans[n].vS = v)) ∧
    ((c.state ≠ 1 ∧ c.state ≠ 2) ∨ ¬ tooMuch → exec (.overCurrent n o) s = .next (settle s)) ∧
    (c.state = 1 ∨ c.state = 2 → tooMuch → Ends (.overCurrent n o) s f fun t =>
      faulted 2 t ∧ t.chans[n].lastOver = some s.clk.tick ∧
      ((∀ k, c.lastOver = some k → k + 4096 ≤ s.clk.tick) → t.chans[n].latched = false ∧
        t.chans[n].restart = some (s.clk.tick + 64)) ∧
      (∀ k, c.lastOver = some k → s.clk.tick < k + 4096 → t.chans[n].latched = true ∧ t.chans[n].restart = none)) ∧
    ((∀ k, c.restart = some k → c.state = 3 → k ≤ s.clk.tick → chanRuns s n = false) →
      exec (.chFaultRestart n) s = .next (settle s)) ∧
    (∀ k, c.restart = some k → c.state = 3 → k ≤ s.clk.tick → chanRuns s n = true → Ends (.chFaultRestart n) s f fun t =>
      t.chans = s.chans.set n { c with state := 1, ref := 0, latched := false, restart := none, started := false, unjudged := 0 }) ∧
    (c.state = 3 → c.latched = true → c.cause = 5 → exec (.gateFault n) s = .next (settle s)) ∧
    (c.state ≠ 3 ∨ c.latched = false ∨ c.cause ≠ 5 →
      Ends (.gateFault n) s f fun t => faulted 5 t ∧ t.chans[n].latched = true ∧ t.chans[n].restart = none)) ∧ (
  ∀ (h : Head) (s : State),
    (∀ i, s.heads[h].diag[i]? = none ∨ diagSlots s ≤ i ∨ s.clk.phase = .latch ∨ s.heads[h].showing = true ∨ s.heads[h].spanDone = true ∨
      mayLight s h = false ∨ showsLight s h = false → exec (.diagnosticPulse h i) s = .next (settle s)) ∧
    (∀ i n, s.heads[h].diag[i]? = some n → i < diagSlots s → s.clk.phase ≠ .latch → s.heads[h].showing = false →
      s.heads[h].spanDone = false → mayLight s h = true → showsLight s h = true → s.chans[n].state = 2 →
      Ends (.diagnosticPulse h i) s [.clk, .chans, .cxl, .out] fun t =>
        t.chans[n].gateOpen = true ∧ (∀ k, k ≠ n → t.chans[k] = s.chans[k]) ∧ t.clk.now = max s.clk.now (diagAt s h i) ∧
        t.clk.phase = s.clk.phase) ∧
    (∀ a b, s.heads[h].driftOk = false ∨ s.cfg.heads[h].raster = true ∨ s.clk.phase = .latch ∨ s.heads[h].showing = true ∨
      s.heads[h].spanDone = true ∨ mayLight s h = false ∨
      driftSlots s h ≤ s.heads[h].driftDone ∨ driftChan s h = none → exec (.driftCheck h a b) s = .next (settle s)) ∧
    (∀ a b n, s.heads[h].driftOk = true → s.cfg.heads[h].raster = false → s.clk.phase ≠ .latch → s.heads[h].showing = false →
      s.heads[h].spanDone = false → mayLight s h = true → s.heads[h].driftDone < driftSlots s h → driftChan s h = some n →
      (Ends (.driftCheck h a b) s [.clk, .heads, .chans, .oss, .cxl, .ev, .out, .free] fun t =>
        t.heads[h].driftDone = s.heads[h].driftDone + 1 ∧ t.heads[h].driftNext = (n.val + 1) % 64 ∧ t.chans[n].sinceDrift = 0 ∧
        (∀ k, k ≠ n → t.chans[k] = s.chans[k])) ∧
      (∀ i, 65000 ≤ a ∨ 65000 ≤ b → driftOs s h s.cfg.chans[n].st.colour = some i →
        Ends (.driftCheck h a b) s [.clk, .heads, .chans, .oss, .cxl, .out] fun t =>
          t.chans[n].driftTold = s.chans[n].driftTold ∧ t.chans[n].thetaTarget = s.chans[n].thetaTarget ∧
          t.oss = s.oss.set i { s.oss[i] with sat := true })))

/-! ## Safety and supervision (R334 to R346, R396) -/

/-- Faults of the safety pair and of the monitors (R334, R337, R338, R341): hardware cuts every channel's light, the device is
dark, the cause is recorded, and the pair restarts where the fault is its own. A monitor fault stands until its condition has been
absent, and does not repeat meanwhile; the channels stay cut while another condition or the pair's restart holds them. ENERGY_TRIP
(R345): hardware cuts every channel and the device is dark, latched until reset; a second trip changes nothing. -/
def Obligations.HardwareFaultsGoDark : Prop := (
  ∀ s : State,
    let f := [Part.chans, .safety, .cxl, .ev, .boot, .out]
    let dark (m : Nat) (t : State) : Prop := t.safety.mode = .dark ∧ t.safety.causes.getLsbD m = true ∧
      t.safety.standing.getLsbD m = true ∧ t.safety.safeN = true ∧ t.safety.hwDivert = true ∧
      ∀ n : Chan, t.chans[n].gateOpen = false ∧ t.chans[n].bucksOff = true
    Ends .lockstepFault s f (fun t => dark 2 t ∧ t.boot.down[(2 : Fin 3)] = true ∧ t.boot.restarts = s.boot.restarts) ∧
    Ends .watchdogExpiry s f (fun t => dark 3 t ∧ t.boot.down[(2 : Fin 3)] = true ∧ t.boot.restarts = s.boot.restarts) ∧
    (s.safety.monitors.getLsbD 0 = true → exec .clockFault s = .next (settle s)) ∧
    (s.safety.monitors.getLsbD 1 = true → exec .voltageFault s = .next (settle s)) ∧
    (s.safety.monitors.getLsbD 0 = false → Ends .clockFault s [.chans, .safety, .cxl, .ev, .out] fun t =>
      dark 5 t ∧ t.safety.monitors = s.safety.monitors ||| 1) ∧
    (s.safety.monitors.getLsbD 1 = false → Ends .voltageFault s [.chans, .safety, .cxl, .ev, .out] fun t =>
      dark 6 t ∧ t.safety.monitors = s.safety.monitors ||| 2) ∧
    (∀ v : Bool, Ends (.monitorFaultClear v) s [.safety, .cxl, .out] fun t =>
      t.safety = { s.safety with monitors := t.safety.monitors, hwDivert := t.safety.hwDivert } ∧
      t.safety.monitors = s.safety.monitors &&& (if v then 1 else 2) ∧
      (t.safety.hwDivert = true ↔ t.safety.monitors ≠ 0 ∨ s.boot.down[(2 : Fin 3)] = true))) ∧ (
  ∀ (h : Head) (c : Colour) (long : Bool) (s : State),
    (s.safety.energy = true → exec (.energyTrip h c long) s = .next (settle s)) ∧
    (s.safety.energy = false → Ends (.energyTrip h c long) s [.heads, .chans, .safety, .cxl, .ev, .out] fun t =>
      t.safety.energy = true ∧ t.safety.mode = .dark ∧ t.safety.latched = true ∧ t.safety.safeN = true ∧
      t.safety.causes.getLsbD 10 = true ∧ (∀ n : Chan, t.chans[n].gateOpen = false ∧ t.chans[n].bucksOff = true) ∧
      ∀ k : Head, mayLight t k = false))

/-- ECC_ERROR (R336, R341). A correction is counted and told at most once per second per region; an uncorrectable error of the
safe path makes the device dark, that of a control core restarts it, that of the picture's regions cuts the builds it names, and that
of a plane-link buffer counts its block as refused (R209).
Q2_TIMEOUT (R335), SAFE_PATH_RELOAD_DONE (R340, R343): once every condition of a restartable cause has cleared, the asset that was
read again comes into force, nothing stands any more and a dark device may show its window at the next LATCH; a failed test or a
rejected asset is latched. CORE_HEARTBEAT_TIMEOUT and CORE_RESTART (R396). After a restart the core's
queues are served again, and their undelivered completions are written again with REPLAY; a restart of the safety core lets any
ALIVE counter pass. While no command waits. -/
def Obligations.ErrorsAndSupervisionAct : Prop := (
  ∀ (heads : BitVec 4) (core : Bool) (p b : Nat) (s : State),
    (∀ r : Fin 11, eccTold r s = true →
      exec (.eccError r false heads core p b) s = .next (settle (onSafety (fun y => { y with
        eccTimes := y.eccTimes.set r (s.clk.now :: y.eccTimes[r].filter fun t => decide (s.clk.now < t + msT 1000)) }) s))) ∧
    (∀ r : Fin 11, eccTold r s = false → s.ev.store.length < 4096 →
      Ends (.eccError r false heads core p b) s [.safety, .cxl, .ev, .out] fun t =>
        t.safety.eccTick[r] = some s.clk.now ∧ t.safety.mode = s.safety.mode ∧
        t.safety.eccTimes[r] = s.clk.now :: s.safety.eccTimes[r].filter fun t => decide (s.clk.now < t + msT 1000)) ∧
    (∀ r : Fin 11, r = 1 ∨ r = 8 ∨ r = 9 ∨ r = 10 →
      Ends (.eccError r true heads core p b) s [.chans, .safety, .cxl, .ev, .out] fun t =>
        t.safety.mode = .dark ∧ t.safety.causes.getLsbD 1 = true ∧ t.safety.standing.getLsbD 1 = true ∧
        ∀ n : Chan, t.chans[n].gateOpen = false) ∧
    (let c : Fin 3 := if core then 1 else 0
     (s.boot.down[c] = true → exec (.eccError 0 true heads core p b) s = .next (settle s)) ∧
     (s.boot.down[c] = false → exec (.eccError 0 true heads core p b) s = .next (settle (onBoot (fun x => { x with
        down := x.down.set c true, coreCause := x.coreCause.set c 0 }) s)))) ∧
    exec (.eccError 2 true heads core p b) s = .next (settle s) ∧
    Ends (.eccError 7 true heads core p b) s [.heads, .links, .rasters, .chans, .safety, .cxl, .ev, .out] (fun t =>
      (∀ g : Head, heads.getLsbD g.val = false → t.links[g] = s.links[g] ∧ t.rasters[g] = s.rasters[g]) ∧
      ∀ (g : Head) (f : Flight), heads.getLsbD g.val = true →
        (flightsOf s g).find? (fun x => x.plane == p && x.block == b) = some f → f.resends < 3 →
        ∀ x ∈ flightsOf t g, x.plane = p → x.block = b → x.waiting = false) ∧
    (∀ r : Fin 11, 3 ≤ r.val → r.val ≤ 6 →
      Ends (.eccError r true heads core p b) s [.clk, .heads, .planes, .cxl, .ev, .out, .free] fun t =>
        ∀ h : Head, pressing t h = (pressing s h && !heads.getLsbD h.val) ∧
          (heads.getLsbD h.val = true → pressing s h = true → t.heads[h].cut = true))) ∧ (
  ∀ s : State,
    let rejected (m : Nat) (t : State) : Prop :=
      t.safety.mode = .dark ∧ t.safety.latched = true ∧ t.safety.causes.getLsbD m = true
    (s.safety.q2Run = false ∨ s.safety.q2Timeout = true → exec .q2Timeout s = .next (settle s)) ∧
    (s.safety.q2Run = true → s.safety.q2Timeout = false → s.ev.store.length < 4096 →
      Ends .q2Timeout s [.safety, .cxl, .ev, .out] fun t =>
        t.safety = { s.safety with q2Timeout := true, ttDue := true }) ∧
    (∀ passed a, reloadable s = false → exec (.safePathReloadDone passed a) s = .next (settle s)) ∧
    (∀ a, reloadable s = true → Ends (.safePathReloadDone false a) s [.chans, .safety, .cxl, .ev, .out] (rejected 12)) ∧
    (∀ a, reloadable s = true → assetOk a = false → Ends (.safePathReloadDone true a) s [.chans, .safety, .cxl, .ev, .out] (rejected 13)) ∧
    (∀ a, reloadable s = true → assetOk a = true → Ends (.safePathReloadDone true a) s [.safety, .cxl, .out] fun t =>
      t.safety = { s.safety with
        asset := some (assetOf a), standing := 0, toWindow := s.safety.mode == .dark && !s.safety.darkLatched
        staged := t.safety.staged } ∧ t.safety.staged = layoutsOf t) ∧
    (∀ c : Fin 2, s.boot.down[Fin.ofNat 3 c.val] = true → exec (.coreHeartbeatTimeout c) s = .next (settle s)) ∧
    (∀ c : Fin 2, s.boot.down[Fin.ofNat 3 c.val] = false →
      exec (.coreHeartbeatTimeout c) s = .next (settle (onBoot (fun b => { b with
        down := b.down.set (Fin.ofNat 3 c.val) true, coreCause := b.coreCause.set (Fin.ofNat 3 c.val) 1 }) s))) ∧
    (∀ c : Fin 3, s.boot.down[c] = false → exec (.coreRestart c) s = .next (settle s)) ∧
    (∀ c : Fin 3, s.boot.down[c] = true → Quiet s →
      Ends (.coreRestart c) s [.safety, .cxl, .queues, .ev, .boot, .out] fun t =>
        t.boot.down = s.boot.down.set c false ∧ t.boot.restarts = s.boot.restarts + 1 ∧
        (∀ q : Fin 4, (coreOf q ≠ c → t.queues[q] = s.queues[q]) ∧
          (coreOf q = c → s.queues[q].en = true → ∀ x ∈ t.queues[q].journal, x.delivered = false → x.replay = true)) ∧
        t.safety = (if c = 2 then { s.safety with anyAlive := true, hwDivert := s.safety.monitors != 0 } else s.safety)))

/-! ## Temperature (R303 to R318) -/

/-- THERMAL_SAMPLE (R304, R305, R315). Each sensor that is read once takes its reading: a valid sensor's filter moves by 1/32 of
the difference, a reading out of range or of a failed sensor leaves it; the throttle's level does not change in a sample; the
second consecutive conversion of a die sensor at 130 °C or more trips the die group, cuts every channel and makes the device dark. In
reset nothing converts. -/
def Obligations.SamplesFilterAndTrip : Prop :=
  ∀ (r : List (Fin 36 × Reading)) (s : State),
    (s.boot.stage = .reset → exec (.thermalSample r) s = .next (settle s)) ∧
    (s.boot.stage ≠ .reset → (r.map (·.1)).Nodup →
      Ends (.thermalSample r) s [.chans, .therm, .safety, .cxl, .ev, .out] fun t =>
        t.therm.level = s.therm.level ∧ t.therm.stepDue = s.therm.stepDue ∧
        (∀ i v, (i, v) ∈ r → i.val < 12 →
          let x := s.therm.sensors[i]
          let y := t.therm.sensors[i]
          y.raw = readingOf v ∧ y.tried = true ∧
          (∀ q, readingOf v = some q → -55 ≤ q → q ≤ 175 → y.seen = true ∧ y.last = q ∧
            (x.failed = true → y.tf = x.tf) ∧
            (x.failed = false → x.seen = true → y.tf = x.tf + (q - x.tf) / 32) ∧
            (x.failed = false → x.seen = false → y.tf = q) ∧
            y.overs = (if 130 ≤ q then x.overs + 1 else 0)) ∧
          (readingOf v = none → y.last = x.last ∧ y.tf = x.tf ∧ y.overs = 0 ∧ (x.failed = false → y.failed = true))) ∧
        (∀ i v q, (i, v) ∈ r → i.val < 12 → readingOf v = some q → 130 ≤ q → 1 ≤ s.therm.sensors[i].overs →
          t.therm.groups[(0 : Fin 2)].tripped = true ∧
          (s.therm.groups[(0 : Fin 2)].tripped = false → t.safety.mode = .dark ∧ t.safety.causes.getLsbD 11 = true ∧
            ∀ n : Chan, t.chans[n].gateOpen = false ∧ t.chans[n].bucksOff = true)))

/-- What ends after its time (R307, R312, R314, R315): a throttle condition that has held its dwell makes one step due; the hold
of a failed holder, the freeze of the throttle, the failure of a sensor and the latch of a trip end; before its time each changes
nothing. Where a slope window restarts, every timer of a throttle condition does. -/
def Obligations.ThermalTimersEnd : Prop :=
  ∀ s : State,
    let x := s.therm
    let floor := if x.groups[(0 : Fin 2)].blind = true ∨ x.groups[(1 : Fin 2)].blind = true then 5 else 0
    let restarted (i : Fin 36) (t : State) : Prop := ∀ g, groupOfSensor s i = some g →
      t.therm.groups[g].window = [] ∧ t.therm.groups[g].slope = 0 ∧ t.therm.downMs = 0 ∧ ∀ k : Fin 2, t.therm.groups[k].upMs = 0
    (∀ b, x.stepDue.isSome = true ∨ x.groups[groupFlag b].upMs < 250 ∨ 8 ≤ x.level →
      exec (.throttleStepDue true b) s = .next (settle s)) ∧
    (∀ b, x.stepDue.isSome = true ∨ x.downMs < 2000 ∨ x.level ≤ floor → exec (.throttleStepDue false b) s = .next (settle s)) ∧
    (∀ b up, x.stepDue = none → (up = true → 250 ≤ x.groups[groupFlag b].upMs ∧ x.level < 8) →
      (up = false → 2000 ≤ x.downMs ∧ floor < x.level) →
      Ends (.throttleStepDue up b) s [.therm, .cxl, .out] fun t =>
        t.therm.stepDue = some (up, b) ∧ t.therm.downMs = 0 ∧ t.therm.level = x.level ∧ t.therm.sensors = x.sensors ∧
        ∀ g : Fin 2, t.therm.groups[g] = { x.groups[g] with upMs := 0 }) ∧
    (∀ i, x.sensors[i].hold = false ∨ x.sensors[i].holdMs < 60000 → exec (.substituteHoldEnd i) s = .next (settle s)) ∧
    (∀ i, x.sensors[i].failed = true → x.sensors[i].hold = true → 60000 ≤ x.sensors[i].holdMs →
      Ends (.substituteHoldEnd i) s [.therm, .cxl, .out] fun t =>
        t.therm.sensors = x.sensors.set i { x.sensors[i] with hold := false, holdMs := 0, sub := some (substitute s i) } ∧
        restarted i t) ∧
    Ends .throttleFreezeLift s [.therm, .cxl, .out] (fun t => t.therm.sensors = x.sensors ∧ t.therm.level = x.level ∧
      ∀ g : Fin 2, t.therm.groups[g] = if x.groups[g].frozen = true ∧ 10000 ≤ x.groups[g].coldMs
        then { x.groups[g] with frozen := false, coldMs := 0 } else x.groups[g]) ∧
    (∀ i, x.sensors[i].failed = false ∨ x.sensors[i].okMs < 30000 → exec (.thermalSensorOk i) s = .next (settle s)) ∧
    (∀ i, x.sensors[i].failed = true → 30000 ≤ x.sensors[i].okMs →
      Ends (.thermalSensorOk i) s [.therm, .cxl, .ev, .out] fun t =>
        t.therm.sensors = x.sensors.set i { x.sensors[i] with
          failed := false, sub := none, hold := false, holdMs := 0, okMs := 0, tf := x.sensors[i].last } ∧ restarted i t) ∧
    (∀ b, x.groups[groupFlag b].tripped = false ∨ x.groups[groupFlag b].coolMs < 10000 →
      exec (.thermalTripClear b) s = .next (settle s)) ∧
    (∀ b, x.groups[groupFlag b].tripped = true → 10000 ≤ x.groups[groupFlag b].coolMs →
      exec (.thermalTripClear b) s = .next (settle (onGroup (groupFlag b) (fun g => { g with tripped := false, coolMs := 0 }) s)))

/-! ## Reset, boot, flash, OTP and test access (R401 to R420, R428 to R432, R440, R463 to R475) -/

/-- POWER_ON_RESET, PIN_RESET and WARM_RESET (R407, R410): every part takes its reset state but the OTP, the flash, a latched
thermal trip and the stores in host memory, and the outputs are at high impedance; a warm reset keeps the straps, and comes only where
firmware has asked for it. A reset changes no OTP bit but those of a generation whose first words were being programmed. A due
warm reset takes the place of the LATCH at a boundary (R471, R412). -/
def Obligations.ResetsRestoreTheDevice : Prop := (
  ∀ s : State,
    let f := [Part.clk, .cfg, .pendLv, .openSet, .com, .comp, .heads, .links, .rasters, .chans, .loops, .oss, .lines, .sluice, .therm,
      .safety, .cxl, .queues, .ev, .boot, .power, .otp, .cal, .flash, .upd, .cw, .jtag, .bar2, .mirrorGen, .out, .free]
    let trip := s.therm.groups[(0 : Fin 2)].tripped || s.therm.groups[(1 : Fin 2)].tripped
    let fresh (k : ResetKind) (t : State) : Prop :=
      t.boot = { State.reset.boot with stage := .reset, kind := k, straps := s.boot.straps, sampled := k == .warm && s.boot.sampled } ∧
      t.clk = { State.reset.clk with now := s.clk.now, start := s.clk.now } ∧ t.cfg = State.reset.cfg ∧
      t.queues = State.reset.queues ∧ t.ev = State.reset.ev ∧ t.heads = State.reset.heads ∧ t.chans = State.reset.chans ∧
      t.links = State.reset.links ∧ t.cal = State.reset.cal ∧ t.upd = State.reset.upd ∧ t.bar2 = State.reset.bar2 ∧
      t.flash = { s.flash with jobs := [], slice := false } ∧ t.otp = { s.otp with gens := t.otp.gens } ∧
      (s.cal.commit = none → t.otp = s.otp) ∧ .hiZ ∈ t.out ∧
      (∀ g : Fin 2, t.therm.groups[g].tripped = s.therm.groups[g].tripped) ∧
      (trip = false → t.safety = State.reset.safety ∧ t.therm = State.reset.therm) ∧
      (trip = true → t.safety.mode = .dark ∧ t.safety.causes = 0x0800 ∧ t.safety.standing = 0x0800)
    Ends .powerOnReset s f (fresh .power) ∧ Ends .pinReset s f (fresh .pin) ∧
    (s.upd.resetDue = true → Ends .warmReset s f (fresh .warm)) ∧ (s.upd.resetDue = false → exec .warmReset s = .next (settle s))) ∧ (
  ∀ (a : TickCheck) (c : BitVec 32) (b : Nat) (s : State), s.clk.phase = .finish → s.clk.boundary = some b →
    s.upd.resetDue = true →
    ∃ t, exec (.tickBoundary a c) s = .next t ∧ t.boot.stage = .reset ∧ t.boot.kind = .warm ∧ t.clk.now = max s.clk.now b ∧
      t.cfg = State.reset.cfg ∧ t.queues = State.reset.queues ∧ t.otp = s.otp ∧ t.pending = s.pending ∧ t.flash.record = s.flash.record)

/-- RESET_RELEASE and BOOT_START (R412 to R415, R470). The straps are sampled but after a warm reset, and the boot starts at once
after a warm reset or with WAKE_IN high, else when WAKE_IN has risen; BOOT_SRC 2 leads to recovery; else a programmed device boots its
image, counting a trial's boots; one whose integrator block is blank waits for its programming, and a bad OTP region is a boot fault. BOOT_FAULT and
PLL_LOCK_TIMEOUT (R341, R402, R414, R415): only while the device boots. A fault is latched, the device dark, and recovery follows
where the CXL port runs; a load or signature that fails takes the other slot once, where its state allows. -/
def Obligations.BootFollowsItsSteps : Prop := (
  ∀ s : State,
    let warm := s.boot.kind == .warm && s.boot.sampled
    let boots (p : Straps) (t : State) : Prop := t.boot.stage = .booting ∧ t.boot.straps = p ∧ t.boot.bootAt = s.clk.now ∧
      t.clk.held = false ∧ t.clk.now = s.clk.now ∧ t.cxl.cfgReady = p.cxlEn
    let blank (p : Straps) (t : State) : Prop :=
      t.boot.stage = (if p.cxlEn then BootStage.recovery else .factory) ∧ t.boot.straps = p ∧ t.safety = s.safety
    (∀ p w, s.boot.stage ≠ .reset → exec (.resetRelease p w) s = .next (settle s)) ∧
    (∀ p, s.boot.stage = .reset → warm = false →
      exec (.resetRelease p false) s = .next (settle (emit .driven (onClk (fun c => { c with start := c.now })
        (onBoot (fun b => { b with stage := .waiting, sampled := true, straps := p }) s))))) ∧
    (∀ p w i, s.boot.stage = .reset → warm = true ∨ w = true → s.otp.vendorOk = true → s.otp.integrator = some i → integratorOk i = true →
      let q := if warm then s.boot.straps else p
      q.bootSrc ≠ 2 → s.flash.record.state[activeOf s.flash.record] ≠ 3 →
      Ends (.resetRelease p w) s [.clk, .cxl, .boot, .out] (boots q)) ∧
    (∀ p w, s.boot.stage = .reset → warm = true ∨ w = true → s.otp.vendorOk = true → s.otp.integrator = none →
      (if warm then s.boot.straps else p).bootSrc ≠ 2 →
      Ends (.resetRelease p w) s [.clk, .cxl, .boot, .out] (blank (if warm then s.boot.straps else p))) ∧
    (s.boot.stage ≠ .waiting → exec .bootStart s = .next (settle s)) ∧
    (s.boot.stage = .waiting → s.otp.vendorOk = true → s.boot.straps.bootSrc = 2 → s.boot.straps.cxlEn = true →
      Ends .bootStart s [.clk, .cxl, .boot, .out] (blank s.boot.straps)) ∧
    (s.boot.stage = .waiting → s.otp.vendorOk = true → s.boot.straps.bootSrc ≠ 2 → s.otp.integrator = none →
      Ends .bootStart s [.clk, .cxl, .boot, .out] (blank s.boot.straps)) ∧
    (∀ i, s.boot.stage = .waiting → s.otp.vendorOk = true → s.otp.integrator = some i → integratorOk i = true →
      s.boot.straps.bootSrc ≠ 2 →
      (s.flash.record.state[activeOf s.flash.record] ≠ 3 → Ends .bootStart s [.clk, .cxl, .boot, .out] (boots s.boot.straps)) ∧
      (s.flash.record.state[activeOf s.flash.record] = 3 → s.flash.record.trials < 3 →
        Ends .bootStart s [.clk, .cxl, .boot, .flash, .out] fun t =>
          boots s.boot.straps t ∧ t.flash.record.trials = s.flash.record.trials + 1 ∧ t.flash.record.active = s.flash.record.active) ∧
      (s.flash.record.state[activeOf s.flash.record] = 3 → 3 ≤ s.flash.record.trials →
        s.flash.record.state[stagingOf s.flash.record] = 5 →
        Ends .bootStart s [.clk, .cxl, .boot, .flash, .out] fun t =>
          boots s.boot.straps t ∧ t.flash.record.active = (!s.flash.record.active) ∧ t.flash.record.revert = 1)) ∧
    (s.boot.stage = .waiting → s.otp.vendorOk = false → Quiet s →
      Ends .bootStart s [.clk, .chans, .safety, .cxl, .ev, .boot, .out] fun t =>
        t.boot.stage = faultStage s ∧ t.safety.mode = .dark ∧ t.safety.latched = true ∧ t.safety.causes.getLsbD 12 = true)) ∧ (
  ∀ s : State,
    let f := [Part.chans, .safety, .cxl, .ev, .boot, .out]
    let r := s.flash.record
    let failed (m : Nat) (t : State) : Prop := t.boot.stage = faultStage s ∧ t.safety.mode = .dark ∧ t.safety.latched = true ∧
      t.safety.causes.getLsbD m = true ∧ t.safety.safeN = true
    let other := s.boot.fellBack = false ∧ 3 ≤ r.state[stagingOf r] ∧ r.state[stagingOf r] ≤ 5
    (s.boot.stage ≠ .booting → exec .pllLockTimeout s = .next (settle s) ∧ ∀ k, exec (.bootFault k) s = .next (settle s)) ∧
    (s.boot.stage = .booting → Quiet s →
      Ends .pllLockTimeout s f (failed 12) ∧ Ends (.bootFault .asset) s f (failed 13) ∧
      (∀ k, k ≠ .asset → k ≠ .imageLoad → k ≠ .signature → Ends (.bootFault k) s f (failed 12)) ∧
      (∀ k, k = .imageLoad ∨ k = .signature → ¬ other → Ends (.bootFault k) s f (failed 12)) ∧
      (∀ k, k = .imageLoad ∨ k = .signature → other → Ends (.bootFault k) s [.cxl, .flash, .boot, .out] fun t =>
        t.boot = { s.boot with fellBack := true } ∧ t.flash.record.active = (!r.active) ∧ t.flash.record.revert = 3 ∧
        t.flash.record.seq = r.seq + 1)))

/-- READY_POINT (R414, R431, R473): the asset is checked, the highest sealed generation is in force, the stored settings have
taken effect, fetching begins and the Causeway ports ask for training; FIRST_LIGHT_TIMEOUT (R419) and TRIAL_TIMEOUT (R470) follow
it. -/
def Obligations.ReadyPointStartsTheDevice : Prop :=
  ∀ s : State,
    (∀ b, s.boot.stage ≠ .booting → exec (.readyPoint b) s = .next (settle s)) ∧
    (∀ b : BootLoad, s.boot.stage = .booting → assetOk b.asset = false → Quiet s →
      Ends (.readyPoint b) s [.chans, .safety, .cxl, .ev, .boot, .out] fun t =>
        t.boot.stage = faultStage s ∧ t.safety.mode = .dark ∧ t.safety.causes.getLsbD 13 = true) ∧
    (∀ b : BootLoad, s.boot.stage = .booting → assetOk b.asset = true → sealedGen s.otp = none → Quiet s →
      Ends (.readyPoint b) s [.chans, .safety, .cxl, .ev, .boot, .out] fun t =>
        t.boot.stage = faultStage s ∧ t.safety.mode = .dark ∧ t.safety.causes.getLsbD 12 = true) ∧
    (∀ (b : BootLoad) (g : Fin 4), s.boot.stage = .booting → assetOk b.asset = true → sealedGen s.otp = some g →
      let x := (bootSettings b (onBoot (fun y => { y with
        fwVersion := b.fwVersion, schema := b.schema, defaults := b.defaults, imageDigest := b.digest })
        (loadAsset (assetOf b.asset) s))).1
      placesOk (assetOf b.asset) (prospect x) = true → Quiet x →
      Ends (.readyPoint b) s [.clk, .cfg, .pendLv, .openSet, .com, .chans, .sluice, .safety, .cxl, .queues,
          .ev, .boot, .cal, .flash, .upd, .cw, .bar2, .out] fun t =>
        t.boot.stage = .running ∧ t.boot.readyAt = s.clk.now ∧ t.boot.fwVersion = b.fwVersion ∧ t.boot.schema = b.schema ∧
        t.cal.inForce = some g ∧ t.cal.live = s.otp.gens[g] ∧ t.cw.up.wanted = true ∧ t.cw.down.wanted = true ∧ t.cfg = x.cfg ∧
        t.flash.record = x.flash.record) ∧
    (s.boot.stage ≠ .running ∨ s.safety.firstLight = true → exec .firstLightTimeout s = .next (settle s)) ∧
    (s.boot.stage = .running → s.safety.firstLight = false →
      Ends .firstLightTimeout s [.chans, .safety, .cxl, .ev, .out] fun t =>
        ∀ h : Head, (s.cfg.wins[h].shown = true → s.heads[h].readyWin = false → t.safety.headDark.getLsbD h.val = true) ∧
          (s.safety.headDark.getLsbD h.val = true → t.safety.headDark.getLsbD h.val = true) ∧
          (s.cfg.wins[h].shown = false ∨ s.heads[h].readyWin = true →
            t.safety.headDark.getLsbD h.val = s.safety.headDark.getLsbD h.val)) ∧
    (let r := nextRecord s
     (s.upd.trialLeft = none ∨ r.state[activeOf r] ≠ 3 ∨ r.state[stagingOf r] ≠ 5 → exec .trialTimeout s = .next (settle s)) ∧
     (s.upd.trialLeft.isSome = true → r.state[activeOf r] = 3 → r.state[stagingOf r] = 5 →
      Ends .trialTimeout s [.flash, .upd, .cxl, .out] fun t => t.upd = { s.upd with trialLeft := none } ∧
        t.flash.jobs = s.flash.jobs ++ [{ plainJob (.record (revertRecord 2 r)) with tell := some 0, reset := true }]))

/-- TIMING_MARGIN_TRIP and PMIC_WRITE_DONE (R403 to R406): a trip selects P3 at once and remembers the voltage it came at; a
preset that has been written is selected at the next boundary, a write that fails is made once more, and a second failure ends
adaptive control. -/
def Obligations.CoreVoltageActs : Prop :=
  ∀ s : State,
    let p := s.power
    (p.vid = 3 → exec .timingMarginTrip s = .next (settle s)) ∧
    (p.vid ≠ 3 → Ends .timingMarginTrip s [.power, .cxl, .out] fun t =>
      t.power = { p with vid := 3, nextVid := 3, tripAt := some (presetMv p p.vid) } ∧ Sends (.vid 3) s t) ∧
    (∀ ok, p.writing = none → exec (.pmicWriteDone ok) s = .next (settle s)) ∧
    (∀ w, p.writing = some w → Ends (.pmicWriteDone true) s [.power, .cxl, .out] fun t =>
      t.power.writing = none ∧ t.power.tries = 0 ∧ t.power.vid = p.vid ∧
      t.power.p1 = (if w.1 = 1 then w.2 else p.p1) ∧ t.power.p2 = (if w.1 = 2 then w.2 else p.p2) ∧
      (p.tripAt = none → t.power.nextVid = w.1)) ∧
    (∀ w, p.writing = some w → p.tries = 0 → Ends (.pmicWriteDone false) s [.power, .cxl, .out] fun t =>
      t.power = { p with tries := 1 } ∧ ∀ i, s.otp.integrator = some i →
        Sends (.smbus i.pmicAddr (i.pmicCmd.extractLsb' (if w.1 = 1 then 0 else 8) 8) (i.pmicCmd.extractLsb' 16 8)
          (i.pmicCmd.getLsbD 24) w.2) s t) ∧
    (∀ w, p.writing = some w → p.tries ≠ 0 → Ends (.pmicWriteDone false) s [.power, .cxl, .out] fun t =>
      t.power.writing = none ∧ t.power.ended = true ∧ t.power.vid = (if p.vid = 3 then 3 else 0) ∧
      t.power.nextVid = (if p.vid = 3 then 3 else 0) ∧ t.power.p1 = p.p1 ∧ t.power.p2 = p.p2)

/-- FLASH_SLICE_DONE (R295, R465, R470, R472): only where a slice was granted, or in recovery. A slice that is not the job's last,
or that failed, leaves the job where it is; the last one ends it, and the flash holds what the job wrote. While no command waits.
OTP_SERIES_DONE (R432, R440): only for a commit whose series was granted. The first series leaves the generation consumed and
unsealed, the second seals it and puts it in force; a word that fails ends the commit with the generation unsealed. While no
command waits. -/
def Obligations.FlashAndOtpJobsEnd : Prop := (
  ∀ (finished ok : Bool) (s : State),
    (s.flash.slice = false → s.boot.stage ≠ .recovery → exec (.flashSliceDone finished ok) s = .next (settle s)) ∧
    (s.flash.slice = true → finished = false ∨ ok = false ∨ s.flash.jobs = [] →
      exec (.flashSliceDone finished ok) s = .next (settle (onFlash (fun f => { f with slice := false }) s))) ∧
    (∀ j r, s.flash.slice = true → s.boot.stage ≠ .recovery → s.flash.jobs = j :: r → Quiet s →
      Ends (.flashSliceDone true true) s [.chans, .safety, .cxl, .queues, .ev, .flash, .upd, .cw, .out] fun t =>
        t.flash.slice = false ∧ (∃ l, t.flash.jobs = r ++ l) ∧ (j.reset = true → t.upd.resetDue = true) ∧
        (j.work = .erase → t.flash.image = []) ∧
        (∀ b bytes, j.work = .block b bytes → t.flash.image = (b, bytes) :: s.flash.image.filter fun p => p.1 != b) ∧
        (∀ x, j.work = .record x → t.flash.record = { x with seq := s.flash.record.seq + 1 } ∧
          t.flash.current = !s.flash.current) ∧
        (∀ d es, j.work = .copy d es → t.flash.copies[if d then (1 : Fin 2) else 0] = es ∧
          t.flash.schemaOf[if d then (1 : Fin 2) else 0] = maxSchema es))) ∧ (
  ∀ (ok : Bool) (s : State),
    (s.cal.commit = none ∨ s.cal.granted = false → exec (.otpSeriesDone ok) s = .next (settle s)) ∧
    (∀ g utc station left, s.cal.commit = some (g, utc, station, left) → s.cal.granted = true →
      let written : Generation := { s.cal.live with consumed := true, isSealed := false, damaged := false, utc := utc, station := station }
      let gens (x : Generation) : Otp := { s.otp with gens := s.otp.gens.set g x }
      (1 < left → Ends (.otpSeriesDone true) s [.otp, .cal, .cxl, .out] fun t => t.otp = gens written ∧
        t.cal = { s.cal with commit := some (g, utc, station, left - 1), granted := false }) ∧
      (left ≤ 1 → Quiet s → Ends (.otpSeriesDone true) s [.loops, .otp, .cal, .cxl, .queues, .ev, .cw, .out] fun t =>
        t.otp = gens { written with isSealed := true } ∧ t.cal.inForce = some g ∧ t.cal.commit = none ∧ t.cal.uncommitted = false) ∧
      (Quiet s → Ends (.otpSeriesDone false) s [.otp, .cal, .cxl, .queues, .ev, .cw, .out] fun t =>
        t.otp = gens written ∧ t.cal.commit = none ∧ t.cal.inForce = s.cal.inForce)))

/-- JTAG (R417, R429). IDCODE and BYPASS are always served; the boundary instructions up to lock 1, OTP programming only while the
integrator block is blank, which it then fills (ones leave it blank); an instruction that is not served selects BYPASS (the model's choice: log entry
55). IDCODE's bits 11:1 and the first bits of an instruction that the lock refuses are no rule's. -/
def Obligations.JtagServesItsInstructions : Prop :=
  ∀ s : State,
    let f := [Part.jtag, .cxl, .out]
    Ends .idcode s [.jtag, .cxl, .out, .free] (fun t => t.jtag = { s.jtag with instr := .idcode } ∧
      ∃ bits, Sends (.jtag bits) s t ∧ bits.length = 32 ∧ bits.take 1 = [true] ∧ bits.drop 12 = bitsOf 20 (0x6440 + 0x10000 * (stepping % 16))) ∧
    (∀ b, Ends (.bypass b) s f fun t => t.jtag = { s.jtag with instr := .bypass } ∧ Sends (.jtag [false, b]) s t) ∧
    (∀ l, jtagServes .sample s = true → Ends (.samplePreload l) s f fun t =>
      t.jtag = { instr := .sample, cells := l } ∧ Sends (.jtag l) s t) ∧
    (∀ l, jtagServes .sample s = false → Ends (.samplePreload l) s f fun t => t.jtag = { s.jtag with instr := .bypass }) ∧
    (∀ l, jtagServes .extest s = true → Ends (.extest l) s f fun t => t.jtag = { instr := .extest, cells := l } ∧
      safeNDriven t = false ∧ ∀ n : Chan, gateLow n t = false) ∧
    (∀ l, jtagServes .extest s = false → Ends (.extest l) s f fun t => t.jtag = { s.jtag with instr := .bypass }) ∧
    (∀ b, s.otp.integrator = none → Ends (.otpProgrammingInstruction b) s [.otp, .jtag, .cxl, .out] fun t =>
      t.otp = { s.otp with integrator := if (integratorBytes b).all (· == 0xFF) then none else some b } ∧ t.jtag.instr = .otp) ∧
    (∀ b, s.otp.integrator.isSome = true → Ends (.otpProgrammingInstruction b) s f fun t => t.jtag = { s.jtag with instr := .bypass })

/-! ## The Causeway (R444 to R459) -/

/-- Reception (R446, R447): a packet from the wrong side, or on a port that is down, has no effect (the first is the model's
choice: log entry 47); one whose framing, length or check is wrong is counted and discarded; one for another device goes on as it
came. -/
def Obligations.PacketsAreJudgedAndRelayed : Prop :=
  ∀ (i : Instr) (ptype : BitVec 8) (side : Port) (p : Packet) (s : State), packetRow i = some (ptype, side, p) →
    let o := otherPort side
    (p.port ≠ side ∨ (cwPort side s).state = 0 ∨ (side = .down ∧ s.cw.cutDown = true) → exec i s = .next (settle s)) ∧
    (p.port = side → (cwPort side s).state ≠ 0 → (side = .down → s.cw.cutDown = false) → cwGood ptype p = false →
      exec i s = .next (settle (onPort side (fun c => { c with discards := c.discards + 1 }) s))) ∧
    (Arrives ptype side p s → forMe p s = false → (cwPort o s).state = 2 → (o = .down → s.cw.cutDown = false) →
      Ends i s [.cxl, .out] fun t => Sends (.cw o ptype p.dst p.bcast p.src p.arg p.words) s t) ∧
    (Arrives ptype side p s → forMe p s = false → (cwPort o s).state ≠ 2 → exec i s = .next (settle s))

/-- Ports (R448, R453): an ECHO is answered with its TAG; 256 answers give the delay, which ends an attempt that is above 60 ns
and else makes the port run, or is the running port's from the next boundary; a port that loses its words fails; attempts come
again after 64 ticks. While no command waits. -/
def Obligations.PortsFollowTheirEchoes : Prop :=
  ∀ (x : Port) (p : Packet) (r : Nat) (s : State),
    let c := cwPort x s
    let sum := c.echoSum + (r - 4 * fld p.arg 8 13)
    let ends := [Part.clk, .chans, .safety, .cxl, .queues, .ev, .cw, .out]
    (Arrives 0x01 x p s → Ends (.echo p) s [.cxl, .out, .free] fun t =>
      ∃ turn, turn < 8192 ∧ Sends (.cw x 0x02 0 false 0 (BitVec.ofNat 21 (fld p.arg 0 8 + turn * 256)) []) s t) ∧
    (Arrives 0x02 x p s → c.measuring = false → exec (.echoReply p r) s = .next (settle s)) ∧
    (Arrives 0x02 x p s → c.measuring = true →
      (c.echoes + 1 < 256 → Ends (.echoReply p r) s [.cw, .cxl, .out] fun t =>
        cwPort x t = { c with echoes := c.echoes + 1, echoSum := sum } ∧
        Sends (.cw x 0x01 0 false 0 (BitVec.ofNat 21 ((c.echoes + 1) % 256)) []) s t) ∧
      (255 ≤ c.echoes → c.state = 2 → Ends (.echoReply p r) s [.cw, .cxl, .out] fun t =>
        (cwPort x t).newDelay = some (divRound sum 512) ∧ (cwPort x t).measuring = false ∧ (cwPort x t).delay = c.delay) ∧
      (255 ≤ c.echoes → c.state ≠ 2 → 960 < divRound sum 512 → Ends (.echoReply p r) s [.cw, .cxl, .ev, .out] fun t =>
        (cwPort x t).state = 0 ∧ (cwPort x t).retryTick = some (s.clk.tick + 64) ∧ (cwPort x t).measuring = false) ∧
      (255 ≤ c.echoes → c.state ≠ 2 → divRound sum 512 ≤ 960 → Quiet s → Ends (.echoReply p r) s ends fun t =>
        (cwPort x t).state = 2 ∧ (cwPort x t).delay = divRound sum 512 ∧ (cwPort x t).measuring = false)) ∧
    (c.state = 0 → exec (.cwPortSilent x) s = .next (settle s) ∧ exec (.cwLockLost x) s = .next (settle s)) ∧
    (c.state = 1 → ∀ i, i = .cwPortSilent x ∨ i = .cwLockLost x → Ends i s [.cw, .cxl, .ev, .out] fun t =>
      (cwPort x t).state = 0 ∧ (cwPort x t).retryTick = some (s.clk.tick + 64)) ∧
    (2 ≤ c.state → (∀ q : Fin 4, s.queues[q].sqHead = s.queues[q].sqTail) → s.cw.inCmd = [] →
      (∀ w ∈ s.cw.waitCmd, ∃ a ∈ w.expect, a ≠ 0) → ∀ i, i = .cwPortSilent x ∨ i = .cwLockLost x →
      Ends i s [.clk, .chans, .safety, .cxl, .queues, .ev, .flash, .upd, .cw, .out] fun t =>
        (cwPort x t).state = 0 ∧ (cwPort x t).wanted = true ∧ (x = .up → isFollower s = true → t.cw.alone = true) ∧
        (x = .down → t.cw.waitCmd = none)) ∧
    (c.state ≠ 2 ∨ (x = .down ∧ s.cw.cutDown = true) → exec (.cwDelayRemeasure x) s = .next (settle s)) ∧
    (c.state = 2 → (x = .down → s.cw.cutDown = false) → Ends (.cwDelayRemeasure x) s [.cw, .cxl, .out] fun t =>
      cwPort x t = { c with echoes := 0, echoSum := 0, measuring := true } ∧ Sends (.cw x 0x01 0 false 0 0 []) s t) ∧
    ((∀ n, c.retryTick = some n → s.clk.tick < n) → exec (.cwTrainingRetry x) s = .next (settle s)) ∧
    (∀ n, c.retryTick = some n → n ≤ s.clk.tick →
      exec (.cwTrainingRetry x) s = .next (settle (onPort x (fun c => { c with retryTick := none, wanted := true }) s)))

/-- Enumeration (R449, R450): a follower takes the address offered, unless its class or one before it allows only 16 devices; the
head device keeps the reports, and settles the chain at ENUM_END or after 50 ms with those that reported; ENUM_CUT ends a chain
that is over its limit; ENUM_REQ starts an enumeration. While no command waits. -/
def Obligations.EnumerationGivesAddresses : Prop :=
  ∀ (p : Packet) (s : State),
    let a := fld p.arg 0 9
    let own := [Part.clk, .chans, .safety, .cxl, .ev, .cw, .out]
    let all := [Part.clk, .chans, .safety, .cxl, .queues, .ev, .flash, .upd, .cw, .out]
    let settled (found : Nat) (seen : Bool) (t : State) : Prop :=
      t.cw.len = min found (if isA s || seen || s.cw.reports.any (fun r => r.2.2 == 0x41) then 16 else 512) ∧ t.cw.addr = 0 ∧
      t.cw.follower = false ∧ t.cw.enumAt = none ∧ t.cw.waitEnum = false ∧ ∀ r ∈ t.cw.reports, r.1 < t.cw.len
    (s.boot.straps.chainRole = true → exec (.enum p) s = .next (settle s)) ∧
    (s.boot.straps.chainRole = false → Arrives 0x20 .up p s →
      ((bit p.arg 9 || isA s) = true → 15 < a → Ends (.enum p) s own fun t =>
        t.cw.addr = 0x1FF ∧ t.cw.len = 0 ∧ t.cw.follower = false) ∧
      ((bit p.arg 9 || isA s) = false ∨ a ≤ 15 → Ends (.enum p) s own fun t =>
        t.cw.addr = a ∧ t.cw.follower = true ∧ t.cw.alone = false ∧ t.cw.consec = 0 ∧ t.cw.voteDue = true ∧ t.cw.cutDown = false ∧
        (s.cw.up.state = 2 → ∃ ws, .cw .up 0x21 0 false (BitVec.ofNat 9 a) (BitVec.ofNat 21 a) ws ∈ t.out) ∧
        (s.cw.down.state = 2 → a < 511 → .cw .down 0x20 (BitVec.ofNat 9 (a + 1)) false (BitVec.ofNat 9 a)
          (BitVec.ofNat 21 (pack [(0, 9, a + 1), (9, 1, (bit p.arg 9 || isA s).toNat)])) [] ∈ t.out))) ∧
    (Heard 0x21 .down p s → Ends (.enumReport p) s [.cw, .cxl, .out] fun t =>
      t.cw = { s.cw with reports := s.cw.reports.filter (fun r => r.1 != a) ++
        [(a, BitVec.ofNat 48 (fld (wordOf p 1) 0 48), BitVec.ofNat 8 (fld (wordOf p 1) 48 8))] }) ∧
    (Heard 0x22 .down p s → s.cw.enumAt = none → Ends (.enumEnd p) s [.cxl, .out] fun _ => True) ∧
    (Heard 0x22 .down p s → s.cw.enumAt.isSome = true → Quiet s →
      Ends (.enumEnd p) s all (settled (fld p.arg 0 10) (bit p.arg 11))) ∧
    (s.cw.enumAt = none → exec .enumTimeout s = .next (settle s)) ∧
    (s.cw.enumAt.isSome = true → Quiet s → Ends .enumTimeout s all (settled (s.cw.reports.length + 1) false)) ∧
    (Heard 0x24 .down p s → s.cw.down.state = 2 → Quiet s → Ends (.enumReq p) s [.cw, .cxl, .out] fun t =>
      t.cw = { s.cw with addr := 0, reports := [], enumAt := some s.clk.now, cutDown := false }) ∧
    (Arrives 0x23 .up p s →
      (hasAddress s = false → Ends (.enumCut p) s [.cxl, .out] fun _ => True) ∧
      (hasAddress s = true → fld p.arg 0 10 ≤ s.cw.addr → Ends (.enumCut p) s own fun t =>
        t.cw.addr = 0x1FF ∧ t.cw.len = 0 ∧ t.cw.follower = false) ∧
      (hasAddress s = true → s.cw.addr + 1 = fld p.arg 0 10 → Ends (.enumCut p) s own fun t =>
        t.cw.addr = s.cw.addr ∧ t.cw.cutDown = true) ∧
      (hasAddress s = true → s.cw.addr + 1 < fld p.arg 0 10 → Ends (.enumCut p) s [.cxl, .out] fun _ => True))

/-- The chain's tick (R451, R453 to R455). A follower's first valid BOUNDARY is its cut-off and places its boundary; one that its
delay has overtaken is discarded; without any by Tmax the boundary stands there, and after two in a row the device runs on its
own. A MODE that a TIMING_SET of it would not be refused waits for its tick; the head device keeps votes and caps. -/
def Obligations.ChainTicksTogether : Prop :=
  ∀ (p : Packet) (s : State),
    let ahead := boundaryAhead p s
    let cut := [Part.clk, .com, .heads, .chans, .safety, .cxl, .ev, .planes, .cw, .out, .free]
    let listens := s.cw.follower && !s.cw.alone
    (Arrives 0x10 .up p s →
      (listens = false → exec (.boundary p) s = .next (settle s)) ∧
      (listens = true → signed 32 (fld (wordOf p 2) 0 32) < 0 ∨ ahead < 0 →
        exec (.boundary p) s = .next (settle (onPort .up (fun c => { c with discards := c.discards + 1 }) s))) ∧
      (listens = true → 0 ≤ signed 32 (fld (wordOf p 2) 0 32) → 0 ≤ ahead → s.clk.boundary = none → s.clk.held = false →
        Ends (.boundary p) s cut fun t =>
          let b := s.clk.now + divRound ahead.toNat 32
          t.clk.boundary = some b ∧ t.clk.cutAt = some (b - usT s.cfg.tick.tcut) ∧ t.clk.reason = reasonOf b s ∧
          t.cw.len = fld (wordOf p 2) 48 10 ∧ t.cw.consec = 0 ∧ t.clk.tick = s.clk.tick ∧ ∀ h : Head, pressing t h = false) ∧
      (listens = true → 0 ≤ signed 32 (fld (wordOf p 2) 0 32) → 0 ≤ ahead → s.clk.boundary.isSome = true ∨ s.clk.held = true →
        Ends (.boundary p) s [.cxl, .out] fun _ => True)) ∧
    (isFollower s = false ∨ s.clk.boundary.isSome = true ∨ s.clk.held = true →
      exec .chainBoundaryMiss s = .next (settle s)) ∧
    (isFollower s = true → s.clk.boundary = none → s.clk.held = false → Ends .chainBoundaryMiss s cut fun t =>
      let b := s.clk.start + usT (effTmax s)
      t.clk.boundary = some b ∧ t.clk.cutAt = some b ∧ t.cw.consec = s.cw.consec + 1 ∧ t.cw.misses = sat 32 (s.cw.misses + 1) ∧
      t.cw.alone = decide (2 ≤ s.cw.consec + 1)) ∧
    (Heard 0x11 .up p s →
      (isFollower s = true → modeRef (modePayload p) s = none → Ends (.mode p) s [.cw, .cxl, .out] fun t =>
        t.cw = { s.cw with mode := some { payload := modePayload p, apply := fld (wordOf p 3) 0 48 } }) ∧
      (isFollower s = false ∨ (modeRef (modePayload p) s).isSome = true → Ends (.mode p) s [.cxl, .out] fun _ => True)) ∧
    (Heard 0x12 .down p s → Ends (.vote p) s [.clk, .cw, .cxl, .out] fun t =>
      (bit p.arg 20 = false → ∀ v ∈ t.cw.voters, v.1 ≠ p.src.toNat) ∧
      (bit p.arg 20 = true → (p.src.toNat, s.cw.voters.any fun v => v.1 == p.src.toNat) ∈ t.cw.voters) ∧
      (∀ a, a ≠ p.src.toNat → ∀ b, (a, b) ∈ t.cw.voters ↔ (a, b) ∈ s.cw.voters) ∧ t.clk.tick = s.clk.tick) ∧
    (Heard 0x13 .down p s → Ends (.cap p) s [.cw, .cxl, .out] fun t =>
      t.cw = { s.cw with caps := (p.src.toNat, fld p.arg 0 15) :: s.cw.caps.filter (fun r => r.1 != p.src.toNat) })

/-- Relayed events (R456, R457). A record of another origin is held until the downstream observer and the host have it, and
acknowledged; one that was received before is acknowledged again (the model's choice: log entry 52), and one for which there is no
room is dropped. EVT_ACK acknowledges a record and those before it; without one, everything unacknowledged is sent again. -/
def Obligations.EventsCrossTheChain : Prop :=
  ∀ (p : Packet) (s : State),
    let w := BitVec.ofNat 256 (pack [(0, 64, (wordOf p 1).toNat), (64, 64, (wordOf p 2).toNat), (128, 64, (wordOf p 3).toNat),
      (192, 64, (wordOf p 4).toNat)])
    let seq := BitVec.ofNat 32 (fld w 32 32)
    let again := bit w 12 && s.cw.lastSeqOf.any (fun x => x.1 == p.src.toNat && decide ((x.2 - seq).toNat < 4096))
    let kept (r : Relayed) : Bool := !((r.down || !s.ev.chainObs) && (r.host || !s.cfg.chain.relayEn))
    let acked := BitVec.ofNat 32 (fld (wordOf p 1) 0 32)
    let origin := fld (wordOf p 1) 32 9
    let n := (s.ev.chainSent - s.ev.chainAck).toNat + (s.cw.relay.filter (!·.down)).length
    (Heard 0x50 .up p s →
      (again = true ∨ 1024 ≤ s.cw.relay.length → Ends (.evt p) s [.cxl, .out] fun _ => True) ∧
      (again = false → s.cw.relay.length < 1024 → Ends (.evt p) s [.cw, .cxl, .out] fun t =>
        t.cw.relay = (s.cw.relay ++ [({ origin := p.src.toNat, word := w, down := false, host := false } : Relayed)]).filter kept ∧
        (p.src.toNat, seq) ∈ t.cw.lastSeqOf ∧ t.cw.addr = s.cw.addr ∧ t.cw.waitCmd = s.cw.waitCmd)) ∧
    (Heard 0x51 .down p s → origin = s.cw.addr →
      ((acked - s.ev.chainAck).toNat < (s.ev.chainSent - s.ev.chainAck).toNat →
        Ends (.evtAck p) s [.safety, .cxl, .ev, .out] fun t => t.ev.chainAck = acked + 1 ∧ t.safety.mode = s.safety.mode) ∧
      ((s.ev.chainSent - s.ev.chainAck).toNat ≤ (acked - s.ev.chainAck).toNat →
        Ends (.evtAck p) s [.cxl, .out] fun t => t.ev = s.ev)) ∧
    (Heard 0x51 .down p s → origin ≠ s.cw.addr → Ends (.evtAck p) s [.cw, .cxl, .out] fun t =>
      t.cw.relay = (s.cw.relay.map fun r => if r.origin == origin && decide ((acked - BitVec.ofNat 32 (fld r.word 32 32)).toNat < 4096)
        then { r with down := true } else r).filter kept) ∧
    (s.ev.chainObs = false ∨ s.cw.down.state ≠ 2 ∨ n = 0 → exec .evtAckTimeout s = .next (settle s)) ∧
    (s.ev.chainObs = true → s.cw.down.state = 2 → n ≠ 0 → Ends .evtAckTimeout s [.ev, .cw, .cxl, .out] fun t =>
      t.cw = { s.cw with down := { s.cw.down with evResends := s.cw.down.evResends + n } } ∧ t.ev.store = s.ev.store ∧
      t.ev.chainAck = s.ev.chainAck ∧ t.ev.seq = s.ev.seq)

/-- Relayed commands (R459). A CMD waits for its data and for its core, and then executes as the queue's own; data enters the
staging area; a CMD_RESP answers the CHAIN_SEND that waits for it, which completes when every target has answered, or after 90 ms
with STATUS_CHAIN_HOP. While no descriptor waits in a ring. -/
def Obligations.CommandsCrossTheChain : Prop :=
  ∀ (p : Packet) (s : State), (∀ q : Fin 4, s.queues[q].sqHead = s.queues[q].sqTail) →
    let c : InCmd := { tq := Fin.ofNat 4 (fld p.arg 0 2), via := .chain, left := fld p.arg 2 6, off := 64 * fld p.arg 8 13, desc := content p }
    let bytes := ((content p).map (fun w => toBytes 8 w.toNat)).flatten
    let rec_ := BitVec.ofNat 512 (leNat bytes)
    (Heard 0x40 .up p s → s.cw.inCmd = [] → s.cw.waitCmd = none →
      (c.left ≠ 0 ∨ queueIdle c.tq s = false → Ends (.cmd p) s [.cw, .cxl, .out] fun t => t.cw = { s.cw with inCmd := [c] }) ∧
      (p.bcast = false → c.left = 0 → queueIdle c.tq s = true → waitsForLatch (opOf (cmdDesc c).1) s = false →
        let x := trySend (execDesc (opOf (cmdDesc c).1) (cmdDesc c).2 .chain 0 s)
        x.cw.inCmd = [] → x.cw.waitCmd = none → (∀ q : Fin 4, x.queues[q].sqHead = x.queues[q].sqTail) →
        exec (.cmd p) s = .next (settle x))) ∧
    (Heard 0x41 .up p s → s.cw.waitCmd = none → s.cw.inCmd = [] → Ends (.cmdData p) s [.cxl, .out] fun _ => True) ∧
    (∀ d, Heard 0x41 .up p s → s.cw.waitCmd = none → s.cw.inCmd = [d] → d.via = .chain → d.left ≠ 0 →
      d.left ≠ 1 ∨ queueIdle d.tq s = false →
      Ends (.cmdData p) s [.cw, .bar2, .cxl, .out] fun t =>
        t.cw = { s.cw with inCmd := [{ d with left := d.left - 1 }] } ∧
        (stageLo ≤ d.off → d.off + 1024 * fld p.arg 0 6 + 1024 ≤ stageHi →
          t.bar2 = memPut s.bar2 (d.off + 1024 * fld p.arg 0 6) bytes)) ∧
    (Heard 0x42 .down p s → s.cw.inCmd = [] → s.cw.waitCmd = none → Ends (.cmdResp p) s [.cxl, .out] fun _ => True) ∧
    (∀ w, Heard 0x42 .down p s → s.cw.inCmd = [] → s.cw.waitCmd = some w → p.src.toNat ∈ w.expect →
      (∃ a ∈ w.expect, a ≠ p.src.toNat) → Ends (.cmdResp p) s [.cw, .cxl, .out] fun t =>
        t.cw = { s.cw with waitCmd := some { w with
          expect := w.expect.filter (fun x => x != p.src.toNat), answers := w.answers ++ [(p.src.toNat, rec_)] } }) ∧
    (∀ w d, Heard 0x42 .down p s → s.cw.inCmd = [] → s.cw.waitCmd = some w → w.bcast = false → w.answers = [] →
      w.expect = [p.src.toNat] → s.queues[(3 : Fin 4)].waiting = some d → d.queue = 3 → d.via = .ring →
      Ends (.cmdResp p) s [.queues, .cw, .cxl, .out] fun t =>
        t.cw = { s.cw with waitCmd := none } ∧ t.queues[(3 : Fin 4)].waiting = none ∧
        ∃ e, newest 3 t = some e ∧ e.tag = d.tag ∧ e.slot = d.slot ∧ e.status = stOk ∧ e.result = BitVec.ofNat 320 (singleResult rec_)) ∧
    (s.cw.waitCmd = none → exec .cmdRespTimeout s = .next (settle s)) ∧
    (∀ w d, s.cw.inCmd = [] → s.cw.waitCmd = some w → s.queues[(3 : Fin 4)].waiting = some d → d.queue = 3 → d.via = .ring →
      Ends .cmdRespTimeout s [.queues, .cw, .cxl, .out] fun t =>
        t.cw = { s.cw with waitCmd := none } ∧ t.queues[(3 : Fin 4)].waiting = none ∧
        ∃ e, newest 3 t = some e ∧ e.tag = d.tag ∧ e.status = stChainHop)

/-- Blocks in transit (R466). A reception begins in a free buffer or in the block's own; with its last segment a block of the
right CRC is whole and acknowledged, one of a wrong CRC is asked for again, and so is one that is incomplete after 200 µs, at most
eight times; a BLOCK_ACK ends the wait for the device downstream, or sends the block again. While no command waits. -/
def Obligations.BlocksCrossTheChain : Prop :=
  ∀ (p : Packet) (s : State),
    let b := fld p.arg 0 5
    let u := (touchChain s).upd
    let begins (t : Transit) : Transit :=
      { t with crc := BitVec.ofNat 32 (fld (wordOf p 1) 0 32), length := fld (wordOf p 1) 32 17, parts := [], began := some s.clk.now }
    let fresh : Transit := { block := b, length := 0, crc := 0, parts := [], whole := false, stored := false, acked := false
                             resends := 0, fails := 0, began := none }
    let own := s.upd.transit.any fun t => t.block == b && !t.whole
    let part := ((content p).map fun w => toBytes 8 w.toNat).flatten
    let g := fld p.arg 5 6
    let refuse (t : Transit) (l : List Transit) : List Transit :=
      l.map fun x => if x.block == t.block && !x.whole then { x with began := none, parts := [], fails := x.fails + 1 } else x
    (Heard 0x30 .up p s → Ends (.blockStart p) s [.upd, .cxl, .out] fun t =>
      (own = true → t.upd = { u with transit := s.upd.transit.map fun x => if x.block == b && !x.whole then begins x else x }) ∧
      (own = false → s.upd.transit.length < 2 → t.upd = { u with transit := s.upd.transit ++ [begins fresh] }) ∧
      (own = false → 2 ≤ s.upd.transit.length → t.upd = u)) ∧
    (Heard 0x31 .up p s → receiving b s = none → Ends (.segment p) s [.upd, .cxl, .out] fun t => t.upd = u ∧
      (g = 63 → s.cw.up.state = 2 → (∀ x ∈ s.upd.transit, x.block ≠ b) →
        .cw .up 0x32 (BitVec.ofNat 9 (s.cw.addr - 1)) false (BitVec.ofNat 9 s.cw.addr) (BitVec.ofNat 21 (b + 32)) [] ∈ t.out)) ∧
    (∀ x, Heard 0x31 .up p s → receiving b s = some x →
      let parts := (g, part) :: x.parts.filter fun y => y.1 != g
      let y := { x with parts := parts }
      (parts.length ≠ 64 → Ends (.segment p) s [.upd, .cxl, .out] fun t =>
        t.upd = { u with transit := s.upd.transit.map fun z => if z.block == b && !z.whole then y else z }) ∧
      (s.upd.transit = [x] → x.whole = false → parts.length = 64 → crc32c (transitBytes y) = x.crc.toNat → s.upd.held = none →
        Ends (.segment p) s [.flash, .upd, .cxl, .out] fun t =>
          (s.cw.up.state = 2 → .cw .up 0x32 (BitVec.ofNat 9 (s.cw.addr - 1)) false (BitVec.ofNat 9 s.cw.addr)
            (BitVec.ofNat 21 b) [] ∈ t.out) ∧
          (stores s = true → storedCrc s b = none → s.upd.session.any (fun z => z.stored.getLsbD b) = false →
            t.flash.jobs = s.flash.jobs ++ [plainJob (.block b (transitBytes y))])) ∧
      (s.upd.transit = [x] → x.whole = false → parts.length = 64 → crc32c (transitBytes y) ≠ x.crc.toNat → x.fails < 8 →
        Ends (.segment p) s [.upd, .cxl, .out] fun t =>
          t.upd.transit = [{ x with began := none, parts := [], fails := x.fails + 1 }])) ∧
    (s.upd.transit.find? (fun t => t.began.isSome) = none → exec .blockIncompleteTimeout s = .next (settle s)) ∧
    (∀ x, s.upd.transit.find? (fun t => t.began.isSome) = some x →
      (x.fails < 8 → Ends .blockIncompleteTimeout s [.upd, .cxl, .out] fun t =>
        t.upd = { s.upd with transit := refuse x s.upd.transit } ∧
        (s.cw.up.state = 2 → .cw .up 0x32 (BitVec.ofNat 9 (s.cw.addr - 1)) false (BitVec.ofNat 9 s.cw.addr)
          (BitVec.ofNat 21 (x.block + 32)) [] ∈ t.out)) ∧
      (8 ≤ x.fails → Ends .blockIncompleteTimeout s [.chans, .safety, .cxl, .ev, .upd, .out] fun t =>
        t.upd.transit = (refuse x s.upd.transit).filter (fun z => z.block != x.block || z.whole) ∧
        (s.upd.session.any (·.chain) = true → t.upd.session = none))) ∧
    (Heard 0x32 .down p s → bit p.arg 5 = false → s.upd.held = none → Quiet s → Ends (.blockAck p) s [.upd, .cxl, .out] fun t =>
      let l := s.upd.transit.map fun x => if x.block = b then { x with acked := true } else x
      t.upd = { s.upd with transit := l.filter fun x => !(x.whole && x.stored && x.acked) }) ∧
    (∀ x, Heard 0x32 .down p s → bit p.arg 5 = true → s.upd.transit = [x] → x.block = b → x.whole = true → x.resends < 8 →
      Ends (.blockAck p) s [.upd, .cw, .cxl, .out] fun t =>
        t.upd.transit = [{ x with resends := x.resends + 1 }] ∧ t.cw.down.resends = s.cw.down.resends + 1)

/-- UPD_CTRL and UPD_RESP (R464, R467, R469). A participant opens, verifies, arms, ends and disarms what the head device asks for,
and only in a session of the chain; the head device collects the answers, and counts a participant that left as failed. -/
def Obligations.ControlCrossesTheChain : Prop :=
  ∀ (p : Packet) (s : State),
    let op := fld p.arg 0 4
    let r := openOf (ctrlPayload p)
    let a := p.src.toNat
    let st := BitVec.ofNat 16 (fld (wordOf p 1) 0 16)
    let res := fld (wordOf p 1) 16 48
    (op ≠ 0 → exec (.updCtrlOpen p) s = .next (settle s)) ∧ (op ≠ 1 → exec (.updCtrlVerify p) s = .next (settle s)) ∧
    (op ≠ 2 → exec (.updCtrlActivate p) s = .next (settle s)) ∧ (op ≠ 3 → exec (.updCtrlAbort p) s = .next (settle s)) ∧
    (op ≠ 4 → exec (.updCtrlDisarm p) s = .next (settle s)) ∧
    (Heard 0x33 .up p s → op = 0 →
      (lengthOk r.pkg r.length = false ∨ (∃ e, openHow true r s = .refused e) →
        Ends (.updCtrlOpen p) s [.cxl, .out] fun _ => True) ∧
      (lengthOk r.pkg r.length = true → openHow true r s = .fresh 1 → Ends (.updCtrlOpen p) s [.flash, .upd, .cxl, .out] fun t =>
        t.upd = (newSession true r 1 s).upd ∧ t.flash.jobs.length = s.flash.jobs.length + 2 ∧ t.flash.record = s.flash.record) ∧
      (lengthOk r.pkg r.length = true → openHow true r s = .joined → Ends (.updCtrlOpen p) s [.upd, .cxl, .out] fun t =>
        t.upd = { s.upd with session := s.upd.session.map fun x => { x with joined := true, last := s.clk.now } })) ∧
    (Heard 0x33 .up p s → op = 1 →
      ((∀ x ∈ s.upd.session, x.chain = false) → Ends (.updCtrlVerify p) s [.cxl, .out] fun _ => True) ∧
      (∀ x, s.upd.session = some x → x.chain = true → x.state = 1 → storing s = true →
        Ends (.updCtrlVerify p) s [.upd, .cxl, .out] fun t => t.upd = { (touch s).upd with verifyDue := true }) ∧
      (∀ x, s.upd.session = some x → x.chain = true → x.state = 2 → Ends (.updCtrlVerify p) s [.flash, .upd, .cxl, .out] fun t =>
        t.upd = { (touch s).upd with verifyDue := false } ∧ t.flash.jobs.length = s.flash.jobs.length + 1)) ∧
    (Heard 0x33 .up p s → op = 2 →
      ((∀ x ∈ s.upd.session, x.chain = false) → Ends (.updCtrlActivate p) s [.cxl, .out] fun _ => True) ∧
      (∀ x, s.upd.session = some x → x.chain = true → s.clk.tick + 8 ≤ fld (ctrlPayload p) 64 48 →
        fld (ctrlPayload p) 64 48 ≤ s.clk.tick + 65536 → activateRef x (bit (ctrlPayload p) 0) s = none →
        Ends (.updCtrlActivate p) s [.upd, .cxl, .out] fun t =>
          t.upd = { (touch s).upd with armed := some (fld (ctrlPayload p) 64 48, bit (ctrlPayload p) 0) })) ∧
    (Heard 0x33 .up p s → op = 3 →
      (s.upd.session = none → Ends (.updCtrlAbort p) s [.cxl, .out] fun _ => True) ∧
      (∀ x, s.upd.session = some x → x.chain = true → Ends (.updCtrlAbort p) s [.flash, .upd, .cxl, .out] fun t =>
        t.upd = { s.upd with armed := none, transit := [], held := none, verifyDue := false } ∧
        t.flash.jobs = s.flash.jobs ++ [{ plainJob (.record (emptied s)) with sess := some 0, tell := some 0 }]) ∧
      (∀ x, s.upd.session = some x → x.chain = false → Ends (.updCtrlAbort p) s [.upd, .cxl, .out] fun t =>
        t.upd = { s.upd with session := some { x with joined := false } })) ∧
    (Heard 0x33 .up p s → op = 4 → Ends (.updCtrlDisarm p) s [.upd, .cxl, .out] fun t =>
      t.upd = if s.upd.session.any (·.chain) then { s.upd with armed := none } else s.upd) ∧
    (Heard 0x34 .down p s → Quiet s →
      (∀ w, s.upd.wait = some w → w.op = op → a ∈ w.expect → (∀ x ∈ w.answers, x.1 ≠ a) → op ≠ 0 ∨ (st ≠ stChainHop ∧ st ≠ stCrc) →
        w.own = none → Ends (.updResp p) s [.upd, .cxl, .out] fun t =>
          t.upd = { s.upd with wait := some { w with answers := w.answers ++ [(a, st, res)] } }) ∧
      (op = 0 → st = stCrc → a ∈ participants s → s.upd.wait = none →
        Ends (.updResp p) s [.chans, .safety, .cxl, .ev, .upd, .out] fun t =>
          t.upd = { s.upd with failed := s.upd.failed ++ [a] }) ∧
      (s.upd.wait = none → op ≠ 0 → Ends (.updResp p) s [.cxl, .out] fun _ => True))
/-! ## The whole machine -/

/-- One step runs the command at the front of the queue, on the state with the queue's rest. On an empty queue 2 ns pass, and at
most a phase that is due is entered (the model's choice: log entry 12). -/
def Obligations.StepRunsTheFrontCommand : Prop :=
  ∀ s : State,
    (∀ c rest, s.pending = c :: rest → step s = exec c { s with pending := rest }) ∧
    (s.pending = [] → ∃ t, step s = .next t ∧ Only [.clk] t s ∧
      t.clk = { s.clk with now := s.clk.now + 1, phase := t.clk.phase } ∧ s.clk.phase.code ≤ t.clk.phase.code)

/-- What reset release leaves: TICK is 0 and stands in LATCH (R11), the automotive tick timing runs (R16), SAFE_N is asserted and
nothing is latched (R342), no host is attached and no queue nor the event ring is enabled (R361, R362, R386), the next SEQ is 0
and every source is unmasked (R386, R389), no lane group or scanner runs (R220, R228), every channel is off and diverted (R276),
VID selects P0 (R403), no commit is pending, and the chain is not enumerated (R478). The invariant holds. -/
def Obligations.ResetLeavesItsValues : Prop :=
  let s := State.reset
  s.clk.tick = 0 ∧ s.clk.phase = .latch ∧ s.clk.held = true ∧ s.cfg.tick.tmin = 7500 ∧ s.cfg.tick.tmax = 10000 ∧
    s.cfg.tick.tcut = 250 ∧ s.safety.safeN = true ∧ s.safety.mode = .start ∧ s.safety.latched = false ∧ s.safety.causes = 0 ∧
    s.cxl.attached = false ∧ s.cxl.hostActive = false ∧ (∀ q : Fin 4, s.queues[q].en = false ∧ s.queues[q].journal = []) ∧
    s.ev.en = false ∧ s.ev.seq = 0 ∧ s.ev.store = [] ∧ (∀ g : Fin 8, s.ev.masks[g] = BitVec.allOnes 64) ∧
    (∀ h : Head, s.links[h].state = 0 ∧ s.rasters[h].scan = 0) ∧
    (∀ n : Chan, s.chans[n].state = 0 ∧ s.chans[n].gateOpen = false) ∧
    s.power.vid = 0 ∧ s.com.records = [] ∧ s.openSet = [] ∧ s.pendLv = [] ∧ s.cw.addr = 0x1FF ∧ s.cw.len = 0 ∧
    s.pending = [] ∧ Safe s

/-- The invariant is kept by every step, whatever state it starts from: the two byte memories and the canvas keep their canonical
form, TICK and the value it is to be aligned to stay in 48 bits, and no journal is over 16 completions. -/
def Obligations.SafeIsKept : Prop := ∀ s t : State, Safe s → step s = .next t → Safe t

/-- R12: TICK never decreases, whatever command comes, but that a reset release sets it to 0 (R11); at 0xFFFF_FFFF_FFFF it holds
its value. -/
def Obligations.TickNeverDecreases : Prop :=
  ∀ s t : State, Safe s → step s = .next t →
    (s.clk.tick ≤ t.clk.tick ∨ (t.clk.tick = 0 ∧ t.boot.stage = .reset)) ∧
    (s.clk.tick = 0xFFFFFFFFFFFF → t.clk.tick = 0xFFFFFFFFFFFF ∨ t.boot.stage = .reset)

/-- Every command completes in every state; it leaves the queue of commands alone, and the copy of SAFE_SUMMARY that SAFE_STATUS
shows is that of the state it leaves. That no command is refused is the model's reading: the rows whose condition does not hold
have no effect. -/
def Obligations.EveryCommandCompletes : Prop :=
  ∀ (c : Instr) (s : State), ∃ t, exec c s = .next t ∧ t.pending = s.pending ∧ t.cxl.summary = summaryWord t

/-- Only their commands change the stores and the parts that stand apart: the plane store is written by the press's stripes and by
what cuts a build, the canvas by its bands, the OTP by its programming and by a reset that cuts its first series short, the boundary
register by JTAG; the OS records turn at END and with a drift check, MIRROR_GEN at END; the colour loops, lamps, core voltage and
thermal state have their commands. A reset returns all but the stores to their reset state. -/
def Obligations.OnlyTheirCommandsChange : Prop :=
  ∀ (c : Instr) (s t : State) (x : Part), exec c s = .next t → mayChange x c = false → x.same t s

/-- The two records read as the tables of R377 and R388 lay them out: every field of a completion and of an event stands in its
bits. CRC16 of a Q2 completion is the check of R335 over the record with the field 0. -/
def Obligations.RecordsReadBack : Prop :=
  (∀ (w : Bool) (c : Completion), let r := completionWord w c
    fld r 0 8 = c.slot.toNat ∧ fld r 8 2 = c.queue.val ∧ fld r 16 16 = c.status.toNat ∧ fld r 32 16 = c.opcode.toNat ∧
    fld r 96 32 = c.tag.toNat ∧ fld r 128 48 = c.tick.toNat ∧ fld r 176 3 = c.phase.toNat ∧ bit r 179 = w ∧
    bit r 180 = c.replay ∧ fld r 192 320 = c.result.toNat ∧
    (c.queue = 2 → fld r 48 8 = c.alive.toNat ∧
      fld r 64 16 = crc16 (toBytes 64 (r.toNat - fld r 64 16 * 2 ^ 64))) ∧
    (c.queue ≠ 2 → fld r 48 8 = 0 ∧ fld r 64 16 = 0)) ∧
  (∀ (p : Bool) (e : Event), e.source < 512 → let r := eventWord p e
    fld r 0 9 = e.source ∧ fld r 9 3 = e.phase.code ∧ bit r 12 = p ∧ fld r 16 16 = e.code.toNat ∧ fld r 32 32 = e.seq.toNat ∧
    fld r 64 48 = e.tick.toNat ∧ fld r 128 128 = e.payload.toNat)

/-- A refused command changes nothing: on every queue but Q2, a descriptor that is answered at once with a status other than
STATUS_OK leaves all but the queue, the CXL port and the output as it found them, and its completion tells the status (derived
from R48 and R378; an opcode of the table stands here for its row, submitted by its number). -/
def Obligations.RefusedCommandsChangeNothing : Prop :=
  ∀ (c : BitVec 16) (d : Desc) (s u : State) (st : BitVec 16) (r : Nat), Serves d.queue s → d.queue ≠ 2 →
    waitsForLatch (opOf c) s = false → runDesc (opOf c) d (fetched (opOf c) d s) = .done st r u → st ≠ stOk →
    Does (.unassignedOpcode c d) (opOf c) d s (fetched (opOf c) d s) st r

/-- R90: a COMMIT that reaches the head of its queue during LATCH stays there, and LATCH_END executes it: the queue's newest
completion is then its own, in a later phase. While nothing else waits. -/
def Obligations.CommitWaitsForLatchEnd : Prop :=
  (∀ (d : Desc) (s : State), Serves d.queue s → s.clk.phase = .latch →
    Ends (.commit d) s [.queues, .bar2, .cxl, .out] fun t =>
      (headDesc d.queue t = (Op.commit.code, d)) ∧
      t.queues[d.queue] = { s.queues[d.queue] with sqTail := s.queues[d.queue].sqTail + 1 } ∧
      ∀ q, q ≠ d.queue → t.queues[q] = s.queues[q]) ∧
  (∀ (m : LatchEnd) (q : Fin 4) (d : Desc) (s : State), s.clk.phase = .latch → s.clk.held = false → s.cw.inCmd = [] →
    s.cw.waitCmd = none → s.queues[q].en = true → queueIdle q s = true → cqRoom q s = true →
    headDesc q s = (Op.commit.code, d) → s.queues[q].sqTail = s.queues[q].sqHead + 1 →
    (∀ p, p ≠ q → s.queues[p].sqHead = s.queues[p].sqTail) →
    ∃ t c, exec (.latchEnd m) s = .next t ∧ t.clk.phase ≠ .latch ∧ newest q t = some c ∧ c.opcode = Op.commit.code ∧
      c.tag = d.tag ∧ c.slot = s.queues[q].sqHead ∧ c.phase ≠ 0 ∧ t.queues[q].sqHead = t.queues[q].sqTail)

/-- R190, R193, R195: PLANE_BLOCK_SEND puts words on its own lane alone: those of IDLE, or of a block whose number is the lane's modulo
8, a re-send included. Of a plane of NB blocks no lane carries more than ⌈NB ÷ 8⌉, lane 0 carries that many, and the load time of a
plane (R163) counts that many block times. -/
def Obligations.BlocksKeepToTheirLane : Prop :=
  (∀ (g : Head) (lane : Fin 8) (late : Bool) (s : State), ∃ t, exec (.planeBlockSend g lane late) s = .next t ∧
    let coded (ws : List (Bool × Nat)) : List (BitVec 66) :=
      (codeWords (s.cfg.links[g].txPol.testBit lane.val) s.links[g].scram[lane].toNat ws).1
    ∀ (h : Head) (k : Fin 8) (ws : List (BitVec 66)), Output.lane h k ws ∈ t.out → Output.lane h k ws ∈ s.out ∨
      (h = g ∧ k = lane ∧ (ws = coded [(true, idleBody)] ∨ ∃ b e kind payload, b % 8 = lane.val ∧
        ws = coded (blockWords (blockHeader s g kind e b) payload)))) ∧
  (∀ (x : HeadCfg) (lane : Fin 8),
    ((List.range (planeBlocks x)).filter fun b => b % 8 == lane.val).length ≤ divUp (planeBlocks x) 8 ∧
    ((List.range (planeBlocks x)).filter fun b => b % 8 == 0).length = divUp (planeBlocks x) 8 ∧
    loadTime x.outW x.outH false = ((List.range (planeBlocks x)).filter fun b => b % 8 == 0).length * 429 ∧
    loadTime x.outW x.outH true = ((List.range (planeBlocks x)).filter fun b => b % 8 == 0).length * 858)

/-- R387: a masked source raises nothing: no SEQ, no record, no observer. A change of mask counts from its completion on. Group 6
and sources 448 and 449 are never masked, and an EVENT_MASK that would clear such a bit completes with STATUS_RANGE and changes
nothing. A masked BUFFER_RELEASED still writes its release fence. -/
def Obligations.MasksStopEvents : Prop :=
  (∀ (src : Nat) (code : BitVec 16) (p : Nat) (s : State), masked src s = true →
    (raise src code p s).ev = s.ev ∧ ∀ o ∈ (raise src code p s).out, o ∈ s.out ∨ o = .msix 6) ∧
  (∀ (src : Nat) (s : State), groupOf src = 6 ∨ src = 448 ∨ src = 449 → masked src s = false) ∧
  (∀ (d : Desc) (s : State), Serves d.queue s → Admitted .eventMask d s →
    let g : Fin 8 := Fin.ofNat 8 (fld d.payload 0 3)
    let m := (s.ev.masks[g] &&& ~~~BitVec.ofNat 64 (fld d.payload 128 64)) |||
      (BitVec.ofNat 64 (fld d.payload 64 64) &&& BitVec.ofNat 64 (fld d.payload 128 64))
    let clears (i : Nat) : Bool := bit d.payload (128 + i) && !bit d.payload (64 + i)
    ((g = 6 ∧ ∃ i < 64, clears i = true) ∨ (g = 7 ∧ (clears 0 || clears 1) = true) →
      Does (.eventMask d) .eventMask d s (fetched .eventMask d s) stRange 64) ∧
    (¬((g = 6 ∧ ∃ i < 64, clears i = true) ∨ (g = 7 ∧ (clears 0 || clears 1) = true)) →
      ∃ t, exec (.eventMask d) s = .next t ∧ t.ev = { s.ev with masks := s.ev.masks.set g m } ∧
        ∀ src : Nat, unmaskable src = false → groupOf src = g.val → (masked src t = true ↔ m.getLsbD (src % 64) = false))) ∧
  (∀ (x : Release) (a : Nat) (v : BitVec 64) (l : List LatchItem) (s : State), s.com.latchQ = .release x false :: l →
    x.fence = some (a, v) → s.cxl.attached = true → masked (srcLayer x.layer) s = true →
    (∀ w ∈ s.com.relWrites, w.st ≠ .waiting) → relBusy s < 8 →
    (runLatchQ s).ev = s.ev ∧ .relFence a v ∈ (runLatchQ s).out ∧
      ({ addr := a, value := v, tag := x.tag, st := .issued, event := none } : RelWrite) ∈ (runLatchQ s).com.relWrites)
end

