-- ==== Sys2Proof/Laws/Fields.lean ====
section
/-! SUPPORT. Words made of fields: a field that stands apart from the others reads as it was packed. -/

namespace Sys2Proof.Machine

/-- The fields ascend from a bit and do not overlap. -/
def fieldsFrom : Nat → List (Nat × Nat × Nat) → Bool
  | _, [] => true
  | m, f :: r => decide (m ≤ f.1) && fieldsFrom (f.1 + f.2.1) r

/-- The sum of the fields. -/
def fieldSum : List (Nat × Nat × Nat) → Nat
  | [] => 0
  | f :: r => f.2.2 % 2 ^ f.2.1 * 2 ^ f.1 + fieldSum r

theorem pack_eq_fieldSum (fs : List (Nat × Nat × Nat)) : pack fs = fieldSum fs := by
  have h : ∀ (fs : List (Nat × Nat × Nat)) (a : Nat),
      fs.foldl (fun a f => a + (f.2.2 % 2 ^ f.2.1) * 2 ^ f.1) a = a + fieldSum fs := by
    intro fs
    induction fs with
    | nil => intro a; rfl
    | cons f r ih => intro a; simp only [List.foldl_cons, ih, fieldSum]; omega
  simpa [pack] using h fs 0

theorem dvd_fieldSum {m : Nat} {fs : List (Nat × Nat × Nat)} (h : fieldsFrom m fs = true) : 2 ^ m ∣ fieldSum fs := by
  induction fs generalizing m with
  | nil => exact Nat.dvd_zero _
  | cons f r ih =>
    simp only [fieldsFrom, Bool.and_eq_true, decide_eq_true_eq] at h
    apply Nat.dvd_add
    · exact Nat.dvd_trans (Nat.pow_dvd_pow 2 h.1) (Nat.dvd_mul_left _ _)
    · exact Nat.dvd_trans (Nat.pow_dvd_pow 2 (by omega)) (ih h.2)

theorem fieldsFrom_le {m : Nat} {fs : List (Nat × Nat × Nat)} (h : fieldsFrom m fs = true) {f : Nat × Nat × Nat} (hf : f ∈ fs) :
    m ≤ f.1 := by
  induction fs generalizing m with
  | nil => cases hf
  | cons g r ih =>
    simp only [fieldsFrom, Bool.and_eq_true, decide_eq_true_eq] at h
    rcases List.mem_cons.mp hf with rfl | hf
    · exact h.1
    · have := ih h.2 hf; omega

theorem fieldSum_field {m : Nat} {fs : List (Nat × Nat × Nat)} (h : fieldsFrom m fs = true) {lo w v : Nat}
    (hf : (lo, w, v) ∈ fs) : fieldSum fs / 2 ^ lo % 2 ^ w = v % 2 ^ w := by
  induction fs generalizing m with
  | nil => cases hf
  | cons g r ih =>
    simp only [fieldsFrom, Bool.and_eq_true, decide_eq_true_eq] at h
    rcases List.mem_cons.mp hf with rfl | hr
    · obtain ⟨k, hk⟩ := dvd_fieldSum h.2
      simp only [fieldSum, hk]
      rw [Nat.pow_add, Nat.mul_assoc, Nat.mul_comm (v % 2 ^ w), ← Nat.mul_add, Nat.mul_div_cancel_left _ (Nat.two_pow_pos lo),
        Nat.add_mul_mod_self_left, Nat.mod_mod]
    · have hle := fieldsFrom_le h.2 hr
      obtain ⟨k, hk⟩ := dvd_fieldSum h.2
      obtain ⟨q, hq⟩ := Nat.exists_eq_add_of_le hle
      simp only at hq
      rw [← ih h.2 hr]
      have hx : g.2.2 % 2 ^ g.2.1 * 2 ^ g.1 < 2 ^ (g.1 + g.2.1) := by
        rw [Nat.pow_add, Nat.mul_comm]
        exact Nat.mul_lt_mul_of_pos_left (Nat.mod_lt _ (Nat.two_pow_pos _)) (Nat.two_pow_pos _)
      have hd : fieldSum (g :: r) / 2 ^ lo = fieldSum r / 2 ^ lo := by
        simp only [fieldSum, hk]
        rw [hq, Nat.pow_add 2 (g.1 + g.2.1) q, ← Nat.div_div_eq_div_mul, ← Nat.div_div_eq_div_mul, Nat.add_mul_div_left _ _ (Nat.two_pow_pos _),
          Nat.div_eq_of_lt hx, Nat.zero_add, Nat.mul_div_cancel_left _ (Nat.two_pow_pos _)]
      rw [hd]

/-- A field of a packed word reads as it was packed. -/
theorem pack_field {fs : List (Nat × Nat × Nat)} (h : fieldsFrom 0 fs = true) {lo w v : Nat} (hf : (lo, w, v) ∈ fs) :
    pack fs / 2 ^ lo % 2 ^ w = v % 2 ^ w := by
  rw [pack_eq_fieldSum]; exact fieldSum_field h hf

/-- A field below the word's width is not touched by the word's wrap. -/
theorem fld_ofNat (n x lo w : Nat) (h : lo + w ≤ n) : fld (BitVec.ofNat n x) lo w = x / 2 ^ lo % 2 ^ w := by
  obtain ⟨k, rfl⟩ := Nat.exists_eq_add_of_le h
  simp only [fld, BitVec.toNat_ofNat]
  rw [show lo + w + k = lo + (w + k) by omega, Nat.pow_add 2 lo, Nat.mod_mul_right_div_self, Nat.pow_add 2 w,
    Nat.mod_mul_right_mod]

/-- A field of a packed register reads as it was packed. -/
theorem fld_pack {n : Nat} {fs : List (Nat × Nat × Nat)} (h : fieldsFrom 0 fs = true) {lo w v : Nat} (hf : (lo, w, v) ∈ fs)
    (hn : lo + w ≤ n) : fld (BitVec.ofNat n (pack fs)) lo w = v % 2 ^ w := by
  rw [fld_ofNat n _ lo w hn, pack_field h hf]

end Sys2Proof.Machine
end

