-- ==== Sys2Proof/Laws/Memory.lean ====
section
/-! SUPPORT. The byte memories: every operation keeps the canonical form, a read after a write gives what was written, and a
write leaves every other byte alone. -/

namespace Sys2Proof.Machine

theorem wfFrom_mono {m : List Host.Cell} {lo lo' : Nat} (h : Memory.wfFrom lo m = true) (hl : lo' ≤ lo) :
    Memory.wfFrom lo' m = true := by
  cases m with
  | nil => rfl
  | cons c r =>
    obtain ⟨b, v⟩ := c
    simp only [Memory.wfFrom, Bool.and_eq_true, decide_eq_true_eq] at h ⊢
    exact ⟨⟨by omega, h.1.2⟩, h.2⟩

/-- Below its lowest address a canonical memory reads 0. -/
theorem memGet_below {m : List Host.Cell} {lo a : Nat} (h : Memory.wfFrom lo m = true) (ha : a < lo) : memGet m a = 0 := by
  induction m generalizing lo with
  | nil => rfl
  | cons c r ih =>
    obtain ⟨b, v⟩ := c
    simp only [Memory.wfFrom, Bool.and_eq_true, decide_eq_true_eq] at h
    have hne : ¬ a = b := by omega
    simp only [memGet, hne, if_false]
    exact ih h.2 (by omega)

theorem memSet_wfFrom {m : List Host.Cell} {lo a : Nat} (x : Byte) (h : Memory.wfFrom lo m = true) (ha : lo ≤ a) :
    Memory.wfFrom lo (memSet m a x) = true := by
  induction m generalizing lo with
  | nil =>
    unfold memSet
    split
    · rfl
    · rename_i hx; simp [Memory.wfFrom, ha]; exact hx
  | cons c r ih =>
    obtain ⟨b, v⟩ := c
    have h0 := h
    simp only [Memory.wfFrom, Bool.and_eq_true, decide_eq_true_eq] at h
    unfold memSet
    split
    · rename_i hab
      split
      · exact h0
      · rename_i hx
        simp only [Memory.wfFrom, Bool.and_eq_true, decide_eq_true_eq]
        exact ⟨⟨ha, hx⟩, ⟨by omega, h.1.2⟩, h.2⟩
    · split
      · rename_i hab
        split
        · exact wfFrom_mono h.2 (by omega)
        · rename_i hx
          subst hab
          simp only [Memory.wfFrom, Bool.and_eq_true, decide_eq_true_eq]
          exact ⟨⟨ha, hx⟩, h.2⟩
      · simp only [Memory.wfFrom, Bool.and_eq_true, decide_eq_true_eq]
        exact ⟨h.1, ih h.2 (by omega)⟩

/-- A written byte keeps the canonical form. -/
theorem memSet_wf {m : List Host.Cell} (a : Nat) (x : Byte) (h : Memory.wf m = true) : Memory.wf (memSet m a x) = true :=
  memSet_wfFrom x h (Nat.zero_le a)

/-- Written bytes keep the canonical form. -/
theorem memPut_wf (bs : List Byte) : ∀ {m : List Host.Cell} (a : Nat), Memory.wf m = true → Memory.wf (memPut m a bs) = true := by
  induction bs with
  | nil => intro m a h; exact h
  | cons x r ih => intro m a h; exact ih (a + 1) (memSet_wf a x h)

theorem memGet_memSet_from {m : List Host.Cell} {lo a : Nat} (x : Byte) (b : Nat) (h : Memory.wfFrom lo m = true) (ha : lo ≤ a) :
    memGet (memSet m a x) b = if b = a then x else memGet m b := by
  induction m generalizing lo with
  | nil =>
    unfold memSet
    split
    · rename_i hx; subst hx; simp [memGet]
    · simp [memGet]
  | cons c r ih =>
    obtain ⟨k, v⟩ := c
    simp only [Memory.wfFrom, Bool.and_eq_true, decide_eq_true_eq] at h
    unfold memSet
    split
    · rename_i hak
      split
      · rename_i hx
        subst hx
        by_cases hb : b = a
        · subst hb
          have hne : ¬ b = k := by omega
          simp only [memGet, hne, if_false, if_true]
          exact memGet_below h.2 (by omega)
        · simp [hb]
      · simp only [memGet]
    · split
      · rename_i hak
        subst hak
        split
        · rename_i hx
          subst hx
          by_cases hb : b = a
          · subst hb
            simp only [if_true]
            exact memGet_below h.2 (by omega)
          · simp [memGet, hb]
        · simp only [memGet]; split <;> rfl
      · rename_i h1 h2
        simp only [memGet]
        by_cases hb : b = k
        · subst hb
          have hne : ¬ b = a := by omega
          simp [hne]
        · simp only [hb, if_false]
          exact ih h.2 (by omega)

/-- A byte reads as written, every other byte as before. -/
theorem memGet_memSet {m : List Host.Cell} (a : Nat) (x : Byte) (b : Nat) (h : Memory.wf m = true) :
    memGet (memSet m a x) b = if b = a then x else memGet m b :=
  memGet_memSet_from x b h (Nat.zero_le a)

/-- Bytes outside the written ones read as before. -/
theorem memGet_memPut_out (bs : List Byte) : ∀ {m : List Host.Cell} (a b : Nat), Memory.wf m = true →
    (b < a ∨ a + bs.length ≤ b) → memGet (memPut m a bs) b = memGet m b := by
  induction bs with
  | nil => intro m a b _ _; rfl
  | cons x r ih =>
    intro m a b h hb
    simp only [List.length_cons] at hb
    rw [memPut, ih (a + 1) b (memSet_wf a x h) (by omega), memGet_memSet a x b h]
    have : ¬ b = a := by omega
    simp [this]

/-- The written bytes read as written. -/
theorem memGet_memPut (bs : List Byte) : ∀ {m : List Host.Cell} (a i : Nat), Memory.wf m = true → (hi : i < bs.length) →
    memGet (memPut m a bs) (a + i) = bs[i] := by
  induction bs with
  | nil => intro m a i _ hi; simp at hi
  | cons x r ih =>
    intro m a i h hi
    rw [memPut]
    cases i with
    | zero =>
      rw [memGet_memPut_out r (a + 1) (a + 0) (memSet_wf a x h) (by omega), memGet_memSet a x _ h]
      simp
    | succ i =>
      have := ih (a + 1) i (memSet_wf a x h) (by simpa using hi)
      rw [show a + (i + 1) = a + 1 + i by omega, this]
      simp

/-- A read of the written bytes gives them. -/
theorem memRead_memPut (bs : List Byte) {m : List Host.Cell} (a : Nat) (h : Memory.wf m = true) :
    memRead (memPut m a bs) a bs.length = bs := by
  apply List.ext_getElem
  · simp [memRead]
  · intro i h1 h2
    simp only [memRead, List.getElem_map, List.getElem_range]
    exact memGet_memPut bs a i h h2

/-- A read wholly outside the written bytes gives what it gave. -/
theorem memRead_memPut_out (bs : List Byte) {m : List Host.Cell} (a b k : Nat) (h : Memory.wf m = true)
    (hb : b + k ≤ a ∨ a + bs.length ≤ b) : memRead (memPut m a bs) b k = memRead m b k := by
  simp only [memRead]
  apply List.map_congr_left
  intro i hi
  have := List.mem_range.mp hi
  exact memGet_memPut_out bs a (b + i) h (by omega)

@[simp] theorem toBytes_length (k v : Nat) : (toBytes k v).length = k := by
  induction k generalizing v with
  | zero => rfl
  | succ k ih => simp [toBytes, ih]

/-- Little-endian bytes give the number back. -/
theorem leNat_toBytes (k v : Nat) : leNat (toBytes k v) = v % 256 ^ k := by
  induction k generalizing v with
  | zero => simp [toBytes, leNat, Nat.mod_one]
  | succ k ih =>
    have e : (256 : Nat) ^ (k + 1) = 256 * 256 ^ k := by rw [Nat.pow_succ, Nat.mul_comm]
    simp only [toBytes, leNat, ih, BitVec.toNat_ofNat]
    rw [e, Nat.mod_mul]

end Sys2Proof.Machine
end

