-- ==== Sys2Proof/Laws/Descriptor.lean ====
section
/-! SUPPORT. The descriptor of R376: its 64 bytes give back its OPCODE and every field, and the opcodes of R381 their commands. -/

namespace Sys2Proof.Machine

@[simp] theorem descBytes_length (op : BitVec 16) (d : Desc) : (descBytes op d).length = 64 := toBytes_length 64 _

theorem ofNat_leNat_descBytes (op : BitVec 16) (d : Desc) : BitVec.ofNat 512 (leNat (descBytes op d)) = descWord op d := by
  apply BitVec.eq_of_toNat_eq
  have h := (descWord op d).isLt
  have e : (256 : Nat) ^ 64 = 2 ^ 512 := by rw [show (256 : Nat) = 2 ^ 8 from rfl, ← Nat.pow_mul]
  rw [descBytes, leNat_toBytes, BitVec.toNat_ofNat, e, Nat.mod_mod, Nat.mod_eq_of_lt h]

theorem ofNat_toNat_mod {w : Nat} (x : BitVec w) : BitVec.ofNat w (x.toNat % 2 ^ w) = x := by
  apply BitVec.eq_of_toNat_eq
  rw [BitVec.toNat_ofNat, Nat.mod_mod, Nat.mod_eq_of_lt x.isLt]

/-- A register packed into a word reads back. -/
theorem ofNat_fld_pack {n lo w : Nat} {fs : List (Nat × Nat × Nat)} {x : BitVec w} (h : fieldsFrom 0 fs = true)
    (hf : (lo, w, x.toNat) ∈ fs) (hn : lo + w ≤ n) : BitVec.ofNat w (fld (BitVec.ofNat n (pack fs)) lo w) = x := by
  rw [fld_pack h hf hn, ofNat_toNat_mod]

/-- The 64 bytes of a descriptor hold its OPCODE and its fields. -/
theorem descOf_descBytes (op : BitVec 16) (d : Desc) : descOf d.queue (descBytes op d) = (op, d) := by
  obtain ⟨q, alive, rsv24, crc16, rsv48, tag, rsv96, payload⟩ := d
  simp only [descOf, ofNat_leNat_descBytes, descWord, Prod.mk.injEq, Desc.mk.injEq, true_and]
  refine ⟨?_, ?_, ?_, ?_, ?_, ?_, ?_, ?_⟩ <;>
    exact ofNat_fld_pack (by simp [fieldsFrom]) (by simp) (by omega)

/-- An assigned opcode names its command. -/
theorem opOf_code (op : Op) (h : ∀ c, op ≠ .unassigned c) : opOf op.code = op := by
  cases op <;> first | rfl | exact absurd rfl (h _)

end Sys2Proof.Machine
end

