-- ==== Sys2Proof/Laws/State.lean ====
section
/-! SUPPORT. What each update of a part of the state leaves in each field: one lemma per field per update. -/

namespace Sys2Proof.Machine

/-! ## onClk -/

@[simp] theorem onClk_clk (f : Clock → Clock) (s : State) : (onClk f s).clk = f s.clk := rfl
@[simp] theorem onClk_cfg (f : Clock → Clock) (s : State) : (onClk f s).cfg = s.cfg := rfl
@[simp] theorem onClk_pendLv (f : Clock → Clock) (s : State) : (onClk f s).pendLv = s.pendLv := rfl
@[simp] theorem onClk_openSet (f : Clock → Clock) (s : State) : (onClk f s).openSet = s.openSet := rfl
@[simp] theorem onClk_com (f : Clock → Clock) (s : State) : (onClk f s).com = s.com := rfl
@[simp] theorem onClk_comp (f : Clock → Clock) (s : State) : (onClk f s).comp = s.comp := rfl
@[simp] theorem onClk_heads (f : Clock → Clock) (s : State) : (onClk f s).heads = s.heads := rfl
@[simp] theorem onClk_links (f : Clock → Clock) (s : State) : (onClk f s).links = s.links := rfl
@[simp] theorem onClk_rasters (f : Clock → Clock) (s : State) : (onClk f s).rasters = s.rasters := rfl
@[simp] theorem onClk_chans (f : Clock → Clock) (s : State) : (onClk f s).chans = s.chans := rfl
@[simp] theorem onClk_loops (f : Clock → Clock) (s : State) : (onClk f s).loops = s.loops := rfl
@[simp] theorem onClk_oss (f : Clock → Clock) (s : State) : (onClk f s).oss = s.oss := rfl
@[simp] theorem onClk_lines (f : Clock → Clock) (s : State) : (onClk f s).lines = s.lines := rfl
@[simp] theorem onClk_sluice (f : Clock → Clock) (s : State) : (onClk f s).sluice = s.sluice := rfl
@[simp] theorem onClk_therm (f : Clock → Clock) (s : State) : (onClk f s).therm = s.therm := rfl
@[simp] theorem onClk_safety (f : Clock → Clock) (s : State) : (onClk f s).safety = s.safety := rfl
@[simp] theorem onClk_cxl (f : Clock → Clock) (s : State) : (onClk f s).cxl = s.cxl := rfl
@[simp] theorem onClk_queues (f : Clock → Clock) (s : State) : (onClk f s).queues = s.queues := rfl
@[simp] theorem onClk_ev (f : Clock → Clock) (s : State) : (onClk f s).ev = s.ev := rfl
@[simp] theorem onClk_boot (f : Clock → Clock) (s : State) : (onClk f s).boot = s.boot := rfl
@[simp] theorem onClk_power (f : Clock → Clock) (s : State) : (onClk f s).power = s.power := rfl
@[simp] theorem onClk_otp (f : Clock → Clock) (s : State) : (onClk f s).otp = s.otp := rfl
@[simp] theorem onClk_cal (f : Clock → Clock) (s : State) : (onClk f s).cal = s.cal := rfl
@[simp] theorem onClk_flash (f : Clock → Clock) (s : State) : (onClk f s).flash = s.flash := rfl
@[simp] theorem onClk_upd (f : Clock → Clock) (s : State) : (onClk f s).upd = s.upd := rfl
@[simp] theorem onClk_cw (f : Clock → Clock) (s : State) : (onClk f s).cw = s.cw := rfl
@[simp] theorem onClk_jtag (f : Clock → Clock) (s : State) : (onClk f s).jtag = s.jtag := rfl
@[simp] theorem onClk_bar2 (f : Clock → Clock) (s : State) : (onClk f s).bar2 = s.bar2 := rfl
@[simp] theorem onClk_planes (f : Clock → Clock) (s : State) : (onClk f s).planes = s.planes := rfl
@[simp] theorem onClk_canvas (f : Clock → Clock) (s : State) : (onClk f s).canvas = s.canvas := rfl
@[simp] theorem onClk_mirrorGen (f : Clock → Clock) (s : State) : (onClk f s).mirrorGen = s.mirrorGen := rfl
@[simp] theorem onClk_out (f : Clock → Clock) (s : State) : (onClk f s).out = s.out := rfl
@[simp] theorem onClk_free (f : Clock → Clock) (s : State) : (onClk f s).free = s.free := rfl
@[simp] theorem onClk_pending (f : Clock → Clock) (s : State) : (onClk f s).pending = s.pending := rfl

/-! ## onCfg -/

@[simp] theorem onCfg_clk (f : Cfg → Cfg) (s : State) : (onCfg f s).clk = s.clk := rfl
@[simp] theorem onCfg_cfg (f : Cfg → Cfg) (s : State) : (onCfg f s).cfg = f s.cfg := rfl
@[simp] theorem onCfg_pendLv (f : Cfg → Cfg) (s : State) : (onCfg f s).pendLv = s.pendLv := rfl
@[simp] theorem onCfg_openSet (f : Cfg → Cfg) (s : State) : (onCfg f s).openSet = s.openSet := rfl
@[simp] theorem onCfg_com (f : Cfg → Cfg) (s : State) : (onCfg f s).com = s.com := rfl
@[simp] theorem onCfg_comp (f : Cfg → Cfg) (s : State) : (onCfg f s).comp = s.comp := rfl
@[simp] theorem onCfg_heads (f : Cfg → Cfg) (s : State) : (onCfg f s).heads = s.heads := rfl
@[simp] theorem onCfg_links (f : Cfg → Cfg) (s : State) : (onCfg f s).links = s.links := rfl
@[simp] theorem onCfg_rasters (f : Cfg → Cfg) (s : State) : (onCfg f s).rasters = s.rasters := rfl
@[simp] theorem onCfg_chans (f : Cfg → Cfg) (s : State) : (onCfg f s).chans = s.chans := rfl
@[simp] theorem onCfg_loops (f : Cfg → Cfg) (s : State) : (onCfg f s).loops = s.loops := rfl
@[simp] theorem onCfg_oss (f : Cfg → Cfg) (s : State) : (onCfg f s).oss = s.oss := rfl
@[simp] theorem onCfg_lines (f : Cfg → Cfg) (s : State) : (onCfg f s).lines = s.lines := rfl
@[simp] theorem onCfg_sluice (f : Cfg → Cfg) (s : State) : (onCfg f s).sluice = s.sluice := rfl
@[simp] theorem onCfg_therm (f : Cfg → Cfg) (s : State) : (onCfg f s).therm = s.therm := rfl
@[simp] theorem onCfg_safety (f : Cfg → Cfg) (s : State) : (onCfg f s).safety = s.safety := rfl
@[simp] theorem onCfg_cxl (f : Cfg → Cfg) (s : State) : (onCfg f s).cxl = s.cxl := rfl
@[simp] theorem onCfg_queues (f : Cfg → Cfg) (s : State) : (onCfg f s).queues = s.queues := rfl
@[simp] theorem onCfg_ev (f : Cfg → Cfg) (s : State) : (onCfg f s).ev = s.ev := rfl
@[simp] theorem onCfg_boot (f : Cfg → Cfg) (s : State) : (onCfg f s).boot = s.boot := rfl
@[simp] theorem onCfg_power (f : Cfg → Cfg) (s : State) : (onCfg f s).power = s.power := rfl
@[simp] theorem onCfg_otp (f : Cfg → Cfg) (s : State) : (onCfg f s).otp = s.otp := rfl
@[simp] theorem onCfg_cal (f : Cfg → Cfg) (s : State) : (onCfg f s).cal = s.cal := rfl
@[simp] theorem onCfg_flash (f : Cfg → Cfg) (s : State) : (onCfg f s).flash = s.flash := rfl
@[simp] theorem onCfg_upd (f : Cfg → Cfg) (s : State) : (onCfg f s).upd = s.upd := rfl
@[simp] theorem onCfg_cw (f : Cfg → Cfg) (s : State) : (onCfg f s).cw = s.cw := rfl
@[simp] theorem onCfg_jtag (f : Cfg → Cfg) (s : State) : (onCfg f s).jtag = s.jtag := rfl
@[simp] theorem onCfg_bar2 (f : Cfg → Cfg) (s : State) : (onCfg f s).bar2 = s.bar2 := rfl
@[simp] theorem onCfg_planes (f : Cfg → Cfg) (s : State) : (onCfg f s).planes = s.planes := rfl
@[simp] theorem onCfg_canvas (f : Cfg → Cfg) (s : State) : (onCfg f s).canvas = s.canvas := rfl
@[simp] theorem onCfg_mirrorGen (f : Cfg → Cfg) (s : State) : (onCfg f s).mirrorGen = s.mirrorGen := rfl
@[simp] theorem onCfg_out (f : Cfg → Cfg) (s : State) : (onCfg f s).out = s.out := rfl
@[simp] theorem onCfg_free (f : Cfg → Cfg) (s : State) : (onCfg f s).free = s.free := rfl
@[simp] theorem onCfg_pending (f : Cfg → Cfg) (s : State) : (onCfg f s).pending = s.pending := rfl

/-! ## onCom -/

@[simp] theorem onCom_clk (f : CommitDyn → CommitDyn) (s : State) : (onCom f s).clk = s.clk := rfl
@[simp] theorem onCom_cfg (f : CommitDyn → CommitDyn) (s : State) : (onCom f s).cfg = s.cfg := rfl
@[simp] theorem onCom_pendLv (f : CommitDyn → CommitDyn) (s : State) : (onCom f s).pendLv = s.pendLv := rfl
@[simp] theorem onCom_openSet (f : CommitDyn → CommitDyn) (s : State) : (onCom f s).openSet = s.openSet := rfl
@[simp] theorem onCom_com (f : CommitDyn → CommitDyn) (s : State) : (onCom f s).com = f s.com := rfl
@[simp] theorem onCom_comp (f : CommitDyn → CommitDyn) (s : State) : (onCom f s).comp = s.comp := rfl
@[simp] theorem onCom_heads (f : CommitDyn → CommitDyn) (s : State) : (onCom f s).heads = s.heads := rfl
@[simp] theorem onCom_links (f : CommitDyn → CommitDyn) (s : State) : (onCom f s).links = s.links := rfl
@[simp] theorem onCom_rasters (f : CommitDyn → CommitDyn) (s : State) : (onCom f s).rasters = s.rasters := rfl
@[simp] theorem onCom_chans (f : CommitDyn → CommitDyn) (s : State) : (onCom f s).chans = s.chans := rfl
@[simp] theorem onCom_loops (f : CommitDyn → CommitDyn) (s : State) : (onCom f s).loops = s.loops := rfl
@[simp] theorem onCom_oss (f : CommitDyn → CommitDyn) (s : State) : (onCom f s).oss = s.oss := rfl
@[simp] theorem onCom_lines (f : CommitDyn → CommitDyn) (s : State) : (onCom f s).lines = s.lines := rfl
@[simp] theorem onCom_sluice (f : CommitDyn → CommitDyn) (s : State) : (onCom f s).sluice = s.sluice := rfl
@[simp] theorem onCom_therm (f : CommitDyn → CommitDyn) (s : State) : (onCom f s).therm = s.therm := rfl
@[simp] theorem onCom_safety (f : CommitDyn → CommitDyn) (s : State) : (onCom f s).safety = s.safety := rfl
@[simp] theorem onCom_cxl (f : CommitDyn → CommitDyn) (s : State) : (onCom f s).cxl = s.cxl := rfl
@[simp] theorem onCom_queues (f : CommitDyn → CommitDyn) (s : State) : (onCom f s).queues = s.queues := rfl
@[simp] theorem onCom_ev (f : CommitDyn → CommitDyn) (s : State) : (onCom f s).ev = s.ev := rfl
@[simp] theorem onCom_boot (f : CommitDyn → CommitDyn) (s : State) : (onCom f s).boot = s.boot := rfl
@[simp] theorem onCom_power (f : CommitDyn → CommitDyn) (s : State) : (onCom f s).power = s.power := rfl
@[simp] theorem onCom_otp (f : CommitDyn → CommitDyn) (s : State) : (onCom f s).otp = s.otp := rfl
@[simp] theorem onCom_cal (f : CommitDyn → CommitDyn) (s : State) : (onCom f s).cal = s.cal := rfl
@[simp] theorem onCom_flash (f : CommitDyn → CommitDyn) (s : State) : (onCom f s).flash = s.flash := rfl
@[simp] theorem onCom_upd (f : CommitDyn → CommitDyn) (s : State) : (onCom f s).upd = s.upd := rfl
@[simp] theorem onCom_cw (f : CommitDyn → CommitDyn) (s : State) : (onCom f s).cw = s.cw := rfl
@[simp] theorem onCom_jtag (f : CommitDyn → CommitDyn) (s : State) : (onCom f s).jtag = s.jtag := rfl
@[simp] theorem onCom_bar2 (f : CommitDyn → CommitDyn) (s : State) : (onCom f s).bar2 = s.bar2 := rfl
@[simp] theorem onCom_planes (f : CommitDyn → CommitDyn) (s : State) : (onCom f s).planes = s.planes := rfl
@[simp] theorem onCom_canvas (f : CommitDyn → CommitDyn) (s : State) : (onCom f s).canvas = s.canvas := rfl
@[simp] theorem onCom_mirrorGen (f : CommitDyn → CommitDyn) (s : State) : (onCom f s).mirrorGen = s.mirrorGen := rfl
@[simp] theorem onCom_out (f : CommitDyn → CommitDyn) (s : State) : (onCom f s).out = s.out := rfl
@[simp] theorem onCom_free (f : CommitDyn → CommitDyn) (s : State) : (onCom f s).free = s.free := rfl
@[simp] theorem onCom_pending (f : CommitDyn → CommitDyn) (s : State) : (onCom f s).pending = s.pending := rfl

/-! ## onComp -/

@[simp] theorem onComp_clk (f : CompDyn → CompDyn) (s : State) : (onComp f s).clk = s.clk := rfl
@[simp] theorem onComp_cfg (f : CompDyn → CompDyn) (s : State) : (onComp f s).cfg = s.cfg := rfl
@[simp] theorem onComp_pendLv (f : CompDyn → CompDyn) (s : State) : (onComp f s).pendLv = s.pendLv := rfl
@[simp] theorem onComp_openSet (f : CompDyn → CompDyn) (s : State) : (onComp f s).openSet = s.openSet := rfl
@[simp] theorem onComp_com (f : CompDyn → CompDyn) (s : State) : (onComp f s).com = s.com := rfl
@[simp] theorem onComp_comp (f : CompDyn → CompDyn) (s : State) : (onComp f s).comp = f s.comp := rfl
@[simp] theorem onComp_heads (f : CompDyn → CompDyn) (s : State) : (onComp f s).heads = s.heads := rfl
@[simp] theorem onComp_links (f : CompDyn → CompDyn) (s : State) : (onComp f s).links = s.links := rfl
@[simp] theorem onComp_rasters (f : CompDyn → CompDyn) (s : State) : (onComp f s).rasters = s.rasters := rfl
@[simp] theorem onComp_chans (f : CompDyn → CompDyn) (s : State) : (onComp f s).chans = s.chans := rfl
@[simp] theorem onComp_loops (f : CompDyn → CompDyn) (s : State) : (onComp f s).loops = s.loops := rfl
@[simp] theorem onComp_oss (f : CompDyn → CompDyn) (s : State) : (onComp f s).oss = s.oss := rfl
@[simp] theorem onComp_lines (f : CompDyn → CompDyn) (s : State) : (onComp f s).lines = s.lines := rfl
@[simp] theorem onComp_sluice (f : CompDyn → CompDyn) (s : State) : (onComp f s).sluice = s.sluice := rfl
@[simp] theorem onComp_therm (f : CompDyn → CompDyn) (s : State) : (onComp f s).therm = s.therm := rfl
@[simp] theorem onComp_safety (f : CompDyn → CompDyn) (s : State) : (onComp f s).safety = s.safety := rfl
@[simp] theorem onComp_cxl (f : CompDyn → CompDyn) (s : State) : (onComp f s).cxl = s.cxl := rfl
@[simp] theorem onComp_queues (f : CompDyn → CompDyn) (s : State) : (onComp f s).queues = s.queues := rfl
@[simp] theorem onComp_ev (f : CompDyn → CompDyn) (s : State) : (onComp f s).ev = s.ev := rfl
@[simp] theorem onComp_boot (f : CompDyn → CompDyn) (s : State) : (onComp f s).boot = s.boot := rfl
@[simp] theorem onComp_power (f : CompDyn → CompDyn) (s : State) : (onComp f s).power = s.power := rfl
@[simp] theorem onComp_otp (f : CompDyn → CompDyn) (s : State) : (onComp f s).otp = s.otp := rfl
@[simp] theorem onComp_cal (f : CompDyn → CompDyn) (s : State) : (onComp f s).cal = s.cal := rfl
@[simp] theorem onComp_flash (f : CompDyn → CompDyn) (s : State) : (onComp f s).flash = s.flash := rfl
@[simp] theorem onComp_upd (f : CompDyn → CompDyn) (s : State) : (onComp f s).upd = s.upd := rfl
@[simp] theorem onComp_cw (f : CompDyn → CompDyn) (s : State) : (onComp f s).cw = s.cw := rfl
@[simp] theorem onComp_jtag (f : CompDyn → CompDyn) (s : State) : (onComp f s).jtag = s.jtag := rfl
@[simp] theorem onComp_bar2 (f : CompDyn → CompDyn) (s : State) : (onComp f s).bar2 = s.bar2 := rfl
@[simp] theorem onComp_planes (f : CompDyn → CompDyn) (s : State) : (onComp f s).planes = s.planes := rfl
@[simp] theorem onComp_canvas (f : CompDyn → CompDyn) (s : State) : (onComp f s).canvas = s.canvas := rfl
@[simp] theorem onComp_mirrorGen (f : CompDyn → CompDyn) (s : State) : (onComp f s).mirrorGen = s.mirrorGen := rfl
@[simp] theorem onComp_out (f : CompDyn → CompDyn) (s : State) : (onComp f s).out = s.out := rfl
@[simp] theorem onComp_free (f : CompDyn → CompDyn) (s : State) : (onComp f s).free = s.free := rfl
@[simp] theorem onComp_pending (f : CompDyn → CompDyn) (s : State) : (onComp f s).pending = s.pending := rfl

/-! ## onSluice -/

@[simp] theorem onSluice_clk (f : SluiceDyn → SluiceDyn) (s : State) : (onSluice f s).clk = s.clk := rfl
@[simp] theorem onSluice_cfg (f : SluiceDyn → SluiceDyn) (s : State) : (onSluice f s).cfg = s.cfg := rfl
@[simp] theorem onSluice_pendLv (f : SluiceDyn → SluiceDyn) (s : State) : (onSluice f s).pendLv = s.pendLv := rfl
@[simp] theorem onSluice_openSet (f : SluiceDyn → SluiceDyn) (s : State) : (onSluice f s).openSet = s.openSet := rfl
@[simp] theorem onSluice_com (f : SluiceDyn → SluiceDyn) (s : State) : (onSluice f s).com = s.com := rfl
@[simp] theorem onSluice_comp (f : SluiceDyn → SluiceDyn) (s : State) : (onSluice f s).comp = s.comp := rfl
@[simp] theorem onSluice_heads (f : SluiceDyn → SluiceDyn) (s : State) : (onSluice f s).heads = s.heads := rfl
@[simp] theorem onSluice_links (f : SluiceDyn → SluiceDyn) (s : State) : (onSluice f s).links = s.links := rfl
@[simp] theorem onSluice_rasters (f : SluiceDyn → SluiceDyn) (s : State) : (onSluice f s).rasters = s.rasters := rfl
@[simp] theorem onSluice_chans (f : SluiceDyn → SluiceDyn) (s : State) : (onSluice f s).chans = s.chans := rfl
@[simp] theorem onSluice_loops (f : SluiceDyn → SluiceDyn) (s : State) : (onSluice f s).loops = s.loops := rfl
@[simp] theorem onSluice_oss (f : SluiceDyn → SluiceDyn) (s : State) : (onSluice f s).oss = s.oss := rfl
@[simp] theorem onSluice_lines (f : SluiceDyn → SluiceDyn) (s : State) : (onSluice f s).lines = s.lines := rfl
@[simp] theorem onSluice_sluice (f : SluiceDyn → SluiceDyn) (s : State) : (onSluice f s).sluice = f s.sluice := rfl
@[simp] theorem onSluice_therm (f : SluiceDyn → SluiceDyn) (s : State) : (onSluice f s).therm = s.therm := rfl
@[simp] theorem onSluice_safety (f : SluiceDyn → SluiceDyn) (s : State) : (onSluice f s).safety = s.safety := rfl
@[simp] theorem onSluice_cxl (f : SluiceDyn → SluiceDyn) (s : State) : (onSluice f s).cxl = s.cxl := rfl
@[simp] theorem onSluice_queues (f : SluiceDyn → SluiceDyn) (s : State) : (onSluice f s).queues = s.queues := rfl
@[simp] theorem onSluice_ev (f : SluiceDyn → SluiceDyn) (s : State) : (onSluice f s).ev = s.ev := rfl
@[simp] theorem onSluice_boot (f : SluiceDyn → SluiceDyn) (s : State) : (onSluice f s).boot = s.boot := rfl
@[simp] theorem onSluice_power (f : SluiceDyn → SluiceDyn) (s : State) : (onSluice f s).power = s.power := rfl
@[simp] theorem onSluice_otp (f : SluiceDyn → SluiceDyn) (s : State) : (onSluice f s).otp = s.otp := rfl
@[simp] theorem onSluice_cal (f : SluiceDyn → SluiceDyn) (s : State) : (onSluice f s).cal = s.cal := rfl
@[simp] theorem onSluice_flash (f : SluiceDyn → SluiceDyn) (s : State) : (onSluice f s).flash = s.flash := rfl
@[simp] theorem onSluice_upd (f : SluiceDyn → SluiceDyn) (s : State) : (onSluice f s).upd = s.upd := rfl
@[simp] theorem onSluice_cw (f : SluiceDyn → SluiceDyn) (s : State) : (onSluice f s).cw = s.cw := rfl
@[simp] theorem onSluice_jtag (f : SluiceDyn → SluiceDyn) (s : State) : (onSluice f s).jtag = s.jtag := rfl
@[simp] theorem onSluice_bar2 (f : SluiceDyn → SluiceDyn) (s : State) : (onSluice f s).bar2 = s.bar2 := rfl
@[simp] theorem onSluice_planes (f : SluiceDyn → SluiceDyn) (s : State) : (onSluice f s).planes = s.planes := rfl
@[simp] theorem onSluice_canvas (f : SluiceDyn → SluiceDyn) (s : State) : (onSluice f s).canvas = s.canvas := rfl
@[simp] theorem onSluice_mirrorGen (f : SluiceDyn → SluiceDyn) (s : State) : (onSluice f s).mirrorGen = s.mirrorGen := rfl
@[simp] theorem onSluice_out (f : SluiceDyn → SluiceDyn) (s : State) : (onSluice f s).out = s.out := rfl
@[simp] theorem onSluice_free (f : SluiceDyn → SluiceDyn) (s : State) : (onSluice f s).free = s.free := rfl
@[simp] theorem onSluice_pending (f : SluiceDyn → SluiceDyn) (s : State) : (onSluice f s).pending = s.pending := rfl

/-! ## onTherm -/

@[simp] theorem onTherm_clk (f : ThermDyn → ThermDyn) (s : State) : (onTherm f s).clk = s.clk := rfl
@[simp] theorem onTherm_cfg (f : ThermDyn → ThermDyn) (s : State) : (onTherm f s).cfg = s.cfg := rfl
@[simp] theorem onTherm_pendLv (f : ThermDyn → ThermDyn) (s : State) : (onTherm f s).pendLv = s.pendLv := rfl
@[simp] theorem onTherm_openSet (f : ThermDyn → ThermDyn) (s : State) : (onTherm f s).openSet = s.openSet := rfl
@[simp] theorem onTherm_com (f : ThermDyn → ThermDyn) (s : State) : (onTherm f s).com = s.com := rfl
@[simp] theorem onTherm_comp (f : ThermDyn → ThermDyn) (s : State) : (onTherm f s).comp = s.comp := rfl
@[simp] theorem onTherm_heads (f : ThermDyn → ThermDyn) (s : State) : (onTherm f s).heads = s.heads := rfl
@[simp] theorem onTherm_links (f : ThermDyn → ThermDyn) (s : State) : (onTherm f s).links = s.links := rfl
@[simp] theorem onTherm_rasters (f : ThermDyn → ThermDyn) (s : State) : (onTherm f s).rasters = s.rasters := rfl
@[simp] theorem onTherm_chans (f : ThermDyn → ThermDyn) (s : State) : (onTherm f s).chans = s.chans := rfl
@[simp] theorem onTherm_loops (f : ThermDyn → ThermDyn) (s : State) : (onTherm f s).loops = s.loops := rfl
@[simp] theorem onTherm_oss (f : ThermDyn → ThermDyn) (s : State) : (onTherm f s).oss = s.oss := rfl
@[simp] theorem onTherm_lines (f : ThermDyn → ThermDyn) (s : State) : (onTherm f s).lines = s.lines := rfl
@[simp] theorem onTherm_sluice (f : ThermDyn → ThermDyn) (s : State) : (onTherm f s).sluice = s.sluice := rfl
@[simp] theorem onTherm_therm (f : ThermDyn → ThermDyn) (s : State) : (onTherm f s).therm = f s.therm := rfl
@[simp] theorem onTherm_safety (f : ThermDyn → ThermDyn) (s : State) : (onTherm f s).safety = s.safety := rfl
@[simp] theorem onTherm_cxl (f : ThermDyn → ThermDyn) (s : State) : (onTherm f s).cxl = s.cxl := rfl
@[simp] theorem onTherm_queues (f : ThermDyn → ThermDyn) (s : State) : (onTherm f s).queues = s.queues := rfl
@[simp] theorem onTherm_ev (f : ThermDyn → ThermDyn) (s : State) : (onTherm f s).ev = s.ev := rfl
@[simp] theorem onTherm_boot (f : ThermDyn → ThermDyn) (s : State) : (onTherm f s).boot = s.boot := rfl
@[simp] theorem onTherm_power (f : ThermDyn → ThermDyn) (s : State) : (onTherm f s).power = s.power := rfl
@[simp] theorem onTherm_otp (f : ThermDyn → ThermDyn) (s : State) : (onTherm f s).otp = s.otp := rfl
@[simp] theorem onTherm_cal (f : ThermDyn → ThermDyn) (s : State) : (onTherm f s).cal = s.cal := rfl
@[simp] theorem onTherm_flash (f : ThermDyn → ThermDyn) (s : State) : (onTherm f s).flash = s.flash := rfl
@[simp] theorem onTherm_upd (f : ThermDyn → ThermDyn) (s : State) : (onTherm f s).upd = s.upd := rfl
@[simp] theorem onTherm_cw (f : ThermDyn → ThermDyn) (s : State) : (onTherm f s).cw = s.cw := rfl
@[simp] theorem onTherm_jtag (f : ThermDyn → ThermDyn) (s : State) : (onTherm f s).jtag = s.jtag := rfl
@[simp] theorem onTherm_bar2 (f : ThermDyn → ThermDyn) (s : State) : (onTherm f s).bar2 = s.bar2 := rfl
@[simp] theorem onTherm_planes (f : ThermDyn → ThermDyn) (s : State) : (onTherm f s).planes = s.planes := rfl
@[simp] theorem onTherm_canvas (f : ThermDyn → ThermDyn) (s : State) : (onTherm f s).canvas = s.canvas := rfl
@[simp] theorem onTherm_mirrorGen (f : ThermDyn → ThermDyn) (s : State) : (onTherm f s).mirrorGen = s.mirrorGen := rfl
@[simp] theorem onTherm_out (f : ThermDyn → ThermDyn) (s : State) : (onTherm f s).out = s.out := rfl
@[simp] theorem onTherm_free (f : ThermDyn → ThermDyn) (s : State) : (onTherm f s).free = s.free := rfl
@[simp] theorem onTherm_pending (f : ThermDyn → ThermDyn) (s : State) : (onTherm f s).pending = s.pending := rfl

/-! ## onSafety -/

@[simp] theorem onSafety_clk (f : SafetyDyn → SafetyDyn) (s : State) : (onSafety f s).clk = s.clk := rfl
@[simp] theorem onSafety_cfg (f : SafetyDyn → SafetyDyn) (s : State) : (onSafety f s).cfg = s.cfg := rfl
@[simp] theorem onSafety_pendLv (f : SafetyDyn → SafetyDyn) (s : State) : (onSafety f s).pendLv = s.pendLv := rfl
@[simp] theorem onSafety_openSet (f : SafetyDyn → SafetyDyn) (s : State) : (onSafety f s).openSet = s.openSet := rfl
@[simp] theorem onSafety_com (f : SafetyDyn → SafetyDyn) (s : State) : (onSafety f s).com = s.com := rfl
@[simp] theorem onSafety_comp (f : SafetyDyn → SafetyDyn) (s : State) : (onSafety f s).comp = s.comp := rfl
@[simp] theorem onSafety_heads (f : SafetyDyn → SafetyDyn) (s : State) : (onSafety f s).heads = s.heads := rfl
@[simp] theorem onSafety_links (f : SafetyDyn → SafetyDyn) (s : State) : (onSafety f s).links = s.links := rfl
@[simp] theorem onSafety_rasters (f : SafetyDyn → SafetyDyn) (s : State) : (onSafety f s).rasters = s.rasters := rfl
@[simp] theorem onSafety_chans (f : SafetyDyn → SafetyDyn) (s : State) : (onSafety f s).chans = s.chans := rfl
@[simp] theorem onSafety_loops (f : SafetyDyn → SafetyDyn) (s : State) : (onSafety f s).loops = s.loops := rfl
@[simp] theorem onSafety_oss (f : SafetyDyn → SafetyDyn) (s : State) : (onSafety f s).oss = s.oss := rfl
@[simp] theorem onSafety_lines (f : SafetyDyn → SafetyDyn) (s : State) : (onSafety f s).lines = s.lines := rfl
@[simp] theorem onSafety_sluice (f : SafetyDyn → SafetyDyn) (s : State) : (onSafety f s).sluice = s.sluice := rfl
@[simp] theorem onSafety_therm (f : SafetyDyn → SafetyDyn) (s : State) : (onSafety f s).therm = s.therm := rfl
@[simp] theorem onSafety_safety (f : SafetyDyn → SafetyDyn) (s : State) : (onSafety f s).safety = f s.safety := rfl
@[simp] theorem onSafety_cxl (f : SafetyDyn → SafetyDyn) (s : State) : (onSafety f s).cxl = s.cxl := rfl
@[simp] theorem onSafety_queues (f : SafetyDyn → SafetyDyn) (s : State) : (onSafety f s).queues = s.queues := rfl
@[simp] theorem onSafety_ev (f : SafetyDyn → SafetyDyn) (s : State) : (onSafety f s).ev = s.ev := rfl
@[simp] theorem onSafety_boot (f : SafetyDyn → SafetyDyn) (s : State) : (onSafety f s).boot = s.boot := rfl
@[simp] theorem onSafety_power (f : SafetyDyn → SafetyDyn) (s : State) : (onSafety f s).power = s.power := rfl
@[simp] theorem onSafety_otp (f : SafetyDyn → SafetyDyn) (s : State) : (onSafety f s).otp = s.otp := rfl
@[simp] theorem onSafety_cal (f : SafetyDyn → SafetyDyn) (s : State) : (onSafety f s).cal = s.cal := rfl
@[simp] theorem onSafety_flash (f : SafetyDyn → SafetyDyn) (s : State) : (onSafety f s).flash = s.flash := rfl
@[simp] theorem onSafety_upd (f : SafetyDyn → SafetyDyn) (s : State) : (onSafety f s).upd = s.upd := rfl
@[simp] theorem onSafety_cw (f : SafetyDyn → SafetyDyn) (s : State) : (onSafety f s).cw = s.cw := rfl
@[simp] theorem onSafety_jtag (f : SafetyDyn → SafetyDyn) (s : State) : (onSafety f s).jtag = s.jtag := rfl
@[simp] theorem onSafety_bar2 (f : SafetyDyn → SafetyDyn) (s : State) : (onSafety f s).bar2 = s.bar2 := rfl
@[simp] theorem onSafety_planes (f : SafetyDyn → SafetyDyn) (s : State) : (onSafety f s).planes = s.planes := rfl
@[simp] theorem onSafety_canvas (f : SafetyDyn → SafetyDyn) (s : State) : (onSafety f s).canvas = s.canvas := rfl
@[simp] theorem onSafety_mirrorGen (f : SafetyDyn → SafetyDyn) (s : State) : (onSafety f s).mirrorGen = s.mirrorGen := rfl
@[simp] theorem onSafety_out (f : SafetyDyn → SafetyDyn) (s : State) : (onSafety f s).out = s.out := rfl
@[simp] theorem onSafety_free (f : SafetyDyn → SafetyDyn) (s : State) : (onSafety f s).free = s.free := rfl
@[simp] theorem onSafety_pending (f : SafetyDyn → SafetyDyn) (s : State) : (onSafety f s).pending = s.pending := rfl

/-! ## onCxl -/

@[simp] theorem onCxl_clk (f : CxlDyn → CxlDyn) (s : State) : (onCxl f s).clk = s.clk := rfl
@[simp] theorem onCxl_cfg (f : CxlDyn → CxlDyn) (s : State) : (onCxl f s).cfg = s.cfg := rfl
@[simp] theorem onCxl_pendLv (f : CxlDyn → CxlDyn) (s : State) : (onCxl f s).pendLv = s.pendLv := rfl
@[simp] theorem onCxl_openSet (f : CxlDyn → CxlDyn) (s : State) : (onCxl f s).openSet = s.openSet := rfl
@[simp] theorem onCxl_com (f : CxlDyn → CxlDyn) (s : State) : (onCxl f s).com = s.com := rfl
@[simp] theorem onCxl_comp (f : CxlDyn → CxlDyn) (s : State) : (onCxl f s).comp = s.comp := rfl
@[simp] theorem onCxl_heads (f : CxlDyn → CxlDyn) (s : State) : (onCxl f s).heads = s.heads := rfl
@[simp] theorem onCxl_links (f : CxlDyn → CxlDyn) (s : State) : (onCxl f s).links = s.links := rfl
@[simp] theorem onCxl_rasters (f : CxlDyn → CxlDyn) (s : State) : (onCxl f s).rasters = s.rasters := rfl
@[simp] theorem onCxl_chans (f : CxlDyn → CxlDyn) (s : State) : (onCxl f s).chans = s.chans := rfl
@[simp] theorem onCxl_loops (f : CxlDyn → CxlDyn) (s : State) : (onCxl f s).loops = s.loops := rfl
@[simp] theorem onCxl_oss (f : CxlDyn → CxlDyn) (s : State) : (onCxl f s).oss = s.oss := rfl
@[simp] theorem onCxl_lines (f : CxlDyn → CxlDyn) (s : State) : (onCxl f s).lines = s.lines := rfl
@[simp] theorem onCxl_sluice (f : CxlDyn → CxlDyn) (s : State) : (onCxl f s).sluice = s.sluice := rfl
@[simp] theorem onCxl_therm (f : CxlDyn → CxlDyn) (s : State) : (onCxl f s).therm = s.therm := rfl
@[simp] theorem onCxl_safety (f : CxlDyn → CxlDyn) (s : State) : (onCxl f s).safety = s.safety := rfl
@[simp] theorem onCxl_cxl (f : CxlDyn → CxlDyn) (s : State) : (onCxl f s).cxl = f s.cxl := rfl
@[simp] theorem onCxl_queues (f : CxlDyn → CxlDyn) (s : State) : (onCxl f s).queues = s.queues := rfl
@[simp] theorem onCxl_ev (f : CxlDyn → CxlDyn) (s : State) : (onCxl f s).ev = s.ev := rfl
@[simp] theorem onCxl_boot (f : CxlDyn → CxlDyn) (s : State) : (onCxl f s).boot = s.boot := rfl
@[simp] theorem onCxl_power (f : CxlDyn → CxlDyn) (s : State) : (onCxl f s).power = s.power := rfl
@[simp] theorem onCxl_otp (f : CxlDyn → CxlDyn) (s : State) : (onCxl f s).otp = s.otp := rfl
@[simp] theorem onCxl_cal (f : CxlDyn → CxlDyn) (s : State) : (onCxl f s).cal = s.cal := rfl
@[simp] theorem onCxl_flash (f : CxlDyn → CxlDyn) (s : State) : (onCxl f s).flash = s.flash := rfl
@[simp] theorem onCxl_upd (f : CxlDyn → CxlDyn) (s : State) : (onCxl f s).upd = s.upd := rfl
@[simp] theorem onCxl_cw (f : CxlDyn → CxlDyn) (s : State) : (onCxl f s).cw = s.cw := rfl
@[simp] theorem onCxl_jtag (f : CxlDyn → CxlDyn) (s : State) : (onCxl f s).jtag = s.jtag := rfl
@[simp] theorem onCxl_bar2 (f : CxlDyn → CxlDyn) (s : State) : (onCxl f s).bar2 = s.bar2 := rfl
@[simp] theorem onCxl_planes (f : CxlDyn → CxlDyn) (s : State) : (onCxl f s).planes = s.planes := rfl
@[simp] theorem onCxl_canvas (f : CxlDyn → CxlDyn) (s : State) : (onCxl f s).canvas = s.canvas := rfl
@[simp] theorem onCxl_mirrorGen (f : CxlDyn → CxlDyn) (s : State) : (onCxl f s).mirrorGen = s.mirrorGen := rfl
@[simp] theorem onCxl_out (f : CxlDyn → CxlDyn) (s : State) : (onCxl f s).out = s.out := rfl
@[simp] theorem onCxl_free (f : CxlDyn → CxlDyn) (s : State) : (onCxl f s).free = s.free := rfl
@[simp] theorem onCxl_pending (f : CxlDyn → CxlDyn) (s : State) : (onCxl f s).pending = s.pending := rfl

/-! ## onEv -/

@[simp] theorem onEv_clk (f : EvDyn → EvDyn) (s : State) : (onEv f s).clk = s.clk := rfl
@[simp] theorem onEv_cfg (f : EvDyn → EvDyn) (s : State) : (onEv f s).cfg = s.cfg := rfl
@[simp] theorem onEv_pendLv (f : EvDyn → EvDyn) (s : State) : (onEv f s).pendLv = s.pendLv := rfl
@[simp] theorem onEv_openSet (f : EvDyn → EvDyn) (s : State) : (onEv f s).openSet = s.openSet := rfl
@[simp] theorem onEv_com (f : EvDyn → EvDyn) (s : State) : (onEv f s).com = s.com := rfl
@[simp] theorem onEv_comp (f : EvDyn → EvDyn) (s : State) : (onEv f s).comp = s.comp := rfl
@[simp] theorem onEv_heads (f : EvDyn → EvDyn) (s : State) : (onEv f s).heads = s.heads := rfl
@[simp] theorem onEv_links (f : EvDyn → EvDyn) (s : State) : (onEv f s).links = s.links := rfl
@[simp] theorem onEv_rasters (f : EvDyn → EvDyn) (s : State) : (onEv f s).rasters = s.rasters := rfl
@[simp] theorem onEv_chans (f : EvDyn → EvDyn) (s : State) : (onEv f s).chans = s.chans := rfl
@[simp] theorem onEv_loops (f : EvDyn → EvDyn) (s : State) : (onEv f s).loops = s.loops := rfl
@[simp] theorem onEv_oss (f : EvDyn → EvDyn) (s : State) : (onEv f s).oss = s.oss := rfl
@[simp] theorem onEv_lines (f : EvDyn → EvDyn) (s : State) : (onEv f s).lines = s.lines := rfl
@[simp] theorem onEv_sluice (f : EvDyn → EvDyn) (s : State) : (onEv f s).sluice = s.sluice := rfl
@[simp] theorem onEv_therm (f : EvDyn → EvDyn) (s : State) : (onEv f s).therm = s.therm := rfl
@[simp] theorem onEv_safety (f : EvDyn → EvDyn) (s : State) : (onEv f s).safety = s.safety := rfl
@[simp] theorem onEv_cxl (f : EvDyn → EvDyn) (s : State) : (onEv f s).cxl = s.cxl := rfl
@[simp] theorem onEv_queues (f : EvDyn → EvDyn) (s : State) : (onEv f s).queues = s.queues := rfl
@[simp] theorem onEv_ev (f : EvDyn → EvDyn) (s : State) : (onEv f s).ev = f s.ev := rfl
@[simp] theorem onEv_boot (f : EvDyn → EvDyn) (s : State) : (onEv f s).boot = s.boot := rfl
@[simp] theorem onEv_power (f : EvDyn → EvDyn) (s : State) : (onEv f s).power = s.power := rfl
@[simp] theorem onEv_otp (f : EvDyn → EvDyn) (s : State) : (onEv f s).otp = s.otp := rfl
@[simp] theorem onEv_cal (f : EvDyn → EvDyn) (s : State) : (onEv f s).cal = s.cal := rfl
@[simp] theorem onEv_flash (f : EvDyn → EvDyn) (s : State) : (onEv f s).flash = s.flash := rfl
@[simp] theorem onEv_upd (f : EvDyn → EvDyn) (s : State) : (onEv f s).upd = s.upd := rfl
@[simp] theorem onEv_cw (f : EvDyn → EvDyn) (s : State) : (onEv f s).cw = s.cw := rfl
@[simp] theorem onEv_jtag (f : EvDyn → EvDyn) (s : State) : (onEv f s).jtag = s.jtag := rfl
@[simp] theorem onEv_bar2 (f : EvDyn → EvDyn) (s : State) : (onEv f s).bar2 = s.bar2 := rfl
@[simp] theorem onEv_planes (f : EvDyn → EvDyn) (s : State) : (onEv f s).planes = s.planes := rfl
@[simp] theorem onEv_canvas (f : EvDyn → EvDyn) (s : State) : (onEv f s).canvas = s.canvas := rfl
@[simp] theorem onEv_mirrorGen (f : EvDyn → EvDyn) (s : State) : (onEv f s).mirrorGen = s.mirrorGen := rfl
@[simp] theorem onEv_out (f : EvDyn → EvDyn) (s : State) : (onEv f s).out = s.out := rfl
@[simp] theorem onEv_free (f : EvDyn → EvDyn) (s : State) : (onEv f s).free = s.free := rfl
@[simp] theorem onEv_pending (f : EvDyn → EvDyn) (s : State) : (onEv f s).pending = s.pending := rfl

/-! ## onBoot -/

@[simp] theorem onBoot_clk (f : BootDyn → BootDyn) (s : State) : (onBoot f s).clk = s.clk := rfl
@[simp] theorem onBoot_cfg (f : BootDyn → BootDyn) (s : State) : (onBoot f s).cfg = s.cfg := rfl
@[simp] theorem onBoot_pendLv (f : BootDyn → BootDyn) (s : State) : (onBoot f s).pendLv = s.pendLv := rfl
@[simp] theorem onBoot_openSet (f : BootDyn → BootDyn) (s : State) : (onBoot f s).openSet = s.openSet := rfl
@[simp] theorem onBoot_com (f : BootDyn → BootDyn) (s : State) : (onBoot f s).com = s.com := rfl
@[simp] theorem onBoot_comp (f : BootDyn → BootDyn) (s : State) : (onBoot f s).comp = s.comp := rfl
@[simp] theorem onBoot_heads (f : BootDyn → BootDyn) (s : State) : (onBoot f s).heads = s.heads := rfl
@[simp] theorem onBoot_links (f : BootDyn → BootDyn) (s : State) : (onBoot f s).links = s.links := rfl
@[simp] theorem onBoot_rasters (f : BootDyn → BootDyn) (s : State) : (onBoot f s).rasters = s.rasters := rfl
@[simp] theorem onBoot_chans (f : BootDyn → BootDyn) (s : State) : (onBoot f s).chans = s.chans := rfl
@[simp] theorem onBoot_loops (f : BootDyn → BootDyn) (s : State) : (onBoot f s).loops = s.loops := rfl
@[simp] theorem onBoot_oss (f : BootDyn → BootDyn) (s : State) : (onBoot f s).oss = s.oss := rfl
@[simp] theorem onBoot_lines (f : BootDyn → BootDyn) (s : State) : (onBoot f s).lines = s.lines := rfl
@[simp] theorem onBoot_sluice (f : BootDyn → BootDyn) (s : State) : (onBoot f s).sluice = s.sluice := rfl
@[simp] theorem onBoot_therm (f : BootDyn → BootDyn) (s : State) : (onBoot f s).therm = s.therm := rfl
@[simp] theorem onBoot_safety (f : BootDyn → BootDyn) (s : State) : (onBoot f s).safety = s.safety := rfl
@[simp] theorem onBoot_cxl (f : BootDyn → BootDyn) (s : State) : (onBoot f s).cxl = s.cxl := rfl
@[simp] theorem onBoot_queues (f : BootDyn → BootDyn) (s : State) : (onBoot f s).queues = s.queues := rfl
@[simp] theorem onBoot_ev (f : BootDyn → BootDyn) (s : State) : (onBoot f s).ev = s.ev := rfl
@[simp] theorem onBoot_boot (f : BootDyn → BootDyn) (s : State) : (onBoot f s).boot = f s.boot := rfl
@[simp] theorem onBoot_power (f : BootDyn → BootDyn) (s : State) : (onBoot f s).power = s.power := rfl
@[simp] theorem onBoot_otp (f : BootDyn → BootDyn) (s : State) : (onBoot f s).otp = s.otp := rfl
@[simp] theorem onBoot_cal (f : BootDyn → BootDyn) (s : State) : (onBoot f s).cal = s.cal := rfl
@[simp] theorem onBoot_flash (f : BootDyn → BootDyn) (s : State) : (onBoot f s).flash = s.flash := rfl
@[simp] theorem onBoot_upd (f : BootDyn → BootDyn) (s : State) : (onBoot f s).upd = s.upd := rfl
@[simp] theorem onBoot_cw (f : BootDyn → BootDyn) (s : State) : (onBoot f s).cw = s.cw := rfl
@[simp] theorem onBoot_jtag (f : BootDyn → BootDyn) (s : State) : (onBoot f s).jtag = s.jtag := rfl
@[simp] theorem onBoot_bar2 (f : BootDyn → BootDyn) (s : State) : (onBoot f s).bar2 = s.bar2 := rfl
@[simp] theorem onBoot_planes (f : BootDyn → BootDyn) (s : State) : (onBoot f s).planes = s.planes := rfl
@[simp] theorem onBoot_canvas (f : BootDyn → BootDyn) (s : State) : (onBoot f s).canvas = s.canvas := rfl
@[simp] theorem onBoot_mirrorGen (f : BootDyn → BootDyn) (s : State) : (onBoot f s).mirrorGen = s.mirrorGen := rfl
@[simp] theorem onBoot_out (f : BootDyn → BootDyn) (s : State) : (onBoot f s).out = s.out := rfl
@[simp] theorem onBoot_free (f : BootDyn → BootDyn) (s : State) : (onBoot f s).free = s.free := rfl
@[simp] theorem onBoot_pending (f : BootDyn → BootDyn) (s : State) : (onBoot f s).pending = s.pending := rfl

/-! ## onPower -/

@[simp] theorem onPower_clk (f : PowerDyn → PowerDyn) (s : State) : (onPower f s).clk = s.clk := rfl
@[simp] theorem onPower_cfg (f : PowerDyn → PowerDyn) (s : State) : (onPower f s).cfg = s.cfg := rfl
@[simp] theorem onPower_pendLv (f : PowerDyn → PowerDyn) (s : State) : (onPower f s).pendLv = s.pendLv := rfl
@[simp] theorem onPower_openSet (f : PowerDyn → PowerDyn) (s : State) : (onPower f s).openSet = s.openSet := rfl
@[simp] theorem onPower_com (f : PowerDyn → PowerDyn) (s : State) : (onPower f s).com = s.com := rfl
@[simp] theorem onPower_comp (f : PowerDyn → PowerDyn) (s : State) : (onPower f s).comp = s.comp := rfl
@[simp] theorem onPower_heads (f : PowerDyn → PowerDyn) (s : State) : (onPower f s).heads = s.heads := rfl
@[simp] theorem onPower_links (f : PowerDyn → PowerDyn) (s : State) : (onPower f s).links = s.links := rfl
@[simp] theorem onPower_rasters (f : PowerDyn → PowerDyn) (s : State) : (onPower f s).rasters = s.rasters := rfl
@[simp] theorem onPower_chans (f : PowerDyn → PowerDyn) (s : State) : (onPower f s).chans = s.chans := rfl
@[simp] theorem onPower_loops (f : PowerDyn → PowerDyn) (s : State) : (onPower f s).loops = s.loops := rfl
@[simp] theorem onPower_oss (f : PowerDyn → PowerDyn) (s : State) : (onPower f s).oss = s.oss := rfl
@[simp] theorem onPower_lines (f : PowerDyn → PowerDyn) (s : State) : (onPower f s).lines = s.lines := rfl
@[simp] theorem onPower_sluice (f : PowerDyn → PowerDyn) (s : State) : (onPower f s).sluice = s.sluice := rfl
@[simp] theorem onPower_therm (f : PowerDyn → PowerDyn) (s : State) : (onPower f s).therm = s.therm := rfl
@[simp] theorem onPower_safety (f : PowerDyn → PowerDyn) (s : State) : (onPower f s).safety = s.safety := rfl
@[simp] theorem onPower_cxl (f : PowerDyn → PowerDyn) (s : State) : (onPower f s).cxl = s.cxl := rfl
@[simp] theorem onPower_queues (f : PowerDyn → PowerDyn) (s : State) : (onPower f s).queues = s.queues := rfl
@[simp] theorem onPower_ev (f : PowerDyn → PowerDyn) (s : State) : (onPower f s).ev = s.ev := rfl
@[simp] theorem onPower_boot (f : PowerDyn → PowerDyn) (s : State) : (onPower f s).boot = s.boot := rfl
@[simp] theorem onPower_power (f : PowerDyn → PowerDyn) (s : State) : (onPower f s).power = f s.power := rfl
@[simp] theorem onPower_otp (f : PowerDyn → PowerDyn) (s : State) : (onPower f s).otp = s.otp := rfl
@[simp] theorem onPower_cal (f : PowerDyn → PowerDyn) (s : State) : (onPower f s).cal = s.cal := rfl
@[simp] theorem onPower_flash (f : PowerDyn → PowerDyn) (s : State) : (onPower f s).flash = s.flash := rfl
@[simp] theorem onPower_upd (f : PowerDyn → PowerDyn) (s : State) : (onPower f s).upd = s.upd := rfl
@[simp] theorem onPower_cw (f : PowerDyn → PowerDyn) (s : State) : (onPower f s).cw = s.cw := rfl
@[simp] theorem onPower_jtag (f : PowerDyn → PowerDyn) (s : State) : (onPower f s).jtag = s.jtag := rfl
@[simp] theorem onPower_bar2 (f : PowerDyn → PowerDyn) (s : State) : (onPower f s).bar2 = s.bar2 := rfl
@[simp] theorem onPower_planes (f : PowerDyn → PowerDyn) (s : State) : (onPower f s).planes = s.planes := rfl
@[simp] theorem onPower_canvas (f : PowerDyn → PowerDyn) (s : State) : (onPower f s).canvas = s.canvas := rfl
@[simp] theorem onPower_mirrorGen (f : PowerDyn → PowerDyn) (s : State) : (onPower f s).mirrorGen = s.mirrorGen := rfl
@[simp] theorem onPower_out (f : PowerDyn → PowerDyn) (s : State) : (onPower f s).out = s.out := rfl
@[simp] theorem onPower_free (f : PowerDyn → PowerDyn) (s : State) : (onPower f s).free = s.free := rfl
@[simp] theorem onPower_pending (f : PowerDyn → PowerDyn) (s : State) : (onPower f s).pending = s.pending := rfl

/-! ## onCal -/

@[simp] theorem onCal_clk (f : CalDyn → CalDyn) (s : State) : (onCal f s).clk = s.clk := rfl
@[simp] theorem onCal_cfg (f : CalDyn → CalDyn) (s : State) : (onCal f s).cfg = s.cfg := rfl
@[simp] theorem onCal_pendLv (f : CalDyn → CalDyn) (s : State) : (onCal f s).pendLv = s.pendLv := rfl
@[simp] theorem onCal_openSet (f : CalDyn → CalDyn) (s : State) : (onCal f s).openSet = s.openSet := rfl
@[simp] theorem onCal_com (f : CalDyn → CalDyn) (s : State) : (onCal f s).com = s.com := rfl
@[simp] theorem onCal_comp (f : CalDyn → CalDyn) (s : State) : (onCal f s).comp = s.comp := rfl
@[simp] theorem onCal_heads (f : CalDyn → CalDyn) (s : State) : (onCal f s).heads = s.heads := rfl
@[simp] theorem onCal_links (f : CalDyn → CalDyn) (s : State) : (onCal f s).links = s.links := rfl
@[simp] theorem onCal_rasters (f : CalDyn → CalDyn) (s : State) : (onCal f s).rasters = s.rasters := rfl
@[simp] theorem onCal_chans (f : CalDyn → CalDyn) (s : State) : (onCal f s).chans = s.chans := rfl
@[simp] theorem onCal_loops (f : CalDyn → CalDyn) (s : State) : (onCal f s).loops = s.loops := rfl
@[simp] theorem onCal_oss (f : CalDyn → CalDyn) (s : State) : (onCal f s).oss = s.oss := rfl
@[simp] theorem onCal_lines (f : CalDyn → CalDyn) (s : State) : (onCal f s).lines = s.lines := rfl
@[simp] theorem onCal_sluice (f : CalDyn → CalDyn) (s : State) : (onCal f s).sluice = s.sluice := rfl
@[simp] theorem onCal_therm (f : CalDyn → CalDyn) (s : State) : (onCal f s).therm = s.therm := rfl
@[simp] theorem onCal_safety (f : CalDyn → CalDyn) (s : State) : (onCal f s).safety = s.safety := rfl
@[simp] theorem onCal_cxl (f : CalDyn → CalDyn) (s : State) : (onCal f s).cxl = s.cxl := rfl
@[simp] theorem onCal_queues (f : CalDyn → CalDyn) (s : State) : (onCal f s).queues = s.queues := rfl
@[simp] theorem onCal_ev (f : CalDyn → CalDyn) (s : State) : (onCal f s).ev = s.ev := rfl
@[simp] theorem onCal_boot (f : CalDyn → CalDyn) (s : State) : (onCal f s).boot = s.boot := rfl
@[simp] theorem onCal_power (f : CalDyn → CalDyn) (s : State) : (onCal f s).power = s.power := rfl
@[simp] theorem onCal_otp (f : CalDyn → CalDyn) (s : State) : (onCal f s).otp = s.otp := rfl
@[simp] theorem onCal_cal (f : CalDyn → CalDyn) (s : State) : (onCal f s).cal = f s.cal := rfl
@[simp] theorem onCal_flash (f : CalDyn → CalDyn) (s : State) : (onCal f s).flash = s.flash := rfl
@[simp] theorem onCal_upd (f : CalDyn → CalDyn) (s : State) : (onCal f s).upd = s.upd := rfl
@[simp] theorem onCal_cw (f : CalDyn → CalDyn) (s : State) : (onCal f s).cw = s.cw := rfl
@[simp] theorem onCal_jtag (f : CalDyn → CalDyn) (s : State) : (onCal f s).jtag = s.jtag := rfl
@[simp] theorem onCal_bar2 (f : CalDyn → CalDyn) (s : State) : (onCal f s).bar2 = s.bar2 := rfl
@[simp] theorem onCal_planes (f : CalDyn → CalDyn) (s : State) : (onCal f s).planes = s.planes := rfl
@[simp] theorem onCal_canvas (f : CalDyn → CalDyn) (s : State) : (onCal f s).canvas = s.canvas := rfl
@[simp] theorem onCal_mirrorGen (f : CalDyn → CalDyn) (s : State) : (onCal f s).mirrorGen = s.mirrorGen := rfl
@[simp] theorem onCal_out (f : CalDyn → CalDyn) (s : State) : (onCal f s).out = s.out := rfl
@[simp] theorem onCal_free (f : CalDyn → CalDyn) (s : State) : (onCal f s).free = s.free := rfl
@[simp] theorem onCal_pending (f : CalDyn → CalDyn) (s : State) : (onCal f s).pending = s.pending := rfl

/-! ## onFlash -/

@[simp] theorem onFlash_clk (f : Flash → Flash) (s : State) : (onFlash f s).clk = s.clk := rfl
@[simp] theorem onFlash_cfg (f : Flash → Flash) (s : State) : (onFlash f s).cfg = s.cfg := rfl
@[simp] theorem onFlash_pendLv (f : Flash → Flash) (s : State) : (onFlash f s).pendLv = s.pendLv := rfl
@[simp] theorem onFlash_openSet (f : Flash → Flash) (s : State) : (onFlash f s).openSet = s.openSet := rfl
@[simp] theorem onFlash_com (f : Flash → Flash) (s : State) : (onFlash f s).com = s.com := rfl
@[simp] theorem onFlash_comp (f : Flash → Flash) (s : State) : (onFlash f s).comp = s.comp := rfl
@[simp] theorem onFlash_heads (f : Flash → Flash) (s : State) : (onFlash f s).heads = s.heads := rfl
@[simp] theorem onFlash_links (f : Flash → Flash) (s : State) : (onFlash f s).links = s.links := rfl
@[simp] theorem onFlash_rasters (f : Flash → Flash) (s : State) : (onFlash f s).rasters = s.rasters := rfl
@[simp] theorem onFlash_chans (f : Flash → Flash) (s : State) : (onFlash f s).chans = s.chans := rfl
@[simp] theorem onFlash_loops (f : Flash → Flash) (s : State) : (onFlash f s).loops = s.loops := rfl
@[simp] theorem onFlash_oss (f : Flash → Flash) (s : State) : (onFlash f s).oss = s.oss := rfl
@[simp] theorem onFlash_lines (f : Flash → Flash) (s : State) : (onFlash f s).lines = s.lines := rfl
@[simp] theorem onFlash_sluice (f : Flash → Flash) (s : State) : (onFlash f s).sluice = s.sluice := rfl
@[simp] theorem onFlash_therm (f : Flash → Flash) (s : State) : (onFlash f s).therm = s.therm := rfl
@[simp] theorem onFlash_safety (f : Flash → Flash) (s : State) : (onFlash f s).safety = s.safety := rfl
@[simp] theorem onFlash_cxl (f : Flash → Flash) (s : State) : (onFlash f s).cxl = s.cxl := rfl
@[simp] theorem onFlash_queues (f : Flash → Flash) (s : State) : (onFlash f s).queues = s.queues := rfl
@[simp] theorem onFlash_ev (f : Flash → Flash) (s : State) : (onFlash f s).ev = s.ev := rfl
@[simp] theorem onFlash_boot (f : Flash → Flash) (s : State) : (onFlash f s).boot = s.boot := rfl
@[simp] theorem onFlash_power (f : Flash → Flash) (s : State) : (onFlash f s).power = s.power := rfl
@[simp] theorem onFlash_otp (f : Flash → Flash) (s : State) : (onFlash f s).otp = s.otp := rfl
@[simp] theorem onFlash_cal (f : Flash → Flash) (s : State) : (onFlash f s).cal = s.cal := rfl
@[simp] theorem onFlash_flash (f : Flash → Flash) (s : State) : (onFlash f s).flash = f s.flash := rfl
@[simp] theorem onFlash_upd (f : Flash → Flash) (s : State) : (onFlash f s).upd = s.upd := rfl
@[simp] theorem onFlash_cw (f : Flash → Flash) (s : State) : (onFlash f s).cw = s.cw := rfl
@[simp] theorem onFlash_jtag (f : Flash → Flash) (s : State) : (onFlash f s).jtag = s.jtag := rfl
@[simp] theorem onFlash_bar2 (f : Flash → Flash) (s : State) : (onFlash f s).bar2 = s.bar2 := rfl
@[simp] theorem onFlash_planes (f : Flash → Flash) (s : State) : (onFlash f s).planes = s.planes := rfl
@[simp] theorem onFlash_canvas (f : Flash → Flash) (s : State) : (onFlash f s).canvas = s.canvas := rfl
@[simp] theorem onFlash_mirrorGen (f : Flash → Flash) (s : State) : (onFlash f s).mirrorGen = s.mirrorGen := rfl
@[simp] theorem onFlash_out (f : Flash → Flash) (s : State) : (onFlash f s).out = s.out := rfl
@[simp] theorem onFlash_free (f : Flash → Flash) (s : State) : (onFlash f s).free = s.free := rfl
@[simp] theorem onFlash_pending (f : Flash → Flash) (s : State) : (onFlash f s).pending = s.pending := rfl

/-! ## onUpd -/

@[simp] theorem onUpd_clk (f : UpdDyn → UpdDyn) (s : State) : (onUpd f s).clk = s.clk := rfl
@[simp] theorem onUpd_cfg (f : UpdDyn → UpdDyn) (s : State) : (onUpd f s).cfg = s.cfg := rfl
@[simp] theorem onUpd_pendLv (f : UpdDyn → UpdDyn) (s : State) : (onUpd f s).pendLv = s.pendLv := rfl
@[simp] theorem onUpd_openSet (f : UpdDyn → UpdDyn) (s : State) : (onUpd f s).openSet = s.openSet := rfl
@[simp] theorem onUpd_com (f : UpdDyn → UpdDyn) (s : State) : (onUpd f s).com = s.com := rfl
@[simp] theorem onUpd_comp (f : UpdDyn → UpdDyn) (s : State) : (onUpd f s).comp = s.comp := rfl
@[simp] theorem onUpd_heads (f : UpdDyn → UpdDyn) (s : State) : (onUpd f s).heads = s.heads := rfl
@[simp] theorem onUpd_links (f : UpdDyn → UpdDyn) (s : State) : (onUpd f s).links = s.links := rfl
@[simp] theorem onUpd_rasters (f : UpdDyn → UpdDyn) (s : State) : (onUpd f s).rasters = s.rasters := rfl
@[simp] theorem onUpd_chans (f : UpdDyn → UpdDyn) (s : State) : (onUpd f s).chans = s.chans := rfl
@[simp] theorem onUpd_loops (f : UpdDyn → UpdDyn) (s : State) : (onUpd f s).loops = s.loops := rfl
@[simp] theorem onUpd_oss (f : UpdDyn → UpdDyn) (s : State) : (onUpd f s).oss = s.oss := rfl
@[simp] theorem onUpd_lines (f : UpdDyn → UpdDyn) (s : State) : (onUpd f s).lines = s.lines := rfl
@[simp] theorem onUpd_sluice (f : UpdDyn → UpdDyn) (s : State) : (onUpd f s).sluice = s.sluice := rfl
@[simp] theorem onUpd_therm (f : UpdDyn → UpdDyn) (s : State) : (onUpd f s).therm = s.therm := rfl
@[simp] theorem onUpd_safety (f : UpdDyn → UpdDyn) (s : State) : (onUpd f s).safety = s.safety := rfl
@[simp] theorem onUpd_cxl (f : UpdDyn → UpdDyn) (s : State) : (onUpd f s).cxl = s.cxl := rfl
@[simp] theorem onUpd_queues (f : UpdDyn → UpdDyn) (s : State) : (onUpd f s).queues = s.queues := rfl
@[simp] theorem onUpd_ev (f : UpdDyn → UpdDyn) (s : State) : (onUpd f s).ev = s.ev := rfl
@[simp] theorem onUpd_boot (f : UpdDyn → UpdDyn) (s : State) : (onUpd f s).boot = s.boot := rfl
@[simp] theorem onUpd_power (f : UpdDyn → UpdDyn) (s : State) : (onUpd f s).power = s.power := rfl
@[simp] theorem onUpd_otp (f : UpdDyn → UpdDyn) (s : State) : (onUpd f s).otp = s.otp := rfl
@[simp] theorem onUpd_cal (f : UpdDyn → UpdDyn) (s : State) : (onUpd f s).cal = s.cal := rfl
@[simp] theorem onUpd_flash (f : UpdDyn → UpdDyn) (s : State) : (onUpd f s).flash = s.flash := rfl
@[simp] theorem onUpd_upd (f : UpdDyn → UpdDyn) (s : State) : (onUpd f s).upd = f s.upd := rfl
@[simp] theorem onUpd_cw (f : UpdDyn → UpdDyn) (s : State) : (onUpd f s).cw = s.cw := rfl
@[simp] theorem onUpd_jtag (f : UpdDyn → UpdDyn) (s : State) : (onUpd f s).jtag = s.jtag := rfl
@[simp] theorem onUpd_bar2 (f : UpdDyn → UpdDyn) (s : State) : (onUpd f s).bar2 = s.bar2 := rfl
@[simp] theorem onUpd_planes (f : UpdDyn → UpdDyn) (s : State) : (onUpd f s).planes = s.planes := rfl
@[simp] theorem onUpd_canvas (f : UpdDyn → UpdDyn) (s : State) : (onUpd f s).canvas = s.canvas := rfl
@[simp] theorem onUpd_mirrorGen (f : UpdDyn → UpdDyn) (s : State) : (onUpd f s).mirrorGen = s.mirrorGen := rfl
@[simp] theorem onUpd_out (f : UpdDyn → UpdDyn) (s : State) : (onUpd f s).out = s.out := rfl
@[simp] theorem onUpd_free (f : UpdDyn → UpdDyn) (s : State) : (onUpd f s).free = s.free := rfl
@[simp] theorem onUpd_pending (f : UpdDyn → UpdDyn) (s : State) : (onUpd f s).pending = s.pending := rfl

/-! ## onCw -/

@[simp] theorem onCw_clk (f : CwDyn → CwDyn) (s : State) : (onCw f s).clk = s.clk := rfl
@[simp] theorem onCw_cfg (f : CwDyn → CwDyn) (s : State) : (onCw f s).cfg = s.cfg := rfl
@[simp] theorem onCw_pendLv (f : CwDyn → CwDyn) (s : State) : (onCw f s).pendLv = s.pendLv := rfl
@[simp] theorem onCw_openSet (f : CwDyn → CwDyn) (s : State) : (onCw f s).openSet = s.openSet := rfl
@[simp] theorem onCw_com (f : CwDyn → CwDyn) (s : State) : (onCw f s).com = s.com := rfl
@[simp] theorem onCw_comp (f : CwDyn → CwDyn) (s : State) : (onCw f s).comp = s.comp := rfl
@[simp] theorem onCw_heads (f : CwDyn → CwDyn) (s : State) : (onCw f s).heads = s.heads := rfl
@[simp] theorem onCw_links (f : CwDyn → CwDyn) (s : State) : (onCw f s).links = s.links := rfl
@[simp] theorem onCw_rasters (f : CwDyn → CwDyn) (s : State) : (onCw f s).rasters = s.rasters := rfl
@[simp] theorem onCw_chans (f : CwDyn → CwDyn) (s : State) : (onCw f s).chans = s.chans := rfl
@[simp] theorem onCw_loops (f : CwDyn → CwDyn) (s : State) : (onCw f s).loops = s.loops := rfl
@[simp] theorem onCw_oss (f : CwDyn → CwDyn) (s : State) : (onCw f s).oss = s.oss := rfl
@[simp] theorem onCw_lines (f : CwDyn → CwDyn) (s : State) : (onCw f s).lines = s.lines := rfl
@[simp] theorem onCw_sluice (f : CwDyn → CwDyn) (s : State) : (onCw f s).sluice = s.sluice := rfl
@[simp] theorem onCw_therm (f : CwDyn → CwDyn) (s : State) : (onCw f s).therm = s.therm := rfl
@[simp] theorem onCw_safety (f : CwDyn → CwDyn) (s : State) : (onCw f s).safety = s.safety := rfl
@[simp] theorem onCw_cxl (f : CwDyn → CwDyn) (s : State) : (onCw f s).cxl = s.cxl := rfl
@[simp] theorem onCw_queues (f : CwDyn → CwDyn) (s : State) : (onCw f s).queues = s.queues := rfl
@[simp] theorem onCw_ev (f : CwDyn → CwDyn) (s : State) : (onCw f s).ev = s.ev := rfl
@[simp] theorem onCw_boot (f : CwDyn → CwDyn) (s : State) : (onCw f s).boot = s.boot := rfl
@[simp] theorem onCw_power (f : CwDyn → CwDyn) (s : State) : (onCw f s).power = s.power := rfl
@[simp] theorem onCw_otp (f : CwDyn → CwDyn) (s : State) : (onCw f s).otp = s.otp := rfl
@[simp] theorem onCw_cal (f : CwDyn → CwDyn) (s : State) : (onCw f s).cal = s.cal := rfl
@[simp] theorem onCw_flash (f : CwDyn → CwDyn) (s : State) : (onCw f s).flash = s.flash := rfl
@[simp] theorem onCw_upd (f : CwDyn → CwDyn) (s : State) : (onCw f s).upd = s.upd := rfl
@[simp] theorem onCw_cw (f : CwDyn → CwDyn) (s : State) : (onCw f s).cw = f s.cw := rfl
@[simp] theorem onCw_jtag (f : CwDyn → CwDyn) (s : State) : (onCw f s).jtag = s.jtag := rfl
@[simp] theorem onCw_bar2 (f : CwDyn → CwDyn) (s : State) : (onCw f s).bar2 = s.bar2 := rfl
@[simp] theorem onCw_planes (f : CwDyn → CwDyn) (s : State) : (onCw f s).planes = s.planes := rfl
@[simp] theorem onCw_canvas (f : CwDyn → CwDyn) (s : State) : (onCw f s).canvas = s.canvas := rfl
@[simp] theorem onCw_mirrorGen (f : CwDyn → CwDyn) (s : State) : (onCw f s).mirrorGen = s.mirrorGen := rfl
@[simp] theorem onCw_out (f : CwDyn → CwDyn) (s : State) : (onCw f s).out = s.out := rfl
@[simp] theorem onCw_free (f : CwDyn → CwDyn) (s : State) : (onCw f s).free = s.free := rfl
@[simp] theorem onCw_pending (f : CwDyn → CwDyn) (s : State) : (onCw f s).pending = s.pending := rfl

/-! ## onHeads -/

@[simp] theorem onHeads_clk (f : Vector HeadDyn 4 → Vector HeadDyn 4) (s : State) : (onHeads f s).clk = s.clk := rfl
@[simp] theorem onHeads_cfg (f : Vector HeadDyn 4 → Vector HeadDyn 4) (s : State) : (onHeads f s).cfg = s.cfg := rfl
@[simp] theorem onHeads_pendLv (f : Vector HeadDyn 4 → Vector HeadDyn 4) (s : State) : (onHeads f s).pendLv = s.pendLv := rfl
@[simp] theorem onHeads_openSet (f : Vector HeadDyn 4 → Vector HeadDyn 4) (s : State) : (onHeads f s).openSet = s.openSet := rfl
@[simp] theorem onHeads_com (f : Vector HeadDyn 4 → Vector HeadDyn 4) (s : State) : (onHeads f s).com = s.com := rfl
@[simp] theorem onHeads_comp (f : Vector HeadDyn 4 → Vector HeadDyn 4) (s : State) : (onHeads f s).comp = s.comp := rfl
@[simp] theorem onHeads_heads (f : Vector HeadDyn 4 → Vector HeadDyn 4) (s : State) : (onHeads f s).heads = f s.heads := rfl
@[simp] theorem onHeads_links (f : Vector HeadDyn 4 → Vector HeadDyn 4) (s : State) : (onHeads f s).links = s.links := rfl
@[simp] theorem onHeads_rasters (f : Vector HeadDyn 4 → Vector HeadDyn 4) (s : State) : (onHeads f s).rasters = s.rasters := rfl
@[simp] theorem onHeads_chans (f : Vector HeadDyn 4 → Vector HeadDyn 4) (s : State) : (onHeads f s).chans = s.chans := rfl
@[simp] theorem onHeads_loops (f : Vector HeadDyn 4 → Vector HeadDyn 4) (s : State) : (onHeads f s).loops = s.loops := rfl
@[simp] theorem onHeads_oss (f : Vector HeadDyn 4 → Vector HeadDyn 4) (s : State) : (onHeads f s).oss = s.oss := rfl
@[simp] theorem onHeads_lines (f : Vector HeadDyn 4 → Vector HeadDyn 4) (s : State) : (onHeads f s).lines = s.lines := rfl
@[simp] theorem onHeads_sluice (f : Vector HeadDyn 4 → Vector HeadDyn 4) (s : State) : (onHeads f s).sluice = s.sluice := rfl
@[simp] theorem onHeads_therm (f : Vector HeadDyn 4 → Vector HeadDyn 4) (s : State) : (onHeads f s).therm = s.therm := rfl
@[simp] theorem onHeads_safety (f : Vector HeadDyn 4 → Vector HeadDyn 4) (s : State) : (onHeads f s).safety = s.safety := rfl
@[simp] theorem onHeads_cxl (f : Vector HeadDyn 4 → Vector HeadDyn 4) (s : State) : (onHeads f s).cxl = s.cxl := rfl
@[simp] theorem onHeads_queues (f : Vector HeadDyn 4 → Vector HeadDyn 4) (s : State) : (onHeads f s).queues = s.queues := rfl
@[simp] theorem onHeads_ev (f : Vector HeadDyn 4 → Vector HeadDyn 4) (s : State) : (onHeads f s).ev = s.ev := rfl
@[simp] theorem onHeads_boot (f : Vector HeadDyn 4 → Vector HeadDyn 4) (s : State) : (onHeads f s).boot = s.boot := rfl
@[simp] theorem onHeads_power (f : Vector HeadDyn 4 → Vector HeadDyn 4) (s : State) : (onHeads f s).power = s.power := rfl
@[simp] theorem onHeads_otp (f : Vector HeadDyn 4 → Vector HeadDyn 4) (s : State) : (onHeads f s).otp = s.otp := rfl
@[simp] theorem onHeads_cal (f : Vector HeadDyn 4 → Vector HeadDyn 4) (s : State) : (onHeads f s).cal = s.cal := rfl
@[simp] theorem onHeads_flash (f : Vector HeadDyn 4 → Vector HeadDyn 4) (s : State) : (onHeads f s).flash = s.flash := rfl
@[simp] theorem onHeads_upd (f : Vector HeadDyn 4 → Vector HeadDyn 4) (s : State) : (onHeads f s).upd = s.upd := rfl
@[simp] theorem onHeads_cw (f : Vector HeadDyn 4 → Vector HeadDyn 4) (s : State) : (onHeads f s).cw = s.cw := rfl
@[simp] theorem onHeads_jtag (f : Vector HeadDyn 4 → Vector HeadDyn 4) (s : State) : (onHeads f s).jtag = s.jtag := rfl
@[simp] theorem onHeads_bar2 (f : Vector HeadDyn 4 → Vector HeadDyn 4) (s : State) : (onHeads f s).bar2 = s.bar2 := rfl
@[simp] theorem onHeads_planes (f : Vector HeadDyn 4 → Vector HeadDyn 4) (s : State) : (onHeads f s).planes = s.planes := rfl
@[simp] theorem onHeads_canvas (f : Vector HeadDyn 4 → Vector HeadDyn 4) (s : State) : (onHeads f s).canvas = s.canvas := rfl
@[simp] theorem onHeads_mirrorGen (f : Vector HeadDyn 4 → Vector HeadDyn 4) (s : State) : (onHeads f s).mirrorGen = s.mirrorGen := rfl
@[simp] theorem onHeads_out (f : Vector HeadDyn 4 → Vector HeadDyn 4) (s : State) : (onHeads f s).out = s.out := rfl
@[simp] theorem onHeads_free (f : Vector HeadDyn 4 → Vector HeadDyn 4) (s : State) : (onHeads f s).free = s.free := rfl
@[simp] theorem onHeads_pending (f : Vector HeadDyn 4 → Vector HeadDyn 4) (s : State) : (onHeads f s).pending = s.pending := rfl

/-! ## onLinks -/

@[simp] theorem onLinks_clk (f : Vector LinkDyn 4 → Vector LinkDyn 4) (s : State) : (onLinks f s).clk = s.clk := rfl
@[simp] theorem onLinks_cfg (f : Vector LinkDyn 4 → Vector LinkDyn 4) (s : State) : (onLinks f s).cfg = s.cfg := rfl
@[simp] theorem onLinks_pendLv (f : Vector LinkDyn 4 → Vector LinkDyn 4) (s : State) : (onLinks f s).pendLv = s.pendLv := rfl
@[simp] theorem onLinks_openSet (f : Vector LinkDyn 4 → Vector LinkDyn 4) (s : State) : (onLinks f s).openSet = s.openSet := rfl
@[simp] theorem onLinks_com (f : Vector LinkDyn 4 → Vector LinkDyn 4) (s : State) : (onLinks f s).com = s.com := rfl
@[simp] theorem onLinks_comp (f : Vector LinkDyn 4 → Vector LinkDyn 4) (s : State) : (onLinks f s).comp = s.comp := rfl
@[simp] theorem onLinks_heads (f : Vector LinkDyn 4 → Vector LinkDyn 4) (s : State) : (onLinks f s).heads = s.heads := rfl
@[simp] theorem onLinks_links (f : Vector LinkDyn 4 → Vector LinkDyn 4) (s : State) : (onLinks f s).links = f s.links := rfl
@[simp] theorem onLinks_rasters (f : Vector LinkDyn 4 → Vector LinkDyn 4) (s : State) : (onLinks f s).rasters = s.rasters := rfl
@[simp] theorem onLinks_chans (f : Vector LinkDyn 4 → Vector LinkDyn 4) (s : State) : (onLinks f s).chans = s.chans := rfl
@[simp] theorem onLinks_loops (f : Vector LinkDyn 4 → Vector LinkDyn 4) (s : State) : (onLinks f s).loops = s.loops := rfl
@[simp] theorem onLinks_oss (f : Vector LinkDyn 4 → Vector LinkDyn 4) (s : State) : (onLinks f s).oss = s.oss := rfl
@[simp] theorem onLinks_lines (f : Vector LinkDyn 4 → Vector LinkDyn 4) (s : State) : (onLinks f s).lines = s.lines := rfl
@[simp] theorem onLinks_sluice (f : Vector LinkDyn 4 → Vector LinkDyn 4) (s : State) : (onLinks f s).sluice = s.sluice := rfl
@[simp] theorem onLinks_therm (f : Vector LinkDyn 4 → Vector LinkDyn 4) (s : State) : (onLinks f s).therm = s.therm := rfl
@[simp] theorem onLinks_safety (f : Vector LinkDyn 4 → Vector LinkDyn 4) (s : State) : (onLinks f s).safety = s.safety := rfl
@[simp] theorem onLinks_cxl (f : Vector LinkDyn 4 → Vector LinkDyn 4) (s : State) : (onLinks f s).cxl = s.cxl := rfl
@[simp] theorem onLinks_queues (f : Vector LinkDyn 4 → Vector LinkDyn 4) (s : State) : (onLinks f s).queues = s.queues := rfl
@[simp] theorem onLinks_ev (f : Vector LinkDyn 4 → Vector LinkDyn 4) (s : State) : (onLinks f s).ev = s.ev := rfl
@[simp] theorem onLinks_boot (f : Vector LinkDyn 4 → Vector LinkDyn 4) (s : State) : (onLinks f s).boot = s.boot := rfl
@[simp] theorem onLinks_power (f : Vector LinkDyn 4 → Vector LinkDyn 4) (s : State) : (onLinks f s).power = s.power := rfl
@[simp] theorem onLinks_otp (f : Vector LinkDyn 4 → Vector LinkDyn 4) (s : State) : (onLinks f s).otp = s.otp := rfl
@[simp] theorem onLinks_cal (f : Vector LinkDyn 4 → Vector LinkDyn 4) (s : State) : (onLinks f s).cal = s.cal := rfl
@[simp] theorem onLinks_flash (f : Vector LinkDyn 4 → Vector LinkDyn 4) (s : State) : (onLinks f s).flash = s.flash := rfl
@[simp] theorem onLinks_upd (f : Vector LinkDyn 4 → Vector LinkDyn 4) (s : State) : (onLinks f s).upd = s.upd := rfl
@[simp] theorem onLinks_cw (f : Vector LinkDyn 4 → Vector LinkDyn 4) (s : State) : (onLinks f s).cw = s.cw := rfl
@[simp] theorem onLinks_jtag (f : Vector LinkDyn 4 → Vector LinkDyn 4) (s : State) : (onLinks f s).jtag = s.jtag := rfl
@[simp] theorem onLinks_bar2 (f : Vector LinkDyn 4 → Vector LinkDyn 4) (s : State) : (onLinks f s).bar2 = s.bar2 := rfl
@[simp] theorem onLinks_planes (f : Vector LinkDyn 4 → Vector LinkDyn 4) (s : State) : (onLinks f s).planes = s.planes := rfl
@[simp] theorem onLinks_canvas (f : Vector LinkDyn 4 → Vector LinkDyn 4) (s : State) : (onLinks f s).canvas = s.canvas := rfl
@[simp] theorem onLinks_mirrorGen (f : Vector LinkDyn 4 → Vector LinkDyn 4) (s : State) : (onLinks f s).mirrorGen = s.mirrorGen := rfl
@[simp] theorem onLinks_out (f : Vector LinkDyn 4 → Vector LinkDyn 4) (s : State) : (onLinks f s).out = s.out := rfl
@[simp] theorem onLinks_free (f : Vector LinkDyn 4 → Vector LinkDyn 4) (s : State) : (onLinks f s).free = s.free := rfl
@[simp] theorem onLinks_pending (f : Vector LinkDyn 4 → Vector LinkDyn 4) (s : State) : (onLinks f s).pending = s.pending := rfl

/-! ## onRasters -/

@[simp] theorem onRasters_clk (f : Vector RasterDyn 4 → Vector RasterDyn 4) (s : State) : (onRasters f s).clk = s.clk := rfl
@[simp] theorem onRasters_cfg (f : Vector RasterDyn 4 → Vector RasterDyn 4) (s : State) : (onRasters f s).cfg = s.cfg := rfl
@[simp] theorem onRasters_pendLv (f : Vector RasterDyn 4 → Vector RasterDyn 4) (s : State) : (onRasters f s).pendLv = s.pendLv := rfl
@[simp] theorem onRasters_openSet (f : Vector RasterDyn 4 → Vector RasterDyn 4) (s : State) : (onRasters f s).openSet = s.openSet := rfl
@[simp] theorem onRasters_com (f : Vector RasterDyn 4 → Vector RasterDyn 4) (s : State) : (onRasters f s).com = s.com := rfl
@[simp] theorem onRasters_comp (f : Vector RasterDyn 4 → Vector RasterDyn 4) (s : State) : (onRasters f s).comp = s.comp := rfl
@[simp] theorem onRasters_heads (f : Vector RasterDyn 4 → Vector RasterDyn 4) (s : State) : (onRasters f s).heads = s.heads := rfl
@[simp] theorem onRasters_links (f : Vector RasterDyn 4 → Vector RasterDyn 4) (s : State) : (onRasters f s).links = s.links := rfl
@[simp] theorem onRasters_rasters (f : Vector RasterDyn 4 → Vector RasterDyn 4) (s : State) : (onRasters f s).rasters = f s.rasters := rfl
@[simp] theorem onRasters_chans (f : Vector RasterDyn 4 → Vector RasterDyn 4) (s : State) : (onRasters f s).chans = s.chans := rfl
@[simp] theorem onRasters_loops (f : Vector RasterDyn 4 → Vector RasterDyn 4) (s : State) : (onRasters f s).loops = s.loops := rfl
@[simp] theorem onRasters_oss (f : Vector RasterDyn 4 → Vector RasterDyn 4) (s : State) : (onRasters f s).oss = s.oss := rfl
@[simp] theorem onRasters_lines (f : Vector RasterDyn 4 → Vector RasterDyn 4) (s : State) : (onRasters f s).lines = s.lines := rfl
@[simp] theorem onRasters_sluice (f : Vector RasterDyn 4 → Vector RasterDyn 4) (s : State) : (onRasters f s).sluice = s.sluice := rfl
@[simp] theorem onRasters_therm (f : Vector RasterDyn 4 → Vector RasterDyn 4) (s : State) : (onRasters f s).therm = s.therm := rfl
@[simp] theorem onRasters_safety (f : Vector RasterDyn 4 → Vector RasterDyn 4) (s : State) : (onRasters f s).safety = s.safety := rfl
@[simp] theorem onRasters_cxl (f : Vector RasterDyn 4 → Vector RasterDyn 4) (s : State) : (onRasters f s).cxl = s.cxl := rfl
@[simp] theorem onRasters_queues (f : Vector RasterDyn 4 → Vector RasterDyn 4) (s : State) : (onRasters f s).queues = s.queues := rfl
@[simp] theorem onRasters_ev (f : Vector RasterDyn 4 → Vector RasterDyn 4) (s : State) : (onRasters f s).ev = s.ev := rfl
@[simp] theorem onRasters_boot (f : Vector RasterDyn 4 → Vector RasterDyn 4) (s : State) : (onRasters f s).boot = s.boot := rfl
@[simp] theorem onRasters_power (f : Vector RasterDyn 4 → Vector RasterDyn 4) (s : State) : (onRasters f s).power = s.power := rfl
@[simp] theorem onRasters_otp (f : Vector RasterDyn 4 → Vector RasterDyn 4) (s : State) : (onRasters f s).otp = s.otp := rfl
@[simp] theorem onRasters_cal (f : Vector RasterDyn 4 → Vector RasterDyn 4) (s : State) : (onRasters f s).cal = s.cal := rfl
@[simp] theorem onRasters_flash (f : Vector RasterDyn 4 → Vector RasterDyn 4) (s : State) : (onRasters f s).flash = s.flash := rfl
@[simp] theorem onRasters_upd (f : Vector RasterDyn 4 → Vector RasterDyn 4) (s : State) : (onRasters f s).upd = s.upd := rfl
@[simp] theorem onRasters_cw (f : Vector RasterDyn 4 → Vector RasterDyn 4) (s : State) : (onRasters f s).cw = s.cw := rfl
@[simp] theorem onRasters_jtag (f : Vector RasterDyn 4 → Vector RasterDyn 4) (s : State) : (onRasters f s).jtag = s.jtag := rfl
@[simp] theorem onRasters_bar2 (f : Vector RasterDyn 4 → Vector RasterDyn 4) (s : State) : (onRasters f s).bar2 = s.bar2 := rfl
@[simp] theorem onRasters_planes (f : Vector RasterDyn 4 → Vector RasterDyn 4) (s : State) : (onRasters f s).planes = s.planes := rfl
@[simp] theorem onRasters_canvas (f : Vector RasterDyn 4 → Vector RasterDyn 4) (s : State) : (onRasters f s).canvas = s.canvas := rfl
@[simp] theorem onRasters_mirrorGen (f : Vector RasterDyn 4 → Vector RasterDyn 4) (s : State) : (onRasters f s).mirrorGen = s.mirrorGen := rfl
@[simp] theorem onRasters_out (f : Vector RasterDyn 4 → Vector RasterDyn 4) (s : State) : (onRasters f s).out = s.out := rfl
@[simp] theorem onRasters_free (f : Vector RasterDyn 4 → Vector RasterDyn 4) (s : State) : (onRasters f s).free = s.free := rfl
@[simp] theorem onRasters_pending (f : Vector RasterDyn 4 → Vector RasterDyn 4) (s : State) : (onRasters f s).pending = s.pending := rfl

/-! ## onChans -/

@[simp] theorem onChans_clk (f : Vector ChanDyn 64 → Vector ChanDyn 64) (s : State) : (onChans f s).clk = s.clk := rfl
@[simp] theorem onChans_cfg (f : Vector ChanDyn 64 → Vector ChanDyn 64) (s : State) : (onChans f s).cfg = s.cfg := rfl
@[simp] theorem onChans_pendLv (f : Vector ChanDyn 64 → Vector ChanDyn 64) (s : State) : (onChans f s).pendLv = s.pendLv := rfl
@[simp] theorem onChans_openSet (f : Vector ChanDyn 64 → Vector ChanDyn 64) (s : State) : (onChans f s).openSet = s.openSet := rfl
@[simp] theorem onChans_com (f : Vector ChanDyn 64 → Vector ChanDyn 64) (s : State) : (onChans f s).com = s.com := rfl
@[simp] theorem onChans_comp (f : Vector ChanDyn 64 → Vector ChanDyn 64) (s : State) : (onChans f s).comp = s.comp := rfl
@[simp] theorem onChans_heads (f : Vector ChanDyn 64 → Vector ChanDyn 64) (s : State) : (onChans f s).heads = s.heads := rfl
@[simp] theorem onChans_links (f : Vector ChanDyn 64 → Vector ChanDyn 64) (s : State) : (onChans f s).links = s.links := rfl
@[simp] theorem onChans_rasters (f : Vector ChanDyn 64 → Vector ChanDyn 64) (s : State) : (onChans f s).rasters = s.rasters := rfl
@[simp] theorem onChans_chans (f : Vector ChanDyn 64 → Vector ChanDyn 64) (s : State) : (onChans f s).chans = f s.chans := rfl
@[simp] theorem onChans_loops (f : Vector ChanDyn 64 → Vector ChanDyn 64) (s : State) : (onChans f s).loops = s.loops := rfl
@[simp] theorem onChans_oss (f : Vector ChanDyn 64 → Vector ChanDyn 64) (s : State) : (onChans f s).oss = s.oss := rfl
@[simp] theorem onChans_lines (f : Vector ChanDyn 64 → Vector ChanDyn 64) (s : State) : (onChans f s).lines = s.lines := rfl
@[simp] theorem onChans_sluice (f : Vector ChanDyn 64 → Vector ChanDyn 64) (s : State) : (onChans f s).sluice = s.sluice := rfl
@[simp] theorem onChans_therm (f : Vector ChanDyn 64 → Vector ChanDyn 64) (s : State) : (onChans f s).therm = s.therm := rfl
@[simp] theorem onChans_safety (f : Vector ChanDyn 64 → Vector ChanDyn 64) (s : State) : (onChans f s).safety = s.safety := rfl
@[simp] theorem onChans_cxl (f : Vector ChanDyn 64 → Vector ChanDyn 64) (s : State) : (onChans f s).cxl = s.cxl := rfl
@[simp] theorem onChans_queues (f : Vector ChanDyn 64 → Vector ChanDyn 64) (s : State) : (onChans f s).queues = s.queues := rfl
@[simp] theorem onChans_ev (f : Vector ChanDyn 64 → Vector ChanDyn 64) (s : State) : (onChans f s).ev = s.ev := rfl
@[simp] theorem onChans_boot (f : Vector ChanDyn 64 → Vector ChanDyn 64) (s : State) : (onChans f s).boot = s.boot := rfl
@[simp] theorem onChans_power (f : Vector ChanDyn 64 → Vector ChanDyn 64) (s : State) : (onChans f s).power = s.power := rfl
@[simp] theorem onChans_otp (f : Vector ChanDyn 64 → Vector ChanDyn 64) (s : State) : (onChans f s).otp = s.otp := rfl
@[simp] theorem onChans_cal (f : Vector ChanDyn 64 → Vector ChanDyn 64) (s : State) : (onChans f s).cal = s.cal := rfl
@[simp] theorem onChans_flash (f : Vector ChanDyn 64 → Vector ChanDyn 64) (s : State) : (onChans f s).flash = s.flash := rfl
@[simp] theorem onChans_upd (f : Vector ChanDyn 64 → Vector ChanDyn 64) (s : State) : (onChans f s).upd = s.upd := rfl
@[simp] theorem onChans_cw (f : Vector ChanDyn 64 → Vector ChanDyn 64) (s : State) : (onChans f s).cw = s.cw := rfl
@[simp] theorem onChans_jtag (f : Vector ChanDyn 64 → Vector ChanDyn 64) (s : State) : (onChans f s).jtag = s.jtag := rfl
@[simp] theorem onChans_bar2 (f : Vector ChanDyn 64 → Vector ChanDyn 64) (s : State) : (onChans f s).bar2 = s.bar2 := rfl
@[simp] theorem onChans_planes (f : Vector ChanDyn 64 → Vector ChanDyn 64) (s : State) : (onChans f s).planes = s.planes := rfl
@[simp] theorem onChans_canvas (f : Vector ChanDyn 64 → Vector ChanDyn 64) (s : State) : (onChans f s).canvas = s.canvas := rfl
@[simp] theorem onChans_mirrorGen (f : Vector ChanDyn 64 → Vector ChanDyn 64) (s : State) : (onChans f s).mirrorGen = s.mirrorGen := rfl
@[simp] theorem onChans_out (f : Vector ChanDyn 64 → Vector ChanDyn 64) (s : State) : (onChans f s).out = s.out := rfl
@[simp] theorem onChans_free (f : Vector ChanDyn 64 → Vector ChanDyn 64) (s : State) : (onChans f s).free = s.free := rfl
@[simp] theorem onChans_pending (f : Vector ChanDyn 64 → Vector ChanDyn 64) (s : State) : (onChans f s).pending = s.pending := rfl

/-! ## onLoops -/

@[simp] theorem onLoops_clk (f : Vector (Vector LoopDyn 3) 4 → Vector (Vector LoopDyn 3) 4) (s : State) : (onLoops f s).clk = s.clk := rfl
@[simp] theorem onLoops_cfg (f : Vector (Vector LoopDyn 3) 4 → Vector (Vector LoopDyn 3) 4) (s : State) : (onLoops f s).cfg = s.cfg := rfl
@[simp] theorem onLoops_pendLv (f : Vector (Vector LoopDyn 3) 4 → Vector (Vector LoopDyn 3) 4) (s : State) : (onLoops f s).pendLv = s.pendLv := rfl
@[simp] theorem onLoops_openSet (f : Vector (Vector LoopDyn 3) 4 → Vector (Vector LoopDyn 3) 4) (s : State) : (onLoops f s).openSet = s.openSet := rfl
@[simp] theorem onLoops_com (f : Vector (Vector LoopDyn 3) 4 → Vector (Vector LoopDyn 3) 4) (s : State) : (onLoops f s).com = s.com := rfl
@[simp] theorem onLoops_comp (f : Vector (Vector LoopDyn 3) 4 → Vector (Vector LoopDyn 3) 4) (s : State) : (onLoops f s).comp = s.comp := rfl
@[simp] theorem onLoops_heads (f : Vector (Vector LoopDyn 3) 4 → Vector (Vector LoopDyn 3) 4) (s : State) : (onLoops f s).heads = s.heads := rfl
@[simp] theorem onLoops_links (f : Vector (Vector LoopDyn 3) 4 → Vector (Vector LoopDyn 3) 4) (s : State) : (onLoops f s).links = s.links := rfl
@[simp] theorem onLoops_rasters (f : Vector (Vector LoopDyn 3) 4 → Vector (Vector LoopDyn 3) 4) (s : State) : (onLoops f s).rasters = s.rasters := rfl
@[simp] theorem onLoops_chans (f : Vector (Vector LoopDyn 3) 4 → Vector (Vector LoopDyn 3) 4) (s : State) : (onLoops f s).chans = s.chans := rfl
@[simp] theorem onLoops_loops (f : Vector (Vector LoopDyn 3) 4 → Vector (Vector LoopDyn 3) 4) (s : State) : (onLoops f s).loops = f s.loops := rfl
@[simp] theorem onLoops_oss (f : Vector (Vector LoopDyn 3) 4 → Vector (Vector LoopDyn 3) 4) (s : State) : (onLoops f s).oss = s.oss := rfl
@[simp] theorem onLoops_lines (f : Vector (Vector LoopDyn 3) 4 → Vector (Vector LoopDyn 3) 4) (s : State) : (onLoops f s).lines = s.lines := rfl
@[simp] theorem onLoops_sluice (f : Vector (Vector LoopDyn 3) 4 → Vector (Vector LoopDyn 3) 4) (s : State) : (onLoops f s).sluice = s.sluice := rfl
@[simp] theorem onLoops_therm (f : Vector (Vector LoopDyn 3) 4 → Vector (Vector LoopDyn 3) 4) (s : State) : (onLoops f s).therm = s.therm := rfl
@[simp] theorem onLoops_safety (f : Vector (Vector LoopDyn 3) 4 → Vector (Vector LoopDyn 3) 4) (s : State) : (onLoops f s).safety = s.safety := rfl
@[simp] theorem onLoops_cxl (f : Vector (Vector LoopDyn 3) 4 → Vector (Vector LoopDyn 3) 4) (s : State) : (onLoops f s).cxl = s.cxl := rfl
@[simp] theorem onLoops_queues (f : Vector (Vector LoopDyn 3) 4 → Vector (Vector LoopDyn 3) 4) (s : State) : (onLoops f s).queues = s.queues := rfl
@[simp] theorem onLoops_ev (f : Vector (Vector LoopDyn 3) 4 → Vector (Vector LoopDyn 3) 4) (s : State) : (onLoops f s).ev = s.ev := rfl
@[simp] theorem onLoops_boot (f : Vector (Vector LoopDyn 3) 4 → Vector (Vector LoopDyn 3) 4) (s : State) : (onLoops f s).boot = s.boot := rfl
@[simp] theorem onLoops_power (f : Vector (Vector LoopDyn 3) 4 → Vector (Vector LoopDyn 3) 4) (s : State) : (onLoops f s).power = s.power := rfl
@[simp] theorem onLoops_otp (f : Vector (Vector LoopDyn 3) 4 → Vector (Vector LoopDyn 3) 4) (s : State) : (onLoops f s).otp = s.otp := rfl
@[simp] theorem onLoops_cal (f : Vector (Vector LoopDyn 3) 4 → Vector (Vector LoopDyn 3) 4) (s : State) : (onLoops f s).cal = s.cal := rfl
@[simp] theorem onLoops_flash (f : Vector (Vector LoopDyn 3) 4 → Vector (Vector LoopDyn 3) 4) (s : State) : (onLoops f s).flash = s.flash := rfl
@[simp] theorem onLoops_upd (f : Vector (Vector LoopDyn 3) 4 → Vector (Vector LoopDyn 3) 4) (s : State) : (onLoops f s).upd = s.upd := rfl
@[simp] theorem onLoops_cw (f : Vector (Vector LoopDyn 3) 4 → Vector (Vector LoopDyn 3) 4) (s : State) : (onLoops f s).cw = s.cw := rfl
@[simp] theorem onLoops_jtag (f : Vector (Vector LoopDyn 3) 4 → Vector (Vector LoopDyn 3) 4) (s : State) : (onLoops f s).jtag = s.jtag := rfl
@[simp] theorem onLoops_bar2 (f : Vector (Vector LoopDyn 3) 4 → Vector (Vector LoopDyn 3) 4) (s : State) : (onLoops f s).bar2 = s.bar2 := rfl
@[simp] theorem onLoops_planes (f : Vector (Vector LoopDyn 3) 4 → Vector (Vector LoopDyn 3) 4) (s : State) : (onLoops f s).planes = s.planes := rfl
@[simp] theorem onLoops_canvas (f : Vector (Vector LoopDyn 3) 4 → Vector (Vector LoopDyn 3) 4) (s : State) : (onLoops f s).canvas = s.canvas := rfl
@[simp] theorem onLoops_mirrorGen (f : Vector (Vector LoopDyn 3) 4 → Vector (Vector LoopDyn 3) 4) (s : State) : (onLoops f s).mirrorGen = s.mirrorGen := rfl
@[simp] theorem onLoops_out (f : Vector (Vector LoopDyn 3) 4 → Vector (Vector LoopDyn 3) 4) (s : State) : (onLoops f s).out = s.out := rfl
@[simp] theorem onLoops_free (f : Vector (Vector LoopDyn 3) 4 → Vector (Vector LoopDyn 3) 4) (s : State) : (onLoops f s).free = s.free := rfl
@[simp] theorem onLoops_pending (f : Vector (Vector LoopDyn 3) 4 → Vector (Vector LoopDyn 3) 4) (s : State) : (onLoops f s).pending = s.pending := rfl

/-! ## onQueues -/

@[simp] theorem onQueues_clk (f : Vector QueueDyn 4 → Vector QueueDyn 4) (s : State) : (onQueues f s).clk = s.clk := rfl
@[simp] theorem onQueues_cfg (f : Vector QueueDyn 4 → Vector QueueDyn 4) (s : State) : (onQueues f s).cfg = s.cfg := rfl
@[simp] theorem onQueues_pendLv (f : Vector QueueDyn 4 → Vector QueueDyn 4) (s : State) : (onQueues f s).pendLv = s.pendLv := rfl
@[simp] theorem onQueues_openSet (f : Vector QueueDyn 4 → Vector QueueDyn 4) (s : State) : (onQueues f s).openSet = s.openSet := rfl
@[simp] theorem onQueues_com (f : Vector QueueDyn 4 → Vector QueueDyn 4) (s : State) : (onQueues f s).com = s.com := rfl
@[simp] theorem onQueues_comp (f : Vector QueueDyn 4 → Vector QueueDyn 4) (s : State) : (onQueues f s).comp = s.comp := rfl
@[simp] theorem onQueues_heads (f : Vector QueueDyn 4 → Vector QueueDyn 4) (s : State) : (onQueues f s).heads = s.heads := rfl
@[simp] theorem onQueues_links (f : Vector QueueDyn 4 → Vector QueueDyn 4) (s : State) : (onQueues f s).links = s.links := rfl
@[simp] theorem onQueues_rasters (f : Vector QueueDyn 4 → Vector QueueDyn 4) (s : State) : (onQueues f s).rasters = s.rasters := rfl
@[simp] theorem onQueues_chans (f : Vector QueueDyn 4 → Vector QueueDyn 4) (s : State) : (onQueues f s).chans = s.chans := rfl
@[simp] theorem onQueues_loops (f : Vector QueueDyn 4 → Vector QueueDyn 4) (s : State) : (onQueues f s).loops = s.loops := rfl
@[simp] theorem onQueues_oss (f : Vector QueueDyn 4 → Vector QueueDyn 4) (s : State) : (onQueues f s).oss = s.oss := rfl
@[simp] theorem onQueues_lines (f : Vector QueueDyn 4 → Vector QueueDyn 4) (s : State) : (onQueues f s).lines = s.lines := rfl
@[simp] theorem onQueues_sluice (f : Vector QueueDyn 4 → Vector QueueDyn 4) (s : State) : (onQueues f s).sluice = s.sluice := rfl
@[simp] theorem onQueues_therm (f : Vector QueueDyn 4 → Vector QueueDyn 4) (s : State) : (onQueues f s).therm = s.therm := rfl
@[simp] theorem onQueues_safety (f : Vector QueueDyn 4 → Vector QueueDyn 4) (s : State) : (onQueues f s).safety = s.safety := rfl
@[simp] theorem onQueues_cxl (f : Vector QueueDyn 4 → Vector QueueDyn 4) (s : State) : (onQueues f s).cxl = s.cxl := rfl
@[simp] theorem onQueues_queues (f : Vector QueueDyn 4 → Vector QueueDyn 4) (s : State) : (onQueues f s).queues = f s.queues := rfl
@[simp] theorem onQueues_ev (f : Vector QueueDyn 4 → Vector QueueDyn 4) (s : State) : (onQueues f s).ev = s.ev := rfl
@[simp] theorem onQueues_boot (f : Vector QueueDyn 4 → Vector QueueDyn 4) (s : State) : (onQueues f s).boot = s.boot := rfl
@[simp] theorem onQueues_power (f : Vector QueueDyn 4 → Vector QueueDyn 4) (s : State) : (onQueues f s).power = s.power := rfl
@[simp] theorem onQueues_otp (f : Vector QueueDyn 4 → Vector QueueDyn 4) (s : State) : (onQueues f s).otp = s.otp := rfl
@[simp] theorem onQueues_cal (f : Vector QueueDyn 4 → Vector QueueDyn 4) (s : State) : (onQueues f s).cal = s.cal := rfl
@[simp] theorem onQueues_flash (f : Vector QueueDyn 4 → Vector QueueDyn 4) (s : State) : (onQueues f s).flash = s.flash := rfl
@[simp] theorem onQueues_upd (f : Vector QueueDyn 4 → Vector QueueDyn 4) (s : State) : (onQueues f s).upd = s.upd := rfl
@[simp] theorem onQueues_cw (f : Vector QueueDyn 4 → Vector QueueDyn 4) (s : State) : (onQueues f s).cw = s.cw := rfl
@[simp] theorem onQueues_jtag (f : Vector QueueDyn 4 → Vector QueueDyn 4) (s : State) : (onQueues f s).jtag = s.jtag := rfl
@[simp] theorem onQueues_bar2 (f : Vector QueueDyn 4 → Vector QueueDyn 4) (s : State) : (onQueues f s).bar2 = s.bar2 := rfl
@[simp] theorem onQueues_planes (f : Vector QueueDyn 4 → Vector QueueDyn 4) (s : State) : (onQueues f s).planes = s.planes := rfl
@[simp] theorem onQueues_canvas (f : Vector QueueDyn 4 → Vector QueueDyn 4) (s : State) : (onQueues f s).canvas = s.canvas := rfl
@[simp] theorem onQueues_mirrorGen (f : Vector QueueDyn 4 → Vector QueueDyn 4) (s : State) : (onQueues f s).mirrorGen = s.mirrorGen := rfl
@[simp] theorem onQueues_out (f : Vector QueueDyn 4 → Vector QueueDyn 4) (s : State) : (onQueues f s).out = s.out := rfl
@[simp] theorem onQueues_free (f : Vector QueueDyn 4 → Vector QueueDyn 4) (s : State) : (onQueues f s).free = s.free := rfl
@[simp] theorem onQueues_pending (f : Vector QueueDyn 4 → Vector QueueDyn 4) (s : State) : (onQueues f s).pending = s.pending := rfl

/-! ## onOtp -/

@[simp] theorem onOtp_clk (f : Otp → Otp) (s : State) : (onOtp f s).clk = s.clk := rfl
@[simp] theorem onOtp_cfg (f : Otp → Otp) (s : State) : (onOtp f s).cfg = s.cfg := rfl
@[simp] theorem onOtp_pendLv (f : Otp → Otp) (s : State) : (onOtp f s).pendLv = s.pendLv := rfl
@[simp] theorem onOtp_openSet (f : Otp → Otp) (s : State) : (onOtp f s).openSet = s.openSet := rfl
@[simp] theorem onOtp_com (f : Otp → Otp) (s : State) : (onOtp f s).com = s.com := rfl
@[simp] theorem onOtp_comp (f : Otp → Otp) (s : State) : (onOtp f s).comp = s.comp := rfl
@[simp] theorem onOtp_heads (f : Otp → Otp) (s : State) : (onOtp f s).heads = s.heads := rfl
@[simp] theorem onOtp_links (f : Otp → Otp) (s : State) : (onOtp f s).links = s.links := rfl
@[simp] theorem onOtp_rasters (f : Otp → Otp) (s : State) : (onOtp f s).rasters = s.rasters := rfl
@[simp] theorem onOtp_chans (f : Otp → Otp) (s : State) : (onOtp f s).chans = s.chans := rfl
@[simp] theorem onOtp_loops (f : Otp → Otp) (s : State) : (onOtp f s).loops = s.loops := rfl
@[simp] theorem onOtp_oss (f : Otp → Otp) (s : State) : (onOtp f s).oss = s.oss := rfl
@[simp] theorem onOtp_lines (f : Otp → Otp) (s : State) : (onOtp f s).lines = s.lines := rfl
@[simp] theorem onOtp_sluice (f : Otp → Otp) (s : State) : (onOtp f s).sluice = s.sluice := rfl
@[simp] theorem onOtp_therm (f : Otp → Otp) (s : State) : (onOtp f s).therm = s.therm := rfl
@[simp] theorem onOtp_safety (f : Otp → Otp) (s : State) : (onOtp f s).safety = s.safety := rfl
@[simp] theorem onOtp_cxl (f : Otp → Otp) (s : State) : (onOtp f s).cxl = s.cxl := rfl
@[simp] theorem onOtp_queues (f : Otp → Otp) (s : State) : (onOtp f s).queues = s.queues := rfl
@[simp] theorem onOtp_ev (f : Otp → Otp) (s : State) : (onOtp f s).ev = s.ev := rfl
@[simp] theorem onOtp_boot (f : Otp → Otp) (s : State) : (onOtp f s).boot = s.boot := rfl
@[simp] theorem onOtp_power (f : Otp → Otp) (s : State) : (onOtp f s).power = s.power := rfl
@[simp] theorem onOtp_otp (f : Otp → Otp) (s : State) : (onOtp f s).otp = f s.otp := rfl
@[simp] theorem onOtp_cal (f : Otp → Otp) (s : State) : (onOtp f s).cal = s.cal := rfl
@[simp] theorem onOtp_flash (f : Otp → Otp) (s : State) : (onOtp f s).flash = s.flash := rfl
@[simp] theorem onOtp_upd (f : Otp → Otp) (s : State) : (onOtp f s).upd = s.upd := rfl
@[simp] theorem onOtp_cw (f : Otp → Otp) (s : State) : (onOtp f s).cw = s.cw := rfl
@[simp] theorem onOtp_jtag (f : Otp → Otp) (s : State) : (onOtp f s).jtag = s.jtag := rfl
@[simp] theorem onOtp_bar2 (f : Otp → Otp) (s : State) : (onOtp f s).bar2 = s.bar2 := rfl
@[simp] theorem onOtp_planes (f : Otp → Otp) (s : State) : (onOtp f s).planes = s.planes := rfl
@[simp] theorem onOtp_canvas (f : Otp → Otp) (s : State) : (onOtp f s).canvas = s.canvas := rfl
@[simp] theorem onOtp_mirrorGen (f : Otp → Otp) (s : State) : (onOtp f s).mirrorGen = s.mirrorGen := rfl
@[simp] theorem onOtp_out (f : Otp → Otp) (s : State) : (onOtp f s).out = s.out := rfl
@[simp] theorem onOtp_free (f : Otp → Otp) (s : State) : (onOtp f s).free = s.free := rfl
@[simp] theorem onOtp_pending (f : Otp → Otp) (s : State) : (onOtp f s).pending = s.pending := rfl

/-! ## onJtag -/

@[simp] theorem onJtag_clk (f : JtagDyn → JtagDyn) (s : State) : (onJtag f s).clk = s.clk := rfl
@[simp] theorem onJtag_cfg (f : JtagDyn → JtagDyn) (s : State) : (onJtag f s).cfg = s.cfg := rfl
@[simp] theorem onJtag_pendLv (f : JtagDyn → JtagDyn) (s : State) : (onJtag f s).pendLv = s.pendLv := rfl
@[simp] theorem onJtag_openSet (f : JtagDyn → JtagDyn) (s : State) : (onJtag f s).openSet = s.openSet := rfl
@[simp] theorem onJtag_com (f : JtagDyn → JtagDyn) (s : State) : (onJtag f s).com = s.com := rfl
@[simp] theorem onJtag_comp (f : JtagDyn → JtagDyn) (s : State) : (onJtag f s).comp = s.comp := rfl
@[simp] theorem onJtag_heads (f : JtagDyn → JtagDyn) (s : State) : (onJtag f s).heads = s.heads := rfl
@[simp] theorem onJtag_links (f : JtagDyn → JtagDyn) (s : State) : (onJtag f s).links = s.links := rfl
@[simp] theorem onJtag_rasters (f : JtagDyn → JtagDyn) (s : State) : (onJtag f s).rasters = s.rasters := rfl
@[simp] theorem onJtag_chans (f : JtagDyn → JtagDyn) (s : State) : (onJtag f s).chans = s.chans := rfl
@[simp] theorem onJtag_loops (f : JtagDyn → JtagDyn) (s : State) : (onJtag f s).loops = s.loops := rfl
@[simp] theorem onJtag_oss (f : JtagDyn → JtagDyn) (s : State) : (onJtag f s).oss = s.oss := rfl
@[simp] theorem onJtag_lines (f : JtagDyn → JtagDyn) (s : State) : (onJtag f s).lines = s.lines := rfl
@[simp] theorem onJtag_sluice (f : JtagDyn → JtagDyn) (s : State) : (onJtag f s).sluice = s.sluice := rfl
@[simp] theorem onJtag_therm (f : JtagDyn → JtagDyn) (s : State) : (onJtag f s).therm = s.therm := rfl
@[simp] theorem onJtag_safety (f : JtagDyn → JtagDyn) (s : State) : (onJtag f s).safety = s.safety := rfl
@[simp] theorem onJtag_cxl (f : JtagDyn → JtagDyn) (s : State) : (onJtag f s).cxl = s.cxl := rfl
@[simp] theorem onJtag_queues (f : JtagDyn → JtagDyn) (s : State) : (onJtag f s).queues = s.queues := rfl
@[simp] theorem onJtag_ev (f : JtagDyn → JtagDyn) (s : State) : (onJtag f s).ev = s.ev := rfl
@[simp] theorem onJtag_boot (f : JtagDyn → JtagDyn) (s : State) : (onJtag f s).boot = s.boot := rfl
@[simp] theorem onJtag_power (f : JtagDyn → JtagDyn) (s : State) : (onJtag f s).power = s.power := rfl
@[simp] theorem onJtag_otp (f : JtagDyn → JtagDyn) (s : State) : (onJtag f s).otp = s.otp := rfl
@[simp] theorem onJtag_cal (f : JtagDyn → JtagDyn) (s : State) : (onJtag f s).cal = s.cal := rfl
@[simp] theorem onJtag_flash (f : JtagDyn → JtagDyn) (s : State) : (onJtag f s).flash = s.flash := rfl
@[simp] theorem onJtag_upd (f : JtagDyn → JtagDyn) (s : State) : (onJtag f s).upd = s.upd := rfl
@[simp] theorem onJtag_cw (f : JtagDyn → JtagDyn) (s : State) : (onJtag f s).cw = s.cw := rfl
@[simp] theorem onJtag_jtag (f : JtagDyn → JtagDyn) (s : State) : (onJtag f s).jtag = f s.jtag := rfl
@[simp] theorem onJtag_bar2 (f : JtagDyn → JtagDyn) (s : State) : (onJtag f s).bar2 = s.bar2 := rfl
@[simp] theorem onJtag_planes (f : JtagDyn → JtagDyn) (s : State) : (onJtag f s).planes = s.planes := rfl
@[simp] theorem onJtag_canvas (f : JtagDyn → JtagDyn) (s : State) : (onJtag f s).canvas = s.canvas := rfl
@[simp] theorem onJtag_mirrorGen (f : JtagDyn → JtagDyn) (s : State) : (onJtag f s).mirrorGen = s.mirrorGen := rfl
@[simp] theorem onJtag_out (f : JtagDyn → JtagDyn) (s : State) : (onJtag f s).out = s.out := rfl
@[simp] theorem onJtag_free (f : JtagDyn → JtagDyn) (s : State) : (onJtag f s).free = s.free := rfl
@[simp] theorem onJtag_pending (f : JtagDyn → JtagDyn) (s : State) : (onJtag f s).pending = s.pending := rfl

/-! ## onBar2 -/

@[simp] theorem onBar2_clk (f : List Host.Cell → List Host.Cell) (s : State) : (onBar2 f s).clk = s.clk := rfl
@[simp] theorem onBar2_cfg (f : List Host.Cell → List Host.Cell) (s : State) : (onBar2 f s).cfg = s.cfg := rfl
@[simp] theorem onBar2_pendLv (f : List Host.Cell → List Host.Cell) (s : State) : (onBar2 f s).pendLv = s.pendLv := rfl
@[simp] theorem onBar2_openSet (f : List Host.Cell → List Host.Cell) (s : State) : (onBar2 f s).openSet = s.openSet := rfl
@[simp] theorem onBar2_com (f : List Host.Cell → List Host.Cell) (s : State) : (onBar2 f s).com = s.com := rfl
@[simp] theorem onBar2_comp (f : List Host.Cell → List Host.Cell) (s : State) : (onBar2 f s).comp = s.comp := rfl
@[simp] theorem onBar2_heads (f : List Host.Cell → List Host.Cell) (s : State) : (onBar2 f s).heads = s.heads := rfl
@[simp] theorem onBar2_links (f : List Host.Cell → List Host.Cell) (s : State) : (onBar2 f s).links = s.links := rfl
@[simp] theorem onBar2_rasters (f : List Host.Cell → List Host.Cell) (s : State) : (onBar2 f s).rasters = s.rasters := rfl
@[simp] theorem onBar2_chans (f : List Host.Cell → List Host.Cell) (s : State) : (onBar2 f s).chans = s.chans := rfl
@[simp] theorem onBar2_loops (f : List Host.Cell → List Host.Cell) (s : State) : (onBar2 f s).loops = s.loops := rfl
@[simp] theorem onBar2_oss (f : List Host.Cell → List Host.Cell) (s : State) : (onBar2 f s).oss = s.oss := rfl
@[simp] theorem onBar2_lines (f : List Host.Cell → List Host.Cell) (s : State) : (onBar2 f s).lines = s.lines := rfl
@[simp] theorem onBar2_sluice (f : List Host.Cell → List Host.Cell) (s : State) : (onBar2 f s).sluice = s.sluice := rfl
@[simp] theorem onBar2_therm (f : List Host.Cell → List Host.Cell) (s : State) : (onBar2 f s).therm = s.therm := rfl
@[simp] theorem onBar2_safety (f : List Host.Cell → List Host.Cell) (s : State) : (onBar2 f s).safety = s.safety := rfl
@[simp] theorem onBar2_cxl (f : List Host.Cell → List Host.Cell) (s : State) : (onBar2 f s).cxl = s.cxl := rfl
@[simp] theorem onBar2_queues (f : List Host.Cell → List Host.Cell) (s : State) : (onBar2 f s).queues = s.queues := rfl
@[simp] theorem onBar2_ev (f : List Host.Cell → List Host.Cell) (s : State) : (onBar2 f s).ev = s.ev := rfl
@[simp] theorem onBar2_boot (f : List Host.Cell → List Host.Cell) (s : State) : (onBar2 f s).boot = s.boot := rfl
@[simp] theorem onBar2_power (f : List Host.Cell → List Host.Cell) (s : State) : (onBar2 f s).power = s.power := rfl
@[simp] theorem onBar2_otp (f : List Host.Cell → List Host.Cell) (s : State) : (onBar2 f s).otp = s.otp := rfl
@[simp] theorem onBar2_cal (f : List Host.Cell → List Host.Cell) (s : State) : (onBar2 f s).cal = s.cal := rfl
@[simp] theorem onBar2_flash (f : List Host.Cell → List Host.Cell) (s : State) : (onBar2 f s).flash = s.flash := rfl
@[simp] theorem onBar2_upd (f : List Host.Cell → List Host.Cell) (s : State) : (onBar2 f s).upd = s.upd := rfl
@[simp] theorem onBar2_cw (f : List Host.Cell → List Host.Cell) (s : State) : (onBar2 f s).cw = s.cw := rfl
@[simp] theorem onBar2_jtag (f : List Host.Cell → List Host.Cell) (s : State) : (onBar2 f s).jtag = s.jtag := rfl
@[simp] theorem onBar2_bar2 (f : List Host.Cell → List Host.Cell) (s : State) : (onBar2 f s).bar2 = f s.bar2 := rfl
@[simp] theorem onBar2_planes (f : List Host.Cell → List Host.Cell) (s : State) : (onBar2 f s).planes = s.planes := rfl
@[simp] theorem onBar2_canvas (f : List Host.Cell → List Host.Cell) (s : State) : (onBar2 f s).canvas = s.canvas := rfl
@[simp] theorem onBar2_mirrorGen (f : List Host.Cell → List Host.Cell) (s : State) : (onBar2 f s).mirrorGen = s.mirrorGen := rfl
@[simp] theorem onBar2_out (f : List Host.Cell → List Host.Cell) (s : State) : (onBar2 f s).out = s.out := rfl
@[simp] theorem onBar2_free (f : List Host.Cell → List Host.Cell) (s : State) : (onBar2 f s).free = s.free := rfl
@[simp] theorem onBar2_pending (f : List Host.Cell → List Host.Cell) (s : State) : (onBar2 f s).pending = s.pending := rfl

/-! ## onPlanes -/

@[simp] theorem onPlanes_clk (f : List Host.Cell → List Host.Cell) (s : State) : (onPlanes f s).clk = s.clk := rfl
@[simp] theorem onPlanes_cfg (f : List Host.Cell → List Host.Cell) (s : State) : (onPlanes f s).cfg = s.cfg := rfl
@[simp] theorem onPlanes_pendLv (f : List Host.Cell → List Host.Cell) (s : State) : (onPlanes f s).pendLv = s.pendLv := rfl
@[simp] theorem onPlanes_openSet (f : List Host.Cell → List Host.Cell) (s : State) : (onPlanes f s).openSet = s.openSet := rfl
@[simp] theorem onPlanes_com (f : List Host.Cell → List Host.Cell) (s : State) : (onPlanes f s).com = s.com := rfl
@[simp] theorem onPlanes_comp (f : List Host.Cell → List Host.Cell) (s : State) : (onPlanes f s).comp = s.comp := rfl
@[simp] theorem onPlanes_heads (f : List Host.Cell → List Host.Cell) (s : State) : (onPlanes f s).heads = s.heads := rfl
@[simp] theorem onPlanes_links (f : List Host.Cell → List Host.Cell) (s : State) : (onPlanes f s).links = s.links := rfl
@[simp] theorem onPlanes_rasters (f : List Host.Cell → List Host.Cell) (s : State) : (onPlanes f s).rasters = s.rasters := rfl
@[simp] theorem onPlanes_chans (f : List Host.Cell → List Host.Cell) (s : State) : (onPlanes f s).chans = s.chans := rfl
@[simp] theorem onPlanes_loops (f : List Host.Cell → List Host.Cell) (s : State) : (onPlanes f s).loops = s.loops := rfl
@[simp] theorem onPlanes_oss (f : List Host.Cell → List Host.Cell) (s : State) : (onPlanes f s).oss = s.oss := rfl
@[simp] theorem onPlanes_lines (f : List Host.Cell → List Host.Cell) (s : State) : (onPlanes f s).lines = s.lines := rfl
@[simp] theorem onPlanes_sluice (f : List Host.Cell → List Host.Cell) (s : State) : (onPlanes f s).sluice = s.sluice := rfl
@[simp] theorem onPlanes_therm (f : List Host.Cell → List Host.Cell) (s : State) : (onPlanes f s).therm = s.therm := rfl
@[simp] theorem onPlanes_safety (f : List Host.Cell → List Host.Cell) (s : State) : (onPlanes f s).safety = s.safety := rfl
@[simp] theorem onPlanes_cxl (f : List Host.Cell → List Host.Cell) (s : State) : (onPlanes f s).cxl = s.cxl := rfl
@[simp] theorem onPlanes_queues (f : List Host.Cell → List Host.Cell) (s : State) : (onPlanes f s).queues = s.queues := rfl
@[simp] theorem onPlanes_ev (f : List Host.Cell → List Host.Cell) (s : State) : (onPlanes f s).ev = s.ev := rfl
@[simp] theorem onPlanes_boot (f : List Host.Cell → List Host.Cell) (s : State) : (onPlanes f s).boot = s.boot := rfl
@[simp] theorem onPlanes_power (f : List Host.Cell → List Host.Cell) (s : State) : (onPlanes f s).power = s.power := rfl
@[simp] theorem onPlanes_otp (f : List Host.Cell → List Host.Cell) (s : State) : (onPlanes f s).otp = s.otp := rfl
@[simp] theorem onPlanes_cal (f : List Host.Cell → List Host.Cell) (s : State) : (onPlanes f s).cal = s.cal := rfl
@[simp] theorem onPlanes_flash (f : List Host.Cell → List Host.Cell) (s : State) : (onPlanes f s).flash = s.flash := rfl
@[simp] theorem onPlanes_upd (f : List Host.Cell → List Host.Cell) (s : State) : (onPlanes f s).upd = s.upd := rfl
@[simp] theorem onPlanes_cw (f : List Host.Cell → List Host.Cell) (s : State) : (onPlanes f s).cw = s.cw := rfl
@[simp] theorem onPlanes_jtag (f : List Host.Cell → List Host.Cell) (s : State) : (onPlanes f s).jtag = s.jtag := rfl
@[simp] theorem onPlanes_bar2 (f : List Host.Cell → List Host.Cell) (s : State) : (onPlanes f s).bar2 = s.bar2 := rfl
@[simp] theorem onPlanes_planes (f : List Host.Cell → List Host.Cell) (s : State) : (onPlanes f s).planes = f s.planes := rfl
@[simp] theorem onPlanes_canvas (f : List Host.Cell → List Host.Cell) (s : State) : (onPlanes f s).canvas = s.canvas := rfl
@[simp] theorem onPlanes_mirrorGen (f : List Host.Cell → List Host.Cell) (s : State) : (onPlanes f s).mirrorGen = s.mirrorGen := rfl
@[simp] theorem onPlanes_out (f : List Host.Cell → List Host.Cell) (s : State) : (onPlanes f s).out = s.out := rfl
@[simp] theorem onPlanes_free (f : List Host.Cell → List Host.Cell) (s : State) : (onPlanes f s).free = s.free := rfl
@[simp] theorem onPlanes_pending (f : List Host.Cell → List Host.Cell) (s : State) : (onPlanes f s).pending = s.pending := rfl

/-! ## onCanvas -/

@[simp] theorem onCanvas_clk (f : List (Nat × BitVec 72) → List (Nat × BitVec 72)) (s : State) : (onCanvas f s).clk = s.clk := rfl
@[simp] theorem onCanvas_cfg (f : List (Nat × BitVec 72) → List (Nat × BitVec 72)) (s : State) : (onCanvas f s).cfg = s.cfg := rfl
@[simp] theorem onCanvas_pendLv (f : List (Nat × BitVec 72) → List (Nat × BitVec 72)) (s : State) : (onCanvas f s).pendLv = s.pendLv := rfl
@[simp] theorem onCanvas_openSet (f : List (Nat × BitVec 72) → List (Nat × BitVec 72)) (s : State) : (onCanvas f s).openSet = s.openSet := rfl
@[simp] theorem onCanvas_com (f : List (Nat × BitVec 72) → List (Nat × BitVec 72)) (s : State) : (onCanvas f s).com = s.com := rfl
@[simp] theorem onCanvas_comp (f : List (Nat × BitVec 72) → List (Nat × BitVec 72)) (s : State) : (onCanvas f s).comp = s.comp := rfl
@[simp] theorem onCanvas_heads (f : List (Nat × BitVec 72) → List (Nat × BitVec 72)) (s : State) : (onCanvas f s).heads = s.heads := rfl
@[simp] theorem onCanvas_links (f : List (Nat × BitVec 72) → List (Nat × BitVec 72)) (s : State) : (onCanvas f s).links = s.links := rfl
@[simp] theorem onCanvas_rasters (f : List (Nat × BitVec 72) → List (Nat × BitVec 72)) (s : State) : (onCanvas f s).rasters = s.rasters := rfl
@[simp] theorem onCanvas_chans (f : List (Nat × BitVec 72) → List (Nat × BitVec 72)) (s : State) : (onCanvas f s).chans = s.chans := rfl
@[simp] theorem onCanvas_loops (f : List (Nat × BitVec 72) → List (Nat × BitVec 72)) (s : State) : (onCanvas f s).loops = s.loops := rfl
@[simp] theorem onCanvas_oss (f : List (Nat × BitVec 72) → List (Nat × BitVec 72)) (s : State) : (onCanvas f s).oss = s.oss := rfl
@[simp] theorem onCanvas_lines (f : List (Nat × BitVec 72) → List (Nat × BitVec 72)) (s : State) : (onCanvas f s).lines = s.lines := rfl
@[simp] theorem onCanvas_sluice (f : List (Nat × BitVec 72) → List (Nat × BitVec 72)) (s : State) : (onCanvas f s).sluice = s.sluice := rfl
@[simp] theorem onCanvas_therm (f : List (Nat × BitVec 72) → List (Nat × BitVec 72)) (s : State) : (onCanvas f s).therm = s.therm := rfl
@[simp] theorem onCanvas_safety (f : List (Nat × BitVec 72) → List (Nat × BitVec 72)) (s : State) : (onCanvas f s).safety = s.safety := rfl
@[simp] theorem onCanvas_cxl (f : List (Nat × BitVec 72) → List (Nat × BitVec 72)) (s : State) : (onCanvas f s).cxl = s.cxl := rfl
@[simp] theorem onCanvas_queues (f : List (Nat × BitVec 72) → List (Nat × BitVec 72)) (s : State) : (onCanvas f s).queues = s.queues := rfl
@[simp] theorem onCanvas_ev (f : List (Nat × BitVec 72) → List (Nat × BitVec 72)) (s : State) : (onCanvas f s).ev = s.ev := rfl
@[simp] theorem onCanvas_boot (f : List (Nat × BitVec 72) → List (Nat × BitVec 72)) (s : State) : (onCanvas f s).boot = s.boot := rfl
@[simp] theorem onCanvas_power (f : List (Nat × BitVec 72) → List (Nat × BitVec 72)) (s : State) : (onCanvas f s).power = s.power := rfl
@[simp] theorem onCanvas_otp (f : List (Nat × BitVec 72) → List (Nat × BitVec 72)) (s : State) : (onCanvas f s).otp = s.otp := rfl
@[simp] theorem onCanvas_cal (f : List (Nat × BitVec 72) → List (Nat × BitVec 72)) (s : State) : (onCanvas f s).cal = s.cal := rfl
@[simp] theorem onCanvas_flash (f : List (Nat × BitVec 72) → List (Nat × BitVec 72)) (s : State) : (onCanvas f s).flash = s.flash := rfl
@[simp] theorem onCanvas_upd (f : List (Nat × BitVec 72) → List (Nat × BitVec 72)) (s : State) : (onCanvas f s).upd = s.upd := rfl
@[simp] theorem onCanvas_cw (f : List (Nat × BitVec 72) → List (Nat × BitVec 72)) (s : State) : (onCanvas f s).cw = s.cw := rfl
@[simp] theorem onCanvas_jtag (f : List (Nat × BitVec 72) → List (Nat × BitVec 72)) (s : State) : (onCanvas f s).jtag = s.jtag := rfl
@[simp] theorem onCanvas_bar2 (f : List (Nat × BitVec 72) → List (Nat × BitVec 72)) (s : State) : (onCanvas f s).bar2 = s.bar2 := rfl
@[simp] theorem onCanvas_planes (f : List (Nat × BitVec 72) → List (Nat × BitVec 72)) (s : State) : (onCanvas f s).planes = s.planes := rfl
@[simp] theorem onCanvas_canvas (f : List (Nat × BitVec 72) → List (Nat × BitVec 72)) (s : State) : (onCanvas f s).canvas = f s.canvas := rfl
@[simp] theorem onCanvas_mirrorGen (f : List (Nat × BitVec 72) → List (Nat × BitVec 72)) (s : State) : (onCanvas f s).mirrorGen = s.mirrorGen := rfl
@[simp] theorem onCanvas_out (f : List (Nat × BitVec 72) → List (Nat × BitVec 72)) (s : State) : (onCanvas f s).out = s.out := rfl
@[simp] theorem onCanvas_free (f : List (Nat × BitVec 72) → List (Nat × BitVec 72)) (s : State) : (onCanvas f s).free = s.free := rfl
@[simp] theorem onCanvas_pending (f : List (Nat × BitVec 72) → List (Nat × BitVec 72)) (s : State) : (onCanvas f s).pending = s.pending := rfl

/-! ## onMirrorGen -/

@[simp] theorem onMirrorGen_clk (f : Nat → Nat) (s : State) : (onMirrorGen f s).clk = s.clk := rfl
@[simp] theorem onMirrorGen_cfg (f : Nat → Nat) (s : State) : (onMirrorGen f s).cfg = s.cfg := rfl
@[simp] theorem onMirrorGen_pendLv (f : Nat → Nat) (s : State) : (onMirrorGen f s).pendLv = s.pendLv := rfl
@[simp] theorem onMirrorGen_openSet (f : Nat → Nat) (s : State) : (onMirrorGen f s).openSet = s.openSet := rfl
@[simp] theorem onMirrorGen_com (f : Nat → Nat) (s : State) : (onMirrorGen f s).com = s.com := rfl
@[simp] theorem onMirrorGen_comp (f : Nat → Nat) (s : State) : (onMirrorGen f s).comp = s.comp := rfl
@[simp] theorem onMirrorGen_heads (f : Nat → Nat) (s : State) : (onMirrorGen f s).heads = s.heads := rfl
@[simp] theorem onMirrorGen_links (f : Nat → Nat) (s : State) : (onMirrorGen f s).links = s.links := rfl
@[simp] theorem onMirrorGen_rasters (f : Nat → Nat) (s : State) : (onMirrorGen f s).rasters = s.rasters := rfl
@[simp] theorem onMirrorGen_chans (f : Nat → Nat) (s : State) : (onMirrorGen f s).chans = s.chans := rfl
@[simp] theorem onMirrorGen_loops (f : Nat → Nat) (s : State) : (onMirrorGen f s).loops = s.loops := rfl
@[simp] theorem onMirrorGen_oss (f : Nat → Nat) (s : State) : (onMirrorGen f s).oss = s.oss := rfl
@[simp] theorem onMirrorGen_lines (f : Nat → Nat) (s : State) : (onMirrorGen f s).lines = s.lines := rfl
@[simp] theorem onMirrorGen_sluice (f : Nat → Nat) (s : State) : (onMirrorGen f s).sluice = s.sluice := rfl
@[simp] theorem onMirrorGen_therm (f : Nat → Nat) (s : State) : (onMirrorGen f s).therm = s.therm := rfl
@[simp] theorem onMirrorGen_safety (f : Nat → Nat) (s : State) : (onMirrorGen f s).safety = s.safety := rfl
@[simp] theorem onMirrorGen_cxl (f : Nat → Nat) (s : State) : (onMirrorGen f s).cxl = s.cxl := rfl
@[simp] theorem onMirrorGen_queues (f : Nat → Nat) (s : State) : (onMirrorGen f s).queues = s.queues := rfl
@[simp] theorem onMirrorGen_ev (f : Nat → Nat) (s : State) : (onMirrorGen f s).ev = s.ev := rfl
@[simp] theorem onMirrorGen_boot (f : Nat → Nat) (s : State) : (onMirrorGen f s).boot = s.boot := rfl
@[simp] theorem onMirrorGen_power (f : Nat → Nat) (s : State) : (onMirrorGen f s).power = s.power := rfl
@[simp] theorem onMirrorGen_otp (f : Nat → Nat) (s : State) : (onMirrorGen f s).otp = s.otp := rfl
@[simp] theorem onMirrorGen_cal (f : Nat → Nat) (s : State) : (onMirrorGen f s).cal = s.cal := rfl
@[simp] theorem onMirrorGen_flash (f : Nat → Nat) (s : State) : (onMirrorGen f s).flash = s.flash := rfl
@[simp] theorem onMirrorGen_upd (f : Nat → Nat) (s : State) : (onMirrorGen f s).upd = s.upd := rfl
@[simp] theorem onMirrorGen_cw (f : Nat → Nat) (s : State) : (onMirrorGen f s).cw = s.cw := rfl
@[simp] theorem onMirrorGen_jtag (f : Nat → Nat) (s : State) : (onMirrorGen f s).jtag = s.jtag := rfl
@[simp] theorem onMirrorGen_bar2 (f : Nat → Nat) (s : State) : (onMirrorGen f s).bar2 = s.bar2 := rfl
@[simp] theorem onMirrorGen_planes (f : Nat → Nat) (s : State) : (onMirrorGen f s).planes = s.planes := rfl
@[simp] theorem onMirrorGen_canvas (f : Nat → Nat) (s : State) : (onMirrorGen f s).canvas = s.canvas := rfl
@[simp] theorem onMirrorGen_mirrorGen (f : Nat → Nat) (s : State) : (onMirrorGen f s).mirrorGen = f s.mirrorGen := rfl
@[simp] theorem onMirrorGen_out (f : Nat → Nat) (s : State) : (onMirrorGen f s).out = s.out := rfl
@[simp] theorem onMirrorGen_free (f : Nat → Nat) (s : State) : (onMirrorGen f s).free = s.free := rfl
@[simp] theorem onMirrorGen_pending (f : Nat → Nat) (s : State) : (onMirrorGen f s).pending = s.pending := rfl

/-! ## onFree -/

@[simp] theorem onFree_clk (f : Nat → Nat) (s : State) : (onFree f s).clk = s.clk := rfl
@[simp] theorem onFree_cfg (f : Nat → Nat) (s : State) : (onFree f s).cfg = s.cfg := rfl
@[simp] theorem onFree_pendLv (f : Nat → Nat) (s : State) : (onFree f s).pendLv = s.pendLv := rfl
@[simp] theorem onFree_openSet (f : Nat → Nat) (s : State) : (onFree f s).openSet = s.openSet := rfl
@[simp] theorem onFree_com (f : Nat → Nat) (s : State) : (onFree f s).com = s.com := rfl
@[simp] theorem onFree_comp (f : Nat → Nat) (s : State) : (onFree f s).comp = s.comp := rfl
@[simp] theorem onFree_heads (f : Nat → Nat) (s : State) : (onFree f s).heads = s.heads := rfl
@[simp] theorem onFree_links (f : Nat → Nat) (s : State) : (onFree f s).links = s.links := rfl
@[simp] theorem onFree_rasters (f : Nat → Nat) (s : State) : (onFree f s).rasters = s.rasters := rfl
@[simp] theorem onFree_chans (f : Nat → Nat) (s : State) : (onFree f s).chans = s.chans := rfl
@[simp] theorem onFree_loops (f : Nat → Nat) (s : State) : (onFree f s).loops = s.loops := rfl
@[simp] theorem onFree_oss (f : Nat → Nat) (s : State) : (onFree f s).oss = s.oss := rfl
@[simp] theorem onFree_lines (f : Nat → Nat) (s : State) : (onFree f s).lines = s.lines := rfl
@[simp] theorem onFree_sluice (f : Nat → Nat) (s : State) : (onFree f s).sluice = s.sluice := rfl
@[simp] theorem onFree_therm (f : Nat → Nat) (s : State) : (onFree f s).therm = s.therm := rfl
@[simp] theorem onFree_safety (f : Nat → Nat) (s : State) : (onFree f s).safety = s.safety := rfl
@[simp] theorem onFree_cxl (f : Nat → Nat) (s : State) : (onFree f s).cxl = s.cxl := rfl
@[simp] theorem onFree_queues (f : Nat → Nat) (s : State) : (onFree f s).queues = s.queues := rfl
@[simp] theorem onFree_ev (f : Nat → Nat) (s : State) : (onFree f s).ev = s.ev := rfl
@[simp] theorem onFree_boot (f : Nat → Nat) (s : State) : (onFree f s).boot = s.boot := rfl
@[simp] theorem onFree_power (f : Nat → Nat) (s : State) : (onFree f s).power = s.power := rfl
@[simp] theorem onFree_otp (f : Nat → Nat) (s : State) : (onFree f s).otp = s.otp := rfl
@[simp] theorem onFree_cal (f : Nat → Nat) (s : State) : (onFree f s).cal = s.cal := rfl
@[simp] theorem onFree_flash (f : Nat → Nat) (s : State) : (onFree f s).flash = s.flash := rfl
@[simp] theorem onFree_upd (f : Nat → Nat) (s : State) : (onFree f s).upd = s.upd := rfl
@[simp] theorem onFree_cw (f : Nat → Nat) (s : State) : (onFree f s).cw = s.cw := rfl
@[simp] theorem onFree_jtag (f : Nat → Nat) (s : State) : (onFree f s).jtag = s.jtag := rfl
@[simp] theorem onFree_bar2 (f : Nat → Nat) (s : State) : (onFree f s).bar2 = s.bar2 := rfl
@[simp] theorem onFree_planes (f : Nat → Nat) (s : State) : (onFree f s).planes = s.planes := rfl
@[simp] theorem onFree_canvas (f : Nat → Nat) (s : State) : (onFree f s).canvas = s.canvas := rfl
@[simp] theorem onFree_mirrorGen (f : Nat → Nat) (s : State) : (onFree f s).mirrorGen = s.mirrorGen := rfl
@[simp] theorem onFree_out (f : Nat → Nat) (s : State) : (onFree f s).out = s.out := rfl
@[simp] theorem onFree_free (f : Nat → Nat) (s : State) : (onFree f s).free = f s.free := rfl
@[simp] theorem onFree_pending (f : Nat → Nat) (s : State) : (onFree f s).pending = s.pending := rfl

/-! ## onOpenSet -/

@[simp] theorem onOpenSet_clk (f : List CfgWrite → List CfgWrite) (s : State) : (onOpenSet f s).clk = s.clk := rfl
@[simp] theorem onOpenSet_cfg (f : List CfgWrite → List CfgWrite) (s : State) : (onOpenSet f s).cfg = s.cfg := rfl
@[simp] theorem onOpenSet_pendLv (f : List CfgWrite → List CfgWrite) (s : State) : (onOpenSet f s).pendLv = s.pendLv := rfl
@[simp] theorem onOpenSet_openSet (f : List CfgWrite → List CfgWrite) (s : State) : (onOpenSet f s).openSet = f s.openSet := rfl
@[simp] theorem onOpenSet_com (f : List CfgWrite → List CfgWrite) (s : State) : (onOpenSet f s).com = s.com := rfl
@[simp] theorem onOpenSet_comp (f : List CfgWrite → List CfgWrite) (s : State) : (onOpenSet f s).comp = s.comp := rfl
@[simp] theorem onOpenSet_heads (f : List CfgWrite → List CfgWrite) (s : State) : (onOpenSet f s).heads = s.heads := rfl
@[simp] theorem onOpenSet_links (f : List CfgWrite → List CfgWrite) (s : State) : (onOpenSet f s).links = s.links := rfl
@[simp] theorem onOpenSet_rasters (f : List CfgWrite → List CfgWrite) (s : State) : (onOpenSet f s).rasters = s.rasters := rfl
@[simp] theorem onOpenSet_chans (f : List CfgWrite → List CfgWrite) (s : State) : (onOpenSet f s).chans = s.chans := rfl
@[simp] theorem onOpenSet_loops (f : List CfgWrite → List CfgWrite) (s : State) : (onOpenSet f s).loops = s.loops := rfl
@[simp] theorem onOpenSet_oss (f : List CfgWrite → List CfgWrite) (s : State) : (onOpenSet f s).oss = s.oss := rfl
@[simp] theorem onOpenSet_lines (f : List CfgWrite → List CfgWrite) (s : State) : (onOpenSet f s).lines = s.lines := rfl
@[simp] theorem onOpenSet_sluice (f : List CfgWrite → List CfgWrite) (s : State) : (onOpenSet f s).sluice = s.sluice := rfl
@[simp] theorem onOpenSet_therm (f : List CfgWrite → List CfgWrite) (s : State) : (onOpenSet f s).therm = s.therm := rfl
@[simp] theorem onOpenSet_safety (f : List CfgWrite → List CfgWrite) (s : State) : (onOpenSet f s).safety = s.safety := rfl
@[simp] theorem onOpenSet_cxl (f : List CfgWrite → List CfgWrite) (s : State) : (onOpenSet f s).cxl = s.cxl := rfl
@[simp] theorem onOpenSet_queues (f : List CfgWrite → List CfgWrite) (s : State) : (onOpenSet f s).queues = s.queues := rfl
@[simp] theorem onOpenSet_ev (f : List CfgWrite → List CfgWrite) (s : State) : (onOpenSet f s).ev = s.ev := rfl
@[simp] theorem onOpenSet_boot (f : List CfgWrite → List CfgWrite) (s : State) : (onOpenSet f s).boot = s.boot := rfl
@[simp] theorem onOpenSet_power (f : List CfgWrite → List CfgWrite) (s : State) : (onOpenSet f s).power = s.power := rfl
@[simp] theorem onOpenSet_otp (f : List CfgWrite → List CfgWrite) (s : State) : (onOpenSet f s).otp = s.otp := rfl
@[simp] theorem onOpenSet_cal (f : List CfgWrite → List CfgWrite) (s : State) : (onOpenSet f s).cal = s.cal := rfl
@[simp] theorem onOpenSet_flash (f : List CfgWrite → List CfgWrite) (s : State) : (onOpenSet f s).flash = s.flash := rfl
@[simp] theorem onOpenSet_upd (f : List CfgWrite → List CfgWrite) (s : State) : (onOpenSet f s).upd = s.upd := rfl
@[simp] theorem onOpenSet_cw (f : List CfgWrite → List CfgWrite) (s : State) : (onOpenSet f s).cw = s.cw := rfl
@[simp] theorem onOpenSet_jtag (f : List CfgWrite → List CfgWrite) (s : State) : (onOpenSet f s).jtag = s.jtag := rfl
@[simp] theorem onOpenSet_bar2 (f : List CfgWrite → List CfgWrite) (s : State) : (onOpenSet f s).bar2 = s.bar2 := rfl
@[simp] theorem onOpenSet_planes (f : List CfgWrite → List CfgWrite) (s : State) : (onOpenSet f s).planes = s.planes := rfl
@[simp] theorem onOpenSet_canvas (f : List CfgWrite → List CfgWrite) (s : State) : (onOpenSet f s).canvas = s.canvas := rfl
@[simp] theorem onOpenSet_mirrorGen (f : List CfgWrite → List CfgWrite) (s : State) : (onOpenSet f s).mirrorGen = s.mirrorGen := rfl
@[simp] theorem onOpenSet_out (f : List CfgWrite → List CfgWrite) (s : State) : (onOpenSet f s).out = s.out := rfl
@[simp] theorem onOpenSet_free (f : List CfgWrite → List CfgWrite) (s : State) : (onOpenSet f s).free = s.free := rfl
@[simp] theorem onOpenSet_pending (f : List CfgWrite → List CfgWrite) (s : State) : (onOpenSet f s).pending = s.pending := rfl

/-! ## onPendLv -/

@[simp] theorem onPendLv_clk (f : List CfgWrite → List CfgWrite) (s : State) : (onPendLv f s).clk = s.clk := rfl
@[simp] theorem onPendLv_cfg (f : List CfgWrite → List CfgWrite) (s : State) : (onPendLv f s).cfg = s.cfg := rfl
@[simp] theorem onPendLv_pendLv (f : List CfgWrite → List CfgWrite) (s : State) : (onPendLv f s).pendLv = f s.pendLv := rfl
@[simp] theorem onPendLv_openSet (f : List CfgWrite → List CfgWrite) (s : State) : (onPendLv f s).openSet = s.openSet := rfl
@[simp] theorem onPendLv_com (f : List CfgWrite → List CfgWrite) (s : State) : (onPendLv f s).com = s.com := rfl
@[simp] theorem onPendLv_comp (f : List CfgWrite → List CfgWrite) (s : State) : (onPendLv f s).comp = s.comp := rfl
@[simp] theorem onPendLv_heads (f : List CfgWrite → List CfgWrite) (s : State) : (onPendLv f s).heads = s.heads := rfl
@[simp] theorem onPendLv_links (f : List CfgWrite → List CfgWrite) (s : State) : (onPendLv f s).links = s.links := rfl
@[simp] theorem onPendLv_rasters (f : List CfgWrite → List CfgWrite) (s : State) : (onPendLv f s).rasters = s.rasters := rfl
@[simp] theorem onPendLv_chans (f : List CfgWrite → List CfgWrite) (s : State) : (onPendLv f s).chans = s.chans := rfl
@[simp] theorem onPendLv_loops (f : List CfgWrite → List CfgWrite) (s : State) : (onPendLv f s).loops = s.loops := rfl
@[simp] theorem onPendLv_oss (f : List CfgWrite → List CfgWrite) (s : State) : (onPendLv f s).oss = s.oss := rfl
@[simp] theorem onPendLv_lines (f : List CfgWrite → List CfgWrite) (s : State) : (onPendLv f s).lines = s.lines := rfl
@[simp] theorem onPendLv_sluice (f : List CfgWrite → List CfgWrite) (s : State) : (onPendLv f s).sluice = s.sluice := rfl
@[simp] theorem onPendLv_therm (f : List CfgWrite → List CfgWrite) (s : State) : (onPendLv f s).therm = s.therm := rfl
@[simp] theorem onPendLv_safety (f : List CfgWrite → List CfgWrite) (s : State) : (onPendLv f s).safety = s.safety := rfl
@[simp] theorem onPendLv_cxl (f : List CfgWrite → List CfgWrite) (s : State) : (onPendLv f s).cxl = s.cxl := rfl
@[simp] theorem onPendLv_queues (f : List CfgWrite → List CfgWrite) (s : State) : (onPendLv f s).queues = s.queues := rfl
@[simp] theorem onPendLv_ev (f : List CfgWrite → List CfgWrite) (s : State) : (onPendLv f s).ev = s.ev := rfl
@[simp] theorem onPendLv_boot (f : List CfgWrite → List CfgWrite) (s : State) : (onPendLv f s).boot = s.boot := rfl
@[simp] theorem onPendLv_power (f : List CfgWrite → List CfgWrite) (s : State) : (onPendLv f s).power = s.power := rfl
@[simp] theorem onPendLv_otp (f : List CfgWrite → List CfgWrite) (s : State) : (onPendLv f s).otp = s.otp := rfl
@[simp] theorem onPendLv_cal (f : List CfgWrite → List CfgWrite) (s : State) : (onPendLv f s).cal = s.cal := rfl
@[simp] theorem onPendLv_flash (f : List CfgWrite → List CfgWrite) (s : State) : (onPendLv f s).flash = s.flash := rfl
@[simp] theorem onPendLv_upd (f : List CfgWrite → List CfgWrite) (s : State) : (onPendLv f s).upd = s.upd := rfl
@[simp] theorem onPendLv_cw (f : List CfgWrite → List CfgWrite) (s : State) : (onPendLv f s).cw = s.cw := rfl
@[simp] theorem onPendLv_jtag (f : List CfgWrite → List CfgWrite) (s : State) : (onPendLv f s).jtag = s.jtag := rfl
@[simp] theorem onPendLv_bar2 (f : List CfgWrite → List CfgWrite) (s : State) : (onPendLv f s).bar2 = s.bar2 := rfl
@[simp] theorem onPendLv_planes (f : List CfgWrite → List CfgWrite) (s : State) : (onPendLv f s).planes = s.planes := rfl
@[simp] theorem onPendLv_canvas (f : List CfgWrite → List CfgWrite) (s : State) : (onPendLv f s).canvas = s.canvas := rfl
@[simp] theorem onPendLv_mirrorGen (f : List CfgWrite → List CfgWrite) (s : State) : (onPendLv f s).mirrorGen = s.mirrorGen := rfl
@[simp] theorem onPendLv_out (f : List CfgWrite → List CfgWrite) (s : State) : (onPendLv f s).out = s.out := rfl
@[simp] theorem onPendLv_free (f : List CfgWrite → List CfgWrite) (s : State) : (onPendLv f s).free = s.free := rfl
@[simp] theorem onPendLv_pending (f : List CfgWrite → List CfgWrite) (s : State) : (onPendLv f s).pending = s.pending := rfl

/-! ## onHead -/

@[simp] theorem onHead_clk (h : Head) (f : HeadDyn → HeadDyn) (s : State) : (onHead h f s).clk = s.clk := rfl
@[simp] theorem onHead_cfg (h : Head) (f : HeadDyn → HeadDyn) (s : State) : (onHead h f s).cfg = s.cfg := rfl
@[simp] theorem onHead_pendLv (h : Head) (f : HeadDyn → HeadDyn) (s : State) : (onHead h f s).pendLv = s.pendLv := rfl
@[simp] theorem onHead_openSet (h : Head) (f : HeadDyn → HeadDyn) (s : State) : (onHead h f s).openSet = s.openSet := rfl
@[simp] theorem onHead_com (h : Head) (f : HeadDyn → HeadDyn) (s : State) : (onHead h f s).com = s.com := rfl
@[simp] theorem onHead_comp (h : Head) (f : HeadDyn → HeadDyn) (s : State) : (onHead h f s).comp = s.comp := rfl
@[simp] theorem onHead_heads (h : Head) (f : HeadDyn → HeadDyn) (s : State) : (onHead h f s).heads = upd s.heads h f := rfl
@[simp] theorem onHead_links (h : Head) (f : HeadDyn → HeadDyn) (s : State) : (onHead h f s).links = s.links := rfl
@[simp] theorem onHead_rasters (h : Head) (f : HeadDyn → HeadDyn) (s : State) : (onHead h f s).rasters = s.rasters := rfl
@[simp] theorem onHead_chans (h : Head) (f : HeadDyn → HeadDyn) (s : State) : (onHead h f s).chans = s.chans := rfl
@[simp] theorem onHead_loops (h : Head) (f : HeadDyn → HeadDyn) (s : State) : (onHead h f s).loops = s.loops := rfl
@[simp] theorem onHead_oss (h : Head) (f : HeadDyn → HeadDyn) (s : State) : (onHead h f s).oss = s.oss := rfl
@[simp] theorem onHead_lines (h : Head) (f : HeadDyn → HeadDyn) (s : State) : (onHead h f s).lines = s.lines := rfl
@[simp] theorem onHead_sluice (h : Head) (f : HeadDyn → HeadDyn) (s : State) : (onHead h f s).sluice = s.sluice := rfl
@[simp] theorem onHead_therm (h : Head) (f : HeadDyn → HeadDyn) (s : State) : (onHead h f s).therm = s.therm := rfl
@[simp] theorem onHead_safety (h : Head) (f : HeadDyn → HeadDyn) (s : State) : (onHead h f s).safety = s.safety := rfl
@[simp] theorem onHead_cxl (h : Head) (f : HeadDyn → HeadDyn) (s : State) : (onHead h f s).cxl = s.cxl := rfl
@[simp] theorem onHead_queues (h : Head) (f : HeadDyn → HeadDyn) (s : State) : (onHead h f s).queues = s.queues := rfl
@[simp] theorem onHead_ev (h : Head) (f : HeadDyn → HeadDyn) (s : State) : (onHead h f s).ev = s.ev := rfl
@[simp] theorem onHead_boot (h : Head) (f : HeadDyn → HeadDyn) (s : State) : (onHead h f s).boot = s.boot := rfl
@[simp] theorem onHead_power (h : Head) (f : HeadDyn → HeadDyn) (s : State) : (onHead h f s).power = s.power := rfl
@[simp] theorem onHead_otp (h : Head) (f : HeadDyn → HeadDyn) (s : State) : (onHead h f s).otp = s.otp := rfl
@[simp] theorem onHead_cal (h : Head) (f : HeadDyn → HeadDyn) (s : State) : (onHead h f s).cal = s.cal := rfl
@[simp] theorem onHead_flash (h : Head) (f : HeadDyn → HeadDyn) (s : State) : (onHead h f s).flash = s.flash := rfl
@[simp] theorem onHead_upd (h : Head) (f : HeadDyn → HeadDyn) (s : State) : (onHead h f s).upd = s.upd := rfl
@[simp] theorem onHead_cw (h : Head) (f : HeadDyn → HeadDyn) (s : State) : (onHead h f s).cw = s.cw := rfl
@[simp] theorem onHead_jtag (h : Head) (f : HeadDyn → HeadDyn) (s : State) : (onHead h f s).jtag = s.jtag := rfl
@[simp] theorem onHead_bar2 (h : Head) (f : HeadDyn → HeadDyn) (s : State) : (onHead h f s).bar2 = s.bar2 := rfl
@[simp] theorem onHead_planes (h : Head) (f : HeadDyn → HeadDyn) (s : State) : (onHead h f s).planes = s.planes := rfl
@[simp] theorem onHead_canvas (h : Head) (f : HeadDyn → HeadDyn) (s : State) : (onHead h f s).canvas = s.canvas := rfl
@[simp] theorem onHead_mirrorGen (h : Head) (f : HeadDyn → HeadDyn) (s : State) : (onHead h f s).mirrorGen = s.mirrorGen := rfl
@[simp] theorem onHead_out (h : Head) (f : HeadDyn → HeadDyn) (s : State) : (onHead h f s).out = s.out := rfl
@[simp] theorem onHead_free (h : Head) (f : HeadDyn → HeadDyn) (s : State) : (onHead h f s).free = s.free := rfl
@[simp] theorem onHead_pending (h : Head) (f : HeadDyn → HeadDyn) (s : State) : (onHead h f s).pending = s.pending := rfl

/-! ## onLink -/

@[simp] theorem onLink_clk (g : Head) (f : LinkDyn → LinkDyn) (s : State) : (onLink g f s).clk = s.clk := rfl
@[simp] theorem onLink_cfg (g : Head) (f : LinkDyn → LinkDyn) (s : State) : (onLink g f s).cfg = s.cfg := rfl
@[simp] theorem onLink_pendLv (g : Head) (f : LinkDyn → LinkDyn) (s : State) : (onLink g f s).pendLv = s.pendLv := rfl
@[simp] theorem onLink_openSet (g : Head) (f : LinkDyn → LinkDyn) (s : State) : (onLink g f s).openSet = s.openSet := rfl
@[simp] theorem onLink_com (g : Head) (f : LinkDyn → LinkDyn) (s : State) : (onLink g f s).com = s.com := rfl
@[simp] theorem onLink_comp (g : Head) (f : LinkDyn → LinkDyn) (s : State) : (onLink g f s).comp = s.comp := rfl
@[simp] theorem onLink_heads (g : Head) (f : LinkDyn → LinkDyn) (s : State) : (onLink g f s).heads = s.heads := rfl
@[simp] theorem onLink_links (g : Head) (f : LinkDyn → LinkDyn) (s : State) : (onLink g f s).links = upd s.links g f := rfl
@[simp] theorem onLink_rasters (g : Head) (f : LinkDyn → LinkDyn) (s : State) : (onLink g f s).rasters = s.rasters := rfl
@[simp] theorem onLink_chans (g : Head) (f : LinkDyn → LinkDyn) (s : State) : (onLink g f s).chans = s.chans := rfl
@[simp] theorem onLink_loops (g : Head) (f : LinkDyn → LinkDyn) (s : State) : (onLink g f s).loops = s.loops := rfl
@[simp] theorem onLink_oss (g : Head) (f : LinkDyn → LinkDyn) (s : State) : (onLink g f s).oss = s.oss := rfl
@[simp] theorem onLink_lines (g : Head) (f : LinkDyn → LinkDyn) (s : State) : (onLink g f s).lines = s.lines := rfl
@[simp] theorem onLink_sluice (g : Head) (f : LinkDyn → LinkDyn) (s : State) : (onLink g f s).sluice = s.sluice := rfl
@[simp] theorem onLink_therm (g : Head) (f : LinkDyn → LinkDyn) (s : State) : (onLink g f s).therm = s.therm := rfl
@[simp] theorem onLink_safety (g : Head) (f : LinkDyn → LinkDyn) (s : State) : (onLink g f s).safety = s.safety := rfl
@[simp] theorem onLink_cxl (g : Head) (f : LinkDyn → LinkDyn) (s : State) : (onLink g f s).cxl = s.cxl := rfl
@[simp] theorem onLink_queues (g : Head) (f : LinkDyn → LinkDyn) (s : State) : (onLink g f s).queues = s.queues := rfl
@[simp] theorem onLink_ev (g : Head) (f : LinkDyn → LinkDyn) (s : State) : (onLink g f s).ev = s.ev := rfl
@[simp] theorem onLink_boot (g : Head) (f : LinkDyn → LinkDyn) (s : State) : (onLink g f s).boot = s.boot := rfl
@[simp] theorem onLink_power (g : Head) (f : LinkDyn → LinkDyn) (s : State) : (onLink g f s).power = s.power := rfl
@[simp] theorem onLink_otp (g : Head) (f : LinkDyn → LinkDyn) (s : State) : (onLink g f s).otp = s.otp := rfl
@[simp] theorem onLink_cal (g : Head) (f : LinkDyn → LinkDyn) (s : State) : (onLink g f s).cal = s.cal := rfl
@[simp] theorem onLink_flash (g : Head) (f : LinkDyn → LinkDyn) (s : State) : (onLink g f s).flash = s.flash := rfl
@[simp] theorem onLink_upd (g : Head) (f : LinkDyn → LinkDyn) (s : State) : (onLink g f s).upd = s.upd := rfl
@[simp] theorem onLink_cw (g : Head) (f : LinkDyn → LinkDyn) (s : State) : (onLink g f s).cw = s.cw := rfl
@[simp] theorem onLink_jtag (g : Head) (f : LinkDyn → LinkDyn) (s : State) : (onLink g f s).jtag = s.jtag := rfl
@[simp] theorem onLink_bar2 (g : Head) (f : LinkDyn → LinkDyn) (s : State) : (onLink g f s).bar2 = s.bar2 := rfl
@[simp] theorem onLink_planes (g : Head) (f : LinkDyn → LinkDyn) (s : State) : (onLink g f s).planes = s.planes := rfl
@[simp] theorem onLink_canvas (g : Head) (f : LinkDyn → LinkDyn) (s : State) : (onLink g f s).canvas = s.canvas := rfl
@[simp] theorem onLink_mirrorGen (g : Head) (f : LinkDyn → LinkDyn) (s : State) : (onLink g f s).mirrorGen = s.mirrorGen := rfl
@[simp] theorem onLink_out (g : Head) (f : LinkDyn → LinkDyn) (s : State) : (onLink g f s).out = s.out := rfl
@[simp] theorem onLink_free (g : Head) (f : LinkDyn → LinkDyn) (s : State) : (onLink g f s).free = s.free := rfl
@[simp] theorem onLink_pending (g : Head) (f : LinkDyn → LinkDyn) (s : State) : (onLink g f s).pending = s.pending := rfl

/-! ## onRaster -/

@[simp] theorem onRaster_clk (h : Head) (f : RasterDyn → RasterDyn) (s : State) : (onRaster h f s).clk = s.clk := rfl
@[simp] theorem onRaster_cfg (h : Head) (f : RasterDyn → RasterDyn) (s : State) : (onRaster h f s).cfg = s.cfg := rfl
@[simp] theorem onRaster_pendLv (h : Head) (f : RasterDyn → RasterDyn) (s : State) : (onRaster h f s).pendLv = s.pendLv := rfl
@[simp] theorem onRaster_openSet (h : Head) (f : RasterDyn → RasterDyn) (s : State) : (onRaster h f s).openSet = s.openSet := rfl
@[simp] theorem onRaster_com (h : Head) (f : RasterDyn → RasterDyn) (s : State) : (onRaster h f s).com = s.com := rfl
@[simp] theorem onRaster_comp (h : Head) (f : RasterDyn → RasterDyn) (s : State) : (onRaster h f s).comp = s.comp := rfl
@[simp] theorem onRaster_heads (h : Head) (f : RasterDyn → RasterDyn) (s : State) : (onRaster h f s).heads = s.heads := rfl
@[simp] theorem onRaster_links (h : Head) (f : RasterDyn → RasterDyn) (s : State) : (onRaster h f s).links = s.links := rfl
@[simp] theorem onRaster_rasters (h : Head) (f : RasterDyn → RasterDyn) (s : State) : (onRaster h f s).rasters = upd s.rasters h f := rfl
@[simp] theorem onRaster_chans (h : Head) (f : RasterDyn → RasterDyn) (s : State) : (onRaster h f s).chans = s.chans := rfl
@[simp] theorem onRaster_loops (h : Head) (f : RasterDyn → RasterDyn) (s : State) : (onRaster h f s).loops = s.loops := rfl
@[simp] theorem onRaster_oss (h : Head) (f : RasterDyn → RasterDyn) (s : State) : (onRaster h f s).oss = s.oss := rfl
@[simp] theorem onRaster_lines (h : Head) (f : RasterDyn → RasterDyn) (s : State) : (onRaster h f s).lines = s.lines := rfl
@[simp] theorem onRaster_sluice (h : Head) (f : RasterDyn → RasterDyn) (s : State) : (onRaster h f s).sluice = s.sluice := rfl
@[simp] theorem onRaster_therm (h : Head) (f : RasterDyn → RasterDyn) (s : State) : (onRaster h f s).therm = s.therm := rfl
@[simp] theorem onRaster_safety (h : Head) (f : RasterDyn → RasterDyn) (s : State) : (onRaster h f s).safety = s.safety := rfl
@[simp] theorem onRaster_cxl (h : Head) (f : RasterDyn → RasterDyn) (s : State) : (onRaster h f s).cxl = s.cxl := rfl
@[simp] theorem onRaster_queues (h : Head) (f : RasterDyn → RasterDyn) (s : State) : (onRaster h f s).queues = s.queues := rfl
@[simp] theorem onRaster_ev (h : Head) (f : RasterDyn → RasterDyn) (s : State) : (onRaster h f s).ev = s.ev := rfl
@[simp] theorem onRaster_boot (h : Head) (f : RasterDyn → RasterDyn) (s : State) : (onRaster h f s).boot = s.boot := rfl
@[simp] theorem onRaster_power (h : Head) (f : RasterDyn → RasterDyn) (s : State) : (onRaster h f s).power = s.power := rfl
@[simp] theorem onRaster_otp (h : Head) (f : RasterDyn → RasterDyn) (s : State) : (onRaster h f s).otp = s.otp := rfl
@[simp] theorem onRaster_cal (h : Head) (f : RasterDyn → RasterDyn) (s : State) : (onRaster h f s).cal = s.cal := rfl
@[simp] theorem onRaster_flash (h : Head) (f : RasterDyn → RasterDyn) (s : State) : (onRaster h f s).flash = s.flash := rfl
@[simp] theorem onRaster_upd (h : Head) (f : RasterDyn → RasterDyn) (s : State) : (onRaster h f s).upd = s.upd := rfl
@[simp] theorem onRaster_cw (h : Head) (f : RasterDyn → RasterDyn) (s : State) : (onRaster h f s).cw = s.cw := rfl
@[simp] theorem onRaster_jtag (h : Head) (f : RasterDyn → RasterDyn) (s : State) : (onRaster h f s).jtag = s.jtag := rfl
@[simp] theorem onRaster_bar2 (h : Head) (f : RasterDyn → RasterDyn) (s : State) : (onRaster h f s).bar2 = s.bar2 := rfl
@[simp] theorem onRaster_planes (h : Head) (f : RasterDyn → RasterDyn) (s : State) : (onRaster h f s).planes = s.planes := rfl
@[simp] theorem onRaster_canvas (h : Head) (f : RasterDyn → RasterDyn) (s : State) : (onRaster h f s).canvas = s.canvas := rfl
@[simp] theorem onRaster_mirrorGen (h : Head) (f : RasterDyn → RasterDyn) (s : State) : (onRaster h f s).mirrorGen = s.mirrorGen := rfl
@[simp] theorem onRaster_out (h : Head) (f : RasterDyn → RasterDyn) (s : State) : (onRaster h f s).out = s.out := rfl
@[simp] theorem onRaster_free (h : Head) (f : RasterDyn → RasterDyn) (s : State) : (onRaster h f s).free = s.free := rfl
@[simp] theorem onRaster_pending (h : Head) (f : RasterDyn → RasterDyn) (s : State) : (onRaster h f s).pending = s.pending := rfl

/-! ## onChan -/

@[simp] theorem onChan_clk (c : Chan) (f : ChanDyn → ChanDyn) (s : State) : (onChan c f s).clk = s.clk := rfl
@[simp] theorem onChan_cfg (c : Chan) (f : ChanDyn → ChanDyn) (s : State) : (onChan c f s).cfg = s.cfg := rfl
@[simp] theorem onChan_pendLv (c : Chan) (f : ChanDyn → ChanDyn) (s : State) : (onChan c f s).pendLv = s.pendLv := rfl
@[simp] theorem onChan_openSet (c : Chan) (f : ChanDyn → ChanDyn) (s : State) : (onChan c f s).openSet = s.openSet := rfl
@[simp] theorem onChan_com (c : Chan) (f : ChanDyn → ChanDyn) (s : State) : (onChan c f s).com = s.com := rfl
@[simp] theorem onChan_comp (c : Chan) (f : ChanDyn → ChanDyn) (s : State) : (onChan c f s).comp = s.comp := rfl
@[simp] theorem onChan_heads (c : Chan) (f : ChanDyn → ChanDyn) (s : State) : (onChan c f s).heads = s.heads := rfl
@[simp] theorem onChan_links (c : Chan) (f : ChanDyn → ChanDyn) (s : State) : (onChan c f s).links = s.links := rfl
@[simp] theorem onChan_rasters (c : Chan) (f : ChanDyn → ChanDyn) (s : State) : (onChan c f s).rasters = s.rasters := rfl
@[simp] theorem onChan_chans (c : Chan) (f : ChanDyn → ChanDyn) (s : State) : (onChan c f s).chans = upd s.chans c f := rfl
@[simp] theorem onChan_loops (c : Chan) (f : ChanDyn → ChanDyn) (s : State) : (onChan c f s).loops = s.loops := rfl
@[simp] theorem onChan_oss (c : Chan) (f : ChanDyn → ChanDyn) (s : State) : (onChan c f s).oss = s.oss := rfl
@[simp] theorem onChan_lines (c : Chan) (f : ChanDyn → ChanDyn) (s : State) : (onChan c f s).lines = s.lines := rfl
@[simp] theorem onChan_sluice (c : Chan) (f : ChanDyn → ChanDyn) (s : State) : (onChan c f s).sluice = s.sluice := rfl
@[simp] theorem onChan_therm (c : Chan) (f : ChanDyn → ChanDyn) (s : State) : (onChan c f s).therm = s.therm := rfl
@[simp] theorem onChan_safety (c : Chan) (f : ChanDyn → ChanDyn) (s : State) : (onChan c f s).safety = s.safety := rfl
@[simp] theorem onChan_cxl (c : Chan) (f : ChanDyn → ChanDyn) (s : State) : (onChan c f s).cxl = s.cxl := rfl
@[simp] theorem onChan_queues (c : Chan) (f : ChanDyn → ChanDyn) (s : State) : (onChan c f s).queues = s.queues := rfl
@[simp] theorem onChan_ev (c : Chan) (f : ChanDyn → ChanDyn) (s : State) : (onChan c f s).ev = s.ev := rfl
@[simp] theorem onChan_boot (c : Chan) (f : ChanDyn → ChanDyn) (s : State) : (onChan c f s).boot = s.boot := rfl
@[simp] theorem onChan_power (c : Chan) (f : ChanDyn → ChanDyn) (s : State) : (onChan c f s).power = s.power := rfl
@[simp] theorem onChan_otp (c : Chan) (f : ChanDyn → ChanDyn) (s : State) : (onChan c f s).otp = s.otp := rfl
@[simp] theorem onChan_cal (c : Chan) (f : ChanDyn → ChanDyn) (s : State) : (onChan c f s).cal = s.cal := rfl
@[simp] theorem onChan_flash (c : Chan) (f : ChanDyn → ChanDyn) (s : State) : (onChan c f s).flash = s.flash := rfl
@[simp] theorem onChan_upd (c : Chan) (f : ChanDyn → ChanDyn) (s : State) : (onChan c f s).upd = s.upd := rfl
@[simp] theorem onChan_cw (c : Chan) (f : ChanDyn → ChanDyn) (s : State) : (onChan c f s).cw = s.cw := rfl
@[simp] theorem onChan_jtag (c : Chan) (f : ChanDyn → ChanDyn) (s : State) : (onChan c f s).jtag = s.jtag := rfl
@[simp] theorem onChan_bar2 (c : Chan) (f : ChanDyn → ChanDyn) (s : State) : (onChan c f s).bar2 = s.bar2 := rfl
@[simp] theorem onChan_planes (c : Chan) (f : ChanDyn → ChanDyn) (s : State) : (onChan c f s).planes = s.planes := rfl
@[simp] theorem onChan_canvas (c : Chan) (f : ChanDyn → ChanDyn) (s : State) : (onChan c f s).canvas = s.canvas := rfl
@[simp] theorem onChan_mirrorGen (c : Chan) (f : ChanDyn → ChanDyn) (s : State) : (onChan c f s).mirrorGen = s.mirrorGen := rfl
@[simp] theorem onChan_out (c : Chan) (f : ChanDyn → ChanDyn) (s : State) : (onChan c f s).out = s.out := rfl
@[simp] theorem onChan_free (c : Chan) (f : ChanDyn → ChanDyn) (s : State) : (onChan c f s).free = s.free := rfl
@[simp] theorem onChan_pending (c : Chan) (f : ChanDyn → ChanDyn) (s : State) : (onChan c f s).pending = s.pending := rfl

/-! ## onOs -/

@[simp] theorem onOs_clk (i : Fin 8) (f : OsDyn → OsDyn) (s : State) : (onOs i f s).clk = s.clk := rfl
@[simp] theorem onOs_cfg (i : Fin 8) (f : OsDyn → OsDyn) (s : State) : (onOs i f s).cfg = s.cfg := rfl
@[simp] theorem onOs_pendLv (i : Fin 8) (f : OsDyn → OsDyn) (s : State) : (onOs i f s).pendLv = s.pendLv := rfl
@[simp] theorem onOs_openSet (i : Fin 8) (f : OsDyn → OsDyn) (s : State) : (onOs i f s).openSet = s.openSet := rfl
@[simp] theorem onOs_com (i : Fin 8) (f : OsDyn → OsDyn) (s : State) : (onOs i f s).com = s.com := rfl
@[simp] theorem onOs_comp (i : Fin 8) (f : OsDyn → OsDyn) (s : State) : (onOs i f s).comp = s.comp := rfl
@[simp] theorem onOs_heads (i : Fin 8) (f : OsDyn → OsDyn) (s : State) : (onOs i f s).heads = s.heads := rfl
@[simp] theorem onOs_links (i : Fin 8) (f : OsDyn → OsDyn) (s : State) : (onOs i f s).links = s.links := rfl
@[simp] theorem onOs_rasters (i : Fin 8) (f : OsDyn → OsDyn) (s : State) : (onOs i f s).rasters = s.rasters := rfl
@[simp] theorem onOs_chans (i : Fin 8) (f : OsDyn → OsDyn) (s : State) : (onOs i f s).chans = s.chans := rfl
@[simp] theorem onOs_loops (i : Fin 8) (f : OsDyn → OsDyn) (s : State) : (onOs i f s).loops = s.loops := rfl
@[simp] theorem onOs_oss (i : Fin 8) (f : OsDyn → OsDyn) (s : State) : (onOs i f s).oss = upd s.oss i f := rfl
@[simp] theorem onOs_lines (i : Fin 8) (f : OsDyn → OsDyn) (s : State) : (onOs i f s).lines = s.lines := rfl
@[simp] theorem onOs_sluice (i : Fin 8) (f : OsDyn → OsDyn) (s : State) : (onOs i f s).sluice = s.sluice := rfl
@[simp] theorem onOs_therm (i : Fin 8) (f : OsDyn → OsDyn) (s : State) : (onOs i f s).therm = s.therm := rfl
@[simp] theorem onOs_safety (i : Fin 8) (f : OsDyn → OsDyn) (s : State) : (onOs i f s).safety = s.safety := rfl
@[simp] theorem onOs_cxl (i : Fin 8) (f : OsDyn → OsDyn) (s : State) : (onOs i f s).cxl = s.cxl := rfl
@[simp] theorem onOs_queues (i : Fin 8) (f : OsDyn → OsDyn) (s : State) : (onOs i f s).queues = s.queues := rfl
@[simp] theorem onOs_ev (i : Fin 8) (f : OsDyn → OsDyn) (s : State) : (onOs i f s).ev = s.ev := rfl
@[simp] theorem onOs_boot (i : Fin 8) (f : OsDyn → OsDyn) (s : State) : (onOs i f s).boot = s.boot := rfl
@[simp] theorem onOs_power (i : Fin 8) (f : OsDyn → OsDyn) (s : State) : (onOs i f s).power = s.power := rfl
@[simp] theorem onOs_otp (i : Fin 8) (f : OsDyn → OsDyn) (s : State) : (onOs i f s).otp = s.otp := rfl
@[simp] theorem onOs_cal (i : Fin 8) (f : OsDyn → OsDyn) (s : State) : (onOs i f s).cal = s.cal := rfl
@[simp] theorem onOs_flash (i : Fin 8) (f : OsDyn → OsDyn) (s : State) : (onOs i f s).flash = s.flash := rfl
@[simp] theorem onOs_upd (i : Fin 8) (f : OsDyn → OsDyn) (s : State) : (onOs i f s).upd = s.upd := rfl
@[simp] theorem onOs_cw (i : Fin 8) (f : OsDyn → OsDyn) (s : State) : (onOs i f s).cw = s.cw := rfl
@[simp] theorem onOs_jtag (i : Fin 8) (f : OsDyn → OsDyn) (s : State) : (onOs i f s).jtag = s.jtag := rfl
@[simp] theorem onOs_bar2 (i : Fin 8) (f : OsDyn → OsDyn) (s : State) : (onOs i f s).bar2 = s.bar2 := rfl
@[simp] theorem onOs_planes (i : Fin 8) (f : OsDyn → OsDyn) (s : State) : (onOs i f s).planes = s.planes := rfl
@[simp] theorem onOs_canvas (i : Fin 8) (f : OsDyn → OsDyn) (s : State) : (onOs i f s).canvas = s.canvas := rfl
@[simp] theorem onOs_mirrorGen (i : Fin 8) (f : OsDyn → OsDyn) (s : State) : (onOs i f s).mirrorGen = s.mirrorGen := rfl
@[simp] theorem onOs_out (i : Fin 8) (f : OsDyn → OsDyn) (s : State) : (onOs i f s).out = s.out := rfl
@[simp] theorem onOs_free (i : Fin 8) (f : OsDyn → OsDyn) (s : State) : (onOs i f s).free = s.free := rfl
@[simp] theorem onOs_pending (i : Fin 8) (f : OsDyn → OsDyn) (s : State) : (onOs i f s).pending = s.pending := rfl

/-! ## onLine -/

@[simp] theorem onLine_clk (i : Fin 4) (f : LineDyn → LineDyn) (s : State) : (onLine i f s).clk = s.clk := rfl
@[simp] theorem onLine_cfg (i : Fin 4) (f : LineDyn → LineDyn) (s : State) : (onLine i f s).cfg = s.cfg := rfl
@[simp] theorem onLine_pendLv (i : Fin 4) (f : LineDyn → LineDyn) (s : State) : (onLine i f s).pendLv = s.pendLv := rfl
@[simp] theorem onLine_openSet (i : Fin 4) (f : LineDyn → LineDyn) (s : State) : (onLine i f s).openSet = s.openSet := rfl
@[simp] theorem onLine_com (i : Fin 4) (f : LineDyn → LineDyn) (s : State) : (onLine i f s).com = s.com := rfl
@[simp] theorem onLine_comp (i : Fin 4) (f : LineDyn → LineDyn) (s : State) : (onLine i f s).comp = s.comp := rfl
@[simp] theorem onLine_heads (i : Fin 4) (f : LineDyn → LineDyn) (s : State) : (onLine i f s).heads = s.heads := rfl
@[simp] theorem onLine_links (i : Fin 4) (f : LineDyn → LineDyn) (s : State) : (onLine i f s).links = s.links := rfl
@[simp] theorem onLine_rasters (i : Fin 4) (f : LineDyn → LineDyn) (s : State) : (onLine i f s).rasters = s.rasters := rfl
@[simp] theorem onLine_chans (i : Fin 4) (f : LineDyn → LineDyn) (s : State) : (onLine i f s).chans = s.chans := rfl
@[simp] theorem onLine_loops (i : Fin 4) (f : LineDyn → LineDyn) (s : State) : (onLine i f s).loops = s.loops := rfl
@[simp] theorem onLine_oss (i : Fin 4) (f : LineDyn → LineDyn) (s : State) : (onLine i f s).oss = s.oss := rfl
@[simp] theorem onLine_lines (i : Fin 4) (f : LineDyn → LineDyn) (s : State) : (onLine i f s).lines = upd s.lines i f := rfl
@[simp] theorem onLine_sluice (i : Fin 4) (f : LineDyn → LineDyn) (s : State) : (onLine i f s).sluice = s.sluice := rfl
@[simp] theorem onLine_therm (i : Fin 4) (f : LineDyn → LineDyn) (s : State) : (onLine i f s).therm = s.therm := rfl
@[simp] theorem onLine_safety (i : Fin 4) (f : LineDyn → LineDyn) (s : State) : (onLine i f s).safety = s.safety := rfl
@[simp] theorem onLine_cxl (i : Fin 4) (f : LineDyn → LineDyn) (s : State) : (onLine i f s).cxl = s.cxl := rfl
@[simp] theorem onLine_queues (i : Fin 4) (f : LineDyn → LineDyn) (s : State) : (onLine i f s).queues = s.queues := rfl
@[simp] theorem onLine_ev (i : Fin 4) (f : LineDyn → LineDyn) (s : State) : (onLine i f s).ev = s.ev := rfl
@[simp] theorem onLine_boot (i : Fin 4) (f : LineDyn → LineDyn) (s : State) : (onLine i f s).boot = s.boot := rfl
@[simp] theorem onLine_power (i : Fin 4) (f : LineDyn → LineDyn) (s : State) : (onLine i f s).power = s.power := rfl
@[simp] theorem onLine_otp (i : Fin 4) (f : LineDyn → LineDyn) (s : State) : (onLine i f s).otp = s.otp := rfl
@[simp] theorem onLine_cal (i : Fin 4) (f : LineDyn → LineDyn) (s : State) : (onLine i f s).cal = s.cal := rfl
@[simp] theorem onLine_flash (i : Fin 4) (f : LineDyn → LineDyn) (s : State) : (onLine i f s).flash = s.flash := rfl
@[simp] theorem onLine_upd (i : Fin 4) (f : LineDyn → LineDyn) (s : State) : (onLine i f s).upd = s.upd := rfl
@[simp] theorem onLine_cw (i : Fin 4) (f : LineDyn → LineDyn) (s : State) : (onLine i f s).cw = s.cw := rfl
@[simp] theorem onLine_jtag (i : Fin 4) (f : LineDyn → LineDyn) (s : State) : (onLine i f s).jtag = s.jtag := rfl
@[simp] theorem onLine_bar2 (i : Fin 4) (f : LineDyn → LineDyn) (s : State) : (onLine i f s).bar2 = s.bar2 := rfl
@[simp] theorem onLine_planes (i : Fin 4) (f : LineDyn → LineDyn) (s : State) : (onLine i f s).planes = s.planes := rfl
@[simp] theorem onLine_canvas (i : Fin 4) (f : LineDyn → LineDyn) (s : State) : (onLine i f s).canvas = s.canvas := rfl
@[simp] theorem onLine_mirrorGen (i : Fin 4) (f : LineDyn → LineDyn) (s : State) : (onLine i f s).mirrorGen = s.mirrorGen := rfl
@[simp] theorem onLine_out (i : Fin 4) (f : LineDyn → LineDyn) (s : State) : (onLine i f s).out = s.out := rfl
@[simp] theorem onLine_free (i : Fin 4) (f : LineDyn → LineDyn) (s : State) : (onLine i f s).free = s.free := rfl
@[simp] theorem onLine_pending (i : Fin 4) (f : LineDyn → LineDyn) (s : State) : (onLine i f s).pending = s.pending := rfl

/-! ## onQueue -/

@[simp] theorem onQueue_clk (q : Fin 4) (f : QueueDyn → QueueDyn) (s : State) : (onQueue q f s).clk = s.clk := rfl
@[simp] theorem onQueue_cfg (q : Fin 4) (f : QueueDyn → QueueDyn) (s : State) : (onQueue q f s).cfg = s.cfg := rfl
@[simp] theorem onQueue_pendLv (q : Fin 4) (f : QueueDyn → QueueDyn) (s : State) : (onQueue q f s).pendLv = s.pendLv := rfl
@[simp] theorem onQueue_openSet (q : Fin 4) (f : QueueDyn → QueueDyn) (s : State) : (onQueue q f s).openSet = s.openSet := rfl
@[simp] theorem onQueue_com (q : Fin 4) (f : QueueDyn → QueueDyn) (s : State) : (onQueue q f s).com = s.com := rfl
@[simp] theorem onQueue_comp (q : Fin 4) (f : QueueDyn → QueueDyn) (s : State) : (onQueue q f s).comp = s.comp := rfl
@[simp] theorem onQueue_heads (q : Fin 4) (f : QueueDyn → QueueDyn) (s : State) : (onQueue q f s).heads = s.heads := rfl
@[simp] theorem onQueue_links (q : Fin 4) (f : QueueDyn → QueueDyn) (s : State) : (onQueue q f s).links = s.links := rfl
@[simp] theorem onQueue_rasters (q : Fin 4) (f : QueueDyn → QueueDyn) (s : State) : (onQueue q f s).rasters = s.rasters := rfl
@[simp] theorem onQueue_chans (q : Fin 4) (f : QueueDyn → QueueDyn) (s : State) : (onQueue q f s).chans = s.chans := rfl
@[simp] theorem onQueue_loops (q : Fin 4) (f : QueueDyn → QueueDyn) (s : State) : (onQueue q f s).loops = s.loops := rfl
@[simp] theorem onQueue_oss (q : Fin 4) (f : QueueDyn → QueueDyn) (s : State) : (onQueue q f s).oss = s.oss := rfl
@[simp] theorem onQueue_lines (q : Fin 4) (f : QueueDyn → QueueDyn) (s : State) : (onQueue q f s).lines = s.lines := rfl
@[simp] theorem onQueue_sluice (q : Fin 4) (f : QueueDyn → QueueDyn) (s : State) : (onQueue q f s).sluice = s.sluice := rfl
@[simp] theorem onQueue_therm (q : Fin 4) (f : QueueDyn → QueueDyn) (s : State) : (onQueue q f s).therm = s.therm := rfl
@[simp] theorem onQueue_safety (q : Fin 4) (f : QueueDyn → QueueDyn) (s : State) : (onQueue q f s).safety = s.safety := rfl
@[simp] theorem onQueue_cxl (q : Fin 4) (f : QueueDyn → QueueDyn) (s : State) : (onQueue q f s).cxl = s.cxl := rfl
@[simp] theorem onQueue_queues (q : Fin 4) (f : QueueDyn → QueueDyn) (s : State) : (onQueue q f s).queues = upd s.queues q f := rfl
@[simp] theorem onQueue_ev (q : Fin 4) (f : QueueDyn → QueueDyn) (s : State) : (onQueue q f s).ev = s.ev := rfl
@[simp] theorem onQueue_boot (q : Fin 4) (f : QueueDyn → QueueDyn) (s : State) : (onQueue q f s).boot = s.boot := rfl
@[simp] theorem onQueue_power (q : Fin 4) (f : QueueDyn → QueueDyn) (s : State) : (onQueue q f s).power = s.power := rfl
@[simp] theorem onQueue_otp (q : Fin 4) (f : QueueDyn → QueueDyn) (s : State) : (onQueue q f s).otp = s.otp := rfl
@[simp] theorem onQueue_cal (q : Fin 4) (f : QueueDyn → QueueDyn) (s : State) : (onQueue q f s).cal = s.cal := rfl
@[simp] theorem onQueue_flash (q : Fin 4) (f : QueueDyn → QueueDyn) (s : State) : (onQueue q f s).flash = s.flash := rfl
@[simp] theorem onQueue_upd (q : Fin 4) (f : QueueDyn → QueueDyn) (s : State) : (onQueue q f s).upd = s.upd := rfl
@[simp] theorem onQueue_cw (q : Fin 4) (f : QueueDyn → QueueDyn) (s : State) : (onQueue q f s).cw = s.cw := rfl
@[simp] theorem onQueue_jtag (q : Fin 4) (f : QueueDyn → QueueDyn) (s : State) : (onQueue q f s).jtag = s.jtag := rfl
@[simp] theorem onQueue_bar2 (q : Fin 4) (f : QueueDyn → QueueDyn) (s : State) : (onQueue q f s).bar2 = s.bar2 := rfl
@[simp] theorem onQueue_planes (q : Fin 4) (f : QueueDyn → QueueDyn) (s : State) : (onQueue q f s).planes = s.planes := rfl
@[simp] theorem onQueue_canvas (q : Fin 4) (f : QueueDyn → QueueDyn) (s : State) : (onQueue q f s).canvas = s.canvas := rfl
@[simp] theorem onQueue_mirrorGen (q : Fin 4) (f : QueueDyn → QueueDyn) (s : State) : (onQueue q f s).mirrorGen = s.mirrorGen := rfl
@[simp] theorem onQueue_out (q : Fin 4) (f : QueueDyn → QueueDyn) (s : State) : (onQueue q f s).out = s.out := rfl
@[simp] theorem onQueue_free (q : Fin 4) (f : QueueDyn → QueueDyn) (s : State) : (onQueue q f s).free = s.free := rfl
@[simp] theorem onQueue_pending (q : Fin 4) (f : QueueDyn → QueueDyn) (s : State) : (onQueue q f s).pending = s.pending := rfl

/-! ## onLoop -/

@[simp] theorem onLoop_clk (h : Head) (c : Colour) (f : LoopDyn → LoopDyn) (s : State) : (onLoop h c f s).clk = s.clk := rfl
@[simp] theorem onLoop_cfg (h : Head) (c : Colour) (f : LoopDyn → LoopDyn) (s : State) : (onLoop h c f s).cfg = s.cfg := rfl
@[simp] theorem onLoop_pendLv (h : Head) (c : Colour) (f : LoopDyn → LoopDyn) (s : State) : (onLoop h c f s).pendLv = s.pendLv := rfl
@[simp] theorem onLoop_openSet (h : Head) (c : Colour) (f : LoopDyn → LoopDyn) (s : State) : (onLoop h c f s).openSet = s.openSet := rfl
@[simp] theorem onLoop_com (h : Head) (c : Colour) (f : LoopDyn → LoopDyn) (s : State) : (onLoop h c f s).com = s.com := rfl
@[simp] theorem onLoop_comp (h : Head) (c : Colour) (f : LoopDyn → LoopDyn) (s : State) : (onLoop h c f s).comp = s.comp := rfl
@[simp] theorem onLoop_heads (h : Head) (c : Colour) (f : LoopDyn → LoopDyn) (s : State) : (onLoop h c f s).heads = s.heads := rfl
@[simp] theorem onLoop_links (h : Head) (c : Colour) (f : LoopDyn → LoopDyn) (s : State) : (onLoop h c f s).links = s.links := rfl
@[simp] theorem onLoop_rasters (h : Head) (c : Colour) (f : LoopDyn → LoopDyn) (s : State) : (onLoop h c f s).rasters = s.rasters := rfl
@[simp] theorem onLoop_chans (h : Head) (c : Colour) (f : LoopDyn → LoopDyn) (s : State) : (onLoop h c f s).chans = s.chans := rfl
@[simp] theorem onLoop_loops (h : Head) (c : Colour) (f : LoopDyn → LoopDyn) (s : State) : (onLoop h c f s).loops = upd s.loops h (fun v => upd v c f) := rfl
@[simp] theorem onLoop_oss (h : Head) (c : Colour) (f : LoopDyn → LoopDyn) (s : State) : (onLoop h c f s).oss = s.oss := rfl
@[simp] theorem onLoop_lines (h : Head) (c : Colour) (f : LoopDyn → LoopDyn) (s : State) : (onLoop h c f s).lines = s.lines := rfl
@[simp] theorem onLoop_sluice (h : Head) (c : Colour) (f : LoopDyn → LoopDyn) (s : State) : (onLoop h c f s).sluice = s.sluice := rfl
@[simp] theorem onLoop_therm (h : Head) (c : Colour) (f : LoopDyn → LoopDyn) (s : State) : (onLoop h c f s).therm = s.therm := rfl
@[simp] theorem onLoop_safety (h : Head) (c : Colour) (f : LoopDyn → LoopDyn) (s : State) : (onLoop h c f s).safety = s.safety := rfl
@[simp] theorem onLoop_cxl (h : Head) (c : Colour) (f : LoopDyn → LoopDyn) (s : State) : (onLoop h c f s).cxl = s.cxl := rfl
@[simp] theorem onLoop_queues (h : Head) (c : Colour) (f : LoopDyn → LoopDyn) (s : State) : (onLoop h c f s).queues = s.queues := rfl
@[simp] theorem onLoop_ev (h : Head) (c : Colour) (f : LoopDyn → LoopDyn) (s : State) : (onLoop h c f s).ev = s.ev := rfl
@[simp] theorem onLoop_boot (h : Head) (c : Colour) (f : LoopDyn → LoopDyn) (s : State) : (onLoop h c f s).boot = s.boot := rfl
@[simp] theorem onLoop_power (h : Head) (c : Colour) (f : LoopDyn → LoopDyn) (s : State) : (onLoop h c f s).power = s.power := rfl
@[simp] theorem onLoop_otp (h : Head) (c : Colour) (f : LoopDyn → LoopDyn) (s : State) : (onLoop h c f s).otp = s.otp := rfl
@[simp] theorem onLoop_cal (h : Head) (c : Colour) (f : LoopDyn → LoopDyn) (s : State) : (onLoop h c f s).cal = s.cal := rfl
@[simp] theorem onLoop_flash (h : Head) (c : Colour) (f : LoopDyn → LoopDyn) (s : State) : (onLoop h c f s).flash = s.flash := rfl
@[simp] theorem onLoop_upd (h : Head) (c : Colour) (f : LoopDyn → LoopDyn) (s : State) : (onLoop h c f s).upd = s.upd := rfl
@[simp] theorem onLoop_cw (h : Head) (c : Colour) (f : LoopDyn → LoopDyn) (s : State) : (onLoop h c f s).cw = s.cw := rfl
@[simp] theorem onLoop_jtag (h : Head) (c : Colour) (f : LoopDyn → LoopDyn) (s : State) : (onLoop h c f s).jtag = s.jtag := rfl
@[simp] theorem onLoop_bar2 (h : Head) (c : Colour) (f : LoopDyn → LoopDyn) (s : State) : (onLoop h c f s).bar2 = s.bar2 := rfl
@[simp] theorem onLoop_planes (h : Head) (c : Colour) (f : LoopDyn → LoopDyn) (s : State) : (onLoop h c f s).planes = s.planes := rfl
@[simp] theorem onLoop_canvas (h : Head) (c : Colour) (f : LoopDyn → LoopDyn) (s : State) : (onLoop h c f s).canvas = s.canvas := rfl
@[simp] theorem onLoop_mirrorGen (h : Head) (c : Colour) (f : LoopDyn → LoopDyn) (s : State) : (onLoop h c f s).mirrorGen = s.mirrorGen := rfl
@[simp] theorem onLoop_out (h : Head) (c : Colour) (f : LoopDyn → LoopDyn) (s : State) : (onLoop h c f s).out = s.out := rfl
@[simp] theorem onLoop_free (h : Head) (c : Colour) (f : LoopDyn → LoopDyn) (s : State) : (onLoop h c f s).free = s.free := rfl
@[simp] theorem onLoop_pending (h : Head) (c : Colour) (f : LoopDyn → LoopDyn) (s : State) : (onLoop h c f s).pending = s.pending := rfl

/-! ## emit -/

@[simp] theorem emit_clk (o : Output) (s : State) : (emit o s).clk = s.clk := rfl
@[simp] theorem emit_cfg (o : Output) (s : State) : (emit o s).cfg = s.cfg := rfl
@[simp] theorem emit_pendLv (o : Output) (s : State) : (emit o s).pendLv = s.pendLv := rfl
@[simp] theorem emit_openSet (o : Output) (s : State) : (emit o s).openSet = s.openSet := rfl
@[simp] theorem emit_com (o : Output) (s : State) : (emit o s).com = s.com := rfl
@[simp] theorem emit_comp (o : Output) (s : State) : (emit o s).comp = s.comp := rfl
@[simp] theorem emit_heads (o : Output) (s : State) : (emit o s).heads = s.heads := rfl
@[simp] theorem emit_links (o : Output) (s : State) : (emit o s).links = s.links := rfl
@[simp] theorem emit_rasters (o : Output) (s : State) : (emit o s).rasters = s.rasters := rfl
@[simp] theorem emit_chans (o : Output) (s : State) : (emit o s).chans = s.chans := rfl
@[simp] theorem emit_loops (o : Output) (s : State) : (emit o s).loops = s.loops := rfl
@[simp] theorem emit_oss (o : Output) (s : State) : (emit o s).oss = s.oss := rfl
@[simp] theorem emit_lines (o : Output) (s : State) : (emit o s).lines = s.lines := rfl
@[simp] theorem emit_sluice (o : Output) (s : State) : (emit o s).sluice = s.sluice := rfl
@[simp] theorem emit_therm (o : Output) (s : State) : (emit o s).therm = s.therm := rfl
@[simp] theorem emit_safety (o : Output) (s : State) : (emit o s).safety = s.safety := rfl
@[simp] theorem emit_cxl (o : Output) (s : State) : (emit o s).cxl = s.cxl := rfl
@[simp] theorem emit_queues (o : Output) (s : State) : (emit o s).queues = s.queues := rfl
@[simp] theorem emit_ev (o : Output) (s : State) : (emit o s).ev = s.ev := rfl
@[simp] theorem emit_boot (o : Output) (s : State) : (emit o s).boot = s.boot := rfl
@[simp] theorem emit_power (o : Output) (s : State) : (emit o s).power = s.power := rfl
@[simp] theorem emit_otp (o : Output) (s : State) : (emit o s).otp = s.otp := rfl
@[simp] theorem emit_cal (o : Output) (s : State) : (emit o s).cal = s.cal := rfl
@[simp] theorem emit_flash (o : Output) (s : State) : (emit o s).flash = s.flash := rfl
@[simp] theorem emit_upd (o : Output) (s : State) : (emit o s).upd = s.upd := rfl
@[simp] theorem emit_cw (o : Output) (s : State) : (emit o s).cw = s.cw := rfl
@[simp] theorem emit_jtag (o : Output) (s : State) : (emit o s).jtag = s.jtag := rfl
@[simp] theorem emit_bar2 (o : Output) (s : State) : (emit o s).bar2 = s.bar2 := rfl
@[simp] theorem emit_planes (o : Output) (s : State) : (emit o s).planes = s.planes := rfl
@[simp] theorem emit_canvas (o : Output) (s : State) : (emit o s).canvas = s.canvas := rfl
@[simp] theorem emit_mirrorGen (o : Output) (s : State) : (emit o s).mirrorGen = s.mirrorGen := rfl
@[simp] theorem emit_out (o : Output) (s : State) : (emit o s).out = o :: s.out := rfl
@[simp] theorem emit_free (o : Output) (s : State) : (emit o s).free = s.free := rfl
@[simp] theorem emit_pending (o : Output) (s : State) : (emit o s).pending = s.pending := rfl

/-! ## addSh -/

@[simp] theorem addSh_clk (ws : List CfgWrite) (s : State) : (addSh ws s).clk = s.clk := rfl
@[simp] theorem addSh_cfg (ws : List CfgWrite) (s : State) : (addSh ws s).cfg = s.cfg := rfl
@[simp] theorem addSh_pendLv (ws : List CfgWrite) (s : State) : (addSh ws s).pendLv = s.pendLv := rfl
@[simp] theorem addSh_openSet (ws : List CfgWrite) (s : State) : (addSh ws s).openSet = s.openSet ++ ws := rfl
@[simp] theorem addSh_com (ws : List CfgWrite) (s : State) : (addSh ws s).com = s.com := rfl
@[simp] theorem addSh_comp (ws : List CfgWrite) (s : State) : (addSh ws s).comp = s.comp := rfl
@[simp] theorem addSh_heads (ws : List CfgWrite) (s : State) : (addSh ws s).heads = s.heads := rfl
@[simp] theorem addSh_links (ws : List CfgWrite) (s : State) : (addSh ws s).links = s.links := rfl
@[simp] theorem addSh_rasters (ws : List CfgWrite) (s : State) : (addSh ws s).rasters = s.rasters := rfl
@[simp] theorem addSh_chans (ws : List CfgWrite) (s : State) : (addSh ws s).chans = s.chans := rfl
@[simp] theorem addSh_loops (ws : List CfgWrite) (s : State) : (addSh ws s).loops = s.loops := rfl
@[simp] theorem addSh_oss (ws : List CfgWrite) (s : State) : (addSh ws s).oss = s.oss := rfl
@[simp] theorem addSh_lines (ws : List CfgWrite) (s : State) : (addSh ws s).lines = s.lines := rfl
@[simp] theorem addSh_sluice (ws : List CfgWrite) (s : State) : (addSh ws s).sluice = s.sluice := rfl
@[simp] theorem addSh_therm (ws : List CfgWrite) (s : State) : (addSh ws s).therm = s.therm := rfl
@[simp] theorem addSh_safety (ws : List CfgWrite) (s : State) : (addSh ws s).safety = s.safety := rfl
@[simp] theorem addSh_cxl (ws : List CfgWrite) (s : State) : (addSh ws s).cxl = s.cxl := rfl
@[simp] theorem addSh_queues (ws : List CfgWrite) (s : State) : (addSh ws s).queues = s.queues := rfl
@[simp] theorem addSh_ev (ws : List CfgWrite) (s : State) : (addSh ws s).ev = s.ev := rfl
@[simp] theorem addSh_boot (ws : List CfgWrite) (s : State) : (addSh ws s).boot = s.boot := rfl
@[simp] theorem addSh_power (ws : List CfgWrite) (s : State) : (addSh ws s).power = s.power := rfl
@[simp] theorem addSh_otp (ws : List CfgWrite) (s : State) : (addSh ws s).otp = s.otp := rfl
@[simp] theorem addSh_cal (ws : List CfgWrite) (s : State) : (addSh ws s).cal = s.cal := rfl
@[simp] theorem addSh_flash (ws : List CfgWrite) (s : State) : (addSh ws s).flash = s.flash := rfl
@[simp] theorem addSh_upd (ws : List CfgWrite) (s : State) : (addSh ws s).upd = s.upd := rfl
@[simp] theorem addSh_cw (ws : List CfgWrite) (s : State) : (addSh ws s).cw = s.cw := rfl
@[simp] theorem addSh_jtag (ws : List CfgWrite) (s : State) : (addSh ws s).jtag = s.jtag := rfl
@[simp] theorem addSh_bar2 (ws : List CfgWrite) (s : State) : (addSh ws s).bar2 = s.bar2 := rfl
@[simp] theorem addSh_planes (ws : List CfgWrite) (s : State) : (addSh ws s).planes = s.planes := rfl
@[simp] theorem addSh_canvas (ws : List CfgWrite) (s : State) : (addSh ws s).canvas = s.canvas := rfl
@[simp] theorem addSh_mirrorGen (ws : List CfgWrite) (s : State) : (addSh ws s).mirrorGen = s.mirrorGen := rfl
@[simp] theorem addSh_out (ws : List CfgWrite) (s : State) : (addSh ws s).out = s.out := rfl
@[simp] theorem addSh_free (ws : List CfgWrite) (s : State) : (addSh ws s).free = s.free := rfl
@[simp] theorem addSh_pending (ws : List CfgWrite) (s : State) : (addSh ws s).pending = s.pending := rfl

/-! ## addLv -/

@[simp] theorem addLv_clk (ws : List CfgWrite) (s : State) : (addLv ws s).clk = s.clk := rfl
@[simp] theorem addLv_cfg (ws : List CfgWrite) (s : State) : (addLv ws s).cfg = s.cfg := rfl
@[simp] theorem addLv_pendLv (ws : List CfgWrite) (s : State) : (addLv ws s).pendLv = s.pendLv ++ ws := rfl
@[simp] theorem addLv_openSet (ws : List CfgWrite) (s : State) : (addLv ws s).openSet = s.openSet := rfl
@[simp] theorem addLv_com (ws : List CfgWrite) (s : State) : (addLv ws s).com = s.com := rfl
@[simp] theorem addLv_comp (ws : List CfgWrite) (s : State) : (addLv ws s).comp = s.comp := rfl
@[simp] theorem addLv_heads (ws : List CfgWrite) (s : State) : (addLv ws s).heads = s.heads := rfl
@[simp] theorem addLv_links (ws : List CfgWrite) (s : State) : (addLv ws s).links = s.links := rfl
@[simp] theorem addLv_rasters (ws : List CfgWrite) (s : State) : (addLv ws s).rasters = s.rasters := rfl
@[simp] theorem addLv_chans (ws : List CfgWrite) (s : State) : (addLv ws s).chans = s.chans := rfl
@[simp] theorem addLv_loops (ws : List CfgWrite) (s : State) : (addLv ws s).loops = s.loops := rfl
@[simp] theorem addLv_oss (ws : List CfgWrite) (s : State) : (addLv ws s).oss = s.oss := rfl
@[simp] theorem addLv_lines (ws : List CfgWrite) (s : State) : (addLv ws s).lines = s.lines := rfl
@[simp] theorem addLv_sluice (ws : List CfgWrite) (s : State) : (addLv ws s).sluice = s.sluice := rfl
@[simp] theorem addLv_therm (ws : List CfgWrite) (s : State) : (addLv ws s).therm = s.therm := rfl
@[simp] theorem addLv_safety (ws : List CfgWrite) (s : State) : (addLv ws s).safety = s.safety := rfl
@[simp] theorem addLv_cxl (ws : List CfgWrite) (s : State) : (addLv ws s).cxl = s.cxl := rfl
@[simp] theorem addLv_queues (ws : List CfgWrite) (s : State) : (addLv ws s).queues = s.queues := rfl
@[simp] theorem addLv_ev (ws : List CfgWrite) (s : State) : (addLv ws s).ev = s.ev := rfl
@[simp] theorem addLv_boot (ws : List CfgWrite) (s : State) : (addLv ws s).boot = s.boot := rfl
@[simp] theorem addLv_power (ws : List CfgWrite) (s : State) : (addLv ws s).power = s.power := rfl
@[simp] theorem addLv_otp (ws : List CfgWrite) (s : State) : (addLv ws s).otp = s.otp := rfl
@[simp] theorem addLv_cal (ws : List CfgWrite) (s : State) : (addLv ws s).cal = s.cal := rfl
@[simp] theorem addLv_flash (ws : List CfgWrite) (s : State) : (addLv ws s).flash = s.flash := rfl
@[simp] theorem addLv_upd (ws : List CfgWrite) (s : State) : (addLv ws s).upd = s.upd := rfl
@[simp] theorem addLv_cw (ws : List CfgWrite) (s : State) : (addLv ws s).cw = s.cw := rfl
@[simp] theorem addLv_jtag (ws : List CfgWrite) (s : State) : (addLv ws s).jtag = s.jtag := rfl
@[simp] theorem addLv_bar2 (ws : List CfgWrite) (s : State) : (addLv ws s).bar2 = s.bar2 := rfl
@[simp] theorem addLv_planes (ws : List CfgWrite) (s : State) : (addLv ws s).planes = s.planes := rfl
@[simp] theorem addLv_canvas (ws : List CfgWrite) (s : State) : (addLv ws s).canvas = s.canvas := rfl
@[simp] theorem addLv_mirrorGen (ws : List CfgWrite) (s : State) : (addLv ws s).mirrorGen = s.mirrorGen := rfl
@[simp] theorem addLv_out (ws : List CfgWrite) (s : State) : (addLv ws s).out = s.out := rfl
@[simp] theorem addLv_free (ws : List CfgWrite) (s : State) : (addLv ws s).free = s.free := rfl
@[simp] theorem addLv_pending (ws : List CfgWrite) (s : State) : (addLv ws s).pending = s.pending := rfl

/-! ## addLoad -/

@[simp] theorem addLoad_clk (w : CfgWrite) (s : State) : (addLoad w s).clk = s.clk := rfl
@[simp] theorem addLoad_cfg (w : CfgWrite) (s : State) : (addLoad w s).cfg = s.cfg := rfl
@[simp] theorem addLoad_pendLv (w : CfgWrite) (s : State) : (addLoad w s).pendLv = s.pendLv := rfl
@[simp] theorem addLoad_openSet (w : CfgWrite) (s : State) : (addLoad w s).openSet = s.openSet.filter (fun x => !sameLoad w x) ++ [w] := rfl
@[simp] theorem addLoad_com (w : CfgWrite) (s : State) : (addLoad w s).com = s.com := rfl
@[simp] theorem addLoad_comp (w : CfgWrite) (s : State) : (addLoad w s).comp = s.comp := rfl
@[simp] theorem addLoad_heads (w : CfgWrite) (s : State) : (addLoad w s).heads = s.heads := rfl
@[simp] theorem addLoad_links (w : CfgWrite) (s : State) : (addLoad w s).links = s.links := rfl
@[simp] theorem addLoad_rasters (w : CfgWrite) (s : State) : (addLoad w s).rasters = s.rasters := rfl
@[simp] theorem addLoad_chans (w : CfgWrite) (s : State) : (addLoad w s).chans = s.chans := rfl
@[simp] theorem addLoad_loops (w : CfgWrite) (s : State) : (addLoad w s).loops = s.loops := rfl
@[simp] theorem addLoad_oss (w : CfgWrite) (s : State) : (addLoad w s).oss = s.oss := rfl
@[simp] theorem addLoad_lines (w : CfgWrite) (s : State) : (addLoad w s).lines = s.lines := rfl
@[simp] theorem addLoad_sluice (w : CfgWrite) (s : State) : (addLoad w s).sluice = s.sluice := rfl
@[simp] theorem addLoad_therm (w : CfgWrite) (s : State) : (addLoad w s).therm = s.therm := rfl
@[simp] theorem addLoad_safety (w : CfgWrite) (s : State) : (addLoad w s).safety = s.safety := rfl
@[simp] theorem addLoad_cxl (w : CfgWrite) (s : State) : (addLoad w s).cxl = s.cxl := rfl
@[simp] theorem addLoad_queues (w : CfgWrite) (s : State) : (addLoad w s).queues = s.queues := rfl
@[simp] theorem addLoad_ev (w : CfgWrite) (s : State) : (addLoad w s).ev = s.ev := rfl
@[simp] theorem addLoad_boot (w : CfgWrite) (s : State) : (addLoad w s).boot = s.boot := rfl
@[simp] theorem addLoad_power (w : CfgWrite) (s : State) : (addLoad w s).power = s.power := rfl
@[simp] theorem addLoad_otp (w : CfgWrite) (s : State) : (addLoad w s).otp = s.otp := rfl
@[simp] theorem addLoad_cal (w : CfgWrite) (s : State) : (addLoad w s).cal = s.cal := rfl
@[simp] theorem addLoad_flash (w : CfgWrite) (s : State) : (addLoad w s).flash = s.flash := rfl
@[simp] theorem addLoad_upd (w : CfgWrite) (s : State) : (addLoad w s).upd = s.upd := rfl
@[simp] theorem addLoad_cw (w : CfgWrite) (s : State) : (addLoad w s).cw = s.cw := rfl
@[simp] theorem addLoad_jtag (w : CfgWrite) (s : State) : (addLoad w s).jtag = s.jtag := rfl
@[simp] theorem addLoad_bar2 (w : CfgWrite) (s : State) : (addLoad w s).bar2 = s.bar2 := rfl
@[simp] theorem addLoad_planes (w : CfgWrite) (s : State) : (addLoad w s).planes = s.planes := rfl
@[simp] theorem addLoad_canvas (w : CfgWrite) (s : State) : (addLoad w s).canvas = s.canvas := rfl
@[simp] theorem addLoad_mirrorGen (w : CfgWrite) (s : State) : (addLoad w s).mirrorGen = s.mirrorGen := rfl
@[simp] theorem addLoad_out (w : CfgWrite) (s : State) : (addLoad w s).out = s.out := rfl
@[simp] theorem addLoad_free (w : CfgWrite) (s : State) : (addLoad w s).free = s.free := rfl
@[simp] theorem addLoad_pending (w : CfgWrite) (s : State) : (addLoad w s).pending = s.pending := rfl

end Sys2Proof.Machine
end

