-- ==== Sys2Proof/Laws/Parts.lean ====
section
/-! SUPPORT. Which parts of a state the operations on one part touch, and how that composes. -/

namespace Sys2Proof.Machine

theorem same_refl (x : Part) (s : State) : x.same s s := by cases x <;> rfl

theorem same_trans {x : Part} {a b c : State} (h : x.same a b) (k : x.same b c) : x.same a c := by
  cases x <;> exact Eq.trans h k

/-- Every part of one list stands in another. -/
def holdsAll (f g : List Part) : Bool := g.all f.contains

theorem only_refl (f : List Part) (s : State) : Only f s s := ⟨fun x _ => same_refl x s⟩

/-- One operation after another. -/
theorem only_step {f g : List Part} {t u s : State} (h : Only g t u) (hc : holdsAll f g = true) (k : Only f u s) : Only f t s := by
  refine ⟨fun x hx => ?_⟩
  have hg : g.contains x = false := by
    cases hgx : g.contains x with
    | false => rfl
    | true =>
      have hm : x ∈ g := by simpa using hgx
      have := List.all_eq_true.mp hc x hm
      rw [hx] at this
      cases this
  exact same_trans (h.same x hg) (k.same x hx)

theorem only_mono {f g : List Part} {t s : State} (h : Only g t s) (hc : holdsAll f g = true) : Only f t s :=
  only_step h hc (only_refl f s)

theorem only_ite {f : List Part} {c : Prop} {t u s : State} (inst : Decidable c) (h : Only f t s) (k : Only f u s) :
    Only f (if c then t else u) s := by
  split
  · exact h
  · exact k

/-- Operations carried through a list. -/
theorem only_forEach {α : Type} {f : List Part} (l : List α) (g : α → State → State) (h : ∀ x s, Only f (g x s) s) (s : State) :
    Only f (forEach l g s) s := by
  unfold forEach
  induction l generalizing s with
  | nil => exact only_refl f s
  | cons x r ih =>
    exact ⟨fun y hy => same_trans ((ih (g x s)).same y hy) ((h x s).same y hy)⟩

theorem only_forEach_step {α : Type} {f : List Part} {l : List α} {g : α → State → State} {u s : State}
    (h : ∀ x s, Only f (g x s) s) (k : Only f u s) : Only f (forEach l g u) s :=
  ⟨fun x hx => same_trans ((only_forEach l g h u).same x hx) (k.same x hx)⟩

theorem only_onClk (f : Clock → Clock) (s : State) : Only [.clk] (onClk f s) s := by
  refine ⟨fun x hx => ?_⟩; cases x <;> first | rfl | cases hx
theorem only_onCfg (f : Cfg → Cfg) (s : State) : Only [.cfg] (onCfg f s) s := by
  refine ⟨fun x hx => ?_⟩; cases x <;> first | rfl | cases hx
theorem only_onCom (f : CommitDyn → CommitDyn) (s : State) : Only [.com] (onCom f s) s := by
  refine ⟨fun x hx => ?_⟩; cases x <;> first | rfl | cases hx
theorem only_onComp (f : CompDyn → CompDyn) (s : State) : Only [.comp] (onComp f s) s := by
  refine ⟨fun x hx => ?_⟩; cases x <;> first | rfl | cases hx
theorem only_onHead (h : Head) (f : HeadDyn → HeadDyn) (s : State) : Only [.heads] (onHead h f s) s := by
  refine ⟨fun x hx => ?_⟩; cases x <;> first | rfl | cases hx
theorem only_onLink (g : Head) (f : LinkDyn → LinkDyn) (s : State) : Only [.links] (onLink g f s) s := by
  refine ⟨fun x hx => ?_⟩; cases x <;> first | rfl | cases hx
theorem only_onRaster (h : Head) (f : RasterDyn → RasterDyn) (s : State) : Only [.rasters] (onRaster h f s) s := by
  refine ⟨fun x hx => ?_⟩; cases x <;> first | rfl | cases hx
theorem only_onChan (c : Chan) (f : ChanDyn → ChanDyn) (s : State) : Only [.chans] (onChan c f s) s := by
  refine ⟨fun x hx => ?_⟩; cases x <;> first | rfl | cases hx
theorem only_onLoop (h : Head) (c : Colour) (f : LoopDyn → LoopDyn) (s : State) : Only [.loops] (onLoop h c f s) s := by
  refine ⟨fun x hx => ?_⟩; cases x <;> first | rfl | cases hx
theorem only_onOs (i : Fin 8) (f : OsDyn → OsDyn) (s : State) : Only [.oss] (onOs i f s) s := by
  refine ⟨fun x hx => ?_⟩; cases x <;> first | rfl | cases hx
theorem only_onLine (i : Fin 4) (f : LineDyn → LineDyn) (s : State) : Only [.lines] (onLine i f s) s := by
  refine ⟨fun x hx => ?_⟩; cases x <;> first | rfl | cases hx
theorem only_onSluice (f : SluiceDyn → SluiceDyn) (s : State) : Only [.sluice] (onSluice f s) s := by
  refine ⟨fun x hx => ?_⟩; cases x <;> first | rfl | cases hx
theorem only_onTherm (f : ThermDyn → ThermDyn) (s : State) : Only [.therm] (onTherm f s) s := by
  refine ⟨fun x hx => ?_⟩; cases x <;> first | rfl | cases hx
theorem only_onSafety (f : SafetyDyn → SafetyDyn) (s : State) : Only [.safety] (onSafety f s) s := by
  refine ⟨fun x hx => ?_⟩; cases x <;> first | rfl | cases hx
theorem only_onCxl (f : CxlDyn → CxlDyn) (s : State) : Only [.cxl] (onCxl f s) s := by
  refine ⟨fun x hx => ?_⟩; cases x <;> first | rfl | cases hx
theorem only_onQueue (q : Fin 4) (f : QueueDyn → QueueDyn) (s : State) : Only [.queues] (onQueue q f s) s := by
  refine ⟨fun x hx => ?_⟩; cases x <;> first | rfl | cases hx
theorem only_onEv (f : EvDyn → EvDyn) (s : State) : Only [.ev] (onEv f s) s := by
  refine ⟨fun x hx => ?_⟩; cases x <;> first | rfl | cases hx
theorem only_onBoot (f : BootDyn → BootDyn) (s : State) : Only [.boot] (onBoot f s) s := by
  refine ⟨fun x hx => ?_⟩; cases x <;> first | rfl | cases hx
theorem only_onPower (f : PowerDyn → PowerDyn) (s : State) : Only [.power] (onPower f s) s := by
  refine ⟨fun x hx => ?_⟩; cases x <;> first | rfl | cases hx
theorem only_onCal (f : CalDyn → CalDyn) (s : State) : Only [.cal] (onCal f s) s := by
  refine ⟨fun x hx => ?_⟩; cases x <;> first | rfl | cases hx
theorem only_onFlash (f : Flash → Flash) (s : State) : Only [.flash] (onFlash f s) s := by
  refine ⟨fun x hx => ?_⟩; cases x <;> first | rfl | cases hx
theorem only_onUpd (f : UpdDyn → UpdDyn) (s : State) : Only [.upd] (onUpd f s) s := by
  refine ⟨fun x hx => ?_⟩; cases x <;> first | rfl | cases hx
theorem only_onCw (f : CwDyn → CwDyn) (s : State) : Only [.cw] (onCw f s) s := by
  refine ⟨fun x hx => ?_⟩; cases x <;> first | rfl | cases hx
theorem only_emit (o : Output) (s : State) : Only [.out] (emit o s) s := by
  refine ⟨fun x hx => ?_⟩; cases x <;> first | rfl | cases hx
theorem only_setScram (v : Vector (BitVec 58) 2) (s : State) : Only [.out] { s with cwScram := v } s := by
  refine ⟨fun x hx => ?_⟩; cases x <;> first | rfl | cases hx
theorem only_addSh (ws : List CfgWrite) (s : State) : Only [.openSet] (addSh ws s) s := by
  refine ⟨fun x hx => ?_⟩; cases x <;> first | rfl | cases hx
theorem only_addLv (ws : List CfgWrite) (s : State) : Only [.pendLv] (addLv ws s) s := by
  refine ⟨fun x hx => ?_⟩; cases x <;> first | rfl | cases hx
theorem only_addLoad (w : CfgWrite) (s : State) : Only [.openSet] (addLoad w s) s := by
  refine ⟨fun x hx => ?_⟩; cases x <;> first | rfl | cases hx

theorem only_onHeads (f : Vector HeadDyn 4 → Vector HeadDyn 4) (s : State) : Only [.heads] (onHeads f s) s := by
  refine ⟨fun x hx => ?_⟩; cases x <;> first | rfl | cases hx
theorem only_onLinks (f : Vector LinkDyn 4 → Vector LinkDyn 4) (s : State) : Only [.links] (onLinks f s) s := by
  refine ⟨fun x hx => ?_⟩; cases x <;> first | rfl | cases hx
theorem only_onRasters (f : Vector RasterDyn 4 → Vector RasterDyn 4) (s : State) : Only [.rasters] (onRasters f s) s := by
  refine ⟨fun x hx => ?_⟩; cases x <;> first | rfl | cases hx
theorem only_onChans (f : Vector ChanDyn 64 → Vector ChanDyn 64) (s : State) : Only [.chans] (onChans f s) s := by
  refine ⟨fun x hx => ?_⟩; cases x <;> first | rfl | cases hx
theorem only_onLoops (f : Vector (Vector LoopDyn 3) 4 → Vector (Vector LoopDyn 3) 4) (s : State) : Only [.loops] (onLoops f s) s := by
  refine ⟨fun x hx => ?_⟩; cases x <;> first | rfl | cases hx
theorem only_onQueues (f : Vector QueueDyn 4 → Vector QueueDyn 4) (s : State) : Only [.queues] (onQueues f s) s := by
  refine ⟨fun x hx => ?_⟩; cases x <;> first | rfl | cases hx
theorem only_onOtp (f : Otp → Otp) (s : State) : Only [.otp] (onOtp f s) s := by
  refine ⟨fun x hx => ?_⟩; cases x <;> first | rfl | cases hx
theorem only_onJtag (f : JtagDyn → JtagDyn) (s : State) : Only [.jtag] (onJtag f s) s := by
  refine ⟨fun x hx => ?_⟩; cases x <;> first | rfl | cases hx
theorem only_onBar2 (f : List Host.Cell → List Host.Cell) (s : State) : Only [.bar2] (onBar2 f s) s := by
  refine ⟨fun x hx => ?_⟩; cases x <;> first | rfl | cases hx
theorem only_onPlanes (f : List Host.Cell → List Host.Cell) (s : State) : Only [.planes] (onPlanes f s) s := by
  refine ⟨fun x hx => ?_⟩; cases x <;> first | rfl | cases hx
theorem only_onCanvas (f : List (Nat × BitVec 72) → List (Nat × BitVec 72)) (s : State) : Only [.canvas] (onCanvas f s) s := by
  refine ⟨fun x hx => ?_⟩; cases x <;> first | rfl | cases hx
theorem only_onMirrorGen (f : Nat → Nat) (s : State) : Only [.mirrorGen] (onMirrorGen f s) s := by
  refine ⟨fun x hx => ?_⟩; cases x <;> first | rfl | cases hx
theorem only_onFree (f : Nat → Nat) (s : State) : Only [.free] (onFree f s) s := by
  refine ⟨fun x hx => ?_⟩; cases x <;> first | rfl | cases hx
theorem only_onOpenSet (f : List CfgWrite → List CfgWrite) (s : State) : Only [.openSet] (onOpenSet f s) s := by
  refine ⟨fun x hx => ?_⟩; cases x <;> first | rfl | cases hx
theorem only_onPendLv (f : List CfgWrite → List CfgWrite) (s : State) : Only [.pendLv] (onPendLv f s) s := by
  refine ⟨fun x hx => ?_⟩; cases x <;> first | rfl | cases hx

end Sys2Proof.Machine
end

