-- ==== Sys2Proof/Laws/FramesOps.lean ====
section
/-! SUPPORT. The parts of the state that the shared operations can change: one lemma per operation. -/

namespace Sys2Proof.Machine

set_option linter.all false

theorem askIo_only (write : Bool) (ranges : List (Nat × Nat)) (s : State) : Only [.out] (askIo write ranges s) s := by
  unfold askIo
  try dsimp only
  repeat' (first
    | with_reducible apply only_refl | (with_reducible apply only_step (only_emit ..); decide) | split)

theorem drawFree_only (s : State) : Only [.free] ((drawFree s).2) s := by
  unfold drawFree
  try dsimp only
  repeat' (first
    | with_reducible apply only_refl | (with_reducible apply only_step (only_onFree ..); decide) | split)

theorem signal_only (v : Fin 64) (s : State) : Only [.cxl, .out] (signal v s) s := by
  unfold signal
  try dsimp only
  repeat' (first
    | with_reducible apply only_refl | (with_reducible apply only_step (only_onCxl ..); decide)
    | (with_reducible apply only_step (only_emit ..); decide) | split)

theorem signalEvent_only (src : Nat) (s : State) : Only [.cxl, .out] (signalEvent src s) s := by
  unfold signalEvent
  try dsimp only
  repeat' (first
    | with_reducible apply only_refl | (with_reducible apply only_step (only_onCxl ..); decide)
    | (with_reducible apply only_step (signal_only ..); decide) | split)

theorem divert_only (p : Chan → Bool) (hard : Bool) (s : State) : Only [.chans] (divert p hard s) s := by
  unfold divert
  try dsimp only
  repeat' (first
    | with_reducible apply only_refl | (with_reducible apply only_step (only_onChans ..); decide) | split)

theorem safeReact_only (m : Nat) (hd : Option Head) (toDark : Bool) (restartable : Bool) (s : State) : Only [.chans, .safety]
    (safeReact m hd toDark restartable s) s := by
  unfold safeReact
  try extract_lets
  repeat' (first
    | with_reducible apply only_refl | (with_reducible apply only_step (only_onSafety ..); decide)
    | (with_reducible apply only_step (divert_only ..); decide) | with_reducible apply only_ite | extract_lets | split)

theorem onPort_only (p : Port) (f : CwPort → CwPort) (s : State) : Only [.cw] (onPort p f s) s := by
  unfold onPort
  try dsimp only
  repeat' (first
    | with_reducible apply only_refl | (with_reducible apply only_step (only_onCw ..); decide) | split)

theorem cwWords_only (p : Port) (ws : List (Bool × Nat)) (s : State) : Only [.out] (cwWords p ws s) s := by
  unfold cwWords
  exact only_step (only_emit ..) (by decide) (only_setScram _ s)

theorem cwEmit_only (p : Port) (ptype : BitVec 8) (dst : BitVec 9) (bcast : Bool) (src : BitVec 9) (arg : BitVec 21) (ws : List
    (BitVec 64)) (s : State) : Only [.out] (cwEmit p ptype dst bcast src arg ws s) s := by
  unfold cwEmit
  try dsimp only
  repeat' (first
    | with_reducible apply only_refl | (with_reducible apply only_step (only_emit ..); decide)
    | (with_reducible apply only_step (cwWords_only ..); decide) | split)

theorem cwSend_only (p : Port) (ptype : BitVec 8) (dst : Nat) (arg : Nat) (ws : List (BitVec 64)) (s : State) : Only [.out]
    (cwSend p ptype dst arg ws s) s := by
  unfold cwSend
  try dsimp only
  repeat' (first
    | with_reducible apply only_refl | (with_reducible apply only_step (cwEmit_only ..); decide) | split)

theorem issueOne_only {s t : State} (h : issueOne s = some t) : Only [.cxl, .ev, .out] t s := by
  unfold issueOne at h
  dsimp only at h
  split at h
  · split at h
    · split at h
      · cases h
      · cases h
        exact only_step (only_onEv ..) (by decide) (only_step (only_onCxl ..) (by decide) (only_step (only_emit ..) (by decide)
          (only_mono (only_emit ..) (by decide))))
    · cases h
  · cases h

theorem pumpHost_only (k : Nat) (s : State) : Only [.cxl, .ev, .out] (pumpHost k s) s := by
  induction k generalizing s with
  | zero => exact only_refl _ _
  | succ k ih =>
    cases h : issueOne s with
    | some t => simp only [pumpHost, h]; exact only_step (ih t) (by decide) (issueOne_only h)
    | none => simp only [pumpHost, h]; exact only_refl _ _

theorem pumpChain_only (k : Nat) (s : State) : Only [.ev, .out] (pumpChain k s) s := by
  induction k generalizing s with
  | zero => exact only_refl _ _
  | succ k ih =>
    rw [pumpChain]
    split
    · split
      · exact only_step (ih _) (by decide) (only_step (only_onEv ..) (by decide) (only_mono (cwSend_only ..) (by decide)))
      · exact only_refl _ _
    · exact only_refl _ _

theorem record_only (src : Nat) (code : BitVec 16) (payload : Nat) (s : State) : Only [.cxl, .ev, .out] (record src code
    payload s) s := by
  unfold record
  try dsimp only
  repeat' (first
    | with_reducible apply only_refl | (with_reducible apply only_step (only_onEv ..); decide)
    | (with_reducible apply only_step (pumpChain_only ..); decide) | (with_reducible apply only_step (pumpHost_only ..); decide)
    | split)

theorem storeFull_only (s : State) : Only [.chans, .safety, .ev] (storeFull s) s := by
  unfold storeFull
  try extract_lets
  repeat' (first
    | with_reducible apply only_refl | (with_reducible apply only_step (only_onSafety ..); decide)
    | (with_reducible apply only_step (only_onEv ..); decide) | (with_reducible apply only_step (safeReact_only ..); decide)
    | with_reducible apply only_ite | extract_lets | split)

theorem raise_only (src : Nat) (code : BitVec 16) (payload : Nat) (s : State) : Only [.chans, .safety, .cxl, .ev, .out] (raise
    src code payload s) s := by
  unfold raise
  try extract_lets
  repeat' (first
    | with_reducible apply only_refl | (with_reducible apply only_step (only_onEv ..); decide)
    | (with_reducible apply only_step (record_only ..); decide) | (with_reducible apply only_step (signal_only ..); decide)
    | (with_reducible apply only_step (storeFull_only ..); decide) | with_reducible apply only_ite | extract_lets | split)

theorem flushOwed_only (k : Nat) (s : State) : Only [.cxl, .ev, .out] (flushOwed k s) s := by
  induction k generalizing s with
  | zero => exact only_refl _ _
  | succ k ih =>
    rw [flushOwed]
    split
    · exact only_refl _ _
    · split
      · exact only_refl _ _
      · exact only_step (ih _) (by decide) (only_step (record_only ..) (by decide) (only_mono (only_onEv ..) (by decide)))

theorem trimStore_only (s : State) : Only [.chans, .safety, .cxl, .ev, .out] (trimStore s) s := by
  unfold trimStore
  try dsimp only
  repeat' (first
    | with_reducible apply only_refl | (with_reducible apply only_step (only_onSafety ..); decide)
    | (with_reducible apply only_step (only_onEv ..); decide) | (with_reducible apply only_step (flushOwed_only ..); decide)
    | (with_reducible apply only_step (raise_only ..); decide) | split)

theorem issueCq_only {q : Fin 4} {s t : State} (h : issueCq q s = some t) : Only [.cxl, .queues, .out] t s := by
  unfold issueCq at h
  dsimp only at h
  split at h
  · split at h
    · cases h
      exact only_step (only_onQueue ..) (by decide) (only_step (only_onCxl ..) (by decide) (only_step (only_emit ..) (by decide)
        (only_mono (only_emit ..) (by decide))))
    · cases h
  · cases h

theorem pumpCq_only (q : Fin 4) (k : Nat) (s : State) : Only [.cxl, .queues, .out] (pumpCq q k s) s := by
  induction k generalizing s with
  | zero => exact only_refl _ _
  | succ k ih =>
    cases h : issueCq q s with
    | some t => simp only [pumpCq, h]; exact only_step (ih t) (by decide) (issueCq_only h)
    | none => simp only [pumpCq, h]; exact only_refl _ _

theorem complete_only (d : Deferred) (status : BitVec 16) (result : Nat) (s : State) : Only [.cxl, .queues, .cw, .out]
    (complete d status result s) s := by
  unfold complete
  try dsimp only
  repeat' (first
    | with_reducible apply only_refl | (with_reducible apply only_step (only_onQueue ..); decide)
    | (with_reducible apply only_step (only_onCw ..); decide) | (with_reducible apply only_step (cwSend_only ..); decide)
    | (with_reducible apply only_step (pumpCq_only ..); decide) | split)

theorem finish_only (q : Fin 4) (status : BitVec 16) (result : Nat) (s : State) : Only [.cxl, .queues, .cw, .out] (finish q
    status result s) s := by
  unfold finish
  try dsimp only
  repeat' (first
    | with_reducible apply only_refl | (with_reducible apply only_step (only_onQueue ..); decide)
    | (with_reducible apply only_step (complete_only ..); decide) | split)

theorem stopHostBuild_only (s : State) : Only [.comp, .heads] (stopHostBuild s) s := by
  unfold stopHostBuild
  try dsimp only
  repeat' (first
    | with_reducible apply only_refl | (with_reducible apply only_step (only_onComp ..); decide)
    | (with_reducible apply only_step (only_onHeads ..); decide) | split)

theorem updateAttached_only (cause : Nat) (s : State) : Only [.comp, .heads, .chans, .safety, .cxl, .ev, .out] (updateAttached
    cause s) s := by
  unfold updateAttached
  try dsimp only
  repeat' (first
    | with_reducible apply only_refl | (with_reducible apply only_step (only_onCxl ..); decide)
    | (with_reducible apply only_step (raise_only ..); decide) | (with_reducible apply only_step (stopHostBuild_only ..); decide)
    | split)

theorem smbusWrite_only (preset : Fin 4) (mv : Nat) (s : State) : Only [.out] (smbusWrite preset mv s) s := by
  unfold smbusWrite
  try dsimp only
  repeat' (first
    | with_reducible apply only_refl | (with_reducible apply only_step (only_emit ..); decide) | split)

theorem onGroup_only (g : Fin 2) (f : GroupDyn → GroupDyn) (s : State) : Only [.therm] (onGroup g f s) s := by
  unfold onGroup
  try dsimp only
  repeat' (first
    | with_reducible apply only_refl | (with_reducible apply only_step (only_onTherm ..); decide) | split)

theorem restartWindow_only (g : Fin 2) (s : State) : Only [.therm] (restartWindow g s) s := by
  unfold restartWindow
  try dsimp only
  repeat' (first
    | with_reducible apply only_refl | (with_reducible apply only_step (only_onTherm ..); decide)
    | (with_reducible apply only_step (onGroup_only ..); decide) | split)

theorem settle_only (s : State) : Only [.cxl, .out] (settle s) s := by
  unfold settle
  try dsimp only
  repeat' (first
    | with_reducible apply only_refl | (with_reducible apply only_step (only_onCxl ..); decide)
    | (with_reducible apply only_step (signal_only ..); decide) | split)

theorem raiseRelease_only (x : Release) (written : Bool) (s : State) : Only [.chans, .safety, .cxl, .ev, .out] (raiseRelease x
    written s) s := by
  unfold raiseRelease
  try dsimp only
  repeat' (first
    | with_reducible apply only_refl | (with_reducible apply only_step (only_onEv ..); decide)
    | (with_reducible apply only_step (raise_only ..); decide) | split)

theorem putFence_only (w : RelWrite) (s : State) : Only [.out] (putFence w s) s := by
  unfold putFence
  try dsimp only
  repeat' (first
    | with_reducible apply only_refl | (with_reducible apply only_step (only_emit ..); decide) | split)



theorem issueRel_only (k : Nat) (s : State) : Only [.com, .out] (issueRel k s) s := by
  induction k generalizing s with
  | zero => exact only_refl _ _
  | succ k ih =>
    rw [issueRel]
    split
    · exact only_ite _ (only_step (ih _) (by decide) (only_step (putFence_only ..) (by decide) (only_mono (only_onCom ..) (by decide))))
        (only_refl _ _)
    · exact only_refl _ _

theorem addFence_only (w : RelWrite) (s : State) : Only [.com, .out] (addFence w s) s := by
  unfold addFence
  exact only_step (issueRel_only ..) (by decide) (only_mono (only_onCom ..) (by decide))

theorem pumpLatch_only (k : Nat) (s : State) :
    Only [.com, .chans, .safety, .cxl, .ev, .out] (pumpLatch k s) s := by
  induction k generalizing s with
  | zero => exact only_refl _ _
  | succ k ih =>
    rw [pumpLatch]
    repeat' (first
      | exact only_refl _ _
      | refine only_step (ih _) (by decide) ?_
      | refine only_step (raise_only ..) (by decide) ?_
      | refine only_step (raiseRelease_only ..) (by decide) ?_
      | refine only_step (addFence_only ..) (by decide) ?_
      | refine only_step (only_onCom ..) (by decide) ?_
      | split
      | dsimp only)

theorem later_only (src : Nat) (code : BitVec 16) (payload : Nat) (s : State) : Only [.com] (later src code payload s) s := by
  unfold later
  try dsimp only
  repeat' (first
    | with_reducible apply only_refl | (with_reducible apply only_step (only_onCom ..); decide) | split)

theorem runLatchQ_only (s : State) : Only [.com, .chans, .safety, .cxl, .ev, .out] (runLatchQ s) s := by
  unfold runLatchQ
  try dsimp only
  repeat' (first
    | with_reducible apply only_refl | (with_reducible apply only_step (pumpLatch_only ..); decide) | split)

end Sys2Proof.Machine
end

