-- ==== Sys2Proof/Laws/FramesCommands.lean ====
section
/-! SUPPORT. The parts of the state that the mailbox commands and the queues can change: one lemma per operation. -/

namespace Sys2Proof.Machine

set_option linter.all false

/-- The state that a command's answer leaves. -/
def Ans.after : Ans → State
  | .done _ _ s => s
  | .wait s => s

theorem after_done (st : BitVec 16) (r : Nat) (s : State) : (Ans.done st r s).after = s := rfl
theorem after_wait (s : State) : (Ans.wait s).after = s := rfl

theorem refuseOr_after {f : List Part} {r : Ref} {k : Ans} {s : State} (h : Only f k.after s) : Only f (refuseOr r k s).after s := by
  unfold refuseOr
  split
  · exact only_refl _ _
  · exact h

theorem refDone_after {f : List Part} {r : Ref} {u s : State} (h : Only f u s) : Only f (refDone r u s).after s :=
  refuseOr_after h

theorem layerSetNext_only (p : BitVec 384) (s : State) : Only [.cfg, .openSet] (layerSetNext p s) s := by
  unfold layerSetNext
  try dsimp only
  repeat' (first
    | with_reducible apply only_refl | (with_reducible apply only_step (only_onCfg ..); decide)
    | (with_reducible apply only_step (only_addSh ..); decide) | split)

theorem runLayerSet_only (d : Desc) (s : State) : Only [.cfg, .openSet] ((runLayerSet d s).after) s := by
  unfold runLayerSet
  try dsimp only
  repeat' (first
    | with_reducible apply only_refl | (with_reducible apply only_step (layerSetNext_only ..); decide)
    | with_reducible apply refuseOr_after | with_reducible apply refDone_after | dsimp only [after_done, after_wait] | split)

theorem layerEnableNext_only (p : BitVec 384) (s : State) : Only [.openSet] (layerEnableNext p s) s := by
  unfold layerEnableNext
  try dsimp only
  repeat' (first
    | with_reducible apply only_refl | (with_reducible apply only_step (only_addSh ..); decide) | split)

theorem runLayerEnable_only (d : Desc) (s : State) : Only [.openSet] ((runLayerEnable d s).after) s := by
  unfold runLayerEnable
  try dsimp only
  repeat' (first
    | with_reducible apply only_refl | (with_reducible apply only_step (layerEnableNext_only ..); decide)
    | with_reducible apply refuseOr_after | with_reducible apply refDone_after | dsimp only [after_done, after_wait] | split)

theorem runLutLoad_only (d : Desc) (s : State) : Only [.openSet] ((runLutLoad d s).after) s := by
  unfold runLutLoad
  try dsimp only
  repeat' (first
    | with_reducible apply only_refl | (with_reducible apply only_step (only_addLoad ..); decide)
    | with_reducible apply refuseOr_after | with_reducible apply refDone_after | dsimp only [after_done, after_wait] | split)

theorem runCoeffLoad_only (d : Desc) (s : State) : Only [.openSet] ((runCoeffLoad d s).after) s := by
  unfold runCoeffLoad
  try dsimp only
  repeat' (first
    | with_reducible apply only_refl | (with_reducible apply only_step (only_addLoad ..); decide)
    | with_reducible apply refuseOr_after | with_reducible apply refDone_after | dsimp only [after_done, after_wait] | split)

theorem runBlendOrderSet_only (d : Desc) (s : State) : Only [.openSet] ((runBlendOrderSet d s).after) s := by
  unfold runBlendOrderSet
  try dsimp only
  repeat' (first
    | with_reducible apply only_refl | (with_reducible apply only_step (only_addSh ..); decide)
    | with_reducible apply refuseOr_after | with_reducible apply refDone_after | dsimp only [after_done, after_wait] | split)

theorem writeCanvas_only (r : BitVec 256) (s : State) : Only [.cfg, .openSet] ((writeCanvas r s).2) s := by
  unfold writeCanvas
  try dsimp only
  repeat' (first
    | with_reducible apply only_refl | (with_reducible apply only_step (only_onCfg ..); decide)
    | (with_reducible apply only_step (only_addSh ..); decide) | split)

theorem writeMemory_only (r : BitVec 256) (s : State) : Only [.cfg] ((writeMemory r s).2) s := by
  unfold writeMemory
  try dsimp only
  repeat' (first
    | with_reducible apply only_refl | (with_reducible apply only_step (only_onCfg ..); decide) | split)

theorem markValid_only (s : State) : Only [.clk] (markValid s) s := by
  unfold markValid
  try dsimp only
  repeat' (first
    | with_reducible apply only_refl | (with_reducible apply only_step (only_onClk ..); decide) | split)

theorem sendVote_only (voter : Bool) (s : State) : Only [.out] (sendVote voter s) s := by
  unfold sendVote
  try dsimp only
  repeat' (first
    | with_reducible apply only_refl | (with_reducible apply only_step (cwSend_only ..); decide) | split)

theorem noteValid_only (s : State) : Only [.clk, .cw, .out] (noteValid s) s := by
  unfold noteValid
  try dsimp only
  repeat' (first
    | with_reducible apply only_refl | (with_reducible apply only_step (only_onCw ..); decide)
    | (with_reducible apply only_step (markValid_only ..); decide) | (with_reducible apply only_step (sendVote_only ..); decide)
    | split)

theorem judge_only (s : State) : Only [.clk, .com, .chans, .safety, .cxl, .ev, .cw, .out] (judge s) s := by
  unfold judge
  try dsimp only
  repeat' (first
    | with_reducible apply only_refl | (with_reducible apply only_step (only_onCom ..); decide)
    | (with_reducible apply only_step (noteValid_only ..); decide) | (with_reducible apply only_step (raise_only ..); decide)
    | (with_reducible apply only_step (only_forEach _ _ (fun _ _ => only_onCom ..) _); decide)
    | (with_reducible apply only_step (only_forEach _ _ (fun _ _ => noteValid_only ..) _); decide)
    | (with_reducible apply only_step (only_forEach _ _ (fun _ _ => raise_only ..) _); decide)
    | with_reducible apply only_forEach_step | intro x s | split)

theorem readLine_only (line : Nat) (s : State) : Only [.com, .out] (readLine line s) s := by
  unfold readLine
  try dsimp only
  repeat' (first
    | with_reducible apply only_refl | (with_reducible apply only_step (only_onCom ..); decide)
    | (with_reducible apply only_step (only_emit ..); decide) | split)

theorem trimLines_only (s : State) : Only [.com] (trimLines s) s := by
  unfold trimLines
  try dsimp only
  repeat' (first
    | with_reducible apply only_refl | (with_reducible apply only_step (only_onCom ..); decide) | split)

theorem commitNext_only (p : BitVec 384) (s : State) : Only [.clk, .openSet, .com, .chans, .safety, .cxl, .ev, .cw, .out]
    (commitNext p s) s := by
  unfold commitNext
  try dsimp only
  repeat' (first
    | with_reducible apply only_refl | (with_reducible apply only_step (only_onCom ..); decide)
    | (with_reducible apply only_step (only_onOpenSet ..); decide) | (with_reducible apply only_step (judge_only ..); decide)
    | (with_reducible apply only_step (readLine_only ..); decide)
    | (with_reducible apply only_step (only_forEach _ _ (fun _ _ => only_onCom ..) _); decide)
    | (with_reducible apply only_step (only_forEach _ _ (fun _ _ => only_onOpenSet ..) _); decide)
    | (with_reducible apply only_step (only_forEach _ _ (fun _ _ => judge_only ..) _); decide)
    | (with_reducible apply only_step (only_forEach _ _ (fun _ _ => readLine_only ..) _); decide)
    | with_reducible apply only_forEach_step | intro x s | split)

theorem runCommit_only (d : Desc) (s : State) : Only [.clk, .openSet, .com, .chans, .safety, .cxl, .ev, .cw, .out] ((runCommit
    d s).after) s := by
  unfold runCommit
  try dsimp only
  repeat' (first
    | with_reducible apply only_refl | (with_reducible apply only_step (commitNext_only ..); decide)
    | with_reducible apply refuseOr_after | with_reducible apply refDone_after | dsimp only [after_done, after_wait] | split)

theorem runFenceModeSet_only (d : Desc) (s : State) : Only [.pendLv] ((runFenceModeSet d s).after) s := by
  unfold runFenceModeSet
  try dsimp only
  repeat' (first
    | with_reducible apply only_refl | (with_reducible apply only_step (only_addLv ..); decide)
    | with_reducible apply refuseOr_after | with_reducible apply refDone_after | dsimp only [after_done, after_wait] | split)

theorem fenceData_only (line : Nat) (w : BitVec 512) (s : State) : Only [.clk, .com, .chans, .safety, .cxl, .ev, .cw, .out]
    (fenceData line w s) s := by
  unfold fenceData
  try dsimp only
  repeat' (first
    | with_reducible apply only_refl | (with_reducible apply only_step (only_onCom ..); decide)
    | (with_reducible apply only_step (judge_only ..); decide) | (with_reducible apply only_step (noteValid_only ..); decide)
    | split)

theorem fenceFailed_only (line : Nat) (s : State) : Only [.com, .chans, .safety, .cxl, .ev, .out] (fenceFailed line s) s := by
  unfold fenceFailed
  try dsimp only
  repeat' (first
    | with_reducible apply only_refl | (with_reducible apply only_step (only_onCom ..); decide)
    | (with_reducible apply only_step (raise_only ..); decide)
    | (with_reducible apply only_step (only_forEach _ _ (fun _ _ => only_onCom ..) _); decide)
    | (with_reducible apply only_step (only_forEach _ _ (fun _ _ => raise_only ..) _); decide)
    | with_reducible apply only_forEach_step | intro x s | split)

theorem retryFences_only (s : State) : Only [.com, .out] (retryFences s) s := by
  unfold retryFences
  try dsimp only
  repeat' (first
    | with_reducible apply only_refl | (with_reducible apply only_step (only_onCom ..); decide)
    | (with_reducible apply only_step (issueRel_only ..); decide) | (with_reducible apply only_step (readLine_only ..); decide)
    | (with_reducible apply only_step (only_forEach _ _ (fun _ _ => only_onCom ..) _); decide)
    | (with_reducible apply only_step (only_forEach _ _ (fun _ _ => issueRel_only ..) _); decide)
    | (with_reducible apply only_step (only_forEach _ _ (fun _ _ => readLine_only ..) _); decide)
    | with_reducible apply only_forEach_step | intro x s | split)

theorem stopFences_only (s : State) : Only [.com, .chans, .safety, .cxl, .ev, .out] (stopFences s) s := by
  unfold stopFences
  try dsimp only
  repeat' (first
    | with_reducible apply only_refl | (with_reducible apply only_step (only_onCom ..); decide)
    | (with_reducible apply only_step (raise_only ..); decide)
    | (with_reducible apply only_step (only_forEach _ _ (fun _ _ => only_onCom ..) _); decide)
    | (with_reducible apply only_step (only_forEach _ _ (fun _ _ => raise_only ..) _); decide)
    | with_reducible apply only_forEach_step | intro x s | split)

theorem rereadFences_only (s : State) : Only [.com, .out] (rereadFences s) s := by
  unfold rereadFences
  try dsimp only
  repeat' (first
    | with_reducible apply only_refl | (with_reducible apply only_step (readLine_only ..); decide)
    | (with_reducible apply only_step (only_forEach _ _ (fun _ _ => readLine_only ..) _); decide)
    | with_reducible apply only_forEach_step | intro x s | split)

theorem headSetNext_only (p : BitVec 384) (s : State) : Only [.cfg, .openSet] (headSetNext p s) s := by
  unfold headSetNext
  try dsimp only
  repeat' (first
    | with_reducible apply only_refl | (with_reducible apply only_step (only_onCfg ..); decide)
    | (with_reducible apply only_step (only_addSh ..); decide) | split)

theorem runHeadSet_only (d : Desc) (s : State) : Only [.cfg, .openSet] ((runHeadSet d s).after) s := by
  unfold runHeadSet
  try dsimp only
  repeat' (first
    | with_reducible apply only_refl | (with_reducible apply only_step (headSetNext_only ..); decide)
    | with_reducible apply refuseOr_after | with_reducible apply refDone_after | dsimp only [after_done, after_wait] | split)

theorem warpLoadNext_only (p : BitVec 384) (s : State) : Only [.openSet] (warpLoadNext p s) s := by
  unfold warpLoadNext
  try dsimp only
  repeat' (first
    | with_reducible apply only_refl | (with_reducible apply only_step (only_addLoad ..); decide) | split)

theorem runWarpLoad_only (d : Desc) (s : State) : Only [.openSet] ((runWarpLoad d s).after) s := by
  unfold runWarpLoad
  try dsimp only
  repeat' (first
    | with_reducible apply only_refl | (with_reducible apply only_step (warpLoadNext_only ..); decide)
    | with_reducible apply refuseOr_after | with_reducible apply refDone_after | dsimp only [after_done, after_wait] | split)

theorem timingNext_only (p : BitVec 384) (s : State) : Only [.pendLv, .openSet] (timingNext p s) s := by
  unfold timingNext
  try dsimp only
  repeat' (first
    | with_reducible apply only_refl | (with_reducible apply only_step (only_addSh ..); decide)
    | (with_reducible apply only_step (only_addLv ..); decide) | split)

theorem runTimingSet_only (d : Desc) (s : State) : Only [.pendLv, .openSet] ((runTimingSet d s).after) s := by
  unfold runTimingSet
  try dsimp only
  repeat' (first
    | with_reducible apply only_refl | (with_reducible apply only_step (timingNext_only ..); decide)
    | with_reducible apply refuseOr_after | with_reducible apply refDone_after | dsimp only [after_done, after_wait] | split)

theorem seqLoadNext_only (p : BitVec 384) (s : State) : Only [.openSet] (seqLoadNext p s) s := by
  unfold seqLoadNext
  try dsimp only
  repeat' (first
    | with_reducible apply only_refl | (with_reducible apply only_step (only_addLoad ..); decide) | split)

theorem runPlaneSeqLoad_only (d : Desc) (s : State) : Only [.openSet] ((runPlaneSeqLoad d s).after) s := by
  unfold runPlaneSeqLoad
  try dsimp only
  repeat' (first
    | with_reducible apply only_refl | (with_reducible apply only_step (seqLoadNext_only ..); decide)
    | with_reducible apply refuseOr_after | with_reducible apply refDone_after | dsimp only [after_done, after_wait] | split)

theorem runDimSet_only (d : Desc) (s : State) : Only [.pendLv] ((runDimSet d s).after) s := by
  unfold runDimSet
  try dsimp only
  repeat' (first
    | with_reducible apply only_refl | (with_reducible apply only_step (only_addLv ..); decide)
    | with_reducible apply refuseOr_after | with_reducible apply refDone_after | dsimp only [after_done, after_wait] | split)

theorem writeHeadColour_only (r : BitVec 256) (s : State) : Only [.openSet] ((writeHeadColour r s).2) s := by
  unfold writeHeadColour
  try dsimp only
  repeat' (first
    | with_reducible apply only_refl | (with_reducible apply only_step (only_addSh ..); decide) | split)

theorem writeArray_only (r : BitVec 256) (s : State) : Only [.cfg, .openSet] ((writeArray r s).2.2) s := by
  unfold writeArray
  try dsimp only
  repeat' (first
    | with_reducible apply only_refl | (with_reducible apply only_step (only_onCfg ..); decide)
    | (with_reducible apply only_step (only_addSh ..); decide) | split)

theorem writeRaster_only (scannerRuns : Bool) (r : BitVec 256) (s : State) : Only [.cfg, .openSet] ((writeRaster scannerRuns r
    s).2) s := by
  unfold writeRaster
  try dsimp only
  repeat' (first
    | with_reducible apply only_refl | (with_reducible apply only_step (only_onCfg ..); decide)
    | (with_reducible apply only_step (only_addSh ..); decide) | split)

theorem writePixelTiming_only (r : BitVec 256) (s : State) : Only [.cfg, .openSet] ((writePixelTiming r s).2) s := by
  unfold writePixelTiming
  try dsimp only
  repeat' (first
    | with_reducible apply only_refl | (with_reducible apply only_step (only_onCfg ..); decide)
    | (with_reducible apply only_step (only_addLoad ..); decide) | split)

theorem chanSetNext_only (p : BitVec 384) (s : State) : Only [.cfg, .pendLv] (chanSetNext p s) s := by
  unfold chanSetNext
  try dsimp only
  repeat' (first
    | with_reducible apply only_refl | (with_reducible apply only_step (only_onCfg ..); decide)
    | (with_reducible apply only_step (only_addLv ..); decide) | split)

theorem runLightChannelSet_only (d : Desc) (s : State) : Only [.cfg, .pendLv] ((runLightChannelSet d s).after) s := by
  unfold runLightChannelSet
  try dsimp only
  repeat' (first
    | with_reducible apply only_refl | (with_reducible apply only_step (chanSetNext_only ..); decide)
    | with_reducible apply refuseOr_after | with_reducible apply refDone_after | dsimp only [after_done, after_wait] | split)

theorem colourTargetNext_only (p : BitVec 384) (s : State) : Only [.openSet] (colourTargetNext p s) s := by
  unfold colourTargetNext
  try dsimp only
  repeat' (first
    | with_reducible apply only_refl | (with_reducible apply only_step (only_addSh ..); decide)
    | (with_reducible apply only_step (only_addLoad ..); decide) | split)

theorem runColourTargetSet_only (d : Desc) (s : State) : Only [.openSet] ((runColourTargetSet d s).after) s := by
  unfold runColourTargetSet
  try dsimp only
  repeat' (first
    | with_reducible apply only_refl | (with_reducible apply only_step (colourTargetNext_only ..); decide)
    | with_reducible apply refuseOr_after | with_reducible apply refDone_after | dsimp only [after_done, after_wait] | split)

theorem runLampSet_only (d : Desc) (s : State) : Only [.pendLv] ((runLampSet d s).after) s := by
  unfold runLampSet
  try dsimp only
  repeat' (first
    | with_reducible apply only_refl | (with_reducible apply only_step (only_addLv ..); decide)
    | with_reducible apply refuseOr_after | with_reducible apply refDone_after | dsimp only [after_done, after_wait] | split)

theorem runLampFade_only (d : Desc) (s : State) : Only [.pendLv] ((runLampFade d s).after) s := by
  unfold runLampFade
  try dsimp only
  repeat' (first
    | with_reducible apply only_refl | (with_reducible apply only_step (only_addLv ..); decide)
    | with_reducible apply refuseOr_after | with_reducible apply refDone_after | dsimp only [after_done, after_wait] | split)

theorem stepTaken_only (s : State) : Only [.therm] (stepTaken s) s := by
  unfold stepTaken
  try dsimp only
  repeat' (first
    | with_reducible apply only_refl | (with_reducible apply only_step (only_onTherm ..); decide) | split)

theorem quotaNext_only (p : BitVec 384) (s : State) : Only [.pendLv, .sluice] (quotaNext p s) s := by
  unfold quotaNext
  try dsimp only
  repeat' (first
    | with_reducible apply only_refl | (with_reducible apply only_step (only_onSluice ..); decide)
    | (with_reducible apply only_step (only_addLv ..); decide) | split)

theorem runPowerQuota_only (d : Desc) (s : State) : Only [.pendLv, .sluice] ((runPowerQuota d s).after) s := by
  unfold runPowerQuota
  try dsimp only
  repeat' (first
    | with_reducible apply only_refl | (with_reducible apply only_step (quotaNext_only ..); decide)
    | dsimp only [after_done, after_wait] | split)

theorem runThermalSet_only (d : Desc) (s : State) : Only [.pendLv] ((runThermalSet d s).after) s := by
  unfold runThermalSet
  try dsimp only
  repeat' (first
    | with_reducible apply only_refl | (with_reducible apply only_step (only_addLv ..); decide)
    | with_reducible apply refuseOr_after | with_reducible apply refDone_after | dsimp only [after_done, after_wait] | split)

theorem writeLink_only (r : BitVec 256) (s : State) : Only [.cfg, .pendLv] ((writeLink r s).2) s := by
  unfold writeLink
  try dsimp only
  repeat' (first
    | with_reducible apply only_refl | (with_reducible apply only_step (only_onCfg ..); decide)
    | (with_reducible apply only_step (only_addLv ..); decide) | split)

theorem writeOs_only (r : BitVec 256) (s : State) : Only [.cfg, .pendLv] ((writeOs r s).2) s := by
  unfold writeOs
  try dsimp only
  repeat' (first
    | with_reducible apply only_refl | (with_reducible apply only_step (only_onCfg ..); decide)
    | (with_reducible apply only_step (only_addLv ..); decide) | split)

theorem writeLine_only (r : BitVec 256) (s : State) : Only [.cfg, .pendLv] ((writeLine r s).2) s := by
  unfold writeLine
  try dsimp only
  repeat' (first
    | with_reducible apply only_refl | (with_reducible apply only_step (only_onCfg ..); decide)
    | (with_reducible apply only_step (only_addLv ..); decide) | split)

theorem stageLayouts_only (s : State) : Only [.safety] (stageLayouts s) s := by
  unfold stageLayouts
  try dsimp only
  repeat' (first
    | with_reducible apply only_refl | (with_reducible apply only_step (only_onSafety ..); decide) | split)

theorem applyLayouts_only (s : State) : Only [.safety] (applyLayouts s) s := by
  unfold applyLayouts
  try dsimp only
  repeat' (first
    | with_reducible apply only_refl | (with_reducible apply only_step (only_onSafety ..); decide) | split)

theorem prepareLayouts_only (wrote : Bool) (s : State) : Only [.cfg, .safety] (prepareLayouts wrote s) s := by
  unfold prepareLayouts
  try dsimp only
  repeat' (first
    | with_reducible apply only_refl | (with_reducible apply only_step (only_onSafety ..); decide) | split)

theorem safetyWindowNext_only (p : BitVec 384) (s : State) : Only [.cfg, .pendLv, .safety] (safetyWindowNext p s) s := by
  unfold safetyWindowNext
  try dsimp only
  repeat' (first
    | with_reducible apply only_refl | (with_reducible apply only_step (only_onCfg ..); decide)
    | (with_reducible apply only_step (only_addLv ..); decide) | (with_reducible apply only_step (prepareLayouts_only ..); decide)
    | split)

theorem runSafetyWindowSet_only (d : Desc) (s : State) : Only [.cfg, .pendLv, .safety] ((runSafetyWindowSet d s).after) s := by
  unfold runSafetyWindowSet
  try dsimp only
  repeat' (first
    | with_reducible apply only_refl | (with_reducible apply only_step (safetyWindowNext_only ..); decide)
    | with_reducible apply refuseOr_after | with_reducible apply refDone_after | dsimp only [after_done, after_wait] | split)

theorem telltaleNext_only (p : BitVec 384) (s : State) : Only [.cfg, .pendLv, .safety] (telltaleNext p s) s := by
  unfold telltaleNext
  try dsimp only
  repeat' (first
    | with_reducible apply only_refl | (with_reducible apply only_step (only_onSafety ..); decide)
    | (with_reducible apply only_step (only_addLv ..); decide) | (with_reducible apply only_step (prepareLayouts_only ..); decide)
    | split)

theorem runTelltaleSet_only (d : Desc) (s : State) : Only [.cfg, .pendLv, .safety] ((runTelltaleSet d s).after) s := by
  unfold runTelltaleSet
  try dsimp only
  repeat' (first
    | with_reducible apply only_refl | (with_reducible apply only_step (telltaleNext_only ..); decide)
    | with_reducible apply refuseOr_after | with_reducible apply refDone_after | dsimp only [after_done, after_wait] | split)

theorem enterSafe_only (m : Nat) (hd : Option Head) (toDark : Bool) (restartable : Bool) (s : State) : Only [.chans, .safety,
    .cxl, .ev, .out] (enterSafe m hd toDark restartable s) s := by
  unfold enterSafe
  try dsimp only
  repeat' (first
    | with_reducible apply only_refl | (with_reducible apply only_step (raise_only ..); decide)
    | (with_reducible apply only_step (safeReact_only ..); decide) | split)

theorem safetyFault_only (m : Nat) (tied : Option Head) (head : Nat) (colour : Nat) (toDark : Bool) (restartable : Bool) (rho :
    Nat) (s : State) : Only [.chans, .safety, .cxl, .ev, .out] (safetyFault m tied head colour toDark restartable rho s) s := by
  unfold safetyFault
  try dsimp only
  repeat' (first
    | with_reducible apply only_refl | (with_reducible apply only_step (raise_only ..); decide)
    | (with_reducible apply only_step (safeReact_only ..); decide) | split)

theorem runSafeStateRequest_only (d : Desc) (s : State) : Only [.chans, .safety, .cxl, .ev, .out] ((runSafeStateRequest d
    s).after) s := by
  unfold runSafeStateRequest
  try dsimp only
  repeat' (first
    | with_reducible apply only_refl | (with_reducible apply only_step (only_onSafety ..); decide)
    | (with_reducible apply only_step (enterSafe_only ..); decide) | dsimp only [after_done, after_wait] | split)

theorem runDeviceInfo_only (y1 : Desc) (s : State) : Only [] ((runDeviceInfo y1 s).after) s := by
  unfold runDeviceInfo
  try dsimp only
  repeat' (first
    | with_reducible apply only_refl | dsimp only [after_done, after_wait] | split)

theorem runEventMask_only (d : Desc) (s : State) : Only [.ev] ((runEventMask d s).after) s := by
  unfold runEventMask
  try dsimp only
  repeat' (first
    | with_reducible apply only_refl | (with_reducible apply only_step (only_onEv ..); decide)
    | with_reducible apply refuseOr_after | with_reducible apply refDone_after | dsimp only [after_done, after_wait] | split)

theorem runSettingsRead_only (d : Desc) (s : State) : Only [] ((runSettingsRead d s).after) s := by
  unfold runSettingsRead
  try dsimp only
  repeat' (first
    | with_reducible apply only_refl | with_reducible apply refuseOr_after | with_reducible apply refDone_after
    | dsimp only [after_done, after_wait] | split)

theorem noteItem_only (item : Nat) (index : Nat) (state : Nat) (failing : Nat) (reason : Nat) (value : BitVec 64) (s : State) :
    Only [.cal] (noteItem item index state failing reason value s) s := by
  unfold noteItem
  try dsimp only
  repeat' (first
    | with_reducible apply only_refl | (with_reducible apply only_step (only_onCal ..); decide) | split)

theorem startItem_only (item : Nat) (index : Nat) (temp : Int) (uv : Nat) (s : State) : Only [.cal] (startItem item index temp
    uv s) s := by
  unfold startItem
  try dsimp only
  repeat' (first
    | with_reducible apply only_refl | (with_reducible apply only_step (only_onCal ..); decide)
    | (with_reducible apply only_step (noteItem_only ..); decide) | split)

theorem runCalRun_only (d : Desc) (s : State) : Only [.cal] ((runCalRun d s).after) s := by
  unfold runCalRun
  try dsimp only
  repeat' (first
    | with_reducible apply only_refl | (with_reducible apply only_step (startItem_only ..); decide)
    | with_reducible apply refuseOr_after | with_reducible apply refDone_after | dsimp only [after_done, after_wait] | split)

theorem runCalStatus_only (d : Desc) (s : State) : Only [] ((runCalStatus d s).after) s := by
  unfold runCalStatus
  try dsimp only
  repeat' (first
    | with_reducible apply only_refl | with_reducible apply refuseOr_after | with_reducible apply refDone_after
    | dsimp only [after_done, after_wait] | split)

theorem runCalCommit_only (d : Desc) (s : State) : Only [.chans, .safety, .cxl, .ev, .cal, .out] ((runCalCommit d s).after) s
    := by
  unfold runCalCommit
  try dsimp only
  repeat' (first
    | with_reducible apply only_refl | (with_reducible apply only_step (only_onCal ..); decide)
    | (with_reducible apply only_step (raise_only ..); decide) | dsimp only [after_done, after_wait] | split)

theorem tellDone_only (item : Nat) (index : Nat) (state : Nat) (failing : Nat) (reason : Nat) (value : BitVec 64) (s : State) :
    Only [.chans, .safety, .cxl, .ev, .cal, .out] (tellDone item index state failing reason value s) s := by
  unfold tellDone
  try dsimp only
  repeat' (first
    | with_reducible apply only_refl | (with_reducible apply only_step (noteItem_only ..); decide)
    | (with_reducible apply only_step (raise_only ..); decide) | split)

theorem nextPartWord_only (s : State) : Only [.cal] ((nextPartWord s).1) s := by
  unfold nextPartWord
  try dsimp only
  repeat' (first
    | with_reducible apply only_refl | (with_reducible apply only_step (only_onCal ..); decide)
    | (with_reducible apply only_step (noteItem_only ..); decide) | split)

theorem tellCal_only (x : State × Option Nat) :
    Only [.chans, .safety, .cxl, .ev, .out] (tellCal x) x.1 := by
  unfold tellCal
  split
  · exact raise_only ..
  · exact only_refl _ _

theorem nextPart_only (s : State) : Only [.chans, .safety, .cxl, .ev, .cal, .out] (nextPart s) s := by
  unfold nextPart
  exact only_step (tellCal_only ..) (by decide) (only_mono (nextPartWord_only ..) (by decide))

theorem acceptPart_only (r : CalResult) (value : BitVec 64) (s : State) : Only [.chans, .safety, .cxl, .ev, .cal, .out]
    (acceptPart r value s) s := by
  unfold acceptPart
  try dsimp only
  repeat' (first
    | with_reducible apply only_refl | (with_reducible apply only_step (only_onCal ..); decide)
    | (with_reducible apply only_step (nextPart_only ..); decide) | (with_reducible apply only_step (tellDone_only ..); decide)
    | split)

theorem rejectPart_only (q : Nat) (byAgree : Bool) (s : State) : Only [.chans, .safety, .cxl, .ev, .cal, .out] (rejectPart q
    byAgree s) s := by
  unfold rejectPart
  try dsimp only
  repeat' (first
    | with_reducible apply only_refl | (with_reducible apply only_step (only_onCal ..); decide)
    | (with_reducible apply only_step (nextPart_only ..); decide) | (with_reducible apply only_step (tellDone_only ..); decide)
    | split)

theorem endPart_only (s : State) : Only [.chans, .safety, .cxl, .ev, .cal, .out] (endPart s) s := by
  unfold endPart
  try extract_lets
  repeat' (first
    | with_reducible apply only_refl | (with_reducible apply only_step (acceptPart_only ..); decide)
    | (with_reducible apply only_step (rejectPart_only ..); decide) | with_reducible apply only_ite | extract_lets | split)

theorem abortWord_only (reason : Nat) (s : State) : Only [.cal] ((abortWord reason s).1) s := by
  unfold abortWord
  try dsimp only
  repeat' (first
    | with_reducible apply only_refl | (with_reducible apply only_step (only_onCal ..); decide)
    | (with_reducible apply only_step (noteItem_only ..); decide) | split)

theorem markAbort_only (reason : Nat) (s : State) : Only [.cal] (markAbort reason s) s := by
  unfold markAbort
  try dsimp only
  repeat' (first
    | with_reducible apply only_refl | (with_reducible apply only_step (only_onCal ..); decide) | split)

theorem beginStep_only (m : LatchEnd) (s : State) : Only [.cal] (beginStep m s) s := by
  unfold beginStep
  try dsimp only
  repeat' (first
    | with_reducible apply only_refl | (with_reducible apply only_step (only_onCal ..); decide)
    | (with_reducible apply only_step (markAbort_only ..); decide) | (with_reducible apply only_step (noteItem_only ..); decide)
    | split)

theorem applyOne_only (a : Applying) (s : State) : Only [.therm, .cal] (applyOne a s) s := by
  unfold applyOne
  try dsimp only
  repeat' (first
    | with_reducible apply only_refl | (with_reducible apply only_step (only_onCal ..); decide)
    | (with_reducible apply only_step (restartWindow_only ..); decide) | rw [id_eq] | split)

theorem applyLatch_only (s : State) : Only [.therm, .cal] ((applyLatch s).1) s := by
  unfold applyLatch
  try dsimp only
  repeat' (first
    | with_reducible apply only_refl | (with_reducible apply only_step (only_onCal ..); decide)
    | (with_reducible apply only_step (applyOne_only ..); decide)
    | (with_reducible apply only_step (nextPartWord_only ..); decide)
    | (with_reducible apply only_step (only_forEach _ _ (fun _ _ => only_onCal ..) _); decide)
    | (with_reducible apply only_step (only_forEach _ _ (fun _ _ => applyOne_only ..) _); decide)
    | (with_reducible apply only_step (only_forEach _ _ (fun _ _ => nextPartWord_only ..) _); decide)
    | with_reducible apply only_forEach_step | intro x s | split)

theorem calWatch_only (s : State) : Only [.cal] (calWatch s) s := by
  unfold calWatch
  try dsimp only
  repeat' (first
    | with_reducible apply only_refl | (with_reducible apply only_step (markAbort_only ..); decide) | split)

theorem writeRecord_only (r : BootRecord) (s : State) : Only [.flash, .out] (writeRecord r s) s := by
  unfold writeRecord
  try dsimp only
  repeat' (first
    | with_reducible apply only_refl | (with_reducible apply only_step (only_onFlash ..); decide)
    | (with_reducible apply only_step (only_emit ..); decide) | split)

theorem addJob_only (j : FlashJob) (s : State) : Only [.flash] (addJob j s) s := by
  unfold addJob
  try dsimp only
  repeat' (first
    | with_reducible apply only_refl | (with_reducible apply only_step (only_onFlash ..); decide) | split)

theorem tellUpdate_only (cause : Nat) (s : State) : Only [.chans, .safety, .cxl, .ev, .out] (tellUpdate cause s) s := by
  unfold tellUpdate
  try dsimp only
  repeat' (first
    | with_reducible apply only_refl | (with_reducible apply only_step (raise_only ..); decide) | split)

theorem newSession_only (chain : Bool) (r : OpenReq) (state : Nat) (s : State) : Only [.upd] (newSession chain r state s) s := by
  unfold newSession
  try dsimp only
  repeat' (first
    | with_reducible apply only_refl | (with_reducible apply only_step (only_onUpd ..); decide) | rw [id_eq] | split)

theorem touch_only (s : State) : Only [.upd] (touch s) s := by
  unfold touch
  try dsimp only
  repeat' (first
    | with_reducible apply only_refl | (with_reducible apply only_step (only_onUpd ..); decide) | split)

theorem openEffect_only (chain : Bool) (r : OpenReq) (how : Opening) (j : FlashJob) (s : State) : Only [.chans, .safety, .cxl,
    .ev, .flash, .upd, .out] (openEffect chain r how j s) s := by
  unfold openEffect
  try dsimp only
  repeat' (first
    | with_reducible apply only_refl | (with_reducible apply only_step (only_onUpd ..); decide)
    | (with_reducible apply only_step (addJob_only ..); decide) | (with_reducible apply only_step (newSession_only ..); decide)
    | (with_reducible apply only_step (tellUpdate_only ..); decide) | (with_reducible apply only_step (touch_only ..); decide)
    | split)

theorem sendCtrl_only (op : Nat) (p : BitVec 384) (s : State) : Only [.out] (sendCtrl op p s) s := by
  unfold sendCtrl
  try dsimp only
  repeat' (first
    | with_reducible apply only_refl | (with_reducible apply only_step (cwEmit_only ..); decide) | split)

theorem sendResp_only (op : Nat) (st : BitVec 16) (result : Nat) (s : State) : Only [.out] (sendResp op st result s) s := by
  unfold sendResp
  try dsimp only
  repeat' (first
    | with_reducible apply only_refl | (with_reducible apply only_step (cwSend_only ..); decide) | split)

theorem chainDone_only (w : ChainWait) (own : BitVec 16 × Nat) (s : State) : Only [.chans, .safety, .cxl, .queues, .ev, .upd,
    .cw, .out] (chainDone w own s) s := by
  unfold chainDone
  try dsimp only
  repeat' (first
    | with_reducible apply only_refl | (with_reducible apply only_step (only_onUpd ..); decide)
    | (with_reducible apply only_step (finish_only ..); decide) | (with_reducible apply only_step (raise_only ..); decide)
    | (with_reducible apply only_step (sendCtrl_only ..); decide)
    | (with_reducible apply only_step (only_forEach _ _ (fun _ _ => only_onUpd ..) _); decide)
    | (with_reducible apply only_step (only_forEach _ _ (fun _ _ => finish_only ..) _); decide)
    | (with_reducible apply only_step (only_forEach _ _ (fun _ _ => raise_only ..) _); decide)
    | (with_reducible apply only_step (only_forEach _ _ (fun _ _ => sendCtrl_only ..) _); decide)
    | with_reducible apply only_forEach_step | intro x s | split)

theorem tryChain_only (s : State) : Only [.chans, .safety, .cxl, .queues, .ev, .upd, .cw, .out] (tryChain s) s := by
  unfold tryChain
  try dsimp only
  repeat' (first
    | with_reducible apply only_refl | (with_reducible apply only_step (chainDone_only ..); decide) | split)

theorem ownAnswer_only (st : BitVec 16) (result : Nat) (s : State) : Only [.chans, .safety, .cxl, .queues, .ev, .upd, .cw,
    .out] (ownAnswer st result s) s := by
  unfold ownAnswer
  try dsimp only
  repeat' (first
    | with_reducible apply only_refl | (with_reducible apply only_step (only_onUpd ..); decide)
    | (with_reducible apply only_step (finish_only ..); decide) | (with_reducible apply only_step (tryChain_only ..); decide)
    | split)

theorem sendBlock_only (b : Nat) (bytes : List Byte) (crc : BitVec 32) (s : State) : Only [.out] (sendBlock b bytes crc s) s := by
  unfold sendBlock
  try extract_lets
  repeat' (first
    | with_reducible apply only_refl | (with_reducible apply only_step (cwSend_only ..); decide)
    | (with_reducible apply only_step (only_forEach _ _ (fun _ _ => cwSend_only ..) _); decide)
    | with_reducible apply only_forEach_step | intro x s | with_reducible apply only_ite | extract_lets | split)

theorem forwardBlock_only (b : Nat) (bytes : List Byte) (crc : BitVec 32) (s : State) : Only [.out] (forwardBlock b bytes crc
    s) s := by
  unfold forwardBlock
  try extract_lets
  repeat' (first
    | with_reducible apply only_refl | (with_reducible apply only_step (sendBlock_only ..); decide)
    | with_reducible apply only_ite | extract_lets | split)

theorem startBlock_only (b : Nat) (bytes : List Byte) (s : State) : Only [.flash, .upd, .out] (startBlock b bytes s) s := by
  unfold startBlock
  try dsimp only
  repeat' (first
    | with_reducible apply only_refl | (with_reducible apply only_step (only_onUpd ..); decide)
    | (with_reducible apply only_step (addJob_only ..); decide) | (with_reducible apply only_step (forwardBlock_only ..); decide)
    | split)

theorem freeTransit_only (s : State) : Only [.flash, .upd, .out] (freeTransit s) s := by
  unfold freeTransit
  try dsimp only
  repeat' (first
    | with_reducible apply only_refl | (with_reducible apply only_step (only_onUpd ..); decide)
    | (with_reducible apply only_step (startBlock_only ..); decide) | split)

theorem writeCopy_only (i : Fin 2) (es : List SettingsEntry) (s : State) : Only [.flash, .out] (writeCopy i es s) s := by
  unfold writeCopy
  try dsimp only
  repeat' (first
    | with_reducible apply only_refl | (with_reducible apply only_step (only_onFlash ..); decide)
    | (with_reducible apply only_step (only_emit ..); decide) | split)

theorem workDone_only (w : FlashWork) (s : State) : Only [.flash, .upd, .out] (workDone w s) s := by
  unfold workDone
  try dsimp only
  repeat' (first
    | with_reducible apply only_refl | (with_reducible apply only_step (only_onFlash ..); decide)
    | (with_reducible apply only_step (only_onUpd ..); decide) | (with_reducible apply only_step (only_emit ..); decide)
    | (with_reducible apply only_step (writeCopy_only ..); decide)
    | (with_reducible apply only_step (writeRecord_only ..); decide) | split)

theorem stageWhenFull_only (s : State) : Only [.flash] (stageWhenFull s) s := by
  unfold stageWhenFull
  try dsimp only
  repeat' (first
    | with_reducible apply only_refl | (with_reducible apply only_step (addJob_only ..); decide) | rw [id_eq] | split)

theorem setSession_only (st : Nat) (s : State) : Only [.upd] (setSession st s) s := by
  unfold setSession
  try dsimp only
  repeat' (first
    | with_reducible apply only_refl | (with_reducible apply only_step (only_onUpd ..); decide) | split)

theorem endJob_only (j : FlashJob) (s : State) : Only [.chans, .safety, .cxl, .queues, .ev, .flash, .upd, .cw, .out] (endJob j
    s) s := by
  unfold endJob
  try dsimp only
  repeat' (first
    | with_reducible apply only_refl | (with_reducible apply only_step (only_onUpd ..); decide)
    | (with_reducible apply only_step (freeTransit_only ..); decide)
    | (with_reducible apply only_step (ownAnswer_only ..); decide) | (with_reducible apply only_step (sendResp_only ..); decide)
    | (with_reducible apply only_step (setSession_only ..); decide)
    | (with_reducible apply only_step (stageWhenFull_only ..); decide)
    | (with_reducible apply only_step (tellUpdate_only ..); decide) | (with_reducible apply only_step (workDone_only ..); decide)
    | split)

theorem runUpdateOpen_only (d : Desc) (s : State) : Only [.chans, .safety, .cxl, .ev, .flash, .upd, .out] ((runUpdateOpen d
    s).after) s := by
  unfold runUpdateOpen
  try dsimp only
  repeat' (first
    | with_reducible apply only_refl | (with_reducible apply only_step (only_onUpd ..); decide)
    | (with_reducible apply only_step (openEffect_only ..); decide) | (with_reducible apply only_step (sendCtrl_only ..); decide)
    | dsimp only [after_done, after_wait] | split)

theorem runUpdateBlock_only (d : Desc) (s : State) : Only [.flash, .upd, .out] ((runUpdateBlock d s).after) s := by
  unfold runUpdateBlock
  try dsimp only
  repeat' (first
    | with_reducible apply only_refl | (with_reducible apply only_step (only_onUpd ..); decide)
    | (with_reducible apply only_step (addJob_only ..); decide) | (with_reducible apply only_step (forwardBlock_only ..); decide)
    | (with_reducible apply only_step (startBlock_only ..); decide) | (with_reducible apply only_step (touch_only ..); decide)
    | with_reducible apply refuseOr_after | with_reducible apply refDone_after | dsimp only [after_done, after_wait] | split)

theorem runUpdateVerify_only (y1 : Desc) (s : State) : Only [.chans, .safety, .cxl, .queues, .ev, .flash, .upd, .cw, .out]
    ((runUpdateVerify y1 s).after) s := by
  unfold runUpdateVerify
  try dsimp only
  repeat' (first
    | with_reducible apply only_refl | (with_reducible apply only_step (only_onUpd ..); decide)
    | (with_reducible apply only_step (addJob_only ..); decide) | (with_reducible apply only_step (sendCtrl_only ..); decide)
    | (with_reducible apply only_step (touch_only ..); decide) | (with_reducible apply only_step (tryChain_only ..); decide)
    | dsimp only [after_done, after_wait] | split)

theorem runUpdateActivate_only (d : Desc) (s : State) : Only [.chans, .safety, .cxl, .queues, .ev, .flash, .upd, .cw, .out]
    ((runUpdateActivate d s).after) s := by
  unfold runUpdateActivate
  try dsimp only
  repeat' (first
    | with_reducible apply only_refl | (with_reducible apply only_step (only_onUpd ..); decide)
    | (with_reducible apply only_step (addJob_only ..); decide) | (with_reducible apply only_step (sendCtrl_only ..); decide)
    | (with_reducible apply only_step (touch_only ..); decide) | (with_reducible apply only_step (tryChain_only ..); decide)
    | (with_reducible apply only_step (only_forEach _ _ (fun _ _ => only_onUpd ..) _); decide)
    | (with_reducible apply only_step (only_forEach _ _ (fun _ _ => addJob_only ..) _); decide)
    | (with_reducible apply only_step (only_forEach _ _ (fun _ _ => sendCtrl_only ..) _); decide)
    | (with_reducible apply only_step (only_forEach _ _ (fun _ _ => touch_only ..) _); decide)
    | (with_reducible apply only_step (only_forEach _ _ (fun _ _ => tryChain_only ..) _); decide)
    | with_reducible apply only_forEach_step | intro x s | dsimp only [after_done, after_wait] | split)

theorem runUpdateConfirm_only (y1 : Desc) (s : State) : Only [.flash, .upd] ((runUpdateConfirm y1 s).after) s := by
  unfold runUpdateConfirm
  try dsimp only
  repeat' (first
    | with_reducible apply only_refl | (with_reducible apply only_step (only_onUpd ..); decide)
    | (with_reducible apply only_step (addJob_only ..); decide) | dsimp only [after_done, after_wait] | split)

theorem endSession_only (cause : Nat) (j : FlashJob) (s : State) : Only [.flash, .upd] (endSession cause j s) s := by
  unfold endSession
  try dsimp only
  repeat' (first
    | with_reducible apply only_refl | (with_reducible apply only_step (only_onUpd ..); decide)
    | (with_reducible apply only_step (addJob_only ..); decide) | split)

theorem runUpdateAbort_only (y1 : Desc) (s : State) : Only [.flash, .upd, .out] ((runUpdateAbort y1 s).after) s := by
  unfold runUpdateAbort
  try dsimp only
  repeat' (first
    | with_reducible apply only_refl | (with_reducible apply only_step (only_onUpd ..); decide)
    | (with_reducible apply only_step (endSession_only ..); decide) | (with_reducible apply only_step (sendCtrl_only ..); decide)
    | dsimp only [after_done, after_wait] | split)

theorem runUpdatePreempt_only (y1 : Desc) (s : State) : Only [.flash, .upd, .out] ((runUpdatePreempt y1 s).after) s := by
  unfold runUpdatePreempt
  try dsimp only
  repeat' (first
    | with_reducible apply only_refl | (with_reducible apply only_step (endSession_only ..); decide)
    | (with_reducible apply only_step (sendResp_only ..); decide) | dsimp only [after_done, after_wait] | split)

theorem dropRelayed_only (s : State) : Only [.cw] (dropRelayed s) s := by
  unfold dropRelayed
  try dsimp only
  repeat' (first
    | with_reducible apply only_refl | (with_reducible apply only_step (only_onCw ..); decide) | split)

theorem issueRelay_only {s t : State} (h : issueRelay s = some t) : Only [.cxl, .cw, .out] t s := by
  unfold issueRelay at h
  dsimp only at h
  split at h
  · split at h
    · cases h
      exact only_step (only_onCw ..) (by decide) (only_step (only_onCxl ..) (by decide) (only_step (only_emit ..) (by decide)
        (only_mono (only_emit ..) (by decide))))
    · cases h
  · cases h

theorem pumpRelay_only (k : Nat) (s : State) : Only [.cxl, .cw, .out] (pumpRelay k s) s := by
  induction k generalizing s with
  | zero => exact only_refl _ _
  | succ k ih =>
    cases h : issueRelay s with
    | some t => simp only [pumpRelay, h]; exact only_step (ih t) (by decide) (issueRelay_only h)
    | none => simp only [pumpRelay, h]; exact only_refl _ _

theorem restartRelay_only (s : State) : Only [.cxl, .cw, .out] (restartRelay s) s := by
  unfold restartRelay
  try dsimp only
  repeat' (first
    | with_reducible apply only_refl | (with_reducible apply only_step (only_onCw ..); decide)
    | (with_reducible apply only_step (pumpRelay_only ..); decide) | split)

theorem ackRelay_only (head : BitVec 16) (s : State) : Only [.cxl, .cw, .out] (ackRelay head s) s := by
  unfold ackRelay
  try dsimp only
  repeat' (first
    | with_reducible apply only_refl | (with_reducible apply only_step (only_onCw ..); decide)
    | (with_reducible apply only_step (dropRelayed_only ..); decide)
    | (with_reducible apply only_step (pumpRelay_only ..); decide) | split)

theorem forwardRecord_only (replay : Bool) (r : Relayed) (s : State) : Only [.out] (forwardRecord replay r s) s := by
  unfold forwardRecord
  try dsimp only
  repeat' (first
    | with_reducible apply only_refl | (with_reducible apply only_step (cwEmit_only ..); decide) | split)

theorem resendEvents_only (s : State) : Only [.ev, .out] (resendEvents s) s := by
  unfold resendEvents
  try dsimp only
  repeat' (first
    | with_reducible apply only_refl | (with_reducible apply only_step (only_onEv ..); decide)
    | (with_reducible apply only_step (forwardRecord_only ..); decide)
    | (with_reducible apply only_step (pumpChain_only ..); decide)
    | (with_reducible apply only_step (only_forEach _ _ (fun _ _ => only_onEv ..) _); decide)
    | (with_reducible apply only_step (only_forEach _ _ (fun _ _ => forwardRecord_only ..) _); decide)
    | (with_reducible apply only_step (only_forEach _ _ (fun _ _ => pumpChain_only ..) _); decide)
    | with_reducible apply only_forEach_step | intro x s | split)

theorem updateObs_only (s : State) : Only [.chans, .safety, .cxl, .ev, .cw, .out] (updateObs s) s := by
  unfold updateObs
  try dsimp only
  repeat' (first
    | with_reducible apply only_refl | (with_reducible apply only_step (only_onEv ..); decide)
    | (with_reducible apply only_step (dropRelayed_only ..); decide)
    | (with_reducible apply only_step (resendEvents_only ..); decide)
    | (with_reducible apply only_step (trimStore_only ..); decide) | split)

theorem sendMode_only (sel : Nat) (t : TickGroup) (v : ShowGroup) (at_ : Nat) (s : State) : Only [.out] (sendMode sel t v at_
    s) s := by
  unfold sendMode
  try dsimp only
  repeat' (first
    | with_reducible apply only_refl | (with_reducible apply only_step (cwEmit_only ..); decide) | split)

theorem settleChain_only (found : Nat) (many : Bool) (aSeen : Bool) (ended : Bool) (s : State) : Only [.clk, .chans, .safety,
    .cxl, .queues, .ev, .cw, .out] (settleChain found many aSeen ended s) s := by
  unfold settleChain
  try extract_lets
  repeat' (first
    | with_reducible apply only_refl | (with_reducible apply only_step (only_onClk ..); decide)
    | (with_reducible apply only_step (only_onCw ..); decide) | (with_reducible apply only_step (cwEmit_only ..); decide)
    | (with_reducible apply only_step (finish_only ..); decide) | (with_reducible apply only_step (raise_only ..); decide)
    | (with_reducible apply only_step (sendMode_only ..); decide) | (with_reducible apply only_step (updateObs_only ..); decide)
    | with_reducible apply only_ite | extract_lets | split)

theorem startEnum_only (s : State) : Only [.clk, .chans, .safety, .cxl, .queues, .ev, .cw, .out] (startEnum s) s := by
  unfold startEnum
  try dsimp only
  repeat' (first
    | with_reducible apply only_refl | (with_reducible apply only_step (only_onCw ..); decide)
    | (with_reducible apply only_step (cwEmit_only ..); decide) | (with_reducible apply only_step (settleChain_only ..); decide)
    | split)

theorem runChainEnumerate_only (y1 : Desc) (s : State) : Only [.clk, .chans, .safety, .cxl, .queues, .ev, .cw, .out]
    ((runChainEnumerate y1 s).after) s := by
  unfold runChainEnumerate
  try dsimp only
  repeat' (first
    | with_reducible apply only_refl | (with_reducible apply only_step (only_onCw ..); decide)
    | (with_reducible apply only_step (startEnum_only ..); decide) | dsimp only [after_done, after_wait] | split)

theorem sendCmd_only (bcast : Bool) (addr : Nat) (tq : Nat) (tgt : Nat) (desc : List Byte) (data : List Byte) (s : State) :
    Only [.out] (sendCmd bcast addr tq tgt desc data s) s := by
  unfold sendCmd
  try dsimp only
  repeat' (first
    | with_reducible apply only_refl | (with_reducible apply only_step (cwEmit_only ..); decide)
    | (with_reducible apply only_step (only_forEach _ _ (fun _ _ => cwEmit_only ..) _); decide)
    | with_reducible apply only_forEach_step | intro x s | split)

theorem sendSelf_only (tq : Fin 4) (tgt : Nat) (desc : List Byte) (data : List Byte) (s : State) : Only [.cw, .bar2] (sendSelf
    tq tgt desc data s) s := by
  unfold sendSelf
  try dsimp only
  repeat' (first
    | with_reducible apply only_refl | (with_reducible apply only_step (only_onCw ..); decide)
    | (with_reducible apply only_step (only_onBar2 ..); decide) | split)

theorem trySend_only (s : State) : Only [.cxl, .queues, .cw, .out] (trySend s) s := by
  unfold trySend
  try dsimp only
  repeat' (first
    | with_reducible apply only_refl | (with_reducible apply only_step (only_onCw ..); decide)
    | (with_reducible apply only_step (finish_only ..); decide) | split)

theorem failSend_only (s : State) : Only [.cxl, .queues, .cw, .out] (failSend s) s := by
  unfold failSend
  try dsimp only
  repeat' (first
    | with_reducible apply only_refl | (with_reducible apply only_step (only_onCw ..); decide)
    | (with_reducible apply only_step (finish_only ..); decide) | split)

theorem chainSendNext_only (p : BitVec 384) (s : State) : Only [.cw, .bar2, .out] (chainSendNext p s) s := by
  unfold chainSendNext
  try extract_lets
  repeat' (first
    | with_reducible apply only_refl | (with_reducible apply only_step (only_onCw ..); decide)
    | (with_reducible apply only_step (sendCmd_only ..); decide) | (with_reducible apply only_step (sendSelf_only ..); decide)
    | with_reducible apply only_ite | extract_lets | split)

theorem runChainSend_only (d : Desc) (s : State) : Only [.cw, .bar2, .out] ((runChainSend d s).after) s := by
  unfold runChainSend
  try dsimp only
  repeat' (first
    | with_reducible apply only_refl | (with_reducible apply only_step (chainSendNext_only ..); decide)
    | with_reducible apply refuseOr_after | with_reducible apply refDone_after | dsimp only [after_done, after_wait] | split)

theorem writeChain_only (r : BitVec 256) (s : State) : Only [.cfg, .pendLv, .cxl, .cw, .out] ((writeChain r s).2) s := by
  unfold writeChain
  try dsimp only
  repeat' (first
    | with_reducible apply only_refl | (with_reducible apply only_step (only_onCfg ..); decide)
    | (with_reducible apply only_step (only_addLv ..); decide) | (with_reducible apply only_step (ackRelay_only ..); decide)
    | split)

theorem runSettingsWrite_only (d : Desc) (s : State) : Only [.cfg, .pendLv, .openSet, .cxl, .cw, .out] (runSettingsWrite d
    s).after s := by
  unfold runSettingsWrite
  extract_lets p number r written pair
  have hp : ∀ x : Ref × State, Only [.cfg, .pendLv, .openSet, .cxl, .cw, .out] x.2 s → Only [.cfg, .pendLv, .openSet, .cxl, .cw, .out] (pair x).after s :=
    fun x h => refuseOr_after h
  split
  · exact only_refl _ _
  · generalize reservedBits _ _ _ _ = o
    cases o with
    | some x => exact only_refl _ _
    | none =>
      dsimp only
      generalize number = m
      split
      · exact hp _ (only_mono (writeMemory_only ..) (by decide))
      · exact hp _ (only_mono (writeCanvas_only ..) (by decide))
      · exact hp _ (only_mono (writeHeadColour_only ..) (by decide))
      · exact refuseOr_after (only_mono (writeArray_only ..) (by decide))
      · exact hp _ (only_mono (writeRaster_only ..) (by decide))
      · exact hp _ (only_mono (writePixelTiming_only ..) (by decide))
      · exact hp _ (only_mono (writeLink_only ..) (by decide))
      · exact hp _ (only_mono (writeOs_only ..) (by decide))
      · exact hp _ (only_mono (writeLine_only ..) (by decide))
      · exact hp _ (only_mono (writeChain_only ..) (by decide))
      · exact only_refl _ _

theorem runOp_only (op : Op) (d : Desc) (s : State) : Only [.clk, .cfg, .pendLv, .openSet, .com, .chans, .sluice, .safety,
    .cxl, .queues, .ev, .cal, .flash, .upd, .cw, .bar2, .out] ((runOp op d s).after) s := by
  unfold runOp
  try dsimp only
  repeat' (first
    | with_reducible apply only_refl | (with_reducible apply only_step (runBlendOrderSet_only ..); decide)
    | (with_reducible apply only_step (runCalCommit_only ..); decide)
    | (with_reducible apply only_step (runCalRun_only ..); decide)
    | (with_reducible apply only_step (runCalStatus_only ..); decide)
    | (with_reducible apply only_step (runChainEnumerate_only ..); decide)
    | (with_reducible apply only_step (runChainSend_only ..); decide)
    | (with_reducible apply only_step (runCoeffLoad_only ..); decide)
    | (with_reducible apply only_step (runColourTargetSet_only ..); decide)
    | (with_reducible apply only_step (runCommit_only ..); decide)
    | (with_reducible apply only_step (runDeviceInfo_only ..); decide)
    | (with_reducible apply only_step (runDimSet_only ..); decide)
    | (with_reducible apply only_step (runEventMask_only ..); decide)
    | (with_reducible apply only_step (runFenceModeSet_only ..); decide)
    | (with_reducible apply only_step (runHeadSet_only ..); decide)
    | (with_reducible apply only_step (runLampFade_only ..); decide)
    | (with_reducible apply only_step (runLampSet_only ..); decide)
    | (with_reducible apply only_step (runLayerEnable_only ..); decide)
    | (with_reducible apply only_step (runLayerSet_only ..); decide)
    | (with_reducible apply only_step (runLightChannelSet_only ..); decide)
    | (with_reducible apply only_step (runLutLoad_only ..); decide)
    | (with_reducible apply only_step (runPlaneSeqLoad_only ..); decide)
    | (with_reducible apply only_step (runPowerQuota_only ..); decide)
    | (with_reducible apply only_step (runSafeStateRequest_only ..); decide)
    | (with_reducible apply only_step (runSafetyWindowSet_only ..); decide)
    | (with_reducible apply only_step (runSettingsRead_only ..); decide)
    | (with_reducible apply only_step (runSettingsWrite_only ..); decide)
    | (with_reducible apply only_step (runTelltaleSet_only ..); decide)
    | (with_reducible apply only_step (runThermalSet_only ..); decide)
    | (with_reducible apply only_step (runTimingSet_only ..); decide)
    | (with_reducible apply only_step (runUpdateAbort_only ..); decide)
    | (with_reducible apply only_step (runUpdateActivate_only ..); decide)
    | (with_reducible apply only_step (runUpdateBlock_only ..); decide)
    | (with_reducible apply only_step (runUpdateConfirm_only ..); decide)
    | (with_reducible apply only_step (runUpdateOpen_only ..); decide)
    | (with_reducible apply only_step (runUpdatePreempt_only ..); decide)
    | (with_reducible apply only_step (runUpdateVerify_only ..); decide)
    | (with_reducible apply only_step (runWarpLoad_only ..); decide) | dsimp only [after_done, after_wait] | split)

theorem e2eRefused_only (isAlive : Bool) (d : Desc) (s : State) : Only [.chans, .safety, .cxl, .ev, .out] (e2eRefused isAlive d
    s) s := by
  unfold e2eRefused
  try dsimp only
  repeat' (first
    | with_reducible apply only_refl | (with_reducible apply only_step (only_onSafety ..); decide)
    | (with_reducible apply only_step (raise_only ..); decide) | split)

theorem q2Accepted_only (d : Desc) (s : State) : Only [.safety] (q2Accepted d s) s := by
  unfold q2Accepted
  try dsimp only
  repeat' (first
    | with_reducible apply only_refl | (with_reducible apply only_step (only_onSafety ..); decide) | split)

theorem runChecked_only (op : Op) (d : Desc) (s : State) : Only [.clk, .cfg, .pendLv, .openSet, .com, .chans, .sluice, .safety,
    .cxl, .queues, .ev, .cal, .flash, .upd, .cw, .bar2, .out] ((runChecked op d s).after) s := by
  unfold runChecked
  try dsimp only
  repeat' (first
    | with_reducible apply only_refl | (with_reducible apply only_step (runOp_only ..); decide)
    | with_reducible apply refuseOr_after | with_reducible apply refDone_after | dsimp only [after_done, after_wait] | split)

theorem runDesc_only (op : Op) (d : Desc) (s : State) : Only [.clk, .cfg, .pendLv, .openSet, .com, .chans, .sluice, .safety,
    .cxl, .queues, .ev, .cal, .flash, .upd, .cw, .bar2, .out] ((runDesc op d s).after) s := by
  unfold runDesc
  try dsimp only
  repeat' (first
    | with_reducible apply only_refl | (with_reducible apply only_step (e2eRefused_only ..); decide)
    | (with_reducible apply only_step (q2Accepted_only ..); decide)
    | (with_reducible apply only_step (runChecked_only ..); decide) | dsimp only [after_done, after_wait] | split)

theorem execDesc_only (op : Op) (d : Desc) (via : Via) (slot : BitVec 8) (s : State) :
    Only [.clk, .cfg, .pendLv, .openSet, .com, .chans, .sluice, .safety, .cxl, .queues, .ev, .cal, .flash, .upd, .cw, .bar2, .out] (execDesc op d via slot s) s := by
  unfold execDesc
  extract_lets x
  have h : Only [.clk, .cfg, .pendLv, .openSet, .com, .chans, .sluice, .safety, .cxl, .queues, .ev, .cal, .flash, .upd, .cw, .bar2, .out] (runDesc op d (onQueue d.queue (fun z => { z with waiting := some x }) s)).after s :=
    only_step (runDesc_only ..) (by decide) (only_mono (only_onQueue ..) (by decide))
  split
  · rename_i st r s' e
    rw [e] at h
    exact only_step (complete_only ..) (by decide) (only_step (only_onQueue ..) (by decide) h)
  · rename_i s' e
    rw [e] at h
    exact h

theorem fetchOne_only {q : Fin 4} {s t : State} (h : fetchOne q s = some t) :
    Only [.clk, .cfg, .pendLv, .openSet, .com, .chans, .sluice, .safety, .cxl, .queues, .ev, .cal, .flash, .upd, .cw, .bar2, .out] t s := by
  unfold fetchOne at h
  dsimp only at h
  split at h
  · split at h
    · cases h
    · cases h
      exact only_step (execDesc_only ..) (by decide) (only_mono (only_onQueue ..) (by decide))
  · cases h

theorem drainFuel_only (q : Fin 4) (k : Nat) (s : State) :
    Only [.clk, .cfg, .pendLv, .openSet, .com, .chans, .sluice, .safety, .cxl, .queues, .ev, .cal, .flash, .upd, .cw, .bar2, .out] (drainFuel q k s) s := by
  induction k generalizing s with
  | zero => exact only_refl _ _
  | succ k ih =>
    cases h : fetchOne q s with
    | some t => simp only [drainFuel, h]; exact only_step (ih t) (by decide) (fetchOne_only h)
    | none => simp only [drainFuel, h]; exact only_refl _ _

theorem drain_only (q : Fin 4) (s : State) :
    Only [.clk, .cfg, .pendLv, .openSet, .com, .chans, .sluice, .safety, .cxl, .queues, .ev, .cal, .flash, .upd, .cw, .bar2, .out] (drain q s) s := by
  unfold drain; exact drainFuel_only q 256 s

theorem takeCmd_only {s : State} {x : InCmd × State} (h : takeCmd s = some x) : Only [.cw] x.2 s := by
  unfold takeCmd at h
  split at h
  · cases h; exact only_onCw (fun w => { w with inCmd := w.inCmd.erase _ }) s
  · cases h

theorem runCmds_only (k : Nat) (s : State) :
    Only [.clk, .cfg, .pendLv, .openSet, .com, .chans, .sluice, .safety, .cxl, .queues, .ev, .cal, .flash, .upd, .cw, .bar2, .out] (runCmds k s) s := by
  induction k generalizing s with
  | zero => exact only_refl _ _
  | succ k ih =>
    cases h : takeCmd s with
    | some x =>
      obtain ⟨c, s1⟩ := x
      simp only [runCmds, h]
      exact only_step (ih _) (by decide) (only_step (trySend_only ..) (by decide) (only_step (execDesc_only ..) (by decide)
        (only_mono (takeCmd_only h) (by decide))))
    | none => simp only [runCmds, h]; exact only_refl _ _

theorem drainAll_only (s : State) :
    Only [.clk, .cfg, .pendLv, .openSet, .com, .chans, .sluice, .safety, .cxl, .queues, .ev, .cal, .flash, .upd, .cw, .bar2, .out] (drainAll s) s := by
  unfold drainAll
  exact only_step (only_forEach _ _ (fun _ _ => drain_only ..) _) (by decide) (only_step (trySend_only ..) (by decide)
    (only_mono (runCmds_only ..) (by decide)))

theorem runQueue_only (q : Fin 4) (s : State) : Only [.clk, .cfg, .pendLv, .openSet, .com, .chans, .sluice, .safety, .cxl,
    .queues, .ev, .cal, .flash, .upd, .cw, .bar2, .out] (runQueue q s) s := by
  unfold runQueue
  try extract_lets
  repeat' (first
    | with_reducible apply only_refl | (with_reducible apply only_step (drain_only ..); decide)
    | (with_reducible apply only_step (drainAll_only ..); decide) | with_reducible apply only_ite | extract_lets | split)

theorem setErr_only (i : Nat) (s : State) : Only [.cxl] (setErr i s) s := by
  unfold setErr
  try dsimp only
  repeat' (first
    | with_reducible apply only_refl | (with_reducible apply only_step (only_onCxl ..); decide) | split)

theorem doorbell_only (q : Fin 4) (v : BitVec 8) (s : State) : Only [.clk, .cfg, .pendLv, .openSet, .com, .chans, .sluice,
    .safety, .cxl, .queues, .ev, .cal, .flash, .upd, .cw, .bar2, .out] (doorbell q v s) s := by
  unfold doorbell
  try dsimp only
  repeat' (first
    | with_reducible apply only_refl | (with_reducible apply only_step (only_onQueue ..); decide)
    | (with_reducible apply only_step (runQueue_only ..); decide) | (with_reducible apply only_step (setErr_only ..); decide)
    | split)

theorem submit_only (op : BitVec 16) (d : Desc) (s : State) : Only [.clk, .cfg, .pendLv, .openSet, .com, .chans, .sluice,
    .safety, .cxl, .queues, .ev, .cal, .flash, .upd, .cw, .bar2, .out] (submit op d s) s := by
  unfold submit
  try dsimp only
  repeat' (first
    | with_reducible apply only_refl | (with_reducible apply only_step (only_onBar2 ..); decide)
    | (with_reducible apply only_step (doorbell_only ..); decide) | split)

end Sys2Proof.Machine
end

