-- ==== Sys2Proof/Laws/FramesPath.lean ====
section
/-! SUPPORT. The parts of the state that the host interface, the press, the links, the channels and the show can change: one lemma per operation. -/

namespace Sys2Proof.Machine

set_option linter.all false

theorem cxlError_only (kind : Fin 7) (traffic : Nat) (a : Nat) (s : State) : Only [.cxl] (cxlError kind traffic a s) s := by
  unfold cxlError
  try dsimp only
  repeat' (first
    | with_reducible apply only_refl | (with_reducible apply only_step (only_onCxl ..); decide)
    | (with_reducible apply only_step (setErr_only ..); decide) | split)

theorem tellErrors_only (s : State) : Only [.chans, .safety, .cxl, .ev, .out] (tellErrors s) s := by
  unfold tellErrors
  try extract_lets
  repeat' (first
    | with_reducible apply only_refl | (with_reducible apply only_step (only_onCxl ..); decide)
    | (with_reducible apply only_step (raise_only ..); decide)
    | (with_reducible apply only_step (only_forEach _ _ (fun _ _ => only_onCxl ..) _); decide)
    | (with_reducible apply only_step (only_forEach _ _ (fun _ _ => raise_only ..) _); decide)
    | with_reducible apply only_forEach_step | intro x s | with_reducible apply only_ite | extract_lets | split)

theorem resetBlocks_only (s : State) : Only [.cxl, .queues, .ev] (resetBlocks s) s := by
  unfold resetBlocks
  try dsimp only
  repeat' (first
    | with_reducible apply only_refl | (with_reducible apply only_step (only_onCxl ..); decide)
    | (with_reducible apply only_step (only_onEv ..); decide) | (with_reducible apply only_step (only_onQueues ..); decide)
    | split)

theorem detach_only (cause : Nat) (s : State) : Only [.com, .comp, .heads, .chans, .safety, .cxl, .queues, .ev, .out] (detach
    cause s) s := by
  unfold detach
  try dsimp only
  repeat' (first
    | with_reducible apply only_refl | (with_reducible apply only_step (only_onCom ..); decide)
    | (with_reducible apply only_step (only_onCxl ..); decide) | (with_reducible apply only_step (only_onEv ..); decide)
    | (with_reducible apply only_step (only_onQueues ..); decide) | (with_reducible apply only_step (resetBlocks_only ..); decide)
    | (with_reducible apply only_step (runLatchQ_only ..); decide)
    | (with_reducible apply only_step (updateAttached_only ..); decide) | split)

theorem reattach_only (s : State) : Only [.com, .comp, .heads, .chans, .safety, .cxl, .ev, .cw, .out] (reattach s) s := by
  unfold reattach
  try dsimp only
  repeat' (first
    | with_reducible apply only_refl | (with_reducible apply only_step (rereadFences_only ..); decide)
    | (with_reducible apply only_step (restartRelay_only ..); decide)
    | (with_reducible apply only_step (updateAttached_only ..); decide) | split)

theorem queueEnable_only (q : Fin 4) (en : Bool) (s : State) : Only [.clk, .cfg, .pendLv, .openSet, .com, .chans, .sluice,
    .safety, .cxl, .queues, .ev, .cal, .flash, .upd, .cw, .bar2, .out] (queueEnable q en s) s := by
  unfold queueEnable
  try dsimp only
  repeat' (first
    | with_reducible apply only_refl | (with_reducible apply only_step (only_onCxl ..); decide)
    | (with_reducible apply only_step (only_onQueue ..); decide) | (with_reducible apply only_step (pumpCq_only ..); decide)
    | (with_reducible apply only_step (runQueue_only ..); decide) | rw [id_eq] | split)

theorem writeCqHead_only (q : Fin 4) (v : BitVec 8) (s : State) : Only [.clk, .cfg, .pendLv, .openSet, .com, .chans, .sluice,
    .safety, .cxl, .queues, .ev, .cal, .flash, .upd, .cw, .bar2, .out] (writeCqHead q v s) s := by
  unfold writeCqHead
  try dsimp only
  repeat' (first
    | with_reducible apply only_refl | (with_reducible apply only_step (only_onQueue ..); decide)
    | (with_reducible apply only_step (pumpCq_only ..); decide) | (with_reducible apply only_step (runQueue_only ..); decide)
    | split)

theorem startRing_only (s : State) : Only [.com, .cxl, .ev, .out] (startRing s) s := by
  unfold startRing
  try dsimp only
  repeat' (first
    | with_reducible apply only_refl | (with_reducible apply only_step (only_onEv ..); decide)
    | (with_reducible apply only_step (addFence_only ..); decide) | (with_reducible apply only_step (pumpHost_only ..); decide)
    | (with_reducible apply only_step (only_forEach _ _ (fun _ _ => only_onEv ..) _); decide)
    | (with_reducible apply only_step (only_forEach _ _ (fun _ _ => addFence_only ..) _); decide)
    | (with_reducible apply only_step (only_forEach _ _ (fun _ _ => pumpHost_only ..) _); decide)
    | with_reducible apply only_forEach_step | intro x s | split)

theorem writeRingCtl_only (w : BitVec 32) (s : State) : Only [.com, .cxl, .ev, .out] (writeRingCtl w s) s := by
  unfold writeRingCtl
  try dsimp only
  repeat' (first
    | with_reducible apply only_refl | (with_reducible apply only_step (only_onEv ..); decide)
    | (with_reducible apply only_step (setErr_only ..); decide) | (with_reducible apply only_step (startRing_only ..); decide)
    | split)

theorem writeEvqHead_only (v : BitVec 16) (s : State) : Only [.chans, .safety, .cxl, .ev, .out] (writeEvqHead v s) s := by
  unfold writeEvqHead
  try dsimp only
  repeat' (first
    | with_reducible apply only_refl | (with_reducible apply only_step (only_onEv ..); decide)
    | (with_reducible apply only_step (pumpHost_only ..); decide) | (with_reducible apply only_step (trimStore_only ..); decide)
    | split)

theorem observed_only (s : State) : Only [.cxl, .queues, .ev, .cw, .out] (observed s) s := by
  unfold observed
  try dsimp only
  repeat' (first
    | with_reducible apply only_refl | (with_reducible apply only_step (only_onCxl ..); decide)
    | (with_reducible apply only_step (only_onQueue ..); decide) | (with_reducible apply only_step (only_onEv ..); decide)
    | (with_reducible apply only_step (only_onCw ..); decide) | (with_reducible apply only_step (pumpHost_only ..); decide)
    | (with_reducible apply only_step (signal_only ..); decide) | (with_reducible apply only_step (signalEvent_only ..); decide)
    | rw [id_eq] | split)

theorem putRecord_only (w : RingWrite) (s : State) : Only [.out] (putRecord w s) s := by
  unfold putRecord
  try dsimp only
  repeat' (first
    | with_reducible apply only_refl | (with_reducible apply only_step (only_emit ..); decide) | rw [id_eq] | split)

theorem retryWrite_only (e : BusError) (s : State) : Only [.com, .comp, .heads, .chans, .safety, .cxl, .queues, .ev, .out]
    (retryWrite e s) s := by
  unfold retryWrite
  try dsimp only
  repeat' (first
    | with_reducible apply only_refl | (with_reducible apply only_step (only_onCxl ..); decide)
    | (with_reducible apply only_step (cxlError_only ..); decide) | (with_reducible apply only_step (detach_only ..); decide)
    | (with_reducible apply only_step (putRecord_only ..); decide) | split)

theorem coalesced_only (v : Fin 64) (s : State) : Only [.cxl, .out] (coalesced v s) s := by
  unfold coalesced
  try dsimp only
  repeat' (first
    | with_reducible apply only_refl | (with_reducible apply only_step (only_onCxl ..); decide)
    | (with_reducible apply only_step (signal_only ..); decide) | split)

theorem unmask_only (v : Fin 64) (s : State) : Only [.cxl, .out] (unmask v s) s := by
  unfold unmask
  try dsimp only
  repeat' (first
    | with_reducible apply only_refl | (with_reducible apply only_step (only_onCxl ..); decide)
    | (with_reducible apply only_step (signal_only ..); decide) | split)

theorem writeHostActive_only (v : Bool) (s : State) : Only [.com, .comp, .heads, .chans, .safety, .cxl, .ev, .cw, .out]
    (writeHostActive v s) s := by
  unfold writeHostActive
  try dsimp only
  repeat' (first
    | with_reducible apply only_refl | (with_reducible apply only_step (only_onCxl ..); decide)
    | (with_reducible apply only_step (reattach_only ..); decide) | split)

theorem readBar0_only (off : Nat) (size : Nat) (s : State) : Only [.cxl, .out] (readBar0 off size s) s := by
  unfold readBar0
  try dsimp only
  repeat' (first
    | with_reducible apply only_refl | (with_reducible apply only_step (only_onCxl ..); decide)
    | (with_reducible apply only_step (only_emit ..); decide) | (with_reducible apply only_step (setErr_only ..); decide) | split)

theorem stBase_only {fs : List Part} {running : Bool} {old new : BitVec 64} {f : BitVec 64 → State → State} {s : State}
    (hb : holdsAll fs [.cxl] = true) (h : ∀ s, Only fs (f new s) s) : Only fs (stBase running old new f s) s := by
  unfold stBase
  exact only_ite _ (only_refl _ _) (only_ite _ (only_mono (setErr_only ..) hb) (h s))

theorem writeQueueReg_only (q : Fin 4) (r : Nat) (w : BitVec 32) (s : State) : Only [.clk, .cfg, .pendLv, .openSet, .com,
    .chans, .sluice, .safety, .cxl, .queues, .ev, .cal, .flash, .upd, .cw, .bar2, .out] (writeQueueReg q r w s) s := by
  unfold writeQueueReg
  try dsimp only
  repeat' (first
    | with_reducible apply only_refl | (with_reducible apply only_step (only_onQueue ..); decide)
    | (with_reducible apply only_step (doorbell_only ..); decide) | (with_reducible apply only_step (queueEnable_only ..); decide)
    | (with_reducible apply only_step (writeCqHead_only ..); decide) | (with_reducible apply stBase_only; decide) | intro s
    | split)

theorem writeRingReg_only (r : Nat) (w : BitVec 32) (s : State) : Only [.com, .chans, .safety, .cxl, .ev, .out] (writeRingReg r
    w s) s := by
  unfold writeRingReg
  try dsimp only
  repeat' (first
    | with_reducible apply only_refl | (with_reducible apply only_step (only_onEv ..); decide)
    | (with_reducible apply only_step (writeEvqHead_only ..); decide)
    | (with_reducible apply only_step (writeRingCtl_only ..); decide) | (with_reducible apply stBase_only; decide) | intro s
    | split)

theorem writeMsix_only (o : Nat) (w : BitVec 32) (s : State) : Only [.cxl, .out] (writeMsix o w s) s := by
  unfold writeMsix
  try dsimp only
  repeat' (first
    | with_reducible apply only_refl | (with_reducible apply only_step (only_onCxl ..); decide)
    | (with_reducible apply only_step (unmask_only ..); decide) | split)

theorem writeReg_only (off : Nat) (w : BitVec 32) (s : State) : Only [.clk, .cfg, .pendLv, .openSet, .com, .comp, .heads,
    .chans, .sluice, .safety, .cxl, .queues, .ev, .cal, .flash, .upd, .cw, .bar2, .out] (writeReg off w s) s := by
  unfold writeReg
  try extract_lets
  repeat' (first
    | with_reducible apply only_refl | (with_reducible apply only_step (only_onCxl ..); decide)
    | (with_reducible apply only_step (writeHostActive_only ..); decide)
    | (with_reducible apply only_step (writeMsix_only ..); decide)
    | (with_reducible apply only_step (writeQueueReg_only ..); decide)
    | (with_reducible apply only_step (writeRingReg_only ..); decide) | with_reducible apply only_ite | extract_lets | split)

theorem writeBar0_only (off : Nat) (data : List Byte) (s : State) : Only [.clk, .cfg, .pendLv, .openSet, .com, .comp, .heads,
    .chans, .sluice, .safety, .cxl, .queues, .ev, .cal, .flash, .upd, .cw, .bar2, .out] (writeBar0 off data s) s := by
  unfold writeBar0
  try dsimp only
  repeat' (first
    | with_reducible apply only_refl | (with_reducible apply only_step (setErr_only ..); decide)
    | (with_reducible apply only_step (writeReg_only ..); decide) | split)

theorem writeBar2_only (off : Nat) (data : List Byte) (s : State) : Only [.bar2] (writeBar2 off data s) s := by
  unfold writeBar2
  try dsimp only
  repeat' (first
    | with_reducible apply only_refl | (with_reducible apply only_step (only_onBar2 ..); decide) | split)

theorem writeMirrors_only (s : State) : Only [.bar2, .mirrorGen] (writeMirrors s) s := by
  unfold writeMirrors
  try extract_lets
  repeat' (first
    | with_reducible apply only_refl | (with_reducible apply only_step (only_onBar2 ..); decide)
    | (with_reducible apply only_step (only_onMirrorGen ..); decide) | with_reducible apply only_ite | extract_lets | split)

theorem readBar2_only (off : Nat) (size : Nat) (s : State) : Only [.out] (readBar2 off size s) s := by
  unfold readBar2
  try dsimp only
  repeat' (first
    | with_reducible apply only_refl | (with_reducible apply only_step (only_emit ..); decide) | split)

theorem tellLink_only (state : Nat) (s : State) : Only [.chans, .safety, .cxl, .ev, .out] (tellLink state s) s := by
  unfold tellLink
  try dsimp only
  repeat' (first
    | with_reducible apply only_refl | (with_reducible apply only_step (raise_only ..); decide) | split)

theorem linkDown_only (s : State) : Only [.com, .comp, .heads, .chans, .safety, .cxl, .queues, .ev, .out] (linkDown s) s := by
  unfold linkDown
  try dsimp only
  repeat' (first
    | with_reducible apply only_refl | (with_reducible apply only_step (only_onCxl ..); decide)
    | (with_reducible apply only_step (detach_only ..); decide) | (with_reducible apply only_step (tellLink_only ..); decide)
    | split)

theorem linkChange_only (l : LinkState) (s : State) : Only [.com, .comp, .heads, .chans, .safety, .cxl, .queues, .ev, .cw,
    .out] (linkChange l s) s := by
  unfold linkChange
  try dsimp only
  repeat' (first
    | with_reducible apply only_refl | (with_reducible apply only_step (only_onCxl ..); decide)
    | (with_reducible apply only_step (detach_only ..); decide) | (with_reducible apply only_step (linkDown_only ..); decide)
    | (with_reducible apply only_step (reattach_only ..); decide) | (with_reducible apply only_step (tellLink_only ..); decide)
    | split)

theorem fenceArrives_only (a : Addr) (r : ReadResult) (s : State) : Only [.clk, .com, .chans, .safety, .cxl, .ev, .cw, .out]
    (fenceArrives a r s) s := by
  unfold fenceArrives
  try dsimp only
  repeat' (first
    | with_reducible apply only_refl | (with_reducible apply only_step (cxlError_only ..); decide)
    | (with_reducible apply only_step (fenceData_only ..); decide)
    | (with_reducible apply only_step (fenceFailed_only ..); decide) | split)

theorem releaseTold_only (w : RelWrite) (written : Bool) (s : State) : Only [.com, .chans, .safety, .cxl, .ev, .out]
    (releaseTold w written s) s := by
  unfold releaseTold
  try dsimp only
  repeat' (first
    | with_reducible apply only_refl | (with_reducible apply only_step (only_onCom ..); decide)
    | (with_reducible apply only_step (raiseRelease_only ..); decide)
    | (with_reducible apply only_step (runLatchQ_only ..); decide) | split)

theorem rereadOwn_only (a : Nat) (s : State) : Only [.com, .out] (rereadOwn a s) s := by
  unfold rereadOwn
  try dsimp only
  repeat' (first
    | with_reducible apply only_refl | (with_reducible apply only_step (readLine_only ..); decide) | split)

theorem relEnded_only (s : State) : Only [.com, .cxl, .ev, .out] (relEnded s) s := by
  unfold relEnded
  try dsimp only
  repeat' (first
    | with_reducible apply only_refl | (with_reducible apply only_step (issueRel_only ..); decide)
    | (with_reducible apply only_step (pumpHost_only ..); decide) | split)

theorem fenceWritten_only (w : RelWrite) (s : State) : Only [.com, .chans, .safety, .cxl, .ev, .out] (fenceWritten w s) s := by
  unfold fenceWritten
  try dsimp only
  repeat' (first
    | with_reducible apply only_refl | (with_reducible apply only_step (only_onCom ..); decide)
    | (with_reducible apply only_step (relEnded_only ..); decide) | (with_reducible apply only_step (releaseTold_only ..); decide)
    | (with_reducible apply only_step (rereadOwn_only ..); decide) | split)

theorem fenceRefused_only (w : RelWrite) (s : State) : Only [.com, .chans, .safety, .cxl, .ev, .out] (fenceRefused w s) s := by
  unfold fenceRefused
  try dsimp only
  repeat' (first
    | with_reducible apply only_refl | (with_reducible apply only_step (only_onCom ..); decide)
    | (with_reducible apply only_step (raise_only ..); decide) | (with_reducible apply only_step (relEnded_only ..); decide)
    | (with_reducible apply only_step (releaseTold_only ..); decide) | split)

theorem releaseWritten_only (a : Addr) (r : FenceWrite) (s : State) : Only [.com, .chans, .safety, .cxl, .ev, .out]
    (releaseWritten a r s) s := by
  unfold releaseWritten
  try dsimp only
  repeat' (first
    | with_reducible apply only_refl | (with_reducible apply only_step (cxlError_only ..); decide)
    | (with_reducible apply only_step (fenceRefused_only ..); decide)
    | (with_reducible apply only_step (fenceWritten_only ..); decide) | split)

theorem forwardLine_only (line : Nat) (s : State) : Only [.com, .chans, .safety, .cxl, .ev, .out] (forwardLine line s) s := by
  unfold forwardLine
  try dsimp only
  repeat' (first
    | with_reducible apply only_refl | (with_reducible apply only_step (only_emit ..); decide)
    | (with_reducible apply only_step (fenceWritten_only ..); decide)
    | (with_reducible apply only_step (only_forEach _ _ (fun _ _ => only_emit ..) _); decide)
    | (with_reducible apply only_step (only_forEach _ _ (fun _ _ => fenceWritten_only ..) _); decide)
    | with_reducible apply only_forEach_step | intro x s | split)

theorem snoopInv_only (a : Addr) (s : State) : Only [.com, .chans, .safety, .cxl, .ev, .out] (snoopInv a s) s := by
  unfold snoopInv
  try dsimp only
  repeat' (first
    | with_reducible apply only_refl | (with_reducible apply only_step (only_emit ..); decide)
    | (with_reducible apply only_step (forwardLine_only ..); decide) | (with_reducible apply only_step (readLine_only ..); decide)
    | split)

theorem snoopRead_only (a : Addr) (s : State) : Only [.com, .chans, .safety, .cxl, .ev, .out] (snoopRead a s) s := by
  unfold snoopRead
  try dsimp only
  repeat' (first
    | with_reducible apply only_refl | (with_reducible apply only_step (only_emit ..); decide)
    | (with_reducible apply only_step (forwardLine_only ..); decide) | split)

theorem writeBack_only (s : State) : Only [.com, .chans, .safety, .cxl, .ev, .out] (writeBack s) s := by
  unfold writeBack
  try dsimp only
  repeat' (first
    | with_reducible apply only_refl | (with_reducible apply only_step (only_onCom ..); decide)
    | (with_reducible apply only_step (fenceWritten_only ..); decide)
    | (with_reducible apply only_step (only_forEach _ _ (fun _ _ => only_onCom ..) _); decide)
    | (with_reducible apply only_step (only_forEach _ _ (fun _ _ => fenceWritten_only ..) _); decide)
    | with_reducible apply only_forEach_step | intro x s | split)

theorem doeSend_only (code : Nat) (body : List Byte) (s : State) : Only [.out] (doeSend code body s) s := by
  unfold doeSend
  try dsimp only
  repeat' (first
    | with_reducible apply only_refl | (with_reducible apply only_step (only_emit ..); decide) | split)

theorem spdmError_only (s : State) : Only [.out] (spdmError s) s := by
  unfold spdmError
  try dsimp only
  repeat' (first
    | with_reducible apply only_refl | (with_reducible apply only_step (doeSend_only ..); decide) | split)

theorem spdmServe_only (least : Nat) (ok : Bool) (next : Nat) (code : Nat) (body : List Byte) (s : State) : Only [.cxl, .out]
    (spdmServe least ok next code body s) s := by
  unfold spdmServe
  try dsimp only
  repeat' (first
    | with_reducible apply only_refl | (with_reducible apply only_step (only_onCxl ..); decide)
    | (with_reducible apply only_step (doeSend_only ..); decide) | (with_reducible apply only_step (spdmError_only ..); decide)
    | split)

theorem doeDiscover_only (index : Nat) (s : State) : Only [.out] (doeDiscover index s) s := by
  unfold doeDiscover
  try dsimp only
  repeat' (first
    | with_reducible apply only_refl | (with_reducible apply only_step (doeSend_only ..); decide) | split)

theorem programKey_only (secured : Bool) (f : CxlDyn → CxlDyn) (s : State) : Only [.com, .comp, .heads, .chans, .safety, .cxl,
    .ev, .cw, .out] (programKey secured f s) s := by
  unfold programKey
  try dsimp only
  repeat' (first
    | with_reducible apply only_refl | (with_reducible apply only_step (only_onCxl ..); decide)
    | (with_reducible apply only_step (doeSend_only ..); decide) | (with_reducible apply only_step (reattach_only ..); decide)
    | (with_reducible apply only_step (spdmError_only ..); decide) | split)

theorem writeBar_only (i : Fin 7) (v : BitVec 32) (s : State) : Only [.cxl] (writeBar i v s) s := by
  unfold writeBar
  try dsimp only
  repeat' (first
    | with_reducible apply only_refl | (with_reducible apply only_step (only_onCxl ..); decide) | split)

theorem configure_only (r : CfgReq) (s : State) : Only [.com, .comp, .heads, .chans, .safety, .cxl, .queues, .ev, .cw, .out]
    (configure r s) s := by
  unfold configure
  try dsimp only
  repeat' (first
    | with_reducible apply only_refl | (with_reducible apply only_step (only_onCxl ..); decide)
    | (with_reducible apply only_step (only_emit ..); decide) | (with_reducible apply only_step (detach_only ..); decide)
    | (with_reducible apply only_step (reattach_only ..); decide) | (with_reducible apply only_step (writeBar_only ..); decide)
    | split)

theorem enterPhases_only (s : State) : Only [.clk] (enterPhases s) s := by
  unfold enterPhases
  try dsimp only
  repeat' (first
    | with_reducible apply only_refl | (with_reducible apply only_step (only_onClk ..); decide) | split)

theorem reach_only (t : Nat) (s : State) : Only [.clk] (reach t s) s := by
  unfold reach
  try dsimp only
  repeat' (first
    | with_reducible apply only_refl | (with_reducible apply only_step (only_onClk ..); decide) | split)

theorem idle_only (s : State) : Only [.clk] (idle s) s := by
  unfold idle
  try dsimp only
  repeat' (first
    | with_reducible apply only_refl | (with_reducible apply only_step (only_onClk ..); decide)
    | (with_reducible apply only_step (enterPhases_only ..); decide) | split)

theorem noteBuilt_only (s : State) : Only [.clk] (noteBuilt s) s := by
  unfold noteBuilt
  try dsimp only
  repeat' (first
    | with_reducible apply only_refl | (with_reducible apply only_step (only_onClk ..); decide)
    | (with_reducible apply only_step (enterPhases_only ..); decide) | split)

theorem reachLines_only (src : Nat) (h : Option Head) (lo : Nat) (hi : Nat) (s : State) : Only [.clk, .chans, .safety, .cxl,
    .ev, .out] (reachLines src h lo hi s) s := by
  unfold reachLines
  try dsimp only
  repeat' (first
    | with_reducible apply only_refl | (with_reducible apply only_step (only_onClk ..); decide)
    | (with_reducible apply only_step (raise_only ..); decide)
    | (with_reducible apply only_step (only_forEach _ _ (fun _ _ => only_onClk ..) _); decide)
    | (with_reducible apply only_step (only_forEach _ _ (fun _ _ => raise_only ..) _); decide)
    | with_reducible apply only_forEach_step | intro x s | split)

theorem noteTiles_only (k : Layer) (bad : List (Nat × Nat)) (s : State) : Only [.comp] (noteTiles k bad s) s := by
  unfold noteTiles
  try dsimp only
  repeat' (first
    | with_reducible apply only_refl | (with_reducible apply only_step (only_onComp ..); decide) | split)

theorem readSurface_only (lines : List Nat) (s : State) : Only [.out] (readSurface lines s) s := by
  unfold readSurface
  try dsimp only
  repeat' (first
    | with_reducible apply only_refl | (with_reducible apply only_step (only_emit ..); decide) | split)

theorem bandWritten_only (s : State) : Only [.clk, .comp, .chans, .safety, .cxl, .ev, .canvas, .out] (bandWritten s) s := by
  unfold bandWritten
  try extract_lets
  repeat' (first
    | with_reducible apply only_refl | (with_reducible apply only_step (only_onComp ..); decide)
    | (with_reducible apply only_step (only_onCanvas ..); decide) | (with_reducible apply only_step (askIo_only ..); decide)
    | (with_reducible apply only_step (noteTiles_only ..); decide) | (with_reducible apply only_step (reachLines_only ..); decide)
    | (with_reducible apply only_step (readSurface_only ..); decide)
    | (with_reducible apply only_step (only_forEach _ _ (fun _ _ => only_onComp ..) _); decide)
    | (with_reducible apply only_step (only_forEach _ _ (fun _ _ => only_onCanvas ..) _); decide)
    | (with_reducible apply only_step (only_forEach _ _ (fun _ _ => askIo_only ..) _); decide)
    | (with_reducible apply only_step (only_forEach _ _ (fun _ _ => noteTiles_only ..) _); decide)
    | (with_reducible apply only_step (only_forEach _ _ (fun _ _ => reachLines_only ..) _); decide)
    | (with_reducible apply only_step (only_forEach _ _ (fun _ _ => readSurface_only ..) _); decide)
    | with_reducible apply only_forEach_step | intro x s | with_reducible apply only_ite | extract_lets | split)

theorem surfaceFails_only (k : Layer) (plane : Bool) (e : BusError) (a : Nat) (s : State) : Only [.comp, .chans, .safety, .cxl,
    .ev, .out] (surfaceFails k plane e a s) s := by
  unfold surfaceFails
  try dsimp only
  repeat' (first
    | with_reducible apply only_refl | (with_reducible apply only_step (only_onComp ..); decide)
    | (with_reducible apply only_step (cxlError_only ..); decide) | (with_reducible apply only_step (raise_only ..); decide)
    | split)

theorem pressRows_only (h : Head) (y0 : Nat) (y1 : Nat) (most : Nat) (s : State) : Only [.planes, .out] (pressRows h y0 y1 most
    s) s := by
  unfold pressRows
  try dsimp only
  repeat' (first
    | with_reducible apply only_refl | (with_reducible apply only_step (only_onPlanes ..); decide)
    | (with_reducible apply only_step (askIo_only ..); decide) | split)

theorem stripeDone_only (h : Head) (s : State) : Only [.clk, .heads, .chans, .safety, .cxl, .ev, .planes, .out] (stripeDone h
    s) s := by
  unfold stripeDone
  try extract_lets
  repeat' (first
    | with_reducible apply only_refl | (with_reducible apply only_step (only_onHead ..); decide)
    | (with_reducible apply only_step (askIo_only ..); decide) | (with_reducible apply only_step (pressRows_only ..); decide)
    | (with_reducible apply only_step (reachLines_only ..); decide) | with_reducible apply only_ite | extract_lets | split)

theorem entriesDone_only (h : Head) (s : State) : Only [.free] ((entriesDone h s).2) s := by
  unfold entriesDone
  try dsimp only
  repeat' (first
    | with_reducible apply only_refl | (with_reducible apply only_step (drawFree_only ..); decide) | split)

theorem cutBuild_only (h : Head) (s : State) : Only [.heads, .chans, .safety, .cxl, .ev, .planes, .out, .free] (cutBuild h s) s
    := by
  unfold cutBuild
  try dsimp only
  repeat' (first
    | with_reducible apply only_refl | (with_reducible apply only_step (only_onHead ..); decide)
    | (with_reducible apply only_step (entriesDone_only ..); decide)
    | (with_reducible apply only_step (pressRows_only ..); decide) | (with_reducible apply only_step (raise_only ..); decide)
    | split)

theorem canvasFails_only (heads : BitVec 4) (traffic : Traffic) (e : BusError) (a : Nat) (s : State) : Only [.clk, .heads,
    .chans, .safety, .cxl, .ev, .planes, .out, .free] (canvasFails heads traffic e a s) s := by
  unfold canvasFails
  try dsimp only
  repeat' (first
    | with_reducible apply only_refl | (with_reducible apply only_step (cutBuild_only ..); decide)
    | (with_reducible apply only_step (cxlError_only ..); decide) | (with_reducible apply only_step (noteBuilt_only ..); decide)
    | (with_reducible apply only_step (only_forEach _ _ (fun _ _ => cutBuild_only ..) _); decide)
    | (with_reducible apply only_step (only_forEach _ _ (fun _ _ => cxlError_only ..) _); decide)
    | (with_reducible apply only_step (only_forEach _ _ (fun _ _ => noteBuilt_only ..) _); decide)
    | with_reducible apply only_forEach_step | intro x s | split)

theorem darkPlane_only (h : Head) (s : State) : Only [.heads, .chans, .safety, .cxl, .ev, .out] (darkPlane h s) s := by
  unfold darkPlane
  try dsimp only
  repeat' (first
    | with_reducible apply only_refl | (with_reducible apply only_step (only_onHead ..); decide)
    | (with_reducible apply only_step (raise_only ..); decide) | split)

theorem noteDark_only (h : Head) (e : Nat) (s : State) : Only [.heads, .links, .chans, .safety, .cxl, .ev, .out] (noteDark h e
    s) s := by
  unfold noteDark
  try dsimp only
  repeat' (first
    | with_reducible apply only_refl | (with_reducible apply only_step (only_onLink ..); decide)
    | (with_reducible apply only_step (darkPlane_only ..); decide) | split)

theorem planeReadFails_only (h : Head) (plane : Nat) (e : BusError) (a : Nat) (s : State) : Only [.heads, .links, .chans,
    .safety, .cxl, .ev, .out] (planeReadFails h plane e a s) s := by
  unfold planeReadFails
  try dsimp only
  repeat' (first
    | with_reducible apply only_refl | (with_reducible apply only_step (cxlError_only ..); decide)
    | (with_reducible apply only_step (noteDark_only ..); decide) | split)

theorem sendWords_only (g : Head) (lane : Fin 8) (ws : List (Bool × Nat)) (s : State) : Only [.links, .out] (sendWords g lane
    ws s) s := by
  unfold sendWords
  try dsimp only
  repeat' (first
    | with_reducible apply only_refl | (with_reducible apply only_step (only_onLink ..); decide)
    | (with_reducible apply only_step (only_emit ..); decide) | split)

theorem emitBlock_only (g : Head) (lane : Fin 8) (header : BitVec 32) (payload : List Byte) (s : State) : Only [.links, .out]
    (emitBlock g lane header payload s) s := by
  unfold emitBlock
  try dsimp only
  repeat' (first
    | with_reducible apply only_refl | (with_reducible apply only_step (sendWords_only ..); decide) | split)

theorem laneCtrl_only (g : Head) (lane : Fin 8) (body : Nat) (s : State) : Only [.links, .out] (laneCtrl g lane body s) s := by
  unfold laneCtrl
  try dsimp only
  repeat' (first
    | with_reducible apply only_refl | (with_reducible apply only_step (sendWords_only ..); decide) | split)

theorem sendIdle_only (g : Head) (lane : Fin 8) (s : State) : Only [.links, .out] (sendIdle g lane s) s := by
  unfold sendIdle
  try dsimp only
  repeat' (first
    | with_reducible apply only_refl | (with_reducible apply only_step (laneCtrl_only ..); decide) | split)

theorem sendPlaneBlock_only (h : Head) (lane : Fin 8) (e : Nat) (b : Nat) (data : List Byte) (s : State) : Only [.links, .out]
    (sendPlaneBlock h lane e b data s) s := by
  unfold sendPlaneBlock
  try dsimp only
  repeat' (first
    | with_reducible apply only_refl | (with_reducible apply only_step (emitBlock_only ..); decide) | split)

theorem resendBlock_only (h : Head) (lane : Fin 8) (f : Flight) (s : State) : Only [.links, .out] (resendBlock h lane f s) s := by
  unfold resendBlock
  try dsimp only
  repeat' (first
    | with_reducible apply only_refl | (with_reducible apply only_step (only_onLink ..); decide)
    | (with_reducible apply only_step (sendPlaneBlock_only ..); decide) | split)

theorem firstSend_only (h : Head) (lane : Fin 8) (w : Shown) (e : Nat) (p : Nat) (s : State) : Only [.links, .out] (firstSend h
    lane w e p s) s := by
  unfold firstSend
  try dsimp only
  repeat' (first
    | with_reducible apply only_refl | (with_reducible apply only_step (only_onLink ..); decide)
    | (with_reducible apply only_step (askIo_only ..); decide) | (with_reducible apply only_step (sendPlaneBlock_only ..); decide)
    | split)

theorem laneSend_only (h : Head) (lane : Fin 8) (late : Bool) (s : State) : Only [.heads, .links, .chans, .safety, .cxl, .ev,
    .out] (laneSend h lane late s) s := by
  unfold laneSend
  try dsimp only
  repeat' (first
    | with_reducible apply only_refl | (with_reducible apply only_step (only_onLink ..); decide)
    | (with_reducible apply only_step (firstSend_only ..); decide) | (with_reducible apply only_step (noteDark_only ..); decide)
    | (with_reducible apply only_step (resendBlock_only ..); decide) | (with_reducible apply only_step (sendIdle_only ..); decide)
    | split)

theorem blockSend_only (h : Head) (lane : Fin 8) (late : Bool) (s : State) : Only [.heads, .links, .chans, .safety, .cxl, .ev,
    .out] (blockSend h lane late s) s := by
  unfold blockSend
  try extract_lets
  repeat' (first
    | with_reducible apply only_refl | (with_reducible apply only_step (laneSend_only ..); decide)
    | (with_reducible apply only_step (sendIdle_only ..); decide) | with_reducible apply only_ite | extract_lets | split)

theorem stopAtEntry_only (h : Head) (s : State) : Only [.links] (stopAtEntry h s) s := by
  unfold stopAtEntry
  try dsimp only
  repeat' (first
    | with_reducible apply only_refl | (with_reducible apply only_step (only_onLink ..); decide) | split)

theorem onFlights_only (h : Head) (f : List Flight → List Flight) (s : State) : Only [.links, .rasters] (onFlights h f s) s := by
  unfold onFlights
  try dsimp only
  repeat' (first
    | with_reducible apply only_refl | (with_reducible apply only_step (only_onLink ..); decide)
    | (with_reducible apply only_step (only_onRaster ..); decide) | split)

theorem windowLoss_only (m : Nat) (h : Head) (colour : Nat) (rho : Nat) (s : State) : Only [.chans, .safety, .cxl, .ev, .out]
    (windowLoss m h colour rho s) s := by
  unfold windowLoss
  try dsimp only
  repeat' (first
    | with_reducible apply only_refl | (with_reducible apply only_step (safetyFault_only ..); decide) | split)

theorem noteWinLost_only (h : Head) (s : State) : Only [.heads, .chans, .safety, .cxl, .ev, .out] (noteWinLost h s) s := by
  unfold noteWinLost
  try dsimp only
  repeat' (first
    | with_reducible apply only_refl | (with_reducible apply only_step (only_onHead ..); decide)
    | (with_reducible apply only_step (windowLoss_only ..); decide) | split)

theorem blockLost_only (h : Head) (plane : Nat) (block : Nat) (s : State) : Only [.heads, .links, .chans, .safety, .cxl, .ev,
    .out] (blockLost h plane block s) s := by
  unfold blockLost
  try dsimp only
  repeat' (first
    | with_reducible apply only_refl | (with_reducible apply only_step (only_onLink ..); decide)
    | (with_reducible apply only_step (noteWinLost_only ..); decide) | split)

theorem packetLost_only (h : Head) (p : Nat) (y : Nat) (s : State) : Only [.heads, .links, .rasters, .chans, .safety, .cxl,
    .ev, .out] (packetLost h p y s) s := by
  unfold packetLost
  try dsimp only
  repeat' (first
    | with_reducible apply only_refl | (with_reducible apply only_step (only_onLink ..); decide)
    | (with_reducible apply only_step (only_onRaster ..); decide) | (with_reducible apply only_step (noteWinLost_only ..); decide)
    | split)

theorem flightLost_only (h : Head) (f : Flight) (s : State) : Only [.heads, .links, .rasters, .chans, .safety, .cxl, .ev, .out]
    (flightLost h f s) s := by
  unfold flightLost
  try dsimp only
  repeat' (first
    | with_reducible apply only_refl | (with_reducible apply only_step (blockLost_only ..); decide)
    | (with_reducible apply only_step (onFlights_only ..); decide) | (with_reducible apply only_step (packetLost_only ..); decide)
    | split)

theorem refused_only (h : Head) (f : Flight) (s : State) : Only [.heads, .links, .rasters, .chans, .safety, .cxl, .ev, .out]
    (refused h f s) s := by
  unfold refused
  try dsimp only
  repeat' (first
    | with_reducible apply only_refl | (with_reducible apply only_step (flightLost_only ..); decide)
    | (with_reducible apply only_step (onFlights_only ..); decide) | split)

theorem acked_only (h : Head) (w : BackWord) (s : State) : Only [.links, .rasters] (acked h w s) s := by
  unfold acked
  try dsimp only
  repeat' (first
    | with_reducible apply only_refl | (with_reducible apply only_step (only_onLink ..); decide)
    | (with_reducible apply only_step (onFlights_only ..); decide) | split)

theorem refusal_only (h : Head) (w : BackWord) (s : State) : Only [.heads, .links, .rasters, .chans, .safety, .cxl, .ev, .out]
    (refusal h w s) s := by
  unfold refusal
  try dsimp only
  repeat' (first
    | with_reducible apply only_refl | (with_reducible apply only_step (only_onLink ..); decide)
    | (with_reducible apply only_step (refused_only ..); decide) | split)

theorem unanswered_only (h : Head) (plane : Nat) (block : Nat) (s : State) : Only [.heads, .links, .rasters, .chans, .safety,
    .cxl, .ev, .out] (unanswered h plane block s) s := by
  unfold unanswered
  try dsimp only
  repeat' (first
    | with_reducible apply only_refl | (with_reducible apply only_step (only_onLink ..); decide)
    | (with_reducible apply only_step (refused_only ..); decide) | split)

theorem tableCheck_only (h : Head) (s : State) : Only [.heads, .rasters, .chans, .safety, .cxl, .ev, .out] (tableCheck h s) s
    := by
  unfold tableCheck
  try dsimp only
  repeat' (first
    | with_reducible apply only_refl | (with_reducible apply only_step (only_onHead ..); decide)
    | (with_reducible apply only_step (only_onRaster ..); decide) | (with_reducible apply only_step (raise_only ..); decide)
    | split)

theorem lineDeadline_only (h : Head) (y : Nat) (s : State) : Only [.heads, .links, .rasters, .chans, .safety, .cxl, .ev, .out]
    (lineDeadline h y s) s := by
  unfold lineDeadline
  try dsimp only
  repeat' (first
    | with_reducible apply only_refl | (with_reducible apply only_step (only_onRaster ..); decide)
    | (with_reducible apply only_step (flightLost_only ..); decide)
    | (with_reducible apply only_step (packetLost_only ..); decide)
    | (with_reducible apply only_step (only_forEach _ _ (fun _ _ => only_onRaster ..) _); decide)
    | (with_reducible apply only_step (only_forEach _ _ (fun _ _ => flightLost_only ..) _); decide)
    | (with_reducible apply only_step (only_forEach _ _ (fun _ _ => packetLost_only ..) _); decide)
    | with_reducible apply only_forEach_step | intro x s | split)

theorem deadline_only (h : Head) (plane : Nat) (s : State) : Only [.heads, .links, .rasters, .chans, .safety, .cxl, .ev, .out]
    (deadline h plane s) s := by
  unfold deadline
  try dsimp only
  repeat' (first
    | with_reducible apply only_refl | (with_reducible apply only_step (only_onLink ..); decide)
    | (with_reducible apply only_step (blockLost_only ..); decide) | (with_reducible apply only_step (flightLost_only ..); decide)
    | (with_reducible apply only_step (lineDeadline_only ..); decide)
    | (with_reducible apply only_step (only_forEach _ _ (fun _ _ => only_onLink ..) _); decide)
    | (with_reducible apply only_step (only_forEach _ _ (fun _ _ => blockLost_only ..) _); decide)
    | (with_reducible apply only_step (only_forEach _ _ (fun _ _ => flightLost_only ..) _); decide)
    | (with_reducible apply only_step (only_forEach _ _ (fun _ _ => lineDeadline_only ..) _); decide)
    | with_reducible apply only_forEach_step | intro x s | split)

theorem sendSync_only (h : Head) (done : Nat) (lane : Fin 8) (s : State) : Only [.links, .out] (sendSync h done lane s) s := by
  unfold sendSync
  try dsimp only
  repeat' (first
    | with_reducible apply only_refl | (with_reducible apply only_step (laneCtrl_only ..); decide) | split)

theorem sendSched_only (h : Head) (lane : Fin 8) (e : Nat) (s : State) : Only [.links, .out] (sendSched h lane e s) s := by
  unfold sendSched
  try dsimp only
  repeat' (first
    | with_reducible apply only_refl | (with_reducible apply only_step (laneCtrl_only ..); decide) | split)

theorem sendTrain_only (h : Head) (rate : Nat) (lane : Fin 8) (s : State) : Only [.links, .out] (sendTrain h rate lane s) s := by
  unfold sendTrain
  try dsimp only
  repeat' (first
    | with_reducible apply only_refl | (with_reducible apply only_step (laneCtrl_only ..); decide) | split)

theorem sendTiming_only (h : Head) (s : State) : Only [.links, .out] (sendTiming h s) s := by
  unfold sendTiming
  try dsimp only
  repeat' (first
    | with_reducible apply only_refl | (with_reducible apply only_step (only_onLink ..); decide)
    | (with_reducible apply only_step (sendSched_only ..); decide) | (with_reducible apply only_step (sendSync_only ..); decide)
    | (with_reducible apply only_step (only_forEach _ _ (fun _ _ => only_onLink ..) _); decide)
    | (with_reducible apply only_step (only_forEach _ _ (fun _ _ => sendSched_only ..) _); decide)
    | (with_reducible apply only_step (only_forEach _ _ (fun _ _ => sendSync_only ..) _); decide)
    | with_reducible apply only_forEach_step | intro x s | split)

theorem resendWord_only (h : Head) (lane : Fin 8) (word : CtrlWord) (done : Nat) (s : State) : Only [.links, .out] (resendWord
    h lane word done s) s := by
  unfold resendWord
  try dsimp only
  repeat' (first
    | with_reducible apply only_refl | (with_reducible apply only_step (laneCtrl_only ..); decide)
    | (with_reducible apply only_step (sendIdle_only ..); decide) | (with_reducible apply only_step (sendSched_only ..); decide)
    | (with_reducible apply only_step (sendSync_only ..); decide) | (with_reducible apply only_step (sendTrain_only ..); decide)
    | split)

theorem readbackCtrl_only (h : Head) (lane : Fin 8) (word : CtrlWord) (done : Nat) (s : State) : Only [.links, .chans, .safety,
    .cxl, .ev, .out] (readbackCtrl h lane word done s) s := by
  unfold readbackCtrl
  try dsimp only
  repeat' (first
    | with_reducible apply only_refl | (with_reducible apply only_step (only_onLink ..); decide)
    | (with_reducible apply only_step (raise_only ..); decide) | (with_reducible apply only_step (resendWord_only ..); decide)
    | (with_reducible apply only_step (windowLoss_only ..); decide) | split)

theorem readbackBlock_only (h : Head) (lane : Fin 8) (plane : Nat) (block : Nat) (s : State) : Only [.heads, .links, .rasters,
    .chans, .safety, .cxl, .ev, .out] (readbackBlock h lane plane block s) s := by
  unfold readbackBlock
  try dsimp only
  repeat' (first
    | with_reducible apply only_refl | (with_reducible apply only_step (only_onLink ..); decide)
    | (with_reducible apply only_step (onFlights_only ..); decide) | (with_reducible apply only_step (raise_only ..); decide)
    | (with_reducible apply only_step (refused_only ..); decide) | split)

theorem readback_only (h : Head) (lane : Fin 8) (r : Readback) (s : State) : Only [.heads, .links, .rasters, .chans, .safety,
    .cxl, .ev, .out] (readback h lane r s) s := by
  unfold readback
  try dsimp only
  repeat' (first
    | with_reducible apply only_refl | (with_reducible apply only_step (only_onLink ..); decide)
    | (with_reducible apply only_step (readbackBlock_only ..); decide)
    | (with_reducible apply only_step (readbackCtrl_only ..); decide) | split)

theorem groupDown_only (g : Head) (cause : Nat) (lane : Nat) (s : State) : Only [.links, .rasters, .chans, .safety, .cxl, .ev,
    .out] (groupDown g cause lane s) s := by
  unfold groupDown
  try dsimp only
  repeat' (first
    | with_reducible apply only_refl | (with_reducible apply only_step (only_onLink ..); decide)
    | (with_reducible apply only_step (only_onRaster ..); decide) | (with_reducible apply only_step (raise_only ..); decide)
    | split)

theorem groupFails_only (g : Head) (cause : Nat) (lane : Nat) (s : State) : Only [.links, .rasters, .chans, .safety, .cxl, .ev,
    .out] (groupFails g cause lane s) s := by
  unfold groupFails
  try dsimp only
  repeat' (first
    | with_reducible apply only_refl | (with_reducible apply only_step (groupDown_only ..); decide) | split)

theorem startTraining_only (g : Head) (s : State) : Only [.links, .out] (startTraining g s) s := by
  unfold startTraining
  try dsimp only
  repeat' (first
    | with_reducible apply only_refl | (with_reducible apply only_step (only_onLink ..); decide)
    | (with_reducible apply only_step (sendTrain_only ..); decide)
    | (with_reducible apply only_step (only_forEach _ _ (fun _ _ => only_onLink ..) _); decide)
    | (with_reducible apply only_step (only_forEach _ _ (fun _ _ => sendTrain_only ..) _); decide)
    | with_reducible apply only_forEach_step | intro x s | split)

theorem attemptFails_only (g : Head) (lane : Nat) (s : State) : Only [.links, .chans, .safety, .cxl, .ev, .out] (attemptFails g
    lane s) s := by
  unfold attemptFails
  try dsimp only
  repeat' (first
    | with_reducible apply only_refl | (with_reducible apply only_step (only_onLink ..); decide)
    | (with_reducible apply only_step (raise_only ..); decide) | split)

theorem stepTimeout_only (g : Head) (s : State) : Only [.links, .chans, .safety, .cxl, .ev, .out] (stepTimeout g s) s := by
  unfold stepTimeout
  try dsimp only
  repeat' (first
    | with_reducible apply only_refl | (with_reducible apply only_step (attemptFails_only ..); decide) | split)

theorem retrainRetry_only (g : Head) (s : State) : Only [.links] (retrainRetry g s) s := by
  unfold retrainRetry
  try dsimp only
  repeat' (first
    | with_reducible apply only_refl | (with_reducible apply only_step (only_onLink ..); decide) | split)

theorem sendEchoes_only (g : Head) (s : State) : Only [.links, .out] (sendEchoes g s) s := by
  unfold sendEchoes
  try dsimp only
  repeat' (first
    | with_reducible apply only_refl | (with_reducible apply only_step (laneCtrl_only ..); decide)
    | (with_reducible apply only_step (only_forEach _ _ (fun _ _ => laneCtrl_only ..) _); decide)
    | with_reducible apply only_forEach_step | intro x s | split)

theorem trainWord_only (g : Head) (w : BackWord) (s : State) : Only [.links, .out] (trainWord g w s) s := by
  unfold trainWord
  try extract_lets
  repeat' (first
    | with_reducible apply only_refl | (with_reducible apply only_step (only_onLink ..); decide)
    | (with_reducible apply only_step (sendEchoes_only ..); decide) | (with_reducible apply only_step (sendTrain_only ..); decide)
    | with_reducible apply only_ite | extract_lets | split)

theorem echoWord_only (g : Head) (roundTrip : Nat) (w : BackWord) (s : State) : Only [.links, .chans, .safety, .cxl, .ev, .out]
    (echoWord g roundTrip w s) s := by
  unfold echoWord
  try dsimp only
  repeat' (first
    | with_reducible apply only_refl | (with_reducible apply only_step (only_onLink ..); decide)
    | (with_reducible apply only_step (attemptFails_only ..); decide) | rw [id_eq] | split)

theorem tellArray_only (h : Head) (s : State) : Only [.chans, .safety, .cxl, .ev, .out] (tellArray h s) s := by
  unfold tellArray
  try dsimp only
  repeat' (first
    | with_reducible apply only_refl | (with_reducible apply only_step (raise_only ..); decide) | split)

theorem trained_only (h : Head) (s : State) : Only [.links, .chans, .safety, .cxl, .ev, .out] (trained h s) s := by
  unfold trained
  try dsimp only
  repeat' (first
    | with_reducible apply only_refl | (with_reducible apply only_step (only_onLink ..); decide)
    | (with_reducible apply only_step (raise_only ..); decide) | split)

theorem statusWord_only (h : Head) (w : BackWord) (s : State) : Only [.links, .chans, .safety, .cxl, .ev, .out] (statusWord h w
    s) s := by
  unfold statusWord
  try dsimp only
  repeat' (first
    | with_reducible apply only_refl | (with_reducible apply only_step (only_onLink ..); decide)
    | (with_reducible apply only_step (tellArray_only ..); decide) | (with_reducible apply only_step (trained_only ..); decide)
    | split)

theorem resetDoneWord_only (h : Head) (w : BackWord) (s : State) : Only [.heads, .links, .chans, .safety, .cxl, .ev, .out]
    (resetDoneWord h w s) s := by
  unfold resetDoneWord
  try dsimp only
  repeat' (first
    | with_reducible apply only_refl | (with_reducible apply only_step (only_onHead ..); decide)
    | (with_reducible apply only_step (only_onLink ..); decide) | (with_reducible apply only_step (raise_only ..); decide) | split)

theorem arrayLate_only (h : Head) (plane : Nat) (missing : Bool) (s : State) : Only [.links, .chans, .safety, .cxl, .ev, .out]
    (arrayLate h plane missing s) s := by
  unfold arrayLate
  try dsimp only
  repeat' (first
    | with_reducible apply only_refl | (with_reducible apply only_step (only_onLink ..); decide)
    | (with_reducible apply only_step (raise_only ..); decide) | split)

theorem faultChan_only (n : Chan) (cause : Nat) (vS : Nat) (iMeas : Nat) (s : State) : Only [.chans, .safety, .cxl, .ev, .out]
    (faultChan n cause vS iMeas s) s := by
  unfold faultChan
  try dsimp only
  repeat' (first
    | with_reducible apply only_refl | (with_reducible apply only_step (only_onChan ..); decide)
    | (with_reducible apply only_step (raise_only ..); decide) | split)

theorem startChan_only (n : Chan) (s : State) : Only [.chans, .safety, .cxl, .ev, .out] (startChan n s) s := by
  unfold startChan
  try dsimp only
  repeat' (first
    | with_reducible apply only_refl | (with_reducible apply only_step (only_onChan ..); decide)
    | (with_reducible apply only_step (raise_only ..); decide) | split)

theorem judgeChan_only (n : Chan) (m : ChanMeas) (s : State) : Only [.chans, .safety, .cxl, .ev, .out] (judgeChan n m s) s := by
  unfold judgeChan
  try dsimp only
  repeat' (first
    | with_reducible apply only_refl | (with_reducible apply only_step (only_onChan ..); decide)
    | (with_reducible apply only_step (faultChan_only ..); decide) | split)

theorem overCurrentFault_only (n : Chan) (m : OverMeas) (s : State) : Only [.chans, .safety, .cxl, .ev, .out] (overCurrentFault
    n m s) s := by
  unfold overCurrentFault
  try dsimp only
  repeat' (first
    | with_reducible apply only_refl | (with_reducible apply only_step (faultChan_only ..); decide) | split)

theorem restartChan_only (n : Chan) (s : State) : Only [.chans, .safety, .cxl, .ev, .out] (restartChan n s) s := by
  unfold restartChan
  try dsimp only
  repeat' (first
    | with_reducible apply only_refl | (with_reducible apply only_step (startChan_only ..); decide) | split)

theorem gateFaultChan_only (n : Chan) (s : State) : Only [.chans, .safety, .cxl, .ev, .out] (gateFaultChan n s) s := by
  unfold gateFaultChan
  try dsimp only
  repeat' (first
    | with_reducible apply only_refl | (with_reducible apply only_step (faultChan_only ..); decide) | split)

theorem tripFault_only (m : Nat) (head : Nat) (colour : Nat) (restartable : Bool) (src : Nat) (code : BitVec 16) (payload :
    Nat) (s : State) : Only [.chans, .safety, .cxl, .ev, .out] (tripFault m head colour restartable src code payload s) s := by
  unfold tripFault
  try extract_lets
  repeat' (first
    | with_reducible apply only_refl | (with_reducible apply only_step (divert_only ..); decide)
    | (with_reducible apply only_step (raise_only ..); decide) | (with_reducible apply only_step (safeReact_only ..); decide)
    | with_reducible apply only_ite | extract_lets | split)

theorem energyTrips_only (h : Head) (c : Colour) (long : Bool) (s : State) : Only [.heads, .chans, .safety, .cxl, .ev, .out]
    (energyTrips h c long s) s := by
  unfold energyTrips
  try dsimp only
  repeat' (first
    | with_reducible apply only_refl | (with_reducible apply only_step (only_onSafety ..); decide)
    | (with_reducible apply only_step (only_onHeads ..); decide) | (with_reducible apply only_step (tripFault_only ..); decide)
    | split)

theorem diagPulse_only (h : Head) (i : Nat) (s : State) : Only [.clk, .chans] (diagPulse h i s) s := by
  unfold diagPulse
  try dsimp only
  repeat' (first
    | with_reducible apply only_refl | (with_reducible apply only_step (only_onChan ..); decide)
    | (with_reducible apply only_step (reach_only ..); decide) | split)

theorem freeRat_only (s : State) : Only [.free] ((freeRat s).2) s := by
  unfold freeRat
  try dsimp only
  repeat' (first
    | with_reducible apply only_refl | (with_reducible apply only_step (drawFree_only ..); decide) | split)

theorem driftDev_only (n : Chan) (g : Rat) (pA : Nat) (pB : Nat) (s : State) : Only [.free] ((driftDev n g pA pB s).2) s := by
  unfold driftDev
  try dsimp only
  repeat' (first
    | with_reducible apply only_refl | (with_reducible apply only_step (freeRat_only ..); decide) | split)

theorem driftFault_only (n : Chan) (cause : Nat) (extra : Nat) (s : State) : Only [.chans, .safety, .cxl, .ev, .out]
    (driftFault n cause extra s) s := by
  unfold driftFault
  try dsimp only
  repeat' (first
    | with_reducible apply only_refl | (with_reducible apply only_step (only_onChan ..); decide)
    | (with_reducible apply only_step (raise_only ..); decide) | split)

theorem judgeDrift_only (n : Chan) (pA : Nat) (pB : Nat) (s : State) : Only [.chans, .oss, .safety, .cxl, .ev, .out, .free]
    (judgeDrift n pA pB s) s := by
  unfold judgeDrift
  try dsimp only
  repeat' (first
    | with_reducible apply only_refl | (with_reducible apply only_step (only_onChan ..); decide)
    | (with_reducible apply only_step (only_onOs ..); decide) | (with_reducible apply only_step (driftDev_only ..); decide)
    | (with_reducible apply only_step (driftFault_only ..); decide) | split)

theorem driftCheckSlot_only (h : Head) (pA : Nat) (pB : Nat) (s : State) : Only [.clk, .heads, .chans, .oss, .safety, .cxl,
    .ev, .out, .free] (driftCheckSlot h pA pB s) s := by
  unfold driftCheckSlot
  try dsimp only
  repeat' (first
    | with_reducible apply only_refl | (with_reducible apply only_step (only_onHead ..); decide)
    | (with_reducible apply only_step (only_onChan ..); decide) | (with_reducible apply only_step (judgeDrift_only ..); decide)
    | (with_reducible apply only_step (reach_only ..); decide) | split)

theorem startShow_only (h : Head) (s : State) : Only [.clk, .heads, .rasters, .chans, .safety, .cxl, .ev, .out] (startShow h s)
    s := by
  unfold startShow
  try extract_lets
  repeat' (first
    | with_reducible apply only_refl | (with_reducible apply only_step (only_onClk ..); decide)
    | (with_reducible apply only_step (only_onHead ..); decide) | (with_reducible apply only_step (only_onRaster ..); decide)
    | (with_reducible apply only_step (enterPhases_only ..); decide) | (with_reducible apply only_step (reach_only ..); decide)
    | (with_reducible apply only_step (tableCheck_only ..); decide) | with_reducible apply only_ite | extract_lets | split)

theorem openGates_only (h : Head) (c : Option Colour) (s : State) : Only [.heads, .chans] (openGates h c s) s := by
  unfold openGates
  try dsimp only
  repeat' (first
    | with_reducible apply only_refl | (with_reducible apply only_step (only_onHead ..); decide)
    | (with_reducible apply only_step (only_onChans ..); decide) | split)

theorem closeGates_only (h : Head) (s : State) : Only [.heads, .chans] (closeGates h s) s := by
  unfold closeGates
  try dsimp only
  repeat' (first
    | with_reducible apply only_refl | (with_reducible apply only_step (only_onHead ..); decide)
    | (with_reducible apply only_step (divert_only ..); decide) | split)

theorem gateOpens_only (h : Head) (s : State) : Only [.heads, .rasters, .chans] (gateOpens h s) s := by
  unfold gateOpens
  try dsimp only
  repeat' (first
    | with_reducible apply only_refl | (with_reducible apply only_step (only_onRaster ..); decide)
    | (with_reducible apply only_step (openGates_only ..); decide) | split)

theorem gateCloses_only (h : Head) (s : State) : Only [.heads, .rasters, .chans] (gateCloses h s) s := by
  unfold gateCloses
  try dsimp only
  repeat' (first
    | with_reducible apply only_refl | (with_reducible apply only_step (only_onRaster ..); decide)
    | (with_reducible apply only_step (closeGates_only ..); decide) | split)

theorem canvasCrcFault_only (h : Head) (s : State) : Only [.chans, .safety, .cxl, .ev, .out] (canvasCrcFault h s) s := by
  unfold canvasCrcFault
  try dsimp only
  repeat' (first
    | with_reducible apply only_refl | (with_reducible apply only_step (safetyFault_only ..); decide) | split)

theorem startEntry_only (h : Head) (crc : BitVec 32) (s : State) : Only [.heads, .links, .chans, .safety, .cxl, .ev, .out]
    (startEntry h crc s) s := by
  unfold startEntry
  try extract_lets
  repeat' (first
    | with_reducible apply only_refl | (with_reducible apply only_step (only_onHead ..); decide)
    | (with_reducible apply only_step (canvasCrcFault_only ..); decide)
    | (with_reducible apply only_step (closeGates_only ..); decide)
    | (with_reducible apply only_step (stopAtEntry_only ..); decide) | with_reducible apply only_ite | extract_lets | split)

theorem actVerdict_only (h : Head) (c : Colour) (v : Verdict) (s : State) : Only [.heads, .chans, .safety, .cxl, .ev, .out]
    (actVerdict h c v s) s := by
  unfold actVerdict
  try dsimp only
  repeat' (first
    | with_reducible apply only_refl | (with_reducible apply only_step (only_onHead ..); decide)
    | (with_reducible apply only_step (safetyFault_only ..); decide)
    | (with_reducible apply only_step (windowLoss_only ..); decide) | split)

theorem tellProven_only (h : Head) (s : State) : Only [.heads, .chans, .safety, .cxl, .ev, .out] (tellProven h s) s := by
  unfold tellProven
  try dsimp only
  repeat' (first
    | with_reducible apply only_refl | (with_reducible apply only_step (only_onHead ..); decide)
    | (with_reducible apply only_step (raise_only ..); decide) | split)

theorem countInvalid_only (h : Head) (bad : Nat) (s : State) : Only [.heads, .chans, .safety, .cxl, .ev, .out] (countInvalid h
    bad s) s := by
  unfold countInvalid
  try dsimp only
  repeat' (first
    | with_reducible apply only_refl | (with_reducible apply only_step (only_onHead ..); decide)
    | (with_reducible apply only_step (raise_only ..); decide) | split)

theorem judgeProof_only (h : Head) (t : OsTick) (s : State) : Only [.heads, .chans, .safety, .cxl, .ev, .out] (judgeProof h t
    s) s := by
  unfold judgeProof
  try dsimp only
  repeat' (first
    | with_reducible apply only_refl | (with_reducible apply only_step (actVerdict_only ..); decide)
    | (with_reducible apply only_step (countInvalid_only ..); decide)
    | (with_reducible apply only_step (tellProven_only ..); decide)
    | (with_reducible apply only_step (only_forEach _ _ (fun _ _ => actVerdict_only ..) _); decide)
    | (with_reducible apply only_step (only_forEach _ _ (fun _ _ => countInvalid_only ..) _); decide)
    | (with_reducible apply only_step (only_forEach _ _ (fun _ _ => tellProven_only ..) _); decide)
    | with_reducible apply only_forEach_step | intro x s | split)

theorem proofStep_only (h : Head) (t : OsTick) (s : State) : Only [.cal] (proofStep h t s) s := by
  unfold proofStep
  try dsimp only
  repeat' (first
    | with_reducible apply only_refl | (with_reducible apply only_step (only_onCal ..); decide)
    | (with_reducible apply only_step (noteItem_only ..); decide) | split)

theorem endShow_only (h : Head) (crcs : Vector (BitVec 32) 12) (t : OsTick) (s : State) : Only [.clk, .heads, .links, .chans,
    .safety, .cxl, .ev, .cal, .out] (endShow h crcs t s) s := by
  unfold endShow
  try extract_lets
  repeat' (first
    | with_reducible apply only_refl | (with_reducible apply only_step (only_onHead ..); decide)
    | (with_reducible apply only_step (canvasCrcFault_only ..); decide)
    | (with_reducible apply only_step (closeGates_only ..); decide)
    | (with_reducible apply only_step (judgeProof_only ..); decide) | (with_reducible apply only_step (proofStep_only ..); decide)
    | (with_reducible apply only_step (raise_only ..); decide) | (with_reducible apply only_step (reach_only ..); decide)
    | (with_reducible apply only_step (stopAtEntry_only ..); decide) | with_reducible apply only_ite | extract_lets | split)

theorem steer_only (h : Head) (t : SlowTarget) (s : State) : Only [.rasters, .out] (steer h t s) s := by
  unfold steer
  try dsimp only
  repeat' (first
    | with_reducible apply only_refl | (with_reducible apply only_step (only_onRaster ..); decide)
    | (with_reducible apply only_step (only_emit ..); decide) | split)

theorem slowNow_only (h : Head) (s : State) : Only [.free] ((slowNow h s).2) s := by
  unfold slowNow
  try dsimp only
  repeat' (first
    | with_reducible apply only_refl | (with_reducible apply only_step (drawFree_only ..); decide) | split)

theorem retrace_only (h : Head) (s : State) : Only [.rasters, .out, .free] (retrace h s) s := by
  unfold retrace
  try dsimp only
  repeat' (first
    | with_reducible apply only_refl | (with_reducible apply only_step (slowNow_only ..); decide)
    | (with_reducible apply only_step (steer_only ..); decide) | split)

theorem tellRaster_only (h : Head) (cause : Nat) (s : State) : Only [.chans, .safety, .cxl, .ev, .out] (tellRaster h cause s) s
    := by
  unfold tellRaster
  try dsimp only
  repeat' (first
    | with_reducible apply only_refl | (with_reducible apply only_step (raise_only ..); decide) | split)

theorem drive_only (h : Head) (d : FastDrive) (s : State) : Only [.rasters, .out] (drive h d s) s := by
  unfold drive
  try dsimp only
  repeat' (first
    | with_reducible apply only_refl | (with_reducible apply only_step (only_onRaster ..); decide)
    | (with_reducible apply only_step (only_emit ..); decide) | split)

theorem acquire_only (h : Head) (s : State) : Only [.rasters, .out] (acquire h s) s := by
  unfold acquire
  try dsimp only
  repeat' (first
    | with_reducible apply only_refl | (with_reducible apply only_step (only_onRaster ..); decide)
    | (with_reducible apply only_step (drive_only ..); decide) | split)

theorem sweepEnd_only (h : Head) (sweep : List (Nat × Nat)) (s : State) : Only [.rasters, .out] (sweepEnd h sweep s) s := by
  unfold sweepEnd
  try dsimp only
  repeat' (first
    | with_reducible apply only_refl | (with_reducible apply only_step (only_onRaster ..); decide)
    | (with_reducible apply only_step (drive_only ..); decide) | split)

theorem locks_only (h : Head) (milliHz : Nat) (s : State) : Only [.rasters, .chans, .safety, .cxl, .ev, .out] (locks h milliHz
    s) s := by
  unfold locks
  try dsimp only
  repeat' (first
    | with_reducible apply only_refl | (with_reducible apply only_step (only_onRaster ..); decide)
    | (with_reducible apply only_step (drive_only ..); decide) | (with_reducible apply only_step (raise_only ..); decide) | split)

theorem acquireFails_only (h : Head) (s : State) : Only [.rasters, .chans, .safety, .cxl, .ev, .out] (acquireFails h s) s := by
  unfold acquireFails
  try dsimp only
  repeat' (first
    | with_reducible apply only_refl | (with_reducible apply only_step (only_onRaster ..); decide)
    | (with_reducible apply only_step (drive_only ..); decide) | (with_reducible apply only_step (tellRaster_only ..); decide)
    | split)

theorem acquireAgain_only (h : Head) (s : State) : Only [.rasters, .out] (acquireAgain h s) s := by
  unfold acquireAgain
  try dsimp only
  repeat' (first
    | with_reducible apply only_refl | (with_reducible apply only_step (acquire_only ..); decide) | split)

theorem lockLoss_only (h : Head) (s : State) : Only [.heads, .rasters, .chans, .safety, .cxl, .ev, .out] (lockLoss h s) s := by
  unfold lockLoss
  try extract_lets
  repeat' (first
    | with_reducible apply only_refl | (with_reducible apply only_step (acquire_only ..); decide)
    | (with_reducible apply only_step (closeGates_only ..); decide)
    | (with_reducible apply only_step (tellRaster_only ..); decide) | with_reducible apply only_ite | extract_lets | split)

theorem guardTrips_only (h : Head) (slow : Bool) (s : State) : Only [.heads, .rasters, .chans, .safety, .cxl, .ev, .out]
    (guardTrips h slow s) s := by
  unfold guardTrips
  try extract_lets
  repeat' (first
    | with_reducible apply only_refl | (with_reducible apply only_step (only_onRaster ..); decide)
    | (with_reducible apply only_step (only_emit ..); decide) | (with_reducible apply only_step (acquire_only ..); decide)
    | (with_reducible apply only_step (closeGates_only ..); decide)
    | (with_reducible apply only_step (tellRaster_only ..); decide) | with_reducible apply only_ite | extract_lets | split)

theorem openLine_only (h : Head) (y : Nat) (s : State) : Only [.rasters, .out] (openLine h y s) s := by
  unfold openLine
  try dsimp only
  repeat' (first
    | with_reducible apply only_refl | (with_reducible apply only_step (only_onRaster ..); decide)
    | (with_reducible apply only_step (steer_only ..); decide) | split)

theorem endLines_only (h : Head) (s : State) : Only [.rasters, .out] (endLines h s) s := by
  unfold endLines
  try dsimp only
  repeat' (first
    | with_reducible apply only_refl | (with_reducible apply only_step (only_onRaster ..); decide)
    | (with_reducible apply only_step (steer_only ..); decide) | split)

theorem lineStart_only (h : Head) (forward : Bool) (at_ : Nat) (milliHz : Nat) (s : State) : Only [.clk, .heads, .links,
    .rasters, .chans, .safety, .cxl, .ev, .out] (lineStart h forward at_ milliHz s) s := by
  unfold lineStart
  try extract_lets
  repeat' (first
    | with_reducible apply only_refl | (with_reducible apply only_step (only_onRaster ..); decide)
    | (with_reducible apply only_step (closeGates_only ..); decide) | (with_reducible apply only_step (endLines_only ..); decide)
    | (with_reducible apply only_step (lockLoss_only ..); decide) | (with_reducible apply only_step (openLine_only ..); decide)
    | (with_reducible apply only_step (reachLines_only ..); decide)
    | (with_reducible apply only_step (stopAtEntry_only ..); decide) | with_reducible apply only_ite | extract_lets | split)

theorem emitPacket_only (h : Head) (y : Nat) (p : Nat) (line : Rat × Bool) (done : Nat) (data : List Byte) (s : State) : Only
    [.links, .out] (emitPacket h y p line done data s) s := by
  unfold emitPacket
  try dsimp only
  repeat' (first
    | with_reducible apply only_refl | (with_reducible apply only_step (emitBlock_only ..); decide) | split)

theorem emitTable_only (h : Head) (t : Nat) (s : State) : Only [.links, .out] (emitTable h t s) s := by
  unfold emitTable
  try dsimp only
  repeat' (first
    | with_reducible apply only_refl | (with_reducible apply only_step (emitBlock_only ..); decide) | split)

theorem packetFlight_only (h : Head) (y : Nat) (p : Nat) (data : List Byte) (s : State) : Only [.rasters] (packetFlight h y p
    data s) s := by
  unfold packetFlight
  try dsimp only
  repeat' (first
    | with_reducible apply only_refl | (with_reducible apply only_step (only_onRaster ..); decide) | split)

theorem packetResend_only (h : Head) (f : Flight) (line : Rat × Bool) (done : Nat) (s : State) : Only [.links, .rasters, .out]
    (packetResend h f line done s) s := by
  unfold packetResend
  try extract_lets
  repeat' (first
    | with_reducible apply only_refl | (with_reducible apply only_step (only_onLink ..); decide)
    | (with_reducible apply only_step (only_onRaster ..); decide) | (with_reducible apply only_step (emitPacket_only ..); decide)
    | (with_reducible apply only_step (emitTable_only ..); decide) | with_reducible apply only_ite | extract_lets | split)

theorem tableSend_only (h : Head) (lane : Fin 8) (done : Nat) (s : State) : Only [.links, .rasters, .out] (tableSend h lane
    done s) s := by
  unfold tableSend
  try dsimp only
  repeat' (first
    | with_reducible apply only_refl | (with_reducible apply only_step (only_onRaster ..); decide)
    | (with_reducible apply only_step (emitTable_only ..); decide)
    | (with_reducible apply only_step (packetFlight_only ..); decide)
    | (with_reducible apply only_step (sendIdle_only ..); decide) | split)

theorem lineSend_only (h : Head) (lane : Fin 8) (at_ : Nat) (late : Bool) (s : State) : Only [.heads, .links, .rasters, .chans,
    .safety, .cxl, .ev, .out] (lineSend h lane at_ late s) s := by
  unfold lineSend
  try dsimp only
  repeat' (first
    | with_reducible apply only_refl | (with_reducible apply only_step (only_onRaster ..); decide)
    | (with_reducible apply only_step (askIo_only ..); decide) | (with_reducible apply only_step (emitPacket_only ..); decide)
    | (with_reducible apply only_step (noteDark_only ..); decide)
    | (with_reducible apply only_step (packetFlight_only ..); decide)
    | (with_reducible apply only_step (sendIdle_only ..); decide) | split)

theorem packetSend_only (h : Head) (lane : Fin 8) (at_ : Nat) (late : Bool) (s : State) : Only [.heads, .links, .rasters,
    .chans, .safety, .cxl, .ev, .out] (packetSend h lane at_ late s) s := by
  unfold packetSend
  try extract_lets
  repeat' (first
    | with_reducible apply only_refl | (with_reducible apply only_step (lineSend_only ..); decide)
    | (with_reducible apply only_step (packetResend_only ..); decide)
    | (with_reducible apply only_step (sendIdle_only ..); decide) | (with_reducible apply only_step (tableSend_only ..); decide)
    | with_reducible apply only_ite | extract_lets | split)

theorem transOver_only (tick : Nat) (s : State) : Only [.clk] (transOver tick s) s := by
  unfold transOver
  try dsimp only
  repeat' (first
    | with_reducible apply only_refl | (with_reducible apply only_step (only_onClk ..); decide) | split)

theorem transStart_only (tick : Nat) (s : State) : Only [.clk] (transStart tick s) s := by
  unfold transStart
  try dsimp only
  repeat' (first
    | with_reducible apply only_refl | (with_reducible apply only_step (only_onClk ..); decide) | split)

theorem stepTargets_only (h : Head) (granted : Bool) (s : State) : Only [.heads] (stepTargets h granted s) s := by
  unfold stepTargets
  try dsimp only
  repeat' (first
    | with_reducible apply only_refl | (with_reducible apply only_step (only_onHead ..); decide) | split)

theorem tempMove_only (f : Rat) (ns : List Chan) (s : State) : Only [.chans] (tempMove f ns s) s := by
  unfold tempMove
  try dsimp only
  repeat' (first
    | with_reducible apply only_refl | (with_reducible apply only_step (only_onChan ..); decide)
    | (with_reducible apply only_step (only_forEach _ _ (fun _ _ => only_onChan ..) _); decide)
    | with_reducible apply only_forEach_step | intro x s | split)

theorem moveTemps_only (lam : Rat) (bs : List Basis) (ns : List Chan) (s : State) : Only [.chans] (moveTemps lam bs ns s) s := by
  unfold moveTemps
  try dsimp only
  repeat' (first
    | with_reducible apply only_refl | (with_reducible apply only_step (tempMove_only ..); decide) | split)

theorem stepTemps_only (h : Head) (k : Colour) (lam : Rat) (held : Bool) (bs : List Basis) (s : State) : Only [.chans]
    (stepTemps h k lam held bs s) s := by
  unfold stepTemps
  try dsimp only
  repeat' (first
    | with_reducible apply only_refl | (with_reducible apply only_step (moveTemps_only ..); decide)
    | (with_reducible apply only_step (only_forEach _ _ (fun _ _ => moveTemps_only ..) _); decide)
    | with_reducible apply only_forEach_step | intro x s | split)

theorem stepTheta_only (lam : Rat) (held : Bool) (b : Basis) (s : State) : Only [.chans] (stepTheta lam held b s) s := by
  unfold stepTheta
  try dsimp only
  repeat' (first
    | with_reducible apply only_refl | (with_reducible apply only_step (only_onChan ..); decide) | split)

theorem stepKappa_only (h : Head) (k : Colour) (lam : Rat) (held : Bool) (bs : List Basis) (s : State) : Only [.loops]
    (stepKappa h k lam held bs s) s := by
  unfold stepKappa
  try dsimp only
  repeat' (first
    | with_reducible apply only_refl | (with_reducible apply only_step (only_onLoop ..); decide) | split)

theorem stepColour_only (h : Head) (held : Bool) (k : Colour) (s : State) : Only [.chans, .loops] (stepColour h held k s) s := by
  unfold stepColour
  try extract_lets
  repeat' (first
    | with_reducible apply only_refl | (with_reducible apply only_step (only_onChan ..); decide)
    | (with_reducible apply only_step (only_onLoop ..); decide) | (with_reducible apply only_step (stepKappa_only ..); decide)
    | (with_reducible apply only_step (stepTemps_only ..); decide) | (with_reducible apply only_step (stepTheta_only ..); decide)
    | (with_reducible apply only_step (only_forEach _ _ (fun _ _ => only_onChan ..) _); decide)
    | (with_reducible apply only_step (only_forEach _ _ (fun _ _ => only_onLoop ..) _); decide)
    | (with_reducible apply only_step (only_forEach _ _ (fun _ _ => stepKappa_only ..) _); decide)
    | (with_reducible apply only_step (only_forEach _ _ (fun _ _ => stepTemps_only ..) _); decide)
    | (with_reducible apply only_step (only_forEach _ _ (fun _ _ => stepTheta_only ..) _); decide)
    | with_reducible apply only_forEach_step | intro x s | with_reducible apply only_ite | extract_lets | split)

theorem setRef_only (n : Chan) (s : State) : Only [.chans] (setRef n s) s := by
  unfold setRef
  try dsimp only
  repeat' (first
    | with_reducible apply only_refl | (with_reducible apply only_step (only_onChan ..); decide) | split)

end Sys2Proof.Machine
end

