-- ==== Sys2Proof/Laws/FramesSystem.lean ====
section
/-! SUPPORT. The parts of the state that applying, safety, heat, the chain, updates and the boot can change: one lemma per operation. -/

namespace Sys2Proof.Machine

set_option linter.all false

theorem only_foldRun {α : Type} {f : List Part} (g : Run → α → Run) (h : ∀ r x, Only f (g r x).s r.s) (l : List α) (r : Run) :
    Only f (l.foldl g r).s r.s := by
  induction l generalizing r with
  | nil => exact only_refl _ _
  | cons a l ih => exact ⟨fun y hy => same_trans ((ih (g r a)).same y hy) ((h r a).same y hy)⟩

theorem applyOneWrite_only (r : Run) (w : CfgWrite) : Only [.cfg] (applyOneWrite r w).s r.s := by
  unfold applyOneWrite
  exact only_ite _ (only_onCfg ..) (only_refl _ _)

theorem applyMany_only (ws : List CfgWrite) (r : Run) : Only [.cfg] (applyMany ws r).s r.s := by
  unfold applyMany
  exact only_foldRun _ (fun r w => applyOneWrite_only r w) _ r

theorem addRelease_only (x : Release) (s : State) : Only [.com] (addRelease x s) s := by
  unfold addRelease
  try dsimp only
  repeat' (first
    | with_reducible apply only_refl | (with_reducible apply only_step (only_onCom ..); decide) | split)

theorem releaseNamed_only (due : Nat) (reason : Nat) (k : Layer) (r : Record) (s : State) : Only [.com] (releaseNamed due
    reason k r s) s := by
  unfold releaseNamed
  try dsimp only
  repeat' (first
    | with_reducible apply only_refl | (with_reducible apply only_step (addRelease_only ..); decide) | split)

theorem releaseLive_only (due : Nat) (reason : Nat) (k : Layer) (base0 : Nat) (b : Buffer) (s : State) : Only [.com]
    (releaseLive due reason k base0 b s) s := by
  unfold releaseLive
  try dsimp only
  repeat' (first
    | with_reducible apply only_refl | (with_reducible apply only_step (addRelease_only ..); decide) | split)

theorem supersede_only (i : Nat) (k : Layer) (s : State) : Only [.com] (supersede i k s) s := by
  unfold supersede
  try dsimp only
  repeat' (first
    | with_reducible apply only_refl | (with_reducible apply only_step (only_onCom ..); decide)
    | (with_reducible apply only_step (releaseNamed_only ..); decide)
    | (with_reducible apply only_step (only_forEach _ _ (fun _ _ => only_onCom ..) _); decide)
    | (with_reducible apply only_step (only_forEach _ _ (fun _ _ => releaseNamed_only ..) _); decide)
    | with_reducible apply only_forEach_step | intro x s | split)

theorem applyPart_only (i : Nat) (r : Record) (k : Layer) (x : Run) : Only [.cfg, .com] (applyPart i r k x).s x.s := by
  unfold applyPart
  extract_lets ws old b y new off moved s1 back s2
  refine only_step (supersede_only ..) (by decide) (only_step (only_onCom ..) (by decide) (only_step (only_onCfg ..) (by decide) ?_))
  have hy : Only [.cfg, .com] y.s x.s := only_mono (applyMany_only ..) (by decide)
  exact only_ite _ (only_step (releaseLive_only ..) (by decide) hy) hy

theorem applyParts_only (i : Nat) (ks : List Layer) (r : Record) (x : Run) : Only [.cfg, .com] (applyParts i ks r x).s x.s := by
  unfold applyParts
  exact only_foldRun _ (fun x k => applyPart_only i r k x) _ x

theorem sweepRecords_only (s : State) : Only [.com] (sweepRecords s) s := by
  unfold sweepRecords
  try dsimp only
  repeat' (first
    | with_reducible apply only_refl | (with_reducible apply only_step (only_onCom ..); decide) | split)

theorem onRecordAt_only (i : Nat) (f : Record → Record) (s : State) : Only [.com] (onRecordAt i f s) s := by
  unfold onRecordAt
  try dsimp only
  repeat' (first
    | with_reducible apply only_refl | (with_reducible apply only_step (only_onCom ..); decide) | split)

theorem applyReady_only (i : Nat) (x : Run) : Only [.cfg, .com] (applyReady i x).s x.s := by
  unfold applyReady
  split
  · rename_i r _
    split
    · exact only_refl _ _
    · extract_lets ks ready rest s1 y
      split
      · exact only_refl _ _
      · split
        · have h1 : Only [.cfg, .com] s1 x.s := only_mono (onRecordAt_only ..) (by decide)
          exact only_step (applyParts_only i ready r (Run.mk s1 x.ws)) (by decide) h1
        · exact only_refl _ _
  · exact only_refl _ _

theorem countDeferrals_only (s : State) : Only [.com] (countDeferrals s) s := by
  unfold countDeferrals
  try dsimp only
  repeat' (first
    | with_reducible apply only_refl | (with_reducible apply only_step (only_onCom ..); decide) | split)

theorem applyRecord_only (i : Nat) (x : Run) : Only [.cfg, .com] (applyRecord i x).s x.s := by
  unfold applyRecord
  split
  · rename_i r _
    split
    · exact only_refl _ _
    · extract_lets ks x1 late y z s1
      have h1 : Only [.cfg, .com] x1.s x.s :=
        only_step (applyMany_only (commonWrites r) (Run.mk (onRecordAt i (fun r => { r with applied := true }) x.s) x.ws)) (by decide)
          (only_mono (onRecordAt_only i (fun r => { r with applied := true }) x.s) (by decide))
      have hy : Only [.cfg, .com] y.s x.s := only_step (applyParts_only ..) (by decide) h1
      have hz : Only [.cfg, .com] z.1.s x.s := by
        have e : z = if late.isEmpty then (y, []) else if stateFits y.s then (y, late) else (x1, ks) := rfl
        rw [e]
        split
        · exact hy
        · split
          · exact hy
          · exact h1
      exact only_step (only_forEach _ _ (fun _ _ => later_only ..) _) (by decide) (only_step (onRecordAt_only ..) (by decide) hz)
  · exact only_refl _ _

theorem dropLayer_only (k : Layer) (tag : BitVec 32) (s : State) : Only [.cfg, .com] (dropLayer k tag s) s := by
  unfold dropLayer
  try dsimp only
  repeat' (first
    | with_reducible apply only_refl | (with_reducible apply only_step (only_onCfg ..); decide)
    | (with_reducible apply only_step (only_onCom ..); decide) | (with_reducible apply only_step (later_only ..); decide)
    | (with_reducible apply only_step (releaseLive_only ..); decide) | split)

theorem dropIfDue_only (k : Layer) (s : State) : Only [.cfg, .com] (dropIfDue k s) s := by
  unfold dropIfDue
  try dsimp only
  repeat' (first
    | with_reducible apply only_refl | (with_reducible apply only_step (dropLayer_only ..); decide) | split)

theorem abandon_only (r : Record) (s : State) : Only [.com] (abandon r s) s := by
  unfold abandon
  try dsimp only
  repeat' (first
    | with_reducible apply only_refl | (with_reducible apply only_step (later_only ..); decide)
    | (with_reducible apply only_step (releaseNamed_only ..); decide)
    | (with_reducible apply only_step (only_forEach _ _ (fun _ _ => later_only ..) _); decide)
    | (with_reducible apply only_step (only_forEach _ _ (fun _ _ => releaseNamed_only ..) _); decide)
    | with_reducible apply only_forEach_step | intro x s | split)

theorem abandonDue_only (s : State) : Only [.com] (abandonDue s) s := by
  unfold abandonDue
  try dsimp only
  repeat' (first
    | with_reducible apply only_refl | (with_reducible apply only_step (only_onCom ..); decide)
    | (with_reducible apply only_step (abandon_only ..); decide) | (with_reducible apply only_step (trimLines_only ..); decide)
    | (with_reducible apply only_step (only_forEach _ _ (fun _ _ => only_onCom ..) _); decide)
    | (with_reducible apply only_step (only_forEach _ _ (fun _ _ => abandon_only ..) _); decide)
    | (with_reducible apply only_step (only_forEach _ _ (fun _ _ => trimLines_only ..) _); decide)
    | with_reducible apply only_forEach_step | intro x s | split)

theorem fireReleases_only (s : State) : Only [.com] (fireReleases s) s := by
  unfold fireReleases
  try dsimp only
  repeat' (first
    | with_reducible apply only_refl | (with_reducible apply only_step (only_onCom ..); decide) | split)

theorem applyAll_only (lv : List CfgWrite) (s : State) : Only [.cfg, .com] (applyAll lv s).s s := by
  unfold applyAll
  extract_lets news idx x1 x2 x3 s4 s5
  have h1 : Only [.cfg, .com] x1.s s := only_mono (applyMany_only lv (Run.mk s [])) (by decide)
  have h2 : Only [.cfg, .com] x2.s s := only_step (only_foldRun _ (fun x i => applyReady_only i x) idx x1) (by decide) h1
  have h3 : Only [.cfg, .com] x3.s s :=
    only_step (only_foldRun _ (fun x i => applyRecord_only i x) idx (Run.mk (countDeferrals x2.s) x2.ws)) (by decide)
      (only_step (countDeferrals_only ..) (by decide) h2)
  exact only_step (fireReleases_only ..) (by decide) (only_step (only_onCom ..) (by decide) (only_step (trimLines_only ..) (by decide)
    (only_step (sweepRecords_only ..) (by decide) (only_step (abandonDue_only ..) (by decide)
      (only_step (only_forEach _ _ (fun _ _ => dropIfDue_only ..) _) (by decide) h3)))))

theorem orderLatch_only (s : State) : Only [.com] (orderLatch s) s := by
  unfold orderLatch
  try dsimp only
  repeat' (first
    | with_reducible apply only_refl | (with_reducible apply only_step (only_onCom ..); decide) | split)

theorem tableEvent_only (dark : Bool) (p : CfgWrite × Bool) (s : State) : Only [.com] (tableEvent dark p s) s := by
  unfold tableEvent
  try dsimp only
  repeat' (first
    | with_reducible apply only_refl | (with_reducible apply only_step (later_only ..); decide) | split)

theorem coreDown_only (core : Fin 3) (cause : Nat) (s : State) : Only [.boot] (coreDown core cause s) s := by
  unfold coreDown
  try dsimp only
  repeat' (first
    | with_reducible apply only_refl | (with_reducible apply only_step (only_onBoot ..); decide) | split)

theorem redeliver_only (q : Fin 4) (s : State) : Only [.cxl, .queues, .out] (redeliver q s) s := by
  unfold redeliver
  try dsimp only
  repeat' (first
    | with_reducible apply only_refl | (with_reducible apply only_step (only_onCxl ..); decide)
    | (with_reducible apply only_step (only_onQueue ..); decide) | (with_reducible apply only_step (pumpCq_only ..); decide)
    | rw [id_eq] | split)

theorem coreUp_only (core : Fin 3) (s : State) : Only [.clk, .cfg, .pendLv, .openSet, .com, .chans, .sluice, .safety, .cxl,
    .queues, .ev, .boot, .cal, .flash, .upd, .cw, .bar2, .out] (coreUp core s) s := by
  unfold coreUp
  try extract_lets
  repeat' (first
    | with_reducible apply only_refl | (with_reducible apply only_step (only_onSafety ..); decide)
    | (with_reducible apply only_step (only_onBoot ..); decide) | (with_reducible apply only_step (drainAll_only ..); decide)
    | (with_reducible apply only_step (raise_only ..); decide) | (with_reducible apply only_step (redeliver_only ..); decide)
    | (with_reducible apply only_step (only_forEach _ _ (fun _ _ => only_onSafety ..) _); decide)
    | (with_reducible apply only_step (only_forEach _ _ (fun _ _ => only_onBoot ..) _); decide)
    | (with_reducible apply only_step (only_forEach _ _ (fun _ _ => drainAll_only ..) _); decide)
    | (with_reducible apply only_step (only_forEach _ _ (fun _ _ => raise_only ..) _); decide)
    | (with_reducible apply only_step (only_forEach _ _ (fun _ _ => redeliver_only ..) _); decide)
    | with_reducible apply only_forEach_step | intro x s | with_reducible apply only_ite | extract_lets | split)

theorem cutAll_only (s : State) : Only [.chans, .safety] (cutAll s) s := by
  unfold cutAll
  try extract_lets
  repeat' (first
    | with_reducible apply only_refl | (with_reducible apply only_step (only_onSafety ..); decide)
    | (with_reducible apply only_step (divert_only ..); decide) | with_reducible apply only_ite | extract_lets | split)

theorem pairFault_only (m : Nat) (s : State) : Only [.chans, .safety, .cxl, .ev, .boot, .out] (pairFault m s) s := by
  unfold pairFault
  try extract_lets
  repeat' (first
    | with_reducible apply only_refl | (with_reducible apply only_step (coreDown_only ..); decide)
    | (with_reducible apply only_step (cutAll_only ..); decide) | (with_reducible apply only_step (safetyFault_only ..); decide)
    | with_reducible apply only_ite | extract_lets | split)

theorem monitorFault_only (i : Nat) (m : Nat) (s : State) : Only [.chans, .safety, .cxl, .ev, .out] (monitorFault i m s) s := by
  unfold monitorFault
  try extract_lets
  repeat' (first
    | with_reducible apply only_refl | (with_reducible apply only_step (only_onSafety ..); decide)
    | (with_reducible apply only_step (cutAll_only ..); decide) | (with_reducible apply only_step (safetyFault_only ..); decide)
    | with_reducible apply only_ite | extract_lets | split)

theorem monitorClears_only (i : Nat) (s : State) : Only [.safety] (monitorClears i s) s := by
  unfold monitorClears
  try dsimp only
  repeat' (first
    | with_reducible apply only_refl | (with_reducible apply only_step (only_onSafety ..); decide) | split)

theorem eccCorrected_only (r : Fin 11) (s : State) : Only [.chans, .safety, .cxl, .ev, .out] (eccCorrected r s) s := by
  unfold eccCorrected
  try dsimp only
  repeat' (first
    | with_reducible apply only_refl | (with_reducible apply only_step (only_onSafety ..); decide)
    | (with_reducible apply only_step (raise_only ..); decide) | split)

theorem bufferBlock_only (g : Head) (plane : Nat) (block : Nat) (s : State) : Only [.heads, .links, .rasters, .chans, .safety,
    .cxl, .ev, .out] (bufferBlock g plane block s) s := by
  unfold bufferBlock
  try dsimp only
  repeat' (first
    | with_reducible apply only_refl | (with_reducible apply only_step (askIo_only ..); decide)
    | (with_reducible apply only_step (onFlights_only ..); decide) | (with_reducible apply only_step (refused_only ..); decide)
    | split)

theorem eccFatal_only (r : Fin 11) (heads : BitVec 4) (core : Bool) (plane : Nat) (block : Nat) (s : State) : Only [.clk,
    .heads, .links, .rasters, .chans, .safety, .cxl, .ev, .boot, .planes, .out, .free] (eccFatal r heads core plane block s) s
    := by
  unfold eccFatal
  try dsimp only
  repeat' (first
    | with_reducible apply only_refl | (with_reducible apply only_step (bufferBlock_only ..); decide)
    | (with_reducible apply only_step (coreDown_only ..); decide) | (with_reducible apply only_step (cutBuild_only ..); decide)
    | (with_reducible apply only_step (noteBuilt_only ..); decide)
    | (with_reducible apply only_step (safetyFault_only ..); decide)
    | (with_reducible apply only_step (only_forEach _ _ (fun _ _ => bufferBlock_only ..) _); decide)
    | (with_reducible apply only_step (only_forEach _ _ (fun _ _ => coreDown_only ..) _); decide)
    | (with_reducible apply only_step (only_forEach _ _ (fun _ _ => cutBuild_only ..) _); decide)
    | (with_reducible apply only_step (only_forEach _ _ (fun _ _ => noteBuilt_only ..) _); decide)
    | (with_reducible apply only_step (only_forEach _ _ (fun _ _ => safetyFault_only ..) _); decide)
    | with_reducible apply only_forEach_step | intro x s | split)

theorem eccFound_only (r : Fin 11) (uncorrectable : Bool) (heads : BitVec 4) (core : Bool) (plane : Nat) (block : Nat) (s :
    State) : Only [.clk, .heads, .links, .rasters, .chans, .safety, .cxl, .ev, .boot, .planes, .out, .free] (eccFound r uncorrectable heads core plane block s) s := by
  unfold eccFound
  try dsimp only
  repeat' (first
    | with_reducible apply only_refl | (with_reducible apply only_step (eccCorrected_only ..); decide)
    | (with_reducible apply only_step (eccFatal_only ..); decide) | split)

theorem q2Expires_only (s : State) : Only [.chans, .safety, .cxl, .ev, .out] (q2Expires s) s := by
  unfold q2Expires
  try dsimp only
  repeat' (first
    | with_reducible apply only_refl | (with_reducible apply only_step (only_onSafety ..); decide)
    | (with_reducible apply only_step (raise_only ..); decide) | split)

theorem reloadDone_only (passed : Bool) (a : RawAsset) (s : State) : Only [.chans, .safety, .cxl, .ev, .out] (reloadDone passed
    a s) s := by
  unfold reloadDone
  try dsimp only
  repeat' (first
    | with_reducible apply only_refl | (with_reducible apply only_step (only_onSafety ..); decide)
    | (with_reducible apply only_step (safetyFault_only ..); decide)
    | (with_reducible apply only_step (stageLayouts_only ..); decide) | split)

theorem onSensor_only (i : Fin 36) (f : Sensor → Sensor) (s : State) : Only [.therm] (onSensor i f s) s := by
  unfold onSensor
  try dsimp only
  repeat' (first
    | with_reducible apply only_refl | (with_reducible apply only_step (only_onTherm ..); decide) | split)

theorem takeReading_only (i : Fin 36) (v : Option Rat) (s : State) : Only [.therm] (takeReading i v s) s := by
  unfold takeReading
  try dsimp only
  repeat' (first
    | with_reducible apply only_refl | (with_reducible apply only_step (onSensor_only ..); decide) | split)

theorem takeAt_only (s : State) : Only [.therm] (takeAt s) s := by
  unfold takeAt
  try extract_lets
  repeat' (first
    | with_reducible apply only_refl | (with_reducible apply only_step (takeReading_only ..); decide)
    | (with_reducible apply only_step (only_forEach _ _ (fun _ _ => takeReading_only ..) _); decide)
    | with_reducible apply only_forEach_step | intro x s | with_reducible apply only_ite | extract_lets | split)

theorem takeReadings_only (r : List (Fin 36 × Reading)) (s : State) : Only [.therm] (takeReadings r s) s := by
  unfold takeReadings
  try extract_lets
  repeat' (first
    | with_reducible apply only_refl | (with_reducible apply only_step (takeAt_only ..); decide)
    | (with_reducible apply only_step (takeReading_only ..); decide)
    | (with_reducible apply only_step (only_forEach _ _ (fun _ _ => takeAt_only ..) _); decide)
    | (with_reducible apply only_step (only_forEach _ _ (fun _ _ => takeReading_only ..) _); decide)
    | with_reducible apply only_forEach_step | intro x s | with_reducible apply only_ite | extract_lets | split)

theorem takeHistory_only (i : Fin 36) (s : State) : Only [.therm] (takeHistory i s) s := by
  unfold takeHistory
  try dsimp only
  repeat' (first
    | with_reducible apply only_refl | (with_reducible apply only_step (onSensor_only ..); decide) | split)

theorem countTests_only (i : Fin 36) (s : State) : Only [.therm] (countTests i s) s := by
  unfold countTests
  try dsimp only
  repeat' (first
    | with_reducible apply only_refl | (with_reducible apply only_step (onSensor_only ..); decide) | split)

theorem carry_only (i : Fin 36) (s : State) : Only [.therm] (carry i s) s := by
  unfold carry
  try dsimp only
  repeat' (first
    | with_reducible apply only_refl | (with_reducible apply only_step (onSensor_only ..); decide) | split)

theorem failSensor_only (i : Fin 36) (cause : Nat) (s : State) : Only [.chans, .therm, .safety, .cxl, .ev, .out] (failSensor i
    cause s) s := by
  unfold failSensor
  try dsimp only
  repeat' (first
    | with_reducible apply only_refl | (with_reducible apply only_step (carry_only ..); decide)
    | (with_reducible apply only_step (onGroup_only ..); decide) | (with_reducible apply only_step (onSensor_only ..); decide)
    | (with_reducible apply only_step (raise_only ..); decide) | (with_reducible apply only_step (restartWindow_only ..); decide)
    | split)

theorem judgeBlind_only (fails : List (Fin 36)) (g : Fin 2) (s : State) : Only [.chans, .therm, .safety, .cxl, .ev, .out]
    (judgeBlind fails g s) s := by
  unfold judgeBlind
  try dsimp only
  repeat' (first
    | with_reducible apply only_refl | (with_reducible apply only_step (onGroup_only ..); decide)
    | (with_reducible apply only_step (raise_only ..); decide) | split)

theorem updateGroup_only (g : Fin 2) (s : State) : Only [.therm] (updateGroup g s) s := by
  unfold updateGroup
  try dsimp only
  repeat' (first
    | with_reducible apply only_refl | (with_reducible apply only_step (onGroup_only ..); decide) | split)

theorem warnGroup_only (g : Fin 2) (s : State) : Only [.chans, .therm, .safety, .cxl, .ev, .out] (warnGroup g s) s := by
  unfold warnGroup
  try dsimp only
  repeat' (first
    | with_reducible apply only_refl | (with_reducible apply only_step (onGroup_only ..); decide)
    | (with_reducible apply only_step (raise_only ..); decide) | split)

theorem countThrottle_only (s : State) : Only [.therm] (countThrottle s) s := by
  unfold countThrottle
  try dsimp only
  repeat' (first
    | with_reducible apply only_refl | (with_reducible apply only_step (only_onTherm ..); decide)
    | (with_reducible apply only_step (onGroup_only ..); decide)
    | (with_reducible apply only_step (only_forEach _ _ (fun _ _ => only_onTherm ..) _); decide)
    | (with_reducible apply only_step (only_forEach _ _ (fun _ _ => onGroup_only ..) _); decide)
    | with_reducible apply only_forEach_step | intro x s | split)

theorem tripGroup_only (g : Fin 2) (s : State) : Only [.chans, .therm, .safety, .cxl, .ev, .out] (tripGroup g s) s := by
  unfold tripGroup
  try dsimp only
  repeat' (first
    | with_reducible apply only_refl | (with_reducible apply only_step (onGroup_only ..); decide)
    | (with_reducible apply only_step (tripFault_only ..); decide) | split)

theorem sampleAll_only (r : List (Fin 36 × Reading)) (s : State) : Only [.chans, .therm, .safety, .cxl, .ev, .out] (sampleAll r
    s) s := by
  unfold sampleAll
  try extract_lets
  repeat' (first
    | with_reducible apply only_refl | (with_reducible apply only_step (carry_only ..); decide)
    | (with_reducible apply only_step (countTests_only ..); decide)
    | (with_reducible apply only_step (countThrottle_only ..); decide)
    | (with_reducible apply only_step (failSensor_only ..); decide)
    | (with_reducible apply only_step (judgeBlind_only ..); decide)
    | (with_reducible apply only_step (takeHistory_only ..); decide)
    | (with_reducible apply only_step (takeReadings_only ..); decide)
    | (with_reducible apply only_step (tripGroup_only ..); decide)
    | (with_reducible apply only_step (updateGroup_only ..); decide)
    | (with_reducible apply only_step (warnGroup_only ..); decide)
    | (with_reducible apply only_step (only_forEach _ _ (fun _ _ => carry_only ..) _); decide)
    | (with_reducible apply only_step (only_forEach _ _ (fun _ _ => countTests_only ..) _); decide)
    | (with_reducible apply only_step (only_forEach _ _ (fun _ _ => countThrottle_only ..) _); decide)
    | (with_reducible apply only_step (only_forEach _ _ (fun _ _ => failSensor_only ..) _); decide)
    | (with_reducible apply only_step (only_forEach _ _ (fun _ _ => judgeBlind_only ..) _); decide)
    | (with_reducible apply only_step (only_forEach _ _ (fun _ _ => takeHistory_only ..) _); decide)
    | (with_reducible apply only_step (only_forEach _ _ (fun _ _ => takeReadings_only ..) _); decide)
    | (with_reducible apply only_step (only_forEach _ _ (fun _ _ => tripGroup_only ..) _); decide)
    | (with_reducible apply only_step (only_forEach _ _ (fun _ _ => updateGroup_only ..) _); decide)
    | (with_reducible apply only_step (only_forEach _ _ (fun _ _ => warnGroup_only ..) _); decide)
    | with_reducible apply only_forEach_step | intro x s | with_reducible apply only_ite | extract_lets | split)

theorem stepIsDue_only (up : Bool) (g : Fin 2) (s : State) : Only [.therm] (stepIsDue up g s) s := by
  unfold stepIsDue
  try dsimp only
  repeat' (first
    | with_reducible apply only_refl | (with_reducible apply only_step (only_onTherm ..); decide) | split)

theorem holdEnds_only (i : Fin 36) (s : State) : Only [.therm] (holdEnds i s) s := by
  unfold holdEnds
  try dsimp only
  repeat' (first
    | with_reducible apply only_refl | (with_reducible apply only_step (carry_only ..); decide)
    | (with_reducible apply only_step (onSensor_only ..); decide)
    | (with_reducible apply only_step (restartWindow_only ..); decide) | split)

theorem freezeLifts_only (s : State) : Only [.therm] (freezeLifts s) s := by
  unfold freezeLifts
  try dsimp only
  repeat' (first
    | with_reducible apply only_refl | (with_reducible apply only_step (only_onTherm ..); decide)
    | (with_reducible apply only_step (onGroup_only ..); decide)
    | (with_reducible apply only_step (only_forEach _ _ (fun _ _ => only_onTherm ..) _); decide)
    | (with_reducible apply only_step (only_forEach _ _ (fun _ _ => onGroup_only ..) _); decide)
    | with_reducible apply only_forEach_step | intro x s | split)

theorem sensorReturns_only (i : Fin 36) (s : State) : Only [.chans, .therm, .safety, .cxl, .ev, .out] (sensorReturns i s) s := by
  unfold sensorReturns
  try dsimp only
  repeat' (first
    | with_reducible apply only_refl | (with_reducible apply only_step (onGroup_only ..); decide)
    | (with_reducible apply only_step (onSensor_only ..); decide) | (with_reducible apply only_step (raise_only ..); decide)
    | (with_reducible apply only_step (restartWindow_only ..); decide) | split)

theorem tripReleases_only (g : Fin 2) (s : State) : Only [.therm] (tripReleases g s) s := by
  unfold tripReleases
  try dsimp only
  repeat' (first
    | with_reducible apply only_refl | (with_reducible apply only_step (onGroup_only ..); decide) | split)

theorem sendBoundary_only (copy : Nat) (tick : Nat) (at250 : Nat) (tmin : Nat) (len : Nat) (s : State) : Only [.out]
    (sendBoundary copy tick at250 tmin len s) s := by
  unfold sendBoundary
  try dsimp only
  repeat' (first
    | with_reducible apply only_refl | (with_reducible apply only_step (cwEmit_only ..); decide) | split)

theorem chainCut_only (b : Nat) (s : State) : Only [.cw, .out] (chainCut b s) s := by
  unfold chainCut
  try dsimp only
  repeat' (first
    | with_reducible apply only_refl | (with_reducible apply only_step (only_onCw ..); decide)
    | (with_reducible apply only_step (sendBoundary_only ..); decide)
    | (with_reducible apply only_step (sendMode_only ..); decide) | split)

theorem cutOff_only (cut : Nat) (b : Nat) (reason : Reason) (s : State) : Only [.clk, .com, .heads, .chans, .safety, .cxl, .ev,
    .planes, .out, .free] (cutOff cut b reason s) s := by
  unfold cutOff
  try extract_lets
  repeat' (first
    | with_reducible apply only_refl | (with_reducible apply only_step (only_onClk ..); decide)
    | (with_reducible apply only_step (only_onCom ..); decide) | (with_reducible apply only_step (cutBuild_only ..); decide)
    | (with_reducible apply only_step (enterPhases_only ..); decide) | (with_reducible apply only_step (raise_only ..); decide)
    | (with_reducible apply only_step (reach_only ..); decide)
    | (with_reducible apply only_step (only_forEach _ _ (fun _ _ => only_onClk ..) _); decide)
    | (with_reducible apply only_step (only_forEach _ _ (fun _ _ => only_onCom ..) _); decide)
    | (with_reducible apply only_step (only_forEach _ _ (fun _ _ => cutBuild_only ..) _); decide)
    | (with_reducible apply only_step (only_forEach _ _ (fun _ _ => enterPhases_only ..) _); decide)
    | (with_reducible apply only_step (only_forEach _ _ (fun _ _ => raise_only ..) _); decide)
    | (with_reducible apply only_step (only_forEach _ _ (fun _ _ => reach_only ..) _); decide)
    | with_reducible apply only_forEach_step | intro x s | with_reducible apply only_ite | extract_lets | split)

theorem commitCutoff_only (s : State) : Only [.clk, .com, .heads, .chans, .safety, .cxl, .ev, .cw, .planes, .out, .free]
    (commitCutoff s) s := by
  unfold commitCutoff
  try extract_lets
  repeat' (first
    | with_reducible apply only_refl | (with_reducible apply only_step (chainCut_only ..); decide)
    | (with_reducible apply only_step (cutOff_only ..); decide) | with_reducible apply only_ite | extract_lets | split)

theorem receive_only {fs : List Part} {ptype : BitVec 8} {p : Packet} {f : State → State} {s : State}
    (hb : holdsAll fs [.cw] = true) (h : ∀ s, Only fs (f s) s) : Only fs (receive ptype p f s) s := by
  unfold receive
  split
  · exact only_refl _ _
  · split
    · exact only_refl _ _
    · split
      · exact only_mono (onPort_only ..) hb
      · exact h s

theorem relay_only (ptype : BitVec 8) (p : Packet) (s : State) : Only [.out] (relay ptype p s) s := by
  unfold relay
  try dsimp only
  repeat' (first
    | with_reducible apply only_refl | (with_reducible apply only_step (cwEmit_only ..); decide) | split)

theorem addressed_only {fs : List Part} {ptype : BitVec 8} {a : Port} {p : Packet} {f : State → State} {s : State}
    (hb : holdsAll fs [.cw, .out] = true) (h : ∀ s, Only fs (f s) s) : Only fs (addressed ptype a p f s) s := by
  have hb' : holdsAll fs [.cw] = true ∧ holdsAll fs [.out] = true := by
    simpa [holdsAll] using hb
  unfold addressed
  split
  · exact only_refl _ _
  · refine receive_only hb'.1 fun s => ?_
    have hr : Only fs (if p.bcast || !forMe p s then relay ptype p s else s) s :=
      only_ite _ (only_mono (relay_only ..) hb'.2) (only_refl _ _)
    dsimp only
    generalize (if p.bcast || !forMe p s then relay ptype p s else s) = u at hr
    exact only_ite _ ⟨fun x hx => same_trans ((h u).same x hx) (hr.same x hx)⟩ hr

theorem nextHop_only {fs : List Part} {ptype : BitVec 8} {a : Port} {p : Packet} {f : State → State} {s : State}
    (hb : holdsAll fs [.cw] = true) (h : ∀ s, Only fs (f s) s) : Only fs (nextHop ptype a p f s) s := by
  unfold nextHop
  exact only_ite _ (only_refl _ _) (receive_only hb h)

theorem tellPort_only (p : Port) (cause : Nat) (s : State) : Only [.chans, .safety, .cxl, .ev, .out] (tellPort p cause s) s := by
  unfold tellPort
  try dsimp only
  repeat' (first
    | with_reducible apply only_refl | (with_reducible apply only_step (raise_only ..); decide) | split)

theorem sendEcho_only (p : Port) (s : State) : Only [.out] (sendEcho p s) s := by
  unfold sendEcho
  try dsimp only
  repeat' (first
    | with_reducible apply only_refl | (with_reducible apply only_step (cwEmit_only ..); decide) | split)

theorem measure_only (p : Port) (s : State) : Only [.cw, .out] (measure p s) s := by
  unfold measure
  try dsimp only
  repeat' (first
    | with_reducible apply only_refl | (with_reducible apply only_step (onPort_only ..); decide)
    | (with_reducible apply only_step (sendEcho_only ..); decide) | split)

theorem startPort_only (p : Port) (s : State) : Only [.cw, .out] (startPort p s) s := by
  unfold startPort
  try dsimp only
  repeat' (first
    | with_reducible apply only_refl | (with_reducible apply only_step (cwWords_only ..); decide)
    | (with_reducible apply only_step (measure_only ..); decide) | (with_reducible apply only_step (onPort_only ..); decide)
    | split)

theorem portAttemptFails_only (p : Port) (cause : Nat) (s : State) : Only [.chans, .safety, .cxl, .ev, .cw, .out]
    (portAttemptFails p cause s) s := by
  unfold portAttemptFails
  try dsimp only
  repeat' (first
    | with_reducible apply only_refl | (with_reducible apply only_step (onPort_only ..); decide)
    | (with_reducible apply only_step (tellPort_only ..); decide) | split)

theorem sendEnumReq_only (s : State) : Only [.out] (sendEnumReq s) s := by
  unfold sendEnumReq
  try dsimp only
  repeat' (first
    | with_reducible apply only_refl | (with_reducible apply only_step (cwSend_only ..); decide) | split)

theorem portRuns_only (p : Port) (delay : Nat) (s : State) : Only [.clk, .chans, .safety, .cxl, .queues, .ev, .cw, .out]
    (portRuns p delay s) s := by
  unfold portRuns
  try dsimp only
  repeat' (first
    | with_reducible apply only_refl | (with_reducible apply only_step (onPort_only ..); decide)
    | (with_reducible apply only_step (resendEvents_only ..); decide)
    | (with_reducible apply only_step (sendEnumReq_only ..); decide)
    | (with_reducible apply only_step (startEnum_only ..); decide) | (with_reducible apply only_step (tellPort_only ..); decide)
    | (with_reducible apply only_step (updateObs_only ..); decide) | split)

theorem hopFailed_only (first : Nat) (s : State) : Only [.chans, .safety, .cxl, .queues, .ev, .upd, .cw, .out] (hopFailed first
    s) s := by
  unfold hopFailed
  try dsimp only
  repeat' (first
    | with_reducible apply only_refl | (with_reducible apply only_step (only_onUpd ..); decide)
    | (with_reducible apply only_step (raise_only ..); decide) | (with_reducible apply only_step (tryChain_only ..); decide)
    | split)

theorem dropDown_only (s : State) : Only [.flash, .upd, .out] (dropDown s) s := by
  unfold dropDown
  try dsimp only
  repeat' (first
    | with_reducible apply only_refl | (with_reducible apply only_step (only_onUpd ..); decide)
    | (with_reducible apply only_step (freeTransit_only ..); decide) | split)

theorem portStops_only (p : Port) (s : State) : Only [.cw] (portStops p s) s := by
  unfold portStops
  try dsimp only
  repeat' (first
    | with_reducible apply only_refl | (with_reducible apply only_step (onPort_only ..); decide) | split)

theorem ownCommits_only (s : State) : Only [.clk] (ownCommits s) s := by
  unfold ownCommits
  try dsimp only
  repeat' (first
    | with_reducible apply only_refl | (with_reducible apply only_step (markValid_only ..); decide) | split)

theorem hopEnds_only (p : Port) (s : State) : Only [.clk, .chans, .safety, .cxl, .queues, .ev, .flash, .upd, .cw, .out]
    (hopEnds p s) s := by
  unfold hopEnds
  try dsimp only
  repeat' (first
    | with_reducible apply only_refl | (with_reducible apply only_step (only_onUpd ..); decide)
    | (with_reducible apply only_step (only_onCw ..); decide) | (with_reducible apply only_step (dropDown_only ..); decide)
    | (with_reducible apply only_step (failSend_only ..); decide) | (with_reducible apply only_step (hopFailed_only ..); decide)
    | (with_reducible apply only_step (ownCommits_only ..); decide) | (with_reducible apply only_step (sendResp_only ..); decide)
    | split)

theorem portFails_only (p : Port) (cause : Nat) (s : State) : Only [.clk, .chans, .safety, .cxl, .queues, .ev, .flash, .upd,
    .cw, .out] (portFails p cause s) s := by
  unfold portFails
  try dsimp only
  repeat' (first
    | with_reducible apply only_refl | (with_reducible apply only_step (hopEnds_only ..); decide)
    | (with_reducible apply only_step (portStops_only ..); decide) | (with_reducible apply only_step (tellPort_only ..); decide)
    | split)

theorem portLost_only (p : Port) (cause : Nat) (s : State) : Only [.clk, .cfg, .pendLv, .openSet, .com, .chans, .sluice,
    .safety, .cxl, .queues, .ev, .cal, .flash, .upd, .cw, .bar2, .out] (portLost p cause s) s := by
  unfold portLost
  try dsimp only
  repeat' (first
    | with_reducible apply only_refl | (with_reducible apply only_step (drainAll_only ..); decide)
    | (with_reducible apply only_step (portAttemptFails_only ..); decide)
    | (with_reducible apply only_step (portFails_only ..); decide) | split)

theorem echoed_only (p : Packet) (s : State) : Only [.cw, .out, .free] (echoed p s) s := by
  unfold echoed
  try dsimp only
  repeat' (first
    | with_reducible apply only_refl | (with_reducible apply only_step (cwEmit_only ..); decide)
    | (with_reducible apply only_step (drawFree_only ..); decide) | (with_reducible apply receive_only; decide) | intro s | split)

theorem echoAnswered_only (p : Packet) (roundTrip : Nat) (s : State) : Only [.clk, .cfg, .pendLv, .openSet, .com, .chans,
    .sluice, .safety, .cxl, .queues, .ev, .cal, .flash, .upd, .cw, .bar2, .out] (echoAnswered p roundTrip s) s := by
  unfold echoAnswered
  try dsimp only
  repeat' (first
    | with_reducible apply only_refl | (with_reducible apply only_step (drainAll_only ..); decide)
    | (with_reducible apply only_step (onPort_only ..); decide)
    | (with_reducible apply only_step (portAttemptFails_only ..); decide)
    | (with_reducible apply only_step (portRuns_only ..); decide) | (with_reducible apply only_step (sendEcho_only ..); decide)
    | (with_reducible apply receive_only; decide) | intro s | split)

theorem remeasure_only (p : Port) (s : State) : Only [.cw, .out] (remeasure p s) s := by
  unfold remeasure
  try dsimp only
  repeat' (first
    | with_reducible apply only_refl | (with_reducible apply only_step (measure_only ..); decide) | split)

theorem portRetry_only (p : Port) (s : State) : Only [.cw] (portRetry p s) s := by
  unfold portRetry
  try dsimp only
  repeat' (first
    | with_reducible apply only_refl | (with_reducible apply only_step (onPort_only ..); decide) | split)

theorem sendEnumEnd_only (count : Nat) (many : Bool) (aSeen : Bool) (s : State) : Only [.out] (sendEnumEnd count many aSeen s)
    s := by
  unfold sendEnumEnd
  try dsimp only
  repeat' (first
    | with_reducible apply only_refl | (with_reducible apply only_step (cwSend_only ..); decide) | split)

theorem takeAddress_only (a : Nat) (aSeen : Bool) (s : State) : Only [.clk, .cw, .out] (takeAddress a aSeen s) s := by
  unfold takeAddress
  try dsimp only
  repeat' (first
    | with_reducible apply only_refl | (with_reducible apply only_step (only_onCw ..); decide)
    | (with_reducible apply only_step (cwSend_only ..); decide) | (with_reducible apply only_step (ownCommits_only ..); decide)
    | (with_reducible apply only_step (sendEnumEnd_only ..); decide) | split)

theorem enumOffered_only (p : Packet) (s : State) : Only [.clk, .chans, .safety, .cxl, .ev, .cw, .out] (enumOffered p s) s := by
  unfold enumOffered
  try dsimp only
  repeat' (first
    | with_reducible apply only_refl | (with_reducible apply only_step (takeAddress_only ..); decide)
    | (with_reducible apply only_step (updateObs_only ..); decide) | (with_reducible apply nextHop_only; decide) | intro s | split)

theorem reported_only (p : Packet) (s : State) : Only [.cw, .out] (reported p s) s := by
  unfold reported
  try dsimp only
  repeat' (first
    | with_reducible apply only_refl | (with_reducible apply only_step (only_onCw ..); decide)
    | (with_reducible apply addressed_only; decide) | intro s | split)

theorem enumEnded_only (p : Packet) (s : State) : Only [.clk, .cfg, .pendLv, .openSet, .com, .chans, .sluice, .safety, .cxl,
    .queues, .ev, .cal, .flash, .upd, .cw, .bar2, .out] (enumEnded p s) s := by
  unfold enumEnded
  try dsimp only
  repeat' (first
    | with_reducible apply only_refl | (with_reducible apply only_step (drainAll_only ..); decide)
    | (with_reducible apply only_step (settleChain_only ..); decide) | (with_reducible apply addressed_only; decide) | intro s
    | split)

theorem enumTimeout_only (s : State) : Only [.clk, .cfg, .pendLv, .openSet, .com, .chans, .sluice, .safety, .cxl, .queues, .ev,
    .cal, .flash, .upd, .cw, .bar2, .out] (enumTimeout s) s := by
  unfold enumTimeout
  try dsimp only
  repeat' (first
    | with_reducible apply only_refl | (with_reducible apply only_step (drainAll_only ..); decide)
    | (with_reducible apply only_step (failSend_only ..); decide) | (with_reducible apply only_step (hopFailed_only ..); decide)
    | (with_reducible apply only_step (settleChain_only ..); decide) | split)

theorem enumCutOff_only (p : Packet) (s : State) : Only [.clk, .chans, .safety, .cxl, .ev, .cw, .out] (enumCutOff p s) s := by
  unfold enumCutOff
  try dsimp only
  repeat' (first
    | with_reducible apply only_refl | (with_reducible apply only_step (only_onCw ..); decide)
    | (with_reducible apply only_step (ownCommits_only ..); decide) | (with_reducible apply only_step (relay_only ..); decide)
    | (with_reducible apply only_step (updateObs_only ..); decide) | (with_reducible apply receive_only; decide) | intro s | split)

theorem enumAsked_only (p : Packet) (s : State) : Only [.clk, .cfg, .pendLv, .openSet, .com, .chans, .sluice, .safety, .cxl,
    .queues, .ev, .cal, .flash, .upd, .cw, .bar2, .out] (enumAsked p s) s := by
  unfold enumAsked
  try dsimp only
  repeat' (first
    | with_reducible apply only_refl | (with_reducible apply only_step (drainAll_only ..); decide)
    | (with_reducible apply only_step (startEnum_only ..); decide) | (with_reducible apply addressed_only; decide) | intro s
    | split)

theorem boundaryHeard_only (p : Packet) (s : State) : Only [.clk, .com, .heads, .chans, .safety, .cxl, .ev, .cw, .planes, .out,
    .free] (boundaryHeard p s) s := by
  unfold boundaryHeard
  try extract_lets
  repeat' (first
    | with_reducible apply only_refl | (with_reducible apply only_step (only_onClk ..); decide)
    | (with_reducible apply only_step (only_onCw ..); decide) | (with_reducible apply only_step (cutOff_only ..); decide)
    | (with_reducible apply only_step (onPort_only ..); decide) | (with_reducible apply only_step (sendBoundary_only ..); decide)
    | (with_reducible apply only_step (sendVote_only ..); decide) | (with_reducible apply only_step (updateObs_only ..); decide)
    | (with_reducible apply nextHop_only; decide) | intro s | with_reducible apply only_ite | extract_lets | split)

theorem boundaryMissed_only (s : State) : Only [.clk, .com, .heads, .chans, .safety, .cxl, .ev, .cw, .planes, .out, .free]
    (boundaryMissed s) s := by
  unfold boundaryMissed
  try extract_lets
  repeat' (first
    | with_reducible apply only_refl | (with_reducible apply only_step (only_onCw ..); decide)
    | (with_reducible apply only_step (cutOff_only ..); decide) | (with_reducible apply only_step (raise_only ..); decide)
    | (with_reducible apply only_step (reach_only ..); decide) | with_reducible apply only_ite | extract_lets | split)

theorem takeMode_only (d : BitVec 384) (apply : Nat) (s : State) : Only [.cw] (takeMode d apply s) s := by
  unfold takeMode
  try dsimp only
  repeat' (first
    | with_reducible apply only_refl | (with_reducible apply only_step (only_onCw ..); decide) | split)

theorem modeHeard_only (p : Packet) (s : State) : Only [.cw, .out] (modeHeard p s) s := by
  unfold modeHeard
  exact addressed_only (by decide) fun s => only_mono (takeMode_only ..) (by decide)

theorem voteHeard_only (p : Packet) (s : State) : Only [.clk, .cw, .out] (voteHeard p s) s := by
  unfold voteHeard
  try dsimp only
  repeat' (first
    | with_reducible apply only_refl | (with_reducible apply only_step (only_onCw ..); decide)
    | (with_reducible apply only_step (markValid_only ..); decide) | (with_reducible apply addressed_only; decide) | intro s
    | split)

theorem capHeard_only (p : Packet) (s : State) : Only [.cw, .out] (capHeard p s) s := by
  unfold capHeard
  try dsimp only
  repeat' (first
    | with_reducible apply only_refl | (with_reducible apply only_step (only_onCw ..); decide)
    | (with_reducible apply addressed_only; decide) | intro s | split)

theorem ackEvent_only (origin : Nat) (seq : BitVec 32) (s : State) : Only [.out] (ackEvent origin seq s) s := by
  unfold ackEvent
  try dsimp only
  repeat' (first
    | with_reducible apply only_refl | (with_reducible apply only_step (cwSend_only ..); decide) | split)

theorem eventHeard_only (p : Packet) (s : State) : Only [.cxl, .cw, .out] (eventHeard p s) s := by
  unfold eventHeard
  try dsimp only
  repeat' (first
    | with_reducible apply only_refl | (with_reducible apply only_step (only_onCw ..); decide)
    | (with_reducible apply only_step (ackEvent_only ..); decide) | (with_reducible apply only_step (dropRelayed_only ..); decide)
    | (with_reducible apply only_step (forwardRecord_only ..); decide)
    | (with_reducible apply only_step (pumpRelay_only ..); decide) | (with_reducible apply addressed_only; decide) | intro s
    | split)

theorem eventAcked_only (p : Packet) (s : State) : Only [.chans, .safety, .cxl, .ev, .cw, .out] (eventAcked p s) s := by
  unfold eventAcked
  try dsimp only
  repeat' (first
    | with_reducible apply only_refl | (with_reducible apply only_step (only_onEv ..); decide)
    | (with_reducible apply only_step (only_onCw ..); decide) | (with_reducible apply only_step (dropRelayed_only ..); decide)
    | (with_reducible apply only_step (pumpChain_only ..); decide) | (with_reducible apply only_step (trimStore_only ..); decide)
    | (with_reducible apply addressed_only; decide) | intro s | split)

theorem eventTimeout_only (s : State) : Only [.ev, .cw, .out] (eventTimeout s) s := by
  unfold eventTimeout
  try dsimp only
  repeat' (first
    | with_reducible apply only_refl | (with_reducible apply only_step (onPort_only ..); decide)
    | (with_reducible apply only_step (resendEvents_only ..); decide) | split)

theorem cmdHeard_only (p : Packet) (s : State) : Only [.clk, .cfg, .pendLv, .openSet, .com, .chans, .sluice, .safety, .cxl,
    .queues, .ev, .cal, .flash, .upd, .cw, .bar2, .out] (cmdHeard p s) s := by
  unfold cmdHeard
  try dsimp only
  repeat' (first
    | with_reducible apply only_refl | (with_reducible apply only_step (only_onCw ..); decide)
    | (with_reducible apply only_step (drainAll_only ..); decide) | (with_reducible apply addressed_only; decide) | intro s
    | split)

theorem takeData_only (i : Nat) (b : List Byte) (l : List InCmd) (s : State) : Only [.bar2] (takeData i b l s).2 s := by
  induction l generalizing s with
  | nil => exact only_refl _ _
  | cons c r ih =>
    unfold takeData
    split
    · exact ih s
    · exact only_onBar2 (fun m => memPut m (c.off + 1024 * i) (if c.off + 1024 * i < stageLo then [] else b.take (stageHi - (c.off + 1024 * i)))) s

theorem dataHeard_only (p : Packet) (s : State) : Only [.clk, .cfg, .pendLv, .openSet, .com, .chans, .sluice, .safety, .cxl,
    .queues, .ev, .cal, .flash, .upd, .cw, .bar2, .out] (dataHeard p s) s := by
  unfold dataHeard
  try dsimp only
  repeat' (first
    | with_reducible apply only_refl | (with_reducible apply only_step (only_onCw ..); decide)
    | (with_reducible apply only_step (drainAll_only ..); decide) | (with_reducible apply only_step (takeData_only ..); decide)
    | (with_reducible apply addressed_only; decide) | intro s | split)

theorem respHeard_only (p : Packet) (s : State) : Only [.clk, .cfg, .pendLv, .openSet, .com, .chans, .sluice, .safety, .cxl,
    .queues, .ev, .cal, .flash, .upd, .cw, .bar2, .out] (respHeard p s) s := by
  unfold respHeard
  try dsimp only
  repeat' (first
    | with_reducible apply only_refl | (with_reducible apply only_step (only_onCw ..); decide)
    | (with_reducible apply only_step (drainAll_only ..); decide) | (with_reducible apply only_step (trySend_only ..); decide)
    | (with_reducible apply addressed_only; decide) | intro s | split)

theorem respTimeout_only (s : State) : Only [.clk, .cfg, .pendLv, .openSet, .com, .chans, .sluice, .safety, .cxl, .queues, .ev,
    .cal, .flash, .upd, .cw, .bar2, .out] (respTimeout s) s := by
  unfold respTimeout
  try dsimp only
  repeat' (first
    | with_reducible apply only_refl | (with_reducible apply only_step (drainAll_only ..); decide)
    | (with_reducible apply only_step (failSend_only ..); decide) | split)

theorem touchChain_only (s : State) : Only [.upd] (touchChain s) s := by
  unfold touchChain
  try dsimp only
  repeat' (first
    | with_reducible apply only_refl | (with_reducible apply only_step (touch_only ..); decide) | split)

theorem onTransit_only (b : Nat) (f : Transit → Transit) (s : State) : Only [.upd] (onTransit b f s) s := by
  unfold onTransit
  try dsimp only
  repeat' (first
    | with_reducible apply only_refl | (with_reducible apply only_step (only_onUpd ..); decide) | split)

theorem ackHop_only (b : Nat) (resend : Bool) (s : State) : Only [.out] (ackHop b resend s) s := by
  unfold ackHop
  try dsimp only
  repeat' (first
    | with_reducible apply only_refl | (with_reducible apply only_step (cwSend_only ..); decide) | split)

theorem blockFails_only (t : Transit) (s : State) : Only [.chans, .safety, .cxl, .ev, .upd, .out] (blockFails t s) s := by
  unfold blockFails
  try dsimp only
  repeat' (first
    | with_reducible apply only_refl | (with_reducible apply only_step (only_onUpd ..); decide)
    | (with_reducible apply only_step (ackHop_only ..); decide) | (with_reducible apply only_step (onTransit_only ..); decide)
    | (with_reducible apply only_step (sendResp_only ..); decide) | (with_reducible apply only_step (setSession_only ..); decide)
    | (with_reducible apply only_step (tellUpdate_only ..); decide) | split)

theorem blockStarts_only (p : Packet) (s : State) : Only [.upd, .cw, .out] (blockStarts p s) s := by
  unfold blockStarts
  try dsimp only
  repeat' (first
    | with_reducible apply only_refl | (with_reducible apply only_step (only_onUpd ..); decide)
    | (with_reducible apply only_step (onTransit_only ..); decide) | (with_reducible apply only_step (touchChain_only ..); decide)
    | (with_reducible apply addressed_only; decide) | intro s | split)

theorem blockWhole_only (t : Transit) (s : State) : Only [.chans, .safety, .cxl, .ev, .flash, .upd, .out] (blockWhole t s) s := by
  unfold blockWhole
  try dsimp only
  repeat' (first
    | with_reducible apply only_refl | (with_reducible apply only_step (ackHop_only ..); decide)
    | (with_reducible apply only_step (addJob_only ..); decide) | (with_reducible apply only_step (blockFails_only ..); decide)
    | (with_reducible apply only_step (forwardBlock_only ..); decide)
    | (with_reducible apply only_step (freeTransit_only ..); decide)
    | (with_reducible apply only_step (onTransit_only ..); decide) | split)

theorem segmentHeard_only (p : Packet) (s : State) : Only [.chans, .safety, .cxl, .ev, .flash, .upd, .cw, .out] (segmentHeard p
    s) s := by
  unfold segmentHeard
  try dsimp only
  repeat' (first
    | with_reducible apply only_refl | (with_reducible apply only_step (ackHop_only ..); decide)
    | (with_reducible apply only_step (blockWhole_only ..); decide) | (with_reducible apply only_step (onTransit_only ..); decide)
    | (with_reducible apply only_step (touchChain_only ..); decide) | (with_reducible apply addressed_only; decide) | intro s
    | split)

theorem blockLate_only (s : State) : Only [.chans, .safety, .cxl, .ev, .upd, .out] (blockLate s) s := by
  unfold blockLate
  try dsimp only
  repeat' (first
    | with_reducible apply only_refl | (with_reducible apply only_step (blockFails_only ..); decide) | split)

theorem blockAcked_only (p : Packet) (s : State) : Only [.clk, .cfg, .pendLv, .openSet, .com, .chans, .sluice, .safety, .cxl,
    .queues, .ev, .cal, .flash, .upd, .cw, .bar2, .out] (blockAcked p s) s := by
  unfold blockAcked
  try dsimp only
  repeat' (first
    | with_reducible apply only_refl | (with_reducible apply only_step (only_onUpd ..); decide)
    | (with_reducible apply only_step (drainAll_only ..); decide) | (with_reducible apply only_step (freeTransit_only ..); decide)
    | (with_reducible apply only_step (onPort_only ..); decide) | (with_reducible apply only_step (sendBlock_only ..); decide)
    | (with_reducible apply addressed_only; decide) | intro s | split)

theorem control_only {fs : List Part} {op : Nat} {p : Packet} {f : State → State} {s : State}
    (hb : holdsAll fs [.cw, .out] = true) (h : ∀ s, Only fs (f s) s) : Only fs (control op p f s) s := by
  unfold control
  exact only_ite _ (only_refl _ _) (addressed_only hb h)

theorem ctrlOpen_only (p : Packet) (s : State) : Only [.chans, .safety, .cxl, .ev, .flash, .upd, .cw, .out] (ctrlOpen p s) s := by
  unfold ctrlOpen
  try dsimp only
  repeat' (first
    | with_reducible apply only_refl | (with_reducible apply only_step (openEffect_only ..); decide)
    | (with_reducible apply only_step (sendResp_only ..); decide) | (with_reducible apply control_only; decide) | intro s | split)

theorem verifyHere_only (x : Session) (s : State) : Only [.flash, .out] (verifyHere x s) s := by
  unfold verifyHere
  try dsimp only
  repeat' (first
    | with_reducible apply only_refl | (with_reducible apply only_step (addJob_only ..); decide)
    | (with_reducible apply only_step (sendResp_only ..); decide) | split)

theorem resumeVerify_only (s : State) : Only [.flash, .upd, .out] (resumeVerify s) s := by
  unfold resumeVerify
  try dsimp only
  repeat' (first
    | with_reducible apply only_refl | (with_reducible apply only_step (only_onUpd ..); decide)
    | (with_reducible apply only_step (sendResp_only ..); decide) | (with_reducible apply only_step (verifyHere_only ..); decide)
    | split)

theorem ctrlVerify_only (p : Packet) (s : State) : Only [.flash, .upd, .cw, .out] (ctrlVerify p s) s := by
  unfold ctrlVerify
  try dsimp only
  repeat' (first
    | with_reducible apply only_refl | (with_reducible apply only_step (only_onUpd ..); decide)
    | (with_reducible apply only_step (resumeVerify_only ..); decide)
    | (with_reducible apply only_step (sendResp_only ..); decide) | (with_reducible apply only_step (touch_only ..); decide)
    | (with_reducible apply control_only; decide) | intro s | split)

theorem ctrlActivate_only (p : Packet) (s : State) : Only [.upd, .cw, .out] (ctrlActivate p s) s := by
  unfold ctrlActivate
  try dsimp only
  repeat' (first
    | with_reducible apply only_refl | (with_reducible apply only_step (only_onUpd ..); decide)
    | (with_reducible apply only_step (sendResp_only ..); decide) | (with_reducible apply only_step (touch_only ..); decide)
    | (with_reducible apply control_only; decide) | intro s | split)

theorem ctrlAbort_only (p : Packet) (s : State) : Only [.flash, .upd, .cw, .out] (ctrlAbort p s) s := by
  unfold ctrlAbort
  try dsimp only
  repeat' (first
    | with_reducible apply only_refl | (with_reducible apply only_step (only_onUpd ..); decide)
    | (with_reducible apply only_step (endSession_only ..); decide) | (with_reducible apply control_only; decide) | intro s
    | split)

theorem ctrlDisarm_only (p : Packet) (s : State) : Only [.upd, .cw, .out] (ctrlDisarm p s) s := by
  unfold ctrlDisarm
  try dsimp only
  repeat' (first
    | with_reducible apply only_refl | (with_reducible apply only_step (only_onUpd ..); decide)
    | (with_reducible apply control_only; decide) | intro s | split)

theorem respAnswered_only (p : Packet) (s : State) : Only [.clk, .cfg, .pendLv, .openSet, .com, .chans, .sluice, .safety, .cxl,
    .queues, .ev, .cal, .flash, .upd, .cw, .bar2, .out] (respAnswered p s) s := by
  unfold respAnswered
  try dsimp only
  repeat' (first
    | with_reducible apply only_refl | (with_reducible apply only_step (only_onUpd ..); decide)
    | (with_reducible apply only_step (drainAll_only ..); decide) | (with_reducible apply only_step (hopFailed_only ..); decide)
    | (with_reducible apply only_step (raise_only ..); decide) | (with_reducible apply only_step (tryChain_only ..); decide)
    | (with_reducible apply addressed_only; decide) | intro s | split)

theorem onGen_only (g : Fin 4) (f : Generation → Generation) (s : State) : Only [.otp] (onGen g f s) s := by
  unfold onGen
  try dsimp only
  repeat' (first
    | with_reducible apply only_refl | (with_reducible apply only_step (only_onOtp ..); decide) | split)

theorem keepTrips_only (old : State) (new : State) : Only [.therm, .safety] (keepTrips old new) new := by
  unfold keepTrips
  try dsimp only
  repeat' (first
    | with_reducible apply only_refl | (with_reducible apply only_step (only_onTherm ..); decide)
    | (with_reducible apply only_step (only_onSafety ..); decide) | split)

theorem cutCommit_only (s : State) : Only [.otp, .free] (cutCommit s) s := by
  unfold cutCommit
  try dsimp only
  repeat' (first
    | with_reducible apply only_refl | (with_reducible apply only_step (drawFree_only ..); decide)
    | (with_reducible apply only_step (onGen_only ..); decide) | split)

theorem beginReset_only (k : ResetKind) (s : State) :
    Only [.clk, .cfg, .pendLv, .openSet, .com, .comp, .heads, .links, .rasters, .chans, .loops, .oss, .lines, .sluice, .therm, .safety, .cxl, .queues, .ev, .boot, .power, .otp, .cal, .flash, .upd, .cw, .jtag, .bar2, .mirrorGen, .out, .free] (beginReset k s) s := by
  unfold beginReset
  extract_lets u new
  refine only_step (only_emit ..) (by decide) (only_step (keepTrips_only ..) (by decide) (only_step (u := u) (g := [.clk, .cfg, .pendLv, .openSet, .com, .comp, .heads, .links, .rasters, .chans, .loops, .oss, .lines, .sluice, .therm, .safety, .cxl, .queues, .ev, .boot, .power, .otp, .cal, .flash, .upd, .cw, .jtag, .bar2, .mirrorGen, .out, .free])
    ⟨fun x hx => ?_⟩ (by decide) (only_mono (cutCommit_only s) (by decide))))
  cases x <;> first | rfl | cases hx

theorem powerReset_only (s : State) : Only [.clk, .cfg, .pendLv, .openSet, .com, .comp, .heads, .links, .rasters, .chans,
    .loops, .oss, .lines, .sluice, .therm, .safety, .cxl, .queues, .ev, .boot, .power, .otp, .cal, .flash, .upd, .cw, .jtag,
    .bar2, .mirrorGen, .out, .free] (powerReset s) s := by
  unfold powerReset
  try dsimp only
  repeat' (first
    | with_reducible apply only_refl | (with_reducible apply only_step (beginReset_only ..); decide) | split)

theorem pinReset_only (s : State) : Only [.clk, .cfg, .pendLv, .openSet, .com, .comp, .heads, .links, .rasters, .chans, .loops,
    .oss, .lines, .sluice, .therm, .safety, .cxl, .queues, .ev, .boot, .power, .otp, .cal, .flash, .upd, .cw, .jtag, .bar2,
    .mirrorGen, .out, .free] (pinReset s) s := by
  unfold pinReset
  try dsimp only
  repeat' (first
    | with_reducible apply only_refl | (with_reducible apply only_step (beginReset_only ..); decide) | split)

theorem warmReset_only (s : State) : Only [.clk, .cfg, .pendLv, .openSet, .com, .comp, .heads, .links, .rasters, .chans,
    .loops, .oss, .lines, .sluice, .therm, .safety, .cxl, .queues, .ev, .boot, .power, .otp, .cal, .flash, .upd, .cw, .jtag,
    .bar2, .mirrorGen, .out, .free] (warmReset s) s := by
  unfold warmReset
  try dsimp only
  repeat' (first
    | with_reducible apply only_refl | (with_reducible apply only_step (beginReset_only ..); decide) | split)

theorem appendNow_only (r : BootRecord) (s : State) : Only [.flash, .out] (appendNow r s) s := by
  unfold appendNow
  try dsimp only
  repeat' (first
    | with_reducible apply only_refl | (with_reducible apply only_step (writeRecord_only ..); decide) | split)

theorem countTrial_only (s : State) : Only [.flash, .out] (countTrial s) s := by
  unfold countTrial
  try dsimp only
  repeat' (first
    | with_reducible apply only_refl | (with_reducible apply only_step (appendNow_only ..); decide) | split)

theorem bootFails_only (k : BootFaultKind) (s : State) : Only [.clk, .cfg, .pendLv, .openSet, .com, .chans, .sluice, .safety,
    .cxl, .queues, .ev, .boot, .cal, .flash, .upd, .cw, .bar2, .out] (bootFails k s) s := by
  unfold bootFails
  try extract_lets
  repeat' (first
    | with_reducible apply only_refl | (with_reducible apply only_step (only_onBoot ..); decide)
    | (with_reducible apply only_step (drainAll_only ..); decide) | (with_reducible apply only_step (safetyFault_only ..); decide)
    | with_reducible apply only_ite | extract_lets | split)

theorem slotFails_only (k : BootFaultKind) (s : State) : Only [.clk, .cfg, .pendLv, .openSet, .com, .chans, .sluice, .safety,
    .cxl, .queues, .ev, .boot, .cal, .flash, .upd, .cw, .bar2, .out] (slotFails k s) s := by
  unfold slotFails
  try extract_lets
  repeat' (first
    | with_reducible apply only_refl | (with_reducible apply only_step (only_onBoot ..); decide)
    | (with_reducible apply only_step (appendNow_only ..); decide) | (with_reducible apply only_step (bootFails_only ..); decide)
    | with_reducible apply only_ite | extract_lets | split)

theorem bootFault_only (k : BootFaultKind) (s : State) : Only [.clk, .cfg, .pendLv, .openSet, .com, .chans, .sluice, .safety,
    .cxl, .queues, .ev, .boot, .cal, .flash, .upd, .cw, .bar2, .out] (bootFault k s) s := by
  unfold bootFault
  try extract_lets
  repeat' (first
    | with_reducible apply only_refl | (with_reducible apply only_step (bootFails_only ..); decide)
    | (with_reducible apply only_step (slotFails_only ..); decide) | with_reducible apply only_ite | extract_lets | split)

theorem pllTimeout_only (s : State) : Only [.clk, .cfg, .pendLv, .openSet, .com, .chans, .sluice, .safety, .cxl, .queues, .ev,
    .boot, .cal, .flash, .upd, .cw, .bar2, .out] (pllTimeout s) s := by
  unfold pllTimeout
  try dsimp only
  repeat' (first
    | with_reducible apply only_refl | (with_reducible apply only_step (bootFails_only ..); decide) | split)

theorem startBoot_only (s : State) : Only [.clk, .cfg, .pendLv, .openSet, .com, .chans, .sluice, .safety, .cxl, .queues, .ev,
    .boot, .cal, .flash, .upd, .cw, .bar2, .out] (startBoot s) s := by
  unfold startBoot
  try extract_lets
  repeat' (first
    | with_reducible apply only_refl | (with_reducible apply only_step (only_onClk ..); decide)
    | (with_reducible apply only_step (only_onCxl ..); decide) | (with_reducible apply only_step (only_onBoot ..); decide)
    | (with_reducible apply only_step (bootFails_only ..); decide) | (with_reducible apply only_step (countTrial_only ..); decide)
    | with_reducible apply only_ite | extract_lets | split)

theorem bootStart_only (s : State) : Only [.clk, .cfg, .pendLv, .openSet, .com, .chans, .sluice, .safety, .cxl, .queues, .ev,
    .boot, .cal, .flash, .upd, .cw, .bar2, .out] (bootStart s) s := by
  unfold bootStart
  try extract_lets
  repeat' (first
    | with_reducible apply only_refl | (with_reducible apply only_step (startBoot_only ..); decide)
    | with_reducible apply only_ite | extract_lets | split)

theorem release_only (straps : Straps) (wake : Bool) (s : State) : Only [.clk, .cfg, .pendLv, .openSet, .com, .chans, .sluice,
    .safety, .cxl, .queues, .ev, .boot, .cal, .flash, .upd, .cw, .bar2, .out] (release straps wake s) s := by
  unfold release
  try extract_lets
  repeat' (first
    | with_reducible apply only_refl | (with_reducible apply only_step (only_onClk ..); decide)
    | (with_reducible apply only_step (only_onBoot ..); decide) | (with_reducible apply only_step (only_emit ..); decide)
    | (with_reducible apply only_step (startBoot_only ..); decide) | with_reducible apply only_ite | extract_lets | split)

theorem loadAsset_only (a : Asset) (s : State) : Only [.cfg, .safety] (loadAsset a s) s := by
  unfold loadAsset
  try dsimp only
  repeat' (first
    | with_reducible apply only_refl | (with_reducible apply only_step (only_onCfg ..); decide)
    | (with_reducible apply only_step (only_onSafety ..); decide)
    | (with_reducible apply only_step (stageLayouts_only ..); decide) | split)

theorem applyEntry_only (e : SettingsEntry) (s : State) :
    Only [.clk, .cfg, .pendLv, .openSet, .com, .chans, .sluice, .safety, .cxl, .queues, .ev, .cal, .flash, .upd, .cw, .bar2, .out] (applyEntry e s).2 s := by
  unfold applyEntry
  extract_lets op d
  split
  · exact only_refl _ _
  · have h : Only [.clk, .cfg, .pendLv, .openSet, .com, .chans, .sluice, .safety, .cxl, .queues, .ev, .cal, .flash, .upd, .cw, .bar2, .out] (runChecked op d (onBar2 (fun m => memPut m stageLo e.data) s)).after s :=
      only_step (runChecked_only ..) (by decide) (only_mono (only_onBar2 ..) (by decide))
    split
    · rename_i e
      rw [e] at h
      exact only_ite _ h (only_refl _ _)
    · rename_i e
      rw [e] at h
      exact h

theorem applyEntries_only (ds : List SettingsEntry) (i : Nat) (l : List SettingsEntry) (s : State) :
    Only [.clk, .cfg, .pendLv, .openSet, .com, .chans, .sluice, .safety, .cxl, .queues, .ev, .cal, .flash, .upd, .cw, .bar2, .out] (applyEntries ds i l s).1 s := by
  induction l generalizing i s with
  | nil => exact only_refl _ _
  | cons e r ih =>
    unfold applyEntries
    dsimp only
    split
    · exact only_step (ih ..) (by decide) (applyEntry_only ..)
    · refine only_step (ih ..) (by decide) ?_
      split
      · exact only_refl _ _
      · split
        · exact applyEntry_only ..
        · exact only_refl _ _

theorem bootSettings_only (b : BootLoad) (s : State) : Only [.clk, .cfg, .pendLv, .openSet, .com, .chans, .sluice, .safety,
    .cxl, .queues, .ev, .cal, .flash, .upd, .cw, .bar2, .out] ((bootSettings b s).1) s := by
  unfold bootSettings
  try dsimp only
  repeat' (first
    | with_reducible apply only_refl | (with_reducible apply only_step (appendNow_only ..); decide)
    | (with_reducible apply only_step (applyEntries_only ..); decide)
    | (with_reducible apply only_step (writeCopy_only ..); decide) | split)

theorem readyPoint_only (b : BootLoad) (s : State) : Only [.clk, .cfg, .pendLv, .openSet, .com, .chans, .sluice, .safety, .cxl,
    .queues, .ev, .boot, .cal, .flash, .upd, .cw, .bar2, .out] (readyPoint b s) s := by
  unfold readyPoint
  try extract_lets
  repeat' (first
    | with_reducible apply only_refl | (with_reducible apply only_step (only_onBoot ..); decide)
    | (with_reducible apply only_step (only_onCal ..); decide) | (with_reducible apply only_step (only_onUpd ..); decide)
    | (with_reducible apply only_step (bootFails_only ..); decide)
    | (with_reducible apply only_step (bootSettings_only ..); decide)
    | (with_reducible apply only_step (drainAll_only ..); decide) | (with_reducible apply only_step (loadAsset_only ..); decide)
    | (with_reducible apply only_step (onPort_only ..); decide) | (with_reducible apply only_step (pumpCq_only ..); decide)
    | (with_reducible apply only_step (pumpHost_only ..); decide) | (with_reducible apply only_step (raise_only ..); decide)
    | (with_reducible apply only_step (startEnum_only ..); decide)
    | (with_reducible apply only_step (only_forEach _ _ (fun _ _ => only_onBoot ..) _); decide)
    | (with_reducible apply only_step (only_forEach _ _ (fun _ _ => only_onCal ..) _); decide)
    | (with_reducible apply only_step (only_forEach _ _ (fun _ _ => only_onUpd ..) _); decide)
    | (with_reducible apply only_step (only_forEach _ _ (fun _ _ => bootFails_only ..) _); decide)
    | (with_reducible apply only_step (only_forEach _ _ (fun _ _ => bootSettings_only ..) _); decide)
    | (with_reducible apply only_step (only_forEach _ _ (fun _ _ => drainAll_only ..) _); decide)
    | (with_reducible apply only_step (only_forEach _ _ (fun _ _ => loadAsset_only ..) _); decide)
    | (with_reducible apply only_step (only_forEach _ _ (fun _ _ => onPort_only ..) _); decide)
    | (with_reducible apply only_step (only_forEach _ _ (fun _ _ => pumpCq_only ..) _); decide)
    | (with_reducible apply only_step (only_forEach _ _ (fun _ _ => pumpHost_only ..) _); decide)
    | (with_reducible apply only_step (only_forEach _ _ (fun _ _ => raise_only ..) _); decide)
    | (with_reducible apply only_step (only_forEach _ _ (fun _ _ => startEnum_only ..) _); decide)
    | with_reducible apply only_forEach_step | intro x s | with_reducible apply only_ite | extract_lets | split)

theorem firstLightTimeout_only (s : State) : Only [.chans, .safety, .cxl, .ev, .out] (firstLightTimeout s) s := by
  unfold firstLightTimeout
  try dsimp only
  repeat' (first
    | with_reducible apply only_refl | (with_reducible apply only_step (safetyFault_only ..); decide)
    | (with_reducible apply only_step (only_forEach _ _ (fun _ _ => safetyFault_only ..) _); decide)
    | with_reducible apply only_forEach_step | intro x s | split)

theorem trialTimeout_only (s : State) : Only [.flash, .upd] (trialTimeout s) s := by
  unfold trialTimeout
  try dsimp only
  repeat' (first
    | with_reducible apply only_refl | (with_reducible apply only_step (only_onUpd ..); decide)
    | (with_reducible apply only_step (addJob_only ..); decide) | split)

theorem selectVid_only (v : Fin 4) (s : State) : Only [.power, .out] (selectVid v s) s := by
  unfold selectVid
  try dsimp only
  repeat' (first
    | with_reducible apply only_refl | (with_reducible apply only_step (only_onPower ..); decide)
    | (with_reducible apply only_step (only_emit ..); decide) | split)

theorem presetWritten_only (ok : Bool) (s : State) : Only [.power, .out] (presetWritten ok s) s := by
  unfold presetWritten
  try dsimp only
  repeat' (first
    | with_reducible apply only_refl | (with_reducible apply only_step (only_onPower ..); decide)
    | (with_reducible apply only_step (selectVid_only ..); decide) | (with_reducible apply only_step (smbusWrite_only ..); decide)
    | split)

theorem marginTrip_only (s : State) : Only [.power, .out] (marginTrip s) s := by
  unfold marginTrip
  try dsimp only
  repeat' (first
    | with_reducible apply only_refl | (with_reducible apply only_step (only_onPower ..); decide)
    | (with_reducible apply only_step (selectVid_only ..); decide) | split)

theorem sliceDone_only (finished : Bool) (ok : Bool) (s : State) : Only [.clk, .cfg, .pendLv, .openSet, .com, .comp, .heads,
    .links, .rasters, .chans, .loops, .oss, .lines, .sluice, .therm, .safety, .cxl, .queues, .ev, .boot, .power, .otp, .cal,
    .flash, .upd, .cw, .jtag, .bar2, .mirrorGen, .out, .free] (sliceDone finished ok s) s := by
  unfold sliceDone
  try extract_lets
  repeat' (first
    | with_reducible apply only_refl | (with_reducible apply only_step (only_onFlash ..); decide)
    | (with_reducible apply only_step (drainAll_only ..); decide) | (with_reducible apply only_step (endJob_only ..); decide)
    | (with_reducible apply only_step (resumeVerify_only ..); decide)
    | (with_reducible apply only_step (warmReset_only ..); decide) | with_reducible apply only_ite | extract_lets | split)

theorem seriesDone_only (ok : Bool) (s : State) : Only [.clk, .cfg, .pendLv, .openSet, .com, .chans, .loops, .sluice, .safety,
    .cxl, .queues, .ev, .otp, .cal, .flash, .upd, .cw, .bar2, .out] (seriesDone ok s) s := by
  unfold seriesDone
  try extract_lets
  repeat' (first
    | with_reducible apply only_refl | (with_reducible apply only_step (only_onCal ..); decide)
    | (with_reducible apply only_step (only_onLoops ..); decide) | (with_reducible apply only_step (drainAll_only ..); decide)
    | (with_reducible apply only_step (finish_only ..); decide) | (with_reducible apply only_step (onGen_only ..); decide)
    | (with_reducible apply only_step (raise_only ..); decide) | with_reducible apply only_ite | extract_lets | split)

theorem runBypass_only (tdi : List Bool) (s : State) : Only [.jtag, .out] (runBypass tdi s) s := by
  unfold runBypass
  try dsimp only
  repeat' (first
    | with_reducible apply only_refl | (with_reducible apply only_step (only_emit ..); decide)
    | (with_reducible apply only_step (only_onJtag ..); decide) | split)

theorem runIdcode_only (s : State) : Only [.jtag, .out, .free] (runIdcode s) s := by
  unfold runIdcode
  try extract_lets
  repeat' (first
    | with_reducible apply only_refl | (with_reducible apply only_step (only_emit ..); decide)
    | (with_reducible apply only_step (only_onJtag ..); decide) | (with_reducible apply only_step (drawFree_only ..); decide)
    | with_reducible apply only_ite | extract_lets | split)

theorem runSample_only (pins : List Bool) (s : State) : Only [.jtag, .out] (runSample pins s) s := by
  unfold runSample
  try dsimp only
  repeat' (first
    | with_reducible apply only_refl | (with_reducible apply only_step (only_emit ..); decide)
    | (with_reducible apply only_step (only_onJtag ..); decide) | (with_reducible apply only_step (runBypass_only ..); decide)
    | split)

theorem runExtest_only (cells : List Bool) (s : State) : Only [.jtag, .out] (runExtest cells s) s := by
  unfold runExtest
  try dsimp only
  repeat' (first
    | with_reducible apply only_refl | (with_reducible apply only_step (only_onJtag ..); decide)
    | (with_reducible apply only_step (runBypass_only ..); decide) | split)

theorem runOtpInstr_only (b : Integrator) (s : State) : Only [.otp, .jtag, .out] (runOtpInstr b s) s := by
  unfold runOtpInstr
  try dsimp only
  repeat' (first
    | with_reducible apply only_refl | (with_reducible apply only_step (only_onOtp ..); decide)
    | (with_reducible apply only_step (only_onJtag ..); decide) | (with_reducible apply only_step (runBypass_only ..); decide)
    | split)

end Sys2Proof.Machine
end

