-- ==== Sys2Proof/Laws/FramesTick.lean ====
section
/-! SUPPORT. The parts of the state that the LATCH and the END can change: one lemma per operation. -/

namespace Sys2Proof.Machine

set_option linter.all false

theorem planHead_only (h : Head) (s : State) : Only [.heads] (planHead h s) s := by
  unfold planHead
  try dsimp only
  repeat' (first
    | with_reducible apply only_refl | (with_reducible apply only_step (only_onHead ..); decide) | split)

theorem judgePlan_only (h : Head) (s : State) : Only [.heads] (judgePlan h s) s := by
  unfold judgePlan
  try dsimp only
  repeat' (first
    | with_reducible apply only_refl | (with_reducible apply only_step (only_onHead ..); decide) | split)

theorem readyHead_only (h : Head) (s : State) : Only [.heads] (readyHead h s) s := by
  unfold readyHead
  try dsimp only
  repeat' (first
    | with_reducible apply only_refl | (with_reducible apply only_step (only_onHead ..); decide) | split)

theorem turnHeads_only (cs : Vector Content 4) (s : State) : Only [.heads] (turnHeads cs s) s := by
  unfold turnHeads
  try extract_lets
  repeat' (first
    | with_reducible apply only_refl | (with_reducible apply only_step (only_onHead ..); decide)
    | (with_reducible apply only_step (planHead_only ..); decide)
    | (with_reducible apply only_step (only_forEach _ _ (fun _ _ => only_onHead ..) _); decide)
    | (with_reducible apply only_step (only_forEach _ _ (fun _ _ => planHead_only ..) _); decide)
    | with_reducible apply only_forEach_step | intro x s | with_reducible apply only_ite | extract_lets | split)

theorem windowForm_only (s : State) : Only [.safety] (windowForm s) s := by
  unfold windowForm
  try dsimp only
  repeat' (first
    | with_reducible apply only_refl | (with_reducible apply only_step (only_onSafety ..); decide) | split)

theorem leaveSafe_only (s : State) : Only [.safety] (leaveSafe s) s := by
  unfold leaveSafe
  try dsimp only
  repeat' (first
    | with_reducible apply only_refl | (with_reducible apply only_step (only_onSafety ..); decide) | split)

theorem firstLight_only (s : State) : Only [.safety] (firstLight s) s := by
  unfold firstLight
  try dsimp only
  repeat' (first
    | with_reducible apply only_refl | (with_reducible apply only_step (only_onSafety ..); decide) | split)

theorem turnSafety_only (s : State) : Only [.heads, .safety] (turnSafety s) s := by
  unfold turnSafety
  try dsimp only
  repeat' (first
    | with_reducible apply only_refl | (with_reducible apply only_step (only_onSafety ..); decide)
    | (with_reducible apply only_step (firstLight_only ..); decide) | (with_reducible apply only_step (leaveSafe_only ..); decide)
    | (with_reducible apply only_step (readyHead_only ..); decide) | (with_reducible apply only_step (windowForm_only ..); decide)
    | (with_reducible apply only_step (only_forEach _ _ (fun _ _ => only_onSafety ..) _); decide)
    | (with_reducible apply only_step (only_forEach _ _ (fun _ _ => firstLight_only ..) _); decide)
    | (with_reducible apply only_step (only_forEach _ _ (fun _ _ => leaveSafe_only ..) _); decide)
    | (with_reducible apply only_step (only_forEach _ _ (fun _ _ => readyHead_only ..) _); decide)
    | (with_reducible apply only_step (only_forEach _ _ (fun _ _ => windowForm_only ..) _); decide)
    | with_reducible apply only_forEach_step | intro x s | split)

theorem turnTimeout_only (wrote : Bool) (windowed : Bool) (s : State) : Only [.safety] (turnTimeout wrote windowed s) s := by
  unfold turnTimeout
  try dsimp only
  repeat' (first
    | with_reducible apply only_refl | (with_reducible apply only_step (only_onSafety ..); decide) | split)

theorem turnLit_only (before : List Nat) (oldShown : Vector Bool 4) (s : State) : Only [.heads, .safety] (turnLit before
    oldShown s) s := by
  unfold turnLit
  try dsimp only
  repeat' (first
    | with_reducible apply only_refl | (with_reducible apply only_step (only_onHead ..); decide)
    | (with_reducible apply only_step (only_onSafety ..); decide)
    | (with_reducible apply only_step (only_forEach _ _ (fun _ _ => only_onHead ..) _); decide)
    | (with_reducible apply only_step (only_forEach _ _ (fun _ _ => only_onSafety ..) _); decide)
    | with_reducible apply only_forEach_step | intro x s | split)

theorem tableOver_only (h : Head) (s : State) : Only [.heads, .rasters, .chans, .safety, .cxl, .ev, .out] (tableOver h s) s := by
  unfold tableOver
  try dsimp only
  repeat' (first
    | with_reducible apply only_refl | (with_reducible apply only_step (tableCheck_only ..); decide) | split)

theorem beginTick_only (b : Nat) (s : State) : Only [.clk, .com, .comp, .heads, .links, .rasters, .chans, .sluice, .safety,
    .cxl, .ev, .boot, .cal, .flash, .out] (beginTick b s) s := by
  unfold beginTick
  try dsimp only
  repeat' (first
    | with_reducible apply only_refl | (with_reducible apply only_step (only_onClk ..); decide)
    | (with_reducible apply only_step (only_onComp ..); decide) | (with_reducible apply only_step (only_onSluice ..); decide)
    | (with_reducible apply only_step (only_onBoot ..); decide) | (with_reducible apply only_step (only_onCal ..); decide)
    | (with_reducible apply only_step (only_onFlash ..); decide) | (with_reducible apply only_step (only_onHeads ..); decide)
    | (with_reducible apply only_step (only_onLinks ..); decide) | (with_reducible apply only_step (only_onRasters ..); decide)
    | (with_reducible apply only_step (only_onChans ..); decide) | (with_reducible apply only_step (later_only ..); decide)
    | (with_reducible apply only_step (tableOver_only ..); decide)
    | (with_reducible apply only_step (only_forEach _ _ (fun _ _ => only_onClk ..) _); decide)
    | (with_reducible apply only_step (only_forEach _ _ (fun _ _ => only_onComp ..) _); decide)
    | (with_reducible apply only_step (only_forEach _ _ (fun _ _ => only_onSluice ..) _); decide)
    | (with_reducible apply only_step (only_forEach _ _ (fun _ _ => only_onBoot ..) _); decide)
    | (with_reducible apply only_step (only_forEach _ _ (fun _ _ => only_onCal ..) _); decide)
    | (with_reducible apply only_step (only_forEach _ _ (fun _ _ => only_onFlash ..) _); decide)
    | (with_reducible apply only_step (only_forEach _ _ (fun _ _ => only_onHeads ..) _); decide)
    | (with_reducible apply only_step (only_forEach _ _ (fun _ _ => only_onLinks ..) _); decide)
    | (with_reducible apply only_step (only_forEach _ _ (fun _ _ => only_onRasters ..) _); decide)
    | (with_reducible apply only_step (only_forEach _ _ (fun _ _ => only_onChans ..) _); decide)
    | (with_reducible apply only_step (only_forEach _ _ (fun _ _ => later_only ..) _); decide)
    | (with_reducible apply only_step (only_forEach _ _ (fun _ _ => tableOver_only ..) _); decide)
    | with_reducible apply only_forEach_step | intro x s | split)

theorem tellTiming_only (groups : Nat) (dark : Bool) (s : State) : Only [.com] (tellTiming groups dark s) s := by
  unfold tellTiming
  try dsimp only
  repeat' (first
    | with_reducible apply only_refl | (with_reducible apply only_step (later_only ..); decide) | split)

theorem tellTransition_only (ended : Bool) (s : State) : Only [.com] (tellTransition ended s) s := by
  unfold tellTransition
  try dsimp only
  repeat' (first
    | with_reducible apply only_refl | (with_reducible apply only_step (later_only ..); decide) | split)

theorem tellDuty_only (old : Cfg) (s : State) : Only [.com] (tellDuty old s) s := by
  unfold tellDuty
  try dsimp only
  repeat' (first
    | with_reducible apply only_refl | (with_reducible apply only_step (later_only ..); decide)
    | (with_reducible apply only_step (only_forEach _ _ (fun _ _ => later_only ..) _); decide)
    | with_reducible apply only_forEach_step | intro x s | split)

theorem tellRange_only (s : State) : Only [.clk, .com] (tellRange s) s := by
  unfold tellRange
  try dsimp only
  repeat' (first
    | with_reducible apply only_refl | (with_reducible apply only_step (only_onClk ..); decide)
    | (with_reducible apply only_step (later_only ..); decide)
    | (with_reducible apply only_step (only_forEach _ _ (fun _ _ => only_onClk ..) _); decide)
    | (with_reducible apply only_step (only_forEach _ _ (fun _ _ => later_only ..) _); decide)
    | with_reducible apply only_forEach_step | intro x s | split)

theorem bandEnd_only (c : Cfg) (s : State) : Only [.clk] (bandEnd c s) s := by
  unfold bandEnd
  try dsimp only
  repeat' (first
    | with_reducible apply only_refl | (with_reducible apply only_step (only_onClk ..); decide) | split)

theorem bandLatch_only (joined : Bool) (s : State) : Only [.clk, .com] (bandLatch joined s) s := by
  unfold bandLatch
  try dsimp only
  repeat' (first
    | with_reducible apply only_refl | (with_reducible apply only_step (bandEnd_only ..); decide)
    | (with_reducible apply only_step (later_only ..); decide) | split)

theorem applyDim_only (late : Vector Bool 4) (w : CfgWrite) (s : State) : Only [.heads] (applyDim late w s) s := by
  unfold applyDim
  try dsimp only
  repeat' (first
    | with_reducible apply only_refl | (with_reducible apply only_step (only_onHead ..); decide) | split)

theorem tellReached_only (hs : List Head) (g : Nat) (s : State) : Only [.com] (tellReached hs g s) s := by
  unfold tellReached
  try dsimp only
  repeat' (first
    | with_reducible apply only_refl | (with_reducible apply only_step (later_only ..); decide) | split)

theorem stepRamps_only (late : Vector Bool 4) (s : State) : Only [.com, .heads] (stepRamps late s) s := by
  unfold stepRamps
  try dsimp only
  repeat' (first
    | with_reducible apply only_refl | (with_reducible apply only_step (only_onHead ..); decide)
    | (with_reducible apply only_step (tellReached_only ..); decide)
    | (with_reducible apply only_step (only_forEach _ _ (fun _ _ => only_onHead ..) _); decide)
    | (with_reducible apply only_step (only_forEach _ _ (fun _ _ => tellReached_only ..) _); decide)
    | with_reducible apply only_forEach_step | intro x s | split)

theorem turnScanner_only (h : Head) (s : State) : Only [.rasters, .out] (turnScanner h s) s := by
  unfold turnScanner
  try dsimp only
  repeat' (first
    | with_reducible apply only_refl | (with_reducible apply only_step (only_onRaster ..); decide)
    | (with_reducible apply only_step (only_emit ..); decide) | (with_reducible apply only_step (acquire_only ..); decide)
    | (with_reducible apply only_step (drive_only ..); decide) | (with_reducible apply only_step (steer_only ..); decide) | split)

theorem tableApplied_only (p : CfgWrite × Bool) (s : State) : Only [.rasters] (tableApplied p s) s := by
  unfold tableApplied
  try dsimp only
  repeat' (first
    | with_reducible apply only_refl | (with_reducible apply only_step (only_onRaster ..); decide) | split)

theorem chanTo_only (n : Chan) (st : Nat) (f : ChanDyn → ChanDyn) (s : State) : Only [.com, .chans] (chanTo n st f s) s := by
  unfold chanTo
  try dsimp only
  repeat' (first
    | with_reducible apply only_refl | (with_reducible apply only_step (only_onChan ..); decide)
    | (with_reducible apply only_step (later_only ..); decide) | split)

theorem turnChan_only (ws : List (CfgWrite × Bool)) (n : Chan) (s : State) : Only [.com, .chans] (turnChan ws n s) s := by
  unfold turnChan
  try dsimp only
  repeat' (first
    | with_reducible apply only_refl | (with_reducible apply only_step (chanTo_only ..); decide) | rw [id_eq] | split)

theorem stepHead_only (h : Head) (s : State) : Only [.heads, .chans, .loops] (stepHead h s) s := by
  unfold stepHead
  try extract_lets
  repeat' (first
    | with_reducible apply only_refl | (with_reducible apply only_step (stepColour_only ..); decide)
    | (with_reducible apply only_step (stepTargets_only ..); decide)
    | (with_reducible apply only_step (only_forEach _ _ (fun _ _ => stepColour_only ..) _); decide)
    | (with_reducible apply only_step (only_forEach _ _ (fun _ _ => stepTargets_only ..) _); decide)
    | with_reducible apply only_forEach_step | intro x s | with_reducible apply only_ite | extract_lets | split)

theorem turnGain_only (i : Fin 8) (s : State) : Only [.oss] (turnGain i s) s := by
  unfold turnGain
  try dsimp only
  repeat' (first
    | with_reducible apply only_refl | (with_reducible apply only_step (only_onOs ..); decide) | split)

theorem turnLight_only (ws : List (CfgWrite × Bool)) (s : State) : Only [.com, .heads, .chans, .loops, .oss] (turnLight ws s) s
    := by
  unfold turnLight
  try extract_lets
  repeat' (first
    | with_reducible apply only_refl | (with_reducible apply only_step (only_onHead ..); decide)
    | (with_reducible apply only_step (setRef_only ..); decide) | (with_reducible apply only_step (stepHead_only ..); decide)
    | (with_reducible apply only_step (turnChan_only ..); decide) | (with_reducible apply only_step (turnGain_only ..); decide)
    | (with_reducible apply only_step (only_forEach _ _ (fun _ _ => only_onHead ..) _); decide)
    | (with_reducible apply only_step (only_forEach _ _ (fun _ _ => setRef_only ..) _); decide)
    | (with_reducible apply only_step (only_forEach _ _ (fun _ _ => stepHead_only ..) _); decide)
    | (with_reducible apply only_step (only_forEach _ _ (fun _ _ => turnChan_only ..) _); decide)
    | (with_reducible apply only_step (only_forEach _ _ (fun _ _ => turnGain_only ..) _); decide)
    | with_reducible apply only_forEach_step | intro x s | with_reducible apply only_ite | extract_lets | split)

theorem onNodes_only (i : Fin 4) (f : Nat → Node → Node) (s : State) : Only [.lines] (onNodes i f s) s := by
  unfold onNodes
  try dsimp only
  repeat' (first
    | with_reducible apply only_refl | (with_reducible apply only_step (only_onLine ..); decide) | split)

theorem applyLamp_only (safe : Bool) (w : CfgWrite) (s : State) : Only [.lines] (applyLamp safe w s) s := by
  unfold applyLamp
  try dsimp only
  repeat' (first
    | with_reducible apply only_refl | (with_reducible apply only_step (only_onLine ..); decide)
    | (with_reducible apply only_step (onNodes_only ..); decide) | split)

theorem fadeLine_only (safe : Bool) (i : Fin 4) (s : State) : Only [.lines] (fadeLine safe i s) s := by
  unfold fadeLine
  try dsimp only
  repeat' (first
    | with_reducible apply only_refl | (with_reducible apply only_step (only_onLine ..); decide)
    | (with_reducible apply only_step (onNodes_only ..); decide) | split)

theorem relight_only (i : Fin 4) (s : State) : Only [.lines] (relight i s) s := by
  unfold relight
  try dsimp only
  repeat' (first
    | with_reducible apply only_refl | (with_reducible apply only_step (only_onLine ..); decide)
    | (with_reducible apply only_step (onNodes_only ..); decide) | split)

theorem tellFades_only (i : Fin 4) (s : State) : Only [.com, .lines] (tellFades i s) s := by
  unfold tellFades
  try dsimp only
  repeat' (first
    | with_reducible apply only_refl | (with_reducible apply only_step (only_onLine ..); decide)
    | (with_reducible apply only_step (later_only ..); decide) | split)

theorem fitLine_only (i : Fin 4) (s : State) : Only [.com, .lines] (fitLine i s) s := by
  unfold fitLine
  try dsimp only
  repeat' (first
    | with_reducible apply only_refl | (with_reducible apply only_step (only_onLine ..); decide)
    | (with_reducible apply only_step (later_only ..); decide) | split)

theorem turnLamps_only (left : Bool) (ws : List CfgWrite) (s : State) : Only [.com, .lines] (turnLamps left ws s) s := by
  unfold turnLamps
  try extract_lets
  repeat' (first
    | with_reducible apply only_refl | (with_reducible apply only_step (applyLamp_only ..); decide)
    | (with_reducible apply only_step (fadeLine_only ..); decide) | (with_reducible apply only_step (fitLine_only ..); decide)
    | (with_reducible apply only_step (relight_only ..); decide) | (with_reducible apply only_step (tellFades_only ..); decide)
    | (with_reducible apply only_step (only_forEach _ _ (fun _ _ => applyLamp_only ..) _); decide)
    | (with_reducible apply only_step (only_forEach _ _ (fun _ _ => fadeLine_only ..) _); decide)
    | (with_reducible apply only_step (only_forEach _ _ (fun _ _ => fitLine_only ..) _); decide)
    | (with_reducible apply only_step (only_forEach _ _ (fun _ _ => relight_only ..) _); decide)
    | (with_reducible apply only_step (only_forEach _ _ (fun _ _ => tellFades_only ..) _); decide)
    | with_reducible apply only_forEach_step | intro x s | with_reducible apply only_ite | extract_lets | split)

theorem sendLine_only (i : Fin 4) (s : State) : Only [.out] (sendLine i s) s := by
  unfold sendLine
  try dsimp only
  repeat' (first
    | with_reducible apply only_refl | (with_reducible apply only_step (only_emit ..); decide) | split)

theorem tellApplied_only (done : List Applying) (word : Option Nat) (s : State) : Only [.com] (tellApplied done word s) s := by
  unfold tellApplied
  try dsimp only
  repeat' (first
    | with_reducible apply only_refl | (with_reducible apply only_step (later_only ..); decide)
    | (with_reducible apply only_step (only_forEach _ _ (fun _ _ => later_only ..) _); decide)
    | with_reducible apply only_forEach_step | intro x s | split)

theorem turnCal_only (s : State) : Only [.com, .therm, .cal] (turnCal s) s := by
  unfold turnCal
  extract_lets x y
  have h : Only [.com, .therm, .cal] x.1 s := by
    have e : x = match s.cal.abort with
      | some r => abortWord r s
      | none => (s, none) := rfl
    rw [e]
    split
    · exact only_mono (abortWord_only ..) (by decide)
    · exact only_refl _ _
  exact only_step (calWatch_only ..) (by decide) (only_step (tellApplied_only ..) (by decide) (only_step (applyLatch_only ..) (by decide)
    (only_step (tellApplied_only ..) (by decide) h)))

theorem turnVid_only (s : State) : Only [.power, .out] (turnVid s) s := by
  unfold turnVid
  try dsimp only
  repeat' (first
    | with_reducible apply only_refl | (with_reducible apply only_step (selectVid_only ..); decide) | split)

theorem turnVote_only (old : Cfg) (s : State) : Only [.cw, .out] (turnVote old s) s := by
  unfold turnVote
  try dsimp only
  repeat' (first
    | with_reducible apply only_refl | (with_reducible apply only_step (only_onCw ..); decide)
    | (with_reducible apply only_step (sendVote_only ..); decide) | split)

theorem heldAtStart_only (s : State) : Only [.clk, .cw, .out] (heldAtStart s) s := by
  unfold heldAtStart
  try dsimp only
  repeat' (first
    | with_reducible apply only_refl | (with_reducible apply only_step (markValid_only ..); decide)
    | (with_reducible apply only_step (noteValid_only ..); decide) | split)

theorem turnRelay_only (old : Cfg) (s : State) : Only [.chans, .safety, .cxl, .ev, .cw, .out] (turnRelay old s) s := by
  unfold turnRelay
  try dsimp only
  repeat' (first
    | with_reducible apply only_refl | (with_reducible apply only_step (dropRelayed_only ..); decide)
    | (with_reducible apply only_step (restartRelay_only ..); decide)
    | (with_reducible apply only_step (updateObs_only ..); decide) | split)

theorem modeWrites_only (s : State) : Only [.cw] ((modeWrites s).2) s := by
  unfold modeWrites
  try dsimp only
  repeat' (first
    | with_reducible apply only_refl | (with_reducible apply only_step (only_onCw ..); decide) | split)

theorem turnTmin_only (s : State) : Only [.clk] (turnTmin s) s := by
  unfold turnTmin
  try dsimp only
  repeat' (first
    | with_reducible apply only_refl | (with_reducible apply only_step (only_onClk ..); decide) | split)

theorem tellFlip_only (s : State) : Only [.com] (tellFlip s) s := by
  unfold tellFlip
  try dsimp only
  repeat' (first
    | with_reducible apply only_refl | (with_reducible apply only_step (later_only ..); decide) | split)

theorem tellUnderruns_only (cs : Vector Content 4) (s : State) : Only [.com] (tellUnderruns cs s) s := by
  unfold tellUnderruns
  try dsimp only
  repeat' (first
    | with_reducible apply only_refl | (with_reducible apply only_step (later_only ..); decide)
    | (with_reducible apply only_step (only_forEach _ _ (fun _ _ => later_only ..) _); decide)
    | with_reducible apply only_forEach_step | intro x s | split)

theorem tellTelltale_only (wrote : Bool) (s : State) : Only [.com] (tellTelltale wrote s) s := by
  unfold tellTelltale
  try dsimp only
  repeat' (first
    | with_reducible apply only_refl | (with_reducible apply only_step (later_only ..); decide) | split)

theorem latchHeads_only (i : LatchInfo) (s : State) : Only [.clk, .com, .heads, .rasters, .chans, .loops, .oss, .lines, .out,
    .free] (latchHeads i s) s := by
  unfold latchHeads
  try extract_lets
  repeat' (first
    | with_reducible apply only_refl | (with_reducible apply only_step (applyDim_only ..); decide)
    | (with_reducible apply only_step (judgePlan_only ..); decide) | (with_reducible apply only_step (retrace_only ..); decide)
    | (with_reducible apply only_step (stepRamps_only ..); decide)
    | (with_reducible apply only_step (tableApplied_only ..); decide)
    | (with_reducible apply only_step (tellDuty_only ..); decide) | (with_reducible apply only_step (tellFlip_only ..); decide)
    | (with_reducible apply only_step (tellRange_only ..); decide) | (with_reducible apply only_step (tellTiming_only ..); decide)
    | (with_reducible apply only_step (tellTransition_only ..); decide)
    | (with_reducible apply only_step (tellUnderruns_only ..); decide)
    | (with_reducible apply only_step (turnHeads_only ..); decide) | (with_reducible apply only_step (turnLamps_only ..); decide)
    | (with_reducible apply only_step (turnLight_only ..); decide)
    | (with_reducible apply only_step (turnScanner_only ..); decide) | (with_reducible apply only_step (turnTmin_only ..); decide)
    | (with_reducible apply only_step (only_forEach _ _ (fun _ _ => applyDim_only ..) _); decide)
    | (with_reducible apply only_step (only_forEach _ _ (fun _ _ => judgePlan_only ..) _); decide)
    | (with_reducible apply only_step (only_forEach _ _ (fun _ _ => retrace_only ..) _); decide)
    | (with_reducible apply only_step (only_forEach _ _ (fun _ _ => stepRamps_only ..) _); decide)
    | (with_reducible apply only_step (only_forEach _ _ (fun _ _ => tableApplied_only ..) _); decide)
    | (with_reducible apply only_step (only_forEach _ _ (fun _ _ => tellDuty_only ..) _); decide)
    | (with_reducible apply only_step (only_forEach _ _ (fun _ _ => tellFlip_only ..) _); decide)
    | (with_reducible apply only_step (only_forEach _ _ (fun _ _ => tellRange_only ..) _); decide)
    | (with_reducible apply only_step (only_forEach _ _ (fun _ _ => tellTiming_only ..) _); decide)
    | (with_reducible apply only_step (only_forEach _ _ (fun _ _ => tellTransition_only ..) _); decide)
    | (with_reducible apply only_step (only_forEach _ _ (fun _ _ => tellUnderruns_only ..) _); decide)
    | (with_reducible apply only_step (only_forEach _ _ (fun _ _ => turnHeads_only ..) _); decide)
    | (with_reducible apply only_step (only_forEach _ _ (fun _ _ => turnLamps_only ..) _); decide)
    | (with_reducible apply only_step (only_forEach _ _ (fun _ _ => turnLight_only ..) _); decide)
    | (with_reducible apply only_step (only_forEach _ _ (fun _ _ => turnScanner_only ..) _); decide)
    | (with_reducible apply only_step (only_forEach _ _ (fun _ _ => turnTmin_only ..) _); decide)
    | with_reducible apply only_forEach_step | intro x s | with_reducible apply only_ite | extract_lets | split)

theorem latchRest_only (i : LatchInfo) (s : State) : Only [.clk, .com, .heads, .links, .chans, .therm, .safety, .cxl, .ev,
    .power, .cal, .cw, .out] (latchRest i s) s := by
  unfold latchRest
  try extract_lets
  repeat' (first
    | with_reducible apply only_refl | (with_reducible apply only_step (applyLayouts_only ..); decide)
    | (with_reducible apply only_step (heldAtStart_only ..); decide) | (with_reducible apply only_step (judge_only ..); decide)
    | (with_reducible apply only_step (later_only ..); decide) | (with_reducible apply only_step (onPort_only ..); decide)
    | (with_reducible apply only_step (sendTiming_only ..); decide)
    | (with_reducible apply only_step (stageLayouts_only ..); decide)
    | (with_reducible apply only_step (tellTelltale_only ..); decide) | (with_reducible apply only_step (turnCal_only ..); decide)
    | (with_reducible apply only_step (turnLit_only ..); decide) | (with_reducible apply only_step (turnRelay_only ..); decide)
    | (with_reducible apply only_step (turnVid_only ..); decide) | (with_reducible apply only_step (turnVote_only ..); decide)
    | (with_reducible apply only_step (only_forEach _ _ (fun _ _ => applyLayouts_only ..) _); decide)
    | (with_reducible apply only_step (only_forEach _ _ (fun _ _ => heldAtStart_only ..) _); decide)
    | (with_reducible apply only_step (only_forEach _ _ (fun _ _ => judge_only ..) _); decide)
    | (with_reducible apply only_step (only_forEach _ _ (fun _ _ => later_only ..) _); decide)
    | (with_reducible apply only_step (only_forEach _ _ (fun _ _ => onPort_only ..) _); decide)
    | (with_reducible apply only_step (only_forEach _ _ (fun _ _ => sendTiming_only ..) _); decide)
    | (with_reducible apply only_step (only_forEach _ _ (fun _ _ => stageLayouts_only ..) _); decide)
    | (with_reducible apply only_step (only_forEach _ _ (fun _ _ => tellTelltale_only ..) _); decide)
    | (with_reducible apply only_step (only_forEach _ _ (fun _ _ => turnCal_only ..) _); decide)
    | (with_reducible apply only_step (only_forEach _ _ (fun _ _ => turnLit_only ..) _); decide)
    | (with_reducible apply only_step (only_forEach _ _ (fun _ _ => turnRelay_only ..) _); decide)
    | (with_reducible apply only_step (only_forEach _ _ (fun _ _ => turnVid_only ..) _); decide)
    | (with_reducible apply only_step (only_forEach _ _ (fun _ _ => turnVote_only ..) _); decide)
    | with_reducible apply only_forEach_step | intro x s | with_reducible apply only_ite | extract_lets | split)

theorem latchAll_only (joined : Bool) (lv : List CfgWrite) (held : List CfgWrite) (s : State) : Only [.clk, .cfg, .pendLv,
    .com, .heads, .links, .rasters, .chans, .loops, .oss, .lines, .therm, .safety, .cxl, .ev, .power, .cal, .cw, .out, .free]
    (latchAll joined lv held s) s := by
  unfold latchAll
  try extract_lets
  repeat' (first
    | with_reducible apply only_refl | (with_reducible apply only_step (only_onPendLv ..); decide)
    | (with_reducible apply only_step (applyAll_only ..); decide) | (with_reducible apply only_step (bandLatch_only ..); decide)
    | (with_reducible apply only_step (latchHeads_only ..); decide) | (with_reducible apply only_step (latchRest_only ..); decide)
    | (with_reducible apply only_step (modeWrites_only ..); decide)
    | (with_reducible apply only_step (orderLatch_only ..); decide) | (with_reducible apply only_step (runLatchQ_only ..); decide)
    | (with_reducible apply only_step (tableEvent_only ..); decide) | (with_reducible apply only_step (transOver_only ..); decide)
    | (with_reducible apply only_step (transStart_only ..); decide)
    | (with_reducible apply only_step (turnSafety_only ..); decide)
    | (with_reducible apply only_step (turnTimeout_only ..); decide)
    | (with_reducible apply only_step (only_forEach _ _ (fun _ _ => only_onPendLv ..) _); decide)
    | (with_reducible apply only_step (only_forEach _ _ (fun _ _ => applyAll_only ..) _); decide)
    | (with_reducible apply only_step (only_forEach _ _ (fun _ _ => bandLatch_only ..) _); decide)
    | (with_reducible apply only_step (only_forEach _ _ (fun _ _ => latchHeads_only ..) _); decide)
    | (with_reducible apply only_step (only_forEach _ _ (fun _ _ => latchRest_only ..) _); decide)
    | (with_reducible apply only_step (only_forEach _ _ (fun _ _ => modeWrites_only ..) _); decide)
    | (with_reducible apply only_step (only_forEach _ _ (fun _ _ => orderLatch_only ..) _); decide)
    | (with_reducible apply only_step (only_forEach _ _ (fun _ _ => runLatchQ_only ..) _); decide)
    | (with_reducible apply only_step (only_forEach _ _ (fun _ _ => tableEvent_only ..) _); decide)
    | (with_reducible apply only_step (only_forEach _ _ (fun _ _ => transOver_only ..) _); decide)
    | (with_reducible apply only_step (only_forEach _ _ (fun _ _ => transStart_only ..) _); decide)
    | (with_reducible apply only_step (only_forEach _ _ (fun _ _ => turnSafety_only ..) _); decide)
    | (with_reducible apply only_step (only_forEach _ _ (fun _ _ => turnTimeout_only ..) _); decide)
    | with_reducible apply only_forEach_step | intro x s | with_reducible apply only_ite | extract_lets | split)

theorem boundaryFaults_only (ok : Bool) (crc : BitVec 32) (s : State) : Only [.chans, .safety, .cxl, .ev, .out] (boundaryFaults
    ok crc s) s := by
  unfold boundaryFaults
  try dsimp only
  repeat' (first
    | with_reducible apply only_refl | (with_reducible apply only_step (safetyFault_only ..); decide) | split)

theorem boundaryAt_only (b : Nat) (c : TickCheck) (crc : BitVec 32) (s : State) : Only [.clk, .cfg, .pendLv, .openSet, .com,
    .comp, .heads, .links, .rasters, .chans, .loops, .oss, .lines, .sluice, .therm, .safety, .cxl, .queues, .ev, .boot, .power,
    .otp, .cal, .flash, .upd, .cw, .jtag, .bar2, .mirrorGen, .out, .free] (boundaryAt b c crc s) s := by
  unfold boundaryAt
  try extract_lets
  repeat' (first
    | with_reducible apply only_refl | (with_reducible apply only_step (beginTick_only ..); decide)
    | (with_reducible apply only_step (boundaryFaults_only ..); decide)
    | (with_reducible apply only_step (latchAll_only ..); decide) | (with_reducible apply only_step (reach_only ..); decide)
    | (with_reducible apply only_step (stopFences_only ..); decide) | (with_reducible apply only_step (warmReset_only ..); decide)
    | with_reducible apply only_ite | extract_lets | split)

theorem tickBoundary_only (c : TickCheck) (crc : BitVec 32) (s : State) : Only [.clk, .cfg, .pendLv, .openSet, .com, .comp,
    .heads, .links, .rasters, .chans, .loops, .oss, .lines, .sluice, .therm, .safety, .cxl, .queues, .ev, .boot, .power, .otp,
    .cal, .flash, .upd, .cw, .jtag, .bar2, .mirrorGen, .out, .free] (tickBoundary c crc s) s := by
  unfold tickBoundary
  try dsimp only
  repeat' (first
    | with_reducible apply only_refl | (with_reducible apply only_step (boundaryAt_only ..); decide)
    | (with_reducible apply only_step (drainAll_only ..); decide) | split)

theorem startWork_only (m : LatchEnd) (s : State) : Only [.links, .cal, .cw, .out] (startWork m s) s := by
  unfold startWork
  try extract_lets
  repeat' (first
    | with_reducible apply only_refl | (with_reducible apply only_step (only_onCal ..); decide)
    | (with_reducible apply only_step (beginStep_only ..); decide) | (with_reducible apply only_step (sendLine_only ..); decide)
    | (with_reducible apply only_step (startPort_only ..); decide)
    | (with_reducible apply only_step (startTraining_only ..); decide)
    | (with_reducible apply only_step (only_forEach _ _ (fun _ _ => only_onCal ..) _); decide)
    | (with_reducible apply only_step (only_forEach _ _ (fun _ _ => beginStep_only ..) _); decide)
    | (with_reducible apply only_step (only_forEach _ _ (fun _ _ => sendLine_only ..) _); decide)
    | (with_reducible apply only_step (only_forEach _ _ (fun _ _ => startPort_only ..) _); decide)
    | (with_reducible apply only_step (only_forEach _ _ (fun _ _ => startTraining_only ..) _); decide)
    | with_reducible apply only_forEach_step | intro x s | with_reducible apply only_ite | extract_lets | split)

theorem latchEnds_only (m : LatchEnd) (s : State) : Only [.clk, .cfg, .pendLv, .openSet, .com, .links, .chans, .sluice,
    .safety, .cxl, .queues, .ev, .cal, .flash, .upd, .cw, .bar2, .out] (latchEnds m s) s := by
  unfold latchEnds
  try extract_lets
  repeat' (first
    | with_reducible apply only_refl | (with_reducible apply only_step (only_onClk ..); decide)
    | (with_reducible apply only_step (drainAll_only ..); decide) | (with_reducible apply only_step (enterPhases_only ..); decide)
    | (with_reducible apply only_step (raise_only ..); decide) | (with_reducible apply only_step (startWork_only ..); decide)
    | with_reducible apply only_ite | extract_lets | split)

theorem inLatch_only {fs : List Part} {f : State → State} {s : State}
    (hb : holdsAll fs [.com, .chans, .safety, .cxl, .ev, .out] = true) (h : ∀ s, Only fs (f s) s) : Only fs (inLatch f s) s := by
  unfold inLatch
  refine only_ite _ ?_ (only_refl _ _)
  exact ⟨fun x hx => same_trans ((only_mono (f := fs) (g := [.com, .chans, .safety, .cxl, .ev, .out]) (only_step (runLatchQ_only ..) (by decide)
    (only_mono (orderLatch_only ..) (by decide))) hb).same x hx) ((h s).same x hx)⟩

theorem endTransition_only (s : State) : Only [.clk, .com] (endTransition s) s := by
  unfold endTransition
  try dsimp only
  repeat' (first
    | with_reducible apply only_refl | (with_reducible apply only_step (tellTransition_only ..); decide)
    | (with_reducible apply only_step (transOver_only ..); decide) | split)

theorem endApplications_only (s : State) : Only [.com, .therm, .cal] (endApplications s) s := by
  unfold endApplications
  try extract_lets
  repeat' (first
    | with_reducible apply only_refl | (with_reducible apply only_step (applyLatch_only ..); decide)
    | (with_reducible apply only_step (tellApplied_only ..); decide) | with_reducible apply only_ite | extract_lets | split)

theorem aheadHead_only (denied : Head → Bool) (h : Head) (s : State) : Only [.heads] (aheadHead denied h s) s := by
  unfold aheadHead
  try dsimp only
  repeat' (first
    | with_reducible apply only_refl | (with_reducible apply only_step (only_onHead ..); decide)
    | (with_reducible apply only_step (judgePlan_only ..); decide) | split)

theorem withRises_only (grant : Head → Bool) (p : State) : Only [.heads, .chans, .loops] (withRises grant p) p := by
  unfold withRises
  try dsimp only
  repeat' (first
    | with_reducible apply only_refl | (with_reducible apply only_step (only_onChan ..); decide)
    | (with_reducible apply only_step (stepColour_only ..); decide)
    | (with_reducible apply only_step (stepTargets_only ..); decide)
    | (with_reducible apply only_step (only_forEach _ _ (fun _ _ => only_onChan ..) _); decide)
    | (with_reducible apply only_step (only_forEach _ _ (fun _ _ => stepColour_only ..) _); decide)
    | (with_reducible apply only_step (only_forEach _ _ (fun _ _ => stepTargets_only ..) _); decide)
    | with_reducible apply only_forEach_step | intro x s | split)

theorem osJudge_only (m : EndMeas) (i : Fin 8) (s : State) : Only [.oss] ((osJudge m i s).1) s := by
  unfold osJudge
  try dsimp only
  repeat' (first
    | with_reducible apply only_refl | (with_reducible apply only_step (only_onOs ..); decide) | split)

theorem osGains_only (m : EndMeas) (i : Fin 8) (s : State) : Only [.oss] (osGains m i s) s := by
  unfold osGains
  try dsimp only
  repeat' (first
    | with_reducible apply only_refl | (with_reducible apply only_step (only_onOs ..); decide) | split)

theorem quotient_only (a b : Rat) (s : State) : Only [.free] (quotient a b s).2 s := by
  unfold quotient
  split
  · exact only_mono (freeRat_only ..) (by decide)
  · exact only_refl _ _

theorem loopStep_only (h : Head) (k : Colour) (rho : Rat) (s : State) : Only [.loops, .free] (loopStep h k rho s) s := by
  unfold loopStep
  extract_lets l c ref r f inv want
  refine only_step (only_onLoop ..) (by decide) (only_step (quotient_only ..) (by decide) ?_)
  have e : r = if l.relative then quotient rho ref s else (rho, s) := rfl
  rw [e]
  split
  · exact only_mono (quotient_only ..) (by decide)
  · exact only_refl _ _

theorem loopEnd_only (m : EndMeas) (h : Head) (k : Colour) (s : State) : Only [.loops, .free] (loopEnd m h k s) s := by
  unfold loopEnd
  try extract_lets
  repeat' (first
    | with_reducible apply only_refl | (with_reducible apply only_step (only_onLoop ..); decide)
    | (with_reducible apply only_step (loopStep_only ..); decide) | with_reducible apply only_ite | extract_lets | split)

theorem limitEnd_only (p : State) (h : Head) (k : Colour) (s : State) : Only [.chans, .loops, .safety, .cxl, .ev, .out]
    (limitEnd p h k s) s := by
  unfold limitEnd
  try dsimp only
  repeat' (first
    | with_reducible apply only_refl | (with_reducible apply only_step (only_onLoop ..); decide)
    | (with_reducible apply only_step (raise_only ..); decide) | split)

theorem readTemps_only (c : Cfg) (s : State) : Only [.chans, .lines] (readTemps c s) s := by
  unfold readTemps
  try extract_lets
  repeat' (first
    | with_reducible apply only_refl | (with_reducible apply only_step (only_onChan ..); decide)
    | (with_reducible apply only_step (only_onLine ..); decide)
    | (with_reducible apply only_step (only_forEach _ _ (fun _ _ => only_onChan ..) _); decide)
    | (with_reducible apply only_step (only_forEach _ _ (fun _ _ => only_onLine ..) _); decide)
    | with_reducible apply only_forEach_step | intro x s | with_reducible apply only_ite | extract_lets | split)

theorem throttleEnd_only (s : State) : Only [.therm] (throttleEnd s) s := by
  unfold throttleEnd
  try dsimp only
  repeat' (first
    | with_reducible apply only_refl | (with_reducible apply only_step (only_onTherm ..); decide) | split)

theorem sendCap_only (s : State) : Only [.cw, .out] (sendCap s) s := by
  unfold sendCap
  try dsimp only
  repeat' (first
    | with_reducible apply only_refl | (with_reducible apply only_step (only_onCw ..); decide)
    | (with_reducible apply only_step (cwSend_only ..); decide) | split)

theorem tellStep_only (old : ThermDyn) (s : State) : Only [.chans, .safety, .cxl, .ev, .out] (tellStep old s) s := by
  unfold tellStep
  try dsimp only
  repeat' (first
    | with_reducible apply only_refl | (with_reducible apply only_step (raise_only ..); decide) | split)

theorem tellCut_only (dom : Nat) (isCut : Bool) (last : Nat) (q : Rat) (s : State) : Only [.chans, .safety, .cxl, .ev, .out]
    (tellCut dom isCut last q s) s := by
  unfold tellCut
  try dsimp only
  repeat' (first
    | with_reducible apply only_refl | (with_reducible apply only_step (raise_only ..); decide) | split)

theorem tellBelow_only (dom : Nat) (wrote : Bool) (told : Bool) (quota : Nat) (floor_ : Rat) (s : State) : Only [.chans,
    .safety, .cxl, .ev, .out] (tellBelow dom wrote told quota floor_ s) s := by
  unfold tellBelow
  try dsimp only
  repeat' (first
    | with_reducible apply only_refl | (with_reducible apply only_step (raise_only ..); decide) | split)

theorem tellCap_only (d : Decision) (s : State) : Only [.chans, .safety, .cxl, .ev, .out] (tellCap d s) s := by
  unfold tellCap
  try dsimp only
  repeat' (first
    | with_reducible apply only_refl | (with_reducible apply only_step (raise_only ..); decide) | split)

theorem tellDeferred_only (d : Decision) (s : State) : Only [.chans, .sluice, .safety, .cxl, .ev, .out] (tellDeferred d s) s := by
  unfold tellDeferred
  try dsimp only
  repeat' (first
    | with_reducible apply only_refl | (with_reducible apply only_step (only_onSluice ..); decide)
    | (with_reducible apply only_step (raise_only ..); decide)
    | (with_reducible apply only_step (only_forEach _ _ (fun _ _ => only_onSluice ..) _); decide)
    | (with_reducible apply only_step (only_forEach _ _ (fun _ _ => raise_only ..) _); decide)
    | with_reducible apply only_forEach_step | intro x s | split)

theorem tellBand_only (old : Clock) (s : State) : Only [.chans, .safety, .cxl, .ev, .out] (tellBand old s) s := by
  unfold tellBand
  try dsimp only
  repeat' (first
    | with_reducible apply only_refl | (with_reducible apply only_step (raise_only ..); decide) | split)

theorem tellTiles_only (s : State) : Only [.chans, .safety, .cxl, .ev, .out] (tellTiles s) s := by
  unfold tellTiles
  try extract_lets
  repeat' (first
    | with_reducible apply only_refl | (with_reducible apply only_step (raise_only ..); decide)
    | (with_reducible apply only_step (only_forEach _ _ (fun _ _ => raise_only ..) _); decide)
    | with_reducible apply only_forEach_step | intro x s | with_reducible apply only_ite | extract_lets | split)

theorem tellFetch_only (h : Head) (s : State) : Only [.heads, .chans, .safety, .cxl, .ev, .out] (tellFetch h s) s := by
  unfold tellFetch
  try dsimp only
  repeat' (first
    | with_reducible apply only_refl | (with_reducible apply only_step (only_onHead ..); decide)
    | (with_reducible apply only_step (raise_only ..); decide) | split)

theorem tellDim_only (d : Decision) (s : State) : Only [.heads, .chans, .safety, .cxl, .ev, .out] (tellDim d s) s := by
  unfold tellDim
  try extract_lets
  repeat' (first
    | with_reducible apply only_refl | (with_reducible apply only_step (only_onHead ..); decide)
    | (with_reducible apply only_step (raise_only ..); decide)
    | (with_reducible apply only_step (only_forEach _ _ (fun _ _ => only_onHead ..) _); decide)
    | (with_reducible apply only_step (only_forEach _ _ (fun _ _ => raise_only ..) _); decide)
    | with_reducible apply only_forEach_step | intro x s | with_reducible apply only_ite | extract_lets | split)

theorem tellHeld_only (d : Decision) (h : Head) (s : State) : Only [.chans, .loops, .safety, .cxl, .ev, .out] (tellHeld d h s)
    s := by
  unfold tellHeld
  try dsimp only
  repeat' (first
    | with_reducible apply only_refl | (with_reducible apply only_step (only_onLoop ..); decide)
    | (with_reducible apply only_step (raise_only ..); decide)
    | (with_reducible apply only_step (only_forEach _ _ (fun _ _ => only_onLoop ..) _); decide)
    | (with_reducible apply only_step (only_forEach _ _ (fun _ _ => raise_only ..) _); decide)
    | with_reducible apply only_forEach_step | intro x s | split)

theorem tellLink1_only (g : Head) (s : State) : Only [.chans, .safety, .cxl, .ev, .out] (tellLink1 g s) s := by
  unfold tellLink1
  try dsimp only
  repeat' (first
    | with_reducible apply only_refl | (with_reducible apply only_step (raise_only ..); decide) | split)

theorem tellLines_only (h : Head) (s : State) : Only [.chans, .safety, .cxl, .ev, .out] (tellLines h s) s := by
  unfold tellLines
  try dsimp only
  repeat' (first
    | with_reducible apply only_refl | (with_reducible apply only_step (raise_only ..); decide) | split)

theorem calEnd_only (s : State) : Only [.chans, .safety, .cxl, .ev, .cal, .out] (calEnd s) s := by
  unfold calEnd
  try extract_lets
  repeat' (first
    | with_reducible apply only_refl | (with_reducible apply only_step (acceptPart_only ..); decide)
    | (with_reducible apply only_step (endPart_only ..); decide) | (with_reducible apply only_step (rejectPart_only ..); decide)
    | with_reducible apply only_ite | extract_lets | split)

theorem cwEnd_only (p : Port) (s : State) : Only [.chans, .safety, .cxl, .ev, .cw, .out] (cwEnd p s) s := by
  unfold cwEnd
  try dsimp only
  repeat' (first
    | with_reducible apply only_refl | (with_reducible apply only_step (onPort_only ..); decide)
    | (with_reducible apply only_step (raise_only ..); decide) | split)

theorem cwQuality_only (s : State) : Only [.clk, .chans, .safety, .cxl, .queues, .ev, .flash, .upd, .cw, .out] (cwQuality s) s
    := by
  unfold cwQuality
  try dsimp only
  repeat' (first
    | with_reducible apply only_refl | (with_reducible apply only_step (hopEnds_only ..); decide)
    | (with_reducible apply only_step (onPort_only ..); decide) | (with_reducible apply only_step (portStops_only ..); decide)
    | (with_reducible apply only_step (tellPort_only ..); decide)
    | (with_reducible apply only_step (only_forEach _ _ (fun _ _ => hopEnds_only ..) _); decide)
    | (with_reducible apply only_step (only_forEach _ _ (fun _ _ => onPort_only ..) _); decide)
    | (with_reducible apply only_step (only_forEach _ _ (fun _ _ => portStops_only ..) _); decide)
    | (with_reducible apply only_step (only_forEach _ _ (fun _ _ => tellPort_only ..) _); decide)
    | with_reducible apply only_forEach_step | intro x s | split)

theorem linkQuality_only (g : Head) (s : State) : Only [.links, .rasters, .chans, .safety, .cxl, .ev, .out] (linkQuality g s) s
    := by
  unfold linkQuality
  try dsimp only
  repeat' (first
    | with_reducible apply only_refl | (with_reducible apply only_step (only_onLink ..); decide)
    | (with_reducible apply only_step (groupFails_only ..); decide) | split)

theorem activateAt_only (s : State) : Only [.chans, .safety, .cxl, .queues, .ev, .flash, .upd, .cw, .out] (activateAt s) s := by
  unfold activateAt
  try dsimp only
  repeat' (first
    | with_reducible apply only_refl | (with_reducible apply only_step (only_onUpd ..); decide)
    | (with_reducible apply only_step (endJob_only ..); decide)
    | (with_reducible apply only_step (only_forEach _ _ (fun _ _ => only_onUpd ..) _); decide)
    | (with_reducible apply only_step (only_forEach _ _ (fun _ _ => endJob_only ..) _); decide)
    | with_reducible apply only_forEach_step | intro x s | split)

theorem writePreset_only (mv : Nat) (s : State) : Only [.power, .out] (voltageEnd.writePreset mv s) s := by
  unfold voltageEnd.writePreset
  extract_lets i
  exact only_step (smbusWrite_only ..) (by decide) (only_mono (only_onPower ..) (by decide))

theorem voltageEnd_only (s : State) : Only [.power, .out, .free] (voltageEnd s) s := by
  unfold voltageEnd
  extract_lets p want s1 now target
  have h : Only [.power, .out, .free] s1 s := only_mono (only_onFree ..) (by decide)
  split
  · exact only_refl _ _
  · split
    · exact only_ite _ h (only_step (writePreset_only ..) (by decide) (only_step (only_onPower ..) (by decide) h))
    · exact only_ite _ h (only_step (writePreset_only ..) (by decide) h)

theorem modeEnd_only (s : State) : Only [.out] (modeEnd s) s := by
  unfold modeEnd
  try dsimp only
  repeat' (first
    | with_reducible apply only_refl | (with_reducible apply only_step (sendMode_only ..); decide) | split)

theorem applyGrants_only (d : Decision) (s : State) : Only [.heads, .links, .chans, .sluice, .cw] (applyGrants d s) s := by
  unfold applyGrants
  try extract_lets
  repeat' (first
    | with_reducible apply only_refl | (with_reducible apply only_step (only_onHead ..); decide)
    | (with_reducible apply only_step (only_onLink ..); decide) | (with_reducible apply only_step (only_onChan ..); decide)
    | (with_reducible apply only_step (only_onSluice ..); decide) | (with_reducible apply only_step (onPort_only ..); decide)
    | (with_reducible apply only_step (only_forEach _ _ (fun _ _ => only_onHead ..) _); decide)
    | (with_reducible apply only_step (only_forEach _ _ (fun _ _ => only_onLink ..) _); decide)
    | (with_reducible apply only_step (only_forEach _ _ (fun _ _ => only_onChan ..) _); decide)
    | (with_reducible apply only_step (only_forEach _ _ (fun _ _ => only_onSluice ..) _); decide)
    | (with_reducible apply only_step (only_forEach _ _ (fun _ _ => onPort_only ..) _); decide)
    | with_reducible apply only_forEach_step | intro x s | with_reducible apply only_ite | extract_lets | split)

theorem noteDecision_only (d : Decision) (s : State) : Only [.sluice] (noteDecision d s) s := by
  unfold noteDecision
  try dsimp only
  repeat' (first
    | with_reducible apply only_refl | (with_reducible apply only_step (only_onSluice ..); decide) | split)

theorem prepare_only (m : EndMeas) (s : State) : Only [.clk, .chans, .loops, .oss, .lines, .therm, .boot, .free] (prepare m
    s).1 s := by
  unfold prepare
  extract_lets s1 c s2 s3 y s4
  have h3 : Only [.clk, .chans, .loops, .oss, .lines, .therm, .boot, .free] s3 s := only_step (readTemps_only ..) (by decide) (only_step (only_onClk ..) (by decide)
    (only_step (bandEnd_only ..) (by decide) (only_step (throttleEnd_only ..) (by decide) (only_mono (only_onBoot ..) (by decide)))))
  have hf : ∀ (l : List (Fin 8)) (a : State × List (Fin 8 × Nat)), Only [.clk, .chans, .loops, .oss, .lines, .therm, .boot, .free] a.1 s →
      Only [.clk, .chans, .loops, .oss, .lines, .therm, .boot, .free] (l.foldl (fun (a : State × List (Fin 8 × Nat)) i =>
        let z := osJudge m i a.1
        (z.1, a.2 ++ z.2.map fun k => (i, k))) a).1 s := by
    intro l
    induction l with
    | nil => exact fun a h => h
    | cons i l ih => exact fun a h => ih _ (only_step (osJudge_only ..) (by decide) h)
  exact only_step (only_forEach _ _ (fun _ _ => osGains_only ..) _) (by decide)
    (only_step (only_forEach _ _ (fun _ _ => only_forEach _ _ (fun _ _ => loopEnd_only ..) _) _) (by decide) (hf _ _ h3))

theorem tellEnd_only (old : State) (d : Decision) (s : State) : Only [.heads, .chans, .loops, .sluice, .safety, .cxl, .ev,
    .cal, .cw, .out] (tellEnd old d s) s := by
  unfold tellEnd
  try extract_lets
  repeat' (first
    | with_reducible apply only_refl | (with_reducible apply only_step (calEnd_only ..); decide)
    | (with_reducible apply only_step (cwEnd_only ..); decide) | (with_reducible apply only_step (tellBand_only ..); decide)
    | (with_reducible apply only_step (tellBelow_only ..); decide) | (with_reducible apply only_step (tellCap_only ..); decide)
    | (with_reducible apply only_step (tellCut_only ..); decide) | (with_reducible apply only_step (tellDeferred_only ..); decide)
    | (with_reducible apply only_step (tellDim_only ..); decide) | (with_reducible apply only_step (tellFetch_only ..); decide)
    | (with_reducible apply only_step (tellHeld_only ..); decide) | (with_reducible apply only_step (tellLines_only ..); decide)
    | (with_reducible apply only_step (tellLink1_only ..); decide) | (with_reducible apply only_step (tellStep_only ..); decide)
    | (with_reducible apply only_step (tellTiles_only ..); decide)
    | (with_reducible apply only_step (only_forEach _ _ (fun _ _ => calEnd_only ..) _); decide)
    | (with_reducible apply only_step (only_forEach _ _ (fun _ _ => cwEnd_only ..) _); decide)
    | (with_reducible apply only_step (only_forEach _ _ (fun _ _ => tellBand_only ..) _); decide)
    | (with_reducible apply only_step (only_forEach _ _ (fun _ _ => tellBelow_only ..) _); decide)
    | (with_reducible apply only_step (only_forEach _ _ (fun _ _ => tellCap_only ..) _); decide)
    | (with_reducible apply only_step (only_forEach _ _ (fun _ _ => tellCut_only ..) _); decide)
    | (with_reducible apply only_step (only_forEach _ _ (fun _ _ => tellDeferred_only ..) _); decide)
    | (with_reducible apply only_step (only_forEach _ _ (fun _ _ => tellDim_only ..) _); decide)
    | (with_reducible apply only_step (only_forEach _ _ (fun _ _ => tellFetch_only ..) _); decide)
    | (with_reducible apply only_step (only_forEach _ _ (fun _ _ => tellHeld_only ..) _); decide)
    | (with_reducible apply only_step (only_forEach _ _ (fun _ _ => tellLines_only ..) _); decide)
    | (with_reducible apply only_step (only_forEach _ _ (fun _ _ => tellLink1_only ..) _); decide)
    | (with_reducible apply only_step (only_forEach _ _ (fun _ _ => tellStep_only ..) _); decide)
    | (with_reducible apply only_step (only_forEach _ _ (fun _ _ => tellTiles_only ..) _); decide)
    | with_reducible apply only_forEach_step | intro x s | with_reducible apply only_ite | extract_lets | split)

theorem tellRest_only (d : Decision) (faults : List (Fin 8 × Nat)) (s : State) : Only [.clk, .links, .rasters, .chans, .loops,
    .safety, .cxl, .queues, .ev, .flash, .upd, .cw, .out] (tellRest d faults s) s := by
  unfold tellRest
  try extract_lets
  repeat' (first
    | with_reducible apply only_refl | (with_reducible apply only_step (activateAt_only ..); decide)
    | (with_reducible apply only_step (cwQuality_only ..); decide) | (with_reducible apply only_step (limitEnd_only ..); decide)
    | (with_reducible apply only_step (linkQuality_only ..); decide) | (with_reducible apply only_step (raise_only ..); decide)
    | (with_reducible apply only_step (tellErrors_only ..); decide)
    | (with_reducible apply only_step (only_forEach _ _ (fun _ _ => activateAt_only ..) _); decide)
    | (with_reducible apply only_step (only_forEach _ _ (fun _ _ => cwQuality_only ..) _); decide)
    | (with_reducible apply only_step (only_forEach _ _ (fun _ _ => limitEnd_only ..) _); decide)
    | (with_reducible apply only_step (only_forEach _ _ (fun _ _ => linkQuality_only ..) _); decide)
    | (with_reducible apply only_step (only_forEach _ _ (fun _ _ => raise_only ..) _); decide)
    | (with_reducible apply only_step (only_forEach _ _ (fun _ _ => tellErrors_only ..) _); decide)
    | with_reducible apply only_forEach_step | intro x s | with_reducible apply only_ite | extract_lets | split)

theorem endAt_only (m : EndMeas) (s : State) : Only [.clk, .cfg, .pendLv, .openSet, .com, .heads, .links, .rasters, .chans,
    .loops, .oss, .lines, .sluice, .therm, .safety, .cxl, .queues, .ev, .boot, .power, .cal, .flash, .upd, .cw, .bar2,
    .mirrorGen, .out, .free] (endAt m s) s := by
  unfold endAt
  try extract_lets
  repeat' (first
    | with_reducible apply only_refl | (with_reducible apply only_step (only_onClk ..); decide)
    | (with_reducible apply only_step (only_onCal ..); decide) | (with_reducible apply only_step (applyGrants_only ..); decide)
    | (with_reducible apply only_step (drainAll_only ..); decide) | (with_reducible apply only_step (modeEnd_only ..); decide)
    | (with_reducible apply only_step (noteDecision_only ..); decide) | (with_reducible apply only_step (prepare_only ..); decide)
    | (with_reducible apply only_step (retryFences_only ..); decide) | (with_reducible apply only_step (sendCap_only ..); decide)
    | (with_reducible apply only_step (tellEnd_only ..); decide) | (with_reducible apply only_step (tellRest_only ..); decide)
    | (with_reducible apply only_step (voltageEnd_only ..); decide)
    | (with_reducible apply only_step (writeMirrors_only ..); decide) | with_reducible apply only_ite | extract_lets | split)

theorem tickEnd_only (m : EndMeas) (s : State) : Only [.clk, .cfg, .pendLv, .openSet, .com, .heads, .links, .rasters, .chans,
    .loops, .oss, .lines, .sluice, .therm, .safety, .cxl, .queues, .ev, .boot, .power, .cal, .flash, .upd, .cw, .bar2, .planes,
    .mirrorGen, .out, .free] (tickEnd m s) s := by
  unfold tickEnd
  try extract_lets
  repeat' (first
    | with_reducible apply only_refl | (with_reducible apply only_step (commitCutoff_only ..); decide)
    | (with_reducible apply only_step (endAt_only ..); decide) | (with_reducible apply only_step (reach_only ..); decide)
    | with_reducible apply only_ite | extract_lets | split)

end Sys2Proof.Machine
end

