-- ==== Sys2Proof/Laws/Mailbox.lean ====
section
/-! SUPPORT. What the shared operations of the mailbox do: how a submitted descriptor is fetched, executes and completes. -/

namespace Sys2Proof.Machine

set_option linter.all false

/-! ## Vectors with one part updated -/

theorem upd_get_self {α : Type} {n : Nat} (v : Vector α n) (i : Fin n) (f : α → α) : (upd v i f)[i] = f v[i] := by
  simp [upd]

@[simp] theorem upd_get_val {α : Type} {n : Nat} (v : Vector α n) (i : Fin n) (f : α → α) :
    (upd v i f)[i.val] = f v[i.val] := by
  simp [upd]

theorem upd_get_ne {α : Type} {n : Nat} (v : Vector α n) {i j : Fin n} (f : α → α) (h : j ≠ i) : (upd v i f)[j] = v[j] := by
  have : (i : Nat) ≠ (j : Nat) := fun e => h (Fin.ext e.symm)
  simp [upd, Vector.getElem_set_ne, this]

theorem upd_upd {α : Type} {n : Nat} (v : Vector α n) (i : Fin n) (f g : α → α) :
    upd (upd v i f) i g = upd v i (fun x => g (f x)) := by
  simp [upd]

theorem onQueue_onQueue (q : Fin 4) (f g : QueueDyn → QueueDyn) (s : State) :
    onQueue q g (onQueue q f s) = onQueue q (fun x => g (f x)) s := by
  simp [onQueue, upd_upd]

/-! ## The close of a command -/

theorem agrees_refl (s : State) : Agrees s s := rfl

theorem agrees_trans {a b c : State} (h : Agrees a b) (k : Agrees b c) : Agrees a c := by
  unfold Agrees at *
  rw [h, k]

theorem signal_agrees (v : Fin 64) (s : State) : Agrees (signal v s) s ∧ (signal v s).queues = s.queues := by
  unfold signal
  split <;> exact ⟨rfl, rfl⟩

/-- The close of a command touches the CXL port and the output alone. -/
theorem settle_agrees (s : State) : Agrees (settle s) s ∧ (settle s).queues = s.queues := by
  simp only [settle]
  split
  · exact ⟨rfl, rfl⟩
  · have h := signal_agrees 5 (onCxl (fun c => { c with summary := summaryWord s }) s)
    exact ⟨agrees_trans h.1 rfl, h.2.trans rfl⟩

/-! ## Completions -/

/-- Writing a completion to the ring touches the queue, the CXL port and the output alone. -/
theorem issueCq_spec {q : Fin 4} {s t : State} (h : issueCq q s = some t) :
    Agrees t s ∧ (∀ p, p ≠ q → t.queues[p] = s.queues[p]) ∧ t.queues[q].sqHead = s.queues[q].sqHead ∧
      t.queues[q].sqTail = s.queues[q].sqTail ∧ t.queues[q].waiting = s.queues[q].waiting ∧
      ∃ f : Completion → Completion, (∀ c, f c = c ∨ f c = { c with issued := true }) ∧
        t.queues[q].journal = s.queues[q].journal.map f := by
  unfold issueCq at h
  simp only at h
  split at h
  · split at h
    · rename_i c _
      cases h
      refine ⟨rfl, ?_, ?_, ?_, ?_, ?_⟩
      · intro p hp; exact upd_get_ne _ _ hp
      · simp
      · simp
      · simp
      · refine ⟨fun e => if e.seq == c.seq then { e with issued := true } else e, ?_, by simp⟩
        intro e
        by_cases he : e.seq == c.seq <;> simp [he]
    · cases h
  · cases h

/-- The same fields of a completion, but whether it has been issued. -/
def sameRecord (a b : Completion) : Prop := a = b ∨ a = { b with issued := true }

theorem sameRecord_trans {a b c : Completion} (h : sameRecord a b) (k : sameRecord b c) : sameRecord a c := by
  rcases h with rfl | rfl <;> rcases k with rfl | rfl <;> simp [sameRecord]

/-- Everything that pumping completions can do. -/
theorem pumpCq_spec (q : Fin 4) (k : Nat) (s : State) :
    Agrees (pumpCq q k s) s ∧ (∀ p, p ≠ q → (pumpCq q k s).queues[p] = s.queues[p]) ∧
      (pumpCq q k s).queues[q].sqHead = s.queues[q].sqHead ∧ (pumpCq q k s).queues[q].sqTail = s.queues[q].sqTail ∧
      (pumpCq q k s).queues[q].waiting = s.queues[q].waiting ∧
      ∃ f : Completion → Completion, (∀ c, sameRecord (f c) c) ∧
        (pumpCq q k s).queues[q].journal = s.queues[q].journal.map f := by
  induction k generalizing s with
  | zero => exact ⟨rfl, fun _ _ => rfl, rfl, rfl, rfl, id, fun c => .inl rfl, by simp [pumpCq]⟩
  | succ k ih =>
    cases ht : issueCq q s with
    | some t =>
      simp only [pumpCq, ht]
      obtain ⟨h1, h2, h3, h4, h5, f, hf, h6⟩ := issueCq_spec ht
      obtain ⟨g1, g2, g3, g4, g5, g, hg, g6⟩ := ih t
      refine ⟨agrees_trans g1 h1, fun p hp => (g2 p hp).trans (h2 p hp), g3.trans h3, g4.trans h4, g5.trans h5,
        fun c => g (f c), fun c => sameRecord_trans (hg _) (hf c), ?_⟩
      rw [g6, h6, List.map_map]; rfl
    | none =>
      have e : pumpCq q (k + 1) s = s := by simp [pumpCq, ht]
      rw [e]
      exact ⟨rfl, fun _ _ => rfl, rfl, rfl, rfl, id, fun c => .inl rfl, by simp⟩

/-- The completion that `complete` puts into the journal for a fetched descriptor. -/
def completionOf (x : Deferred) (status : BitVec 16) (result : Nat) (s : State) : Completion :=
  { seq := s.queues[x.queue].count, slot := x.slot, queue := x.queue, status := status, opcode := x.opcode, alive := x.alive
    tag := x.tag, tick := BitVec.ofNat 48 s.clk.tick, phase := BitVec.ofNat 3 s.clk.phase.code
    result := BitVec.ofNat 320 result, delivered := false, issued := false, replay := false }

/-- What the completion of a fetched descriptor does. -/
theorem complete_ring {x : Deferred} {q : Fin 4} (hx : x.queue = q) (hv : x.via = .ring) (status : BitVec 16) (result : Nat) (s : State) :
    Agrees (complete x status result s) s ∧ (∀ p, p ≠ q → (complete x status result s).queues[p] = s.queues[p]) ∧
      (complete x status result s).queues[q].sqHead = s.queues[q].sqHead ∧
      (complete x status result s).queues[q].sqTail = s.queues[q].sqTail ∧
      (complete x status result s).queues[q].waiting = s.queues[q].waiting ∧
      ∃ c, newest q (complete x status result s) = some c ∧ sameRecord c (completionOf x status result s) := by
  subst hx
  obtain ⟨s1, hs1⟩ : ∃ s1, s1 = onQueue x.queue (fun y => { y with
    count := y.count + 1, journal := (completionOf x status result s :: y.journal).take 16 }) s := ⟨_, rfl⟩
  have e : complete x status result s = pumpCq x.queue 16 s1 := by
    rw [hs1]; simp [complete, hv, completionOf]
  rw [e]
  obtain ⟨h1, h2, h3, h4, h5, f, hf, h6⟩ := pumpCq_spec x.queue 16 s1
  have hq : s1.queues[x.queue].journal = (completionOf x status result s :: s.queues[x.queue].journal).take 16 := by
    subst hs1
    simp [completionOf]
  refine ⟨?_, ?_, ?_, ?_, ?_, ?_⟩
  · refine agrees_trans h1 ?_
    subst hs1; rfl
  · intro p hp
    rw [h2 p hp]; subst hs1
    exact upd_get_ne _ _ hp
  · rw [h3]; subst hs1; simp
  · rw [h4]; subst hs1; simp
  · rw [h5]; subst hs1; simp
  · refine ⟨f (completionOf x status result s), ?_, hf _⟩
    rw [newest, h6, hq]
    simp

/-! ## Fetching -/

/-- An empty queue fetches nothing. -/
theorem fetchOne_empty {q : Fin 4} {s : State} (h : s.queues[q].sqHead = s.queues[q].sqTail) : fetchOne q s = none := by
  simp only [fetchOne, h, bne_self_eq_false, Bool.and_false, Bool.false_and]; rfl

theorem drainFuel_empty {q : Fin 4} {s : State} (k : Nat) (h : s.queues[q].sqHead = s.queues[q].sqTail) :
    drainFuel q k s = s := by
  cases k with
  | zero => rfl
  | succ k => simp [drainFuel, fetchOne_empty h]

/-- The state of a queue's executing command, as the fetch leaves it. -/
theorem onQueue_fetch (op : Op) (d : Desc) (s : State) (x : Deferred) :
    onQueue d.queue (fun z => { z with waiting := some x }) (onQueue d.queue (fun z => { z with sqHead := z.sqHead + 1 })
      (onQueue d.queue (fun z => { z with sqTail := s.queues[d.queue].sqTail + 1 }) s)) =
    onQueue d.queue (fun z => { z with sqTail := s.queues[d.queue].sqTail + 1, sqHead := z.sqHead + 1, waiting := some x }) s := by
  simp only [onQueue_onQueue]

/-- A queue fetches the descriptor at its head. -/
theorem fetchOne_head {q : Fin 4} {s : State} {c : BitVec 16} {d : Desc} (hen : s.queues[q].en = true)
    (hne : s.queues[q].sqHead ≠ s.queues[q].sqTail) (hidle : queueIdle q s = true) (hroom : cqRoom q s = true)
    (hhead : headDesc q s = (c, d)) (hlatch : waitsForLatch (opOf c) s = false) :
    fetchOne q s = some (execDesc (opOf c) d .ring s.queues[q].sqHead (onQueue q (fun z => { z with sqHead := z.sqHead + 1 }) s)) := by
  have h1 : (s.queues[q].sqHead != s.queues[q].sqTail) = true := by simpa using hne
  simp only [fetchOne, hen, hidle, hroom, h1, hhead, hlatch, Bool.and_self, if_true]
  rfl

theorem byte_succ_ne (t : BitVec 8) : t ≠ t + 1 := by
  intro h
  have := congrArg BitVec.toNat h
  simp only [BitVec.toNat_add] at this
  have h1 := t.isLt
  have h2 : (1 : BitVec 8).toNat = 1 := rfl
  omega

theorem step_ok (t : BitVec 8) : ¬ ((t - t - 1).toNat < (t + 1 - t).toNat) := by
  have h1 : t - t - 1 = (255 : BitVec 8) := by bv_omega
  have h2 : t + 1 - t = (1 : BitVec 8) := by bv_omega
  rw [h1, h2]; decide

theorem onBar2_const (f : List Host.Cell → List Host.Cell) (s : State) : onBar2 f s = onBar2 (fun _ => f s.bar2) s := rfl

/-- A submission on an empty queue moves the tail by one and drains. -/
theorem submit_drain {op : BitVec 16} {d : Desc} {s : State} (hen : s.queues[d.queue].en = true)
    (hht : s.queues[d.queue].sqHead = s.queues[d.queue].sqTail) :
    submit op d s = runQueue d.queue (onQueue d.queue (fun z => { z with sqTail := s.queues[d.queue].sqTail + 1 })
      (onBar2 (fun m => memPut m (slotOffset d.queue s.queues[d.queue].sqTail) (descBytes op d)) s)) := by
  simp only [submit, doorbell, onBar2_queues, hen, hht, step_ok, Bool.not_true, if_false]
  rfl

/-! ## Checks (R378) -/

theorem refuseOr_none {r : Ref} (h : r = none) (k : Ans) (s : State) : refuseOr r k s = k := by subst h; rfl

theorem refuseOr_some {r : Ref} {st : BitVec 16} {n : Nat} (h : r = some (st, n)) (k : Ans) (s : State) :
    refuseOr r k s = .done st n s := by subst h; rfl

theorem firstRef_cons_none {r : Ref} (h : r = none) (rs : List Ref) : firstRef (r :: rs) = firstRef rs := by subst h; rfl

theorem firstRef_cons_some {r : Ref} {x : BitVec 16 × Nat} (h : r = some x) (rs : List Ref) : firstRef (r :: rs) = some x := by
  subst h; rfl

theorem need_true {b : Bool} (h : b = true) (st : BitVec 16) (n : Nat) : need b st n = none := by subst h; rfl

theorem need_false {b : Bool} (h : b = false) (st : BitVec 16) (n : Nat) : need b st n = some (st, n) := by subst h; rfl

theorem andThen_none {a : Ref} (h : a = none) (b : Unit → Ref) : andThen a b = b () := by subst h; rfl

/-- The checks before the command's own pass: assigned, accepted by the queue, no reserved bit. -/
theorem runChecked_admitted {op : Op} {d : Desc} {s s2 : State} (ha : Admitted op d s) (hb : s2.boot = s.boot) :
    runChecked op d s2 = runOp op d s2 := by
  obtain ⟨hass, hrun, -, hacc, hdesc, hbits, -⟩ := ha
  have h3 : opcodeAssigned op s2 = true := by
    cases op <;> first | rfl | exact absurd rfl (hass _)
  have h4 : queueAccepts op d.queue s2 = true := by
    simp only [queueAccepts, hb, hrun, hacc]; rfl
  have e : ∀ a b : Bool, a = true → b = true → ∀ x y : Ref, x = none → y = none → ∀ k : Ans,
      refuseOr (firstRef [need a stOpcode, need b stQueue, x, y]) k s2 = k := by
    intro a b ha hb x y hx hy k; subst ha hb hx hy; rfl
  exact e _ _ h3 h4 _ _ hdesc hbits _

theorem runDesc_admitted {op : Op} {d : Desc} {s s1 : State} (ha : Admitted op d s) (hb : s1.boot = s.boot)
    (hy : s1.safety = s.safety) :
    runDesc op d s1 = runOp op d (if d.queue = 2 then q2Accepted d s1 else s1) := by
  obtain ⟨-, hrun, -, -, -, -, hq2⟩ := id ha
  by_cases hq : d.queue = 2
  · obtain ⟨hc, hal⟩ := hq2 hq
    have hq' : (d.queue == 2) = true := by simp [hq]
    have hst : (s1.boot.stage != .recovery) = true := by rw [hb, hrun]; rfl
    have hal1 : (!s1.safety.anyAlive && d.alive != s1.safety.alive) = false := by
      rw [hy]
      rcases hal with h | h <;> simp [h]
    rw [if_pos hq]
    simp only [runDesc, hq', hst, hc, hal1, Bool.and_self, if_true, bne_self_eq_false, Bool.false_eq_true, if_false]
    exact runChecked_admitted ha hb
  · have hq' : (d.queue == 2) = false := by simpa using hq
    rw [if_neg hq]
    simp only [runDesc, hq', Bool.false_and, Bool.false_eq_true, if_false]
    exact runChecked_admitted ha hb

/-- With no relayed command, a queue runs as far as it can. -/
theorem runQueue_drain {q : Fin 4} {s : State} (h : s.cw.inCmd = []) (h' : (drain q s).cw.inCmd = []) : runQueue q s = drain q s := by
  simp only [runQueue, h, h', List.isEmpty_nil, if_true]

/-- A submitted descriptor that the queue serves executes (R375); `k` is what R378 makes of it. -/
theorem mailbox_runs {op : Op} {d : Desc} {s u : State} {k : State → Ans} (hs : Serves d.queue s) (hop : opOf op.code = op)
    (hlatch : waitsForLatch op s = false)
    (hk : ∀ s1 : State, s1.boot = s.boot → s1.safety = s.safety →
      runDesc op d s1 = k (if d.queue = 2 then q2Accepted d s1 else s1))
    (hu : u = drainFuel d.queue 255
      (match k (fetched op d s) with
        | .done st r s' => complete (taken op d s) st r (onQueue d.queue (fun z => { z with waiting := none }) s')
        | .wait s' => s')) (hi : u.cw.inCmd = []) : mailbox op d s = .next (settle u) := by
  obtain ⟨hwf, hen, hht, hidle, hroom, hin⟩ := hs
  obtain ⟨t, ht⟩ : ∃ t, t = s.queues[d.queue].sqTail := ⟨_, rfl⟩
  obtain ⟨m, hm⟩ : ∃ m, m = memPut s.bar2 (slotOffset d.queue t) (descBytes op.code d) := ⟨_, rfl⟩
  obtain ⟨s1, hs1⟩ : ∃ s1 : State, s1 = onQueue d.queue (fun z => { z with sqTail := t + 1 }) (onBar2 (fun _ => m) s) := ⟨_, rfl⟩
  have hq1 : s1.queues[d.queue] = { s.queues[d.queue] with sqTail := t + 1 } := by
    rw [hs1, onQueue_queues, upd_get_self, onBar2_queues]
  have hbar : s1.bar2 = m := by rw [hs1, onQueue_bar2, onBar2_bar2]
  have hboot : s1.boot = s.boot := by rw [hs1, onQueue_boot, onBar2_boot]
  have hclk : s1.clk = s.clk := by rw [hs1, onQueue_clk, onBar2_clk]
  have hsafe : s1.safety = s.safety := by rw [hs1, onQueue_safety, onBar2_safety]
  have hh : s1.queues[d.queue].sqHead = t := by rw [hq1, ht]; exact hht
  have hhead : headDesc d.queue s1 = (op.code, d) := by
    unfold headDesc
    have := memRead_memPut (descBytes op.code d) (slotOffset d.queue t) hwf
    rw [descBytes_length] at this
    rw [hbar, hh, hm, this, descOf_descBytes]
  have hidle1 : queueIdle d.queue s1 = true := by
    unfold queueIdle served at hidle ⊢; rw [hq1, hboot]; exact hidle
  have hroom1 : cqRoom d.queue s1 = true := by
    unfold cqRoom at hroom ⊢; rw [hq1]; exact hroom
  have hlatch1 : waitsForLatch (opOf op.code) s1 = false := by
    unfold waitsForLatch at hlatch ⊢; rw [hop, hclk]; exact hlatch
  have hne : s1.queues[d.queue].sqHead ≠ s1.queues[d.queue].sqTail := by
    rw [hh, hq1]; exact byte_succ_ne t
  have hen1 : s1.queues[d.queue].en = true := by rw [hq1]; exact hen
  have hf := fetchOne_head hen1 hne hidle1 hroom1 hhead hlatch1
  have hcw : s1.cw = s.cw := by rw [hs1, onQueue_cw, onBar2_cw]
  have hsub : submit op.code d s = runQueue d.queue s1 := by
    rw [submit_drain hen hht, onBar2_const, hs1, hm, ht]
  have hx : onQueue d.queue (fun z => { z with waiting := some (taken op d s) })
      (onQueue d.queue (fun z => { z with sqHead := z.sqHead + 1 }) s1) =
      onQueue d.queue (fun z => { z with sqTail := t + 1, sqHead := t + 1, waiting := some (taken op d s) }) (onBar2 (fun _ => m) s) := by
    rw [hs1, onQueue_onQueue, onQueue_onQueue]
    have e : ∀ f g : QueueDyn → QueueDyn, f s.queues[d.queue] = g s.queues[d.queue] →
        onQueue d.queue f (onBar2 (fun _ => m) s) = onQueue d.queue g (onBar2 (fun _ => m) s) := by
      intro f g h; simp only [onQueue, onBar2_queues, upd, h]
    apply e
    simp only [hht, ← ht]
  have he : execDesc op d .ring t (onQueue d.queue (fun z => { z with sqHead := z.sqHead + 1 }) s1) =
      match k (fetched op d s) with
        | .done st r s' => complete (taken op d s) st r (onQueue d.queue (fun z => { z with waiting := none }) s')
        | .wait s' => s' := by
    have hr := hk (onQueue d.queue (fun z => { z with waiting := some (taken op d s) })
      (onQueue d.queue (fun z => { z with sqHead := z.sqHead + 1 }) s1)) hboot hsafe
    have hfe : (if d.queue = 2 then q2Accepted d (onQueue d.queue (fun z => { z with waiting := some (taken op d s) })
        (onQueue d.queue (fun z => { z with sqHead := z.sqHead + 1 }) s1)) else
        (onQueue d.queue (fun z => { z with waiting := some (taken op d s) })
        (onQueue d.queue (fun z => { z with sqHead := z.sqHead + 1 }) s1))) = fetched op d s := by
      rw [hx, hm, ht]; simp only [fetched, onBar2_const (fun m => memPut m _ _)]
    rw [hfe] at hr
    have htk : taken op d s = { queue := d.queue, opcode := op.code, slot := t, tag := d.tag, alive := d.alive, via := .ring } := by
      simp only [taken, ht]
    simp only [execDesc]
    rw [← htk, hr]
    try (cases k (fetched op d s) <;> rfl)
  have hd : drain d.queue s1 = drainFuel d.queue 255 (execDesc op d .ring t (onQueue d.queue (fun z => { z with sqHead := z.sqHead + 1 }) s1)) := by
    rw [drain, show (256 : Nat) = 255 + 1 from rfl, drainFuel, hf, hop, hh]
  have hdu : drain d.queue s1 = u := by rw [hd, he, hu]
  rw [mailbox, hsub, runQueue_drain (by rw [hcw]; exact hin) (by rw [hdu]; exact hi), hdu]

theorem fetched_queues (op : Op) (d : Desc) (s : State) : (fetched op d s).queues = upd s.queues d.queue (fun z =>
    { z with sqTail := s.queues[d.queue].sqTail + 1, sqHead := s.queues[d.queue].sqTail + 1, waiting := some (taken op d s) }) := by
  unfold fetched
  split <;> simp only [q2Accepted, onSafety_queues, onSafety_clk, onQueue_queues, onQueue_clk, onBar2_queues, onBar2_clk]

/-- The clock as a descriptor executes. -/
theorem fetched_clk (op : Op) (d : Desc) (s : State) : (fetched op d s).clk = s.clk := by
  unfold fetched
  split <;> simp only [q2Accepted, onSafety_queues, onSafety_clk, onQueue_queues, onQueue_clk, onBar2_queues, onBar2_clk]

/-- No relayed command waits as a descriptor executes. -/
theorem fetched_inCmd {op : Op} {d : Desc} {s : State} (hs : Serves d.queue s) : (fetched op d s).cw.inCmd = [] := by
  have h : (fetched op d s).cw = s.cw := by
    unfold fetched; split <;> simp only [q2Accepted, onSafety_cw, onQueue_cw, onBar2_cw]
  rw [h]; exact hs.2.2.2.2.2

theorem fetched_tick (op : Op) (d : Desc) (s : State) :
    (fetched op d s).clk.tick = s.clk.tick ∧ (fetched op d s).clk.phase = s.clk.phase := by
  rw [fetched_clk]; exact ⟨rfl, rfl⟩

theorem ranges_none {l : List (Nat × Bool)} (h : l.find? (fun f => !f.2) = none) : ranges l = none := by
  unfold ranges; rw [h]

theorem mod_ofNat_low (k x n : Nat) (hk : 8 ≤ k) (hn : n < 256) : (BitVec.ofNat k (x - x % 256 + n)).toNat % 256 = n := by
  obtain ⟨j, rfl⟩ := Nat.exists_eq_add_of_le hk
  rw [BitVec.toNat_ofNat, Nat.pow_add, show 2 ^ 8 = 256 from rfl, Nat.mod_mul_right_mod]
  omega

/-- The row's RECORD is the one that executes. -/
theorem withRecord_number (n : Nat) (d : Desc) (hn : n < 256) : fld (withRecord n d).payload 0 8 = n := by
  have h := mod_ofNat_low 384 d.payload.toNat n (by omega) hn
  simp only [fld, withRecord, Nat.pow_zero, Nat.div_one]
  exact h

/-- `mailbox_done` for any reading `k` of R378. -/
theorem mailbox_done_of {op : Op} {d : Desc} {s s' : State} {st : BitVec 16} {r : Nat} {k : State → Ans}
    (hs : Serves d.queue s) (hop : opOf op.code = op) (hlatch : waitsForLatch op s = false)
    (hk : ∀ s1 : State, s1.boot = s.boot → s1.safety = s.safety →
      runDesc op d s1 = k (if d.queue = 2 then q2Accepted d s1 else s1))
    (hr : k (fetched op d s) = .done st r s') (hq : s'.queues = (fetched op d s).queues)
    (hi : s'.cw.inCmd = []) (hc : s'.clk.tick = s.clk.tick ∧ s'.clk.phase = s.clk.phase) :
    ∃ t, mailbox op d s = .next t ∧ Agrees t s' ∧ Told op d st r s t := by
  obtain ⟨s2, hs2⟩ : ∃ s2, s2 = onQueue d.queue (fun z => { z with waiting := none }) s' := ⟨_, rfl⟩
  have hq' : s'.queues[d.queue] = { s.queues[d.queue] with
      sqTail := s.queues[d.queue].sqTail + 1, sqHead := s.queues[d.queue].sqTail + 1, waiting := some (taken op d s) } := by
    rw [hq, fetched_queues, upd_get_self]
  have hq2 : s2.queues[d.queue] = { s.queues[d.queue] with
      sqTail := s.queues[d.queue].sqTail + 1, sqHead := s.queues[d.queue].sqTail + 1, waiting := none } := by
    rw [hs2, onQueue_queues, upd_get_self, hq']
  have hcp := complete_ring (x := taken op d s) (q := d.queue) rfl rfl st r s2
  obtain ⟨h1, h2, h3, h4, h5, c, h6, h7⟩ := hcp
  have hdr : drainFuel d.queue 255 (complete (taken op d s) st r s2) = complete (taken op d s) st r s2 := by
    apply drainFuel_empty
    rw [h3, h4, hq2]
  have hset := settle_agrees (complete (taken op d s) st r s2)
  refine ⟨settle (complete (taken op d s) st r s2), ?_, ?_, ?_⟩
  · have hcw : (complete (taken op d s) st r s2).cw = s'.cw := by
      have e := congrArg State.cw h1
      rw [e, hs2]; rfl
    refine mailbox_runs hs hop hlatch hk ?_ (by rw [hcw]; exact hi)
    rw [hr]
    simp only
    rw [← hs2, hdr]
  · refine agrees_trans hset.1 (agrees_trans h1 ?_)
    rw [hs2]; rfl
  · have hn : newest d.queue (settle (complete (taken op d s) st r s2)) = some c := by
      unfold newest at h6 ⊢; rw [hset.2]; exact h6
    have hcount : s2.queues[d.queue].count = s.queues[d.queue].count := by rw [hq2]
    have hclk : s2.clk = s'.clk := by rw [hs2, onQueue_clk]
    refine ⟨⟨c, hn, ?_⟩, ?_, ?_, ?_, ?_⟩
    · rcases h7 with h7 | h7 <;> subst h7 <;>
        simp only [completionOf, taken, hclk, hc.1, hc.2, and_self]
    · rw [hset.2, h4, hq2]
    · rw [hset.2, h3, hq2]
    · rw [hset.2, h5, hq2]
    · intro q hqn
      rw [hset.2, h2 q hqn, hs2, onQueue_queues, upd_get_ne _ _ hqn, hq, fetched_queues, upd_get_ne _ _ hqn]

/-- A command that answers at once, leaving the queues and the clock alone, completes with its status and RESULT; every other
part of the state is as the command leaves it. -/
theorem mailbox_done {op : Op} {d : Desc} {s s' : State} {st : BitVec 16} {r : Nat} (hs : Serves d.queue s)
    (ha : Admitted op d s) (hr : runOp op d (fetched op d s) = .done st r s') (hq : s'.queues = (fetched op d s).queues)
    (hi : s'.cw.inCmd = []) (hc : s'.clk.tick = s.clk.tick ∧ s'.clk.phase = s.clk.phase) :
    ∃ t, mailbox op d s = .next t ∧ Agrees t s' ∧ Told op d st r s t :=
  mailbox_done_of hs (opOf_code op ha.1) ha.2.2.1 (fun _ hb hy => runDesc_admitted ha hb hy) hr hq hi hc

/-- A command that answers later leaves its queue waiting for it. -/
theorem mailbox_wait {op : Op} {d : Desc} {s s' : State} (hs : Serves d.queue s) (ha : Admitted op d s)
    (hr : runOp op d (fetched op d s) = .wait s') (hq : s'.queues = (fetched op d s).queues) (hi : s'.cw.inCmd = []) :
    ∃ t, mailbox op d s = .next t ∧ Agrees t s' ∧ Awaits op d s t := by
  have hq' : s'.queues[d.queue] = { s.queues[d.queue] with
      sqTail := s.queues[d.queue].sqTail + 1, sqHead := s.queues[d.queue].sqTail + 1, waiting := some (taken op d s) } := by
    rw [hq, fetched_queues, upd_get_self]
  have hdr : drainFuel d.queue 255 s' = s' := by
    apply drainFuel_empty; rw [hq']
  have hset := settle_agrees s'
  refine ⟨settle s', ?_, hset.1, ?_, ?_, ?_⟩
  · refine mailbox_runs hs (opOf_code op ha.1) ha.2.2.1 (fun _ hb hy => runDesc_admitted ha hb hy) ?_ hi
    rw [hr]
    simp only
    rw [hdr]
  · rw [hset.2, hq']
  · rw [hset.2, hq']
  · intro q hqn
    rw [hset.2, hq, fetched_queues, upd_get_ne _ _ hqn]

end Sys2Proof.Machine
end

