-- ==== Sys2Proof/WellFormed.lean ====
section
/-! DEFINITION. Well-formed commands: what the rules require of a command's operands beyond their types. A command that is
not well-formed is none that the hardware's surroundings can send; exec is total on it all the same. -/

namespace Sys2Proof

/-- The opcodes of R381. -/
def assignedOpcodes : List Nat :=
  [0x0000, 0x0001, 0x0002, 0x0003, 0x0100, 0x0101, 0x0102, 0x0103, 0x0104, 0x0105, 0x0106, 0x0200, 0x0201, 0x0202, 0x0203,
   0x0204, 0x0300, 0x0301, 0x0302, 0x0303, 0x0400, 0x0401, 0x0500, 0x0501, 0x0502, 0x0600, 0x0601, 0x0602] ++
  [0x0700, 0x0701, 0x0702, 0x0703, 0x0704, 0x0705, 0x0706, 0x0800, 0x0801]

/-- A packet's LEN counts its data words, the CRC word included (R446). -/
def Packet.wellFormed (p : Packet) : Bool := p.len.toNat == p.words.length

/-- The table of a safety asset has 1088 bytes (R321). -/
def RawAsset.wellFormed (a : RawAsset) : Bool := a.table.length == 1088

/-- One conversion per sensor (R303). -/
def samplesDistinct (r : List (Fin 36 × Reading)) : Bool := decide ((r.map (·.1)).Nodup)

/-- One measurement per input in a tick's END (R263, R264). -/
def EndMeas.wellFormed (m : EndMeas) : Bool :=
  decide ((m.map (·.1)).Nodup)

/-- A LINK_STATUS that a link can take: no lanes and no speed out of L0 (R350, R360). -/
def LinkState.wellFormed (l : LinkState) : Bool := l.l0 || (l.speed == 0 && l.width == 0)

/-- The operand checks of each command. -/
def Instr.wellFormed : Instr → Bool
  | .unassignedOpcode op _ => !assignedOpcodes.contains op.toNat
  | .registerWrite _ _ data => decide (data ≠ []) && decide (data.length ≤ 64)
  | .badAccessRead _ _ size => decide (0 < size) && decide (size ≤ 64)
  | .tickEnd m => m.wellFormed
  | .cxlLink l => l.wellFormed
  | .thermalSample r => samplesDistinct r
  | .readyPoint b => b.asset.wellFormed
  | .safePathReloadDone _ a => a.wellFormed
  | .diagnosticPulse _ slot => decide (slot < 64)
  | .echo p | .echoReply p _ | .boundary p | .mode p | .vote p | .cap p | .enum p | .enumReport p | .enumEnd p | .enumCut p
  | .enumReq p | .blockStart p | .segment p | .blockAck p | .updCtrlOpen p | .updCtrlVerify p | .updCtrlActivate p
  | .updCtrlAbort p | .updCtrlDisarm p | .updResp p | .cmd p | .cmdData p | .cmdResp p | .evt p | .evtAck p => p.wellFormed
  | .deviceInfo _ | .eventMask _ | .settingsRead _ | .settingsWriteMemoryRegion _ | .settingsWriteCanvas _
  | .settingsWriteHeadColour _ | .settingsWriteArray _ | .settingsWriteRaster _ | .settingsWritePixelTiming _
  | .settingsWriteLink _ | .settingsWriteOs _ | .settingsWriteLine _ | .settingsWriteChain _ | .layerSet _ | .layerEnable _
  | .lutLoad _ | .coeffLoad _ | .blendOrderSet _ | .fenceModeSet _ | .commit _ | .headSet _ | .warpLoad _ | .timingSet _
  | .planeSeqLoad _ | .dimSet _ | .lightChannelSet _ | .colourTargetSet _ | .lampSet _ | .lampFade _ | .powerQuota _
  | .thermalSet _ | .safetyWindowSet _ | .telltaleSet _ | .safeStateRequest _ | .calRun _ | .calCommit _ | .calStatus _
  | .updateOpen _ | .updateBlock _ | .updateVerify _ | .updateActivate _ | .updateConfirm _ | .updateAbort _
  | .updatePreempt _ | .chainEnumerate _ | .chainSend _ | .sqTail _ _ | .cqHead _ _ | .queueEnable _ _ | .eventRingEnable _
  | .evqHead _ | .hostActive _ | .tickMirrorLowRead | .msixUnmask _ | .tickBoundary _ _ | .latchEnd _ | .driftCheck _ _ _
  | .showStart _ | .planeEntryStart _ _ | .shuntGateOpen _ | .shuntGateClose _ | .canvasBandWritten | .warpStripeDone _
  | .buildComplete | .commitCutoff | .showSpanEnd _ _ _ | .transitionEnd | .commitAbandoned | .layerDropped _
  | .lampFadesDone _ | .snpInv _ | .snpData _ | .snpCur _ | .fenceReadComplete _ _ | .releaseFenceWriteComplete _ _
  | .surfaceReadError _ _ _ _ | .canvasAccessError _ _ _ _ | .planeStoreReadError _ _ _ _ | .recordGloballyObserved
  | .recordWriteRetry _ | .eventVectorSignal _ | .hotReset | .flr | .cxlReset | .busMasterEnableCleared _ | .d3hotEntry
  | .viral | .ideIntegrityFailure | .perstN | .configurationRequest _ | .doeDiscovery _ | .getVersion | .getCapabilities _
  | .negotiateAlgorithms _ _ | .getDigests | .getCertificate _ _ _ | .challenge _ _ | .getMeasurements _ _ | .keyExchange _ _
  | .finish _ | .heartbeat | .keyUpdate _ | .endSession | .planeBlockSend _ _ _ | .ack _ _ | .refuse _ _ | .status _ _
  | .resetDone _ _ | .backchannelEcho _ _ _ | .backchannelTrain _ _ | .answerTimeout _ _ _ | .planeDeadline _ _
  | .linkReadbackFail _ _ _ | .backchannelSilent _ | .arrayTiming _ _ _ | .lockLost _ _ | .trainingStepTimeout _
  | .linkRetrainRetry _ | .rasterSweepEnd _ _ | .rasterLock _ _ | .rasterAcquireTimeout _ | .rasterAcquireRetry _
  | .rasterLockLost _ | .rasterGuardTrip _ _ | .rasterLineStart _ _ _ _ | .linePacketSend _ _ _ _ | .channelJudge _ _
  | .overCurrent _ _ | .chFaultRestart _ | .gateFault _ | .energyTrip _ _ _ | .lockstepFault | .clockFault | .voltageFault
  | .monitorFaultClear _ | .watchdogExpiry | .eccError _ _ _ _ _ _ | .q2Timeout | .throttleStepDue _ _ | .substituteHoldEnd _
  | .throttleFreezeLift | .thermalSensorOk _ | .thermalTripClear _ | .timingMarginTrip | .powerOnReset | .pinReset
  | .warmReset | .resetRelease _ _ | .bootStart | .pllLockTimeout | .firstLightTimeout | .trialTimeout
  | .coreHeartbeatTimeout _ | .coreRestart _ | .calApplied | .idcode | .bypass _ | .samplePreload _ | .extest _
  | .otpProgrammingInstruction _ | .enumTimeout | .chainBoundaryMiss | .blockIncompleteTimeout | .cmdRespTimeout
  | .evtAckTimeout | .cwPortSilent _ | .cwDelayRemeasure _ | .cwTrainingRetry _ | .ideKm _ _ | .cxlKp _ _
  | .aerErrorLog _ _ _ | .pmicWriteDone _ | .flashSliceDone _ _ | .otpSeriesDone _ | .bootFault _ | .cwLockLost _ => true

end Sys2Proof
end

