-- ==== Sys2Proof/Laws/PerInstr.lean ====
section
/-! SUPPORT. Command by command: a row that brings a packet with a destination is well-formed exactly where the packet's LEN counts
its data words (R446). -/

/-- A row that brings a packet is well-formed exactly where the packet's LEN counts its words. -/
def Sys2Proof.Laws.Kind.Statement (i : Sys2Proof.Instr) : Prop :=
  ∀ (ty : BitVec 8) (side : Sys2Proof.Port) (p : Sys2Proof.Packet), Sys2Proof.packetRow i = some (ty, side, p) →
    i.wellFormed = p.wellFormed

namespace Sys2Proof.Laws

/-- A row that brings no such packet. -/
theorem kind_none {i : Instr} (h : packetRow i = none) : Kind.Statement i := by
  intro ty side p k; rw [h] at k; cases k

/-- A row that brings one. -/
theorem kind_some {i : Instr} {x : BitVec 8 × Port × Packet} (h : packetRow i = some x) (k : i.wellFormed = x.2.2.wellFormed) :
    Kind.Statement i := by
  intro ty side p e; rw [h] at e; cases e; exact k

end Sys2Proof.Laws

theorem Sys2Proof.Laws.Kind.deviceInfo : ∀ a1, Sys2Proof.Laws.Kind.Statement (.deviceInfo a1) := fun _ => Sys2Proof.Laws.kind_none rfl
theorem Sys2Proof.Laws.Kind.eventMask : ∀ a1, Sys2Proof.Laws.Kind.Statement (.eventMask a1) := fun _ => Sys2Proof.Laws.kind_none rfl
theorem Sys2Proof.Laws.Kind.settingsRead : ∀ a1, Sys2Proof.Laws.Kind.Statement (.settingsRead a1) := fun _ => Sys2Proof.Laws.kind_none rfl
theorem Sys2Proof.Laws.Kind.settingsWriteMemoryRegion : ∀ a1, Sys2Proof.Laws.Kind.Statement (.settingsWriteMemoryRegion a1) := fun _ => Sys2Proof.Laws.kind_none rfl
theorem Sys2Proof.Laws.Kind.settingsWriteCanvas : ∀ a1, Sys2Proof.Laws.Kind.Statement (.settingsWriteCanvas a1) := fun _ => Sys2Proof.Laws.kind_none rfl
theorem Sys2Proof.Laws.Kind.settingsWriteHeadColour : ∀ a1, Sys2Proof.Laws.Kind.Statement (.settingsWriteHeadColour a1) := fun _ => Sys2Proof.Laws.kind_none rfl
theorem Sys2Proof.Laws.Kind.settingsWriteArray : ∀ a1, Sys2Proof.Laws.Kind.Statement (.settingsWriteArray a1) := fun _ => Sys2Proof.Laws.kind_none rfl
theorem Sys2Proof.Laws.Kind.settingsWriteRaster : ∀ a1, Sys2Proof.Laws.Kind.Statement (.settingsWriteRaster a1) := fun _ => Sys2Proof.Laws.kind_none rfl
theorem Sys2Proof.Laws.Kind.settingsWritePixelTiming : ∀ a1, Sys2Proof.Laws.Kind.Statement (.settingsWritePixelTiming a1) := fun _ => Sys2Proof.Laws.kind_none rfl
theorem Sys2Proof.Laws.Kind.settingsWriteLink : ∀ a1, Sys2Proof.Laws.Kind.Statement (.settingsWriteLink a1) := fun _ => Sys2Proof.Laws.kind_none rfl
theorem Sys2Proof.Laws.Kind.settingsWriteOs : ∀ a1, Sys2Proof.Laws.Kind.Statement (.settingsWriteOs a1) := fun _ => Sys2Proof.Laws.kind_none rfl
theorem Sys2Proof.Laws.Kind.settingsWriteLine : ∀ a1, Sys2Proof.Laws.Kind.Statement (.settingsWriteLine a1) := fun _ => Sys2Proof.Laws.kind_none rfl
theorem Sys2Proof.Laws.Kind.settingsWriteChain : ∀ a1, Sys2Proof.Laws.Kind.Statement (.settingsWriteChain a1) := fun _ => Sys2Proof.Laws.kind_none rfl
theorem Sys2Proof.Laws.Kind.layerSet : ∀ a1, Sys2Proof.Laws.Kind.Statement (.layerSet a1) := fun _ => Sys2Proof.Laws.kind_none rfl
theorem Sys2Proof.Laws.Kind.layerEnable : ∀ a1, Sys2Proof.Laws.Kind.Statement (.layerEnable a1) := fun _ => Sys2Proof.Laws.kind_none rfl
theorem Sys2Proof.Laws.Kind.lutLoad : ∀ a1, Sys2Proof.Laws.Kind.Statement (.lutLoad a1) := fun _ => Sys2Proof.Laws.kind_none rfl
theorem Sys2Proof.Laws.Kind.coeffLoad : ∀ a1, Sys2Proof.Laws.Kind.Statement (.coeffLoad a1) := fun _ => Sys2Proof.Laws.kind_none rfl
theorem Sys2Proof.Laws.Kind.blendOrderSet : ∀ a1, Sys2Proof.Laws.Kind.Statement (.blendOrderSet a1) := fun _ => Sys2Proof.Laws.kind_none rfl
theorem Sys2Proof.Laws.Kind.fenceModeSet : ∀ a1, Sys2Proof.Laws.Kind.Statement (.fenceModeSet a1) := fun _ => Sys2Proof.Laws.kind_none rfl
theorem Sys2Proof.Laws.Kind.commit : ∀ a1, Sys2Proof.Laws.Kind.Statement (.commit a1) := fun _ => Sys2Proof.Laws.kind_none rfl
theorem Sys2Proof.Laws.Kind.headSet : ∀ a1, Sys2Proof.Laws.Kind.Statement (.headSet a1) := fun _ => Sys2Proof.Laws.kind_none rfl
theorem Sys2Proof.Laws.Kind.warpLoad : ∀ a1, Sys2Proof.Laws.Kind.Statement (.warpLoad a1) := fun _ => Sys2Proof.Laws.kind_none rfl
theorem Sys2Proof.Laws.Kind.timingSet : ∀ a1, Sys2Proof.Laws.Kind.Statement (.timingSet a1) := fun _ => Sys2Proof.Laws.kind_none rfl
theorem Sys2Proof.Laws.Kind.planeSeqLoad : ∀ a1, Sys2Proof.Laws.Kind.Statement (.planeSeqLoad a1) := fun _ => Sys2Proof.Laws.kind_none rfl
theorem Sys2Proof.Laws.Kind.dimSet : ∀ a1, Sys2Proof.Laws.Kind.Statement (.dimSet a1) := fun _ => Sys2Proof.Laws.kind_none rfl
theorem Sys2Proof.Laws.Kind.lightChannelSet : ∀ a1, Sys2Proof.Laws.Kind.Statement (.lightChannelSet a1) := fun _ => Sys2Proof.Laws.kind_none rfl
theorem Sys2Proof.Laws.Kind.colourTargetSet : ∀ a1, Sys2Proof.Laws.Kind.Statement (.colourTargetSet a1) := fun _ => Sys2Proof.Laws.kind_none rfl
theorem Sys2Proof.Laws.Kind.lampSet : ∀ a1, Sys2Proof.Laws.Kind.Statement (.lampSet a1) := fun _ => Sys2Proof.Laws.kind_none rfl
theorem Sys2Proof.Laws.Kind.lampFade : ∀ a1, Sys2Proof.Laws.Kind.Statement (.lampFade a1) := fun _ => Sys2Proof.Laws.kind_none rfl
theorem Sys2Proof.Laws.Kind.powerQuota : ∀ a1, Sys2Proof.Laws.Kind.Statement (.powerQuota a1) := fun _ => Sys2Proof.Laws.kind_none rfl
theorem Sys2Proof.Laws.Kind.thermalSet : ∀ a1, Sys2Proof.Laws.Kind.Statement (.thermalSet a1) := fun _ => Sys2Proof.Laws.kind_none rfl
theorem Sys2Proof.Laws.Kind.safetyWindowSet : ∀ a1, Sys2Proof.Laws.Kind.Statement (.safetyWindowSet a1) := fun _ => Sys2Proof.Laws.kind_none rfl
theorem Sys2Proof.Laws.Kind.telltaleSet : ∀ a1, Sys2Proof.Laws.Kind.Statement (.telltaleSet a1) := fun _ => Sys2Proof.Laws.kind_none rfl
theorem Sys2Proof.Laws.Kind.safeStateRequest : ∀ a1, Sys2Proof.Laws.Kind.Statement (.safeStateRequest a1) := fun _ => Sys2Proof.Laws.kind_none rfl
theorem Sys2Proof.Laws.Kind.calRun : ∀ a1, Sys2Proof.Laws.Kind.Statement (.calRun a1) := fun _ => Sys2Proof.Laws.kind_none rfl
theorem Sys2Proof.Laws.Kind.calCommit : ∀ a1, Sys2Proof.Laws.Kind.Statement (.calCommit a1) := fun _ => Sys2Proof.Laws.kind_none rfl
theorem Sys2Proof.Laws.Kind.calStatus : ∀ a1, Sys2Proof.Laws.Kind.Statement (.calStatus a1) := fun _ => Sys2Proof.Laws.kind_none rfl
theorem Sys2Proof.Laws.Kind.updateOpen : ∀ a1, Sys2Proof.Laws.Kind.Statement (.updateOpen a1) := fun _ => Sys2Proof.Laws.kind_none rfl
theorem Sys2Proof.Laws.Kind.updateBlock : ∀ a1, Sys2Proof.Laws.Kind.Statement (.updateBlock a1) := fun _ => Sys2Proof.Laws.kind_none rfl
theorem Sys2Proof.Laws.Kind.updateVerify : ∀ a1, Sys2Proof.Laws.Kind.Statement (.updateVerify a1) := fun _ => Sys2Proof.Laws.kind_none rfl
theorem Sys2Proof.Laws.Kind.updateActivate : ∀ a1, Sys2Proof.Laws.Kind.Statement (.updateActivate a1) := fun _ => Sys2Proof.Laws.kind_none rfl
theorem Sys2Proof.Laws.Kind.updateConfirm : ∀ a1, Sys2Proof.Laws.Kind.Statement (.updateConfirm a1) := fun _ => Sys2Proof.Laws.kind_none rfl
theorem Sys2Proof.Laws.Kind.updateAbort : ∀ a1, Sys2Proof.Laws.Kind.Statement (.updateAbort a1) := fun _ => Sys2Proof.Laws.kind_none rfl
theorem Sys2Proof.Laws.Kind.updatePreempt : ∀ a1, Sys2Proof.Laws.Kind.Statement (.updatePreempt a1) := fun _ => Sys2Proof.Laws.kind_none rfl
theorem Sys2Proof.Laws.Kind.chainEnumerate : ∀ a1, Sys2Proof.Laws.Kind.Statement (.chainEnumerate a1) := fun _ => Sys2Proof.Laws.kind_none rfl
theorem Sys2Proof.Laws.Kind.chainSend : ∀ a1, Sys2Proof.Laws.Kind.Statement (.chainSend a1) := fun _ => Sys2Proof.Laws.kind_none rfl
theorem Sys2Proof.Laws.Kind.sqTail : ∀ a1 b1, Sys2Proof.Laws.Kind.Statement (.sqTail a1 b1) := fun _ _ => Sys2Proof.Laws.kind_none rfl
theorem Sys2Proof.Laws.Kind.cqHead : ∀ a1 b1, Sys2Proof.Laws.Kind.Statement (.cqHead a1 b1) := fun _ _ => Sys2Proof.Laws.kind_none rfl
theorem Sys2Proof.Laws.Kind.queueEnable : ∀ a1 b1, Sys2Proof.Laws.Kind.Statement (.queueEnable a1 b1) := fun _ _ => Sys2Proof.Laws.kind_none rfl
theorem Sys2Proof.Laws.Kind.eventRingEnable : ∀ a1, Sys2Proof.Laws.Kind.Statement (.eventRingEnable a1) := fun _ => Sys2Proof.Laws.kind_none rfl
theorem Sys2Proof.Laws.Kind.evqHead : ∀ a1, Sys2Proof.Laws.Kind.Statement (.evqHead a1) := fun _ => Sys2Proof.Laws.kind_none rfl
theorem Sys2Proof.Laws.Kind.hostActive : ∀ a1, Sys2Proof.Laws.Kind.Statement (.hostActive a1) := fun _ => Sys2Proof.Laws.kind_none rfl
theorem Sys2Proof.Laws.Kind.tickMirrorLowRead : Sys2Proof.Laws.Kind.Statement (.tickMirrorLowRead) := Sys2Proof.Laws.kind_none rfl
theorem Sys2Proof.Laws.Kind.msixUnmask : ∀ a1, Sys2Proof.Laws.Kind.Statement (.msixUnmask a1) := fun _ => Sys2Proof.Laws.kind_none rfl
theorem Sys2Proof.Laws.Kind.registerWrite : ∀ a1 b1 c1, Sys2Proof.Laws.Kind.Statement (.registerWrite a1 b1 c1) := fun _ _ _ => Sys2Proof.Laws.kind_none rfl
theorem Sys2Proof.Laws.Kind.tickBoundary : ∀ a1 b1, Sys2Proof.Laws.Kind.Statement (.tickBoundary a1 b1) := fun _ _ => Sys2Proof.Laws.kind_none rfl
theorem Sys2Proof.Laws.Kind.latchEnd : ∀ a1, Sys2Proof.Laws.Kind.Statement (.latchEnd a1) := fun _ => Sys2Proof.Laws.kind_none rfl
theorem Sys2Proof.Laws.Kind.diagnosticPulse : ∀ a1 b1, Sys2Proof.Laws.Kind.Statement (.diagnosticPulse a1 b1) := fun _ _ => Sys2Proof.Laws.kind_none rfl
theorem Sys2Proof.Laws.Kind.driftCheck : ∀ a1 b1 c1, Sys2Proof.Laws.Kind.Statement (.driftCheck a1 b1 c1) := fun _ _ _ => Sys2Proof.Laws.kind_none rfl
theorem Sys2Proof.Laws.Kind.showStart : ∀ a1, Sys2Proof.Laws.Kind.Statement (.showStart a1) := fun _ => Sys2Proof.Laws.kind_none rfl
theorem Sys2Proof.Laws.Kind.planeEntryStart : ∀ a1 b1, Sys2Proof.Laws.Kind.Statement (.planeEntryStart a1 b1) := fun _ _ => Sys2Proof.Laws.kind_none rfl
theorem Sys2Proof.Laws.Kind.shuntGateOpen : ∀ a1, Sys2Proof.Laws.Kind.Statement (.shuntGateOpen a1) := fun _ => Sys2Proof.Laws.kind_none rfl
theorem Sys2Proof.Laws.Kind.shuntGateClose : ∀ a1, Sys2Proof.Laws.Kind.Statement (.shuntGateClose a1) := fun _ => Sys2Proof.Laws.kind_none rfl
theorem Sys2Proof.Laws.Kind.canvasBandWritten : Sys2Proof.Laws.Kind.Statement (.canvasBandWritten) := Sys2Proof.Laws.kind_none rfl
theorem Sys2Proof.Laws.Kind.warpStripeDone : ∀ a1, Sys2Proof.Laws.Kind.Statement (.warpStripeDone a1) := fun _ => Sys2Proof.Laws.kind_none rfl
theorem Sys2Proof.Laws.Kind.buildComplete : Sys2Proof.Laws.Kind.Statement (.buildComplete) := Sys2Proof.Laws.kind_none rfl
theorem Sys2Proof.Laws.Kind.commitCutoff : Sys2Proof.Laws.Kind.Statement (.commitCutoff) := Sys2Proof.Laws.kind_none rfl
theorem Sys2Proof.Laws.Kind.tickEnd : ∀ a1, Sys2Proof.Laws.Kind.Statement (.tickEnd a1) := fun _ => Sys2Proof.Laws.kind_none rfl
theorem Sys2Proof.Laws.Kind.showSpanEnd : ∀ a1 b1 c1, Sys2Proof.Laws.Kind.Statement (.showSpanEnd a1 b1 c1) := fun _ _ _ => Sys2Proof.Laws.kind_none rfl
theorem Sys2Proof.Laws.Kind.transitionEnd : Sys2Proof.Laws.Kind.Statement (.transitionEnd) := Sys2Proof.Laws.kind_none rfl
theorem Sys2Proof.Laws.Kind.commitAbandoned : Sys2Proof.Laws.Kind.Statement (.commitAbandoned) := Sys2Proof.Laws.kind_none rfl
theorem Sys2Proof.Laws.Kind.layerDropped : ∀ a1, Sys2Proof.Laws.Kind.Statement (.layerDropped a1) := fun _ => Sys2Proof.Laws.kind_none rfl
theorem Sys2Proof.Laws.Kind.lampFadesDone : ∀ a1, Sys2Proof.Laws.Kind.Statement (.lampFadesDone a1) := fun _ => Sys2Proof.Laws.kind_none rfl
theorem Sys2Proof.Laws.Kind.snpInv : ∀ a1, Sys2Proof.Laws.Kind.Statement (.snpInv a1) := fun _ => Sys2Proof.Laws.kind_none rfl
theorem Sys2Proof.Laws.Kind.snpData : ∀ a1, Sys2Proof.Laws.Kind.Statement (.snpData a1) := fun _ => Sys2Proof.Laws.kind_none rfl
theorem Sys2Proof.Laws.Kind.snpCur : ∀ a1, Sys2Proof.Laws.Kind.Statement (.snpCur a1) := fun _ => Sys2Proof.Laws.kind_none rfl
theorem Sys2Proof.Laws.Kind.fenceReadComplete : ∀ a1 b1, Sys2Proof.Laws.Kind.Statement (.fenceReadComplete a1 b1) := fun _ _ => Sys2Proof.Laws.kind_none rfl
theorem Sys2Proof.Laws.Kind.releaseFenceWriteComplete : ∀ a1 b1, Sys2Proof.Laws.Kind.Statement (.releaseFenceWriteComplete a1 b1) := fun _ _ => Sys2Proof.Laws.kind_none rfl
theorem Sys2Proof.Laws.Kind.surfaceReadError : ∀ a1 b1 c1 d1, Sys2Proof.Laws.Kind.Statement (.surfaceReadError a1 b1 c1 d1) := fun _ _ _ _ => Sys2Proof.Laws.kind_none rfl
theorem Sys2Proof.Laws.Kind.canvasAccessError : ∀ a1 b1 c1 d1, Sys2Proof.Laws.Kind.Statement (.canvasAccessError a1 b1 c1 d1) := fun _ _ _ _ => Sys2Proof.Laws.kind_none rfl
theorem Sys2Proof.Laws.Kind.planeStoreReadError : ∀ a1 b1 c1 d1, Sys2Proof.Laws.Kind.Statement (.planeStoreReadError a1 b1 c1 d1) := fun _ _ _ _ => Sys2Proof.Laws.kind_none rfl
theorem Sys2Proof.Laws.Kind.recordGloballyObserved : Sys2Proof.Laws.Kind.Statement (.recordGloballyObserved) := Sys2Proof.Laws.kind_none rfl
theorem Sys2Proof.Laws.Kind.recordWriteRetry : ∀ a1, Sys2Proof.Laws.Kind.Statement (.recordWriteRetry a1) := fun _ => Sys2Proof.Laws.kind_none rfl
theorem Sys2Proof.Laws.Kind.eventVectorSignal : ∀ a1, Sys2Proof.Laws.Kind.Statement (.eventVectorSignal a1) := fun _ => Sys2Proof.Laws.kind_none rfl
theorem Sys2Proof.Laws.Kind.cxlLink : ∀ a1, Sys2Proof.Laws.Kind.Statement (.cxlLink a1) := fun _ => Sys2Proof.Laws.kind_none rfl
theorem Sys2Proof.Laws.Kind.hotReset : Sys2Proof.Laws.Kind.Statement (.hotReset) := Sys2Proof.Laws.kind_none rfl
theorem Sys2Proof.Laws.Kind.flr : Sys2Proof.Laws.Kind.Statement (.flr) := Sys2Proof.Laws.kind_none rfl
theorem Sys2Proof.Laws.Kind.cxlReset : Sys2Proof.Laws.Kind.Statement (.cxlReset) := Sys2Proof.Laws.kind_none rfl
theorem Sys2Proof.Laws.Kind.busMasterEnableCleared : ∀ a1, Sys2Proof.Laws.Kind.Statement (.busMasterEnableCleared a1) := fun _ => Sys2Proof.Laws.kind_none rfl
theorem Sys2Proof.Laws.Kind.d3hotEntry : Sys2Proof.Laws.Kind.Statement (.d3hotEntry) := Sys2Proof.Laws.kind_none rfl
theorem Sys2Proof.Laws.Kind.viral : Sys2Proof.Laws.Kind.Statement (.viral) := Sys2Proof.Laws.kind_none rfl
theorem Sys2Proof.Laws.Kind.ideIntegrityFailure : Sys2Proof.Laws.Kind.Statement (.ideIntegrityFailure) := Sys2Proof.Laws.kind_none rfl
theorem Sys2Proof.Laws.Kind.perstN : Sys2Proof.Laws.Kind.Statement (.perstN) := Sys2Proof.Laws.kind_none rfl
theorem Sys2Proof.Laws.Kind.configurationRequest : ∀ a1, Sys2Proof.Laws.Kind.Statement (.configurationRequest a1) := fun _ => Sys2Proof.Laws.kind_none rfl
theorem Sys2Proof.Laws.Kind.doeDiscovery : ∀ a1, Sys2Proof.Laws.Kind.Statement (.doeDiscovery a1) := fun _ => Sys2Proof.Laws.kind_none rfl
theorem Sys2Proof.Laws.Kind.getVersion : Sys2Proof.Laws.Kind.Statement (.getVersion) := Sys2Proof.Laws.kind_none rfl
theorem Sys2Proof.Laws.Kind.getCapabilities : ∀ a1, Sys2Proof.Laws.Kind.Statement (.getCapabilities a1) := fun _ => Sys2Proof.Laws.kind_none rfl
theorem Sys2Proof.Laws.Kind.negotiateAlgorithms : ∀ a1 b1, Sys2Proof.Laws.Kind.Statement (.negotiateAlgorithms a1 b1) := fun _ _ => Sys2Proof.Laws.kind_none rfl
theorem Sys2Proof.Laws.Kind.getDigests : Sys2Proof.Laws.Kind.Statement (.getDigests) := Sys2Proof.Laws.kind_none rfl
theorem Sys2Proof.Laws.Kind.getCertificate : ∀ a1 b1 c1, Sys2Proof.Laws.Kind.Statement (.getCertificate a1 b1 c1) := fun _ _ _ => Sys2Proof.Laws.kind_none rfl
theorem Sys2Proof.Laws.Kind.challenge : ∀ a1 b1, Sys2Proof.Laws.Kind.Statement (.challenge a1 b1) := fun _ _ => Sys2Proof.Laws.kind_none rfl
theorem Sys2Proof.Laws.Kind.getMeasurements : ∀ a1 b1, Sys2Proof.Laws.Kind.Statement (.getMeasurements a1 b1) := fun _ _ => Sys2Proof.Laws.kind_none rfl
theorem Sys2Proof.Laws.Kind.keyExchange : ∀ a1 b1, Sys2Proof.Laws.Kind.Statement (.keyExchange a1 b1) := fun _ _ => Sys2Proof.Laws.kind_none rfl
theorem Sys2Proof.Laws.Kind.finish : ∀ a1, Sys2Proof.Laws.Kind.Statement (.finish a1) := fun _ => Sys2Proof.Laws.kind_none rfl
theorem Sys2Proof.Laws.Kind.heartbeat : Sys2Proof.Laws.Kind.Statement (.heartbeat) := Sys2Proof.Laws.kind_none rfl
theorem Sys2Proof.Laws.Kind.keyUpdate : ∀ a1, Sys2Proof.Laws.Kind.Statement (.keyUpdate a1) := fun _ => Sys2Proof.Laws.kind_none rfl
theorem Sys2Proof.Laws.Kind.endSession : Sys2Proof.Laws.Kind.Statement (.endSession) := Sys2Proof.Laws.kind_none rfl
theorem Sys2Proof.Laws.Kind.planeBlockSend : ∀ a1 b1 c1, Sys2Proof.Laws.Kind.Statement (.planeBlockSend a1 b1 c1) := fun _ _ _ => Sys2Proof.Laws.kind_none rfl
theorem Sys2Proof.Laws.Kind.ack : ∀ a1 b1, Sys2Proof.Laws.Kind.Statement (.ack a1 b1) := fun _ _ => Sys2Proof.Laws.kind_none rfl
theorem Sys2Proof.Laws.Kind.refuse : ∀ a1 b1, Sys2Proof.Laws.Kind.Statement (.refuse a1 b1) := fun _ _ => Sys2Proof.Laws.kind_none rfl
theorem Sys2Proof.Laws.Kind.status : ∀ a1 b1, Sys2Proof.Laws.Kind.Statement (.status a1 b1) := fun _ _ => Sys2Proof.Laws.kind_none rfl
theorem Sys2Proof.Laws.Kind.resetDone : ∀ a1 b1, Sys2Proof.Laws.Kind.Statement (.resetDone a1 b1) := fun _ _ => Sys2Proof.Laws.kind_none rfl
theorem Sys2Proof.Laws.Kind.backchannelEcho : ∀ a1 b1 c1, Sys2Proof.Laws.Kind.Statement (.backchannelEcho a1 b1 c1) := fun _ _ _ => Sys2Proof.Laws.kind_none rfl
theorem Sys2Proof.Laws.Kind.backchannelTrain : ∀ a1 b1, Sys2Proof.Laws.Kind.Statement (.backchannelTrain a1 b1) := fun _ _ => Sys2Proof.Laws.kind_none rfl
theorem Sys2Proof.Laws.Kind.answerTimeout : ∀ a1 b1 c1, Sys2Proof.Laws.Kind.Statement (.answerTimeout a1 b1 c1) := fun _ _ _ => Sys2Proof.Laws.kind_none rfl
theorem Sys2Proof.Laws.Kind.planeDeadline : ∀ a1 b1, Sys2Proof.Laws.Kind.Statement (.planeDeadline a1 b1) := fun _ _ => Sys2Proof.Laws.kind_none rfl
theorem Sys2Proof.Laws.Kind.linkReadbackFail : ∀ a1 b1 c1, Sys2Proof.Laws.Kind.Statement (.linkReadbackFail a1 b1 c1) := fun _ _ _ => Sys2Proof.Laws.kind_none rfl
theorem Sys2Proof.Laws.Kind.backchannelSilent : ∀ a1, Sys2Proof.Laws.Kind.Statement (.backchannelSilent a1) := fun _ => Sys2Proof.Laws.kind_none rfl
theorem Sys2Proof.Laws.Kind.arrayTiming : ∀ a1 b1 c1, Sys2Proof.Laws.Kind.Statement (.arrayTiming a1 b1 c1) := fun _ _ _ => Sys2Proof.Laws.kind_none rfl
theorem Sys2Proof.Laws.Kind.lockLost : ∀ a1 b1, Sys2Proof.Laws.Kind.Statement (.lockLost a1 b1) := fun _ _ => Sys2Proof.Laws.kind_none rfl
theorem Sys2Proof.Laws.Kind.trainingStepTimeout : ∀ a1, Sys2Proof.Laws.Kind.Statement (.trainingStepTimeout a1) := fun _ => Sys2Proof.Laws.kind_none rfl
theorem Sys2Proof.Laws.Kind.linkRetrainRetry : ∀ a1, Sys2Proof.Laws.Kind.Statement (.linkRetrainRetry a1) := fun _ => Sys2Proof.Laws.kind_none rfl
theorem Sys2Proof.Laws.Kind.rasterSweepEnd : ∀ a1 b1, Sys2Proof.Laws.Kind.Statement (.rasterSweepEnd a1 b1) := fun _ _ => Sys2Proof.Laws.kind_none rfl
theorem Sys2Proof.Laws.Kind.rasterLock : ∀ a1 b1, Sys2Proof.Laws.Kind.Statement (.rasterLock a1 b1) := fun _ _ => Sys2Proof.Laws.kind_none rfl
theorem Sys2Proof.Laws.Kind.rasterAcquireTimeout : ∀ a1, Sys2Proof.Laws.Kind.Statement (.rasterAcquireTimeout a1) := fun _ => Sys2Proof.Laws.kind_none rfl
theorem Sys2Proof.Laws.Kind.rasterAcquireRetry : ∀ a1, Sys2Proof.Laws.Kind.Statement (.rasterAcquireRetry a1) := fun _ => Sys2Proof.Laws.kind_none rfl
theorem Sys2Proof.Laws.Kind.rasterLockLost : ∀ a1, Sys2Proof.Laws.Kind.Statement (.rasterLockLost a1) := fun _ => Sys2Proof.Laws.kind_none rfl
theorem Sys2Proof.Laws.Kind.rasterGuardTrip : ∀ a1 b1, Sys2Proof.Laws.Kind.Statement (.rasterGuardTrip a1 b1) := fun _ _ => Sys2Proof.Laws.kind_none rfl
theorem Sys2Proof.Laws.Kind.rasterLineStart : ∀ a1 b1 c1 d1, Sys2Proof.Laws.Kind.Statement (.rasterLineStart a1 b1 c1 d1) := fun _ _ _ _ => Sys2Proof.Laws.kind_none rfl
theorem Sys2Proof.Laws.Kind.linePacketSend : ∀ a1 b1 c1 d1, Sys2Proof.Laws.Kind.Statement (.linePacketSend a1 b1 c1 d1) := fun _ _ _ _ => Sys2Proof.Laws.kind_none rfl
theorem Sys2Proof.Laws.Kind.channelJudge : ∀ a1 b1, Sys2Proof.Laws.Kind.Statement (.channelJudge a1 b1) := fun _ _ => Sys2Proof.Laws.kind_none rfl
theorem Sys2Proof.Laws.Kind.overCurrent : ∀ a1 b1, Sys2Proof.Laws.Kind.Statement (.overCurrent a1 b1) := fun _ _ => Sys2Proof.Laws.kind_none rfl
theorem Sys2Proof.Laws.Kind.chFaultRestart : ∀ a1, Sys2Proof.Laws.Kind.Statement (.chFaultRestart a1) := fun _ => Sys2Proof.Laws.kind_none rfl
theorem Sys2Proof.Laws.Kind.gateFault : ∀ a1, Sys2Proof.Laws.Kind.Statement (.gateFault a1) := fun _ => Sys2Proof.Laws.kind_none rfl
theorem Sys2Proof.Laws.Kind.energyTrip : ∀ a1 b1 c1, Sys2Proof.Laws.Kind.Statement (.energyTrip a1 b1 c1) := fun _ _ _ => Sys2Proof.Laws.kind_none rfl
theorem Sys2Proof.Laws.Kind.lockstepFault : Sys2Proof.Laws.Kind.Statement (.lockstepFault) := Sys2Proof.Laws.kind_none rfl
theorem Sys2Proof.Laws.Kind.clockFault : Sys2Proof.Laws.Kind.Statement (.clockFault) := Sys2Proof.Laws.kind_none rfl
theorem Sys2Proof.Laws.Kind.voltageFault : Sys2Proof.Laws.Kind.Statement (.voltageFault) := Sys2Proof.Laws.kind_none rfl
theorem Sys2Proof.Laws.Kind.monitorFaultClear : ∀ a1, Sys2Proof.Laws.Kind.Statement (.monitorFaultClear a1) := fun _ => Sys2Proof.Laws.kind_none rfl
theorem Sys2Proof.Laws.Kind.watchdogExpiry : Sys2Proof.Laws.Kind.Statement (.watchdogExpiry) := Sys2Proof.Laws.kind_none rfl
theorem Sys2Proof.Laws.Kind.eccError : ∀ a1 b1 c1 d1 e1 f1, Sys2Proof.Laws.Kind.Statement (.eccError a1 b1 c1 d1 e1 f1) := fun _ _ _ _ _ _ => Sys2Proof.Laws.kind_none rfl
theorem Sys2Proof.Laws.Kind.q2Timeout : Sys2Proof.Laws.Kind.Statement (.q2Timeout) := Sys2Proof.Laws.kind_none rfl
theorem Sys2Proof.Laws.Kind.safePathReloadDone : ∀ a1 b1, Sys2Proof.Laws.Kind.Statement (.safePathReloadDone a1 b1) := fun _ _ => Sys2Proof.Laws.kind_none rfl
theorem Sys2Proof.Laws.Kind.thermalSample : ∀ a1, Sys2Proof.Laws.Kind.Statement (.thermalSample a1) := fun _ => Sys2Proof.Laws.kind_none rfl
theorem Sys2Proof.Laws.Kind.throttleStepDue : ∀ a1 b1, Sys2Proof.Laws.Kind.Statement (.throttleStepDue a1 b1) := fun _ _ => Sys2Proof.Laws.kind_none rfl
theorem Sys2Proof.Laws.Kind.substituteHoldEnd : ∀ a1, Sys2Proof.Laws.Kind.Statement (.substituteHoldEnd a1) := fun _ => Sys2Proof.Laws.kind_none rfl
theorem Sys2Proof.Laws.Kind.throttleFreezeLift : Sys2Proof.Laws.Kind.Statement (.throttleFreezeLift) := Sys2Proof.Laws.kind_none rfl
theorem Sys2Proof.Laws.Kind.thermalSensorOk : ∀ a1, Sys2Proof.Laws.Kind.Statement (.thermalSensorOk a1) := fun _ => Sys2Proof.Laws.kind_none rfl
theorem Sys2Proof.Laws.Kind.thermalTripClear : ∀ a1, Sys2Proof.Laws.Kind.Statement (.thermalTripClear a1) := fun _ => Sys2Proof.Laws.kind_none rfl
theorem Sys2Proof.Laws.Kind.timingMarginTrip : Sys2Proof.Laws.Kind.Statement (.timingMarginTrip) := Sys2Proof.Laws.kind_none rfl
theorem Sys2Proof.Laws.Kind.powerOnReset : Sys2Proof.Laws.Kind.Statement (.powerOnReset) := Sys2Proof.Laws.kind_none rfl
theorem Sys2Proof.Laws.Kind.pinReset : Sys2Proof.Laws.Kind.Statement (.pinReset) := Sys2Proof.Laws.kind_none rfl
theorem Sys2Proof.Laws.Kind.warmReset : Sys2Proof.Laws.Kind.Statement (.warmReset) := Sys2Proof.Laws.kind_none rfl
theorem Sys2Proof.Laws.Kind.resetRelease : ∀ a1 b1, Sys2Proof.Laws.Kind.Statement (.resetRelease a1 b1) := fun _ _ => Sys2Proof.Laws.kind_none rfl
theorem Sys2Proof.Laws.Kind.bootStart : Sys2Proof.Laws.Kind.Statement (.bootStart) := Sys2Proof.Laws.kind_none rfl
theorem Sys2Proof.Laws.Kind.pllLockTimeout : Sys2Proof.Laws.Kind.Statement (.pllLockTimeout) := Sys2Proof.Laws.kind_none rfl
theorem Sys2Proof.Laws.Kind.readyPoint : ∀ a1, Sys2Proof.Laws.Kind.Statement (.readyPoint a1) := fun _ => Sys2Proof.Laws.kind_none rfl
theorem Sys2Proof.Laws.Kind.firstLightTimeout : Sys2Proof.Laws.Kind.Statement (.firstLightTimeout) := Sys2Proof.Laws.kind_none rfl
theorem Sys2Proof.Laws.Kind.trialTimeout : Sys2Proof.Laws.Kind.Statement (.trialTimeout) := Sys2Proof.Laws.kind_none rfl
theorem Sys2Proof.Laws.Kind.coreHeartbeatTimeout : ∀ a1, Sys2Proof.Laws.Kind.Statement (.coreHeartbeatTimeout a1) := fun _ => Sys2Proof.Laws.kind_none rfl
theorem Sys2Proof.Laws.Kind.coreRestart : ∀ a1, Sys2Proof.Laws.Kind.Statement (.coreRestart a1) := fun _ => Sys2Proof.Laws.kind_none rfl
theorem Sys2Proof.Laws.Kind.calApplied : Sys2Proof.Laws.Kind.Statement (.calApplied) := Sys2Proof.Laws.kind_none rfl
theorem Sys2Proof.Laws.Kind.idcode : Sys2Proof.Laws.Kind.Statement (.idcode) := Sys2Proof.Laws.kind_none rfl
theorem Sys2Proof.Laws.Kind.bypass : ∀ a1, Sys2Proof.Laws.Kind.Statement (.bypass a1) := fun _ => Sys2Proof.Laws.kind_none rfl
theorem Sys2Proof.Laws.Kind.samplePreload : ∀ a1, Sys2Proof.Laws.Kind.Statement (.samplePreload a1) := fun _ => Sys2Proof.Laws.kind_none rfl
theorem Sys2Proof.Laws.Kind.extest : ∀ a1, Sys2Proof.Laws.Kind.Statement (.extest a1) := fun _ => Sys2Proof.Laws.kind_none rfl
theorem Sys2Proof.Laws.Kind.otpProgrammingInstruction : ∀ a1, Sys2Proof.Laws.Kind.Statement (.otpProgrammingInstruction a1) := fun _ => Sys2Proof.Laws.kind_none rfl
theorem Sys2Proof.Laws.Kind.echo : ∀ a1, Sys2Proof.Laws.Kind.Statement (.echo a1) := fun _ => Sys2Proof.Laws.kind_none rfl
theorem Sys2Proof.Laws.Kind.echoReply : ∀ a1 b1, Sys2Proof.Laws.Kind.Statement (.echoReply a1 b1) := fun _ _ => Sys2Proof.Laws.kind_none rfl
theorem Sys2Proof.Laws.Kind.boundary : ∀ a1, Sys2Proof.Laws.Kind.Statement (.boundary a1) := fun _ => Sys2Proof.Laws.kind_none rfl
theorem Sys2Proof.Laws.Kind.mode : ∀ a1, Sys2Proof.Laws.Kind.Statement (.mode a1) := fun _ => Sys2Proof.Laws.kind_some rfl rfl
theorem Sys2Proof.Laws.Kind.vote : ∀ a1, Sys2Proof.Laws.Kind.Statement (.vote a1) := fun _ => Sys2Proof.Laws.kind_some rfl rfl
theorem Sys2Proof.Laws.Kind.cap : ∀ a1, Sys2Proof.Laws.Kind.Statement (.cap a1) := fun _ => Sys2Proof.Laws.kind_some rfl rfl
theorem Sys2Proof.Laws.Kind.enum : ∀ a1, Sys2Proof.Laws.Kind.Statement (.enum a1) := fun _ => Sys2Proof.Laws.kind_none rfl
theorem Sys2Proof.Laws.Kind.enumReport : ∀ a1, Sys2Proof.Laws.Kind.Statement (.enumReport a1) := fun _ => Sys2Proof.Laws.kind_some rfl rfl
theorem Sys2Proof.Laws.Kind.enumEnd : ∀ a1, Sys2Proof.Laws.Kind.Statement (.enumEnd a1) := fun _ => Sys2Proof.Laws.kind_some rfl rfl
theorem Sys2Proof.Laws.Kind.enumCut : ∀ a1, Sys2Proof.Laws.Kind.Statement (.enumCut a1) := fun _ => Sys2Proof.Laws.kind_none rfl
theorem Sys2Proof.Laws.Kind.enumReq : ∀ a1, Sys2Proof.Laws.Kind.Statement (.enumReq a1) := fun _ => Sys2Proof.Laws.kind_some rfl rfl
theorem Sys2Proof.Laws.Kind.enumTimeout : Sys2Proof.Laws.Kind.Statement (.enumTimeout) := Sys2Proof.Laws.kind_none rfl
theorem Sys2Proof.Laws.Kind.chainBoundaryMiss : Sys2Proof.Laws.Kind.Statement (.chainBoundaryMiss) := Sys2Proof.Laws.kind_none rfl
theorem Sys2Proof.Laws.Kind.blockStart : ∀ a1, Sys2Proof.Laws.Kind.Statement (.blockStart a1) := fun _ => Sys2Proof.Laws.kind_some rfl rfl
theorem Sys2Proof.Laws.Kind.segment : ∀ a1, Sys2Proof.Laws.Kind.Statement (.segment a1) := fun _ => Sys2Proof.Laws.kind_some rfl rfl
theorem Sys2Proof.Laws.Kind.blockAck : ∀ a1, Sys2Proof.Laws.Kind.Statement (.blockAck a1) := fun _ => Sys2Proof.Laws.kind_some rfl rfl
theorem Sys2Proof.Laws.Kind.blockIncompleteTimeout : Sys2Proof.Laws.Kind.Statement (.blockIncompleteTimeout) := Sys2Proof.Laws.kind_none rfl
theorem Sys2Proof.Laws.Kind.updCtrlOpen : ∀ a1, Sys2Proof.Laws.Kind.Statement (.updCtrlOpen a1) := fun _ => Sys2Proof.Laws.kind_none rfl
theorem Sys2Proof.Laws.Kind.updCtrlVerify : ∀ a1, Sys2Proof.Laws.Kind.Statement (.updCtrlVerify a1) := fun _ => Sys2Proof.Laws.kind_none rfl
theorem Sys2Proof.Laws.Kind.updCtrlActivate : ∀ a1, Sys2Proof.Laws.Kind.Statement (.updCtrlActivate a1) := fun _ => Sys2Proof.Laws.kind_none rfl
theorem Sys2Proof.Laws.Kind.updCtrlAbort : ∀ a1, Sys2Proof.Laws.Kind.Statement (.updCtrlAbort a1) := fun _ => Sys2Proof.Laws.kind_none rfl
theorem Sys2Proof.Laws.Kind.updCtrlDisarm : ∀ a1, Sys2Proof.Laws.Kind.Statement (.updCtrlDisarm a1) := fun _ => Sys2Proof.Laws.kind_none rfl
theorem Sys2Proof.Laws.Kind.updResp : ∀ a1, Sys2Proof.Laws.Kind.Statement (.updResp a1) := fun _ => Sys2Proof.Laws.kind_some rfl rfl
theorem Sys2Proof.Laws.Kind.cmd : ∀ a1, Sys2Proof.Laws.Kind.Statement (.cmd a1) := fun _ => Sys2Proof.Laws.kind_some rfl rfl
theorem Sys2Proof.Laws.Kind.cmdData : ∀ a1, Sys2Proof.Laws.Kind.Statement (.cmdData a1) := fun _ => Sys2Proof.Laws.kind_some rfl rfl
theorem Sys2Proof.Laws.Kind.cmdResp : ∀ a1, Sys2Proof.Laws.Kind.Statement (.cmdResp a1) := fun _ => Sys2Proof.Laws.kind_some rfl rfl
theorem Sys2Proof.Laws.Kind.cmdRespTimeout : Sys2Proof.Laws.Kind.Statement (.cmdRespTimeout) := Sys2Proof.Laws.kind_none rfl
theorem Sys2Proof.Laws.Kind.evt : ∀ a1, Sys2Proof.Laws.Kind.Statement (.evt a1) := fun _ => Sys2Proof.Laws.kind_some rfl rfl
theorem Sys2Proof.Laws.Kind.evtAck : ∀ a1, Sys2Proof.Laws.Kind.Statement (.evtAck a1) := fun _ => Sys2Proof.Laws.kind_some rfl rfl
theorem Sys2Proof.Laws.Kind.evtAckTimeout : Sys2Proof.Laws.Kind.Statement (.evtAckTimeout) := Sys2Proof.Laws.kind_none rfl
theorem Sys2Proof.Laws.Kind.cwPortSilent : ∀ a1, Sys2Proof.Laws.Kind.Statement (.cwPortSilent a1) := fun _ => Sys2Proof.Laws.kind_none rfl
theorem Sys2Proof.Laws.Kind.cwDelayRemeasure : ∀ a1, Sys2Proof.Laws.Kind.Statement (.cwDelayRemeasure a1) := fun _ => Sys2Proof.Laws.kind_none rfl
theorem Sys2Proof.Laws.Kind.cwTrainingRetry : ∀ a1, Sys2Proof.Laws.Kind.Statement (.cwTrainingRetry a1) := fun _ => Sys2Proof.Laws.kind_none rfl
theorem Sys2Proof.Laws.Kind.unassignedOpcode : ∀ a1 b1, Sys2Proof.Laws.Kind.Statement (.unassignedOpcode a1 b1) := fun _ _ => Sys2Proof.Laws.kind_none rfl
theorem Sys2Proof.Laws.Kind.badAccessRead : ∀ a1 b1 c1, Sys2Proof.Laws.Kind.Statement (.badAccessRead a1 b1 c1) := fun _ _ _ => Sys2Proof.Laws.kind_none rfl
theorem Sys2Proof.Laws.Kind.ideKm : ∀ a1 b1, Sys2Proof.Laws.Kind.Statement (.ideKm a1 b1) := fun _ _ => Sys2Proof.Laws.kind_none rfl
theorem Sys2Proof.Laws.Kind.cxlKp : ∀ a1 b1, Sys2Proof.Laws.Kind.Statement (.cxlKp a1 b1) := fun _ _ => Sys2Proof.Laws.kind_none rfl
theorem Sys2Proof.Laws.Kind.aerErrorLog : ∀ a1 b1 c1, Sys2Proof.Laws.Kind.Statement (.aerErrorLog a1 b1 c1) := fun _ _ _ => Sys2Proof.Laws.kind_none rfl
theorem Sys2Proof.Laws.Kind.pmicWriteDone : ∀ a1, Sys2Proof.Laws.Kind.Statement (.pmicWriteDone a1) := fun _ => Sys2Proof.Laws.kind_none rfl
theorem Sys2Proof.Laws.Kind.flashSliceDone : ∀ a1 b1, Sys2Proof.Laws.Kind.Statement (.flashSliceDone a1 b1) := fun _ _ => Sys2Proof.Laws.kind_none rfl
theorem Sys2Proof.Laws.Kind.otpSeriesDone : ∀ a1, Sys2Proof.Laws.Kind.Statement (.otpSeriesDone a1) := fun _ => Sys2Proof.Laws.kind_none rfl
theorem Sys2Proof.Laws.Kind.bootFault : ∀ a1, Sys2Proof.Laws.Kind.Statement (.bootFault a1) := fun _ => Sys2Proof.Laws.kind_none rfl
theorem Sys2Proof.Laws.Kind.cwLockLost : ∀ a1, Sys2Proof.Laws.Kind.Statement (.cwLockLost a1) := fun _ => Sys2Proof.Laws.kind_none rfl
end

