-- ==== Sys2Proof/Laws/Settle.lean ====
section
/-! SUPPORT. The close of a command (R363): what it leaves, field by field, and how it closes a statement. -/

namespace Sys2Proof.Machine

@[simp] theorem settle_clk (s : State) : (settle s).clk = s.clk := (settle_only s).same .clk rfl
@[simp] theorem settle_cfg (s : State) : (settle s).cfg = s.cfg := (settle_only s).same .cfg rfl
@[simp] theorem settle_pendLv (s : State) : (settle s).pendLv = s.pendLv := (settle_only s).same .pendLv rfl
@[simp] theorem settle_openSet (s : State) : (settle s).openSet = s.openSet := (settle_only s).same .openSet rfl
@[simp] theorem settle_com (s : State) : (settle s).com = s.com := (settle_only s).same .com rfl
@[simp] theorem settle_comp (s : State) : (settle s).comp = s.comp := (settle_only s).same .comp rfl
@[simp] theorem settle_heads (s : State) : (settle s).heads = s.heads := (settle_only s).same .heads rfl
@[simp] theorem settle_links (s : State) : (settle s).links = s.links := (settle_only s).same .links rfl
@[simp] theorem settle_rasters (s : State) : (settle s).rasters = s.rasters := (settle_only s).same .rasters rfl
@[simp] theorem settle_chans (s : State) : (settle s).chans = s.chans := (settle_only s).same .chans rfl
@[simp] theorem settle_loops (s : State) : (settle s).loops = s.loops := (settle_only s).same .loops rfl
@[simp] theorem settle_oss (s : State) : (settle s).oss = s.oss := (settle_only s).same .oss rfl
@[simp] theorem settle_lines (s : State) : (settle s).lines = s.lines := (settle_only s).same .lines rfl
@[simp] theorem settle_sluice (s : State) : (settle s).sluice = s.sluice := (settle_only s).same .sluice rfl
@[simp] theorem settle_therm (s : State) : (settle s).therm = s.therm := (settle_only s).same .therm rfl
@[simp] theorem settle_safety (s : State) : (settle s).safety = s.safety := (settle_only s).same .safety rfl
@[simp] theorem settle_queues (s : State) : (settle s).queues = s.queues := (settle_only s).same .queues rfl
@[simp] theorem settle_ev (s : State) : (settle s).ev = s.ev := (settle_only s).same .ev rfl
@[simp] theorem settle_boot (s : State) : (settle s).boot = s.boot := (settle_only s).same .boot rfl
@[simp] theorem settle_power (s : State) : (settle s).power = s.power := (settle_only s).same .power rfl
@[simp] theorem settle_otp (s : State) : (settle s).otp = s.otp := (settle_only s).same .otp rfl
@[simp] theorem settle_cal (s : State) : (settle s).cal = s.cal := (settle_only s).same .cal rfl
@[simp] theorem settle_flash (s : State) : (settle s).flash = s.flash := (settle_only s).same .flash rfl
@[simp] theorem settle_upd (s : State) : (settle s).upd = s.upd := (settle_only s).same .upd rfl
@[simp] theorem settle_cw (s : State) : (settle s).cw = s.cw := (settle_only s).same .cw rfl
@[simp] theorem settle_jtag (s : State) : (settle s).jtag = s.jtag := (settle_only s).same .jtag rfl
@[simp] theorem settle_bar2 (s : State) : (settle s).bar2 = s.bar2 := (settle_only s).same .bar2 rfl
@[simp] theorem settle_planes (s : State) : (settle s).planes = s.planes := (settle_only s).same .planes rfl
@[simp] theorem settle_canvas (s : State) : (settle s).canvas = s.canvas := (settle_only s).same .canvas rfl
@[simp] theorem settle_mirrorGen (s : State) : (settle s).mirrorGen = s.mirrorGen := (settle_only s).same .mirrorGen rfl
@[simp] theorem settle_free (s : State) : (settle s).free = s.free := (settle_only s).same .free rfl
@[simp] theorem settle_pending (s : State) : (settle s).pending = s.pending := (settle_only s).same .pending rfl

/-- The CXL port keeps all but the copy of SAFE_SUMMARY, the pending vectors and the time of the last signal. -/
theorem settle_cxl (s : State) : (settle s).cxl =
    { s.cxl with summary := (settle s).cxl.summary, msixPend := (settle s).cxl.msixPend, lastSignal := (settle s).cxl.lastSignal } := by
  unfold settle
  dsimp only
  split
  · rfl
  · unfold signal
    split
    · simp only [onCxl_cxl]
    · simp only [emit_cxl, onCxl_cxl]

/-- A command whose effect is `u` ends in it, closed. -/
theorem ends_of {c : Instr} {s u : State} {f : List Part} {P : State → Prop} (h : exec c s = .next (settle u)) (ho : Only f u s)
    (hc : holdsAll f [.cxl, .out] = true) (hp : P (settle u)) : Ends c s f P :=
  ⟨settle u, h, only_step (settle_only u) hc ho, hp⟩

end Sys2Proof.Machine
end

