-- ==== Sys2Proof/Tests/Slice0.lean ====
section
/-! SUPPORT. Tests: the well-formedness checks, small tests of single steps whose expected results are the spec's, and for every
statement with hypotheses a witness: states and operands that meet the hypotheses of each of its clauses. -/

namespace Sys2Proof.Tests

open Sys2Proof Sys2Proof.Machine

-- One theorem after another: each kernel evaluation in a thread of its own would need a stack of its own.
set_option Elab.async false

/-- The state that a command leaves. -/
def after (c : Instr) (s : State) : State :=
  match exec c s with
  | .next t => t
  | _ => s

theorem accepts_assigned {op : Op} {q : Fin 4} (h : op.accepts q = true) (c : BitVec 16) : op ≠ .unassigned c := by
  intro e; subst e; cases h

/-- An opcode that a queue accepts is assigned; the rest of Admitted is decided. -/
theorem admitted_of {op : Op} {d : Desc} {s : State} (h : op.accepts d.queue = true)
    (g : s.boot.stage = .running ∧ waitsForLatch op s = false ∧ reservedDesc op.code d = none ∧
      reservedBits op.fields d.payload.toNat 384 0 = none ∧ (d.queue = 2 → BitVec.ofNat 16 (descCrc op.code d) = d.crc16 ∧
        (s.safety.anyAlive = true ∨ d.alive = s.safety.alive))) : Admitted op d s := by
  obtain ⟨run, wait, rest⟩ := g
  exact ⟨accepts_assigned h, run, wait, h, rest⟩

/-- A canvas of zeros and a TICK that is not aligned leave the rest of Safe to be decided. -/
theorem safe_of {s : State} (c : s.canvas = []) (a : s.clk.alignTo = none)
    (g : Memory.wf s.bar2 = true ∧ Memory.wf s.planes = true ∧ s.clk.tick < 2 ^ 48 ∧ ∀ q : Fin 4, s.queues[q].journal.length ≤ 16) :
    Safe s := by
  obtain ⟨bar, store, tick, journals⟩ := g
  exact ⟨bar, store, by rw [c]; simp [canvasWf], tick, by simp [a], journals⟩

/-- The device runs, in BLANK, with every queue enabled. -/
def up : State :=
  onQueues (·.map fun q => { q with en := true })
    (onBoot (fun b => { b with stage := .running }) (onClk (fun c => { c with phase := .blank, held := false }) State.reset))

/-- A descriptor of a queue with a payload of fields. -/
def ask (q : Fin 4) (fs : List (Nat × Nat × Nat)) : Desc :=
  { queue := q, alive := 0, rsv24 := 0, crc16 := 0, rsv48 := 0, tag := 7, rsv96 := 0, payload := BitVec.ofNat 384 (pack fs) }

/-- A descriptor of Q2, with its check code. -/
def ask2 (op : Op) (fs : List (Nat × Nat × Nat)) : Desc :=
  { ask 2 fs with crc16 := BitVec.ofNat 16 (descCrc op.code (ask 2 fs)) }

/-- Bytes in the staging area. -/
def stage (bs : List Byte) (s : State) : State := onBar2 (fun m => memPut m stageLo bs) s

/-- A LAYER_SET of G0: 64 × 32 ARGB pixels, source and destination alike. -/
def layerAsk : Desc := ask 0 [(0, 5, 8), (17, 2, 1), (32, 16, 0xFFFF), (48, 16, 4), (80, 16, 64), (96, 16, 32), (144, 16, 64),
  (160, 16, 32), (208, 16, 64), (224, 16, 32), (256, 64, 0x100000)]

/-- A LUT_LOAD of the palette of G0. -/
def lutAsk : Desc := ask 0 [(0, 5, 8), (8, 2, 2), (32, 32, stageLo), (64, 32, crc32c (List.replicate 1024 0))]

/-- 64 phases of eight taps, all of the weight on the first. -/
def tapBytes : List Byte := ((List.range 64).map fun _ => [0x00, 0x40] ++ List.replicate 14 0).flatten

/-- A COEFF_LOAD of V0, set 1, with those taps. -/
def coeffAsk : Desc := ask 0 [(2, 2, 1), (32, 32, stageLo), (64, 32, crc32c tapBytes)]

/-- A BLEND_ORDER_SET that turns the order round. -/
def blendAsk : Desc := ask 0 ((List.range 24).map fun k => (8 + 5 * k, 5, 23 - k))

set_option maxRecDepth 100000 in
/-- What LayerCommandsTakeEffect asks of its clauses is met. -/
theorem witness_LayerCommandsTakeEffect :
  (Serves layerAsk.queue up ∧ Admitted .layerSet layerAsk up ∧ layerSetRef layerAsk.payload (fetched .layerSet layerAsk up) = none) ∧
  (Serves 0 up ∧ Admitted .layerEnable (ask 0 [(0, 24, 5), (32, 24, 7)]) up ∧ layerEnableRef (ask 0 [(0, 24, 5), (32, 24, 7)]).payload (fetched .layerEnable (ask 0 [(0, 24, 5), (32, 24, 7)]) up) = none) ∧
  (Serves lutAsk.queue up ∧ Admitted .lutLoad lutAsk up ∧ lutLoadRef lutAsk.payload (fetched .lutLoad lutAsk up) = none) ∧
  (Serves coeffAsk.queue (stage tapBytes up) ∧ Admitted .coeffLoad coeffAsk (stage tapBytes up) ∧ coeffLoadRef coeffAsk.payload (fetched .coeffLoad coeffAsk (stage tapBytes up)) = none) ∧
  (Serves blendAsk.queue up ∧ Admitted .blendOrderSet blendAsk up ∧ orderOk (slotsOf blendAsk.payload) = true) ∧
  (Serves 1 up ∧ Admitted .fenceModeSet (ask 1 [(0, 1, 1), (8, 4, 1), (12, 4, 15)]) up ∧ fld (ask 1 [(0, 1, 1), (8, 4, 1), (12, 4, 15)]).payload 8 4 ≠ 0 ∧ fld (ask 1 [(0, 1, 1), (8, 4, 1), (12, 4, 15)]).payload 12 4 ≠ 0) ∧
  (Serves 0 up ∧ RecordAdmitted 0x01 (ask 0 [(64, 64, 0x200000), (128, 32, 2)]) up ∧ (writeMemory (recordOf (withRecord 0x01 (ask 0 [(64, 64, 0x200000), (128, 32, 2)]))) (fetched .settingsWrite (withRecord 0x01 (ask 0 [(64, 64, 0x200000), (128, 32, 2)])) up)).1 = none) ∧
  (Serves 0 up ∧ RecordAdmitted 0x02 (ask 0 [(96, 1, 1)]) up ∧ (writeCanvas (recordOf (withRecord 0x02 (ask 0 [(96, 1, 1)]))) (fetched .settingsWrite (withRecord 0x02 (ask 0 [(96, 1, 1)])) up)).1 = none) :=
  ⟨⟨by unfold Serves; decide +kernel, admitted_of (by decide +kernel) (by decide +kernel), by decide +kernel⟩,
   ⟨by unfold Serves; decide +kernel, admitted_of (by decide +kernel) (by decide +kernel), by decide +kernel⟩,
   ⟨by unfold Serves; decide +kernel, admitted_of (by decide +kernel) (by decide +kernel), by decide +kernel⟩,
   ⟨by unfold Serves; decide +kernel, admitted_of (by decide +kernel) (by decide +kernel), by decide +kernel⟩,
   ⟨by unfold Serves; decide +kernel, admitted_of (by decide +kernel) (by decide +kernel), by decide +kernel⟩,
   ⟨by unfold Serves; decide +kernel, admitted_of (by decide +kernel) (by decide +kernel), by decide +kernel, by decide +kernel⟩,
   ⟨by unfold Serves; decide +kernel, ⟨admitted_of (by decide +kernel) (by decide +kernel), by decide +kernel⟩, by decide +kernel⟩,
   ⟨by unfold Serves; decide +kernel, ⟨admitted_of (by decide +kernel) (by decide +kernel), by decide +kernel⟩, by decide +kernel⟩⟩

set_option maxRecDepth 100000 in
/-- What CommitFreezesTheOpenSet asks of its clauses is met. -/
theorem witness_CommitFreezesTheOpenSet :
  (Serves 0 up ∧ Admitted .commit (ask 0 [(0, 32, 9), (48, 1, 1), (64, 16, 5)]) up ∧ commitRef (ask 0 [(0, 32, 9), (48, 1, 1), (64, 16, 5)]).payload (fetched .commit (ask 0 [(0, 32, 9), (48, 1, 1), (64, 16, 5)]) up) = none) :=
  ⟨by unfold Serves; decide +kernel, admitted_of (by decide +kernel) (by decide +kernel), by decide +kernel⟩

/-- Head 0 with an output of 256 × 128 and the lowest LEVEL_FLOOR. -/
def sized : State := onCfg (setHead 0 (fun h => { h with outW := 256, outH := 128, arr := { h.arr with levelFloor := 64 } })) up

/-- A flat mesh of 9 × 5 points for it. -/
def meshBytes : List Byte :=
  toBytes 4 0x314D5747 ++ [1, 5, 5, 0] ++ toBytes 2 9 ++ toBytes 2 5 ++ toBytes 2 256 ++ toBytes 2 128 ++ List.replicate 228 0

/-- A WARP_LOAD of it into both slots. -/
def warpAsk : Desc := ask 0 [(4, 1, 1), (32, 32, stageLo), (64, 32, crc32c meshBytes)]

/-- A sequence of 16 bits per colour, each once, bit 0 lasting 114 × 250 ps. -/
def seqBytes : List Byte :=
  toBytes 4 0x51535047 ++ [1, 16, 1, 48] ++ List.replicate 24 0 ++
    ((List.range 48).map fun e => toBytes 8 (e / 16 + 4 * (e % 16) + 256 * (114 * 2 ^ (e % 16)))).flatten

/-- A PLANE_SEQ_LOAD of it for head 0. -/
def seqAsk : Desc := ask 0 [(32, 32, stageLo), (64, 32, crc32c seqBytes)]

/-- A TIMING_SET of the tick group: 8 to 10 ms. -/
def timingAsk : Desc := ask 0 [(0, 3, 1), (16, 16, 8000), (32, 16, 10000), (48, 10, 250)]

/-- An array record of head 0 as at reset, but for DITHER. -/
def arrayAsk : Desc := ask 0 [(72, 16, 0x7D0), (88, 16, 0x3E8), (104, 16, 0x2710), (120, 7, 2), (128, 16, 0xCD), (144, 2, 1)]

/-- A raster record of head 0: 21 kHz, no amplitude set. -/
def rasterAsk : Desc := ask 0 [(72, 16, 21000), (88, 3, 1), (160, 16, 40), (176, 16, 64), (224, 16, 64)]

/-- A pixel timing record of an empty output: two entries are not needed, one is. -/
def rtBytes : List Byte := toBytes 4 0x54505247 ++ [1, 0, 1, 0] ++ List.replicate 8 0 ++ [0, 0]

/-- The pixel timing record that loads it. -/
def pixelAsk : Desc := ask 0 [(96, 32, stageLo), (128, 32, crc32c rtBytes)]

/-- A canvas of 256 × 128, and a HEAD_SET of head 1 that takes it as it is. -/
def canvased : State := onCfg (fun c => { c with canvas := { c.canvas with w := 256, h := 128 }, mem := { c.mem with canvasMib := 1, planeMib := 4, planeBase := 0x100000 } }) up
def headAsk : Desc := ask 0 [(0, 2, 1), (12, 2, 2), (16, 16, 256), (32, 16, 128), (96, 16, 256), (112, 16, 128)]

set_option maxRecDepth 100000 in
/-- What HeadCommandsTakeEffect asks of its clauses is met. -/
theorem witness_HeadCommandsTakeEffect :
  (Serves headAsk.queue canvased ∧ Admitted .headSet headAsk canvased ∧ headSetRef headAsk.payload (fetched .headSet headAsk canvased) = none) ∧
  (Serves warpAsk.queue (stage meshBytes sized) ∧ Admitted .warpLoad warpAsk (stage meshBytes sized) ∧ warpLoadRef warpAsk.payload (fetched .warpLoad warpAsk (stage meshBytes sized)) = none) ∧
  (Serves timingAsk.queue up ∧ Admitted .timingSet timingAsk up ∧ (bit timingAsk.payload 0 || bit timingAsk.payload 1 || bit timingAsk.payload 2) = true ∧ timingSetRef timingAsk.payload (fetched .timingSet timingAsk up) = none) ∧
  (Serves seqAsk.queue (stage seqBytes sized) ∧ Admitted .planeSeqLoad seqAsk (stage seqBytes sized) ∧ seqLoadRef seqAsk.payload (fetched .planeSeqLoad seqAsk (stage seqBytes sized)) = none) ∧
  (Serves 0 up ∧ Admitted .dimSet (ask 0 [(0, 4, 15), (16, 8, 3), (32, 32, 0x1A36E)]) up ∧ fld (ask 0 [(0, 4, 15), (16, 8, 3), (32, 32, 0x1A36E)]).payload 0 4 ≠ 0 ∧ 0x1A36E ≤ fld (ask 0 [(0, 4, 15), (16, 8, 3), (32, 32, 0x1A36E)]).payload 32 32 ∧ fld (ask 0 [(0, 4, 15), (16, 8, 3), (32, 32, 0x1A36E)]).payload 32 32 ≤ 0x80000000) ∧
  (Serves 0 up ∧ RecordAdmitted 0x03 (ask 0 [(64, 2, 1), (80, 240, 1)]) up) ∧
  (Serves arrayAsk.queue up ∧ RecordAdmitted 0x04 arrayAsk up ∧ (writeArray (recordOf (withRecord 0x04 arrayAsk)) (fetched .settingsWrite (withRecord 0x04 arrayAsk) up)).1 = none) ∧
  (Serves rasterAsk.queue up ∧ RecordAdmitted 0x05 rasterAsk up ∧ (writeRaster (up.rasters[headOf (recordOf (withRecord 0x05 rasterAsk))].scan != 0) (recordOf (withRecord 0x05 rasterAsk)) (fetched .settingsWrite (withRecord 0x05 rasterAsk) up)).1 = none) ∧
  (Serves pixelAsk.queue (stage rtBytes up) ∧ RecordAdmitted 0x06 pixelAsk (stage rtBytes up) ∧ (writePixelTiming (recordOf (withRecord 0x06 pixelAsk)) (fetched .settingsWrite (withRecord 0x06 pixelAsk) (stage rtBytes up))).1 = none) :=
  ⟨⟨by unfold Serves; decide +kernel, admitted_of (by decide +kernel) (by decide +kernel), by decide +kernel⟩,
   ⟨by unfold Serves; decide +kernel, admitted_of (by decide +kernel) (by decide +kernel), by decide +kernel⟩,
   ⟨by unfold Serves; decide +kernel, admitted_of (by decide +kernel) (by decide +kernel), by decide +kernel, by decide +kernel⟩,
   ⟨by unfold Serves; decide +kernel, admitted_of (by decide +kernel) (by decide +kernel), by decide +kernel⟩,
   ⟨by unfold Serves; decide +kernel, admitted_of (by decide +kernel) (by decide +kernel), by decide +kernel, by decide +kernel, by decide +kernel⟩,
   ⟨by unfold Serves; decide +kernel, ⟨admitted_of (by decide +kernel) (by decide +kernel), by decide +kernel⟩⟩,
   ⟨by unfold Serves; decide +kernel, ⟨admitted_of (by decide +kernel) (by decide +kernel), by decide +kernel⟩, by decide +kernel⟩,
   ⟨by unfold Serves; decide +kernel, ⟨admitted_of (by decide +kernel) (by decide +kernel), by decide +kernel⟩, by decide +kernel⟩,
   ⟨by unfold Serves; decide +kernel, ⟨admitted_of (by decide +kernel) (by decide +kernel), by decide +kernel⟩, by decide +kernel⟩⟩

/-- A LIGHT_CHANNEL_SET of channel 63, disabled, everything at its lower limit. -/
def chanAsk : Desc := ask 1 [(0, 6, 63), (32, 16, 2000), (96, 16, 100), (112, 8, 2), (176, 8, 105), (184, 8, 1), (192, 8, 1)]

/-- A COLOUR_TARGET_SET of head 3 at the lower limits. -/
def targetAsk : Desc := ask 0 [(0, 2, 3), (8, 3, 7), (16, 16, 0x800), (32, 16, 0x800), (48, 16, 0x8000), (64, 8, 1), (72, 8, 64)]

/-- Line 0 with 128 nodes. -/
def lined : State := onCfg (fun c => { c with lines := upd c.lines 0 (fun x => { x with st := { x.st with nodes := 128 } }) }) up

/-- A LAMP_SET of all 128 nodes to one value, a LAMP_FADE of the last. -/
def lampAsk : Desc := ask 0 [(15, 1, 1), (16, 8, 128), (96, 16, 0xFFFF)]
def fadeAsk : Desc := ask 0 [(8, 7, 127), (16, 8, 1), (24, 2, 1), (32, 16, 500)]

/-- Link, OS and line records. -/
def linkAsk : Desc := ask 0 [(72, 8, 255), (81, 2, 2), (96, 16, 1)]
def osAsk : Desc := ask 0 [(64, 3, 7), (72, 1, 1), (75, 3, 7), (80, 3, 4)]
def lineAsk : Desc := ask 0 [(73, 3, 5), (88, 8, 128), (96, 8, 60)]

set_option maxRecDepth 100000 in
/-- What LightCommandsTakeEffect asks of its clauses is met. -/
theorem witness_LightCommandsTakeEffect :
  (Serves chanAsk.queue up ∧ Admitted .lightChannelSet chanAsk up ∧ chanSetRef chanAsk.payload (fetched .lightChannelSet chanAsk up) = none) ∧
  (Serves targetAsk.queue up ∧ Admitted .colourTargetSet targetAsk up ∧ colourTargetRef targetAsk.payload (fetched .colourTargetSet targetAsk up) = none) ∧
  (Serves lampAsk.queue lined ∧ Admitted .lampSet lampAsk lined ∧ lampSetRef lampAsk.payload (fetched .lampSet lampAsk lined) = none) ∧
  (Serves fadeAsk.queue lined ∧ Admitted .lampFade fadeAsk lined ∧ 1 ≤ fld fadeAsk.payload 16 8 ∧ fld fadeAsk.payload 16 8 ≤ 128 ∧ fld fadeAsk.payload 8 7 + fld fadeAsk.payload 16 8 ≤ lined.cfg.lines[headOf fadeAsk.payload].st.nodes ∧ fld fadeAsk.payload 24 2 ≤ 1) ∧
  (Serves linkAsk.queue up ∧ RecordAdmitted 0x07 linkAsk up ∧ (writeLink (recordOf (withRecord 0x07 linkAsk)) (fetched .settingsWrite (withRecord 0x07 linkAsk) up)).1 = none) ∧
  (Serves osAsk.queue up ∧ RecordAdmitted 0x08 osAsk up ∧ (writeOs (recordOf (withRecord 0x08 osAsk)) (fetched .settingsWrite (withRecord 0x08 osAsk) up)).1 = none) ∧
  (Serves lineAsk.queue up ∧ RecordAdmitted 0x09 lineAsk up ∧ (writeLine (recordOf (withRecord 0x09 lineAsk)) (fetched .settingsWrite (withRecord 0x09 lineAsk) up)).1 = none) :=
  ⟨⟨by unfold Serves; decide +kernel, admitted_of (by decide +kernel) (by decide +kernel), by decide +kernel⟩,
   ⟨by unfold Serves; decide +kernel, admitted_of (by decide +kernel) (by decide +kernel), by decide +kernel⟩,
   ⟨by unfold Serves; decide +kernel, admitted_of (by decide +kernel) (by decide +kernel), by decide +kernel⟩,
   ⟨by unfold Serves; decide +kernel, admitted_of (by decide +kernel) (by decide +kernel), by decide +kernel, by decide +kernel, by decide +kernel, by decide +kernel⟩,
   ⟨by unfold Serves; decide +kernel, ⟨admitted_of (by decide +kernel) (by decide +kernel), by decide +kernel⟩, by decide +kernel⟩,
   ⟨by unfold Serves; decide +kernel, ⟨admitted_of (by decide +kernel) (by decide +kernel), by decide +kernel⟩, by decide +kernel⟩,
   ⟨by unfold Serves; decide +kernel, ⟨admitted_of (by decide +kernel) (by decide +kernel), by decide +kernel⟩, by decide +kernel⟩⟩

/-- A THERMAL_SET with the groups in order and every pair a sensor with itself. -/
def thermAsk : Desc := ask 1 ([(0, 16, 100), (16, 16, 300), (32, 16, 1000), (48, 16, 200), (112, 16, 100), (128, 16, 300), (144, 16, 400),
  (160, 16, 200)] ++ (List.range 16).map fun n => (256 + 4 * n, 4, n))

/-- The device in NORMAL mode. -/
def normal : State := onCal (fun c => { c with inputs := { c.inputs with refUv := 1188000 } }) (onSafety (fun y => { y with mode := .normal }) up)

/-- A CAL_RUN of REFERENCE at −20 °C and 1.188 V. -/
def calAsk : Desc := ask 1 [(16, 16, twos 16 (-320)), (32, 32, 1188000)]

/-- A result waits for its commit, with VPP present. -/
def judged1 : State := onCal (fun c => { c with uncommitted := true, inputs := { c.inputs with vppMv := 2375 } }) normal

set_option maxRecDepth 100000 in
/-- What PowerAndCalibrationCommandsTakeEffect asks of its clauses is met. -/
theorem witness_PowerAndCalibrationCommandsTakeEffect :
  (Serves 0 up ∧ Admitted .powerQuota (ask 0 [(0, 24, 0xFFFFFF), (32, 24, 1)]) up) ∧
  (Serves thermAsk.queue up ∧ Admitted .thermalSet thermAsk up ∧ thermalSetRef (thermOf thermAsk.payload) = none) ∧
  (Serves calAsk.queue normal ∧ Admitted .calRun calAsk normal ∧ calRunRef calAsk.payload (fetched .calRun calAsk normal) = none) ∧
  (Serves 1 judged1 ∧ Admitted .calCommit (ask 1 [(0, 32, 1)]) judged1 ∧ calCommitRef (ask 1 [(0, 32, 1)]).payload judged1 = none ∧ freeGen judged1.otp = some 1 ∧ vppOk judged1 = true) ∧
  (Serves 1 up ∧ Admitted .calStatus (ask 1 [(0, 4, 2), (8, 6, 3)]) up ∧ ranges (calItemOk (fld (ask 1 [(0, 4, 2), (8, 6, 3)]).payload 0 4) (fld (ask 1 [(0, 4, 2), (8, 6, 3)]).payload 8 6)) = none) :=
  ⟨⟨by unfold Serves; decide +kernel, admitted_of (by decide +kernel) (by decide +kernel)⟩,
   ⟨by unfold Serves; decide +kernel, admitted_of (by decide +kernel) (by decide +kernel), by decide +kernel⟩,
   ⟨by unfold Serves; decide +kernel, admitted_of (by decide +kernel) (by decide +kernel), by decide +kernel⟩,
   ⟨by unfold Serves; decide +kernel, admitted_of (by decide +kernel) (by decide +kernel), by decide +kernel, by decide +kernel, by decide +kernel⟩,
   ⟨by unfold Serves; decide +kernel, admitted_of (by decide +kernel) (by decide +kernel), by decide +kernel⟩⟩

/-- A SAFETY_WINDOW_SET of head 0 that shows nothing, without a proof input. -/
def winAsk : Desc := ask2 .safetyWindowSet [(12, 4, 15), (48, 16, 0xCD), (64, 16, 0xCD), (80, 16, 0xFFFF)]

/-- The safe state in its window form. -/
def inWindow : State := onSafety (fun y => { y with mode := .window }) up

set_option maxRecDepth 100000 in
/-- What SafetyCommandsTakeEffect asks of its clauses is met. -/
theorem witness_SafetyCommandsTakeEffect :
  (Serves winAsk.queue up ∧ Admitted .safetyWindowSet winAsk up ∧ safetyWindowRef winAsk.payload (fetched .safetyWindowSet winAsk up) = none) ∧
  (Serves 2 up ∧ Admitted .telltaleSet (ask2 .telltaleSet [(64, 64, 1)]) up ∧ fld (ask2 .telltaleSet [(64, 64, 1)]).payload 0 64 / 2 ^ telltaleCount up = 0) ∧
  (Serves 2 up ∧ Admitted .safeStateRequest (ask2 .safeStateRequest [(0, 2, 1)]) up ∧ fld (ask2 .safeStateRequest [(0, 2, 1)]).payload 0 2 ≤ 1 ∧ up.ev.store.length < 4096) ∧
  (Serves 2 inWindow ∧ Admitted .safeStateRequest (ask2 .safeStateRequest [(0, 2, 2)]) inWindow ∧ fld (ask2 .safeStateRequest [(0, 2, 2)]).payload 0 2 = 2 ∧ inSafe inWindow = true ∧ inWindow.safety.latched = false ∧ inWindow.safety.standing = 0 ∧ inWindow.safety.noRelease = false) :=
  ⟨⟨by unfold Serves; decide +kernel, admitted_of (by decide +kernel) (by decide +kernel), by decide +kernel⟩,
   ⟨by unfold Serves; decide +kernel, admitted_of (by decide +kernel) (by decide +kernel), by decide +kernel⟩,
   ⟨by unfold Serves; decide +kernel, admitted_of (by decide +kernel) (by decide +kernel), by decide +kernel, by decide +kernel⟩,
   ⟨by unfold Serves; decide +kernel, admitted_of (by decide +kernel) (by decide +kernel), by decide +kernel, by decide +kernel, by decide +kernel, by decide +kernel, by decide +kernel⟩⟩

/-- An EVENT_MASK that clears the bits of group 7 above its first two. -/
def maskAsk : Desc := ask 1 [(0, 3, 7), (64, 64, 3), (128, 64, 0xFFFFFFFFFFFFFFFF)]

set_option maxRecDepth 100000 in
/-- What SystemCommandsTakeEffect asks of its clauses is met. -/
theorem witness_SystemCommandsTakeEffect :
  (Serves 3 up ∧ Admitted .deviceInfo (ask 3 []) up) ∧
  (Serves 1 up ∧ Admitted .eventMask maskAsk up ∧ BitVec.ofNat 64 (fld maskAsk.payload 128 64) &&& ~~~BitVec.ofNat 64 (fld maskAsk.payload 64 64) &&& 3 = 0) ∧
  (Serves 0 up ∧ Admitted .settingsRead (ask 0 [(0, 8, 0x10), (8, 8, 63)]) up ∧ recordIndexes (fld (ask 0 [(0, 8, 0x10), (8, 8, 63)]).payload 0 8) = some 64 ∧ fld (ask 0 [(0, 8, 0x10), (8, 8, 63)]).payload 8 8 < 64 ∧ readableOn (ask 0 [(0, 8, 0x10), (8, 8, 63)]).queue (fld (ask 0 [(0, 8, 0x10), (8, 8, 63)]).payload 0 8) = true) ∧
  (Serves 0 up ∧ opOf 0xFFFF = .unassigned 0xFFFF ∧ up.boot.stage = .running ∧ waitsForLatch (.unassigned 0xFFFF) up = false ∧ (ask 0 []).queue ≠ 2) :=
  ⟨⟨by unfold Serves; decide +kernel, admitted_of (by decide +kernel) (by decide +kernel)⟩,
   ⟨by unfold Serves; decide +kernel, admitted_of (by decide +kernel) (by decide +kernel), by decide +kernel⟩,
   ⟨by unfold Serves; decide +kernel, admitted_of (by decide +kernel) (by decide +kernel), by decide +kernel, by decide +kernel, by decide +kernel⟩,
   ⟨by unfold Serves; decide +kernel, by decide +kernel, by decide +kernel, by decide +kernel, by decide +kernel⟩⟩

/-- An UPDATE_OPEN of a package of 1024 bytes. -/
def openAsk : Desc := ask 1 [(1, 1, 1), (32, 32, 1024), (64, 16, 1), (80, 16, 2), (192, 192, 5)]

/-- A session of this device for it. -/
def session (state : Nat) (stored : BitVec 28) : Session :=
  { state := state, chain := false, joined := false, scope := false, pkg := true, resetSettings := false, length := 1024, schema := 1
    fw := 2, id := 5, stored := stored, last := 0 }
def inSession (x : Session) (s : State) : State := onUpd (fun u => { u with session := some x }) s

/-- The staging slot holds that image, staged or verified. -/
def slotHolds (state : Nat) : State :=
  onFlash (fun f => { f with record := { f.record with state := #v[4, state], ids := #v[0, 5] } }) up

/-- A block of 1024 zeros, and its UPDATE_BLOCK. -/
def zeros : List Byte := List.replicate 1024 0
def blockAsk : Desc := ask 1 [(32, 32, stageLo), (64, 32, crc32c zeros)]

/-- Block 0 is stored. -/
def storedBlock (bytes : List Byte) (s : State) : State := onFlash (fun f => { f with image := [(0, bytes)] }) s

/-- The head device of a chain of two, whose CW_D runs. -/
def head2 : State :=
  onBoot (fun b => { b with straps := { b.straps with chainRole := true } })
    (onCw (fun c => { c with addr := 0, len := 2, down := { c.down with state := 2 } }) up)
def openScope : Desc := { openAsk with payload := BitVec.ofNat 384 (openAsk.payload.toNat + 1) }

/-- A session whose image is shorter than it says is not verified: cause 0, whatever the digests are. -/
theorem unsigned_has_cause : ∃ c, verifyCause (session 2 1) (inSession (session 2 1) up) = some c := by
  refine ⟨0, ?_⟩
  have h : ((imageBytes (inSession (session 2 1) up) (session 2 1).length).length == (session 2 1).length) = false := by decide +kernel
  simp only [verifyCause, h, Bool.and_false, Bool.not_false, if_true]

set_option maxRecDepth 100000 in
/-- What UpdateSessionsTakeEffect asks of its clauses is met. -/
theorem witness_UpdateSessionsTakeEffect :
  (Serves openAsk.queue (inSession { session 1 0 with chain := true, id := 6 } up) ∧ Admitted .updateOpen openAsk (inSession { session 1 0 with chain := true, id := 6 } up) ∧ updateOpenRef openAsk.payload (fetched .updateOpen openAsk (inSession { session 1 0 with chain := true, id := 6 } up)) = none ∧ openHow false (openOf openAsk.payload) (fetched .updateOpen openAsk (inSession { session 1 0 with chain := true, id := 6 } up)) = .refused stSessionBusy) ∧
  (Serves openAsk.queue up ∧ Admitted .updateOpen openAsk up ∧ updateOpenRef openAsk.payload (fetched .updateOpen openAsk up) = none ∧ (openOf openAsk.payload).scope = false ∧ openHow false (openOf openAsk.payload) (fetched .updateOpen openAsk up) = .fresh 1) ∧
  (Serves openAsk.queue (slotHolds 2) ∧ Admitted .updateOpen openAsk (slotHolds 2) ∧ updateOpenRef openAsk.payload (fetched .updateOpen openAsk (slotHolds 2)) = none ∧ (openOf openAsk.payload).scope = false ∧ openHow false (openOf openAsk.payload) (fetched .updateOpen openAsk (slotHolds 2)) = .fresh 3) ∧
  (Serves openAsk.queue (inSession (session 2 0) up) ∧ Admitted .updateOpen openAsk (inSession (session 2 0) up) ∧ updateOpenRef openAsk.payload (fetched .updateOpen openAsk (inSession (session 2 0) up)) = none ∧ (openOf openAsk.payload).scope = false ∧ openHow false (openOf openAsk.payload) (fetched .updateOpen openAsk (inSession (session 2 0) up)) = .resumed 2) ∧
  (Serves openAsk.queue (inSession { session 1 0 with chain := true } up) ∧ Admitted .updateOpen openAsk (inSession { session 1 0 with chain := true } up) ∧ updateOpenRef openAsk.payload (fetched .updateOpen openAsk (inSession { session 1 0 with chain := true } up)) = none ∧ (openOf openAsk.payload).scope = false ∧ openHow false (openOf openAsk.payload) (fetched .updateOpen openAsk (inSession { session 1 0 with chain := true } up)) = .joined) ∧
  (Serves openScope.queue head2 ∧ Admitted .updateOpen openScope head2 ∧ updateOpenRef openScope.payload (fetched .updateOpen openScope head2) = none ∧ (openOf openScope.payload).scope = true ∧ openHow false (openOf openScope.payload) (fetched .updateOpen openScope head2) = .fresh 1) ∧
  (Serves 1 (inSession (session 1 0) up) ∧ (inSession (session 1 0) up).upd.session = some (session 1 0) ∧ (session 1 0).chain = false ∧ (session 1 0).scope = false ∧ Admitted .updateBlock (ask 1 [(32, 32, stageLo)]) (inSession (session 1 0) up) ∧ fld (ask 1 [(32, 32, stageLo)]).payload 0 5 < blockCount (session 1 0).length ∧ stageRef (loadOff (ask 1 [(32, 32, stageLo)]).payload) (blockLength (session 1 0).length 0) = none ∧ crc32c (staged (inSession (session 1 0) up) stageLo 1024) ≠ loadCrc (ask 1 [(32, 32, stageLo)]).payload) ∧
  (Serves 1 (inSession (session 2 1) up) ∧ Admitted .updateBlock blockAsk (inSession (session 2 1) up) ∧ crc32c (staged (fetched .updateBlock blockAsk (inSession (session 2 1) up)) (loadOff blockAsk.payload) 1024) = loadCrc blockAsk.payload ∧ (session 2 1).state ≠ 1) ∧
  (Serves 1 (storedBlock zeros (inSession (session 1 1) up)) ∧ Admitted .updateBlock blockAsk (storedBlock zeros (inSession (session 1 1) up)) ∧ (session 1 1).state = 1 ∧ (session 1 1).stored.getLsbD 0 = true ∧ storedCrc (storedBlock zeros (inSession (session 1 1) up)) 0 = some (loadCrc blockAsk.payload)) ∧
  (Serves 1 (storedBlock [1] (inSession (session 1 1) up)) ∧ Admitted .updateBlock blockAsk (storedBlock [1] (inSession (session 1 1) up)) ∧ storedCrc (storedBlock [1] (inSession (session 1 1) up)) 0 = some (crc32c [1]) ∧ crc32c [1] ≠ loadCrc blockAsk.payload) ∧
  (Serves 1 (inSession (session 1 0) up) ∧ Admitted .updateBlock blockAsk (inSession (session 1 0) up) ∧ storedCrc (inSession (session 1 0) up) 0 = none) ∧
  (Serves 1 (inSession (session 1 0) up) ∧ Admitted .updateVerify (ask 1 []) (inSession (session 1 0) up) ∧ (session 1 0).state = 1) ∧
  (Serves 1 (inSession (session 3 1) up) ∧ Admitted .updateVerify (ask 1 []) (inSession (session 3 1) up) ∧ (session 3 1).state = 3) ∧
  (Serves 1 (inSession (session 2 1) up) ∧ Admitted .updateVerify (ask 1 []) (inSession (session 2 1) up) ∧ (session 2 1).state = 2 ∧ (∃ c, verifyCause (session 2 1) (inSession (session 2 1) up) = some c)) :=
  ⟨⟨by unfold Serves; decide +kernel, admitted_of (by decide +kernel) (by decide +kernel), by decide +kernel, rfl⟩,
   ⟨by unfold Serves; decide +kernel, admitted_of (by decide +kernel) (by decide +kernel), by decide +kernel, by decide +kernel, rfl⟩,
   ⟨by unfold Serves; decide +kernel, admitted_of (by decide +kernel) (by decide +kernel), by decide +kernel, by decide +kernel, rfl⟩,
   ⟨by unfold Serves; decide +kernel, admitted_of (by decide +kernel) (by decide +kernel), by decide +kernel, by decide +kernel, rfl⟩,
   ⟨by unfold Serves; decide +kernel, admitted_of (by decide +kernel) (by decide +kernel), by decide +kernel, by decide +kernel, rfl⟩,
   ⟨by unfold Serves; decide +kernel, admitted_of (by decide +kernel) (by decide +kernel), by decide +kernel, by decide +kernel, rfl⟩,
   ⟨by unfold Serves; decide +kernel, by decide +kernel, by decide +kernel, by decide +kernel, admitted_of (by decide +kernel) (by decide +kernel), by decide +kernel, by decide +kernel, by decide +kernel⟩,
   ⟨by unfold Serves; decide +kernel, admitted_of (by decide +kernel) (by decide +kernel), by decide +kernel, by decide +kernel⟩,
   ⟨by unfold Serves; decide +kernel, admitted_of (by decide +kernel) (by decide +kernel), by decide +kernel, by decide +kernel, by decide +kernel⟩,
   ⟨by unfold Serves; decide +kernel, admitted_of (by decide +kernel) (by decide +kernel), by decide +kernel, by decide +kernel⟩,
   ⟨by unfold Serves; decide +kernel, admitted_of (by decide +kernel) (by decide +kernel), by decide +kernel⟩,
   ⟨by unfold Serves; decide +kernel, admitted_of (by decide +kernel) (by decide +kernel), by decide +kernel⟩,
   ⟨by unfold Serves; decide +kernel, admitted_of (by decide +kernel) (by decide +kernel), by decide +kernel⟩,
   ⟨by unfold Serves; decide +kernel, admitted_of (by decide +kernel) (by decide +kernel), by decide +kernel, unsigned_has_cause⟩⟩

set_option maxRecDepth 100000 in
/-- What UpdateEndsTakeEffect asks of its clauses is met. -/
theorem witness_UpdateEndsTakeEffect :
  (Serves 1 (inSession (session 1 0) up) ∧ Admitted .updateActivate (ask 1 []) (inSession (session 1 0) up) ∧ atTickOk (inSession (session 1 0) up) (fld (ask 1 []).payload 64 48) = true ∧ activateRef (session 1 0) (bit (ask 1 []).payload 0) (inSession (session 1 0) up) = some stSessionState) ∧
  (Serves 1 (inSession { session 3 1 with pkg := false } up) ∧ Admitted .updateActivate (ask 1 [(0, 1, 1)]) (inSession { session 3 1 with pkg := false } up) ∧ fld (ask 1 [(0, 1, 1)]).payload 64 48 = 0 ∧ activateRef { session 3 1 with pkg := false } (bit (ask 1 [(0, 1, 1)]).payload 0) (inSession { session 3 1 with pkg := false } up) = none ∧ ({ session 3 1 with pkg := false } : Session).pkg = false) ∧
  (Serves 1 (inSession { session 3 1 with pkg := false } up) ∧ Admitted .updateActivate (ask 1 [(64, 48, 8)]) (inSession { session 3 1 with pkg := false } up) ∧ fld (ask 1 [(64, 48, 8)]).payload 64 48 ≠ 0 ∧ up.clk.tick + 8 ≤ fld (ask 1 [(64, 48, 8)]).payload 64 48 ∧ fld (ask 1 [(64, 48, 8)]).payload 64 48 ≤ up.clk.tick + 65536 ∧ activateRef { session 3 1 with pkg := false } (bit (ask 1 [(64, 48, 8)]).payload 0) (inSession { session 3 1 with pkg := false } up) = none) ∧
  (Serves 1 up ∧ Admitted .updateConfirm (ask 1 []) up ∧ (nextRecord up).state[activeOf (nextRecord up)] ≠ 3) ∧
  (Serves 1 (onFlash (fun f => { f with record := { f.record with state := #v[3, 5] } }) up) ∧ Admitted .updateConfirm (ask 1 []) (onFlash (fun f => { f with record := { f.record with state := #v[3, 5] } }) up) ∧ (nextRecord (onFlash (fun f => { f with record := { f.record with state := #v[3, 5] } }) up)).state[activeOf (nextRecord (onFlash (fun f => { f with record := { f.record with state := #v[3, 5] } }) up))] = 3) ∧
  (Serves 1 up ∧ Admitted .updateAbort (ask 1 []) up ∧ up.upd.session = none) ∧
  (Serves 1 (inSession { session 1 0 with chain := true, joined := true } up) ∧ Admitted .updateAbort (ask 1 []) (inSession { session 1 0 with chain := true, joined := true } up) ∧ ({ session 1 0 with chain := true, joined := true } : Session).chain = true ∧ ({ session 1 0 with chain := true, joined := true } : Session).joined = true) ∧
  (Serves 1 (inSession (session 1 0) up) ∧ Admitted .updateAbort (ask 1 []) (inSession (session 1 0) up) ∧ (inSession (session 1 0) up).upd.session = some (session 1 0)) ∧
  (Serves 1 (inSession { session 1 0 with chain := true } up) ∧ Admitted .updatePreempt (ask 1 []) (inSession { session 1 0 with chain := true } up) ∧ up.clk.now ≤ (session 1 0).last + 2500000000) ∧
  (Serves 1 (inSession { session 1 0 with chain := true } (reach 2500000001 up)) ∧ Admitted .updatePreempt (ask 1 []) (inSession { session 1 0 with chain := true } (reach 2500000001 up)) ∧ (session 1 0).last + 2500000000 < (reach 2500000001 up).clk.now) :=
  ⟨⟨by unfold Serves; decide +kernel, admitted_of (by decide +kernel) (by decide +kernel), by decide +kernel, by decide +kernel⟩,
   ⟨by unfold Serves; decide +kernel, admitted_of (by decide +kernel) (by decide +kernel), by decide +kernel, by decide +kernel, by decide +kernel⟩,
   ⟨by unfold Serves; decide +kernel, admitted_of (by decide +kernel) (by decide +kernel), by decide +kernel, by decide +kernel, by decide +kernel, by decide +kernel⟩,
   ⟨by unfold Serves; decide +kernel, admitted_of (by decide +kernel) (by decide +kernel), by decide +kernel⟩,
   ⟨by unfold Serves; decide +kernel, admitted_of (by decide +kernel) (by decide +kernel), by decide +kernel⟩,
   ⟨by unfold Serves; decide +kernel, admitted_of (by decide +kernel) (by decide +kernel), by decide +kernel⟩,
   ⟨by unfold Serves; decide +kernel, admitted_of (by decide +kernel) (by decide +kernel), by decide +kernel, by decide +kernel⟩,
   ⟨by unfold Serves; decide +kernel, admitted_of (by decide +kernel) (by decide +kernel), by decide +kernel⟩,
   ⟨by unfold Serves; decide +kernel, admitted_of (by decide +kernel) (by decide +kernel), by decide +kernel⟩,
   ⟨by unfold Serves; decide +kernel, admitted_of (by decide +kernel) (by decide +kernel), by decide +kernel⟩⟩

/-- CHAIN_SEND of a staged DEVICE_INFO to device 1's Q0. -/
def sendAsk : Desc := ask 3 [(0, 9, 1), (32, 32, stageLo)]

/-- The chain record: a relay ring of 256 records. -/
def chainAsk : Desc := ask 0 [(64, 2, 3), (66, 5, 8), (128, 64, 0x1000)]

set_option maxRecDepth 100000 in
/-- What ChainCommandsTakeEffect asks of its clauses is met. -/
theorem witness_ChainCommandsTakeEffect :
  (Serves 3 up ∧ Admitted .chainEnumerate (ask 3 []) up ∧ up.boot.straps.chainRole = false) ∧
  (Serves 3 head2 ∧ Admitted .chainEnumerate (ask 3 []) head2 ∧ head2.boot.straps.chainRole = true ∧ head2.cw.down.state = 2) ∧
  (Serves 3 (onCw (fun c => { c with down := { c.down with state := 0 } }) head2) ∧ Admitted .chainEnumerate (ask 3 []) (onCw (fun c => { c with down := { c.down with state := 0 } }) head2) ∧ (onCw (fun c => { c with down := { c.down with state := 0 } }) head2).cw.down.state ≠ 2) ∧
  (Serves sendAsk.queue head2 ∧ Admitted .chainSend sendAsk head2 ∧ bit sendAsk.payload 9 = false ∧ fld sendAsk.payload 0 9 ≠ 0 ∧ chainSendRef sendAsk.payload (fetched .chainSend sendAsk head2) = none) ∧
  (Serves 0 up ∧ RecordAdmitted 0x21 chainAsk up ∧ (writeChain (recordOf (withRecord 0x21 chainAsk)) (fetched .settingsWrite (withRecord 0x21 chainAsk) up)).1 = none ∧ up.cw.relay = []) :=
  ⟨⟨by unfold Serves; decide +kernel, admitted_of (by decide +kernel) (by decide +kernel), by decide +kernel⟩,
   ⟨by unfold Serves; decide +kernel, admitted_of (by decide +kernel) (by decide +kernel), by decide +kernel, by decide +kernel⟩,
   ⟨by unfold Serves; decide +kernel, admitted_of (by decide +kernel) (by decide +kernel), by decide +kernel⟩,
   ⟨by unfold Serves; decide +kernel, admitted_of (by decide +kernel) (by decide +kernel), by decide +kernel, by decide +kernel, by decide +kernel⟩,
   ⟨by unfold Serves; decide +kernel, ⟨admitted_of (by decide +kernel) (by decide +kernel), by decide +kernel⟩, by decide +kernel, by decide +kernel⟩⟩

/-- The link runs at 64 GT/s with sixteen lanes in CXL mode. -/
def linkUp : LinkState := { l0 := true, cxlMode := true, speed := 4, width := 16, hostFlit := true }

/-- The device with its link up and the host attached. -/
def host : State := onCxl (fun c => { c with link := linkUp, cacheEn := true, bme := true, hostActive := true, attached := true }) up

/-- The queues before a host has enabled them. -/
def still : State := onQueues (·.map fun q => { q with en := false }) host

/-- A DEVICE_INFO stands in slot 0 of Q3. -/
def slotted : State := onBar2 (fun m => memPut m (slotOffset 3 0) (descBytes 0 (ask 3 []))) up

set_option maxRecDepth 100000 in
/-- What QueueRegistersAct asks of its clauses is met. -/
theorem witness_QueueRegistersAct :
  (still.queues[(3 : Fin 4)].en = false) ∧
  ((onQueue 0 (fun q => { q with sqTail := 3 }) up).queues[(0 : Fin 4)].en = true ∧ ((onQueue 0 (fun q => { q with sqTail := 3 }) up).queues[(0 : Fin 4)].sqHead - 3 - 1).toNat < ((0 : BitVec 8) - 3).toNat) ∧
  ((onBoot (fun b => { b with stage := .waiting }) up).queues[(1 : Fin 4)].en = true ∧ ((255 : BitVec 8) - 0).toNat ≤ ((0 : BitVec 8) - 0 - 1).toNat ∧ served (onBoot (fun b => { b with stage := .waiting }) up) = false ∧ up.cw.inCmd = []) ∧
  ((ask 3 []).queue = 3 ∧ Memory.wf slotted.bar2 = true ∧ slotted.queues[(3 : Fin 4)].en = true ∧ slotted.queues[(3 : Fin 4)].sqHead = slotted.queues[(3 : Fin 4)].sqTail ∧ memRead slotted.bar2 (slotOffset 3 slotted.queues[(3 : Fin 4)].sqTail) 64 = descBytes 0 (ask 3 [])) ∧
  (up.queues[(2 : Fin 4)].sqHead = up.queues[(2 : Fin 4)].sqTail ∧ up.cw.inCmd = [] ∧ (∀ c ∈ up.queues[(2 : Fin 4)].journal, c.issued = true)) ∧
  (cxlUp up = false) ∧
  (cxlUp host = true) ∧
  (cxlUp still = true ∧ still.queues[(1 : Fin 4)].en = false ∧ still.queues[(1 : Fin 4)].sqHead = still.queues[(1 : Fin 4)].sqTail ∧ still.cw.inCmd = [] ∧ (∀ c ∈ still.queues[(1 : Fin 4)].journal, c.issued = true ∧ c.delivered = true)) :=
  ⟨by decide +kernel,
   ⟨by decide +kernel, by decide +kernel⟩,
   ⟨by decide +kernel, by decide +kernel, by decide +kernel, by decide +kernel⟩,
   ⟨by decide +kernel, by decide +kernel, by decide +kernel, by decide +kernel, by decide +kernel⟩,
   ⟨by decide +kernel, by decide +kernel, by decide +kernel⟩,
   by decide +kernel,
   by decide +kernel,
   ⟨by decide +kernel, by decide +kernel, by decide +kernel, by decide +kernel, by decide +kernel⟩⟩

/-- The event ring runs with 256 records. -/
def ringOn : State := onEv (fun v => { v with en := true, hostObs := true }) host

/-- One record of SEQ 4, issued to the ring and in the store. -/
def oneEvent : State :=
  onEv (fun v => { v with ring := [4], sent := 5, store := [{ source := 0, phase := .blank, code := 1, seq := 4, tick := 0, payload := 0 }] }) ringOn

set_option maxRecDepth 100000 in
/-- What EventRingRegistersAct asks of its clauses is met. -/
theorem witness_EventRingRegistersAct :
  (bit (0 : BitVec 32) 0 = still.ev.en ∧ fld (0 : BitVec 32) 1 5 < 8) ∧
  (bit (35 : BitVec 32) 0 = ringOn.ev.en ∧ 16 < fld (35 : BitVec 32) 1 5) ∧
  (bit (33 : BitVec 32) 0 = ringOn.ev.en ∧ 8 ≤ fld (33 : BitVec 32) 1 5 ∧ fld (33 : BitVec 32) 1 5 ≤ 16 ∧ ringOn.ev.en = true ∧ fld (33 : BitVec 32) 1 5 ≠ ringOn.ev.sizeLog2) ∧
  (8 ≤ fld (0x70010 : BitVec 32) 1 5 ∧ fld (0x70010 : BitVec 32) 1 5 ≤ 16 ∧ still.ev.en = false ∧ bit (0x70010 : BitVec 32) 0 = false) ∧
  (cxlUp ringOn = true ∧ fld (0x10 : BitVec 32) 1 5 = ringOn.ev.sizeLog2 ∧ 8 ≤ ringOn.ev.sizeLog2 ∧ ringOn.ev.sizeLog2 ≤ 16 ∧ ringOn.ev.en = true ∧ bit (0x10 : BitVec 32) 0 = false) ∧
  (cxlUp still = true ∧ 8 ≤ fld (0x61 : BitVec 32) 1 5 ∧ fld (0x21 : BitVec 32) 1 5 ≤ 16 ∧ still.ev.en = false ∧ bit (0x21 : BitVec 32) 0 = true) ∧
  (oneEvent.ev.ring = [4] ∧ oneEvent.ev.hostObs = true ∧ oneEvent.ev.chainObs = false ∧ oneEvent.ev.owed = [] ∧ oneEvent.ev.full = false ∧ oneEvent.ev.store.map (·.seq) = [4] ∧ oneEvent.ev.sent = 4 + 1 ∧ oneEvent.ev.head.toNat < evSize oneEvent ∧ 1 ≤ oneEvent.ev.sizeLog2 ∧ oneEvent.ev.sizeLog2 ≤ 16) :=
  ⟨⟨by decide +kernel, by decide +kernel⟩,
   ⟨by decide +kernel, by decide +kernel⟩,
   ⟨by decide +kernel, by decide +kernel, by decide +kernel, by decide +kernel, by decide +kernel⟩,
   ⟨by decide +kernel, by decide +kernel, by decide +kernel, by decide +kernel⟩,
   ⟨by decide +kernel, by decide +kernel, by decide +kernel, by decide +kernel, by decide +kernel, by decide +kernel⟩,
   ⟨by decide +kernel, by decide +kernel, by decide +kernel, by decide +kernel, by decide +kernel⟩,
   ⟨by decide +kernel, by decide +kernel, by decide +kernel, by decide +kernel, by decide +kernel, by decide +kernel, by decide +kernel, by decide +kernel, by decide +kernel, by decide +kernel⟩⟩

/-- One ring write is not yet observed. -/
def writing (id : RingId) : State := onCxl (fun c => { c with outstanding := [{ id := id, addr := 0, word := 0 }] }) host

/-- Vectors are due and none is masked. -/
def signalDue (m : BitVec 64) (s : State) : State := onCxl (fun c => { c with sigDue := m, msixMask := 0 }) s

set_option maxRecDepth 100000 in
/-- What RecordWritesAreObserved asks of its clauses is met. -/
theorem witness_RecordWritesAreObserved :
  ((writing (.cq 3 0)).cxl.outstanding = { id := .cq 3 0, addr := 0, word := 0 } :: []) ∧
  ((writing (.evq 5)).cxl.outstanding = { id := .evq 5, addr := 0, word := 0 } :: [] ∧ storeAt (writing (.evq 5)).ev.sent (writing (.evq 5)) = none) ∧
  ((writing .relay).cxl.outstanding = { id := .relay, addr := 0, word := 0 } :: []) ∧
  ((writing .relay).cxl.retries < 4 ∧ (writing .relay).cxl.errs[errorKind .timeout].1 = 0) ∧
  (4 ≤ (onCxl (fun c => { c with retries := 4 }) (writing .relay)).cxl.retries) ∧
  (host.cxl.msixPend.getLsbD (63 : Fin 64).val = false) ∧
  ((onCxl (fun c => { c with msixPend := 1 }) host).cxl.msixPend.getLsbD (0 : Fin 64).val = true) ∧
  (host.cxl.sigDue.getLsbD (8 : Fin 64).val = false) ∧
  ((signalDue 128 host).cxl.sigDue.getLsbD (7 : Fin 64).val = true ∧ (7 : Fin 64).val < 8 ∧ (signalDue 128 host).cxl.msixMask.getLsbD (7 : Fin 64).val = false) ∧
  ((signalDue 256 ringOn).cxl.sigDue.getLsbD (8 : Fin 64).val = true ∧ ringOn.ev.en = true) ∧
  ((onCxl (fun c => { c with sigDue := 256 }) ringOn).cxl.sigDue.getLsbD (8 : Fin 64).val = true ∧ (onCxl (fun c => { c with sigDue := 256 }) ringOn).ev.en = true ∧ (onCxl (fun c => { c with sigDue := 256 }) ringOn).cxl.msixMask.getLsbD (8 : Fin 64).val = true) ∧
  ((signalDue 256 host).cxl.sigDue.getLsbD (8 : Fin 64).val = true ∧ (8 : Nat) ≤ (8 : Fin 64).val ∧ (signalDue 256 host).ev.en = false) :=
  ⟨by decide +kernel,
   ⟨by decide +kernel, by decide +kernel⟩,
   by decide +kernel,
   ⟨by decide +kernel, by decide +kernel⟩,
   by decide +kernel,
   by decide +kernel,
   by decide +kernel,
   by decide +kernel,
   ⟨by decide +kernel, by decide +kernel, by decide +kernel⟩,
   ⟨by decide +kernel, by decide +kernel⟩,
   ⟨by decide +kernel, by decide +kernel, by decide +kernel⟩,
   ⟨by decide +kernel, by decide +kernel, by decide +kernel⟩⟩

set_option maxRecDepth 100000 in
/-- What RegisterAccessesAct asks of its clauses is met. -/
theorem witness_RegisterAccessesAct :
  (Memory.wf slotted.bar2 = true) ∧
  (bar0Ok 0x20000 4 = false) ∧
  (([1, 2, 3, 4] : List Byte).length = 4) ∧
  (bar0Ok 6 8 = false) ∧
  ((onCxl (fun c => { c with mirrorHi := some 7 }) host).cxl.mirrorHi = some 7) :=
  ⟨by decide +kernel,
   by decide +kernel,
   by decide +kernel,
   by decide +kernel,
   by decide +kernel⟩

set_option maxRecDepth 100000 in
/-- What AttachmentFollowsItsConditions asks of its clauses is met. -/
theorem witness_AttachmentFollowsItsConditions :
  (up.boot.straps.cxlEn = true ∧ linkUp.l0 = true ∧ widthOk linkUp.width = true ∧ up.cxl.link.l0 = false) ∧
  (widthOk { linkUp with width := 3 }.width = false ∧ { linkUp with width := 3 }.l0 = true) ∧
  (host.boot.straps.cxlEn = true ∧ host.cxl.link.l0 = true ∧ linkUp.cxlMode = true ∧ 0 < linkUp.speed.val) ∧
  ((onBoot (fun b => { b with straps := { b.straps with cxlEn := false } }) up).boot.straps.cxlEn = false) ∧
  (up.cxl.cfgReady = false) ∧
  ((onCxl (fun c => { c with cfgReady := true }) host).cxl.cfgReady = true) ∧
  (host.cxl.spdm ≠ 5) ∧
  ((onCxl (fun c => { c with spdm := 5 }) host).cxl.spdm = 5) ∧
  (host.boot.straps.cxlEn = true ∧ host.cxl.link.l0 = true ∧ ({ linkUp with l0 := false } : LinkState).l0 = false) ∧
  (host.cxl.attached = true ∧ host.com.latchQ = [] ∧ masked srcCxl host = false ∧ host.ev.full = false ∧ host.ev.store.length + 258 < 4096) :=
  ⟨⟨by decide +kernel, by decide +kernel, by decide +kernel, by decide +kernel⟩,
   ⟨by decide +kernel, by decide +kernel⟩,
   ⟨by decide +kernel, by decide +kernel, by decide +kernel, by decide +kernel⟩,
   by decide +kernel,
   by decide +kernel,
   by decide +kernel,
   by decide +kernel,
   by decide +kernel,
   ⟨by decide +kernel, by decide +kernel, by decide +kernel⟩,
   ⟨by decide +kernel, by decide +kernel, by decide +kernel, by decide +kernel, by decide +kernel⟩⟩

/-- The configuration space is ready, and the SPDM connection stands at a step. -/
def secured (n : Nat) : State := onCxl (fun c => { c with cfgReady := true, spdm := n }) host

set_option maxRecDepth 100000 in
/-- What PortServicesAct asks of its clauses is met. -/
theorem witness_PortServicesAct :
  (errBit (1 : Fin 7).val = some 2) ∧
  (errBit (6 : Fin 7).val = none) ∧
  (host.cxl.errs[(1 : Fin 7)].1 = 0) ∧
  ((after (.aerErrorLog 1 2 0x1000) host).cxl.errs[(1 : Fin 7)].1 ≠ 0) ∧
  ((secured 1).cxl.cfgReady = true ∧ 1 ≤ (secured 1).cxl.spdm ∧ (secured 1).cxl.spdm < 2) ∧
  (2 ≤ (secured 2).cxl.spdm ∧ (secured 2).cxl.spdm < 3 ∧ ({ p384 := true, sha384 := true, secp384r1 := true, aes256gcm := true } : AlgOffer).aes256gcm = true) ∧
  (((true && true && false && true : Bool) = false)) ∧
  (3 ≤ (secured 3).cxl.spdm ∧ (secured 3).cxl.spdm ≠ 4 ∧ (1 : Nat) ≤ 5 ∧ (5 : Nat) ≤ 5 ∧ (5 : Nat) < 6 ∧ (6 : Nat) ≠ 255) ∧
  ((secured 4).cxl.spdm = 4) ∧
  ((secured 5).cxl.spdm = 5) ∧
  ((secured 0).cxl.cfgReady = true ∧ (secured 0).cxl.spdm < 1 ∧ (2 : Nat) ≤ 2 ∧ (2 : Nat) < 3 ∧ (7 : Nat) ≠ 0) :=
  ⟨by decide +kernel,
   by decide +kernel,
   by decide +kernel,
   by decide +kernel,
   ⟨by decide +kernel, by decide +kernel, by decide +kernel⟩,
   ⟨by decide +kernel, by decide +kernel, by decide +kernel⟩,
   by decide +kernel,
   ⟨by decide +kernel, by decide +kernel, by decide +kernel, by decide +kernel, by decide +kernel, by decide +kernel⟩,
   by decide +kernel,
   by decide +kernel,
   ⟨by decide +kernel, by decide +kernel, by decide +kernel, by decide +kernel, by decide +kernel⟩⟩

/-- A fence line at 0x40 in a cache state; a release write to 0x1000. -/
def fenced (reading : Bool) (c : Option LineState) : State :=
  onCom (fun x => { x with lines := [{ line := 1, reading := reading, failed := false, cached := c }] }) host
def releasing : State := onCom (fun x => { x with relWrites := [{ addr := 0x1000, value := 1, tag := 2, st := .issued, event := none }] }) host

set_option maxRecDepth 100000 in
/-- What SnoopsAndFencesAct asks of its clauses is met. -/
theorem witness_SnoopsAndFencesAct :
  (lineState (lineOf (0x40 : Addr).toNat) host = none) ∧
  (lineState (lineOf (0x1000 : Addr).toNat) releasing = some .modified ∧ releasing.com.latchQ = [] ∧ (∀ w ∈ releasing.com.relWrites, w.st ≠ .waiting)) ∧
  (lineState (lineOf (0x40 : Addr).toNat) (fenced false (some .shared)) = some .shared) ∧
  ((∀ l ∈ (fenced false none).com.lines, l.line = lineOf (0x40 : Addr).toNat → l.reading = false)) ∧
  ({ line := 1, reading := true, failed := false, cached := none } ∈ (fenced true none).com.lines ∧ (1 : Nat) = lineOf (0x40 : Addr).toNat) ∧
  (relAt (0x1000 : Addr).toNat host = none) ∧
  (relAt (0x1000 : Addr).toNat releasing = some { addr := 0x1000, value := 1, tag := 2, st := .issued, event := none }) :=
  ⟨by decide +kernel,
   ⟨by decide +kernel, by decide +kernel, by decide +kernel⟩,
   by decide +kernel,
   by decide +kernel,
   ⟨by decide +kernel, by decide +kernel⟩,
   by decide +kernel,
   by decide +kernel⟩

/-- A tick after tick 0, with a commit valid 8 ms after its boundary, or at another instant. -/
def validFrom (v : Nat) : State := onClk (fun c => { c with prevNone := false, validAt := some v }) up

set_option maxRecDepth 100000 in
/-- What CutoffFixesTheBoundary asks of its clauses is met. -/
theorem witness_CutoffFixesTheBoundary :
  ((onClk (fun c => { c with held := true }) up).clk.held = true) ∧
  (up.clk.cutAt = none ∧ up.clk.held = false ∧ isFollower up = false ∧ isChainHead up = false) ∧
  (tickBase (validFrom 4000000) + usT ((validFrom 4000000).clk.effTmin - (validFrom 4000000).cfg.tick.tcut) ≤ tickBase (validFrom 4000000) + usT (effTmax (validFrom 4000000) - (validFrom 4000000).cfg.tick.tcut)) ∧
  ((validFrom 4000000).clk.prevNone = false ∧ (validFrom 4000000).clk.validAt = some 4000000 ∧ tickBase (validFrom 4000000) + usT ((validFrom 4000000).clk.effTmin - (validFrom 4000000).cfg.tick.tcut) < 4000000 ∧ 4000000 < tickBase (validFrom 4000000) + usT (effTmax (validFrom 4000000) - (validFrom 4000000).cfg.tick.tcut)) ∧
  ((validFrom 3625000).clk.validAt = some 3625000 ∧ 3625000 ≤ tickBase (validFrom 3625000) + usT ((validFrom 3625000).clk.effTmin - (validFrom 3625000).cfg.tick.tcut)) ∧
  (up.clk.validAt = none) :=
  ⟨by decide +kernel,
   ⟨by decide +kernel, by decide +kernel, by decide +kernel, by decide +kernel⟩,
   by decide +kernel,
   ⟨by decide +kernel, by decide +kernel, by decide +kernel, by decide +kernel⟩,
   ⟨by decide +kernel, by decide +kernel⟩,
   by decide +kernel⟩

/-- Measurements of a tick with no optical input, and of the end of a LATCH with no calibration. -/
def noMeas : EndMeas := []
def noCal : LatchEnd := { cal := { trims := [], phi := #v[0, 0, 0], slope := none }, inputs := { zero := Vector.replicate 64 0, dark := Vector.replicate 8 0, refUv := 0, vppMv := 2375 } }

/-- The table of an asset of one tell-tale, of a version; its atlas holds nothing. -/
def assetBytes (version : Nat) : List Byte :=
  toBytes 4 0x54415347 ++ [BitVec.ofNat 8 version, 1] ++ toBytes 2 64 ++ toBytes 2 64 ++ toBytes 2 100 ++ List.replicate 4 0 ++
    (List.replicate 4 (List.replicate 5 (0 : Byte) ++ [15] ++ List.replicate 6 0)).flatten ++
    toBytes 2 0 ++ toBytes 2 0 ++ toBytes 2 8 ++ toBytes 2 8 ++ [0, 1, 0] ++ List.replicate 1013 0
def rawAsset (version : Nat) : RawAsset := { table := assetBytes version, atlas := [] }

/-- The cut-off has passed; END has begun; the next tick is in LATCH. -/
def cutOff : State := onClk (fun c => { c with phase := .cut, cutAt := some 4875000, boundary := some 5000000 }) up
def ending : State := onClk (fun c => { c with phase := .finish, cutAt := some 4875000, boundary := some 5000000 }) up
def latching : State := onClk (fun c => { c with phase := .latch, tick := 9 }) up

set_option maxRecDepth 100000 in
/-- What TheTickTurns asks of its clauses is met. -/
theorem witness_TheTickTurns :
  (latching.clk.phase = .latch) ∧
  (Quiet cutOff ∧ cutOff.clk.phase ≠ .latch ∧ cutOff.clk.phase ≠ .finish ∧ cutOff.clk.cutAt.isSome = true ∧ cutOff.clk.boundary = some 5000000) ∧
  (cutOff.clk.phase ≠ .finish) ∧
  (Quiet ending ∧ ending.clk.phase = .finish ∧ ending.clk.boundary = some 5000000 ∧ ending.upd.resetDue = false ∧ ending.pendLv = [] ∧ ending.com.records = [] ∧ ending.cw.mode = none) ∧
  (tickOk ending { rosc := 0, counted := true } = false) ∧
  (spanOk (after (.tickBoundary { rosc := 100000, counted := true } 0) (loadAsset (assetOf (rawAsset 1)) ending)) 0 = false) ∧
  (up.clk.phase ≠ .latch) ∧
  (Quiet latching ∧ latching.clk.phase = .latch ∧ latching.clk.held = false ∧ latching.com.latchQ = []) :=
  ⟨by decide +kernel,
   ⟨by unfold Quiet; decide +kernel, by decide +kernel, by decide +kernel, by decide +kernel, by decide +kernel⟩,
   by decide +kernel,
   ⟨by unfold Quiet; decide +kernel, by decide +kernel, by decide +kernel, by decide +kernel, by decide +kernel, by decide +kernel, by decide +kernel⟩,
   by decide +kernel,
   by decide +kernel,
   by decide +kernel,
   ⟨by unfold Quiet; decide +kernel, by decide +kernel, by decide +kernel, by decide +kernel⟩⟩

/-- One plane of green, and the frame pressed for it. -/
def oneSeq : PlaneSeq := { depth := 1, repeats := 1, entries := [{ colour := 1, bit := 0, pulse := 4000 }] }
def onePressed : Pressed := { seq := some oneSeq, g := 0x80000000, scale := 0 }

/-- Head 0 is an array head of 16 by 2 mirrors that shows one plane of its green colour; its picture is built from a canvas of
16 by 2 pixels. -/
def picture : State :=
  onComp (fun c => { c with hostBuild := true })
    (onHead 0 (fun d => { d with
        mode := .host, building := true, hasFrame := true, pressed := #v[onePressed, onePressed] })
      (onCfg (fun c => { c with
        canvas := { c.canvas with w := 16, h := 2, bg := #v[0x8000, 0x8000, 0x8000] }
        mem := { c.mem with planeBase := 0x100000, planeMib := 1 }
        heads := c.heads.set 0 { c.heads[0] with
          outW := 16, outH := 2, sh := { c.heads[0].sh with enable := true }, seq := some oneSeq } }) up))

/-- Its canvas has been written. -/
def fed : State := onComp (fun c => { c with band := 1 }) picture

set_option maxRecDepth 100000 in
/-- What BuildsAdvance asks of its clauses is met. -/
theorem witness_BuildsAdvance :
  (pressing picture 0 = true) ∧
  (up.clk.phase ≠ .latch ∧ (∀ h : Head, pressing up h = false)) ∧
  (composes up = false) ∧
  (composes picture = true ∧ 64 * picture.comp.band < picture.cfg.canvas.h ∧ picture.cfg.canvas.w ≤ 8192 ∧ picture.canvas = []) ∧
  ((pressing up 1 && up.comp.hostBuild && decide (up.heads[(1 : Head)].stripes < stripeCount up.cfg.heads[(1 : Head)]) && stripeFed up 1 up.heads[(1 : Head)].stripes) = false) ∧
  ((pressing fed 0 && fed.comp.hostBuild && decide (fed.heads[(0 : Head)].stripes < stripeCount fed.cfg.heads[(0 : Head)]) && stripeFed fed 0 fed.heads[(0 : Head)].stripes) = true) :=
  ⟨by decide +kernel,
   ⟨by decide +kernel, by decide +kernel⟩,
   by decide +kernel,
   ⟨by decide +kernel, by decide +kernel, by decide +kernel, rfl⟩,
   by decide +kernel,
   by decide +kernel⟩

/-- No light was measured for the proof. -/
def noProof : OsTick := { samples := [], dark := [] }

/-- Its group runs, channel 5 is of its green colour and regulates, and its show span runs. -/
def lit : State :=
  onChan 5 (fun c => { c with state := 2, bucksOff := false })
    (onLink 0 (fun l => { l with state := 2, ready := true })
      (onCfg (fun c => { c with chans := c.chans.set 5 { c.chans[5] with st := { c.chans[5].st with head := 0, colour := 1 } } }) picture))

def showing (e : Nat) : State := onHead 0 (fun d => { d with showing := true, entry := e }) (onSafety (fun x => { x with mode := .normal }) lit)

/-- The window is shown on head 0. -/
def withWindow (s : State) : State := onBoot (fun b => { b with enabled := true }) <| onCfg (fun c => { c with wins := c.wins.set 0 { c.wins[0] with shown := true } }) s

set_option maxRecDepth 100000 in
/-- What TheShowRuns asks of its clauses is met. -/
theorem witness_TheShowRuns :
  ((showing 0).heads[(0 : Head)].showing = true) ∧
  (lit.clk.phase ≠ .latch ∧ lit.heads[(0 : Head)].mode ≠ .off ∧ lit.heads[(0 : Head)].showing = false ∧ lit.heads[(0 : Head)].spanDone = false) ∧
  ((showing 0).heads[(0 : Head)].showing = true ∧ (showing 0).cfg.heads[(0 : Head)].raster = false ∧ linkSends (showing 0) 0 = true ∧ (showing 0).heads[(0 : Head)].entry < (shownOf (showing 0) 0).entries ∧ (showing 0).heads[(0 : Head)].entry = 0) ∧
  ((onHead 0 (fun d => { d with mode := .safe }) (withWindow (showing 1))).heads[(0 : Head)].showing = true ∧ (onHead 0 (fun d => { d with mode := .safe }) (withWindow (showing 1))).cfg.heads[(0 : Head)].raster = false ∧ linkSends (onHead 0 (fun d => { d with mode := .safe }) (withWindow (showing 1))) 0 = true ∧ (onHead 0 (fun d => { d with mode := .safe }) (withWindow (showing 1))).heads[(0 : Head)].entry < (shownOf (onHead 0 (fun d => { d with mode := .safe }) (withWindow (showing 1))) 0).entries ∧ 0 < (onHead 0 (fun d => { d with mode := .safe }) (withWindow (showing 1))).heads[(0 : Head)].entry ∧ entryCrcOk (onHead 0 (fun d => { d with mode := .safe }) (withWindow (showing 1))) 0 0 7 = false) ∧
  ((showing 1).heads[(0 : Head)].showing = true ∧ (showing 1).cfg.heads[(0 : Head)].raster = false ∧ linkSends (showing 1) 0 = true ∧ 0 < (showing 1).heads[(0 : Head)].entry ∧ 0 < entryPulse (showing 1) 0 ((showing 1).heads[(0 : Head)].entry - 1) ∧ mayLight (showing 1) 0 = true ∧ showsLight (showing 1) 0 = true) ∧
  (showsLight up 2 = false) ∧
  (up.heads[(3 : Head)].showing = false) ∧
  ((showing 1).heads[(0 : Head)].showing = true) :=
  ⟨by decide +kernel,
   ⟨by decide +kernel, by decide +kernel, by decide +kernel, by decide +kernel⟩,
   ⟨by decide +kernel, by decide +kernel, by decide +kernel, by decide +kernel, by decide +kernel⟩,
   ⟨by decide +kernel, by decide +kernel, by decide +kernel, by decide +kernel, by decide +kernel, by decide +kernel⟩,
   ⟨by decide +kernel, by decide +kernel, by decide +kernel, by decide +kernel, by decide +kernel, by decide +kernel, by decide +kernel⟩,
   by decide +kernel,
   by decide +kernel,
   by decide +kernel⟩

/-- Layer 2 composes its first four canvas lines from host memory. -/
def layered : State :=
  onCfg (fun c => { c with layers := c.layers.set 2 { c.layers[2] with
    enable := true, sh := { c.layers[2].sh with format := 0, pitch0 := 1, surfW := 16, surfH := 4, srcW := 16, srcH := 4, dstW := 16, dstH := 4 } } }) picture

set_option maxRecDepth 100000 in
/-- What PictureErrorsAct asks of its clauses is met. -/
theorem witness_PictureErrorsAct :
  (composes layered = true ∧ layerCounts layered.cfg 2 = true ∧ (failedRows layered 2 false (64 : Addr).toNat).bind (firstLine layered 2) = some 0) ∧
  (composes up = false) ∧
  ((0xF : BitVec 4).getLsbD (0 : Head).val = true) ∧
  ((0xF : BitVec 4).getLsbD (0 : Head).val = true ∧ pressing picture 0 = true) ∧
  ((0xE : BitVec 4).getLsbD (0 : Head).val = false) ∧
  (lit.heads[(0 : Head)].mode = .host ∧ lit.cfg.heads[(0 : Head)].raster = false ∧ lit.links[(0 : Head)].dark.contains 0 = false) :=
  ⟨⟨by decide +kernel, by decide +kernel, by decide +kernel⟩,
   by decide +kernel,
   by decide +kernel,
   ⟨by decide +kernel, by decide +kernel⟩,
   by decide +kernel,
   ⟨by decide +kernel, by decide +kernel, by decide +kernel⟩⟩

/-- The LATCH of a tick, with a dark transition to its end or beyond, and a fade that has ended. -/
def transTo (n : Nat) : State := onClk (fun c => { c with trans := some n }) latching
def faded : State := onLine 1 (fun v => { v with doneDue := true }) latching

/-- A record is late for its fences by HOLD_TICKS and more; a calibration part has reached its last LATCH. -/
def overdue : State :=
  onCom (fun c => { c with records := [{ tag := 5, writes := [], fences := [], execTick := 1, layered := true, valid := true, since := 0, marked := true, doomed := false, late := false, applied := true, deferred := [(3, 3)] }] }) latching
def applyingLast : State :=
  onCal (fun c => { c with applying := [{ item := 1, index := 0, latch := 64, result := { trims := [], chan := none, gains := none } }] }) latching

set_option maxRecDepth 100000 in
/-- What ExpiriesActInTheLatch asks of its clauses is met. -/
theorem witness_ExpiriesActInTheLatch :
  (up.clk.phase ≠ .latch) ∧
  (latching.clk.phase = .latch ∧ latching.com.latchQ = []) ∧
  ((transTo 9).clk.trans = some 9 ∧ 9 ≤ (transTo 9).clk.tick) ∧
  ((transTo 10).clk.trans = some 10 ∧ (transTo 10).clk.tick < 10) ∧
  (countedOut 3 latching = none) ∧
  ((countedOut 3 overdue).isSome = true) ∧
  (faded.lines[(1 : Fin 4)].doneDue = true) ∧
  (applyingLast.cal.applying.any (fun a => decide (64 ≤ a.latch)) = true ∧ applyingLast.cal.running = none) ∧
  (latching.cal.applying.any (fun a => decide (64 ≤ a.latch)) = false) :=
  ⟨by decide +kernel,
   ⟨by decide +kernel, by decide +kernel⟩,
   ⟨by decide +kernel, by decide +kernel⟩,
   ⟨by decide +kernel, by decide +kernel⟩,
   by decide +kernel,
   by decide +kernel,
   by decide +kernel,
   ⟨by decide +kernel, by decide +kernel⟩,
   by decide +kernel⟩

/-- A back-channel word with its check. -/
def back (btype : Nat) (f : BitVec 48) : BackWord := { fields := f, chk := BitVec.ofNat 8 (crc8Bits 56 (btype + f.toNat * 256) 0) }

/-- Block 0 of plane 0 of head 0 waits for its answer, sent again so many times. -/
def flight0 (k : Nat) (waiting : Bool) : Flight := { plane := 0, block := 0, resends := k, waiting := waiting, data := List.replicate 512 0 }
def flying (k : Nat) (waiting : Bool) : State := onLink 0 (fun l => { l with flights := [flight0 k waiting], next := l.next.set 0 4096 }) lit

set_option maxRecDepth 100000 in
/-- What AnswersMoveTheResendBuffer asks of its clauses is met. -/
theorem witness_AnswersMoveTheResendBuffer :
  (backOk 0x10 (back 0x11 0) = false) ∧
  (answered 0 (back 0x11 0x8) (flying 0 true) = none) ∧
  (answered 0 (back 0x10 0) (flying 0 true) = some (flight0 0 true) ∧ backOk 0x10 (back 0x10 0) = true) ∧
  (answered 0 (back 0x11 0) (flying 2 true) = some (flight0 2 true) ∧ (flight0 2 true).resends < 3 ∧ backOk 0x11 (back 0x11 0) = true) ∧
  (answered 0 (back 0x11 0) (flying 3 true) = some (flight0 3 true) ∧ 3 ≤ (flight0 3 true).resends) ∧
  ((flightsOf (flying 0 false) 0).find? (fun f => f.waiting && f.plane == 0 && f.block == 0) = none) ∧
  ((flightsOf (flying 2 true) 0).find? (fun f => f.waiting && f.plane == 0 && f.block == 0) = some (flight0 2 true)) ∧
  ((flightsOf (flying 3 true) 0).find? (fun f => f.waiting && f.plane == 0 && f.block == 0) = some (flight0 3 true)) :=
  ⟨by decide +kernel,
   by decide +kernel,
   ⟨by decide +kernel, by decide +kernel⟩,
   ⟨by decide +kernel, by decide +kernel, by decide +kernel⟩,
   ⟨by decide +kernel, by decide +kernel⟩,
   by decide +kernel,
   by decide +kernel,
   by decide +kernel⟩

/-- Lane 0 has sent its blocks; the host is attached. -/
def laneDone (s : State) : State := onLink 0 (fun l => { l with next := l.next.set 0 4096 }) s
def attachedLit : State := onCxl (fun c => { c with attached := true }) lit

/-- Head 1 is a raster head of 16 pixels by 8 lines at 25 kHz. -/
def rasterHead : State :=
  onHead 1 (fun d => { d with mode := .host })
    (onLink 1 (fun l => { l with state := 2, ready := true })
      (onCfg (fun c => { c with heads := c.heads.set 1 { c.heads[1] with raster := true, outW := 16, outH := 8, ras := { c.heads[1].ras with fNom := 25000, track := 2 } } }) up))

set_option maxRecDepth 100000 in
/-- What BlocksAreSent asks of its clauses is met. -/
theorem witness_BlocksAreSent :
  (linkLive up 0 = false) ∧
  (linkLive (onLink 0 (fun l => { l with stopped := true }) lit) 0 = true ∧ linkSends (onLink 0 (fun l => { l with stopped := true }) lit) 0 = false) ∧
  (lit.cfg.heads[(0 : Head)].raster = false ∧ linkSends lit 0 = true ∧ lit.clk.phase ≠ .latch ∧ shownOf lit 0 ≠ .nothing) ∧
  (linkSends (flying 1 false) 0 = true ∧ shownOf (flying 1 false) 0 ≠ .nothing ∧ dueResend (flying 1 false).links[(0 : Head)] 0 = some (flight0 1 false)) ∧
  (linkSends (laneDone lit) 0 = true ∧ dueResend (laneDone lit).links[(0 : Head)] 0 = none ∧ (shownOf (laneDone lit) 0).entries ≤ lanePlane (skipTo (laneDone lit) 0 (shownOf (laneDone lit) 0) 0 skipFuel (laneDone lit).links[(0 : Head)].next[(0 : Fin 8)])) ∧
  (linkSends attachedLit 0 = true ∧ shownOf attachedLit 0 ≠ .nothing ∧ dueResend attachedLit.links[(0 : Head)] 0 = none ∧ skipTo attachedLit 0 (shownOf attachedLit 0) 0 skipFuel attachedLit.links[(0 : Head)].next[(0 : Fin 8)] = 0 ∧ lanePlane 0 < (shownOf attachedLit 0).entries ∧ bufferFree attachedLit 0 (lanePlane 0) = true ∧ laneHeld attachedLit.links[(0 : Head)] 0 < 8 ∧ skipTo attachedLit 0 (shownOf attachedLit 0) 0 skipFuel 0 = 0 ∧ attachedLit.cxl.attached = true) ∧
  (lit.cxl.attached = false ∧ bufferFree lit 0 0 = true ∧ shownOf lit 0 ≠ .safe ∧ lit.links[(0 : Head)].dark.contains (lanePlane 0) = false ∧ (∀ k : Fin 8, lit.links[(0 : Head)].next[k] ≤ lanePlane 0 * 4096)) ∧
  (up.cfg.heads[(0 : Head)].raster = false ∧ linkSends up 0 = false) ∧
  ((flying 0 true).cfg.heads[(0 : Head)].raster = false ∧ linkSends (flying 0 true) 0 = true ∧ 0 < (shownOf (flying 0 true) 0).entries) ∧
  (rasterHead.cfg.heads[(1 : Head)].raster = true ∧ linkSends (onLink 1 (fun l => { l with stopped := true }) rasterHead) 1 = false) ∧
  (linkSends rasterHead 1 = true) :=
  ⟨by decide +kernel,
   ⟨by decide +kernel, by decide +kernel⟩,
   ⟨by decide +kernel, by decide +kernel, by decide +kernel, by decide +kernel⟩,
   ⟨by decide +kernel, by decide +kernel, by decide +kernel⟩,
   ⟨by decide +kernel, by decide +kernel, by decide +kernel⟩,
   ⟨by decide +kernel, by decide +kernel, by decide +kernel, by decide +kernel, by decide +kernel, by decide +kernel, by decide +kernel, by decide +kernel, by decide +kernel⟩,
   ⟨by decide +kernel, by decide +kernel, by decide +kernel, by decide +kernel, by decide +kernel⟩,
   ⟨by decide +kernel, by decide +kernel⟩,
   ⟨by decide +kernel, by decide +kernel, by decide +kernel⟩,
   ⟨by decide +kernel, by decide +kernel⟩,
   by decide +kernel⟩

/-- A plane of head 0 has lost a block. -/
def losing (dark : Bool) : State :=
  onLink 0 (fun l => { l with lostPlanes := [(0, 1)], dark := if dark then [0] else [] }) lit

/-- The last step of a training. -/
def atStep (p : TrainStep) : State := onLink 0 (fun l => { l with state := 1, step := some p, ready := false }) lit

set_option maxRecDepth 100000 in
/-- What ArrayWordsAct asks of its clauses is met. -/
theorem witness_ArrayWordsAct :
  (backOk 0x20 (back 0x21 0) = false) ∧
  (backOk 0x20 (back 0x20 0) = true ∧ lit.links[(0 : Head)].state ≠ 0) ∧
  (lit.links[(0 : Head)].step = none ∧ 2 ≤ lit.links[(0 : Head)].state ∧ lit.links[(0 : Head)].ready = true ∧ bit (back 0x20 0).fields 0 = false) ∧
  ((after (.status 0 (back 0x20 0)) lit).links[(0 : Head)].ready = false ∧ bit (back 0x20 1).fields 0 = true ∧ bit (back 0x20 1).fields 2 = false) ∧
  ((atStep .ready).links[(0 : Head)].step = some .ready ∧ bit (back 0x20 1).fields 0 = true) ∧
  (backOk 0x21 (back 0x21 0x80) = true ∧ lit.cfg.heads[(0 : Head)].raster = false ∧ 2 ≤ lit.links[(0 : Head)].state ∧ fld (back 0x21 0x80).fields 7 9 ≠ frameNo lit) ∧
  (backOk 0x21 (back 0x21 0) = true ∧ fld (back 0x21 0).fields 7 9 = frameNo lit ∧ bit (back 0x21 0).fields 16 = false) ∧
  (lit.links[(0 : Head)].lostPlanes.find? (fun p => p.1 == fld (back 0x21 0).fields 0 7) = none ∧ lit.links[(0 : Head)].dark.contains (fld (back 0x21 0).fields 0 7) = false) ∧
  ((onLink 0 (fun l => { l with dark := [0] }) lit).links[(0 : Head)].lostPlanes.find? (fun p => p.1 == fld (back 0x21 0).fields 0 7) = none ∧ (onLink 0 (fun l => { l with dark := [0] }) lit).links[(0 : Head)].dark.contains (fld (back 0x21 0).fields 0 7) = true) ∧
  ((losing false).links[(0 : Head)].lostPlanes.find? (fun p => p.1 == fld (back 0x21 0).fields 0 7) = some (0, 1)) ∧
  (up.links[(2 : Head)].state < 2) ∧
  (lit.links[(0 : Head)].timingRaised = false ∧ 2 ≤ lit.links[(0 : Head)].state ∧ lit.cfg.heads[(0 : Head)].raster = false) :=
  ⟨by decide +kernel,
   ⟨by decide +kernel, by decide +kernel⟩,
   ⟨by decide +kernel, by decide +kernel, by decide +kernel, by decide +kernel⟩,
   ⟨by decide +kernel, by decide +kernel, by decide +kernel⟩,
   ⟨by decide +kernel, by decide +kernel⟩,
   ⟨by decide +kernel, by decide +kernel, by decide +kernel, by decide +kernel⟩,
   ⟨by decide +kernel, by decide +kernel, by decide +kernel⟩,
   ⟨by decide +kernel, by decide +kernel⟩,
   ⟨by decide +kernel, by decide +kernel⟩,
   by decide +kernel,
   by decide +kernel,
   ⟨by decide +kernel, by decide +kernel, by decide +kernel⟩⟩

/-- Block 0 was acknowledged. -/
def ackedBlock : State := onLink 0 (fun l => { l with acked := [flight0 2 true] }) lit

/-- Lane 3 of head 0 has had these ECHO replies. -/
def echoed (k : BitVec 16) (sum : Nat) : State := onLink 0 (fun l => { l with echoes := l.echoes.set 3 k, delaySum := l.delaySum.set 3 sum }) (atStep .echo)

/-- Its training is to be tried again at a tick. -/
def retrying (n : Nat) : State := onLink 0 (fun l => { l with retryTick := some n }) up

set_option maxRecDepth 100000 in
/-- What LinkFailuresAct asks of its clauses is met. -/
theorem witness_LinkFailuresAct :
  (up.links[(0 : Head)].state < 2) ∧
  (2 ≤ (flying 0 true).links[(0 : Head)].state) ∧
  ((flightsOf (flying 0 true) 0).find? (fun f => f.waiting && (f.plane == 0 && f.block == 0)) = some (flight0 0 true) ∧ (flight0 0 true).resends < 3) ∧
  ((flightsOf ackedBlock 0).find? (fun f => f.waiting && (f.plane == 0 && f.block == 0)) = none ∧ ackedBlock.links[(0 : Head)].acked.find? (fun f => f.plane == 0 && f.block == 0) = some (flight0 2 true)) ∧
  (({ lit.links[(0 : Head)] with retried := [(3, .sync)] }).retried.contains ((3 : Fin 8), CtrlWord.sync) = true) ∧
  (lit.links[(0 : Head)].retried.contains ((0 : Fin 8), CtrlWord.sched 5) = false) ∧
  (up.links[(0 : Head)].state = 0) ∧
  (backOk 0x31 (back 0x31 8) = true ∧ (atStep .lock).links[(0 : Head)].state ≠ 0 ∧ (atStep .lock).links[(0 : Head)].step = some .lock) ∧
  (backOk 0x31 (back 0x31 0x53) = true ∧ (atStep .equalise).links[(0 : Head)].state ≠ 0 ∧ (atStep .equalise).links[(0 : Head)].step ≠ some .lock ∧ (atStep .equalise).links[(0 : Head)].step = some .equalise) ∧
  ((atStep .lock).links[(0 : Head)].step ≠ some .echo) ∧
  (¬ (backOk 0x30 (back 0x30 0x3F) = false ∨ (echoed 0x3FFF 100).links[(0 : Head)].step ≠ some .echo ∨ 128 ≤ fld (back 0x30 0x3F).fields 0 13 ∨ (echoed 0x3FFF 100).links[(0 : Head)].echoes[(3 : Fin 8)].getLsbD (fld (back 0x30 0x3F).fields 0 13 % 16) = true) ∧ (echoed 0x3FFF 100).links[(0 : Head)].echoes[(3 : Fin 8)] ||| BitVec.ofNat 16 (2 ^ (fld (back 0x30 0x3F).fields 0 13 % 16)) ≠ BitVec.allOnes 16) ∧
  ((echoed 0x7FFF 0).links[(0 : Head)].echoes[(3 : Fin 8)] ||| BitVec.ofNat 16 (2 ^ (fld (back 0x30 0x3F).fields 0 13 % 16)) = BitVec.allOnes 16 ∧ 1600 < divRound ((echoed 0x7FFF 0).links[(0 : Head)].delaySum[(3 : Fin 8)] + (51216 - fld (back 0x30 0x3F).fields 13 16)) 32) ∧
  (divRound ((echoed 0x7FFF 0).links[(0 : Head)].delaySum[(3 : Fin 8)] + (51215 - fld (back 0x30 0x3F).fields 13 16)) 32 ≤ 1600) ∧
  (up.links[(0 : Head)].step = none) ∧
  ((atStep .lock).links[(0 : Head)].step.isSome = true ∧ (atStep .lock).links[(0 : Head)].attempt + 1 < (policy (atStep .lock).cfg.links[(0 : Head)].rateMax).length) ∧
  ((policy (onLink 0 (fun l => { l with attempt := 9 }) (atStep .lock)).cfg.links[(0 : Head)].rateMax).length ≤ (onLink 0 (fun l => { l with attempt := 9 }) (atStep .lock)).links[(0 : Head)].attempt + 1) ∧
  ((retrying 1).links[(0 : Head)].retryTick = some 1 ∧ (retrying 1).clk.tick < 1) ∧
  ((retrying 0).links[(0 : Head)].retryTick = some 0 ∧ 0 ≤ (retrying 0).clk.tick) :=
  ⟨by decide +kernel,
   by decide +kernel,
   ⟨by decide +kernel, by decide +kernel⟩,
   ⟨by decide +kernel, by decide +kernel⟩,
   by decide +kernel,
   by decide +kernel,
   by decide +kernel,
   ⟨by decide +kernel, by decide +kernel, by decide +kernel⟩,
   ⟨by decide +kernel, by decide +kernel, by decide +kernel, by decide +kernel⟩,
   by decide +kernel,
   ⟨by decide +kernel, by decide +kernel⟩,
   ⟨by decide +kernel, by decide +kernel⟩,
   by decide +kernel,
   by decide +kernel,
   ⟨by decide +kernel, by decide +kernel⟩,
   by decide +kernel,
   ⟨by decide +kernel, by decide +kernel⟩,
   ⟨by decide +kernel, by decide +kernel⟩⟩

/-- Its scanner in a state. -/
def scanning (scan : Nat) (ramping : Bool) : State := onRaster 1 (fun r => { r with scan := scan, ramping := ramping, scnEn := true }) rasterHead
def rested (n : Nat) : State := onRaster 1 (fun r => { r with retryTick := some n }) (scanning 3 false)

set_option maxRecDepth 100000 in
/-- What ScannerFollowsItsLock asks of its clauses is met. -/
theorem witness_ScannerFollowsItsLock :
  ((scanning 2 false).rasters[(1 : Head)].scan ≠ 1) ∧
  ((scanning 1 false).rasters[(1 : Head)].scan = 1 ∧ (scanning 1 false).rasters[(1 : Head)].ramping = false ∧ (∀ p ∈ [((1 : Nat), (7 : Nat))], p.1 < bandLow rasterHead.cfg.heads[(1 : Head)].ras ∨ bandHigh rasterHead.cfg.heads[(1 : Head)].ras < p.1)) ∧
  ((∃ p ∈ [((25000000 : Nat), (7 : Nat))], bandLow rasterHead.cfg.heads[(1 : Head)].ras ≤ p.1 ∧ p.1 ≤ bandHigh rasterHead.cfg.heads[(1 : Head)].ras)) ∧
  ((scanning 1 true).rasters[(1 : Head)].scan = 1 ∧ (scanning 1 true).rasters[(1 : Head)].ramping = true) ∧
  ((rested 1).rasters[(1 : Head)].retryTick = some 1 ∧ (rested 1).rasters[(1 : Head)].scan = 3 ∧ (rested 1).clk.tick < 1) ∧
  ((rested 0).rasters[(1 : Head)].retryTick = some 0 ∧ (rested 0).rasters[(1 : Head)].scan = 3 ∧ 0 ≤ (rested 0).clk.tick) ∧
  ((scanning 1 false).rasters[(1 : Head)].scan ≠ 2) ∧
  ((scanning 2 false).rasters[(1 : Head)].scan = 2) :=
  ⟨by decide +kernel,
   ⟨by decide +kernel, by decide +kernel, by decide +kernel⟩,
   by decide +kernel,
   ⟨by decide +kernel, by decide +kernel⟩,
   ⟨by decide +kernel, by decide +kernel, by decide +kernel⟩,
   ⟨by decide +kernel, by decide +kernel, by decide +kernel⟩,
   by decide +kernel,
   by decide +kernel⟩

/-- The scanner is locked, and the span of head 1 is on; channel 9 is the head's. -/
def spanning (line packet : Nat) (due : Bool) : State :=
  onHead 1 (fun d => { d with showing := !due }) (onRaster 1 (fun r => { r with line := line, packet := packet, tableDue := due, fNow := 25000000, lineFwd := true, lineAt := some 1000000 })
    (onChan 9 (fun c => { c with state := 2, bucksOff := false }) (onSafety (fun x => { x with mode := .normal }) (onCfg (fun c => { c with
      chans := c.chans.set 9 { c.chans[9] with st := { c.chans[9].st with head := 1, colour := 2 } } }) (onCxl (fun c => { c with attached := true }) (scanning 2 false))))))

/-- A packet of line 3 is due again. -/
def packetDue : State := onRaster 1 (fun r => { r with flights := [{ plane := 0, block := 3, resends := 1, waiting := false, data := [] }] }) (spanning 3 4 false)

set_option maxRecDepth 100000 in
/-- What RasterLinesAct asks of its clauses is met. -/
theorem witness_RasterLinesAct :
  (up.cfg.heads[(1 : Head)].raster = false) ∧
  ((spanning 7 8 false).cfg.heads[(1 : Head)].raster = true ∧ (spanning 7 8 false).rasters[(1 : Head)].scan = 2 ∧ false ≠ (spanning 7 8 false).rasters[(1 : Head)].lineFwd ∧ ¬ (bandLow (spanning 7 8 false).cfg.heads[(1 : Head)].ras < 24500000 ∧ 24500000 < bandHigh (spanning 7 8 false).cfg.heads[(1 : Head)].ras)) ∧
  ((spanning 0 0 true).rasters[(1 : Head)].line = 0 ∧ bandLow (spanning 0 0 true).cfg.heads[(1 : Head)].ras < 24500001 ∧ 24500001 < bandHigh (spanning 0 0 true).cfg.heads[(1 : Head)].ras ∧ (spanning 0 0 true).heads[(1 : Head)].showing = false) ∧
  ((spanning 8 8 false).cfg.heads[(1 : Head)].raster = true ∧ (spanning 8 8 false).rasters[(1 : Head)].scan = 2 ∧ (spanning 8 8 false).heads[(1 : Head)].showing = true ∧ (showStart (spanning 8 8 false) 1 : Int) ≤ ((1080000 : Nat) : Int) + lineTrim (spanning 8 8 false).cfg.heads[(1 : Head)] false ∧ linesShown (spanning 8 8 false) 1 ≤ (spanning 8 8 false).rasters[(1 : Head)].line) ∧
  ((spanning 7 8 false).heads[(1 : Head)].showing = true ∧ (showStart (spanning 7 8 false) 1 : Int) ≤ ((1080000 : Nat) : Int) + lineTrim (spanning 7 8 false).cfg.heads[(1 : Head)] false ∧ (spanning 7 8 false).rasters[(1 : Head)].line < linesShown (spanning 7 8 false) 1) ∧
  ((spanning 0 0 true).heads[(1 : Head)].showing = false) ∧
  ((spanning 7 8 false).cfg.heads[(1 : Head)].raster = true ∧ (spanning 7 8 false).heads[(1 : Head)].showing = true ∧ lineLights (spanning 7 8 false) 1 = true) :=
  ⟨by decide +kernel,
   ⟨by decide +kernel, by decide +kernel, by decide +kernel, by decide +kernel⟩,
   ⟨by decide +kernel, by decide +kernel, by decide +kernel, by decide +kernel⟩,
   ⟨by decide +kernel, by decide +kernel, by decide +kernel, by decide +kernel, by decide +kernel⟩,
   ⟨by decide +kernel, by decide +kernel, by decide +kernel⟩,
   by decide +kernel,
   ⟨by decide +kernel, by decide +kernel, by decide +kernel⟩⟩

set_option maxRecDepth 100000 in
/-- What PacketsAreSent asks of its clauses is met. -/
theorem witness_PacketsAreSent :
  (linkLive up 1 = false) ∧
  (packetDue.cfg.heads[(1 : Head)].raster = true ∧ linkLive (onLink 1 (fun l => { l with stopped := true }) packetDue) 1 = true ∧ linkSends (onLink 1 (fun l => { l with stopped := true }) packetDue) 1 = false) ∧
  (linkSends packetDue 1 = true ∧ packetDue.clk.phase ≠ .latch) ∧
  (packetDue.rasters[(1 : Head)].flights.find? (fun f => !f.waiting && flightLane packetDue.cfg.heads[(1 : Head)] f == (packetLane packetDue.cfg.heads[(1 : Head)] 3 0).val && inTime packetDue 1 f.block ((predicted packetDue 1 f.block).getD (0, true)) (1000000 + blockTime packetDue 1)) = some { plane := 0, block := 3, resends := 1, waiting := false, data := [] }) ∧
  ((spanning 0 0 true).rasters[(1 : Head)].flights = [] ∧ linkSends (spanning 0 0 true) 1 = true ∧ tableWaits (spanning 0 0 true) 1 = true ∧ laneFree (spanning 0 0 true) 1 (packetLane (spanning 0 0 true).cfg.heads[(1 : Head)] 0xFFF (96 + (spanning 0 0 true).rasters[(1 : Head)].tableNext)) = true ∧ inTime (spanning 0 0 true) 1 0xFFF (0, true) (blockTime (spanning 0 0 true) 1) = true) ∧
  (packetLane (spanning 0 0 true).cfg.heads[(1 : Head)] 0xFFF (96 + (spanning 0 0 true).rasters[(1 : Head)].tableNext) ≠ packetLane (spanning 0 0 true).cfg.heads[(1 : Head)] 0xFFF (97 + (spanning 0 0 true).rasters[(1 : Head)].tableNext)) ∧
  ((spanning 8 8 false).rasters[(1 : Head)].flights = [] ∧ linkSends (spanning 8 8 false) 1 = true ∧ tableWaits (spanning 8 8 false) 1 = false ∧ linesShown (spanning 8 8 false) 1 ≤ (spanning 8 8 false).rasters[(1 : Head)].packet / npkOf (spanning 8 8 false).cfg.heads[(1 : Head)].outW) ∧
  ((spanning 3 4 false).rasters[(1 : Head)].flights = [] ∧ linkSends (spanning 3 4 false) 1 = true ∧ tableWaits (spanning 3 4 false) 1 = false ∧ predicted (spanning 3 4 false) 1 4 = some (1160000, true) ∧ ((999999 : Nat) : Rat) < 1160000 - 2 * halfPeriod (spanning 3 4 false) 1 ∧ inTime (spanning 3 4 false) 1 4 (1160000, true) (1157000 + blockTime (spanning 3 4 false) 1) = false) ∧
  (0 < npkOf (spanning 3 4 false).cfg.heads[(1 : Head)].outW ∧ (spanning 3 4 false).rasters[(1 : Head)].packet / npkOf (spanning 3 4 false).cfg.heads[(1 : Head)].outW < linesShown (spanning 3 4 false) 1 ∧ (spanning 3 4 false).heads[(1 : Head)].spanDone = false ∧ laneFree (spanning 3 4 false) 1 (packetLane (spanning 3 4 false).cfg.heads[(1 : Head)] 4 0) = true ∧ 1160000 - 2 * halfPeriod (spanning 3 4 false) 1 ≤ ((1000000 : Nat) : Rat) ∧ inTime (spanning 3 4 false) 1 4 (1160000, true) (1000000 + blockTime (spanning 3 4 false) 1) = true ∧ (spanning 3 4 false).cxl.attached = true) :=
  ⟨by decide +kernel,
   ⟨by decide +kernel, by decide +kernel, by decide +kernel⟩,
   ⟨by decide +kernel, by decide +kernel⟩,
   by decide +kernel,
   ⟨by decide +kernel, by decide +kernel, by decide +kernel, by decide +kernel, by decide +kernel⟩,
   by decide +kernel,
   ⟨by decide +kernel, by decide +kernel, by decide +kernel, by decide +kernel⟩,
   ⟨by decide +kernel, by decide +kernel, by decide +kernel, by decide +kernel, by decide +kernel, by decide +kernel⟩,
   ⟨by decide +kernel, by decide +kernel, by decide +kernel, by decide +kernel, by decide +kernel, by decide +kernel, by decide +kernel⟩⟩

/-- A measured window of 2 µs with a duty, the supply at half of its range; a channel regulates between 20 V and 40 V string voltage. -/
def volts (v : Rat) : ChanMeas := { ns := 2000, lvs := Vector.replicate 4 2048, dPass := v, dDiv := 0, iMean := 100 }
def running (st : Nat) : State :=
  onChan 5 (fun c => { c with state := st, bucksOff := false, opened := true }) (onBoot (fun b => { b with enabled := true }) (onCfg (fun c => { c with
    chans := c.chans.set 5 { c.chans[5] with lv := { c.chans[5].lv with enable := true, vOpen := 4000, vShort := 2000 }, st := { lit.cfg.chans[(5 : Chan)].st with lvsDiv := 2048 } } }) lit))
def overAt (t : Nat) (now : Nat) : State := onClk (fun c => { c with tick := now }) (onChan 5 (fun c => { c with lastOver := some t }) (running 2))
def resting (t : Nat) : State := onChan 5 (fun c => { c with restart := some t }) (running 3)

def gateCaught : State := onChan 5 (fun c => { c with latched := true, cause := 5 }) (running 3)

/-- Channel 5 is due for a pulse in slot 0; drift checks are granted. -/
def pulsing : State := onHead 0 (fun d => { d with diag := [5] }) (onSafety (fun x => { x with mode := .normal }) (running 2))
def drifting : State := onCal (fun c => { c with live := { c.live with slope := c.live.slope.set 5 0x100 } }) <| onHead 0 (fun d => { d with driftOk := true, driftNext := 5 }) (onSafety (fun x => { x with mode := .normal }) (onCfg (fun c => { c with
  chans := c.chans.set 5 { c.chans[5] with st := { c.chans[5].st with led := true, iMax := 1000 } }, os := c.os.set 0 { c.os[0] with enable := true, colours := 7 } }) (running 2)))

set_option maxRecDepth 100000 in
/-- What ChannelsAreJudged asks of its clauses is met. -/
theorem witness_ChannelsAreJudged :
  ((running 3).chans[(5 : Chan)].state ≠ 2) ∧
  ((running 2).chans[(5 : Chan)].state = 2 ∧ (running 2).chans[(5 : Chan)].opened = true ∧ 2000 ≤ (volts (1 / 2)).ns ∧ judgeCause (running 2) 5 (sat 16 (stringVolts (running 2).cfg.chans[(5 : Chan)].st (volts (1 / 2)))) (volts (1 / 2)) = none) ∧
  ((running 2).cfg.chans[(5 : Chan)].lv.vOpen ≤ sat 16 (stringVolts (running 2).cfg.chans[(5 : Chan)].st (volts (5 / 8)))) ∧
  (sat 16 (stringVolts (running 2).cfg.chans[(5 : Chan)].st (volts (5 / 16))) < (running 2).cfg.chans[(5 : Chan)].lv.vOpen ∧ sat 16 (stringVolts (running 2).cfg.chans[(5 : Chan)].st (volts (5 / 16))) ≤ (running 2).cfg.chans[(5 : Chan)].lv.vShort ∧ ¬ (97 / 100 ≤ (volts (5 / 16)).dPass ∧ (volts (5 / 16)).iMean < 3 / 4 * (running 2).chans[(5 : Chan)].iCmd)) ∧
  (¬ (((running 2).cfg.chans[(5 : Chan)].st.ocLevel : Rat) / 100 * ((running 2).cfg.chans[(5 : Chan)].st.iMax : Rat) < 0 ∨ 16 ≤ (15 : Nat))) ∧
  ((overAt 0 4096).chans[(5 : Chan)].state = 2 ∧ (overAt 0 4096).chans[(5 : Chan)].lastOver = some 0 ∧ 0 + 4096 ≤ (overAt 0 4096).clk.tick ∧ 16 ≤ ({ iMean := 0, peaks := 16 } : OverMeas).peaks) ∧
  ((overAt 1 4096).chans[(5 : Chan)].lastOver = some 1 ∧ (overAt 1 4096).clk.tick < 1 + 4096) ∧
  ((resting 1).chans[(5 : Chan)].restart = some 1 ∧ (resting 1).clk.tick < 1) ∧
  ((resting 0).chans[(5 : Chan)].restart = some 0 ∧ (resting 0).chans[(5 : Chan)].state = 3 ∧ 0 ≤ (resting 0).clk.tick ∧ chanRuns (resting 0) 5 = true) ∧
  ((gateCaught).chans[(5 : Chan)].state = 3 ∧ gateCaught.chans[(5 : Chan)].latched = true ∧ gateCaught.chans[(5 : Chan)].cause = 5) ∧
  ((running 2).chans[(5 : Chan)].state ≠ 3) ∧
  (up.heads[(0 : Head)].diag[0]? = none) ∧
  (pulsing.heads[(0 : Head)].diag[0]? = some 5 ∧ 0 < diagSlots pulsing ∧ pulsing.clk.phase ≠ .latch ∧ pulsing.heads[(0 : Head)].showing = false ∧ pulsing.heads[(0 : Head)].spanDone = false ∧ mayLight pulsing 0 = true ∧ showsLight pulsing 0 = true ∧ pulsing.chans[(5 : Chan)].state = 2) ∧
  (up.heads[(0 : Head)].driftOk = false) ∧
  (drifting.heads[(0 : Head)].driftOk = true ∧ drifting.cfg.heads[(0 : Head)].raster = false ∧ drifting.clk.phase ≠ .latch ∧ drifting.heads[(0 : Head)].showing = false ∧ drifting.heads[(0 : Head)].spanDone = false ∧ mayLight drifting 0 = true ∧ drifting.heads[(0 : Head)].driftDone < driftSlots drifting 0 ∧ driftChan drifting 0 = some 5 ∧ driftOs drifting 0 drifting.cfg.chans[(5 : Chan)].st.colour = some 0) :=
  ⟨by decide +kernel,
   ⟨by decide +kernel, by decide +kernel, by decide +kernel, by decide +kernel⟩,
   by decide +kernel,
   ⟨by decide +kernel, by decide +kernel, by decide +kernel⟩,
   by decide +kernel,
   ⟨by decide +kernel, by decide +kernel, by decide +kernel, by decide +kernel⟩,
   ⟨by decide +kernel, by decide +kernel⟩,
   ⟨by decide +kernel, by decide +kernel⟩,
   ⟨by decide +kernel, by decide +kernel, by decide +kernel, by decide +kernel⟩,
   ⟨by decide +kernel, by decide +kernel, by decide +kernel⟩,
   by decide +kernel,
   by decide +kernel,
   ⟨by decide +kernel, by decide +kernel, by decide +kernel, by decide +kernel, by decide +kernel, by decide +kernel, by decide +kernel, by decide +kernel⟩,
   by decide +kernel,
   ⟨by decide +kernel, by decide +kernel, by decide +kernel, by decide +kernel, by decide +kernel, by decide +kernel, by decide +kernel, by decide +kernel, by decide +kernel⟩⟩

/-- The clock condition of R337 stands, or that of the voltage; an energy trip is latched. -/
def standing (m : BitVec 2) : State := onSafety (fun x => { x with monitors := m, standing := BitVec.ofNat 16 (m.toNat * 32), hwDivert := true }) lit
def tripping : State := onSafety (fun x => { x with energy := true }) lit

set_option maxRecDepth 100000 in
/-- What HardwareFaultsGoDark asks of its clauses is met. -/
theorem witness_HardwareFaultsGoDark :
  ((standing 1).safety.monitors.getLsbD 0 = true) ∧
  ((standing 2).safety.monitors.getLsbD 1 = true) ∧
  ((standing 2).safety.monitors.getLsbD 0 = false) ∧
  ((standing 1).safety.monitors.getLsbD 1 = false) ∧
  (tripping.safety.energy = true) ∧
  (lit.safety.energy = false) :=
  ⟨by decide +kernel,
   by decide +kernel,
   by decide +kernel,
   by decide +kernel,
   by decide +kernel,
   by decide +kernel⟩

/-- Region 3 was told of at 0, and it is now a second less 2 ns later, or a second. -/
def toldAt (now : Nat) : State := onClk (fun c => { c with now := now }) (onSafety (fun x => { x with eccTick := x.eccTick.set 3 (some 0) }) lit)
/-- A core is down. -/
def downed (c : Fin 3) : State := onBoot (fun b => { b with down := b.down.set c true }) lit
/-- Q2 runs; a safe-path fault stands and its cause is gone. -/
def timing (out : Bool) : State := onSafety (fun x => { x with q2Run := true, q2Timeout := out }) lit
def cured : State := onSafety (fun x => { x with mode := .dark, standing := 2, safeN := true }) lit

set_option maxRecDepth 100000 in
/-- What ErrorsAndSupervisionAct asks of its clauses is met. -/
theorem witness_ErrorsAndSupervisionAct :
  (eccTold 3 (toldAt 499999999) = true) ∧
  (eccTold 3 (toldAt 500000000) = false ∧ (toldAt 500000000).ev.store.length < 4096) ∧
  ((1 : Fin 11) = 1 ∨ (1 : Fin 11) = 8 ∨ (1 : Fin 11) = 9 ∨ (1 : Fin 11) = 10) ∧
  ((downed 1).boot.down[(1 : Fin 3)] = true) ∧
  ((downed 1).boot.down[(0 : Fin 3)] = false) ∧
  ((1 : BitVec 4).getLsbD (0 : Head).val = true ∧ (1 : BitVec 4).getLsbD (1 : Head).val = false ∧ (flightsOf (flying 0 true) 0).find? (fun x => x.plane == 0 && x.block == 0) = some (flight0 0 true)) ∧
  ((3 : Nat) ≤ (3 : Fin 11).val ∧ (6 : Fin 11).val ≤ 6 ∧ (1 : BitVec 4).getLsbD (0 : Head).val = true ∧ pressing picture 0 = true) ∧
  (lit.safety.q2Run = false) ∧
  ((timing false).safety.q2Run = true ∧ (timing false).safety.q2Timeout = false ∧ (timing false).ev.store.length < 4096) ∧
  (reloadable lit = false) ∧
  (reloadable cured = true ∧ assetOk (rawAsset 2) = false) ∧
  (assetOk (rawAsset 1) = true) ∧
  ((downed 1).boot.down[Fin.ofNat 3 (1 : Fin 2).val] = true) ∧
  ((downed 1).boot.down[Fin.ofNat 3 (0 : Fin 2).val] = false) ∧
  ((downed 1).boot.down[(2 : Fin 3)] = false) ∧
  ((downed 2).boot.down[(2 : Fin 3)] = true ∧ Quiet (downed 2)) ∧
  (coreOf 2 = 2 ∧ (downed 2).queues[(2 : Fin 4)].en = true ∧ coreOf 1 ≠ 2) :=
  ⟨by decide +kernel,
   ⟨by decide +kernel, by decide +kernel⟩,
   by decide +kernel,
   by decide +kernel,
   by decide +kernel,
   ⟨by decide +kernel, by decide +kernel, by decide +kernel⟩,
   ⟨by decide +kernel, by decide +kernel, by decide +kernel, by decide +kernel⟩,
   by decide +kernel,
   ⟨by decide +kernel, by decide +kernel, by decide +kernel⟩,
   by decide +kernel,
   ⟨by decide +kernel, by decide +kernel⟩,
   by decide +kernel,
   by decide +kernel,
   by decide +kernel,
   by decide +kernel,
   ⟨by decide +kernel, by unfold Quiet; decide +kernel⟩,
   ⟨by decide +kernel, by decide +kernel, by decide +kernel⟩⟩

/-- Die sensor 4 has been read and is at 30 °C; it was last over the trip limit so many times. -/
def sensed (k : Nat) (bad : Bool) : State :=
  onSensor 4 (fun x => { x with tried := true, seen := true, last := 30, tf := 30, failed := bad, overs := k }) lit

set_option maxRecDepth 100000 in
/-- What SamplesFilterAndTrip asks of its clauses is met. -/
theorem witness_SamplesFilterAndTrip :
  ((onBoot (fun b => { b with stage := .reset }) lit).boot.stage = .reset ∧ lit.boot.stage ≠ .reset) ∧
  (([((4 : Fin 36), Reading.die 62000), (5, .volts 0)].map (·.1)).Nodup ∧ ((4 : Fin 36), Reading.die 62000) ∈ [((4 : Fin 36), Reading.die 62000), (5, .volts 0)] ∧ (4 : Fin 36).val < 12 ∧ readingOf (.die 62000) = some 62) ∧
  ((sensed 0 true).therm.sensors[(4 : Fin 36)].failed = true) ∧
  ((sensed 0 false).therm.sensors[(4 : Fin 36)].failed = false ∧ (sensed 0 false).therm.sensors[(4 : Fin 36)].seen = true) ∧
  (lit.therm.sensors[(4 : Fin 36)].failed = false ∧ lit.therm.sensors[(4 : Fin 36)].seen = false) ∧
  (readingOf (.volts 0) = none ∧ lit.therm.sensors[(5 : Fin 36)].failed = false) ∧
  (readingOf (.die 130000) = some 130 ∧ (130 : Rat) ≤ 130 ∧ 1 ≤ (sensed 1 false).therm.sensors[(4 : Fin 36)].overs) ∧
  ((sensed 1 false).therm.groups[(0 : Fin 2)].tripped = false) :=
  ⟨⟨by decide +kernel, by decide +kernel⟩,
   ⟨by decide +kernel, by decide +kernel, by decide +kernel, by decide +kernel⟩,
   by decide +kernel,
   ⟨by decide +kernel, by decide +kernel⟩,
   ⟨by decide +kernel, by decide +kernel⟩,
   ⟨by decide +kernel, by decide +kernel⟩,
   ⟨by decide +kernel, by decide +kernel, by decide +kernel⟩,
   by decide +kernel⟩

/-- The throttle at a level, its conditions for so long; sensor 4 failed and held or in order for so long; a trip cooled for so long. -/
def throttled (level up down : Nat) : State := onGroup 0 (fun g => { g with upMs := up }) (onTherm (fun t => { t with level := level, downMs := down }) lit)
def holding (ms : Nat) : State := onSensor 4 (fun x => { x with hold := true, holdMs := ms, okMs := 30000 }) (sensed 0 true)
def cooling (ms : Nat) (b : Bool) : State := onGroup 0 (fun g => { g with tripped := true, coolMs := ms, frozen := b, coldMs := 10000 }) (onSafety (fun x => { x with standing := 0x800 }) lit)

set_option maxRecDepth 100000 in
/-- What ThermalTimersEnd asks of its clauses is met. -/
theorem witness_ThermalTimersEnd :
  ((throttled 0 249 0).therm.groups[groupFlag false].upMs < 250) ∧
  ((throttled 1 0 1999).therm.downMs < 2000) ∧
  ((throttled 7 250 0).therm.stepDue = none ∧ 250 ≤ (throttled 7 250 0).therm.groups[groupFlag false].upMs ∧ (throttled 7 250 0).therm.level < 8) ∧
  ((throttled 1 0 2000).therm.stepDue = none ∧ 2000 ≤ (throttled 1 0 2000).therm.downMs ∧ 0 < (throttled 1 0 2000).therm.level) ∧
  ((holding 59999).therm.sensors[(4 : Fin 36)].holdMs < 60000) ∧
  ((holding 60000).therm.sensors[(4 : Fin 36)].failed = true ∧ (holding 60000).therm.sensors[(4 : Fin 36)].hold = true ∧ 60000 ≤ (holding 60000).therm.sensors[(4 : Fin 36)].holdMs) ∧
  ((sensed 0 false).therm.sensors[(4 : Fin 36)].failed = false) ∧
  ((holding 0).therm.sensors[(4 : Fin 36)].failed = true ∧ 30000 ≤ (holding 0).therm.sensors[(4 : Fin 36)].okMs ∧ groupOfSensor (holding 0) 4 = some 0) ∧
  ((cooling 9999 true).therm.groups[groupFlag false].coolMs < 10000) ∧
  ((cooling 10000 true).therm.groups[groupFlag false].tripped = true ∧ 10000 ≤ (cooling 10000 true).therm.groups[groupFlag false].coolMs) :=
  ⟨by decide +kernel,
   by decide +kernel,
   ⟨by decide +kernel, by decide +kernel, by decide +kernel⟩,
   ⟨by decide +kernel, by decide +kernel, by decide +kernel⟩,
   by decide +kernel,
   ⟨by decide +kernel, by decide +kernel, by decide +kernel⟩,
   by decide +kernel,
   ⟨by decide +kernel, by decide +kernel, by decide +kernel⟩,
   by decide +kernel,
   ⟨by decide +kernel, by decide +kernel⟩⟩

/-- An integrator block of a lock value; the device with it programmed, in a stage. -/
def block0 (lock : BitVec 8) : Integrator :=
  { locks := lock, pmicAddr := 0, pmicCmd := 0, subsys := 0, leTripMask := 0, leTripLimit := 0, keyHash := 0, chMap := Vector.replicate 64 0xFF
    weight := Vector.replicate 64 0xFF, e1 := Vector.replicate 12 none, e100 := Vector.replicate 12 none, icrc := 0 }
def block (lock : BitVec 8) : Integrator := { block0 lock with icrc := BitVec.ofNat 32 (crc32c (integratorBody (block0 lock))) }
def programmed (stage : BootStage) (k : ResetKind) : State :=
  onBoot (fun b => { b with stage := stage, kind := k }) (onOtp (fun o => { o with integrator := some (block 0) }) State.reset)
def blankIn (stage : BootStage) : State := onBoot (fun b => { b with stage := stage, kind := .pin }) State.reset
def badVendor : State := onOtp (fun o => { o with vendorOk := false }) State.reset
/-- The active slot in a state, after so many boots of a trial; the staging slot in a state. -/
def slotIn (active trials staging : Nat) (stage : BootStage) : State :=
  onFlash (fun f => { f with record := { f.record with state := #v[active, staging], trials := trials } }) (programmed stage .pin)

/-- A warm reset is due; a thermal trip is latched. -/
def warmDue : State := onUpd (fun u => { u with resetDue := true }) ending
def hot : State := onTherm (fun t => { t with groups := t.groups.set 0 { t.groups[0] with tripped := true } }) lit
def pins : Straps := { bootSrc := 1, chainRole := true, cxlEn := false }

set_option maxRecDepth 100000 in
/-- What ResetsRestoreTheDevice asks of its clauses is met. -/
theorem witness_ResetsRestoreTheDevice :
  ((hot.therm.groups[(0 : Fin 2)].tripped || hot.therm.groups[(1 : Fin 2)].tripped) = true) ∧
  ((lit.therm.groups[(0 : Fin 2)].tripped || lit.therm.groups[(1 : Fin 2)].tripped) = false) ∧
  (warmDue.upd.resetDue = true) ∧
  (lit.cal.commit = none) ∧
  (lit.upd.resetDue = false) ∧
  (warmDue.clk.phase = .finish ∧ warmDue.clk.boundary = some 5000000 ∧ warmDue.upd.resetDue = true) :=
  ⟨by decide +kernel,
   by decide +kernel,
   by decide +kernel,
   by decide +kernel,
   by decide +kernel,
   ⟨by decide +kernel, by decide +kernel, by decide +kernel⟩⟩

set_option maxRecDepth 100000 in
/-- What BootFollowsItsSteps asks of its clauses is met. -/
theorem witness_BootFollowsItsSteps :
  (State.reset.boot.stage ≠ .reset) ∧
  ((programmed .reset .pin).boot.stage = .reset ∧ ((programmed .reset .pin).boot.kind == .warm && (programmed .reset .pin).boot.sampled) = false) ∧
  ((programmed .reset .pin).otp.vendorOk = true ∧ (programmed .reset .pin).otp.integrator = some (block 0) ∧ integratorOk (block 0) = true ∧ pins.bootSrc ≠ 2 ∧ (programmed .reset .pin).flash.record.state[activeOf (programmed .reset .pin).flash.record] ≠ 3) ∧
  (((programmed .reset .warm).boot.kind == .warm && (programmed .reset .warm).boot.sampled) = true ∧ (programmed .reset .warm).boot.straps.bootSrc ≠ 2) ∧
  ((blankIn .reset).boot.stage = .reset ∧ (blankIn .reset).otp.vendorOk = true ∧ (blankIn .reset).otp.integrator = none) ∧
  ((blankIn .factory).boot.stage ≠ .waiting) ∧
  ((blankIn .waiting).boot.stage = .waiting ∧ (blankIn .waiting).otp.integrator = none) ∧
  ((slotIn 4 0 0 .waiting).boot.stage = .waiting ∧ (slotIn 4 0 0 .waiting).otp.vendorOk = true ∧ (slotIn 4 0 0 .waiting).otp.integrator = some (block 0) ∧ (slotIn 4 0 0 .waiting).boot.straps.bootSrc ≠ 2 ∧ (slotIn 4 0 0 .waiting).flash.record.state[activeOf (slotIn 4 0 0 .waiting).flash.record] ≠ 3) ∧
  ((slotIn 3 2 5 .waiting).flash.record.state[activeOf (slotIn 3 2 5 .waiting).flash.record] = 3 ∧ (slotIn 3 2 5 .waiting).flash.record.trials < 3) ∧
  ((slotIn 3 3 5 .waiting).flash.record.state[activeOf (slotIn 3 3 5 .waiting).flash.record] = 3 ∧ 3 ≤ (slotIn 3 3 5 .waiting).flash.record.trials ∧ (slotIn 3 3 5 .waiting).flash.record.state[stagingOf (slotIn 3 3 5 .waiting).flash.record] = 5) ∧
  ((blankIn .waiting).otp.vendorOk = true ∧ (onBoot (fun b => { b with straps := { b.straps with bootSrc := 2 } }) (blankIn .waiting)).boot.straps.bootSrc = 2 ∧ (blankIn .waiting).boot.straps.cxlEn = true) ∧
  (badVendor.boot.stage = .waiting ∧ badVendor.otp.vendorOk = false ∧ Quiet badVendor) ∧
  ((programmed .running .pin).boot.stage ≠ .booting) ∧
  ((slotIn 4 0 0 .booting).boot.stage = .booting ∧ Quiet (slotIn 4 0 0 .booting) ∧ BootFaultKind.selfTest ≠ .asset ∧ BootFaultKind.selfTest ≠ .imageLoad ∧ BootFaultKind.selfTest ≠ .signature) ∧
  (¬ ((slotIn 4 0 0 .booting).boot.fellBack = false ∧ 3 ≤ (slotIn 4 0 0 .booting).flash.record.state[stagingOf (slotIn 4 0 0 .booting).flash.record] ∧ (slotIn 4 0 0 .booting).flash.record.state[stagingOf (slotIn 4 0 0 .booting).flash.record] ≤ 5)) ∧
  ((slotIn 4 0 5 .booting).boot.fellBack = false ∧ 3 ≤ (slotIn 4 0 5 .booting).flash.record.state[stagingOf (slotIn 4 0 5 .booting).flash.record] ∧ (slotIn 4 0 5 .booting).flash.record.state[stagingOf (slotIn 4 0 5 .booting).flash.record] ≤ 5) :=
  ⟨by decide +kernel,
   ⟨by decide +kernel, by decide +kernel⟩,
   ⟨by decide +kernel, by decide +kernel, by decide +kernel, by decide +kernel, by decide +kernel⟩,
   ⟨by decide +kernel, by decide +kernel⟩,
   ⟨by decide +kernel, by decide +kernel, by decide +kernel⟩,
   by decide +kernel,
   ⟨by decide +kernel, by decide +kernel⟩,
   ⟨by decide +kernel, by decide +kernel, by decide +kernel, by decide +kernel, by decide +kernel⟩,
   ⟨by decide +kernel, by decide +kernel⟩,
   ⟨by decide +kernel, by decide +kernel, by decide +kernel⟩,
   ⟨by decide +kernel, by decide +kernel, by decide +kernel⟩,
   ⟨by decide +kernel, by decide +kernel, by unfold Quiet; decide +kernel⟩,
   by decide +kernel,
   ⟨by decide +kernel, by unfold Quiet; decide +kernel, by decide +kernel, by decide +kernel, by decide +kernel⟩,
   by decide +kernel,
   ⟨by decide +kernel, by decide +kernel, by decide +kernel⟩⟩

/-- An image that holds an asset. -/
def image (version : Nat) : BootLoad :=
  { fwVersion := 0x0102, schema := 1, schemaMin := 1, digest := 0, asset := rawAsset version, defaults := [], migration := [] }
/-- No generation is sealed; the first safe light is due of head 2; a trial runs. -/
def unsealed : State := onOtp (fun o => { o with gens := o.gens.set 0 Generation.blank }) (programmed .booting .pin)
def awaitingLight : State := onCfg (fun c => { c with wins := c.wins.set 2 { c.wins[2] with shown := true } }) up
def inTrial : State :=
  onUpd (fun u => { u with trialLeft := some 0 }) (onFlash (fun f => { f with record := { f.record with state := #v[3, 5], trials := 1 } }) up)
/-- What the stored settings of the image leave. -/
def withStored : State :=
  (bootSettings (image 1) (onBoot (fun y => { y with fwVersion := 0x0102, schema := 1, defaults := [], imageDigest := 0 }) (loadAsset (assetOf (rawAsset 1)) (programmed .booting .pin)))).1

set_option maxRecDepth 100000 in
/-- What ReadyPointStartsTheDevice asks of its clauses is met. -/
theorem witness_ReadyPointStartsTheDevice :
  (State.reset.boot.stage ≠ .booting) ∧
  ((programmed .booting .pin).boot.stage = .booting ∧ assetOk (image 2).asset = false ∧ Quiet (programmed .booting .pin)) ∧
  (unsealed.boot.stage = .booting ∧ assetOk (image 1).asset = true ∧ sealedGen unsealed.otp = none ∧ Quiet unsealed) ∧
  (sealedGen (programmed .booting .pin).otp = some 0 ∧ placesOk (assetOf (image 1).asset) (prospect withStored) = true ∧ Quiet withStored) ∧
  (State.reset.boot.stage ≠ .running) ∧
  (awaitingLight.boot.stage = .running ∧ awaitingLight.safety.firstLight = false ∧ awaitingLight.cfg.wins[(2 : Head)].shown = true ∧ awaitingLight.heads[(2 : Head)].readyWin = false) ∧
  (awaitingLight.cfg.wins[(1 : Head)].shown = false) ∧
  (up.upd.trialLeft = none) ∧
  (inTrial.upd.trialLeft.isSome = true ∧ (nextRecord inTrial).state[activeOf (nextRecord inTrial)] = 3 ∧ (nextRecord inTrial).state[stagingOf (nextRecord inTrial)] = 5) :=
  ⟨by decide +kernel,
   ⟨by decide +kernel, by decide +kernel, by unfold Quiet; decide +kernel⟩,
   ⟨by decide +kernel, by decide +kernel, by decide +kernel, by unfold Quiet; decide +kernel⟩,
   ⟨by decide +kernel, by decide +kernel, by unfold Quiet; decide +kernel⟩,
   by decide +kernel,
   ⟨by decide +kernel, by decide +kernel, by decide +kernel, by decide +kernel⟩,
   by decide +kernel,
   by decide +kernel,
   ⟨by decide +kernel, by decide +kernel, by decide +kernel⟩⟩

/-- P3 is selected; a preset is being written for the first or the second time, at P3 or not. -/
def atP3 : State := onPower (fun p => { p with vid := 3 }) up
def writing1 (tries : Nat) : State := onPower (fun p => { p with writing := some (1, 700), tries := tries }) up

set_option maxRecDepth 100000 in
/-- What CoreVoltageActs asks of its clauses is met. -/
theorem witness_CoreVoltageActs :
  (atP3.power.vid = 3) ∧
  (up.power.vid ≠ 3) ∧
  (up.power.writing = none) ∧
  ((writing1 0).power.writing = some (1, 700) ∧ (writing1 0).power.tripAt = none ∧ (writing1 0).power.tries = 0) ∧
  ((programmed .running .pin).otp.integrator = some (block 0)) ∧
  ((writing1 1).power.writing = some (1, 700) ∧ (writing1 1).power.tries ≠ 0) :=
  ⟨by decide +kernel,
   by decide +kernel,
   by decide +kernel,
   ⟨by decide +kernel, by decide +kernel, by decide +kernel⟩,
   by decide +kernel,
   ⟨by decide +kernel, by decide +kernel⟩⟩

/-- A slice of a job runs; a series of a commit is granted, with so many left. -/
def slicing (w : FlashWork) : State := onFlash (fun f => { f with slice := true, jobs := [{ plainJob w with reset := true }] }) up
def committing (left : Nat) : State := onCal (fun c => { c with commit := some (1, 77, 5, left), granted := true }) up

set_option maxRecDepth 100000 in
/-- What FlashAndOtpJobsEnd asks of its clauses is met. -/
theorem witness_FlashAndOtpJobsEnd :
  (up.flash.slice = false ∧ up.boot.stage ≠ .recovery) ∧
  ((slicing .erase).flash.slice = true ∧ (slicing .erase).boot.stage ≠ .recovery ∧ (slicing .erase).flash.jobs = { plainJob .erase with reset := true } :: [] ∧ Quiet (slicing .erase)) ∧
  (up.cal.commit = none) ∧
  ((committing 2).cal.commit = some (1, 77, 5, 2) ∧ (committing 2).cal.granted = true ∧ 1 < 2) ∧
  ((committing 1).cal.commit = some (1, 77, 5, 1) ∧ 1 ≤ 1 ∧ Quiet (committing 1)) :=
  ⟨⟨by decide +kernel, by decide +kernel⟩,
   ⟨by decide +kernel, by decide +kernel, by decide +kernel, by unfold Quiet; decide +kernel⟩,
   by decide +kernel,
   ⟨by decide +kernel, by decide +kernel, by decide +kernel⟩,
   ⟨by decide +kernel, by decide +kernel, by unfold Quiet; decide +kernel⟩⟩

/-- The integrator block is programmed with a lock value. -/
def locked (lock : BitVec 8) : State := onOtp (fun o => { o with integrator := some (block lock) }) lit

set_option maxRecDepth 100000 in
/-- What JtagServesItsInstructions asks of its clauses is met. -/
theorem witness_JtagServesItsInstructions :
  (jtagServes .sample (locked 1) = true ∧ jtagServes .extest (locked 1) = true) ∧
  (jtagServes .sample (locked 2) = false ∧ jtagServes .extest (locked 2) = false) ∧
  (up.otp.integrator = none) ∧
  ((locked 0).otp.integrator.isSome = true) :=
  ⟨⟨by decide +kernel, by decide +kernel⟩,
   ⟨by decide +kernel, by decide +kernel⟩,
   by decide +kernel,
   by decide +kernel⟩

/-- A whole packet, its CHK and CRC word as R446 forms them. -/
def packet (ptype : BitVec 8) (port : Port) (dst : BitVec 9) (bcast : Bool) (src : BitVec 9) (arg : BitVec 21) (ws : List (BitVec 64)) : Packet :=
  let len := if ws.isEmpty then 0 else ws.length + 1
  let m := cwMarker ptype len dst bcast src arg
  { port := port, len := BitVec.ofNat 8 len, dst := dst, bcast := bcast, src := src, arg := arg, chk := BitVec.ofNat 8 (crc8Bits 56 m 0)
    words := if ws.isEmpty then [] else ws ++ [cwCrc (cwBody m) ws], framed := true }

/-- A follower at an address, and the head device, of a chain of four; both ports run. -/
def chained (head : Bool) (a : Nat) : State :=
  onCw (fun c => { c with up := { c.up with state := 2 }, down := { c.down with state := 2 }, addr := a, len := 4, follower := !head })
    (onBoot (fun b => { b with straps := { b.straps with chainRole := head } }) up)
def portDown (x : Port) (k : Nat) (s : State) : State := onPort x (fun c => { c with state := k }) s

set_option maxRecDepth 100000 in
/-- What PacketsAreJudgedAndRelayed asks of its clauses is met. -/
theorem witness_PacketsAreJudgedAndRelayed :
  (packetRow (.vote (packet 0x12 .up 0 false 2 0 [])) = some (0x12, .down, packet 0x12 .up 0 false 2 0 []) ∧ (packet 0x12 .up 0 false 2 0 []).port ≠ .down) ∧
  ((packet 0x12 .down 0 false 2 0 []).port = .down ∧ (cwPort .down (chained true 0)).state ≠ 0 ∧ (chained true 0).cw.cutDown = false ∧ cwGood 0x12 { packet 0x12 .down 0 false 2 0 [] with framed := false } = false) ∧
  (Arrives 0x12 .down (packet 0x12 .down 0 false 3 0 []) (chained false 2) ∧ forMe (packet 0x12 .down 0 false 3 0 []) (chained false 2) = false ∧ (cwPort .up (chained false 2)).state = 2) ∧
  (Arrives 0x12 .down (packet 0x12 .down 0 false 3 0 []) (portDown .up 1 (chained false 2)) ∧ (cwPort .up (portDown .up 1 (chained false 2))).state ≠ 2) :=
  ⟨⟨by decide +kernel, by decide +kernel⟩,
   ⟨by decide +kernel, by decide +kernel, by decide +kernel, by decide +kernel⟩,
   ⟨by unfold Arrives; decide +kernel, by decide +kernel, by decide +kernel⟩,
   ⟨by unfold Arrives; decide +kernel, by decide +kernel⟩⟩

/-- CW_D measures its delay in a state, with so many answers. -/
def measuring (state k sum : Nat) : State := onPort .down (fun c => { c with state := state, measuring := true, echoes := k, echoSum := sum }) (chained true 0)
def retryAt (n : Nat) : State := onPort .down (fun c => { c with retryTick := some n }) (chained true 0)

set_option maxRecDepth 100000 in
/-- What PortsFollowTheirEchoes asks of its clauses is met. -/
theorem witness_PortsFollowTheirEchoes :
  (Arrives 0x01 .down (packet 0x01 .down 0 false 0 5 []) (chained true 0)) ∧
  (Arrives 0x02 .down (packet 0x02 .down 0 false 0 0x100 []) (chained true 0) ∧ (cwPort .down (chained true 0)).measuring = false) ∧
  (Arrives 0x02 .down (packet 0x02 .down 0 false 0 0x100 []) (measuring 1 254 0) ∧ (cwPort .down (measuring 1 254 0)).measuring = true ∧ (cwPort .down (measuring 1 254 0)).echoes + 1 < 256) ∧
  (255 ≤ (cwPort .down (measuring 2 255 0)).echoes ∧ (cwPort .down (measuring 2 255 0)).state = 2) ∧
  (255 ≤ (cwPort .down (measuring 1 255 491776)).echoes ∧ (cwPort .down (measuring 1 255 491776)).state ≠ 2 ∧ 960 < divRound ((cwPort .down (measuring 1 255 491776)).echoSum + (0 - 4 * fld (packet 0x02 .down 0 false 0 0 []).arg 8 13)) 512) ∧
  (divRound ((cwPort .down (measuring 1 255 491775)).echoSum + (0 - 4 * fld (packet 0x02 .down 0 false 0 0 []).arg 8 13)) 512 ≤ 960 ∧ Quiet (measuring 1 255 491775)) ∧
  ((cwPort .up up).state = 0) ∧
  ((cwPort .up (portDown .up 1 up)).state = 1) ∧
  (2 ≤ (cwPort .up (chained false 2)).state ∧ (∀ q : Fin 4, (chained false 2).queues[q].sqHead = (chained false 2).queues[q].sqTail) ∧ (chained false 2).cw.inCmd = [] ∧ (chained false 2).cw.waitCmd = none ∧ isFollower (chained false 2) = true) ∧
  ((cwPort .up up).state ≠ 2) ∧
  ((cwPort .down (chained true 0)).state = 2) ∧
  ((cwPort .down (retryAt 1)).retryTick = some 1 ∧ (retryAt 1).clk.tick < 1) ∧
  ((cwPort .down (retryAt 0)).retryTick = some 0 ∧ 0 ≤ (retryAt 0).clk.tick) :=
  ⟨by unfold Arrives; decide +kernel,
   ⟨by unfold Arrives; decide +kernel, by decide +kernel⟩,
   ⟨by unfold Arrives; decide +kernel, by decide +kernel, by decide +kernel⟩,
   ⟨by decide +kernel, by decide +kernel⟩,
   ⟨by decide +kernel, by decide +kernel, by decide +kernel⟩,
   ⟨by decide +kernel, by unfold Quiet; decide +kernel⟩,
   by decide +kernel,
   by decide +kernel,
   ⟨by decide +kernel, by decide +kernel, by decide +kernel, by decide +kernel, by decide +kernel⟩,
   by decide +kernel,
   by decide +kernel,
   ⟨by decide +kernel, by decide +kernel⟩,
   ⟨by decide +kernel, by decide +kernel⟩⟩

/-- The head device is enumerating, with two reports; a device that was left out of its chain. -/
def enumerating : State := onCw (fun c => { c with enumAt := some 0, reports := [(1, 0, 0x42), (2, 0, 0x42)] }) (chained true 0)
def leftOut : State := onCw (fun c => { c with addr := 0x1FF, len := 0, follower := false }) (chained false 2)
def kindB (s : State) : State := onOtp (fun o => { o with variant := 0x42 }) s

set_option maxRecDepth 100000 in
/-- What EnumerationGivesAddresses asks of its clauses is met. -/
theorem witness_EnumerationGivesAddresses :
  ((chained true 0).boot.straps.chainRole = true) ∧
  (leftOut.boot.straps.chainRole = false ∧ Arrives 0x20 .up (packet 0x20 .up 0x10 false 0x0F 0x210 []) leftOut ∧ (bit (packet 0x20 .up 0x10 false 0x0F 0x210 []).arg 9 || isA leftOut) = true ∧ 15 < fld (packet 0x20 .up 0x10 false 0x0F 0x210 []).arg 0 9) ∧
  (Arrives 0x20 .up (packet 0x20 .up 0xF false 0xE 0x20F []) leftOut ∧ fld (packet 0x20 .up 0xF false 0xE 0x20F []).arg 0 9 ≤ 15 ∧ leftOut.cw.up.state = 2 ∧ leftOut.cw.down.state = 2 ∧ fld (packet 0x20 .up 0xF false 0xE 0x20F []).arg 0 9 < 511) ∧
  ((bit (packet 0x20 .up 0x10 false 0x0F 0x10 []).arg 9 || isA (kindB leftOut)) = false) ∧
  (Heard 0x21 .down (packet 0x21 .down 0 false 3 3 [77, 0x42000000000000]) enumerating) ∧
  (Heard 0x22 .down (packet 0x22 .down 0 false 2 3 []) (chained true 0) ∧ (chained true 0).cw.enumAt = none) ∧
  (Heard 0x22 .down (packet 0x22 .down 0 false 2 3 []) enumerating ∧ enumerating.cw.enumAt.isSome = true ∧ Quiet enumerating) ∧
  (up.cw.enumAt = none) ∧
  (Heard 0x24 .down (packet 0x24 .down 0 false 3 0 []) (chained true 0) ∧ (chained true 0).cw.down.state = 2 ∧ Quiet (chained true 0)) ∧
  (Arrives 0x23 .up (packet 0x23 .up 0 true 0 2 []) leftOut ∧ hasAddress leftOut = false) ∧
  (Arrives 0x23 .up (packet 0x23 .up 0 true 0 2 []) (chained false 2) ∧ hasAddress (chained false 2) = true ∧ fld (packet 0x23 .up 0 true 0 2 []).arg 0 10 ≤ (chained false 2).cw.addr) ∧
  (Arrives 0x23 .up (packet 0x23 .up 0 true 0 3 []) (chained false 2) ∧ (chained false 2).cw.addr + 1 = fld (packet 0x23 .up 0 true 0 3 []).arg 0 10) ∧
  (Arrives 0x23 .up (packet 0x23 .up 0 true 0 4 []) (chained false 2) ∧ (chained false 2).cw.addr + 1 < fld (packet 0x23 .up 0 true 0 4 []).arg 0 10) :=
  ⟨by decide +kernel,
   ⟨by decide +kernel, by unfold Arrives; decide +kernel, by decide +kernel, by decide +kernel⟩,
   ⟨by unfold Arrives; decide +kernel, by decide +kernel, by decide +kernel, by decide +kernel, by decide +kernel⟩,
   by decide +kernel,
   by unfold Heard Arrives; decide +kernel,
   ⟨by unfold Heard Arrives; decide +kernel, by decide +kernel⟩,
   ⟨by unfold Heard Arrives; decide +kernel, by decide +kernel, by unfold Quiet; decide +kernel⟩,
   by decide +kernel,
   ⟨by unfold Heard Arrives; decide +kernel, by decide +kernel, by unfold Quiet; decide +kernel⟩,
   ⟨by unfold Arrives; decide +kernel, by decide +kernel⟩,
   ⟨by unfold Arrives; decide +kernel, by decide +kernel, by decide +kernel⟩,
   ⟨by unfold Arrives; decide +kernel, by decide +kernel⟩,
   ⟨by unfold Arrives; decide +kernel, by decide +kernel⟩⟩

/-- A BOUNDARY of a chain of four: AT in 250 ps. -/
def placing (at250 : BitVec 32) : Packet := packet 0x10 .up 0 true 0 0 [7, BitVec.ofNat 64 (at250.toNat + 7500 * 2 ^ 32 + 4 * 2 ^ 48)]
/-- A MODE without groups, from tick 9 on. -/
def modePacket : Packet := packet 0x11 .up 0 true 0 0 [0, 0, 9]
/-- The follower has its boundary. -/
def bounded : State := onClk (fun c => { c with cutAt := some 1, boundary := some 125001 }) (chained false 2)

set_option maxRecDepth 100000 in
/-- What ChainTicksTogether asks of its clauses is met. -/
theorem witness_ChainTicksTogether :
  (Arrives 0x10 .up (placing 1000000) (chained true 0) ∧ ((chained true 0).cw.follower && !(chained true 0).cw.alone) = false) ∧
  (Arrives 0x10 .up (placing 0xFFFFFFFF) (chained false 2) ∧ ((chained false 2).cw.follower && !(chained false 2).cw.alone) = true ∧ signed 32 (fld (wordOf (placing 0xFFFFFFFF) 2) 0 32) < 0) ∧
  (Arrives 0x10 .up (placing 1000000) (chained false 2) ∧ 0 ≤ signed 32 (fld (wordOf (placing 1000000) 2) 0 32) ∧ 0 ≤ boundaryAhead (placing 1000000) (chained false 2) ∧ (chained false 2).clk.boundary = none ∧ (chained false 2).clk.held = false) ∧
  (Arrives 0x10 .up (placing 1000000) bounded ∧ 0 ≤ boundaryAhead (placing 1000000) bounded ∧ bounded.clk.boundary.isSome = true) ∧
  (isFollower (chained true 0) = false) ∧
  (isFollower (chained false 2) = true ∧ (chained false 2).clk.boundary = none ∧ (chained false 2).clk.held = false) ∧
  (Heard 0x11 .up modePacket (chained false 2) ∧ modeRef (modePayload modePacket) (chained false 2) = none) ∧
  (Heard 0x11 .up modePacket (chained true 0) ∧ isFollower (chained true 0) = false) ∧
  (Heard 0x12 .down (packet 0x12 .down 0 false 3 0x100000 []) (onCw (fun c => { c with voters := [(2, true)] }) (chained true 0)) ∧ bit (packet 0x12 .down 0 false 3 0x100000 []).arg 20 = true) ∧
  (Heard 0x12 .down (packet 0x12 .down 0 false 2 0 []) (onCw (fun c => { c with voters := [(2, true)] }) (chained true 0)) ∧ bit (packet 0x12 .down 0 false 2 0 []).arg 20 = false) ∧
  (Heard 0x13 .down (packet 0x13 .down 0 false 3 99 []) (chained true 0)) :=
  ⟨⟨by unfold Arrives; decide +kernel, by decide +kernel⟩,
   ⟨by unfold Arrives; decide +kernel, by decide +kernel, by decide +kernel⟩,
   ⟨by unfold Arrives; decide +kernel, by decide +kernel, by decide +kernel, by decide +kernel, by decide +kernel⟩,
   ⟨by unfold Arrives; decide +kernel, by decide +kernel, by decide +kernel⟩,
   by decide +kernel,
   ⟨by decide +kernel, by decide +kernel, by decide +kernel⟩,
   ⟨by unfold Heard Arrives; decide +kernel, by decide +kernel⟩,
   ⟨by unfold Heard Arrives; decide +kernel, by decide +kernel⟩,
   ⟨by unfold Heard Arrives; decide +kernel, by decide +kernel⟩,
   ⟨by unfold Heard Arrives; decide +kernel, by decide +kernel⟩,
   by unfold Heard Arrives; decide +kernel⟩

/-- An event of origin 2 with a SEQ, and with REPLAY; the relay holds one of SEQ 4. -/
def eventOf (seq : Nat) (again : Bool) : Packet := packet 0x50 .up 1 false 2 0 [BitVec.ofNat 64 (seq * 2 ^ 32 + again.toNat * 4096), 0, 0, 0]
def relaying : State := onCw (fun c => { c with relay := [{ origin := 2, word := BitVec.ofNat 256 (4 * 2 ^ 32), down := false, host := false }], lastSeqOf := [(2, 4)] }) (chained false 1)
/-- This device is a chain observer's source: five records are sent, one is acknowledged. -/
def observed : State := onEv (fun v => { v with chainObs := true, chainAck := 1, chainSent := 5 }) relaying
def ackOf (origin seq : Nat) : Packet := packet 0x51 .down 1 false 0 0 [BitVec.ofNat 64 (seq + origin * 2 ^ 32)]

set_option maxRecDepth 100000 in
/-- What EventsCrossTheChain asks of its clauses is met. -/
theorem witness_EventsCrossTheChain :
  (Heard 0x50 .up (eventOf 4 true) relaying ∧ (bit (BitVec.ofNat 256 (pack [(0, 64, (wordOf (eventOf 4 true) 1).toNat)])) 12 && relaying.cw.lastSeqOf.any (fun x => x.1 == 2 && decide ((x.2 - 4).toNat < 4096))) = true) ∧
  (Heard 0x50 .up (eventOf 5 false) observed ∧ observed.cw.relay.length < 1024) ∧
  (Heard 0x51 .down (ackOf 1 3) observed ∧ fld (wordOf (ackOf 1 3) 1) 32 9 = observed.cw.addr ∧ (BitVec.ofNat 32 (fld (wordOf (ackOf 1 3) 1) 0 32) - observed.ev.chainAck).toNat < (observed.ev.chainSent - observed.ev.chainAck).toNat) ∧
  (Heard 0x51 .down (ackOf 1 5) observed ∧ (observed.ev.chainSent - observed.ev.chainAck).toNat ≤ (BitVec.ofNat 32 (fld (wordOf (ackOf 1 5) 1) 0 32) - observed.ev.chainAck).toNat) ∧
  (Heard 0x51 .down (ackOf 2 4) observed ∧ fld (wordOf (ackOf 2 4) 1) 32 9 ≠ observed.cw.addr) ∧
  (up.ev.chainObs = false) ∧
  (observed.ev.chainObs = true ∧ observed.cw.down.state = 2 ∧ (observed.ev.chainSent - observed.ev.chainAck).toNat + (observed.cw.relay.filter (!·.down)).length ≠ 0) :=
  ⟨⟨by unfold Heard Arrives; decide +kernel, by decide +kernel⟩,
   ⟨by unfold Heard Arrives; decide +kernel, by decide +kernel⟩,
   ⟨by unfold Heard Arrives; decide +kernel, by decide +kernel, by decide +kernel⟩,
   ⟨by unfold Heard Arrives; decide +kernel, by decide +kernel⟩,
   ⟨by unfold Heard Arrives; decide +kernel, by decide +kernel⟩,
   by decide +kernel,
   ⟨by decide +kernel, by decide +kernel, by decide +kernel⟩⟩

/-- A relayed DEVICE_INFO for a queue, with so many data packets, and one that waits for its data. -/
def cmdOf (q left : Nat) : Packet := packet 0x40 .up 1 false 0 (BitVec.ofNat 21 (q + 4 * left + 256 * (stageLo / 64))) ((List.range 8).map fun i => BitVec.ofNat 64 (leNat ((descBytes 1 (ask 3 [])).drop (8 * i) |>.take 8)))
def inCmd (left : Nat) : InCmd := { tq := 3, via := .chain, left := left, off := stageLo, desc := [] }
def awaitingData (left : Nat) : State := onCw (fun c => { c with inCmd := [inCmd left] }) (chained false 1)
def dataPacket : Packet := packet 0x41 .up 1 false 0 0 (List.replicate 128 7)
/-- A CHAIN_SEND of Q3 waits for its targets. -/
def chainSent (l : List Nat) : SendWait := { bcast := false, expect := l, answers := [], sent := 0 }
def sendDesc : Deferred := { queue := 3, opcode := 0x91, slot := 0, tag := 7, alive := 0, via := .ring }
def sending (l : List Nat) : State :=
  onQueue 3 (fun z => { z with waiting := some sendDesc }) (onCw (fun c => { c with waitCmd := some (chainSent l) }) (chained true 0))
def respOf (a : BitVec 9) : Packet := packet 0x42 .down 0 false a 0 (List.replicate 8 0)

set_option maxRecDepth 100000 in
/-- What CommandsCrossTheChain asks of its clauses is met. -/
theorem witness_CommandsCrossTheChain :
  ((∀ q : Fin 4, (chained false 1).queues[q].sqHead = (chained false 1).queues[q].sqTail) ∧ Heard 0x40 .up (cmdOf 3 1) (chained false 1) ∧ (chained false 1).cw.inCmd = [] ∧ (chained false 1).cw.waitCmd = none ∧ fld (cmdOf 3 1).arg 2 6 ≠ 0) ∧
  (Heard 0x40 .up (cmdOf 3 0) (chained false 1) ∧ (cmdOf 3 0).bcast = false ∧ fld (cmdOf 3 0).arg 2 6 = 0 ∧ queueIdle 3 (chained false 1) = true ∧ waitsForLatch (opOf (cmdDesc { tq := 3, via := .chain, left := 0, off := stageLo, desc := content (cmdOf 3 0) }).1) (chained false 1) = false ∧ (trySend (execDesc (opOf (cmdDesc { tq := 3, via := .chain, left := 0, off := stageLo, desc := content (cmdOf 3 0) }).1) (cmdDesc { tq := 3, via := .chain, left := 0, off := stageLo, desc := content (cmdOf 3 0) }).2 .chain 0 (chained false 1))).cw.inCmd = [] ∧ (trySend (execDesc (opOf (cmdDesc { tq := 3, via := .chain, left := 0, off := stageLo, desc := content (cmdOf 3 0) }).1) (cmdDesc { tq := 3, via := .chain, left := 0, off := stageLo, desc := content (cmdOf 3 0) }).2 .chain 0 (chained false 1))).cw.waitCmd = none ∧ (∀ q : Fin 4, (trySend (execDesc (opOf (cmdDesc { tq := 3, via := .chain, left := 0, off := stageLo, desc := content (cmdOf 3 0) }).1) (cmdDesc { tq := 3, via := .chain, left := 0, off := stageLo, desc := content (cmdOf 3 0) }).2 .chain 0 (chained false 1))).queues[q].sqHead = (trySend (execDesc (opOf (cmdDesc { tq := 3, via := .chain, left := 0, off := stageLo, desc := content (cmdOf 3 0) }).1) (cmdDesc { tq := 3, via := .chain, left := 0, off := stageLo, desc := content (cmdOf 3 0) }).2 .chain 0 (chained false 1))).queues[q].sqTail)) ∧
  (Heard 0x41 .up dataPacket (chained false 1)) ∧
  (Heard 0x41 .up dataPacket (awaitingData 2) ∧ (awaitingData 2).cw.inCmd = [inCmd 2] ∧ (inCmd 2).via = .chain ∧ (inCmd 2).left ≠ 0 ∧ (inCmd 2).left ≠ 1 ∧ stageLo ≤ (inCmd 2).off ∧ (inCmd 2).off + 1024 * fld dataPacket.arg 0 6 + 1024 ≤ stageHi) ∧
  (Heard 0x42 .down (respOf 2) (chained true 0) ∧ (chained true 0).cw.waitCmd = none) ∧
  ((∀ q : Fin 4, (sending [2, 3]).queues[q].sqHead = (sending [2, 3]).queues[q].sqTail) ∧ Heard 0x42 .down (respOf 2) (sending [2, 3]) ∧ (sending [2, 3]).cw.inCmd = [] ∧ (sending [2, 3]).cw.waitCmd = some (chainSent [2, 3]) ∧ (respOf 2).src.toNat ∈ (chainSent [2, 3]).expect ∧ (∃ a ∈ (chainSent [2, 3]).expect, a ≠ (respOf 2).src.toNat)) ∧
  (Heard 0x42 .down (respOf 2) (sending [2]) ∧ (sending [2]).cw.waitCmd = some (chainSent [2]) ∧ (chainSent [2]).bcast = false ∧ (chainSent [2]).answers = [] ∧ (chainSent [2]).expect = [(respOf 2).src.toNat] ∧ (sending [2]).queues[(3 : Fin 4)].waiting = some sendDesc ∧ sendDesc.queue = 3 ∧ sendDesc.via = .ring) ∧
  ((chained true 0).cw.waitCmd = none) ∧
  ((sending [2]).cw.inCmd = [] ∧ (sending [2]).queues[(3 : Fin 4)].waiting = some sendDesc) :=
  ⟨⟨by decide +kernel, by unfold Heard Arrives; decide +kernel, by decide +kernel, by decide +kernel, by decide +kernel⟩,
   ⟨by unfold Heard Arrives; decide +kernel, by decide +kernel, by decide +kernel, by decide +kernel, by decide +kernel, by decide +kernel, by decide +kernel, by decide +kernel⟩,
   by unfold Heard Arrives; decide +kernel,
   ⟨by unfold Heard Arrives; decide +kernel, by decide +kernel, by decide +kernel, by decide +kernel, by decide +kernel, by decide +kernel, by decide +kernel⟩,
   ⟨by unfold Heard Arrives; decide +kernel, by decide +kernel⟩,
   ⟨by decide +kernel, by unfold Heard Arrives; decide +kernel, by decide +kernel, by decide +kernel, by decide +kernel, by decide +kernel⟩,
   ⟨by unfold Heard Arrives; decide +kernel, by decide +kernel, by decide +kernel, by decide +kernel, by decide +kernel, by decide +kernel, by decide +kernel, by decide +kernel⟩,
   by decide +kernel,
   ⟨by decide +kernel, by decide +kernel⟩⟩

/-- A chain session of this participant; blocks in transit. -/
def member (state : Nat) (chain : Bool) : Session :=
  { state := state, chain := chain, joined := false, scope := false, pkg := false, resetSettings := false, length := 1024, schema := 1, fw := 1, id := 5
    stored := 0, last := 0 }
def updating (state : Nat) (chain : Bool) (l : List Transit) : State := onUpd (fun u => { u with session := some (member state chain), transit := l }) (chained false 2)
/-- Block 3 is being received: all of its segments but the first, its 8 bytes and their CRC, and so many failures. -/
def receiving3 (crc : BitVec 32) (fails : Nat) : Transit :=
  { block := 3, length := 8, crc := crc, parts := (List.range 63).map fun i => (i + 1, []), whole := false, stored := false, acked := false
    resends := 0, fails := fails, began := some 0 }
def startOf : Packet := packet 0x30 .up 2 false 1 3 [BitVec.ofNat 64 (0x1234 + 65536 * 2 ^ 32)]
def segmentOf (g : Nat) : Packet := packet 0x31 .up 2 false 1 (BitVec.ofNat 21 (3 + 32 * g)) (List.replicate 128 0)
def blockAckOf (again : Bool) : Packet := packet 0x32 .down 2 false 3 (BitVec.ofNat 21 (3 + 32 * again.toNat)) []
/-- It is received and stored, and waits for the next device. -/
def whole3 (resends : Nat) : Transit := { receiving3 0 0 with whole := true, stored := true, began := none, resends := resends }
/-- CRC-32C of eight zero bytes. -/
def zeroCrc : BitVec 32 := BitVec.ofNat 32 (crc32c (List.replicate 8 0))
def waitingBlock : Transit := { receiving3 0 0 with began := none, parts := [] }

set_option maxRecDepth 100000 in
/-- What BlocksCrossTheChain asks of its clauses is met. -/
theorem witness_BlocksCrossTheChain :
  (Heard 0x30 .up startOf (updating 1 true [waitingBlock]) ∧ (updating 1 true [waitingBlock]).upd.transit.any (fun t => t.block == 3 && !t.whole) = true) ∧
  (Heard 0x30 .up startOf (updating 1 true []) ∧ (updating 1 true []).upd.transit.length < 2) ∧
  (Heard 0x30 .up startOf (updating 1 true [whole3 0, whole3 1]) ∧ 2 ≤ (updating 1 true [whole3 0, whole3 1]).upd.transit.length) ∧
  (Heard 0x31 .up (segmentOf 63) (updating 1 true []) ∧ receiving 3 (updating 1 true []) = none ∧ (updating 1 true []).cw.up.state = 2) ∧
  (Heard 0x31 .up (segmentOf 1) (updating 1 true [receiving3 0 0]) ∧ receiving 3 (updating 1 true [receiving3 0 0]) = some (receiving3 0 0)) ∧
  (receiving 3 (updating 1 true [receiving3 zeroCrc 0]) = some (receiving3 zeroCrc 0) ∧ (updating 1 true [receiving3 zeroCrc 0]).upd.transit = [receiving3 zeroCrc 0] ∧ (receiving3 zeroCrc 0).whole = false ∧ ((0, List.replicate 1024 0) :: (receiving3 zeroCrc 0).parts.filter fun y => y.1 != 0).length = 64 ∧ crc32c (transitBytes { receiving3 zeroCrc 0 with parts := (0, List.replicate 1024 0) :: (receiving3 zeroCrc 0).parts.filter fun y => y.1 != 0 }) = (receiving3 zeroCrc 0).crc.toNat ∧ stores (updating 1 true [receiving3 zeroCrc 0]) = true ∧ storedCrc (updating 1 true [receiving3 zeroCrc 0]) 3 = none) ∧
  (crc32c (transitBytes { receiving3 1 7 with parts := (0, List.replicate 1024 0) :: (receiving3 1 7).parts.filter fun y => y.1 != 0 }) ≠ (receiving3 1 7).crc.toNat ∧ (receiving3 1 7).fails < 8) ∧
  (up.upd.transit.find? (fun t => t.began.isSome) = none) ∧
  ((updating 1 true [receiving3 1 7]).upd.transit.find? (fun t => t.began.isSome) = some (receiving3 1 7) ∧ (receiving3 1 7).fails < 8) ∧
  ((updating 1 true [receiving3 1 8]).upd.transit.find? (fun t => t.began.isSome) = some (receiving3 1 8) ∧ 8 ≤ (receiving3 1 8).fails) ∧
  (Heard 0x32 .down (blockAckOf false) (updating 1 true [whole3 0]) ∧ bit (blockAckOf false).arg 5 = false ∧ (updating 1 true [whole3 0]).upd.held = none ∧ Quiet (updating 1 true [whole3 0])) ∧
  (Heard 0x32 .down (blockAckOf true) (updating 1 true [whole3 7]) ∧ bit (blockAckOf true).arg 5 = true ∧ (updating 1 true [whole3 7]).upd.transit = [whole3 7] ∧ (whole3 7).block = 3 ∧ (whole3 7).whole = true ∧ (whole3 7).resends < 8) :=
  ⟨⟨by unfold Heard Arrives; decide +kernel, by decide +kernel⟩,
   ⟨by unfold Heard Arrives; decide +kernel, by decide +kernel⟩,
   ⟨by unfold Heard Arrives; decide +kernel, by decide +kernel⟩,
   ⟨by unfold Heard Arrives; decide +kernel, by decide +kernel, by decide +kernel⟩,
   ⟨by unfold Heard Arrives; decide +kernel, by decide +kernel⟩,
   ⟨by decide +kernel, by decide +kernel, by decide +kernel, by decide +kernel, by decide +kernel, by decide +kernel, by decide +kernel⟩,
   ⟨by decide +kernel, by decide +kernel⟩,
   by decide +kernel,
   ⟨by decide +kernel, by decide +kernel⟩,
   ⟨by decide +kernel, by decide +kernel⟩,
   ⟨by unfold Heard Arrives; decide +kernel, by decide +kernel, by decide +kernel, by unfold Quiet; decide +kernel⟩,
   ⟨by unfold Heard Arrives; decide +kernel, by decide +kernel, by decide +kernel, by decide +kernel, by decide +kernel, by decide +kernel⟩⟩

/-- UPD_CTRL of an operation, LENGTH 1024, SCHEMA and FW 1, an ID; UPD_RESP of an operation with a status. -/
def ctrlOf (op : BitVec 21) (id : BitVec 64) (at_ : BitVec 64) : Packet := packet 0x33 .up 2 false 0 op [0x40000000000, at_, 0, id, 0, 0]
def updRespOf (op : BitVec 21) (st : BitVec 16) : Packet := packet 0x34 .down 0 false 3 op [st.setWidth 64]
/-- Its session is VERIFIED; the head device waits for answers, or has two participants. -/
def verified : State := updating 3 true []
def collecting : State := onUpd (fun u => { u with opened := [3], wait := some { op := 1, expect := [3, 4], answers := [], own := none } }) (chained true 0)
def opened3 : State := onUpd (fun u => { u with opened := [3] }) (chained true 0)

set_option maxRecDepth 100000 in
/-- What ControlCrossesTheChain asks of its clauses is met. -/
theorem witness_ControlCrossesTheChain :
  (fld (ctrlOf 1 5 0x10001).arg 0 4 ≠ 0) ∧
  (Heard 0x33 .up (packet 0x33 .up 2 false 0 0 [0, 0, 0, 0, 0, 0]) (chained false 2) ∧ lengthOk (openOf (ctrlPayload (packet 0x33 .up 2 false 0 0 [0, 0, 0, 0, 0, 0]))).pkg (openOf (ctrlPayload (packet 0x33 .up 2 false 0 0 [0, 0, 0, 0, 0, 0]))).length = false) ∧
  (Heard 0x33 .up (ctrlOf 0 6 0x10001) (chained false 2) ∧ lengthOk (openOf (ctrlPayload (ctrlOf 0 6 0x10001))).pkg (openOf (ctrlPayload (ctrlOf 0 6 0x10001))).length = true ∧ openHow true (openOf (ctrlPayload (ctrlOf 0 6 0x10001))) (chained false 2) = .fresh 1) ∧
  (openHow true (openOf (ctrlPayload (ctrlOf 0 5 0x10001))) (updating 1 false []) = .joined) ∧
  (Heard 0x33 .up (ctrlOf 1 0 0) (updating 2 false []) ∧ (updating 2 false []).upd.session = some (member 2 false) ∧ (member 2 false).chain = false) ∧
  ((updating 1 true [whole3 0]).upd.session = some (member 1 true) ∧ (member 1 true).chain = true ∧ (member 1 true).state = 1 ∧ storing (updating 1 true [whole3 0]) = true) ∧
  ((updating 2 true []).upd.session = some (member 2 true) ∧ (member 2 true).state = 2) ∧
  (Heard 0x33 .up (ctrlOf 2 0 8) verified ∧ verified.upd.session = some (member 3 true) ∧ verified.clk.tick + 8 ≤ fld (ctrlPayload (ctrlOf 2 0 8)) 64 48 ∧ fld (ctrlPayload (ctrlOf 2 0 8)) 64 48 ≤ verified.clk.tick + 65536 ∧ activateRef (member 3 true) (bit (ctrlPayload (ctrlOf 2 0 8)) 0) verified = none) ∧
  (Heard 0x33 .up (ctrlOf 3 0 0) (chained false 2) ∧ (chained false 2).upd.session = none) ∧
  (Heard 0x33 .up (ctrlOf 3 0 0) verified ∧ (member 3 true).chain = true) ∧
  (Heard 0x33 .up (ctrlOf 3 0 0) (updating 2 false []) ∧ (member 2 false).chain = false) ∧
  (Heard 0x33 .up (ctrlOf 4 0 0) verified ∧ fld (ctrlOf 4 0 0).arg 0 4 = 4) ∧
  (Heard 0x34 .down (updRespOf 1 0) collecting ∧ Quiet collecting ∧ collecting.upd.wait = some { op := 1, expect := [3, 4], answers := [], own := none } ∧ fld (updRespOf 1 0).arg 0 4 = 1 ∧ (updRespOf 1 0).src.toNat ∈ [3, 4]) ∧
  (Heard 0x34 .down (updRespOf 0 stCrc) opened3 ∧ Quiet opened3 ∧ fld (updRespOf 0 stCrc).arg 0 4 = 0 ∧ BitVec.ofNat 16 (fld (wordOf (updRespOf 0 stCrc) 1) 0 16) = stCrc ∧ (updRespOf 0 stCrc).src.toNat ∈ participants opened3 ∧ opened3.upd.wait = none) ∧
  (Heard 0x34 .down (updRespOf 1 0) opened3 ∧ fld (updRespOf 1 0).arg 0 4 ≠ 0) :=
  ⟨by decide +kernel,
   ⟨by unfold Heard Arrives; decide +kernel, by decide +kernel⟩,
   ⟨by unfold Heard Arrives; decide +kernel, by decide +kernel, rfl⟩,
   rfl,
   ⟨by unfold Heard Arrives; decide +kernel, by decide +kernel, by decide +kernel⟩,
   ⟨by decide +kernel, by decide +kernel, by decide +kernel, by decide +kernel⟩,
   ⟨by decide +kernel, by decide +kernel⟩,
   ⟨by unfold Heard Arrives; decide +kernel, by decide +kernel, by decide +kernel, by decide +kernel, by decide +kernel⟩,
   ⟨by unfold Heard Arrives; decide +kernel, by decide +kernel⟩,
   ⟨by unfold Heard Arrives; decide +kernel, by decide +kernel⟩,
   ⟨by unfold Heard Arrives; decide +kernel, by decide +kernel⟩,
   ⟨by unfold Heard Arrives; decide +kernel, by decide +kernel⟩,
   ⟨by unfold Heard Arrives; decide +kernel, by unfold Quiet; decide +kernel, by decide +kernel, by decide +kernel, by decide +kernel⟩,
   ⟨by unfold Heard Arrives; decide +kernel, by unfold Quiet; decide +kernel, by decide +kernel, by decide +kernel, by decide +kernel, by decide +kernel⟩,
   ⟨by unfold Heard Arrives; decide +kernel, by decide +kernel⟩⟩

/-- The state that a step leaves. -/
def stepped (s : State) : State :=
  match step s with
  | .next t => t
  | _ => s

/-- The device with one command at the front of its queue. -/
def fronted (c : Instr) : State := { up with pending := [c, .lockstepFault] }

set_option maxRecDepth 100000 in
/-- What StepRunsTheFrontCommand asks of its clauses is met. -/
theorem witness_StepRunsTheFrontCommand :
  ((fronted .idcode).pending = .idcode :: [.lockstepFault]) ∧
  (State.reset.pending = []) :=
  ⟨by decide +kernel,
   by decide +kernel⟩

set_option maxRecDepth 100000 in
/-- What SafeIsKept asks of its clauses is met. -/
theorem witness_SafeIsKept :
  (Safe State.reset ∧ step State.reset = .next (stepped State.reset)) :=
  ⟨safe_of rfl rfl (by decide +kernel), rfl⟩

/-- TICK stands at its end. -/
def lastTick : State := { onClk (fun c => { c with tick := 0xFFFFFFFFFFFF }) ending with pending := [.tickBoundary { rosc := 0, counted := true } 0] }

set_option maxRecDepth 100000 in
/-- What TickNeverDecreases asks of its clauses is met. -/
theorem witness_TickNeverDecreases :
  (Safe lastTick ∧ step lastTick = .next (stepped lastTick) ∧ lastTick.clk.tick = 0xFFFFFFFFFFFF) :=
  ⟨safe_of rfl rfl (by decide +kernel), rfl, by decide +kernel⟩

set_option maxRecDepth 100000 in
/-- What OnlyTheirCommandsChange asks of its clauses is met. -/
theorem witness_OnlyTheirCommandsChange :
  (mayChange .otp .lockstepFault = false ∧ exec .lockstepFault up = .next (after .lockstepFault up)) :=
  ⟨by decide +kernel, rfl⟩

set_option maxRecDepth 100000 in
/-- What RefusedCommandsChangeNothing asks of its clauses is met. -/
theorem witness_RefusedCommandsChangeNothing :
  (Serves 0 up ∧ (ask 0 [(0, 1, 1)]).queue ≠ 2 ∧ waitsForLatch (opOf 0xFFFF) up = false ∧ (match runDesc (opOf 0xFFFF) (ask 0 []) (fetched (opOf 0xFFFF) (ask 0 []) up) with | .done st _ u => st != stOk && u == fetched (opOf 0xFFFF) (ask 0 []) up | .wait _ => false) = true) :=
  ⟨by unfold Serves; decide +kernel, by decide +kernel, by decide +kernel, by decide +kernel⟩

/-- A COMMIT stands at the head of Q0 in LATCH. -/
def commitWaits : State :=
  onQueue 0 (fun z => { z with sqTail := 1 }) (onBar2 (fun m => memPut m (slotOffset 0 0) (descBytes Op.commit.code (ask 0 []))) latching)

set_option maxRecDepth 100000 in
/-- What CommitWaitsForLatchEnd asks of its clauses is met. -/
theorem witness_CommitWaitsForLatchEnd :
  (Serves (ask 0 []).queue latching ∧ latching.clk.phase = .latch) ∧
  (commitWaits.clk.phase = .latch ∧ commitWaits.clk.held = false ∧ commitWaits.cw.inCmd = [] ∧ commitWaits.cw.waitCmd = none ∧ commitWaits.queues[(0 : Fin 4)].en = true ∧ queueIdle 0 commitWaits = true ∧ cqRoom 0 commitWaits = true ∧ headDesc 0 commitWaits = (Op.commit.code, ask 0 []) ∧ commitWaits.queues[(0 : Fin 4)].sqTail = commitWaits.queues[(0 : Fin 4)].sqHead + 1 ∧ (∀ p : Fin 4, p ≠ 0 → commitWaits.queues[p].sqHead = commitWaits.queues[p].sqTail)) :=
  ⟨⟨by unfold Serves; decide +kernel, by decide +kernel⟩,
   ⟨by decide +kernel, by decide +kernel, by decide +kernel, by decide +kernel, by decide +kernel, by decide +kernel, by decide +kernel, by decide +kernel, by decide +kernel, by decide +kernel⟩⟩

/-- Head 0's events are masked; a release of layer 3 with its fence is due, its source masked. -/
def maskedHead : State := onEv (fun v => { v with masks := Vector.replicate 8 0 }) host
def releaseDue : State :=
  onCom (fun c => { c with latchQ := [.release { due := 0, layer := 3, reason := 0, tag := 5, base0 := 0, fence := some (0x40, 9) } false] }) maskedHead
/-- An EVENT_MASK of a group, and one that would clear bit 0 of it. -/
def maskOf (g v : Nat) : Desc := ask 1 [(0, 3, g), (64, 64, v), (128, 64, 1)]

set_option maxRecDepth 100000 in
/-- What MasksStopEvents asks of its clauses is met. -/
theorem witness_MasksStopEvents :
  (masked (srcLayer 3) maskedHead = true) ∧
  (groupOf 400 = 6 ∨ 400 = 448 ∨ 400 = 449) ∧
  (Serves (maskOf 6 0).queue up ∧ Admitted .eventMask (maskOf 6 0) up ∧ (Fin.ofNat 8 (fld (maskOf 6 0).payload 0 3) : Fin 8) = 6 ∧ (0 : Nat) < 64 ∧ (bit (maskOf 6 0).payload (128 + 0) && !bit (maskOf 6 0).payload (64 + 0)) = true) ∧
  (Serves (maskOf 2 0).queue up ∧ Admitted .eventMask (maskOf 2 0) up ∧ (Fin.ofNat 8 (fld (maskOf 2 0).payload 0 3) : Fin 8) = 2) ∧
  (unmaskable 3 = false ∧ groupOf 3 = (0 : Fin 8).val) ∧
  (releaseDue.com.latchQ = .release { due := 0, layer := 3, reason := 0, tag := 5, base0 := 0, fence := some (0x40, 9) } false :: [] ∧ releaseDue.cxl.attached = true ∧ masked (srcLayer 3) releaseDue = true ∧ (∀ w ∈ releaseDue.com.relWrites, w.st ≠ .waiting) ∧ relBusy releaseDue < 8) :=
  ⟨by decide +kernel,
   by decide +kernel,
   ⟨by unfold Serves; decide +kernel, admitted_of (by decide +kernel) (by decide +kernel), by decide +kernel, by decide +kernel, by decide +kernel⟩,
   ⟨by unfold Serves; decide +kernel, admitted_of (by decide +kernel) (by decide +kernel), by decide +kernel⟩,
   ⟨by decide +kernel, by decide +kernel⟩,
   ⟨by decide +kernel, by decide +kernel, by decide +kernel, by decide +kernel, by decide +kernel⟩⟩

/-- An echo packet whose LEN names more words than it carries. -/
def shortPacket : Packet := { packet 0x30 .up 0 false 0 0 [1] with len := 9 }

/-- WellFormed: LEN counts the words that follow (R446). -/
theorem test_ill_packet : Instr.wellFormed (.echo shortPacket) = false := by decide +kernel

/-- WellFormed: the table of the asset has 1088 bytes (R321). -/
theorem test_ill_asset : Instr.wellFormed (.readyPoint { image 1 with asset := { rawAsset 1 with table := [] } }) = false := by decide +kernel

/-- WellFormed: a sample holds one conversion per sensor (R303). -/
theorem test_ill_sample : Instr.wellFormed (.thermalSample [(3, .die 25000), (3, .volts 0)]) = false := by decide +kernel

/-- WellFormed: an END holds one measurement per input (R263). -/
theorem test_ill_end : Instr.wellFormed (.tickEnd [(2, noProof), (2, noProof)]) = false := by decide +kernel

/-- WellFormed: a link out of L0 has no speed and no lanes (R350). -/
theorem test_ill_link : Instr.wellFormed (.cxlLink { linkUp with l0 := false }) = false := by decide +kernel

/-- WellFormed: an assigned opcode is not unassigned (R381). -/
theorem test_ill_opcode : Instr.wellFormed (.unassignedOpcode 0x0401 (ask 0 [])) = false := by decide +kernel

/-- WellFormed: a write carries 1 to 64 bytes. -/
theorem test_ill_write : Instr.wellFormed (.registerWrite false 0 []) = false ∧ Instr.wellFormed (.registerWrite true 0 (List.replicate 65 0)) = false := by decide +kernel

/-- WellFormed: a read has a size. -/
theorem test_ill_read : Instr.wellFormed (.badAccessRead false 0 0) = false := by decide +kernel

/-- WellFormed: a BLANK has at most 64 pulse slots. -/
theorem test_ill_pulse : Instr.wellFormed (.diagnosticPulse 0 64) = false := by decide +kernel

/-- R198's own check value: the ASCII digits 1 to 9 give 0xE306_9283. -/
theorem test_crc32c_check : crc32c [0x31, 0x32, 0x33, 0x34, 0x35, 0x36, 0x37, 0x38, 0x39] = 0xE3069283 := by decide +kernel

/-- The eye-position example of chapter 4: EYE 16 384 between 200 and 224, and between −52 and 92. -/
theorem test_eye_example : eyeBlend 16384 200 224 = 206 ∧ eyeBlend 16384 (-52) 92 = -16 := by decide +kernel

/-- The calibration example of chapter 15: mask 0x55 is chosen. -/
theorem test_darning_example : darn (118741 / 100) 1200 #v[26 / 100, 47 / 100, 86 / 100, 155 / 100, 271 / 100, 506 / 100, 882 / 100, 1640 / 100] = 0x55 := by decide +kernel

/-- The calibration example: from mask 0x53 the first toggle connects element 2, the second removes element 1. -/
theorem test_toggle_example : toggleElement { place := 0, mask := 0x55, parts := #v[26 / 100, 47 / 100, 86 / 100, 155 / 100, 271 / 100, 506 / 100, 882 / 100, 1640 / 100] } 0x53 = some 2 ∧
  toggleElement { place := 0, mask := 0x55, parts := #v[26 / 100, 47 / 100, 86 / 100, 155 / 100, 271 / 100, 506 / 100, 882 / 100, 1640 / 100] } 0x57 = some 1 := by decide +kernel

/-- The example after R434: 9 steps for a repeat of REFERENCE at 6.000 ms, 2 for a repeat of CHANNEL at 3.000 ms. -/
theorem test_step_example : repeatSteps 0 false (stepLimit 8333) = 9 ∧ repeatSteps 1 false (stepLimit 8333) = 1 ∧ repeatSteps 1 false (stepLimit 4000) = 2 := by decide +kernel

/-- The wall example of chapter 16: 24 blocks, the last of 55 296 bytes. -/
theorem test_wall_example : blockCount 1562624 = 24 ∧ blockLength 1562624 23 = 55296 := by decide +kernel

/-- The example of R40 in chapter 12: 16 GT/s x16 with 256-byte flits gives 27.225 GB/s, reported as 2723. -/
theorem test_retrain_example : tenMb (linkLimit { linkUp with speed := 2, width := 16 }) = 2723 := by decide +kernel

/-- The code-assembly example of chapter 6: depth 14 with b0 = 2 turns 819 and 818, dithered, into 1168 and 1164. -/
theorem test_code_example : codeOf 14 2 819 0x123456 = 1168 ∧ codeOf 14 2 818 0x123456 = 1164 := by decide +kernel

end Sys2Proof.Tests
end

/-! # Which row changes which part -/

namespace Sys2Proof.Machine

/-- The row changes no part that `mayChange` denies it. -/
def KeepsOthers (c : Instr) : Prop :=
  ∀ (s t : State) (x : Part), exec c s = .next t → mayChange x c = false → x.same t s

/-- A part that a row is denied is in no list of parts that it may change. -/
theorem not_contains_of_denied {c : Instr} {g : List Part} {x : Part} (hg : g.all (mayChange · c) = true)
    (hx : mayChange x c = false) : g.contains x = false := by
  refine Bool.eq_false_iff.mpr fun hmem => ?_
  have hc : mayChange x c = true := List.all_eq_true.mp hg x (List.contains_iff_mem.mp hmem)
  exact absurd hc (Bool.eq_false_iff.mp hx)

/-- A row whose effect `u` is framed by parts that it may change keeps the others: closing the command (R363) adds the CXL port and
the output alone, which every row may change. -/
theorem keeps_of_only {c : Instr} {f : List Part} {u : State → State} (ho : ∀ s, Only f (u s) s)
    (he : ∀ s, exec c s = .next (settle (u s)) := by exact fun _ => rfl)
    (hf : f.all (mayChange · c) = true := by rfl) : KeepsOthers c := by
  intro s t x h hx
  rw [he] at h
  cases h
  exact same_trans ((settle_only (u s)).same x (not_contains_of_denied rfl hx)) ((ho s).same x (not_contains_of_denied hf hx))

/-- One framed operation after another is framed by the parts of both. -/
theorem only_comp {f g : List Part} {a b : State → State} (h : ∀ s, Only f (a s) s) (k : ∀ s, Only g (b s) s) (s : State) :
    Only (f ++ g) (a (b s)) s := by
  refine ⟨fun x hx => ?_⟩
  have hx' : x ∉ f ∧ x ∉ g := by simpa [not_or] using hx
  exact same_trans ((h (b s)).same x (by simpa using hx'.1)) ((k s).same x (by simpa using hx'.2))

/-- A part of a LATCH is framed by its own parts and those of the LATCH's events. -/
theorem only_inLatch {f : List Part} {a : State → State} (h : ∀ s, Only f (a s) s) (s : State) :
    Only ([.com, .chans, .safety, .cxl, .ev, .out] ++ ([.com] ++ f)) (inLatch a s) s :=
  only_ite _ (only_comp runLatchQ_only (only_comp orderLatch_only h) s) (only_refl _ s)

/-- Every row keeps what `mayChange` denies it, by the frame lemma of its operation, or of its operations in turn. -/
theorem keepsOthers (c : Instr) : KeepsOthers c :=
  match c with
  -- the mailbox
  | .deviceInfo .. | .eventMask .. | .settingsRead .. | .settingsWriteMemoryRegion .. | .settingsWriteCanvas ..
    | .settingsWriteHeadColour .. | .settingsWriteArray .. | .settingsWriteRaster .. | .settingsWritePixelTiming ..
    | .settingsWriteLink .. | .settingsWriteOs .. | .settingsWriteLine .. | .settingsWriteChain .. | .layerSet ..
    | .layerEnable .. | .lutLoad .. | .coeffLoad .. | .blendOrderSet .. | .fenceModeSet .. | .commit .. | .headSet ..
    | .warpLoad .. | .timingSet .. | .planeSeqLoad .. | .dimSet .. | .lightChannelSet .. | .colourTargetSet ..
    | .lampSet .. | .lampFade .. | .powerQuota .. | .thermalSet .. | .safetyWindowSet .. | .telltaleSet ..
    | .safeStateRequest .. | .calRun .. | .calCommit .. | .calStatus .. | .updateOpen .. | .updateBlock ..
    | .updateVerify .. | .updateActivate .. | .updateConfirm .. | .updateAbort .. | .updatePreempt ..
    | .chainEnumerate .. | .chainSend .. | .unassignedOpcode .. => keeps_of_only (submit_only _ _)
  -- the queues, the registers and the CXL port (12, 13)
  | .sqTail .. => keeps_of_only (doorbell_only _ _)
  | .cqHead .. => keeps_of_only (writeCqHead_only _ _)
  | .queueEnable .. => keeps_of_only (queueEnable_only _ _)
  | .eventRingEnable .. => keeps_of_only (writeRingCtl_only _)
  | .evqHead .. => keeps_of_only (writeEvqHead_only _)
  | .hostActive .. => keeps_of_only (writeHostActive_only _)
  | .tickMirrorLowRead => keeps_of_only (readBar0_only _ _)
  | .msixUnmask .. => keeps_of_only (unmask_only _)
  | .registerWrite true .. => keeps_of_only (writeBar2_only _ _)
  | .registerWrite false .. => keeps_of_only (writeBar0_only _ _)
  | .badAccessRead true .. => keeps_of_only (readBar2_only _ _)
  | .badAccessRead false .. => keeps_of_only (readBar0_only _ _)
  | .recordGloballyObserved => keeps_of_only observed_only
  | .recordWriteRetry .. => keeps_of_only (retryWrite_only _)
  | .eventVectorSignal .. => keeps_of_only (coalesced_only _)
  | .cxlLink .. => keeps_of_only (linkChange_only _)
  | .hotReset | .flr => keeps_of_only (detach_only _)
  | .cxlReset => keeps_of_only (only_comp (detach_only _) writeBack_only)
  | .busMasterEnableCleared .. | .d3hotEntry => keeps_of_only (only_comp (detach_only _) (only_onCxl _))
  | .viral => keeps_of_only (only_comp (detach_only _) (cxlError_only _ _ _))
  | .ideIntegrityFailure =>
    keeps_of_only (only_comp (detach_only _) (only_comp (only_onCxl _) (cxlError_only _ _ _)))
  | .perstN => keeps_of_only fun s => only_ite _ (linkDown_only s) (only_refl _ s)
  | .configurationRequest .. => keeps_of_only (configure_only _)
  | .doeDiscovery .. => keeps_of_only (doeDiscover_only _)
  | .getVersion | .getCapabilities .. | .negotiateAlgorithms .. | .getDigests | .challenge .. | .keyExchange ..
    | .finish .. | .heartbeat | .endSession | .getCertificate .. | .getMeasurements .. =>
      keeps_of_only fun s => spdmServe_only _ _ _ _ _ s
  | .keyUpdate .. =>
    keeps_of_only (only_comp (spdmServe_only _ _ _ _ _) fun s => only_ite _ (only_onCxl _ s) (only_refl _ s))
  | .ideKm .. | .cxlKp .. => keeps_of_only (programKey_only _ _)
  | .aerErrorLog .. => keeps_of_only (cxlError_only _ _ _)
  -- the tick, fences and commits (01, 03, 05)
  | .tickBoundary .. => keeps_of_only (tickBoundary_only _ _)
  | .latchEnd .. => keeps_of_only (latchEnds_only _)
  | .commitCutoff => keeps_of_only commitCutoff_only
  | .tickEnd .. => keeps_of_only (tickEnd_only _)
  | .buildComplete => keeps_of_only noteBuilt_only
  | .transitionEnd => keeps_of_only (only_inLatch endTransition_only)
  | .layerDropped .. => keeps_of_only (only_inLatch (only_comp fireReleases_only (dropIfDue_only _)))
  | .commitAbandoned =>
    keeps_of_only fun s => only_ite _ (only_comp judge_only (only_comp runLatchQ_only (only_comp orderLatch_only
      (only_comp fireReleases_only abandonDue_only))) s) (only_refl _ s)
  | .lampFadesDone .. => keeps_of_only (only_inLatch (tellFades_only _))
  | .calApplied => keeps_of_only (only_inLatch endApplications_only)
  | .snpInv .. => keeps_of_only (snoopInv_only _)
  | .snpData .. | .snpCur .. => keeps_of_only (snoopRead_only _)
  | .fenceReadComplete .. => keeps_of_only (fenceArrives_only _ _)
  | .releaseFenceWriteComplete .. => keeps_of_only (releaseWritten_only _ _)
  -- the picture, the show and the light (02, 06, 09)
  | .canvasBandWritten => keeps_of_only bandWritten_only
  | .warpStripeDone .. => keeps_of_only (stripeDone_only _)
  | .surfaceReadError .. => keeps_of_only (surfaceFails_only _ _ _ _)
  | .canvasAccessError .. => keeps_of_only (canvasFails_only _ _ _ _)
  | .planeStoreReadError .. => keeps_of_only (planeReadFails_only _ _ _ _)
  | .diagnosticPulse .. => keeps_of_only (diagPulse_only _ _)
  | .driftCheck .. => keeps_of_only (driftCheckSlot_only _ _ _)
  | .showStart .. => keeps_of_only (startShow_only _)
  | .planeEntryStart .. => keeps_of_only (startEntry_only _ _)
  | .shuntGateOpen .. => keeps_of_only (gateOpens_only _)
  | .shuntGateClose .. => keeps_of_only (gateCloses_only _)
  | .showSpanEnd .. => keeps_of_only (endShow_only _ _ _)
  | .channelJudge .. => keeps_of_only (judgeChan_only _ _)
  | .overCurrent .. => keeps_of_only (overCurrentFault_only _ _)
  | .chFaultRestart .. => keeps_of_only (restartChan_only _)
  | .gateFault .. => keeps_of_only (gateFaultChan_only _)
  | .energyTrip .. => keeps_of_only (energyTrips_only _ _ _)
  -- the plane link and the raster heads (07, 08)
  | .planeBlockSend .. => keeps_of_only (blockSend_only _ _ _)
  | .ack .. => keeps_of_only (acked_only _ _)
  | .refuse .. => keeps_of_only (refusal_only _ _)
  | .status .. => keeps_of_only (statusWord_only _ _)
  | .resetDone .. => keeps_of_only (resetDoneWord_only _ _)
  | .backchannelEcho .. => keeps_of_only (echoWord_only _ _ _)
  | .backchannelTrain .. => keeps_of_only (trainWord_only _ _)
  | .answerTimeout .. => keeps_of_only (unanswered_only _ _ _)
  | .planeDeadline .. => keeps_of_only (deadline_only _ _)
  | .linkReadbackFail .. => keeps_of_only (readback_only _ _ _)
  | .backchannelSilent .. | .lockLost .. => keeps_of_only (groupFails_only _ _ _)
  | .arrayTiming .. => keeps_of_only (arrayLate_only _ _ _)
  | .trainingStepTimeout .. => keeps_of_only (stepTimeout_only _)
  | .linkRetrainRetry .. => keeps_of_only (retrainRetry_only _)
  | .rasterSweepEnd .. => keeps_of_only (sweepEnd_only _ _)
  | .rasterLock .. => keeps_of_only (locks_only _ _)
  | .rasterAcquireTimeout .. => keeps_of_only (acquireFails_only _)
  | .rasterAcquireRetry .. => keeps_of_only (acquireAgain_only _)
  | .rasterLockLost .. => keeps_of_only (lockLoss_only _)
  | .rasterGuardTrip .. => keeps_of_only (guardTrips_only _ _)
  | .rasterLineStart .. => keeps_of_only (lineStart_only _ _ _ _)
  | .linePacketSend .. => keeps_of_only (packetSend_only _ _ _ _)
  -- thermal management and safety (10, 11)
  | .lockstepFault | .watchdogExpiry => keeps_of_only (pairFault_only _)
  | .clockFault | .voltageFault => keeps_of_only (monitorFault_only _ _)
  | .eccError .. => keeps_of_only (eccFound_only _ _ _ _ _ _)
  | .q2Timeout => keeps_of_only q2Expires_only
  | .safePathReloadDone .. => keeps_of_only (reloadDone_only _ _)
  | .monitorFaultClear true | .monitorFaultClear false => keeps_of_only (monitorClears_only _)
  | .thermalSample .. => keeps_of_only (sampleAll_only _)
  | .throttleStepDue .. => keeps_of_only (stepIsDue_only _ _)
  | .substituteHoldEnd .. => keeps_of_only (holdEnds_only _)
  | .throttleFreezeLift => keeps_of_only freezeLifts_only
  | .thermalSensorOk .. => keeps_of_only (sensorReturns_only _)
  | .thermalTripClear .. => keeps_of_only (tripReleases_only _)
  -- reset, boot, power and JTAG (14, 15)
  | .powerOnReset => keeps_of_only powerReset_only
  | .pinReset => keeps_of_only pinReset_only
  | .warmReset => keeps_of_only warmReset_only
  | .resetRelease .. => keeps_of_only (release_only _ _)
  | .bootStart => keeps_of_only bootStart_only
  | .bootFault .. => keeps_of_only (bootFault_only _)
  | .pllLockTimeout => keeps_of_only pllTimeout_only
  | .readyPoint .. => keeps_of_only (readyPoint_only _)
  | .firstLightTimeout => keeps_of_only firstLightTimeout_only
  | .trialTimeout => keeps_of_only trialTimeout_only
  | .coreHeartbeatTimeout .. => keeps_of_only (coreDown_only _ _)
  | .coreRestart .. => keeps_of_only (coreUp_only _)
  | .timingMarginTrip => keeps_of_only marginTrip_only
  | .pmicWriteDone .. => keeps_of_only (presetWritten_only _)
  | .flashSliceDone .. => keeps_of_only (sliceDone_only _ _)
  | .otpSeriesDone .. => keeps_of_only (seriesDone_only _)
  | .idcode => keeps_of_only runIdcode_only
  | .bypass .. => keeps_of_only (runBypass_only _)
  | .samplePreload .. => keeps_of_only (runSample_only _)
  | .extest .. => keeps_of_only (runExtest_only _)
  | .otpProgrammingInstruction .. => keeps_of_only (runOtpInstr_only _)
  -- the Causeway (16)
  | .echo .. => keeps_of_only (echoed_only _)
  | .echoReply .. => keeps_of_only (echoAnswered_only _ _)
  | .boundary .. => keeps_of_only (boundaryHeard_only _)
  | .mode .. => keeps_of_only (modeHeard_only _)
  | .vote .. => keeps_of_only (voteHeard_only _)
  | .cap .. => keeps_of_only (capHeard_only _)
  | .enum .. => keeps_of_only (enumOffered_only _)
  | .enumReport .. => keeps_of_only (reported_only _)
  | .enumEnd .. => keeps_of_only (enumEnded_only _)
  | .enumCut .. => keeps_of_only (enumCutOff_only _)
  | .enumReq .. => keeps_of_only (enumAsked_only _)
  | .enumTimeout => keeps_of_only enumTimeout_only
  | .chainBoundaryMiss => keeps_of_only boundaryMissed_only
  | .blockStart .. => keeps_of_only (blockStarts_only _)
  | .segment .. => keeps_of_only (segmentHeard_only _)
  | .blockAck .. => keeps_of_only (blockAcked_only _)
  | .blockIncompleteTimeout => keeps_of_only blockLate_only
  | .updCtrlOpen .. => keeps_of_only (ctrlOpen_only _)
  | .updCtrlVerify .. => keeps_of_only (ctrlVerify_only _)
  | .updCtrlActivate .. => keeps_of_only (ctrlActivate_only _)
  | .updCtrlAbort .. => keeps_of_only (ctrlAbort_only _)
  | .updCtrlDisarm .. => keeps_of_only (ctrlDisarm_only _)
  | .updResp .. => keeps_of_only (respAnswered_only _)
  | .cmd .. => keeps_of_only (cmdHeard_only _)
  | .cmdData .. => keeps_of_only (dataHeard_only _)
  | .cmdResp .. => keeps_of_only (respHeard_only _)
  | .cmdRespTimeout => keeps_of_only respTimeout_only
  | .evt .. => keeps_of_only (eventHeard_only _)
  | .evtAck .. => keeps_of_only (eventAcked_only _)
  | .evtAckTimeout => keeps_of_only eventTimeout_only
  | .cwPortSilent .. | .cwLockLost .. => keeps_of_only (portLost_only _ _)
  | .cwDelayRemeasure .. => keeps_of_only (remeasure_only _)
  | .cwTrainingRetry .. => keeps_of_only (portRetry_only _)

/-- Settles O55: the rows keep the parts that they do not own (`keepsOthers`). -/
theorem onlyTheirCommandsChange : Obligations.OnlyTheirCommandsChange := by
  unfold Obligations.OnlyTheirCommandsChange
  exact keepsOthers

end Sys2Proof.Machine

/-! # The layer commands (02) -/

namespace Sys2Proof.Machine

/-- A command that answers at once and stages settings, or writes them, and no more: it leaves the queues, the clock and the
Causeway as fetching left them, so `mailbox_done` tells what it completes with. -/
theorem does_of_staged {i : Instr} {op : Op} {d : Desc} {s u : State} {st : BitVec 16} {r : Nat} (hs : Serves d.queue s)
    (ha : Admitted op d s) (hi : exec i s = mailbox op d s) (hr : runOp op d (fetched op d s) = .done st r u)
    (ho : Only [.cfg, .pendLv, .openSet] u (fetched op d s)) : Does i op d s u st r := by
  have hclk : u.clk = s.clk := (ho.same .clk rfl).trans (fetched_clk op d s)
  have hcw : u.cw = (fetched op d s).cw := ho.same .cw rfl
  obtain ⟨t, ht, hagree, htold⟩ := mailbox_done hs ha hr (ho.same .queues rfl) (hcw ▸ fetched_inCmd hs) (hclk ▸ ⟨rfl, rfl⟩)
  exact ⟨t, hi.trans ht, hagree, htold⟩

/-- BLEND_ORDER_SET with every layer in one slot (R76). -/
theorem runOp_blendOrderSet_ordered {d : Desc} (s : State) (h : orderOk (slotsOf d.payload) = true) :
    runOp .blendOrderSet d s = .done stOk 0 (addSh [.blend (bit d.payload 0) (slotsOf d.payload)] s) := by
  simp only [runOp, runBlendOrderSet, need_true h, refuseOr_none]

/-- FENCE_MODE_SET with both its counts in range (R100). -/
theorem runOp_fenceModeSet_inRange {d : Desc} (s : State) (hhold : fld d.payload 8 4 ≠ 0) (habandon : fld d.payload 12 4 ≠ 0) :
    runOp .fenceModeSet d s = .done stOk 0 (addLv [.fence (fenceOf d.payload)] s) := by
  have hranges : ranges [(8, decide ((fenceOf d.payload).hold ≠ 0)), (12, decide ((fenceOf d.payload).abandon ≠ 0))] = none :=
    ranges_none (by simp [fenceOf, hhold, habandon])
  simp only [runOp, runFenceModeSet, hranges, refuseOr_none]

/-- SETTINGS_WRITE of the memory-region record, past the reserved bits (R385). -/
theorem runSettingsWrite_memory {d : Desc} {s : State} (hn : fld d.payload 0 8 = 0x01)
    (hres : reservedBits (recordFields 0x01) (recordOf d).toNat 256 3 = none) :
    runSettingsWrite d s = refDone (writeMemory (recordOf d) s).1 (writeMemory (recordOf d) s).2 s := by
  unfold recordOf at hres ⊢
  simp only [runSettingsWrite, hn, hres]
  rfl

/-- SETTINGS_WRITE of the canvas record, past the reserved bits (R385). -/
theorem runSettingsWrite_canvas {d : Desc} {s : State} (hn : fld d.payload 0 8 = 0x02)
    (hres : reservedBits (recordFields 0x02) (recordOf d).toNat 256 3 = none) :
    runSettingsWrite d s = refDone (writeCanvas (recordOf d) s).1 (writeCanvas (recordOf d) s).2 s := by
  unfold recordOf at hres ⊢
  simp only [runSettingsWrite, hn, hres]
  rfl

/-- A record write whose checks pass does what the record's effect says. -/
theorem does_of_record {i : Instr} {n : Nat} {d : Desc} {s : State} {x : Ref × State} (hs : Serves d.queue s)
    (ha : RecordAdmitted n d s) (hi : exec i s = mailbox .settingsWrite (withRecord n d) s)
    (hrun : runSettingsWrite (withRecord n d) (fetched .settingsWrite (withRecord n d) s) =
      refDone x.1 x.2 (fetched .settingsWrite (withRecord n d) s)) (hok : x.1 = none)
    (ho : Only [.cfg, .pendLv, .openSet] x.2 (fetched .settingsWrite (withRecord n d) s)) :
    Does i .settingsWrite (withRecord n d) s x.2 stOk 0 :=
  does_of_staged hs ha.1 hi (hrun.trans (refuseOr_none hok _ _)) ho

/-- Settles O1: each command passes its checks, answers at once and stages its writes. -/
theorem layerCommandsTakeEffect : Obligations.LayerCommandsTakeEffect := by
  unfold Obligations.LayerCommandsTakeEffect
  refine ⟨fun d s hs => ⟨fun ha hok => ?_, fun ha hok => ?_, fun ha hok => ?_, fun ha hok => ?_, fun ha hok => ?_,
    fun ha hhold habandon => ?_⟩, fun d s hs => ⟨?_, ?_⟩⟩
  · exact does_of_staged hs ha rfl (refuseOr_none hok _ _) (only_mono (layerSetNext_only d.payload _) rfl)
  · exact does_of_staged hs ha rfl (refuseOr_none hok _ _) (only_mono (layerEnableNext_only d.payload _) rfl)
  · exact does_of_staged hs ha rfl (refuseOr_none hok _ _) (only_mono (only_addLoad ..) rfl)
  · exact does_of_staged hs ha rfl (refuseOr_none hok _ _) (only_mono (only_addLoad ..) rfl)
  · exact does_of_staged hs ha rfl (runOp_blendOrderSet_ordered _ hok) (only_mono (only_addSh ..) rfl)
  · exact does_of_staged hs ha rfl (runOp_fenceModeSet_inRange _ hhold habandon) (only_mono (only_addLv ..) rfl)
  · intro e s1 ha hok
    exact does_of_record hs ha rfl (runSettingsWrite_memory (withRecord_number 0x01 d (by decide)) ha.2) hok
      (only_mono (writeMemory_only ..) rfl)
  · intro e s1 ha hok
    exact does_of_record hs ha rfl (runSettingsWrite_canvas (withRecord_number 0x02 d (by decide)) ha.2) hok
      (only_mono (writeCanvas_only ..) rfl)

end Sys2Proof.Machine

/-! # Errors of the picture path (02) -/

namespace Sys2Proof.Machine

/-! ## The error counts (R367): only an error moves them -/

theorem settle_errs (s : State) : (settle s).cxl.errs = s.cxl.errs := by rw [settle_cxl]

theorem signal_errs (v : Fin 64) (s : State) : (signal v s).cxl.errs = s.cxl.errs := by
  unfold signal
  split <;> rfl

theorem issueOne_errs {s t : State} (h : issueOne s = some t) : t.cxl.errs = s.cxl.errs := by
  unfold issueOne at h
  dsimp only at h
  split at h
  · split at h
    · split at h
      · cases h
      · cases h; rfl
    · cases h
  · cases h

theorem pumpHost_errs (k : Nat) (s : State) : (pumpHost k s).cxl.errs = s.cxl.errs := by
  induction k generalizing s with
  | zero => rfl
  | succ k ih =>
    cases h : issueOne s with
    | none => simp only [pumpHost, h]
    | some t => simp only [pumpHost, h, ih t, issueOne_errs h]

theorem record_errs (src : Nat) (code : BitVec 16) (p : Nat) (s : State) : (record src code p s).cxl.errs = s.cxl.errs := by
  unfold record
  dsimp only
  rw [(pumpChain_only 1 _).same .cxl rfl, pumpHost_errs, onEv_cxl]

/-- An event logs no error. -/
theorem raise_errs (src : Nat) (code : BitVec 16) (p : Nat) (s : State) : (raise src code p s).cxl.errs = s.cxl.errs := by
  unfold raise
  extract_lets s0
  have h0 : s0.cxl.errs = s.cxl.errs := by
    unfold s0
    split
    · exact signal_errs ..
    · rfl
  have hfull : (storeFull s0).cxl = s0.cxl := (storeFull_only s0).same .cxl rfl
  repeat' split
  all_goals simp only [h0, hfull, record_errs, onEv_cxl]

/-- A logged error is counted under its KIND (R367). -/
theorem cxlError_errs (kind : Fin 7) (traffic a : Nat) (s : State) :
    (cxlError kind traffic a s).cxl.errs[kind].1 = s.cxl.errs[kind].1 + 1 := by
  unfold cxlError
  simp only [onCxl_cxl, Fin.getElem_fin, Vector.getElem_set_self]
  split <;> simp_all

/-- An event is no error of the picture: it leaves the compositor and the heads alone. -/
theorem raise_comp (src : Nat) (code : BitVec 16) (p : Nat) (s : State) : (raise src code p s).comp = s.comp :=
  (raise_only ..).same .comp rfl
theorem raise_heads (src : Nat) (code : BitVec 16) (p : Nat) (s : State) : (raise src code p s).heads = s.heads :=
  (raise_only ..).same .heads rfl

/-! ## A failed surface read (R81) -/

/-- A read that affects a line of a layer that counts takes the layer from that line on, or from an earlier one already taken. -/
theorem surfaceFails_spec {k : Layer} {plane : Bool} {e : BusError} {a line : Nat} {s : State} (hcomp : composes s = true)
    (hcount : layerCounts s.cfg k = true) (hline : (failedRows s k plane a).bind (firstLine s k) = some line) :
    (surfaceFails k plane e a s).comp.errLine[k] = some (min line (s.comp.errLine[k].getD line)) ∧
    (surfaceFails k plane e a s).cxl.errs = (cxlError (errorKind e) 0 a s).cxl.errs ∧
    (s.comp.errLine[k].isSome = true → (surfaceFails k plane e a s).ev = s.ev) := by
  have hcxl := cxlError_only (errorKind e) 0 a s
  have hlines : (cxlError (errorKind e) 0 a s).comp = s.comp := hcxl.same .comp rfl
  cases hold : s.comp.errLine[k] with
  | some l =>
    have hev : (cxlError (errorKind e) 0 a s).ev = s.ev := hcxl.same .ev rfl
    simp [surfaceFails, hcomp, hcount, hline, hlines, hold, hev, Nat.min_comm]
  | none =>
    simp [surfaceFails, hcomp, hcount, hline, hlines, hold, raise_comp, raise_errs]

/-- A read of a layer that does not count is logged and no more. -/
theorem surfaceFails_idle {k : Layer} {plane : Bool} {e : BusError} {a : Nat} {s : State}
    (h : composes s = false ∨ layerCounts s.cfg k = false) : surfaceFails k plane e a s = cxlError (errorKind e) 0 a s := by
  rcases h with h | h <;> simp [surfaceFails, h]

/-! ## Cut builds (R183, R367) -/

/-- What a cut leaves of a head: a build that runs is over and cut, any other as it was. -/
def cutHead (d : HeadDyn) : HeadDyn := if d.building && !d.done then { d with building := false, cut := true } else d

theorem cutHead_running {d : HeadDyn} (h : (d.building && !d.done) = true) :
    cutHead d = { d with building := false, cut := true } := if_pos h

theorem cutHead_idle {d : HeadDyn} (h : ¬(d.building && !d.done) = true) : cutHead d = d := if_neg h

/-- No build runs after a cut. -/
theorem cutHead_stops (d : HeadDyn) : ((cutHead d).building && !(cutHead d).done) = false := by
  by_cases h : (d.building && !d.done) = true
  · rw [cutHead_running h]; rfl
  · rw [cutHead_idle h]; exact Bool.eq_false_iff.mpr h

theorem cutHead_cutHead (d : HeadDyn) : cutHead (cutHead d) = cutHead d :=
  cutHead_idle (Bool.eq_false_iff.mp (cutHead_stops d))

/-- The rows that a cut leaves in the plane store touch no head. -/
theorem cutRows_heads (h : Head) (y0 y1 : Nat) (s : State) :
    (if (entriesDone h s).1 = 0 then (entriesDone h s).2
      else pressRows h y0 y1 (entriesDone h s).1 (entriesDone h s).2).heads = s.heads := by
  have hdone : (entriesDone h s).2.heads = s.heads := (entriesDone_only h s).same .heads rfl
  split
  · exact hdone
  · exact ((pressRows_only ..).same .heads rfl).trans hdone

/-- A cut acts on its own head alone. -/
theorem cutBuild_heads (h k : Head) (s : State) :
    (cutBuild h s).heads[k] = if k = h then cutHead s.heads[k] else s.heads[k] := by
  by_cases hp : pressing s h = true
  · have hheads : (cutBuild h s).heads = upd s.heads h (fun d => { d with building := false, cut := true }) := by
      simp only [cutBuild, hp, if_true, raise_heads, onHead_heads, cutRows_heads]
    by_cases hk : k = h
    · subst hk
      simp only [hheads, upd_get_self, if_true, cutHead_running hp]
    · simp only [hheads, upd_get_ne _ _ hk, if_neg hk]
  · have hsame : cutBuild h s = s := if_neg hp
    by_cases hk : k = h
    · subst hk
      simp only [hsame, if_true, cutHead_idle hp]
    · simp only [hsame, if_neg hk]

theorem cutBuild_errs (h : Head) (s : State) : (cutBuild h s).cxl.errs = s.cxl.errs := by
  unfold cutBuild
  split
  · dsimp only
    have hdone : (entriesDone h s).2.cxl = s.cxl := (entriesDone_only h s).same .cxl rfl
    rw [raise_errs, onHead_cxl]
    split
    · rw [hdone]
    · rw [(pressRows_only ..).same .cxl rfl, hdone]
  · rfl

/-- The cut of every build that an error names. -/
def cutNamed (m : BitVec 4) (h : Head) (s : State) : State := if m.getLsbD h.val then cutBuild h s else s

theorem cutNamed_heads (m : BitVec 4) (l : List Head) (k : Head) (s : State) :
    (forEach l (cutNamed m) s).heads[k] = if k ∈ l ∧ m.getLsbD k.val = true then cutHead s.heads[k] else s.heads[k] := by
  induction l generalizing s with
  | nil => simp [forEach]
  | cons h l ih =>
    have hstep : (cutNamed m h s).heads[k] = if k = h ∧ m.getLsbD k.val = true then cutHead s.heads[k] else s.heads[k] := by
      unfold cutNamed
      split
      · rw [cutBuild_heads]; grind
      · grind
    have hcons : forEach (h :: l) (cutNamed m) s = forEach l (cutNamed m) (cutNamed m h s) := rfl
    rw [hcons, ih, hstep]
    by_cases hm : m.getLsbD k.val = true
    · by_cases hk : k = h
      · subst hk
        simp only [hm, and_true, List.mem_cons, true_or, if_true, cutHead_cutHead, ite_self]
      · simp only [hk, false_and, if_false, List.mem_cons, false_or]
    · simp only [hm, and_false, Bool.false_eq_true, if_false]

theorem cutNamed_errs (m : BitVec 4) (l : List Head) (s : State) : (forEach l (cutNamed m) s).cxl.errs = s.cxl.errs := by
  induction l generalizing s with
  | nil => rfl
  | cons h l ih =>
    have hstep : (cutNamed m h s).cxl.errs = s.cxl.errs := by
      unfold cutNamed
      split
      · exact cutBuild_errs h s
      · rfl
    exact (ih (cutNamed m h s)).trans hstep

/-- An error of a canvas access cuts the builds that it names and no other. -/
theorem canvasFails_heads (m : BitVec 4) (tr : Traffic) (e : BusError) (a : Nat) (k : Head) (s : State) :
    (canvasFails m tr e a s).heads[k] = if m.getLsbD k.val = true then cutHead s.heads[k] else s.heads[k] := by
  have hall : k ∈ allHeads := by revert k; decide
  have hcuts := cutNamed_heads m allHeads k (cxlError (errorKind e) tr.val a s)
  have hlog : (cxlError (errorKind e) tr.val a s).heads = s.heads := (cxlError_only ..).same .heads rfl
  rw [hlog] at hcuts
  have hbuilt : (canvasFails m tr e a s).heads = (forEach allHeads (cutNamed m) (cxlError (errorKind e) tr.val a s)).heads :=
    (noteBuilt_only _).same .heads rfl
  rw [hbuilt, hcuts]
  simp [hall]

theorem canvasFails_errs (m : BitVec 4) (tr : Traffic) (e : BusError) (a : Nat) (s : State) :
    (canvasFails m tr e a s).cxl.errs = (cxlError (errorKind e) tr.val a s).cxl.errs := by
  have hbuilt : (canvasFails m tr e a s).cxl = (forEach allHeads (cutNamed m) (cxlError (errorKind e) tr.val a s)).cxl :=
    (noteBuilt_only _).same .cxl rfl
  rw [hbuilt, cutNamed_errs]

/-! ## Dark planes (R151, R367) -/

theorem darkPlane_errs (h : Head) (s : State) : (darkPlane h s).cxl.errs = s.cxl.errs := by
  unfold darkPlane
  dsimp only
  split
  · rfl
  · rw [raise_errs]; rfl

/-- A dark plane is counted for its head. -/
theorem darkPlane_counts (h : Head) (s : State) : (darkPlane h s).heads[h].darkPlanes = s.heads[h].darkPlanes + 1 := by
  unfold darkPlane
  dsimp only
  split <;> simp only [raise_heads, onHead_heads, upd_get_self]

theorem noteDark_errs (h : Head) (plane : Nat) (s : State) : (noteDark h plane s).cxl.errs = s.cxl.errs := by
  unfold noteDark
  dsimp only
  repeat' split
  · rfl
  · rfl
  · rw [darkPlane_errs]; rfl

/-- A plane of an array head that was not yet dark is counted and listed. -/
theorem noteDark_new {h : Head} {plane : Nat} {s : State} (harr : s.cfg.heads[h].raster = false)
    (hnew : s.links[h].dark.contains plane = false) :
    (noteDark h plane s).heads[h].darkPlanes = s.heads[h].darkPlanes + 1 ∧
    (noteDark h plane s).links[h].dark = plane :: s.links[h].dark := by
  have hnote : noteDark h plane s = darkPlane h (onLink h (fun l => { l with dark := plane :: l.dark }) s) := by
    simp only [noteDark, harr, hnew, Bool.false_and, Bool.false_eq_true, if_false]
  have hlinks (x : State) : (darkPlane h x).links = x.links := (darkPlane_only h x).same .links rfl
  simp only [hnote, darkPlane_counts, hlinks, onLink_heads, onLink_links, upd_get_self, and_self]

theorem planeReadFails_errs (h : Head) (plane : Nat) (e : BusError) (a : Nat) (s : State) :
    (planeReadFails h plane e a s).cxl.errs = (cxlError (errorKind e) 4 a s).cxl.errs := by
  unfold planeReadFails
  dsimp only
  split
  · exact noteDark_errs ..
  · rfl

/-- The plane of an array head that shows host content goes out dark. -/
theorem planeReadFails_dark {h : Head} {plane : Nat} {e : BusError} {a : Nat} {s : State}
    (hshow : s.heads[h].mode = .host ∨ s.heads[h].mode = .subst) (harr : s.cfg.heads[h].raster = false)
    (hnew : s.links[h].dark.contains plane = false) :
    (planeReadFails h plane e a s).heads[h].darkPlanes = s.heads[h].darkPlanes + 1 ∧
    (planeReadFails h plane e a s).links[h].dark = plane :: s.links[h].dark := by
  have hlog := cxlError_only (errorKind e) 4 a s
  have hheads : (cxlError (errorKind e) 4 a s).heads = s.heads := hlog.same .heads rfl
  have hlinks : (cxlError (errorKind e) 4 a s).links = s.links := hlog.same .links rfl
  have hcfg : (cxlError (errorKind e) 4 a s).cfg = s.cfg := hlog.same .cfg rfl
  have hmode : (s.heads[h].mode == .host || s.heads[h].mode == .subst) = true := by simpa using hshow
  have hdark := noteDark_new (h := h) (plane := plane) (s := cxlError (errorKind e) 4 a s)
    (by rw [hcfg, harr]) (by rw [hlinks, hnew])
  rw [hheads, hlinks] at hdark
  unfold planeReadFails
  rw [if_pos hmode]
  exact hdark

/-- Settles O22: the row of each error, by what its operation does to the layer, the builds or the plane. -/
theorem pictureErrorsAct : Obligations.PictureErrorsAct := by
  unfold Obligations.PictureErrorsAct
  intro e a s
  refine ⟨fun k plane line hcomp hcount hline => ?_, fun k plane hidle => ?_, fun m tr => ?_, fun h plane => ?_⟩
  · obtain ⟨htaken, herrs, hev⟩ := surfaceFails_spec (e := e) hcomp hcount hline
    refine ends_of rfl (only_mono (surfaceFails_only k plane e a.toNat s) rfl) rfl ⟨?_, ?_, ?_⟩
    · rw [settle_comp, htaken]
    · rw [settle_errs, herrs, cxlError_errs]
    · rw [settle_ev]; exact hev
  · refine ends_of (u := cxlError (errorKind e) 0 a.toNat s) ?_ (only_mono (cxlError_only ..) rfl) rfl ?_
    · rw [← surfaceFails_idle hidle]; rfl
    · rw [settle_errs, cxlError_errs]
  · refine ends_of rfl (canvasFails_only m tr e a.toNat s) rfl ⟨fun k hk => ?_, fun k hk hp => ?_, fun k hk => ?_, ?_⟩
    · rw [pressing, settle_heads, canvasFails_heads, if_pos hk, cutHead_stops]
    · rw [settle_heads, canvasFails_heads, if_pos hk, cutHead_running hp]
    · rw [pressing, settle_heads, canvasFails_heads, if_neg (Bool.eq_false_iff.mp hk)]; rfl
    · rw [settle_errs, canvasFails_errs, cxlError_errs]
  · refine ends_of rfl (planeReadFails_only h plane e a.toNat s) rfl ⟨?_, fun hshow harr hnew => ?_⟩
    · rw [settle_errs, planeReadFails_errs, cxlError_errs]
    · rw [settle_heads, settle_links]
      exact planeReadFails_dark hshow harr hnew

end Sys2Proof.Machine

/-! # A COMMIT behind a LATCH that waits for a release fence (03) -/

namespace Sys2Proof.Machine

/-- A LATCH that still has an event to record does not end (log entry 11). -/
theorem latchEnds_of_waiting (m : LatchEnd) {s : State} (h : s.com.latchQ ≠ []) : latchEnds m s = s := by
  have hwaits : (!s.com.latchQ.isEmpty) = true := by simpa using h
  simp only [latchEnds, hwaits, Bool.or_true, if_true]

/-- LATCH_END is then a row without effect: the phase stays. -/
theorem latchEnd_keeps_phase_of_waiting {m : LatchEnd} {s t : State} (h : s.com.latchQ ≠ [])
    (ht : exec (.latchEnd m) s = .next t) : t.clk.phase = s.clk.phase := by
  have hexec : exec (.latchEnd m) s = .next (settle s) := by
    rw [← congrArg settle (latchEnds_of_waiting m h)]
    rfl
  obtain rfl : settle s = t := Host.Outcome.next.inj (hexec.symm.trans ht)
  rw [settle_clk]

/-- The descriptor in a ring's slot, where its 64 bytes have been put into BAR2. -/
theorem headDesc_of_put {s : State} {m : List Host.Cell} {slot : BitVec 8} {op : BitVec 16} {d : Desc} (hm : Memory.wf m = true)
    (hslot : s.queues[d.queue].sqHead = slot) (hbar : s.bar2 = memPut m (slotOffset d.queue slot) (descBytes op d)) :
    headDesc d.queue s = (op, d) := by
  have hbytes := memRead_memPut (descBytes op d) (slotOffset d.queue slot) hm
  rw [descBytes_length] at hbytes
  rw [headDesc, hslot, hbar, hbytes, descOf_descBytes]

/-- A COMMIT of Q0 with every payload field 0. -/
def plainCommit : Desc :=
  { queue := 0, alive := 0, rsv24 := 0, crc16 := 0, rsv48 := 0, tag := 7, rsv96 := 0, payload := 0 }

/-- The release of a buffer of layer 3, told once its fence, 9 at 0x40, is written. -/
def fencedRelease : Release := { due := 0, layer := 3, reason := 0, tag := 5, base0 := 0, fence := some (0x40, 9) }

/-- The device runs, attached, in a LATCH whose first event waits for the release fence that has been issued. -/
def fenceInFlight : State :=
  onCom (fun c => { c with
      relWrites := [{ addr := 0x40, value := 9, tag := 5, st := .issued, event := none }]
      latchQ := [.release fencedRelease true] })
    (onCxl (fun c => { c with attached := true })
      (onBoot (fun b => { b with stage := .running }) (onClk (fun c => { c with held := false }) State.reset)))

/-- The COMMIT stands alone at the head of Q0 meanwhile. -/
def commitBehindFence : State :=
  onQueue 0 (fun x => { x with en := true, sqTail := 1 })
    (onBar2 (fun m => memPut m (slotOffset 0 0) (descBytes Op.commit.code plainCommit)) fenceInFlight)

/-- The COMMIT is what Q0 fetches next. -/
theorem headDesc_commitBehindFence : headDesc 0 commitBehindFence = (Op.commit.code, plainCommit) := by
  have hbar : commitBehindFence.bar2 =
      memPut fenceInFlight.bar2 (slotOffset plainCommit.queue 0) (descBytes Op.commit.code plainCommit) := by
    rw [commitBehindFence, onQueue_bar2, onBar2_bar2, plainCommit]
  exact headDesc_of_put (d := plainCommit) (m := fenceInFlight.bar2) rfl rfl hbar

/-- A LATCH_END without a calibration item. -/
def bareLatchEnd : LatchEnd :=
  { cal := { trims := [], phi := #v[0, 0, 0], slope := none }, inputs := State.reset.cal.inputs }

/-- Refutes O58: in `commitBehindFence` nothing waits but the COMMIT and the fence of a release; LATCH_END does not end that LATCH
(log entry 11), so the phase stays LATCH. The second clause lacks the premise that the LATCH's events are recorded. -/
theorem not_commitWaitsForLatchEnd : ¬ Obligations.CommitWaitsForLatchEnd := by
  unfold Obligations.CommitWaitsForLatchEnd
  rintro ⟨-, hends⟩
  have hlatch : commitBehindFence.clk.phase = .latch := rfl
  have hothers : ∀ p : Fin 4, p ≠ 0 → commitBehindFence.queues[p].sqHead = commitBehindFence.queues[p].sqTail := by decide
  obtain ⟨t, c, ht, hphase, -⟩ := hends bareLatchEnd 0 plainCommit commitBehindFence hlatch rfl rfl rfl rfl rfl rfl
    headDesc_commitBehindFence rfl hothers
  have hwaiting : commitBehindFence.com.latchQ ≠ [] := List.cons_ne_nil _ _
  exact hphase ((latchEnd_keeps_phase_of_waiting hwaiting ht).trans hlatch)

end Sys2Proof.Machine

/-! # The head commands (04 to 06) -/

namespace Sys2Proof.Machine

/-- TIMING_SET that selects a group comes down to its checks (R155). -/
theorem runOp_timingSet_selects {d : Desc} (s : State) (h : (bit d.payload 0 || bit d.payload 1 || bit d.payload 2) = true) :
    runOp .timingSet d s = refuseOr (timingSetRef d.payload s) (.done stOk 0 (timingNext d.payload s)) s := by
  have hsome : (!bit d.payload 0 && !bit d.payload 1 && !bit d.payload 2) = false := by
    rw [← Bool.not_or, ← Bool.not_or, h]
    rfl
  simp only [runOp, runTimingSet, hsome, Bool.false_eq_true, if_false]

/-- DIM_SET that selects a head and has its target in range (R176). -/
theorem runOp_dimSet_inRange {d : Desc} (s : State) (hmask : fld d.payload 0 4 ≠ 0) (hlow : 0x1A36E ≤ fld d.payload 32 32)
    (hhigh : fld d.payload 32 32 ≤ 0x80000000) : runOp .dimSet d s = .done stOk 0 (addLv (dimWrites d.payload) s) :=
  refuseOr_none (ranges_none (by simp [hmask, hlow, hhigh])) _ _

/-! ## The records of a head, past the reserved bits (R385) -/

section
variable {d : Desc} {s : State}

theorem runSettingsWrite_headColour (hn : fld d.payload 0 8 = 0x03)
    (hres : reservedBits (recordFields 0x03) (recordOf d).toNat 256 3 = none) :
    runSettingsWrite d s = refDone (writeHeadColour (recordOf d) s).1 (writeHeadColour (recordOf d) s).2 s := by
  unfold recordOf at hres ⊢
  simp only [runSettingsWrite, hn, hres]
  rfl

/-- The array record alone answers a RESULT, that of the head's sequence (log entry 84). -/
theorem runSettingsWrite_array (hn : fld d.payload 0 8 = 0x04)
    (hres : reservedBits (recordFields 0x04) (recordOf d).toNat 256 3 = none) :
    runSettingsWrite d s = refuseOr (writeArray (recordOf d) s).1
      (.done stOk (writeArray (recordOf d) s).2.1 (writeArray (recordOf d) s).2.2) s := by
  unfold recordOf at hres ⊢
  simp only [runSettingsWrite, hn, hres]
  rfl

theorem runSettingsWrite_raster (hn : fld d.payload 0 8 = 0x05)
    (hres : reservedBits (recordFields 0x05) (recordOf d).toNat 256 3 = none) :
    runSettingsWrite d s = refDone (writeRaster (s.rasters[headOf (recordOf d)].scan != 0) (recordOf d) s).1
      (writeRaster (s.rasters[headOf (recordOf d)].scan != 0) (recordOf d) s).2 s := by
  unfold recordOf at hres ⊢
  simp only [runSettingsWrite, hn, hres]
  rfl

theorem runSettingsWrite_pixelTiming (hn : fld d.payload 0 8 = 0x06)
    (hres : reservedBits (recordFields 0x06) (recordOf d).toNat 256 3 = none) :
    runSettingsWrite d s = refDone (writePixelTiming (recordOf d) s).1 (writePixelTiming (recordOf d) s).2 s := by
  unfold recordOf at hres ⊢
  simp only [runSettingsWrite, hn, hres]
  rfl

end

/-- Whether a scanner runs (R228) is the same for a descriptor as it executes and as it was submitted. -/
theorem fetched_rasters (op : Op) (d : Desc) (s : State) : (fetched op d s).rasters = s.rasters := by
  unfold fetched
  split <;> simp only [q2Accepted, onSafety_rasters, onQueue_rasters, onBar2_rasters]

/-- Settles O3: each command passes its checks, answers at once, writes its st fields and stages the others. -/
theorem headCommandsTakeEffect : Obligations.HeadCommandsTakeEffect := by
  unfold Obligations.HeadCommandsTakeEffect
  refine ⟨fun d s hs => ⟨fun ha hok => ?_, fun ha hok => ?_, fun ha hsome hok => ?_, fun ha hok => ?_,
    fun ha hmask hlow hhigh => ?_⟩, fun d s hs => ⟨?_, ?_, ?_, ?_⟩⟩
  · exact does_of_staged hs ha rfl (refuseOr_none hok _ _) (only_mono (headSetNext_only d.payload _) rfl)
  · exact does_of_staged hs ha rfl (refuseOr_none hok _ _) (only_mono (warpLoadNext_only d.payload _) rfl)
  · exact does_of_staged hs ha rfl ((runOp_timingSet_selects _ hsome).trans (refuseOr_none hok _ _))
      (only_mono (timingNext_only d.payload _) rfl)
  · exact does_of_staged hs ha rfl (refuseOr_none hok _ _) (only_mono (seqLoadNext_only d.payload _) rfl)
  · exact does_of_staged hs ha rfl (runOp_dimSet_inRange _ hmask hlow hhigh) (only_mono (only_addLv ..) rfl)
  · intro e ha
    exact does_of_record hs ha rfl (runSettingsWrite_headColour (withRecord_number 0x03 d (by decide)) ha.2) rfl
      (only_mono (writeHeadColour_only ..) rfl)
  · intro e s1 ha hok
    exact does_of_staged hs ha.1 rfl
      ((runSettingsWrite_array (withRecord_number 0x04 d (by decide)) ha.2).trans (refuseOr_none hok _ _))
      (only_mono (writeArray_only ..) rfl)
  · intro e s1 v ha hok
    have hscan : s1.rasters = s.rasters := fetched_rasters .settingsWrite e s
    rw [← hscan] at hok
    exact does_of_record hs ha rfl (runSettingsWrite_raster (withRecord_number 0x05 d (by decide)) ha.2) hok
      (only_mono (writeRaster_only ..) rfl)
  · intro e s1 ha hok
    exact does_of_record hs ha rfl (runSettingsWrite_pixelTiming (withRecord_number 0x06 d (by decide)) ha.2) hok
      (only_mono (writePixelTiming_only ..) rfl)

end Sys2Proof.Machine

/-! # What a fault can do to the light (11): darken it -/

namespace Sys2Proof.Machine

/-- Where a head stands in its show span, and its gates. -/
def spanState (d : HeadDyn) : Bool × Bool × Bool := (d.showing, d.spanDone, d.gateOpen)

/-- From s to t no gate has opened, no cause of the safe state is lost, a dark device has stayed dark (R341, R342), and every head
stands where it stood in its span. -/
structure Darkens (s t : State) : Prop where
  dark : s.safety.mode = .dark → t.safety.mode = .dark
  cause (m : Nat) : s.safety.causes.getLsbD m = true → t.safety.causes.getLsbD m = true
  shut (n : Chan) : s.chans[n].gateOpen = false → t.chans[n].gateOpen = false
  span (h : Head) : spanState t.heads[h] = spanState s.heads[h]

theorem darkens_refl (s : State) : Darkens s s := ⟨id, fun _ => id, fun _ => id, fun _ => rfl⟩

theorem Darkens.trans {a b c : State} (h : Darkens a b) (k : Darkens b c) : Darkens a c :=
  ⟨k.dark ∘ h.dark, fun m => k.cause m ∘ h.cause m, fun n => k.shut n ∘ h.shut n, fun x => (k.span x).trans (h.span x)⟩

/-- An operation that leaves the safety state, the channels and the heads alone. -/
theorem darkens_of_only {f : List Part} {s t : State} (h : Only f t s)
    (hf : [Part.safety, .chans, .heads].all (fun x => !f.contains x) = true) : Darkens s t := by
  simp only [List.all_cons, List.all_nil, Bool.and_true, Bool.and_eq_true, Bool.not_eq_true'] at hf
  obtain ⟨hsafety, hchans, hheads⟩ := hf
  have hs : t.safety = s.safety := h.same .safety hsafety
  have hc : t.chans = s.chans := h.same .chans hchans
  have hh : t.heads = s.heads := h.same .heads hheads
  exact ⟨fun k => by rwa [hs], fun _ k => by rwa [hs], fun _ k => by rwa [hc], fun _ => by rw [hh]⟩

/-- A head's record changes, but not where the head stands in its span. -/
theorem darkens_onHead (h : Head) (s : State) {f : HeadDyn → HeadDyn} (hf : ∀ d, spanState (f d) = spanState d) :
    Darkens s (onHead h f s) := by
  refine ⟨id, fun _ => id, fun _ => id, fun k => ?_⟩
  rw [onHead_heads]
  by_cases hk : k = h
  · rw [hk, upd_get_self, hf]
  · rw [upd_get_ne _ _ hk]

theorem darkens_forEach {α : Type} {g : α → State → State} (hg : ∀ x s, Darkens s (g x s)) (l : List α) (s : State) :
    Darkens s (forEach l g s) := by
  induction l generalizing s with
  | nil => exact darkens_refl s
  | cons x r ih => exact (hg x s).trans (ih (g x s))

/-! ## The reaction and the events -/

/-- The gates of the channels that meet p divert, and no other. -/
theorem divert_gate (p : Chan → Bool) (hard : Bool) (n : Chan) (s : State) :
    (divert p hard s).chans[n].gateOpen = (s.chans[n].gateOpen && !p n) := by
  simp only [divert, onChans_chans, Fin.getElem_fin, Vector.getElem_ofFn]
  cases p n <;> simp

theorem divert_darkens (p : Chan → Bool) (hard : Bool) (s : State) : Darkens s (divert p hard s) := by
  have hsafety : (divert p hard s).safety = s.safety := (divert_only ..).same .safety rfl
  have hheads : (divert p hard s).heads = s.heads := (divert_only ..).same .heads rfl
  exact ⟨fun h => by rwa [hsafety], fun _ h => by rwa [hsafety], fun _ h => by rw [divert_gate, h, Bool.false_and],
    fun _ => by rw [hheads]⟩

/-- The reaction darkens, whatever its form (R341, R342). -/
theorem safeReact_darkens (m : Nat) (hd : Option Head) (toDark restartable : Bool) (s : State) :
    Darkens s (safeReact m hd toDark restartable s) := by
  unfold safeReact
  extract_lets request latch darkNow s1
  have h1 : Darkens s s1 :=
    ⟨fun h => by simp [s1, darkNow, h], fun _ h => by simp [s1, h], fun _ => id, fun _ => rfl⟩
  split
  · exact h1.trans (divert_darkens ..)
  · split
    · exact h1.trans (divert_darkens ..)
    · exact h1

/-- The dark form: the device is dark, the mechanism stands among the causes, and every gate diverts. -/
theorem safeReact_dark {m : Nat} (hm : m < 16) (hd : Option Head) (restartable : Bool) (s : State) :
    (safeReact m hd true restartable s).safety.mode = .dark ∧
    (safeReact m hd true restartable s).safety.causes.getLsbD m = true ∧
    ∀ n : Chan, (safeReact m hd true restartable s).chans[n].gateOpen = false := by
  unfold safeReact
  extract_lets request latch darkNow s1
  rw [if_pos rfl]
  have hsafety : (divert (fun _ => true) false s1).safety = s1.safety := rfl
  rw [hsafety]
  refine ⟨by simp [s1, darkNow], ?_, fun n => by rw [divert_gate, Bool.not_true, Bool.and_false]⟩
  have hbit : (BitVec.ofNat 16 (2 ^ m)).getLsbD m = true := by
    rw [BitVec.getLsbD_ofNat, decide_eq_true hm, Nat.testBit_two_pow_self, Bool.and_self]
  exact (BitVec.getLsbD_or ..).trans (by rw [hbit, Bool.or_true])

theorem storeFull_darkens (s : State) : Darkens s (storeFull s) := by
  unfold storeFull
  split
  · exact darkens_refl s
  · extract_lets latched s1
    have hmark : Darkens s (onSafety (fun y => { y with storeFull := true }) s) :=
      ⟨id, fun _ => id, fun _ => id, fun _ => rfl⟩
    exact (hmark.trans (safeReact_darkens ..)).trans (darkens_of_only (only_onEv ..) rfl)

/-- An event darkens at most: a full store enters the safe state (R392). -/
theorem raise_darkens (src : Nat) (code : BitVec 16) (p : Nat) (s : State) : Darkens s (raise src code p s) := by
  have hrecord (x : State) : Darkens x (record src code p x) := darkens_of_only (record_only ..) rfl
  unfold raise
  extract_lets s0
  have h0 : Darkens s s0 := by
    unfold s0
    split
    · exact darkens_of_only (signal_only ..) rfl
    · exact darkens_refl s
  refine h0.trans ?_
  repeat' split
  · exact darkens_refl s0
  · exact storeFull_darkens s0
  · exact hrecord s0
  · exact darkens_refl s0
  · exact hrecord s0
  · exact darkens_of_only (only_onEv ..) rfl
  · exact hrecord s0

/-- A fault is its reaction, and events that darken at most. -/
theorem safeReact_safetyFault (m : Nat) (tied : Option Head) (head colour : Nat) (toDark restartable : Bool) (rho : Nat)
    (s : State) : Darkens (safeReact m (if toDark then none else tied) toDark restartable s)
      (safetyFault m tied head colour toDark restartable rho s) := by
  unfold safetyFault
  extract_lets latched s1 s2
  have h2 : Darkens s1 s2 := raise_darkens ..
  by_cases hform : (s1.safety.mode == s.safety.mode) = true
  · rw [if_pos hform]; exact h2
  · rw [if_neg hform]; exact h2.trans (raise_darkens ..)

theorem safetyFault_darkens (m : Nat) (tied : Option Head) (head colour : Nat) (toDark restartable : Bool) (rho : Nat)
    (s : State) : Darkens s (safetyFault m tied head colour toDark restartable rho s) :=
  (safeReact_darkens ..).trans (safeReact_safetyFault ..)

/-- A fault whose reaction is the dark form leaves the device dark, with its mechanism among the causes. -/
theorem safetyFault_dark {m : Nat} (hm : m < 16) (tied : Option Head) (head colour : Nat) (restartable : Bool) (rho : Nat)
    (s : State) :
    (safetyFault m tied head colour true restartable rho s).safety.mode = .dark ∧
    (safetyFault m tied head colour true restartable rho s).safety.causes.getLsbD m = true ∧
    ∀ n : Chan, (safetyFault m tied head colour true restartable rho s).chans[n].gateOpen = false := by
  have hevents := safeReact_safetyFault m tied head colour true restartable rho s
  obtain ⟨hdark, hcause, hshut⟩ := safeReact_dark hm (if true then none else tied) restartable s
  exact ⟨hevents.dark hdark, hevents.cause m hcause, fun n => hevents.shut n (hshut n)⟩

end Sys2Proof.Machine

/-! # The show (05, 06) -/

namespace Sys2Proof.Machine

/-- A row whose effect is `u`, where that effect comes down to `v`. -/
theorem exec_of_effect {c : Instr} {s u v : State} (h : exec c s = .next (settle u)) (huv : u = v) :
    exec c s = .next (settle v) := huv ▸ h

/-! ## Shunt gates (R161) -/

theorem closeGates_head (h : Head) (s : State) : (closeGates h s).heads[h].gateOpen = false := by
  rw [closeGates, onHead_heads, upd_get_self]

/-- Every gate of the head diverts, and no other. -/
theorem closeGates_gate (h : Head) (n : Chan) (s : State) :
    (closeGates h s).chans[n].gateOpen = (s.chans[n].gateOpen && s.cfg.chans[n].st.head != h) := by
  rw [closeGates, onHead_chans, divert_gate]
  rfl

/-- Where no dark reaction stands on a head that shows light, the gates that follow open beside those that are open. -/
theorem openGates_lit {h : Head} {s : State} (c : Option Colour) (hmay : mayLight s h = true) (hlight : showsLight s h = true) :
    (openGates h c s).heads[h].gateOpen = true ∧
    ∀ n : Chan, (openGates h c s).chans[n].gateOpen = (s.chans[n].gateOpen || gateFollows s h c n) := by
  have hopen : (mayLight s h && showsLight s h) = true := by rw [hmay, hlight]; rfl
  unfold openGates
  rw [if_pos hopen]
  refine ⟨by rw [onHead_heads, upd_get_self], fun n => ?_⟩
  simp only [onHead_chans, onChans_chans, Fin.getElem_fin, Vector.getElem_ofFn]
  cases gateFollows s h c n <;> simp

theorem openGates_unlit {h : Head} {s : State} (c : Option Colour) (hoff : mayLight s h = false ∨ showsLight s h = false) :
    openGates h c s = s := by
  unfold openGates
  exact if_neg (by simpa using fun hmay => hoff.resolve_left (by simp [hmay]))

/-- On an array head the light window is that of the entry that runs, where its pulse is fired. -/
theorem gateOpens_array {h : Head} {s : State} (harr : s.cfg.heads[h].raster = false) :
    gateOpens h s =
      if s.heads[h].showing && decide (0 < s.heads[h].entry) && linkSends s h && decide (0 < entryPulse s h (s.heads[h].entry - 1))
      then openGates h (some (entryGlyph (shownOf s h) (s.heads[h].entry - 1)).1) s else s := by
  simp only [gateOpens, harr, Bool.false_eq_true, if_false]

theorem gateOpens_fired {h : Head} {s : State} (hshow : s.heads[h].showing = true) (harr : s.cfg.heads[h].raster = false)
    (hsends : linkSends s h = true) (hentry : 0 < s.heads[h].entry) (hpulse : 0 < entryPulse s h (s.heads[h].entry - 1)) :
    gateOpens h s = openGates h (some (entryGlyph (shownOf s h) (s.heads[h].entry - 1)).1) s := by
  rw [gateOpens_array harr, if_pos (by simp only [hshow, hsends, hentry, hpulse, decide_true, Bool.and_self])]

theorem gateOpens_unlit {h : Head} {s : State} (harr : s.cfg.heads[h].raster = false)
    (hoff : mayLight s h = false ∨ showsLight s h = false ∨ s.heads[h].showing = false) : gateOpens h s = s := by
  rw [gateOpens_array harr]
  split
  · next hfires =>
    have hshow : s.heads[h].showing = true := by simp_all
    exact openGates_unlit _ (hoff.imp_right fun h' => h'.resolve_right (by rw [hshow]; decide))
  · rfl

theorem gateCloses_array {h : Head} {s : State} (harr : s.cfg.heads[h].raster = false) : gateCloses h s = closeGates h s := by
  simp only [gateCloses, harr, Bool.false_eq_true, if_false]

/-- On a raster head the gates have then conducted in the line (R237). -/
theorem gateCloses_raster {h : Head} {s : State} (hras : s.cfg.heads[h].raster = true) :
    gateCloses h s = onRaster h (fun r => { r with gateUsed := true }) (closeGates h s) := by
  simp only [gateCloses, hras, if_true]

theorem gateCloses_gates (h : Head) (s : State) :
    (gateCloses h s).heads = (closeGates h s).heads ∧ (gateCloses h s).chans = (closeGates h s).chans := by
  cases hras : s.cfg.heads[h].raster
  · rw [gateCloses_array hras]; exact ⟨rfl, rfl⟩
  · rw [gateCloses_raster hras]; exact ⟨rfl, rfl⟩

/-! ## The span starts (R140) -/

/-- Entering the phases that are due moves the phase alone. -/
theorem enterPhases_clk (s : State) : (enterPhases s).clk = { s.clk with phase := (enterPhases s).clk.phase } := by
  unfold enterPhases
  extract_lets s1 s2
  have h1 : s1.clk = { s.clk with phase := s1.clk.phase } := by unfold s1; split <;> rfl
  have h2 : s2.clk = { s1.clk with phase := s2.clk.phase } := by unfold s2; split <;> rfl
  split
  · rw [onClk_clk, h2, h1]
  · rw [h2, h1]

theorem startShow_idle {h : Head} {s : State}
    (hidle : s.clk.phase = .latch ∨ s.heads[h].mode = .off ∨ s.heads[h].showing = true ∨ s.heads[h].spanDone = true) :
    startShow h s = s :=
  if_pos (by simpa [or_assoc] using hidle)

/-- The state in which a span that starts finds its head: its time has come and the phases that are due are entered. -/
def spanReached (h : Head) (s : State) : State := enterPhases (onClk (fun c => { c with shown := true }) (reach (showAt s h) s))

theorem startShow_due {h : Head} {s : State} (hphase : s.clk.phase ≠ .latch) (hon : s.heads[h].mode ≠ .off)
    (hfirst : s.heads[h].showing = false) (honce : s.heads[h].spanDone = false) :
    startShow h s = onRaster h (fun r => { r with line := 0, linesOver := false, gateUsed := false })
      (onHead h (fun d => { d with showing := true, entry := 0, gateOpen := false }) (tableCheck h (spanReached h s))) :=
  if_neg (by simp only [hfirst, honce, Bool.or_false, Bool.or_eq_true, beq_iff_eq, hphase, hon, or_self, not_false_eq_true])

theorem spanReached_clk (h : Head) (s : State) : (spanReached h s).clk.shown = true ∧
    (spanReached h s).clk.now = max s.clk.now (showAt s h) ∧ (spanReached h s).clk.tick = s.clk.tick := by
  rw [spanReached, enterPhases_clk]
  exact ⟨rfl, rfl, rfl⟩

/-! ## Plane entries and their CRC (R161, R328) -/

/-- A mismatch leaves the device dark, with cause 0. -/
theorem canvasCrcFault_dark (h : Head) (s : State) :
    (canvasCrcFault h s).safety.mode = .dark ∧ (canvasCrcFault h s).safety.causes.getLsbD 0 = true ∧
    ∀ n : Chan, (canvasCrcFault h s).chans[n].gateOpen = false :=
  safetyFault_dark (by decide) none h.val 0 true 0 s

/-- The entry that starts: the gates close, and it is counted, or a stop takes effect (R212). -/
def entryStarted (h : Head) (s : State) : State :=
  if s.links[h].stopping then stopAtEntry h (closeGates h s)
  else onHead h (fun d => { d with entry := d.entry + 1 }) (closeGates h s)

theorem startEntry_runs {h : Head} {s : State} (crc : BitVec 32) (hshow : s.heads[h].showing = true)
    (harr : s.cfg.heads[h].raster = false) (hsends : linkSends s h = true) (hmore : s.heads[h].entry < (shownOf s h).entries) :
    startEntry h crc s =
      if s.heads[h].entry = 0 || entryCrcOk s h (s.heads[h].entry - 1) crc then entryStarted h s
      else canvasCrcFault h (entryStarted h s) :=
  if_neg (by simp only [hshow, harr, hsends, Nat.not_le.mpr hmore, Bool.not_true, Bool.or_self, decide_false, Bool.false_eq_true,
    not_false_eq_true])

/-! ## The span ends (R140, R332) -/

theorem actVerdict_darkens (h : Head) (c : Colour) (v : Verdict) (s : State) : Darkens s (actVerdict h c v s) := by
  unfold actVerdict
  split
  · exact darkens_refl s
  · exact darkens_onHead h s fun _ => rfl
  · exact safetyFault_darkens ..
  · exact safetyFault_darkens ..

theorem tellProven_darkens (h : Head) (s : State) : Darkens s (tellProven h s) := by
  unfold tellProven
  extract_lets d
  split
  · refine Darkens.trans ?_ (raise_darkens ..)
    exact darkens_onHead h s fun _ => rfl
  · exact darkens_refl s

theorem countInvalid_darkens (h : Head) (bad : Nat) (s : State) : Darkens s (countInvalid h bad s) := by
  unfold countInvalid
  split
  · exact darkens_onHead h s fun _ => rfl
  · extract_lets s1
    have h1 : Darkens s s1 := darkens_onHead h s fun _ => rfl
    split
    · refine h1.trans (Darkens.trans ?_ (raise_darkens ..))
      exact darkens_onHead h s1 fun _ => rfl
    · exact h1

/-- The optical proof darkens at most (R332). -/
theorem judgeProof_darkens (h : Head) (t : OsTick) (s : State) : Darkens s (judgeProof h t s) := by
  unfold judgeProof
  split
  · exact darkens_refl s
  · exact (darkens_forEach (fun c => actVerdict_darkens h c _) allColours s).trans
      ((tellProven_darkens ..).trans (countInvalid_darkens ..))

/-- The head enters hold: its gates close and its span is done. -/
def spanHeld (h : Head) (s : State) : State :=
  onHead h (fun d => { d with showing := false, spanDone := true }) (closeGates h (reach (showEnd s h) s))

theorem spanHeld_span (h : Head) (s : State) : spanState (spanHeld h s).heads[h] = (false, true, false) := by
  rw [spanHeld, onHead_heads, upd_get_self, spanState, closeGates_head]

theorem spanHeld_gate {h : Head} {n : Chan} {s : State} (hn : s.cfg.chans[n].st.head = h) :
    (spanHeld h s).chans[n].gateOpen = false := by
  have hcfg : (reach (showEnd s h) s).cfg = s.cfg := rfl
  rw [spanHeld, onHead_chans, closeGates_gate, hcfg, hn, bne_self_eq_false, Bool.and_false]

/-- What is told and judged of a span once it is over. -/
def spanJudged (h : Head) (t : OsTick) (s : State) : State :=
  judgeProof h t <| if headOn s.cfg h || s.heads[h].mode == .safe then
      raise (srcHead h) evFrameDone (frameDoneWord h (s.heads[h].mode == .safe) (s.heads[h].mode == .subst) (darkCount s h))
        (spanHeld h s)
    else spanHeld h s

theorem spanJudged_darkens (h : Head) (t : OsTick) (s : State) : Darkens (spanHeld h s) (spanJudged h t s) := by
  refine Darkens.trans ?_ (judgeProof_darkens ..)
  split
  · exact raise_darkens ..
  · exact darkens_refl _

theorem endShow_idle {h : Head} {s : State} (crcs : Vector (BitVec 32) 12) (t : OsTick) (hidle : s.heads[h].showing = false) :
    endShow h crcs t s = s :=
  if_pos (by rw [hidle]; rfl)

theorem endShow_showing {h : Head} {s : State} (crcs : Vector (BitVec 32) 12) (t : OsTick) (hshow : s.heads[h].showing = true) :
    endShow h crcs t s = proofStep h t (stopAtEntry h
      (if spanCrcsOk s h crcs then spanJudged h t s else canvasCrcFault h (spanJudged h t s))) :=
  if_neg (by rw [hshow]; decide)

/-- The stop and the proof item of calibration that close a span darken nothing. -/
theorem spanClose_darkens (h : Head) (t : OsTick) (s : State) : Darkens s (proofStep h t (stopAtEntry h s)) :=
  (darkens_of_only (stopAtEntry_only ..) rfl).trans (darkens_of_only (proofStep_only ..) rfl)

/-- All that follows the hold darkens at most. -/
theorem endShow_darkens {h : Head} {s : State} (crcs : Vector (BitVec 32) 12) (t : OsTick) (hshow : s.heads[h].showing = true) :
    Darkens (spanHeld h s) (endShow h crcs t s) := by
  rw [endShow_showing crcs t hshow]
  refine Darkens.trans ?_ (spanClose_darkens ..)
  split
  · exact spanJudged_darkens ..
  · exact (spanJudged_darkens ..).trans (safetyFault_darkens ..)

theorem endShow_wrongCrc {h : Head} {s : State} {crcs : Vector (BitVec 32) 12} (t : OsTick) (hshow : s.heads[h].showing = true)
    (hcrc : spanCrcsOk s h crcs = false) :
    (endShow h crcs t s).safety.mode = .dark ∧ (endShow h crcs t s).safety.causes.getLsbD 0 = true := by
  rw [endShow_showing crcs t hshow, if_neg (by simp [hcrc])]
  obtain ⟨hdark, hcause, -⟩ := canvasCrcFault_dark h (spanJudged h t s)
  have hclose := spanClose_darkens h t (canvasCrcFault h (spanJudged h t s))
  exact ⟨hclose.dark hdark, hclose.cause 0 hcause⟩

/-- Settles O21: each row does what its operation does; what faults and events add to a show can only darken it. -/
theorem theShowRuns : Obligations.TheShowRuns := by
  unfold Obligations.TheShowRuns
  intro h s
  refine ⟨fun hidle => ?_, fun hphase hon hfirst honce => ?_, fun crc hshow harr hsends hmore => ⟨fun hgo hok => ?_,
    fun hentry hcrc => ?_⟩, fun hshow harr hsends hentry hpulse hmay hlight => ?_, fun harr hoff => ?_, ?_,
    fun crcs p hidle => ?_, fun crcs p hshow => ?_⟩
  · exact exec_of_effect rfl (startShow_idle hidle)
  · refine ends_of rfl (startShow_only h s) rfl ?_
    obtain ⟨hshown, hnow, htick⟩ := spanReached_clk h s
    have hclk : (tableCheck h (spanReached h s)).clk = (spanReached h s).clk := (tableCheck_only ..).same .clk rfl
    simp only [settle_clk, settle_heads, settle_rasters, startShow_due hphase hon hfirst honce, onRaster_heads, onRaster_rasters,
      onRaster_clk, onHead_heads, onHead_clk, upd_get_self, hclk, hshown, hnow, htick, and_self]
  · have hright : (decide (s.heads[h].entry = 0) || entryCrcOk s h (s.heads[h].entry - 1) crc) = true := by simpa using hok
    refine exec_of_effect rfl ?_
    rw [startEntry_runs crc hshow harr hsends hmore, if_pos hright, entryStarted, if_neg (by rw [hgo]; decide)]
  · have hwrong : ¬(decide (s.heads[h].entry = 0) || entryCrcOk s h (s.heads[h].entry - 1) crc) = true := by
      simp only [hcrc, Nat.ne_of_gt hentry, decide_false, Bool.or_self, Bool.false_eq_true, not_false_eq_true]
    refine ends_of rfl (startEntry_only h crc s) rfl ?_
    rw [settle_safety, settle_chans, startEntry_runs crc hshow harr hsends hmore, if_neg hwrong]
    exact canvasCrcFault_dark ..
  · have hfired := gateOpens_fired hshow harr hsends hentry hpulse
    refine ends_of (exec_of_effect rfl hfired) (only_mono (openGates_only ..) rfl) rfl ?_
    rw [settle_heads, settle_chans]
    exact openGates_lit _ hmay hlight
  · exact exec_of_effect rfl (gateOpens_unlit harr hoff)
  · obtain ⟨hheads, hchans⟩ := gateCloses_gates h s
    refine ends_of rfl (only_mono (gateCloses_only h s) rfl) rfl ?_
    rw [settle_heads, settle_chans, settle_rasters, hheads, hchans]
    refine ⟨closeGates_head h s, fun harr => ?_, fun n => closeGates_gate h n s⟩
    rw [gateCloses_array harr]
    exact (closeGates_only h s).same .rasters rfl
  · exact exec_of_effect rfl (endShow_idle crcs p hidle)
  · have hends := endShow_darkens crcs p hshow
    have hspan := (hends.span h).trans (spanHeld_span h s)
    simp only [spanState, Prod.mk.injEq] at hspan
    obtain ⟨hover, hdone, hshut⟩ := hspan
    refine ends_of rfl (endShow_only h crcs p s) rfl ?_
    rw [settle_heads, settle_chans, settle_safety]
    exact ⟨hover, hdone, hshut, fun n hn => hends.shut n (spanHeld_gate hn), endShow_wrongCrc p hshow⟩

end Sys2Proof.Machine

/-! # Blocks on the plane link (06, 07) -/

namespace Sys2Proof.Machine

/-! ## What leaves the block (R192 to R199, R357) -/

/-- The close of a command puts out a vector at most. -/
theorem settle_out (s : State) : ∃ l, (settle s).out = l ++ s.out ∧ l.length ≤ 2 := by
  unfold settle signal
  dsimp only
  repeat' split
  · exact ⟨[], rfl, by decide⟩
  · exact ⟨[], rfl, by decide⟩
  · exact ⟨[.msix 5], rfl, by decide⟩

theorem sends_of_out {o : Output} {s u : State} (h : u.out = o :: s.out) : Sends o s (settle u) := by
  obtain ⟨l, hout, hlen⟩ := settle_out u
  exact ⟨l, by rw [hout, h], hlen⟩

/-- A request on CXL.io is output alone. -/
theorem askIo_eq (write : Bool) (ranges : List (Nat × Nat)) (s : State) :
    askIo write ranges s = { s with out := (askIo write ranges s).out } := by
  unfold askIo
  dsimp only
  split <;> rfl

/-- The 65 words of a block as they leave its lane (R192, R196 to R198). -/
def blockOutput (s : State) (g : Head) (lane : Fin 8) (e b : Nat) (data : List Byte) : Output :=
  .lane g lane (codeWords (s.cfg.links[g].txPol.testBit lane.val) s.links[g].scram[lane].toNat
    (blockWords (blockHeader s g (if windowBlock s g b then 1 else 0) e b) (blockPayload s g (shownOf s g) data e b))).1

theorem sendPlaneBlock_out (g : Head) (lane : Fin 8) (e b : Nat) (data : List Byte) (s : State) :
    (sendPlaneBlock g lane e b data s).out = blockOutput s g lane e b data :: s.out := rfl

/-- A block's words do not depend on what a link keeps beside its scrambler. -/
theorem blockOutput_onLink {f : LinkDyn → LinkDyn} {s : State} {g : Head} (hf : (f s.links[g]).scram = s.links[g].scram)
    (lane : Fin 8) (e b : Nat) (data : List Byte) :
    blockOutput (onLink g f s) g lane e b data = blockOutput s g lane e b data := by
  have hscram : (onLink g f s).links[g].scram = s.links[g].scram := by rw [onLink_links, upd_get_self, hf]
  unfold blockOutput
  rw [hscram]
  rfl

/-- Words on a lane move that lane's scrambler alone (R192). -/
theorem sendWords_links (g : Head) (lane : Fin 8) (ws : List (Bool × Nat)) (s : State) :
    ∃ v, (sendWords g lane ws s).links = upd s.links g (fun l => { l with scram := v }) := ⟨_, rfl⟩

theorem sendPlaneBlock_links (g : Head) (lane : Fin 8) (e b : Nat) (data : List Byte) (s : State) :
    ∃ v, (sendPlaneBlock g lane e b data s).links = upd s.links g (fun l => { l with scram := v }) := sendWords_links ..

theorem sendIdle_links (g : Head) (lane : Fin 8) (s : State) :
    ∃ v, (sendIdle g lane s).links = upd s.links g (fun l => { l with scram := v }) := sendWords_links ..

/-! ## A block again (R209, R210) -/

/-- A re-send is counted, and its block waits for an answer again. -/
def sentAgain (f : Flight) (l : LinkDyn) : LinkDyn :=
  { l with
    resent := sat 32 (l.resent + 1)
    flights := l.flights.map fun x => if x.same f then { x with waiting := true, resends := x.resends + 1 } else x }

theorem resendBlock_eq (g : Head) (lane : Fin 8) (f : Flight) (s : State) :
    resendBlock g lane f s = sendPlaneBlock g lane f.plane f.block f.data (onLink g (sentAgain f) s) := rfl

theorem resendBlock_out (g : Head) (lane : Fin 8) (f : Flight) (s : State) :
    (resendBlock g lane f s).out = blockOutput s g lane f.plane f.block f.data :: s.out := by
  rw [resendBlock_eq, sendPlaneBlock_out, blockOutput_onLink rfl, onLink_out]

theorem resendBlock_links (g : Head) (lane : Fin 8) (f : Flight) (s : State) :
    ∃ v, (resendBlock g lane f s).links = upd s.links g (fun l => { sentAgain f l with scram := v }) := by
  obtain ⟨v, hv⟩ := sendPlaneBlock_links g lane f.plane f.block f.data (onLink g (sentAgain f) s)
  exact ⟨v, by rw [resendBlock_eq, hv, onLink_links, upd_upd]⟩

/-! ## A block for the first time (R164, R190, R357) -/

/-- What the prefetch brings of the block at a lane's pointer. -/
def laneData (g : Head) (lane : Fin 8) (w : Shown) (p : Nat) (s : State) : List Byte :=
  fetchBlock s g w (s.links[g].dark.contains (lanePlane p)) (lanePlane p) (laneBlock p lane)

/-- The host's bytes have been asked for, where there are any. -/
def prefetched (g : Head) (lane : Fin 8) (w : Shown) (p : Nat) (s : State) : State :=
  if (laneData g lane w p s).isEmpty then s else askIo false [blockRange s g w (lanePlane p) (laneBlock p lane)] s

theorem prefetched_eq (g : Head) (lane : Fin 8) (w : Shown) (p : Nat) (s : State) :
    prefetched g lane w p s = { s with out := (prefetched g lane w p s).out } := by
  unfold prefetched
  split
  · rfl
  · exact askIo_eq ..

/-- The lane has taken its next block into the re-send buffer. -/
def takeBlock (x : HeadCfg) (lane : Fin 8) (p : Nat) (data : List Byte) (l : LinkDyn) : LinkDyn :=
  { l with
    next := l.next.set lane (laneNext x lane p)
    flights := l.flights ++ [{ plane := lanePlane p, block := laneBlock p lane, resends := 0, waiting := true, data := data }] }

section
variable (g : Head) (lane : Fin 8) (w : Shown) (p : Nat) (s : State)

/-- The block's bytes are asked for and taken, and it goes out. -/
theorem firstSend_eq : firstSend g lane w (lanePlane p) p s =
    sendPlaneBlock g lane (lanePlane p) (laneBlock p lane) (laneData g lane w p s)
      (onLink g (takeBlock s.cfg.heads[g] lane p (laneData g lane w p s)) (prefetched g lane w p s)) := rfl

theorem firstSend_out : (firstSend g lane w (lanePlane p) p s).out =
    blockOutput s g lane (lanePlane p) (laneBlock p lane) (laneData g lane w p s) :: (prefetched g lane w p s).out := by
  rw [firstSend_eq, sendPlaneBlock_out, blockOutput_onLink rfl, prefetched_eq]
  rfl

theorem firstSend_links : ∃ v, (firstSend g lane w (lanePlane p) p s).links =
    upd s.links g (fun l => { takeBlock s.cfg.heads[g] lane p (laneData g lane w p s) l with scram := v }) := by
  obtain ⟨v, hv⟩ := sendPlaneBlock_links g lane (lanePlane p) (laneBlock p lane) (laneData g lane w p s)
    (onLink g (takeBlock s.cfg.heads[g] lane p (laneData g lane w p s)) (prefetched g lane w p s))
  exact ⟨v, by rw [firstSend_eq, hv, onLink_links, upd_upd, prefetched_eq]⟩

end

/-! ## The next unit of a lane (R164, R195, R209, R212) -/

section
variable {g : Head} {lane : Fin 8} {s : State}

theorem blockSend_down (late : Bool) (h : s.cfg.heads[g].raster = true ∨ linkLive s g = false) :
    blockSend g lane late s = s := by
  unfold blockSend
  rw [if_pos (by simpa using h)]

theorem blockSend_idle (late : Bool) (harr : s.cfg.heads[g].raster = false) (hlive : linkLive s g = true)
    (h : linkSends s g = false ∨ s.clk.phase = .latch ∨ shownOf s g = .nothing) :
    blockSend g lane late s = sendIdle g lane s := by
  unfold blockSend
  rw [if_neg (by rw [harr, hlive]; decide), if_pos (by simpa [or_assoc] using h)]

/-- A group that sends is live. -/
theorem linkLive_of_sends (h : linkSends s g = true) : linkLive s g = true := by
  simp only [linkSends, Bool.and_eq_true] at h
  obtain ⟨⟨hlive, -⟩, -⟩ := h
  exact hlive

theorem blockSend_sends (late : Bool) (harr : s.cfg.heads[g].raster = false) (hsends : linkSends s g = true)
    (hphase : s.clk.phase ≠ .latch) (hshow : shownOf s g ≠ .nothing) : blockSend g lane late s = laneSend g lane late s := by
  unfold blockSend
  rw [if_neg (by rw [harr, linkLive_of_sends hsends]; decide), if_neg (by simp [hsends, hphase, hshow])]

theorem laneSend_resend {f : Flight} (late : Bool) (h : dueResend s.links[g] lane = some f) :
    laneSend g lane late s = resendBlock g lane f s := by
  simp only [laneSend, h]

/-- Where a lane's pointer stands past what is not to be sent. -/
def lanePointer (s : State) (g : Head) (lane : Fin 8) : Nat := skipTo s g (shownOf s g) lane skipFuel s.links[g].next[lane]

/-- No block can go: none is left, or the receiver has no free buffer, or the lane no free place. -/
def laneHolds (s : State) (g : Head) (lane : Fin 8) : Prop :=
  (shownOf s g).entries ≤ lanePlane (lanePointer s g lane) ∨ bufferFree s g (lanePlane (lanePointer s g lane)) = false ∨
    8 ≤ laneHeld s.links[g] lane

theorem not_laneHolds (hleft : lanePlane (lanePointer s g lane) < (shownOf s g).entries)
    (hfree : bufferFree s g (lanePlane (lanePointer s g lane)) = true) (hroom : laneHeld s.links[g] lane < 8) :
    ¬ laneHolds s g lane := by
  rintro (h | h | h)
  · exact Nat.not_lt.mpr h hleft
  · exact Bool.false_ne_true (h.symm.trans hfree)
  · exact Nat.not_lt.mpr h hroom

/-- A plane whose data is not there goes out dark, unless it is dark, shows the safe sequence or has begun (R151). -/
def darkened (s : State) (g : Head) (late : Bool) (e : Nat) : State :=
  if (late || !s.cxl.attached) && (!s.links[g].dark.contains e && shownOf s g != .safe &&
    (allFin 8).all fun k => decide (s.links[g].next[k] ≤ e * 4096)) then noteDark g e s else s

theorem laneSend_idle (late : Bool) (hdue : dueResend s.links[g] lane = none) (h : laneHolds s g lane) :
    laneSend g lane late s = sendIdle g lane s := by
  simp only [laneSend, hdue]
  exact if_pos (by simpa [laneHolds, lanePointer, or_assoc] using h)

/-- A lane whose next block can go: its plane is darkened where it has to be, and the block goes unless the plane has nothing left
that a dark plane sends. -/
theorem laneSend_next {u : State} (late : Bool) (hdue : dueResend s.links[g] lane = none) (h : ¬ laneHolds s g lane)
    (hu : darkened s g late (lanePlane (lanePointer s g lane)) = u) :
    laneSend g lane late s =
      let p := skipTo u g (shownOf s g) lane skipFuel (lanePointer s g lane)
      if lanePlane p ≠ lanePlane (lanePointer s g lane) then
        sendIdle g lane (onLink g (fun l => { l with next := l.next.set lane p }) u)
      else firstSend g lane (shownOf s g) (lanePlane (lanePointer s g lane)) p u := by
  subst hu
  simp only [laneSend, hdue]
  exact if_neg (by simpa [laneHolds, lanePointer, or_assoc] using h)

/-- The plane is not late, or nothing of it that a late plane would lose is still to go. -/
def planeStands (s : State) (g : Head) (late : Bool) (e : Nat) : Prop :=
  (late = false ∧ s.cxl.attached = true) ∨ shownOf s g = .safe ∨ s.links[g].dark.contains e = true ∨
    ∃ k : Fin 8, e * 4096 < s.links[g].next[k]

theorem darkened_of_stands {late : Bool} {e : Nat} (h : planeStands s g late e) : darkened s g late e = s := by
  refine if_neg fun hlate => ?_
  simp only [Bool.and_eq_true, Bool.or_eq_true, Bool.not_eq_true', bne_iff_ne, List.all_eq_true, decide_eq_true_eq] at hlate
  obtain ⟨hmiss, ⟨hlit, hhost⟩, hnext⟩ := hlate
  rcases h with ⟨hl, ha⟩ | hsafe | hdark | ⟨k, hk⟩
  · simp [hl, ha] at hmiss
  · exact hhost hsafe
  · rw [hdark] at hlit
    cases hlit
  · exact Nat.not_lt.mpr (hnext k (List.mem_finRange k)) hk

theorem darkened_of_late {late : Bool} {e : Nat} (hlate : late = true ∨ s.cxl.attached = false) (hhost : shownOf s g ≠ .safe)
    (hlit : s.links[g].dark.contains e = false) (hnext : ∀ k : Fin 8, s.links[g].next[k] ≤ e * 4096) :
    darkened s g late e = noteDark g e s := by
  refine if_pos ?_
  simp only [Bool.and_eq_true, Bool.or_eq_true, Bool.not_eq_true', bne_iff_ne, List.all_eq_true, decide_eq_true_eq]
  exact ⟨hlate, ⟨hlit, hhost⟩, fun k _ => hnext k⟩

/-- The block at the lane's pointer goes out for the first time. -/
theorem laneSend_first (late : Bool) (hdue : dueResend s.links[g] lane = none) (h : ¬ laneHolds s g lane)
    (hp : skipTo s g (shownOf s g) lane skipFuel (lanePointer s g lane) = lanePointer s g lane)
    (hstands : planeStands s g late (lanePlane (lanePointer s g lane))) :
    laneSend g lane late s =
      firstSend g lane (shownOf s g) (lanePlane (lanePointer s g lane)) (lanePointer s g lane) s := by
  rw [laneSend_next late hdue h (darkened_of_stands hstands)]
  simp only [hp, ne_eq, not_true_eq_false, if_false]

/-- Where a unit goes out after its plane was judged, the heads, the other links and the planes sent dark are as judged. -/
theorem laneSend_keeps {u : State} (late : Bool) (hdue : dueResend s.links[g] lane = none) (h : ¬ laneHolds s g lane)
    (hu : darkened s g late (lanePlane (lanePointer s g lane)) = u) :
    (laneSend g lane late s).heads = u.heads ∧ (laneSend g lane late s).links[g].dark = u.links[g].dark ∧
      ∀ k, k ≠ g → (laneSend g lane late s).links[k] = u.links[k] := by
  rw [laneSend_next late hdue h hu]
  extract_lets p
  by_cases hplane : lanePlane p = lanePlane (lanePointer s g lane)
  · rw [if_neg (not_not_intro hplane), ← hplane]
    obtain ⟨v, hv⟩ := firstSend_links g lane (shownOf s g) p u
    refine ⟨(firstSend_only ..).same .heads rfl, ?_, fun k hk => ?_⟩
    · rw [hv, upd_get_self]; rfl
    · rw [hv, upd_get_ne _ _ hk]
  · rw [if_pos hplane]
    obtain ⟨v, hv⟩ := sendIdle_links g lane (onLink g (fun l => { l with next := l.next.set lane p }) u)
    rw [onLink_links, upd_upd] at hv
    refine ⟨(sendIdle_only ..).same .heads rfl, ?_, fun k hk => ?_⟩
    · rw [hv, upd_get_self]
    · rw [hv, upd_get_ne _ _ hk]

/-- A plane of an array head that is newly dark leaves the other links alone. -/
theorem noteDark_links_ne {k : Head} {e : Nat} (harr : s.cfg.heads[g].raster = false) (hlit : s.links[g].dark.contains e = false)
    (hk : k ≠ g) : (noteDark g e s).links[k] = s.links[k] := by
  have hnote : noteDark g e s = darkPlane g (onLink g (fun l => { l with dark := e :: l.dark }) s) := by
    simp only [noteDark, harr, hlit, Bool.false_and, Bool.false_eq_true, if_false]
  have hdark (x : State) : (darkPlane g x).links = x.links := (darkPlane_only g x).same .links rfl
  rw [hnote, hdark, onLink_links, upd_get_ne _ _ hk]

end

/-! ## What is carried through a list of losses -/

/-- An operation that keeps a value, carried through a list. -/
theorem forEach_keeps {α β : Type} {m : State → β} {f : α → State → State} (hf : ∀ x s, m (f x s) = m s) (l : List α)
    (s : State) : m (forEach l f s) = m s := by
  induction l generalizing s with
  | nil => rfl
  | cons x r ih => exact (ih (f x s)).trans (hf x s)

/-- An operation that counts once, carried through a list. -/
theorem forEach_counts {α : Type} {m : State → Nat} {f : α → State → State} (hf : ∀ x s, m (f x s) = m s + 1)
    (l : List α) (s : State) : m (forEach l f s) = m s + l.length := by
  induction l generalizing s with
  | nil => rfl
  | cons x r ih =>
    calc m (forEach r f (f x s)) = m (f x s) + r.length := ih (f x s)
      _ = m s + (x :: r).length := by rw [hf, List.length_cons, Nat.add_assoc, Nat.add_comm 1]

/-- Operations that are framed under a configuration, which the frame keeps. -/
theorem only_forEach_cfg {α : Type} {f : List Part} (hf : f.contains .cfg = false) (l : List α) (g : α → State → State)
    (s : State) (h : ∀ x ∈ l, ∀ u : State, u.cfg = s.cfg → Only f (g x u) u) : Only f (forEach l g s) s := by
  induction l generalizing s with
  | nil => exact only_refl f s
  | cons x r ih =>
    have hx : Only f (g x s) s := h x List.mem_cons_self s rfl
    have hcfg : (g x s).cfg = s.cfg := hx.same .cfg hf
    have hr : Only f (forEach r g (g x s)) (g x s) :=
      ih (g x s) fun y hy u hu => h y (List.mem_cons_of_mem x hy) u (hu.trans hcfg)
    exact ⟨fun y hy => same_trans (hr.same y hy) (hx.same y hy)⟩

/-! ## A lost block or packet (R209, R242) -/

theorem blockLost_links (h : Head) (p b : Nat) (s : State) : ∃ planes, (blockLost h p b s).links =
    upd s.links h (fun l => { l with blocksLost := l.blocksLost + 1, lostPlanes := planes }) := by
  unfold blockLost
  dsimp only
  split
  · exact ⟨_, (noteWinLost_only ..).same .links rfl⟩
  · exact ⟨_, rfl⟩

theorem blockLost_flights (h : Head) (p b : Nat) (s : State) : (blockLost h p b s).links[h].flights = s.links[h].flights := by
  obtain ⟨planes, hlinks⟩ := blockLost_links h p b s
  rw [hlinks, upd_get_self]

theorem blockLost_next (h : Head) (p b : Nat) (s : State) : (blockLost h p b s).links[h].next = s.links[h].next := by
  obtain ⟨planes, hlinks⟩ := blockLost_links h p b s
  rw [hlinks, upd_get_self]

theorem blockLost_counted (h : Head) (p b : Nat) (s : State) :
    (blockLost h p b s).links[h].blocksLost = s.links[h].blocksLost + 1 := by
  obtain ⟨planes, hlinks⟩ := blockLost_links h p b s
  rw [hlinks, upd_get_self]

theorem packetLost_links (h : Head) (p y : Nat) (s : State) : (packetLost h p y s).links =
    upd s.links h (fun l => { l with blocksLost := l.blocksLost + 1 }) := by
  unfold packetLost
  dsimp only
  repeat' split
  · rfl
  · exact (noteWinLost_only ..).same .links rfl
  · rfl

theorem packetLost_rasters (h : Head) (p y : Nat) (s : State) : ∃ lines table, (packetLost h p y s).rasters =
    upd s.rasters h (fun r => { r with lostLines := lines, tableLost := table }) := by
  unfold packetLost
  dsimp only
  repeat' split
  · exact ⟨_, _, rfl⟩
  · exact ⟨_, _, (noteWinLost_only ..).same .rasters rfl⟩
  · exact ⟨_, _, rfl⟩

theorem packetLost_flights (h : Head) (p y : Nat) (s : State) :
    (packetLost h p y s).rasters[h].flights = s.rasters[h].flights := by
  obtain ⟨lines, table, hrasters⟩ := packetLost_rasters h p y s
  rw [hrasters, upd_get_self]

theorem packetLost_packet (h : Head) (p y : Nat) (s : State) : (packetLost h p y s).rasters[h].packet = s.rasters[h].packet := by
  obtain ⟨lines, table, hrasters⟩ := packetLost_rasters h p y s
  rw [hrasters, upd_get_self]

/-! ## A lost flight leaves the re-send buffer (R209) -/

/-- The flights of a head that a list of others does not name. -/
def without (l fs : List Flight) : List Flight := fs.filter fun x => l.all fun f => !x.same f

/-- Without the flights that meet p, where p does not tell apart what is the same block, are those that do not meet it. -/
theorem without_filter {p : Flight → Bool} (hp : ∀ x f : Flight, x.same f = true → p x = p f) (fs : List Flight) :
    without (fs.filter p) fs = fs.filter fun x => !p x := by
  refine List.filter_congr fun x hx => ?_
  cases hpx : p x
  · refine List.all_eq_true.mpr fun f hf => ?_
    have hpf : p f = true := (List.mem_filter.mp hf).2
    rw [Bool.not_eq_true', Bool.eq_false_iff]
    intro hsame
    rw [hp x f hsame, hpf] at hpx
    cases hpx
  · refine List.all_eq_false.mpr ⟨x, List.mem_filter.mpr ⟨hx, hpx⟩, ?_⟩
    simp only [Flight.same, beq_self_eq_true, Bool.and_self, Bool.not_true, Bool.false_eq_true, not_false_eq_true]

theorem without_plane (n : Nat) (fs : List Flight) :
    without (fs.filter fun f => f.plane == n) fs = fs.filter fun f => f.plane != n := by
  refine without_filter (fun x f hxf => ?_) fs
  simp only [Flight.same, Bool.and_eq_true, beq_iff_eq] at hxf
  rw [hxf.1]

theorem without_block (n : Nat) (fs : List Flight) :
    without (fs.filter fun f => f.block == n) fs = fs.filter fun f => f.block != n := by
  refine without_filter (fun x f hxf => ?_) fs
  simp only [Flight.same, Bool.and_eq_true, beq_iff_eq] at hxf
  rw [hxf.2]

theorem flightsOf_array {h : Head} {s : State} (harr : s.cfg.heads[h].raster = false) : flightsOf s h = s.links[h].flights := by
  simp only [flightsOf, harr, Bool.false_eq_true, if_false]

theorem flightsOf_raster {h : Head} {s : State} (hras : s.cfg.heads[h].raster = true) : flightsOf s h = s.rasters[h].flights := by
  simp only [flightsOf, hras, if_true]

theorem flightLost_array {h : Head} {s : State} (f : Flight) (harr : s.cfg.heads[h].raster = false) : flightLost h f s =
    blockLost h f.plane f.block (onLink h (fun l => { l with flights := l.flights.filter fun x => !x.same f }) s) := by
  simp only [flightLost, onFlights, harr, Bool.false_eq_true, if_false]

theorem flightLost_raster {h : Head} {s : State} (f : Flight) (hras : s.cfg.heads[h].raster = true) : flightLost h f s =
    packetLost h f.plane f.block (onRaster h (fun r => { r with flights := r.flights.filter fun x => !x.same f }) s) := by
  simp only [flightLost, onFlights, hras, if_true]

theorem flightLost_cfg (h : Head) (f : Flight) (s : State) : (flightLost h f s).cfg = s.cfg :=
  (flightLost_only h f s).same .cfg rfl

theorem flightLost_flights (h : Head) (f : Flight) (s : State) :
    flightsOf (flightLost h f s) h = (flightsOf s h).filter (fun x => !x.same f) := by
  cases hr : s.cfg.heads[h].raster
  · rw [flightsOf_array hr, flightsOf_array (by rw [flightLost_cfg, hr]), flightLost_array f hr, blockLost_flights, onLink_links,
      upd_get_self]
  · rw [flightsOf_raster hr, flightsOf_raster (by rw [flightLost_cfg, hr]), flightLost_raster f hr, packetLost_flights,
      onRaster_rasters, upd_get_self]

theorem flightLost_next (h : Head) (f : Flight) (s : State) : (flightLost h f s).links[h].next = s.links[h].next := by
  cases hr : s.cfg.heads[h].raster
  · rw [flightLost_array f hr, blockLost_next, onLink_links, upd_get_self]
  · rw [flightLost_raster f hr, packetLost_links, upd_get_self, onRaster_links]

theorem flightLost_counted (h : Head) (f : Flight) (s : State) :
    (flightLost h f s).links[h].blocksLost = s.links[h].blocksLost + 1 := by
  cases hr : s.cfg.heads[h].raster
  · rw [flightLost_array f hr, blockLost_counted, onLink_links, upd_get_self]
  · rw [flightLost_raster f hr, packetLost_links, upd_get_self, onRaster_links]

theorem flightLost_packet (h : Head) (f : Flight) (s : State) : (flightLost h f s).rasters[h].packet = s.rasters[h].packet := by
  cases hr : s.cfg.heads[h].raster
  · have hrasters : (flightLost h f s).rasters = s.rasters := by
      rw [flightLost_array f hr]
      exact (blockLost_only ..).same .rasters rfl
    rw [hrasters]
  · rw [flightLost_raster f hr, packetLost_packet, onRaster_rasters, upd_get_self]

/-- The losses of a list of flights leave the buffer without them. -/
theorem flightsLost_flights (h : Head) (l : List Flight) (s : State) :
    flightsOf (forEach l (flightLost h) s) h = without l (flightsOf s h) := by
  induction l generalizing s with
  | nil => exact (List.filter_eq_self.mpr fun _ _ => rfl).symm
  | cons f r ih =>
    calc flightsOf (forEach r (flightLost h) (flightLost h f s)) h
        = without r ((flightsOf s h).filter fun x => !x.same f) := by rw [ih, flightLost_flights]
      _ = without (f :: r) (flightsOf s h) := by simp [without, List.filter_filter, Bool.and_comm]

/-- Only a raster head's losses touch its scanner. -/
theorem flightLost_array_only {h : Head} {s : State} (f : Flight) (harr : s.cfg.heads[h].raster = false) :
    Only [.heads, .links, .chans, .safety, .cxl, .ev, .out] (flightLost h f s) s := by
  rw [flightLost_array f harr]
  exact only_step (blockLost_only ..) rfl (only_mono (only_onLink ..) rfl)

/-- A table packet's loss raises nothing (R243). -/
theorem flightLost_table_only {h : Head} {f : Flight} {s : State} (hras : s.cfg.heads[h].raster = true) (hf : f.block = 0xFFF) :
    Only [.links, .rasters] (flightLost h f s) s := by
  rw [flightLost_raster f hras, packetLost, if_pos hf]
  exact only_step (only_onRaster ..) rfl (only_step (only_onLink ..) rfl (only_mono (only_onRaster ..) rfl))

/-! ## Deadlines (R163, R209, R240, R242) -/

section
variable {h : Head} {n : Nat} {s : State}

/-- The flights of a plane, and the blocks of it that no lane has sent, are lost. -/
def planeLosses (h : Head) (n : Nat) (s : State) : State :=
  forEach ((allFin 8).map fun k => unsent s h (shownOf s h) n k).flatten (blockLost h n)
    (forEach (s.links[h].flights.filter fun f => f.plane == n) (flightLost h) s)

theorem deadline_array_idle (harr : s.cfg.heads[h].raster = false)
    (hidle : linkSends s h = false ∨ (shownOf s h).entries ≤ n) :
    deadline h n s = s := by
  unfold deadline
  rw [if_neg (by rw [harr]; decide)]
  exact if_pos (by simpa using hidle)

theorem deadline_array (harr : s.cfg.heads[h].raster = false) (hsends : linkSends s h = true) (hn : n < (shownOf s h).entries) :
    deadline h n s = onLink h (fun l => { l with next := l.next.map fun p => max p ((n + 1) * 4096) }) (planeLosses h n s) := by
  unfold deadline
  rw [if_neg (by rw [harr]; decide)]
  exact if_neg (by simp [hsends, hn])

theorem deadline_raster_idle (hras : s.cfg.heads[h].raster = true) (hn : n ≠ 0xFFF) (hidle : linkSends s h = false) :
    deadline h n s = s := by
  unfold deadline
  rw [if_pos hras, if_neg hn, if_neg (by rw [hidle]; decide)]

theorem deadline_line (hras : s.cfg.heads[h].raster = true) (hn : n ≠ 0xFFF) (hsends : linkSends s h = true) :
    deadline h n s = lineDeadline h n s := by
  unfold deadline
  rw [if_pos hras, if_neg hn, if_pos hsends]

theorem deadline_table (hras : s.cfg.heads[h].raster = true) :
    deadline h 0xFFF s = forEach (s.rasters[h].flights.filter fun f => f.block == 0xFFF) (flightLost h) s := by
  unfold deadline
  rw [if_pos hras]
  exact if_pos rfl

theorem planeLosses_only (harr : s.cfg.heads[h].raster = false) :
    Only [.heads, .links, .chans, .safety, .cxl, .ev, .out] (planeLosses h n s) s :=
  only_forEach_step (blockLost_only h n)
    (only_forEach_cfg rfl _ _ s fun f _ u hu => flightLost_array_only f (by rw [hu, harr]))

theorem deadline_table_only (hras : s.cfg.heads[h].raster = true) : Only [.links, .rasters] (deadline h 0xFFF s) s := by
  rw [deadline_table hras]
  refine only_forEach_cfg rfl _ _ s fun f hf u hu => flightLost_table_only (by rw [hu, hras]) ?_
  simpa using (List.mem_filter.mp hf).2

/-- Every flight of the plane is out of the buffer, the lanes' pointers stand, and each loss is counted. -/
theorem planeLosses_links (harr : s.cfg.heads[h].raster = false) :
    (planeLosses h n s).links[h].flights = s.links[h].flights.filter (fun f => f.plane != n) ∧
      (planeLosses h n s).links[h].next = s.links[h].next ∧
      (planeLosses h n s).links[h].blocksLost = s.links[h].blocksLost +
        (s.links[h].flights.filter fun f => f.plane == n).length +
          ((allFin 8).map fun k => unsent s h (shownOf s h) n k).flatten.length := by
  unfold planeLosses
  refine ⟨?_, ?_, ?_⟩
  · rw [forEach_keeps (m := fun u : State => u.links[h].flights) (blockLost_flights h n),
      ← flightsOf_array (by rw [forEach_keeps (m := State.cfg) (flightLost_cfg h), harr]), flightsLost_flights,
      flightsOf_array harr, without_plane]
  · rw [forEach_keeps (m := fun u : State => u.links[h].next) (blockLost_next h n),
      forEach_keeps (m := fun u : State => u.links[h].next) (flightLost_next h)]
  · rw [forEach_counts (m := fun u : State => u.links[h].blocksLost) (blockLost_counted h n),
      forEach_counts (m := fun u : State => u.links[h].blocksLost) (flightLost_counted h)]

/-- The losses of a line's or the table's packets in flight, at its deadline. -/
theorem packetsLost_rasters (hras : s.cfg.heads[h].raster = true) :
    let t := forEach (s.rasters[h].flights.filter fun f => f.block == n) (flightLost h) s
    t.rasters[h].flights = s.rasters[h].flights.filter (fun f => f.block != n) ∧ t.rasters[h].packet = s.rasters[h].packet := by
  refine ⟨?_, forEach_keeps (m := fun u : State => u.rasters[h].packet) (flightLost_packet h) _ s⟩
  rw [← flightsOf_raster (by rw [forEach_keeps (m := State.cfg) (flightLost_cfg h), hras]), flightsLost_flights,
    flightsOf_raster hras, without_block]

/-- The packets of a line that are not sent are lost as well, and the next packet is one of a later line. -/
theorem lineDeadline_rasters (hras : s.cfg.heads[h].raster = true) :
    (lineDeadline h n s).rasters[h].flights = s.rasters[h].flights.filter (fun f => f.block != n) ∧
      (lineDeadline h n s).rasters[h].packet = max s.rasters[h].packet ((n + 1) * npkOf s.cfg.heads[h].outW) := by
  obtain ⟨hflights, hnext⟩ := packetsLost_rasters (n := n) hras
  unfold lineDeadline
  dsimp only
  rw [onRaster_rasters, upd_get_self]
  dsimp only
  rw [forEach_keeps (m := fun u : State => u.rasters[h].flights) fun p u => packetLost_flights h p n u,
    forEach_keeps (m := fun u : State => u.rasters[h].packet) fun p u => packetLost_packet h p n u, hflights, hnext]
  exact ⟨rfl, rfl⟩

end

/-- Settles O25: a unit of a lane by what goes out first, a deadline by the losses it is made of. -/
theorem blocksAreSent : Obligations.BlocksAreSent := by
  unfold Obligations.BlocksAreSent
  intro g lane s x l w block p e b others lost
  refine ⟨fun late hdown => ?_, fun late harr hlive hidle => ?_, fun harr hsends hphase hshow => ⟨fun late f hdue => ?_,
    fun late hdue hholds => ?_, fun late hdue hleft hfree hroom hp hstands => ?_,
    fun late hdue hleft hfree hroom hlate hhost hlit hnext => ?_⟩, fun n harr hidle => ?_, fun n harr hsends hn => ?_,
    fun n hras hn hidle => ?_, fun n hras hn hsends => ?_, fun hras => ?_⟩
  · exact exec_of_effect rfl (blockSend_down late hdown)
  · exact exec_of_effect rfl (blockSend_idle late harr hlive hidle)
  · have heffect := (blockSend_sends late harr hsends hphase hshow).trans (laneSend_resend late hdue)
    refine ends_of (exec_of_effect rfl heffect) (only_mono (resendBlock_only ..) rfl) rfl ?_
    obtain ⟨v, hv⟩ := resendBlock_links g lane f s
    rw [settle_links, hv, upd_get_self]
    exact ⟨sends_of_out (resendBlock_out g lane f s), rfl, rfl, rfl, fun k hk => by rw [settle_links, hv, upd_get_ne _ _ hk]⟩
  · exact exec_of_effect rfl ((blockSend_sends late harr hsends hphase hshow).trans (laneSend_idle late hdue hholds))
  · have hgo : ¬ laneHolds s g lane := not_laneHolds hleft hfree hroom
    have heffect := (blockSend_sends late harr hsends hphase hshow).trans (laneSend_first late hdue hgo hp hstands)
    refine ends_of (u := firstSend g lane w e p s) (exec_of_effect rfl heffect) (only_mono (firstSend_only ..) rfl) rfl ?_
    obtain ⟨v, hv⟩ := firstSend_links g lane w p s
    rw [settle_links, hv, upd_get_self]
    exact ⟨sends_of_out (firstSend_out g lane w p s), rfl, rfl, rfl, fun k hk => by rw [settle_links, hv, upd_get_ne _ _ hk]⟩
  · have hgo : ¬ laneHolds s g lane := not_laneHolds hleft hfree hroom
    have heffect := blockSend_sends (lane := lane) late harr hsends hphase hshow
    refine ends_of (exec_of_effect rfl heffect) (laneSend_only g lane late s) rfl ?_
    obtain ⟨hheads, hdark, hother⟩ := laneSend_keeps late hdue hgo (darkened_of_late hlate hhost hlit hnext)
    obtain ⟨hcount, hlist⟩ := noteDark_new harr hlit
    rw [settle_heads, settle_links, hheads, hdark]
    refine ⟨hlist, hcount, fun k hk => ?_⟩
    rw [settle_links, hother k hk]
    exact noteDark_links_ne harr hlit hk
  · exact exec_of_effect rfl (deadline_array_idle harr hidle)
  · refine ends_of (exec_of_effect rfl (deadline_array harr hsends hn))
      (only_step (only_onLink ..) rfl (planeLosses_only harr)) rfl ?_
    obtain ⟨hflights, hnext, hcount⟩ := planeLosses_links (n := n) harr
    rw [settle_links, onLink_links, upd_get_self]
    refine ⟨hflights, fun k => ?_, hcount⟩
    rw [hnext]
    exact Vector.getElem_map ..
  · exact exec_of_effect rfl (deadline_raster_idle hras hn hidle)
  · refine ends_of (exec_of_effect rfl (deadline_line hras hn hsends)) (only_mono (lineDeadline_only ..) rfl) rfl ?_
    rw [settle_rasters]
    exact lineDeadline_rasters hras
  · refine ends_of rfl (only_mono (deadline_table_only hras) rfl) rfl ?_
    rw [settle_rasters, deadline_table hras]
    exact packetsLost_rasters hras

end Sys2Proof.Machine

/-! # A group of the plane link (07): what an event, an answer and a word on a lane change of it -/

namespace Sys2Proof.Machine

/-! ## Updates of a group's record -/

/-- An update that gives back what it found changes nothing. -/
theorem upd_of_fixed {α : Type} {n : Nat} {v : Vector α n} {i : Fin n} {f : α → α} (h : f v[i] = v[i]) : upd v i f = v := by
  rw [upd, h]
  exact Vector.set_getElem_self _

/-- Only what an update makes of the record that it finds counts. -/
theorem upd_congr {α : Type} {n : Nat} {v : Vector α n} {i : Fin n} {f g : α → α} (h : f v[i] = g v[i]) :
    upd v i f = upd v i g := by
  rw [upd, upd, h]

theorem onLink_congr {g : Head} {a b : LinkDyn → LinkDyn} {s : State} (h : a s.links[g] = b s.links[g]) :
    onLink g a s = onLink g b s := by
  rw [onLink, onLink, upd_congr h]

theorem onLink_of_fixed {g : Head} {a : LinkDyn → LinkDyn} {s : State} (h : a s.links[g] = s.links[g]) : onLink g a s = s := by
  rw [onLink, upd_of_fixed h]

theorem onLink_onLink (g : Head) (a b : LinkDyn → LinkDyn) (s : State) :
    onLink g b (onLink g a s) = onLink g (fun l => b (a l)) s := by
  simp [onLink, upd_upd]

/-- Of the links and the scanners, t differs from s in those of group g alone. -/
structure AtGroup (g : Head) (s t : State) : Prop where
  links (k : Head) : k ≠ g → t.links[k] = s.links[k]
  rasters (k : Head) : k ≠ g → t.rasters[k] = s.rasters[k]

theorem AtGroup.trans {g : Head} {a b c : State} (h : AtGroup g a b) (k : AtGroup g b c) : AtGroup g a c :=
  ⟨fun i hi => (k.links i hi).trans (h.links i hi), fun i hi => (k.rasters i hi).trans (h.rasters i hi)⟩

/-- It is enough that the records are as updated at g, or stand. -/
theorem atGroup_of_upd {g : Head} {s t : State} {a : LinkDyn → LinkDyn} {b : RasterDyn → RasterDyn}
    (hlinks : t.links = upd s.links g a) (hrasters : t.rasters = upd s.rasters g b) : AtGroup g s t :=
  ⟨fun k hk => by rw [hlinks, upd_get_ne _ _ hk], fun k hk => by rw [hrasters, upd_get_ne _ _ hk]⟩

theorem atGroup_of_links {g : Head} {s t : State} {a : LinkDyn → LinkDyn} (hlinks : t.links = upd s.links g a)
    (hrasters : t.rasters = s.rasters) : AtGroup g s t :=
  atGroup_of_upd hlinks (hrasters.trans (upd_of_fixed (f := id) rfl).symm)

theorem atGroup_onLink (g : Head) (a : LinkDyn → LinkDyn) (s : State) : AtGroup g s (onLink g a s) := atGroup_of_links rfl rfl

theorem atGroup_onRaster (g : Head) (b : RasterDyn → RasterDyn) (s : State) : AtGroup g s (onRaster g b s) :=
  atGroup_of_upd (upd_of_fixed (f := id) rfl).symm rfl

/-- An operation that touches neither. -/
theorem atGroup_of_only {f : List Part} {s t : State} (g : Head) (h : Only f t s)
    (hf : [Part.links, .rasters].all (fun x => !f.contains x) = true) : AtGroup g s t := by
  simp only [List.all_cons, List.all_nil, Bool.and_true, Bool.and_eq_true, Bool.not_eq_true'] at hf
  obtain ⟨hlinks, hrasters⟩ := hf
  have hl : t.links = s.links := h.same .links hlinks
  have hr : t.rasters = s.rasters := h.same .rasters hrasters
  exact ⟨fun k _ => by rw [hl], fun k _ => by rw [hr]⟩

/-! ## The events of a group (R221) -/

theorem groupOf_srcLink (g : Head) : groupOf (srcLink g) = 2 := by
  revert g
  decide

/-- Only a group-6 event can find the store full and enter the safe state (R392); any other is recorded at most. -/
theorem raise_plain_only {src : Nat} (hsrc : groupOf src ≠ 6) (code : BitVec 16) (p : Nat) (s : State) :
    Only [.cxl, .ev, .out] (raise src code p s) s := by
  unfold raise
  extract_lets s0
  have h0 : Only [.cxl, .ev, .out] s0 s := only_ite _ (only_mono (signal_only ..) rfl) (only_refl _ s)
  refine only_step (f := [.cxl, .ev, .out]) (g := [.cxl, .ev, .out]) ?_ rfl h0
  rw [if_neg (c := (groupOf src == 6) = true) (by simpa using hsrc)]
  repeat' split
  · exact only_refl _ s0
  · exact only_refl _ s0
  · exact record_only ..
  · exact only_mono (only_onEv ..) rfl
  · exact record_only ..

/-- What a group tells is recorded at most. -/
theorem raise_link_only (g : Head) (code : BitVec 16) (p : Nat) (s : State) :
    Only [.cxl, .ev, .out] (raise (srcLink g) code p s) s :=
  raise_plain_only (by rw [groupOf_srcLink]; decide) code p s

theorem raise_cfg (src : Nat) (code : BitVec 16) (p : Nat) (s : State) : (raise src code p s).cfg = s.cfg :=
  (raise_only ..).same .cfg rfl
theorem raise_links (src : Nat) (code : BitVec 16) (p : Nat) (s : State) : (raise src code p s).links = s.links :=
  (raise_only ..).same .links rfl
theorem raise_rasters (src : Nat) (code : BitVec 16) (p : Nat) (s : State) : (raise src code p s).rasters = s.rasters :=
  (raise_only ..).same .rasters rfl

/-! ## Words on a lane (R192) -/

/-- Of the links, t differs from s in group g's scramblers alone. -/
def Scrambles (g : Head) (s t : State) : Prop := ∃ v, t.links = upd s.links g fun l => { l with scram := v }

theorem scrambles_refl (g : Head) (s : State) : Scrambles g s s := ⟨s.links[g].scram, (upd_of_fixed rfl).symm⟩

theorem Scrambles.trans {g : Head} {a b c : State} (h : Scrambles g a b) (k : Scrambles g b c) : Scrambles g a c := by
  obtain ⟨v, hv⟩ := h
  obtain ⟨w, hw⟩ := k
  exact ⟨w, by rw [hw, hv, upd_upd]⟩

theorem scrambles_forEach {α : Type} {g : Head} {f : α → State → State} (hf : ∀ x s, Scrambles g s (f x s)) (l : List α)
    (s : State) : Scrambles g s (forEach l f s) := by
  induction l generalizing s with
  | nil => exact scrambles_refl g s
  | cons x r ih => exact (hf x s).trans (ih (f x s))

theorem laneCtrl_scrambles (g : Head) (lane : Fin 8) (body : Nat) (s : State) : Scrambles g s (laneCtrl g lane body s) :=
  sendWords_links ..

/-! ## The flights of a head -/

theorem settle_flightsOf (s : State) (h : Head) : flightsOf (settle s) h = flightsOf s h := by
  simp only [flightsOf, settle_cfg, settle_links, settle_rasters]

theorem flightsOf_congr {h : Head} {s t : State} (hcfg : t.cfg = s.cfg) (hlink : t.links[h].flights = s.links[h].flights)
    (hraster : t.rasters = s.rasters) : flightsOf t h = flightsOf s h := by
  simp only [flightsOf, hcfg, hlink, hraster]

theorem flightsOf_onLink {h : Head} {s : State} {a : LinkDyn → LinkDyn} (ha : (a s.links[h]).flights = s.links[h].flights) :
    flightsOf (onLink h a s) h = flightsOf s h :=
  flightsOf_congr rfl (by rw [onLink_links, upd_get_self, ha]) rfl

theorem flightsOf_raise (h : Head) (src : Nat) (code : BitVec 16) (p : Nat) (s : State) :
    flightsOf (raise src code p s) h = flightsOf s h :=
  flightsOf_congr (raise_cfg ..) (by rw [raise_links]) (raise_rasters ..)

section
variable (h : Head) (f : List Flight → List Flight) (s : State)

theorem onFlights_array (harr : s.cfg.heads[h].raster = false) :
    onFlights h f s = onLink h (fun l => { l with flights := f l.flights }) s := by
  simp only [onFlights, harr, Bool.false_eq_true, if_false]

theorem onFlights_raster (hras : s.cfg.heads[h].raster = true) :
    onFlights h f s = onRaster h (fun r => { r with flights := f r.flights }) s := by
  simp only [onFlights, hras, if_true]

theorem onFlights_flights : flightsOf (onFlights h f s) h = f (flightsOf s h) := by
  cases hr : s.cfg.heads[h].raster
  · rw [onFlights_array h f s hr, flightsOf_array hr, flightsOf_array (by rw [onLink_cfg, hr]), onLink_links, upd_get_self]
  · rw [onFlights_raster h f s hr, flightsOf_raster hr, flightsOf_raster (by rw [onRaster_cfg, hr]), onRaster_rasters,
      upd_get_self]

theorem onFlights_atGroup : AtGroup h s (onFlights h f s) := by
  cases hr : s.cfg.heads[h].raster
  · rw [onFlights_array h f s hr]; exact atGroup_onLink ..
  · rw [onFlights_raster h f s hr]; exact atGroup_onRaster ..

/-- Of a group's record only the flights change. -/
theorem onFlights_link : ∃ l, (onFlights h f s).links[h] = { s.links[h] with flights := l } := by
  cases hr : s.cfg.heads[h].raster
  · exact ⟨f s.links[h].flights, by rw [onFlights_array h f s hr, onLink_links, upd_get_self]⟩
  · exact ⟨s.links[h].flights, by rw [onFlights_raster h f s hr, onRaster_links]⟩

end

/-! ## A block that counts as refused (R209) -/

/-- The block is due for re-sending. -/
def dueAgain (f : Flight) (l : List Flight) : List Flight := l.map fun x => if x.same f then { x with waiting := false } else x

section
variable {h : Head} {f : Flight}

theorem refused_due (hf : f.resends < 3) (s : State) : refused h f s = onFlights h (dueAgain f) s := if_pos hf

theorem refused_lost (hf : 3 ≤ f.resends) (s : State) : refused h f s = flightLost h f s := if_neg (Nat.not_lt.mpr hf)

theorem flightLost_atGroup (h : Head) (f : Flight) (s : State) : AtGroup h s (flightLost h f s) := by
  cases hr : s.cfg.heads[h].raster
  · rw [flightLost_array f hr]
    obtain ⟨planes, hlinks⟩ := blockLost_links h f.plane f.block
      (onLink h (fun l => { l with flights := l.flights.filter fun x => !x.same f }) s)
    exact (atGroup_onLink ..).trans (atGroup_of_links hlinks ((blockLost_only ..).same .rasters rfl))
  · rw [flightLost_raster f hr]
    obtain ⟨lines, table, hrasters⟩ := packetLost_rasters h f.plane f.block
      (onRaster h (fun r => { r with flights := r.flights.filter fun x => !x.same f }) s)
    exact (atGroup_onRaster ..).trans (atGroup_of_upd (packetLost_links ..) hrasters)

/-- Of a group's record a lost flight changes the flights, the planes with losses and the count of losses. -/
theorem flightLost_link (h : Head) (f : Flight) (s : State) : ∃ l planes, (flightLost h f s).links[h] =
    { s.links[h] with flights := l, lostPlanes := planes, blocksLost := s.links[h].blocksLost + 1 } := by
  cases hr : s.cfg.heads[h].raster
  · obtain ⟨planes, hlinks⟩ := blockLost_links h f.plane f.block
      (onLink h (fun l => { l with flights := l.flights.filter fun x => !x.same f }) s)
    exact ⟨_, planes, by rw [flightLost_array f hr, hlinks, upd_get_self, onLink_links, upd_get_self]⟩
  · exact ⟨s.links[h].flights, s.links[h].lostPlanes, by
      rw [flightLost_raster f hr, packetLost_links, upd_get_self, onRaster_links]⟩

theorem refused_atGroup (h : Head) (f : Flight) (s : State) : AtGroup h s (refused h f s) := by
  unfold refused
  split
  · exact onFlights_atGroup ..
  · exact flightLost_atGroup ..

/-- Of a group's record a refusal changes the flights, and by a loss the planes with losses and the count of losses. -/
theorem refused_link (h : Head) (f : Flight) (s : State) : ∃ l planes n, (refused h f s).links[h] =
    { s.links[h] with flights := l, lostPlanes := planes, blocksLost := n } := by
  unfold refused
  split
  · obtain ⟨l, hl⟩ := onFlights_link h (dueAgain f) s
    exact ⟨l, s.links[h].lostPlanes, s.links[h].blocksLost, hl⟩
  · obtain ⟨l, planes, hl⟩ := flightLost_link h f s
    exact ⟨l, planes, _, hl⟩

end

/-! ## Answers and the end of their window (R200, R207, R209, R219) -/

section
variable {g : Head} {w : BackWord} {s : State} {f : Flight}

/-- A word is not an answer that counts: its CHK is wrong, or it names no block that waits. -/
theorem acked_idle (h : backOk 0x10 w = false ∨ answered g w s = none) : acked g w s = s := by
  rcases h with h | h <;> simp [acked, h]

theorem refusal_idle (h : backOk 0x11 w = false ∨ answered g w s = none) : refusal g w s = s := by
  rcases h with h | h <;> simp [refusal, h]

theorem acked_answer (hok : backOk 0x10 w = true) (hf : answered g w s = some f) : acked g w s =
    onLink g (fun l => { l with acked := f :: l.acked }) (onFlights g (fun l => l.filter fun x => !x.same f) s) := by
  simp only [acked, hok, hf, Bool.not_true, Bool.false_eq_true, if_false]

theorem refusal_answer (hok : backOk 0x11 w = true) (hf : answered g w s = some f) :
    refusal g w s = refused g f (onLink g (fun l => { l with refusals := l.refusals + 1 }) s) := by
  simp only [refusal, hok, hf, Bool.not_true, Bool.false_eq_true, if_false]

/-- A block whose flight is counted and then refused, with a re-send left: it is due again. -/
theorem refused_counted_due {c : LinkDyn → LinkDyn} (hc : ∀ l, (c l).flights = l.flights) (hf : f.resends < 3) :
    let t := refused g f (onLink g c s)
    Only [.links, .rasters] t s ∧ flightsOf t g = dueAgain f (flightsOf s g) ∧
      (∃ l, t.links[g] = { c s.links[g] with flights := l }) ∧ AtGroup g s t := by
  dsimp only
  rw [refused_due hf]
  obtain ⟨l, hl⟩ := onFlights_link g (dueAgain f) (onLink g c s)
  refine ⟨only_step (onFlights_only ..) rfl (only_mono (only_onLink ..) rfl), ?_, ⟨l, ?_⟩,
    (atGroup_onLink ..).trans (onFlights_atGroup ..)⟩
  · rw [onFlights_flights, flightsOf_onLink (hc _)]
  · rw [hl, onLink_links, upd_get_self]

/-- The same with no re-send left: it is lost. -/
theorem refused_counted_lost {c : LinkDyn → LinkDyn} (hc : ∀ l, (c l).flights = l.flights) (hf : 3 ≤ f.resends) :
    let t := refused g f (onLink g c s)
    Only [.heads, .links, .rasters, .chans, .safety, .cxl, .ev, .out] t s ∧
      flightsOf t g = (flightsOf s g).filter (fun x => !x.same f) ∧
      (∃ l planes, t.links[g] =
        { c s.links[g] with flights := l, lostPlanes := planes, blocksLost := (c s.links[g]).blocksLost + 1 }) ∧
      AtGroup g s t := by
  dsimp only
  rw [refused_lost hf]
  obtain ⟨l, planes, hl⟩ := flightLost_link g f (onLink g c s)
  refine ⟨only_step (flightLost_only ..) rfl (only_mono (only_onLink ..) rfl), ?_, ⟨l, planes, ?_⟩,
    (atGroup_onLink ..).trans (flightLost_atGroup ..)⟩
  · rw [flightLost_flights, flightsOf_onLink (hc _)]
  · rw [hl, onLink_links, upd_get_self]

end

/-- The flight that waits for an answer of a block. -/
def waitingFlight (g : Head) (p b : Nat) (s : State) : Option Flight :=
  (flightsOf s g).find? fun f => f.waiting && f.plane == p && f.block == b

theorem unanswered_idle {g : Head} {p b : Nat} {s : State} (h : waitingFlight g p b s = none) : unanswered g p b s = s := by
  unfold waitingFlight at h
  simp only [unanswered, h]

theorem unanswered_waiting {g : Head} {p b : Nat} {s : State} {f : Flight} (h : waitingFlight g p b s = some f) :
    unanswered g p b s = refused g f (onLink g (fun l => { l with timeouts := l.timeouts + 1 }) s) := by
  unfold waitingFlight at h
  simp only [unanswered, h]

/-- Settles O24: an answer, or the end of its window, is counted and moves the flight that it concerns. -/
theorem answersMoveTheResendBuffer : Obligations.AnswersMoveTheResendBuffer := by
  unfold Obligations.AnswersMoveTheResendBuffer
  intro g w s others gone due waits lost
  have hothers {u : State} (hu : AtGroup g s u) : others (settle u) := fun k hk => by
    rw [settle_links, settle_rasters]
    exact ⟨hu.links k hk, hu.rasters k hk⟩
  refine ⟨fun h => exec_of_effect rfl (acked_idle h), fun h => exec_of_effect rfl (refusal_idle h), fun f hf hok => ?_,
    fun f hf hleft hok => ?_, fun f hf hleft hok => ?_, fun p b hnone => exec_of_effect rfl (unanswered_idle hnone),
    fun p b f hf hleft => ?_, fun p b f hf hleft => ?_⟩
  · refine ends_of (exec_of_effect rfl (acked_answer hok hf))
      (only_step (only_onLink ..) rfl (only_mono (onFlights_only ..) rfl)) rfl ?_
    obtain ⟨l, hl⟩ := onFlights_link g (fun l => l.filter fun x => !x.same f) s
    refine ⟨?_, ?_, ?_, hothers ((onFlights_atGroup ..).trans (atGroup_onLink ..))⟩
    · exact (settle_flightsOf ..).trans ((flightsOf_onLink rfl).trans (onFlights_flights ..))
    · rw [settle_links, onLink_links, upd_get_self, hl]
    · rw [settle_links, onLink_links, upd_get_self, hl]
  · obtain ⟨honly, hdue, ⟨l, hl⟩, hat⟩ := refused_counted_due (g := g) (s := s)
      (c := fun l => { l with refusals := l.refusals + 1 }) (fun _ => rfl) hleft
    refine ends_of (exec_of_effect rfl (refusal_answer hok hf)) (only_mono honly rfl) rfl ?_
    rw [settle_links, hl]
    exact ⟨(settle_flightsOf ..).trans hdue, rfl, rfl, hothers hat⟩
  · obtain ⟨honly, hgone, ⟨l, planes, hl⟩, hat⟩ := refused_counted_lost (g := g) (s := s)
      (c := fun l => { l with refusals := l.refusals + 1 }) (fun _ => rfl) hleft
    refine ends_of (exec_of_effect rfl (refusal_answer hok hf)) honly rfl ?_
    rw [settle_links, hl]
    exact ⟨(settle_flightsOf ..).trans hgone, rfl, rfl, hothers hat⟩
  · obtain ⟨honly, hdue, ⟨l, hl⟩, hat⟩ := refused_counted_due (g := g) (s := s)
      (c := fun l => { l with timeouts := l.timeouts + 1 }) (fun _ => rfl) hleft
    refine ends_of (exec_of_effect rfl (unanswered_waiting hf)) (only_mono honly rfl) rfl ?_
    rw [settle_links, hl]
    exact ⟨(settle_flightsOf ..).trans hdue, rfl, hothers hat⟩
  · obtain ⟨honly, hgone, ⟨l, planes, hl⟩, hat⟩ := refused_counted_lost (g := g) (s := s)
      (c := fun l => { l with timeouts := l.timeouts + 1 }) (fun _ => rfl) hleft
    refine ends_of (exec_of_effect rfl (unanswered_waiting hf)) honly rfl ?_
    rw [settle_links, hl]
    exact ⟨(settle_flightsOf ..).trans hgone, rfl, rfl, hothers hat⟩

end Sys2Proof.Machine

/-! # Words of an array (R205, R206, R212) -/

namespace Sys2Proof.Machine

/-! ## STATUS (R212, R213) -/

/-- What a STATUS word says of the array, on a head that asks for rx planes. -/
def arrayReport (rx : Nat) (w : BackWord) (l : LinkDyn) : LinkDyn :=
  { l with
    ready := bit w.fields 0
    parked := bit w.fields 1
    fault := bit w.fields 2
    temp := signed 12 (fld w.fields 4 12)
    rxHeld := fld w.fields 16 8
    mismatch := decide (fld w.fields 16 8 < rx) }

/-- The group runs at a rate, and sends from the next LATCH. -/
def trainingEnded (rate : Nat) (l : LinkDyn) : LinkDyn :=
  { l with
    state := 2, step := none, attempt := 0, newRate := some rate, lastRate := rate
    stopping := false, stopped := true, resume := true }

/-- READY falls or FAULT rises against what stood. -/
def arrayFalls (old : LinkDyn) (w : BackWord) : Bool := (old.ready && !bit w.fields 0) || (!old.fault && bit w.fields 2)

/-- READY rises with FAULT clear. -/
def arrayRises (old : LinkDyn) (w : BackWord) : Bool := !old.ready && bit w.fields 0 && !bit w.fields 2

/-- The reaction of a group that runs to what changed. -/
def reaction (old : LinkDyn) (w : BackWord) (l : LinkDyn) : LinkDyn :=
  if l.state < 2 then l
  else if arrayFalls old w then { l with stopping := !l.stopped, resume := false, state := 3 }
  else if arrayRises old w then { l with resume := true, schedKnown := false, state := 2 }
  else l

/-- What a STATUS word makes of the group's record: it is reported, may end a training, and is reacted to. -/
def afterStatus (rx rate : Nat) (w : BackWord) (l : LinkDyn) : LinkDyn :=
  reaction l w (if l.step == some .ready && bit w.fields 0 then trainingEnded rate (arrayReport rx w l) else arrayReport rx w l)

section
variable {old l : LinkDyn} {w : BackWord}

theorem reaction_down (hdown : l.state < 2) : reaction old w l = l := if_pos hdown

theorem reaction_falls (hruns : ¬ l.state < 2) (hfalls : arrayFalls old w = true) :
    reaction old w l = { l with stopping := !l.stopped, resume := false, state := 3 } := by
  rw [reaction, if_neg hruns, if_pos hfalls]

theorem reaction_rises (hruns : ¬ l.state < 2) (hstands : ¬ arrayFalls old w = true) (hrises : arrayRises old w = true) :
    reaction old w l = { l with resume := true, schedKnown := false, state := 2 } := by
  rw [reaction, if_neg hruns, if_neg hstands, if_pos hrises]

theorem reaction_same (hruns : ¬ l.state < 2) (hstands : ¬ arrayFalls old w = true) (hsame : ¬ arrayRises old w = true) :
    reaction old w l = l := by
  rw [reaction, if_neg hruns, if_neg hstands, if_neg hsame]

/-- The reaction leaves what is reported, the step, the rate and the stop that holds. -/
theorem reaction_keeps (old : LinkDyn) (w : BackWord) (l : LinkDyn) : ∃ stopping resume known state,
    reaction old w l = { l with stopping := stopping, resume := resume, schedKnown := known, state := state } := by
  unfold reaction
  repeat' split
  · exact ⟨l.stopping, l.resume, l.schedKnown, l.state, rfl⟩
  · exact ⟨!l.stopped, false, l.schedKnown, 3, rfl⟩
  · exact ⟨l.stopping, true, false, 2, rfl⟩
  · exact ⟨l.stopping, l.resume, l.schedKnown, l.state, rfl⟩

end

section
variable {rx rate : Nat} {w : BackWord} {l : LinkDyn}

theorem afterStatus_reports :
    let n := afterStatus rx rate w l
    n.ready = bit w.fields 0 ∧ n.parked = bit w.fields 1 ∧ n.fault = bit w.fields 2 ∧
      n.temp = signed 12 (fld w.fields 4 12) ∧ n.rxHeld = fld w.fields 16 8 := by
  obtain ⟨a, b, c, d, hkeep⟩ := reaction_keeps l w
    (if l.step == some .ready && bit w.fields 0 then trainingEnded rate (arrayReport rx w l) else arrayReport rx w l)
  rw [afterStatus, hkeep]
  split <;> exact ⟨rfl, rfl, rfl, rfl, rfl⟩

theorem afterStatus_trains (hstep : l.step = some .ready) (hready : bit w.fields 0 = true) :
    let n := afterStatus rx rate w l
    n.step = none ∧ n.newRate = some rate ∧ n.stopped = true := by
  obtain ⟨a, b, c, d, hkeep⟩ := reaction_keeps l w (trainingEnded rate (arrayReport rx w l))
  rw [afterStatus, if_pos (by rw [hstep, hready]; rfl), hkeep]
  exact ⟨rfl, rfl, rfl⟩

/-- Outside the last step of a training a word is reported and reacted to. -/
theorem afterStatus_runs (hstep : l.step ≠ some .ready) : afterStatus rx rate w l = reaction l w (arrayReport rx w l) := by
  rw [afterStatus, if_neg (by simp [hstep])]

theorem afterStatus_falls (hstep : l.step ≠ some .ready) (hruns : 2 ≤ l.state)
    (h : l.ready = true ∧ bit w.fields 0 = false ∨ l.fault = false ∧ bit w.fields 2 = true) :
    let n := afterStatus rx rate w l
    n.state = 3 ∧ n.stopping = !l.stopped ∧ n.stopped = l.stopped ∧ n.resume = false := by
  have hfalls : arrayFalls l w = true := by simpa [arrayFalls] using h
  rw [afterStatus_runs hstep, reaction_falls (l := arrayReport rx w l) (Nat.not_lt.mpr hruns) hfalls]
  exact ⟨rfl, rfl, rfl, rfl⟩

theorem afterStatus_rises (hstep : l.step ≠ some .ready) (hruns : 2 ≤ l.state) (hold : l.ready = false)
    (hready : bit w.fields 0 = true) (hfault : bit w.fields 2 = false) :
    let n := afterStatus rx rate w l
    n.state = 2 ∧ n.resume = true ∧ n.schedKnown = false := by
  have hstands : ¬ arrayFalls l w = true := by simp [arrayFalls, hold, hfault]
  have hrises : arrayRises l w = true := by simp [arrayRises, hold, hready, hfault]
  rw [afterStatus_runs hstep, reaction_rises (l := arrayReport rx w l) (Nat.not_lt.mpr hruns) hstands hrises]
  exact ⟨rfl, rfl, rfl⟩

end

section
variable {h : Head} {w : BackWord} {s : State}

theorem statusWord_idle (hidle : backOk 0x20 w = false ∨ s.links[h].state = 0) : statusWord h w s = s :=
  if_pos (by simpa using hidle)

theorem trained_links (h : Head) (s : State) : (trained h s).links = upd s.links h (trainingEnded (attemptRate h s)) :=
  raise_links ..

theorem trained_link_only (h : Head) (s : State) : Only [.links, .cxl, .ev, .out] (trained h s) s :=
  only_step (raise_link_only ..) rfl (only_mono (only_onLink ..) rfl)

/-- A STATUS word told, where the group is not down. -/
theorem statusWord_heard (hok : backOk 0x20 w = true) (hup : s.links[h].state ≠ 0) :
    (statusWord h w s).links = upd s.links h (afterStatus (rxPlanes s.cfg.heads[h]) (attemptRate h s) w) ∧
      Only [.links, .cxl, .ev, .out] (statusWord h w s) s := by
  unfold statusWord
  rw [if_neg (by simpa [hok] using hup)]
  extract_lets old ready fault rx mis s1 s2 down up s3
  have h1 : s1 = onLink h (arrayReport (rxPlanes s.cfg.heads[h]) w) s := rfl
  have hrate : attemptRate h s1 = attemptRate h s := by rw [h1, attemptRate, onLink_links, upd_get_self]; rfl
  have h2 : s2.links = upd s.links h (fun l => if old.step == some .ready && ready then
      trainingEnded (attemptRate h s) (arrayReport (rxPlanes s.cfg.heads[h]) w l)
      else arrayReport (rxPlanes s.cfg.heads[h]) w l) ∧
      Only [.links, .cxl, .ev, .out] s2 s := by
    unfold s2
    split
    · exact ⟨by rw [trained_links, hrate, h1, onLink_links, upd_upd],
        only_step (trained_link_only ..) rfl (only_mono (only_onLink ..) rfl)⟩
    · exact ⟨rfl, only_mono (only_onLink ..) rfl⟩
  have h3 : s3 = onLink h (reaction old w) s2 := by
    unfold s3
    split
    · next hdown => exact (onLink_of_fixed (reaction_down hdown)).symm
    · next hruns =>
      split
      · next hfalls => exact onLink_congr (reaction_falls hruns hfalls).symm
      · next hstands =>
        split
        · next hrises => exact onLink_congr (reaction_rises hruns hstands hrises).symm
        · next hsame => exact (onLink_of_fixed (reaction_same hruns hstands hsame)).symm
  obtain ⟨hlinks, honly⟩ := h2
  have hdone : s3.links = upd s.links h (afterStatus (rxPlanes s.cfg.heads[h]) (attemptRate h s) w) := by
    rw [h3, onLink_links, hlinks, upd_upd]
    rfl
  have hdoneOnly : Only [.links, .cxl, .ev, .out] s3 s := by
    rw [h3]
    exact only_step (only_onLink ..) rfl honly
  split
  · exact ⟨(raise_links ..).trans hdone, only_step (raise_link_only ..) rfl hdoneOnly⟩
  · exact ⟨hdone, hdoneOnly⟩

/-! ## RESET_DONE and ARRAY_TIMING (R205, R206, R212) -/

theorem resetDoneWord_idle (hidle : backOk 0x21 w = false ∨ s.cfg.heads[h].raster = true ∨ s.links[h].state < 2 ∨
    fld w.fields 7 9 ≠ frameNo s ∨ bit w.fields 16 = true) : resetDoneWord h w s = s :=
  if_pos (by simpa [or_assoc] using hidle)

/-- The plane that a RESET_DONE names counts as dark, where it was not sent so. -/
def countedDark (h : Head) (w : BackWord) (s : State) : State :=
  if s.links[h].dark.contains (fld w.fields 0 7) then s else onHead h (fun d => { d with darkPlanes := d.darkPlanes + 1 }) s

theorem countedDark_heads (h : Head) (w : BackWord) (s : State) : (countedDark h w s).heads[h].darkPlanes =
    s.heads[h].darkPlanes + (!s.links[h].dark.contains (fld w.fields 0 7)).toNat := by
  cases hdark : s.links[h].dark.contains (fld w.fields 0 7)
  · rw [countedDark, if_neg (by rw [hdark]; decide), onHead_heads, upd_get_self]; rfl
  · rw [countedDark, if_pos hdark]; rfl

theorem countedDark_only (h : Head) (w : BackWord) (s : State) : Only [.heads] (countedDark h w s) s :=
  only_ite _ (only_refl _ s) (only_onHead ..)

/-- A plane with a lost block that the array reports incomplete is told, and no longer remembered. -/
def planeLost (h : Head) (w : BackWord) (p : Nat × Nat) (s : State) : State :=
  raise (srcLink h) evLinkPlaneLost (pack [(0, 2, h.val), (8, 7, fld w.fields 0 7), (15, 9, frameNo s), (24, 12, sat 12 p.2)])
    (onLink h (fun l => { l with
      lost := sat 32 (l.lost + 1), lostPlanes := l.lostPlanes.filter fun q => q.1 != fld w.fields 0 7 }) (countedDark h w s))

theorem planeLost_only (p : Nat × Nat) : Only [.heads, .links, .cxl, .ev, .out] (planeLost h w p s) s :=
  only_step (raise_link_only ..) rfl (only_step (only_onLink ..) rfl (only_mono (countedDark_only ..) rfl))

theorem planeLost_links (p : Nat × Nat) : (planeLost h w p s).links = upd s.links h (fun l => { l with
    lost := sat 32 (l.lost + 1), lostPlanes := l.lostPlanes.filter fun q => q.1 != fld w.fields 0 7 }) := by
  have hdark : (countedDark h w s).links = s.links := (countedDark_only ..).same .links rfl
  rw [planeLost, raise_links, onLink_links, hdark]

theorem planeLost_heads (p : Nat × Nat) : (planeLost h w p s).heads[h].darkPlanes =
    s.heads[h].darkPlanes + (!s.links[h].dark.contains (fld w.fields 0 7)).toNat := by
  rw [planeLost, raise_heads, onLink_heads, countedDark_heads]

section
variable (hok : backOk 0x21 w = true) (harr : s.cfg.heads[h].raster = false) (hruns : 2 ≤ s.links[h].state)
  (hframe : fld w.fields 7 9 = frameNo s) (hbroken : bit w.fields 16 = false)
include hok harr hruns hframe hbroken

theorem resetDoneWord_kept (hkept : s.links[h].lostPlanes.find? (fun p => p.1 == fld w.fields 0 7) = none) :
    resetDoneWord h w s = countedDark h w s := by
  unfold resetDoneWord
  rw [if_neg (by simpa [hok, hframe, hbroken] using ⟨harr, hruns⟩), hkept]
  rfl

theorem resetDoneWord_lost {p : Nat × Nat} (hlost : s.links[h].lostPlanes.find? (fun p => p.1 == fld w.fields 0 7) = some p) :
    resetDoneWord h w s = planeLost h w p s := by
  unfold resetDoneWord
  rw [if_neg (by simpa [hok, hframe, hbroken] using ⟨harr, hruns⟩), hlost]
  rfl

end

theorem arrayLate_idle {p : Nat} {missing : Bool}
    (hidle : s.links[h].timingRaised = true ∨ s.links[h].state < 2 ∨ s.cfg.heads[h].raster = true) :
    arrayLate h p missing s = s :=
  if_pos (by simpa [or_assoc] using hidle)

/-- ARRAY_TIMING is raised and noted for the tick. -/
def timingTold (h : Head) (p : Nat) (missing : Bool) (s : State) : State :=
  raise (srcLink h) evArrayTiming (pack [(0, 2, h.val), (8, 7, p), (15, 1, missing.toNat)])
    (onLink h (fun l => { l with timingRaised := true }) s)

theorem arrayLate_first (p : Nat) (missing : Bool) (hfirst : s.links[h].timingRaised = false) (hruns : 2 ≤ s.links[h].state)
    (harr : s.cfg.heads[h].raster = false) : arrayLate h p missing s = timingTold h p missing s :=
  if_neg (by simpa using ⟨⟨hfirst, hruns⟩, harr⟩)

end

/-- Settles O26: a STATUS word by what it makes of the group's record, the others by the one event that they raise. -/
theorem arrayWordsAct : Obligations.ArrayWordsAct := by
  unfold Obligations.ArrayWordsAct
  intro h w s l f plane
  refine ⟨fun hidle => exec_of_effect rfl (statusWord_idle hidle), fun hok hup => ?_,
    fun hidle => exec_of_effect rfl (resetDoneWord_idle hidle), fun hok harr hruns hframe hbroken => ⟨fun hkept hdark => ?_,
    fun hkept hlit => ?_, fun p hlost => ?_⟩, fun p missing hidle => exec_of_effect rfl (arrayLate_idle hidle),
    fun p missing hfirst hruns harr => ?_⟩
  · obtain ⟨hlinks, honly⟩ := statusWord_heard hok hup
    refine ends_of rfl honly rfl ?_
    obtain ⟨hready, hparked, hfault, htemp, hrx⟩ :=
      afterStatus_reports (rx := rxPlanes s.cfg.heads[h]) (rate := attemptRate h s) (w := w) (l := l)
    rw [settle_links, hlinks, upd_get_self]
    exact ⟨hready, hparked, hfault, htemp, hrx, fun k hk => upd_get_ne _ _ hk,
      fun hstep hruns => ⟨afterStatus_falls hstep hruns, afterStatus_rises hstep hruns⟩, afterStatus_trains⟩
  · have hkeeps := resetDoneWord_kept hok harr hruns hframe hbroken hkept
    exact exec_of_effect rfl (hkeeps.trans (if_pos hdark))
  · have hkeeps := resetDoneWord_kept hok harr hruns hframe hbroken hkept
    exact exec_of_effect rfl (hkeeps.trans (if_neg (Bool.eq_false_iff.mp hlit)))
  · refine ends_of (exec_of_effect rfl (resetDoneWord_lost hok harr hruns hframe hbroken hlost)) (planeLost_only p) rfl ?_
    rw [settle_links, settle_heads, planeLost_links, upd_get_self]
    exact ⟨rfl, rfl, planeLost_heads p⟩
  · refine ends_of (exec_of_effect rfl (arrayLate_first p missing hfirst hruns harr))
      (only_step (raise_link_only ..) rfl (only_mono (only_onLink ..) rfl)) rfl ?_
    rw [settle_links, timingTold, raise_links, onLink_links, upd_get_self]

end Sys2Proof.Machine

/-! # Failures of a link (R194, R212, R215, R217 to R219, R329) -/

namespace Sys2Proof.Machine

/-! ## A group goes down (R215) -/

theorem groupFails_idle {g : Head} {cause lane : Nat} {s : State} (h : s.links[g].state < 2) : groupFails g cause lane s = s :=
  if_neg (Nat.not_le.mpr h)

theorem groupFails_runs {g : Head} {cause lane : Nat} {s : State} (h : 2 ≤ s.links[g].state) :
    groupFails g cause lane s = groupDown g cause lane s := if_pos h

section
variable (g : Head) (cause lane : Nat) (s : State)

theorem groupDown_link_only : Only [.links, .rasters, .cxl, .ev, .out] (groupDown g cause lane s) s :=
  only_step (raise_link_only ..) rfl (only_step (only_onRaster ..) rfl (only_mono (only_onLink ..) rfl))

theorem groupDown_atGroup : AtGroup g s (groupDown g cause lane s) :=
  ((atGroup_onLink ..).trans (atGroup_onRaster ..)).trans (atGroup_of_only g (raise_link_only ..) rfl)

/-- The group that is down asks for training, and nothing of it is in flight. -/
theorem groupDown_group :
    let t := groupDown g cause lane s
    t.links[g].state = 0 ∧ t.links[g].wanted = true ∧ t.links[g].stopped = true ∧ t.links[g].flights = [] ∧
      t.rasters[g].flights = [] ∧ t.links[g].rateNow = 0 ∧ t.links[g].attempt = 0 := by
  intro t
  have hlinks : t.links = _ := raise_links ..
  have hrasters : t.rasters = _ := raise_rasters ..
  rw [hlinks, hrasters, onRaster_links, onRaster_rasters, onLink_links, upd_get_self, upd_get_self]
  exact ⟨rfl, rfl, rfl, rfl, rfl, rfl, rfl⟩

end

/-! ## A block that fails its read-back (R217, R219) -/

/-- LINK_READBACK_FAIL's payload of a block. -/
def blockFailWord (h : Head) (lane : Fin 8) (p b : Nat) (s : State) : Nat :=
  readbackWord h lane (if s.cfg.heads[h].raster then b == 0xFFF || windowPacket s h b p else windowBlock s h b) false b p

/-- The failure is counted and told. -/
def blockFailed (h : Head) (lane : Fin 8) (p b : Nat) (s : State) : State :=
  raise (srcLink h) evLinkReadbackFail (blockFailWord h lane p b s)
    (onLink h (fun l => { l with badBlocks := l.badBlocks + 1 }) s)

/-- A flight is block b of plane p. -/
def isBlock (p b : Nat) (f : Flight) : Bool := f.plane == p && f.block == b

/-- An acknowledgement is taken back: the block is in flight again (R219). -/
def takenBack (h : Head) (p b : Nat) (f : Flight) (s : State) : State :=
  onFlights h (fun l => f :: l) (onLink h (fun l => { l with acked := l.acked.filter fun x => !isBlock p b x }) s)

section
variable {h : Head} {p b : Nat} {s : State} {f : Flight}

theorem readbackBlock_waiting (lane : Fin 8) (hf : (flightsOf s h).find? (fun f => f.waiting && isBlock p b f) = some f) :
    readbackBlock h lane p b s = refused h f (blockFailed h lane p b s) := by
  unfold isBlock at hf
  simp only [readbackBlock, hf]
  rfl

theorem readbackBlock_acked (lane : Fin 8) (hnone : (flightsOf s h).find? (fun f => f.waiting && isBlock p b f) = none)
    (hf : s.links[h].acked.find? (isBlock p b) = some f) :
    readbackBlock h lane p b s = refused h f (takenBack h p b f (blockFailed h lane p b s)) := by
  unfold isBlock at hnone hf
  simp only [readbackBlock, hnone, hf]
  rfl

theorem readbackBlock_unknown (lane : Fin 8) (hnone : (flightsOf s h).find? (fun f => f.waiting && isBlock p b f) = none)
    (hf : s.links[h].acked.find? (isBlock p b) = none) : readbackBlock h lane p b s = blockFailed h lane p b s := by
  unfold isBlock at hnone hf
  simp only [readbackBlock, hnone, hf]
  rfl

theorem blockFailed_links (h : Head) (lane : Fin 8) (p b : Nat) (s : State) :
    (blockFailed h lane p b s).links = upd s.links h (fun l => { l with badBlocks := l.badBlocks + 1 }) := raise_links ..

theorem blockFailed_atGroup (h : Head) (lane : Fin 8) (p b : Nat) (s : State) : AtGroup h s (blockFailed h lane p b s) :=
  atGroup_of_links (blockFailed_links ..) (raise_rasters ..)

theorem blockFailed_flightsOf (h : Head) (lane : Fin 8) (p b : Nat) (s : State) :
    flightsOf (blockFailed h lane p b s) h = flightsOf s h := by
  rw [blockFailed, flightsOf_raise, flightsOf_onLink rfl]

theorem takenBack_atGroup (h : Head) (p b : Nat) (f : Flight) (s : State) : AtGroup h s (takenBack h p b f s) :=
  (atGroup_onLink ..).trans (onFlights_atGroup ..)

theorem takenBack_flightsOf (h : Head) (p b : Nat) (f : Flight) (s : State) :
    flightsOf (takenBack h p b f s) h = f :: flightsOf s h := by
  rw [takenBack, onFlights_flights, flightsOf_onLink rfl]

theorem takenBack_link (h : Head) (p b : Nat) (f : Flight) (s : State) : ∃ l, (takenBack h p b f s).links[h] =
    { s.links[h] with flights := l, acked := s.links[h].acked.filter fun x => !isBlock p b x } := by
  obtain ⟨l, hl⟩ := onFlights_link h (fun l => f :: l)
    (onLink h (fun l => { l with acked := l.acked.filter fun x => !isBlock p b x }) s)
  exact ⟨l, by rw [takenBack, hl, onLink_links, upd_get_self]⟩

/-- Of the group's record a failed block counts, and moves flights, acknowledgements and losses. -/
theorem readbackBlock_link (h : Head) (lane : Fin 8) (p b : Nat) (s : State) : ∃ l a planes n,
    (readbackBlock h lane p b s).links[h] = { s.links[h] with
      badBlocks := s.links[h].badBlocks + 1, flights := l, acked := a, lostPlanes := planes, blocksLost := n } := by
  have hcount := blockFailed_links h lane p b s
  cases hwait : (flightsOf s h).find? (fun f => f.waiting && isBlock p b f) with
  | some f =>
    obtain ⟨l, planes, n, hl⟩ := refused_link h f (blockFailed h lane p b s)
    exact ⟨l, s.links[h].acked, planes, n, by rw [readbackBlock_waiting lane hwait, hl, hcount, upd_get_self]⟩
  | none =>
    cases hacked : s.links[h].acked.find? (isBlock p b) with
    | some f =>
      obtain ⟨l, planes, n, hl⟩ := refused_link h f (takenBack h p b f (blockFailed h lane p b s))
      obtain ⟨l', hl'⟩ := takenBack_link h p b f (blockFailed h lane p b s)
      exact ⟨l, _, planes, n, by rw [readbackBlock_acked lane hwait hacked, hl, hl', hcount, upd_get_self]⟩
    | none =>
      exact ⟨s.links[h].flights, s.links[h].acked, s.links[h].lostPlanes, s.links[h].blocksLost, by
        rw [readbackBlock_unknown lane hwait hacked, hcount, upd_get_self]⟩

theorem readbackBlock_atGroup (h : Head) (lane : Fin 8) (p b : Nat) (s : State) : AtGroup h s (readbackBlock h lane p b s) := by
  have htold := blockFailed_atGroup h lane p b s
  cases hwait : (flightsOf s h).find? (fun f => f.waiting && isBlock p b f) with
  | some f => rw [readbackBlock_waiting lane hwait]; exact htold.trans (refused_atGroup ..)
  | none =>
    cases hacked : s.links[h].acked.find? (isBlock p b) with
    | some f =>
      rw [readbackBlock_acked lane hwait hacked]
      exact (htold.trans (takenBack_atGroup ..)).trans (refused_atGroup ..)
    | none => rw [readbackBlock_unknown lane hwait hacked]; exact htold

/-- A block that waits for its answer counts as refused. -/
theorem readbackBlock_due (lane : Fin 8) (hf : (flightsOf s h).find? (fun f => f.waiting && isBlock p b f) = some f)
    (hleft : f.resends < 3) : flightsOf (readbackBlock h lane p b s) h = dueAgain f (flightsOf s h) := by
  rw [readbackBlock_waiting lane hf, refused_due hleft, onFlights_flights, blockFailed_flightsOf]

/-- A block that has been acknowledged is due for re-sending, and acknowledged no more. -/
theorem readbackBlock_unacked (lane : Fin 8) (hnone : (flightsOf s h).find? (fun f => f.waiting && isBlock p b f) = none)
    (hf : s.links[h].acked.find? (isBlock p b) = some f) (hleft : f.resends < 3) :
    { f with waiting := false } ∈ flightsOf (readbackBlock h lane p b s) h ∧
      (readbackBlock h lane p b s).links[h].acked = s.links[h].acked.filter fun x => !isBlock p b x := by
  rw [readbackBlock_acked lane hnone hf, refused_due hleft]
  constructor
  · rw [onFlights_flights, takenBack_flightsOf]
    have hsame : f.same f = true := by simp [Flight.same]
    exact List.mem_map.mpr ⟨f, List.mem_cons_self, by rw [if_pos hsame]⟩
  · obtain ⟨l, hl⟩ := onFlights_link h (dueAgain f) (takenBack h p b f (blockFailed h lane p b s))
    obtain ⟨l', hl'⟩ := takenBack_link h p b f (blockFailed h lane p b s)
    rw [hl, hl', blockFailed_links, upd_get_self]

end

/-! ## A control word that fails its read-back (R217, R329) -/

/-- SYNC and SCHED words carry a frame's timing. -/
def carriesTiming : CtrlWord → Bool
  | .sched _ | .sync => true
  | _ => false

theorem carriesTiming_iff (c : CtrlWord) : carriesTiming c = true ↔ c = .sync ∨ ∃ e, c = .sched e := by
  cases c <;> simp [carriesTiming]

/-- The failure is told, and that of a timing word noted. -/
def wordFailed (h : Head) (lane : Fin 8) (c : CtrlWord) (s : State) : State :=
  let s1 := raise (srcLink h) evLinkReadbackFail (readbackWord h lane (carriesTiming c) true 0 0) s
  if carriesTiming c then onLink h (fun l => { l with retried := (lane, c) :: l.retried }) s1 else s1

section
variable {h : Head} {lane : Fin 8} {c : CtrlWord} {s : State}

theorem readbackCtrl_again (done : Nat) (htiming : carriesTiming c = true)
    (hagain : s.links[h].retried.contains (lane, c) = true) :
    readbackCtrl h lane c done s = resendWord h lane c done (windowLoss 9 h 0 0 (wordFailed h lane c s)) := by
  have hboth : (s.links[h].retried.contains (lane, c) && carriesTiming c) = true := by rw [hagain, htiming]; rfl
  exact congrArg (resendWord h lane c done) (if_pos hboth)

theorem readbackCtrl_first (done : Nat) (hfirst : ¬ carriesTiming c = true ∨ s.links[h].retried.contains (lane, c) = false) :
    readbackCtrl h lane c done s = resendWord h lane c done (wordFailed h lane c s) := by
  have hnot : ¬ (s.links[h].retried.contains (lane, c) && carriesTiming c) = true := by
    rw [Bool.and_eq_true]
    rintro ⟨hagain, htiming⟩
    rcases hfirst with hplain | hnew
    · exact hplain htiming
    · exact Bool.false_ne_true (hnew.symm.trans hagain)
  exact congrArg (resendWord h lane c done) (if_neg hnot)

theorem resendWord_scrambles (h : Head) (lane : Fin 8) (c : CtrlWord) (done : Nat) (s : State) :
    Scrambles h s (resendWord h lane c done s) := by
  cases c <;> exact laneCtrl_scrambles ..

theorem wordFailed_only : Only [.links, .cxl, .ev, .out] (wordFailed h lane c s) s :=
  only_ite _ (only_step (only_onLink ..) rfl (only_mono (raise_link_only ..) rfl)) (only_mono (raise_link_only ..) rfl)

theorem wordFailed_links (h : Head) (lane : Fin 8) (c : CtrlWord) (s : State) : (wordFailed h lane c s).links =
    upd s.links h (fun l => { l with retried := if carriesTiming c then (lane, c) :: l.retried else l.retried }) := by
  unfold wordFailed
  cases carriesTiming c
  · exact (raise_links ..).trans (upd_of_fixed rfl).symm
  · dsimp only
    rw [if_pos rfl, onLink_links, raise_links]
    rfl

/-- Of the links a failed control word changes the group's scramblers and what is noted of its timing words. -/
theorem readbackCtrl_links (h : Head) (lane : Fin 8) (c : CtrlWord) (done : Nat) (s : State) : ∃ v,
    (readbackCtrl h lane c done s).links = upd s.links h (fun l => { l with
      scram := v, retried := if carriesTiming c then (lane, c) :: l.retried else l.retried }) := by
  by_cases htwice : carriesTiming c = true ∧ s.links[h].retried.contains (lane, c) = true
  · obtain ⟨htiming, hagain⟩ := htwice
    obtain ⟨v, hv⟩ := resendWord_scrambles h lane c done (windowLoss 9 h 0 0 (wordFailed h lane c s))
    have hloss : (windowLoss 9 h 0 0 (wordFailed h lane c s)).links = (wordFailed h lane c s).links :=
      (windowLoss_only ..).same .links rfl
    exact ⟨v, by rw [readbackCtrl_again done htiming hagain, hv, hloss, wordFailed_links, upd_upd]⟩
  · obtain ⟨v, hv⟩ := resendWord_scrambles h lane c done (wordFailed h lane c s)
    have hfirst : ¬ carriesTiming c = true ∨ s.links[h].retried.contains (lane, c) = false := by
      cases hagain : s.links[h].retried.contains (lane, c) with
      | false => exact .inr rfl
      | true => exact .inl fun htiming => htwice ⟨htiming, hagain⟩
    exact ⟨v, by rw [readbackCtrl_first done hfirst, hv, wordFailed_links, upd_upd]⟩

end

/-! ### The window is lost (R329, R341) -/

/-- The head is dark by a latched fault. -/
structure DarkByFault (h : Head) (y : SafetyDyn) : Prop where
  headDark : y.headDark.getLsbD h.val = true
  latched : y.latched = true
  safeN : y.safeN = true

theorem safeReact_safety (m : Nat) (hd : Option Head) (toDark restartable : Bool) (s : State) :
    let y := (safeReact m hd toDark restartable s).safety
    (y.headDark = match hd with
      | some h => s.safety.headDark ||| headBit h
      | none => s.safety.headDark) ∧
    y.latched = (s.safety.latched || (!restartable || (!(m == 14) && recentRestart s))) ∧ y.safeN = true := by
  cases hd <;> cases toDark <;> exact ⟨rfl, rfl, rfl⟩

theorem headBit_self (h : Head) : (headBit h).getLsbD h.val = true := by
  revert h
  decide

/-- The reaction of a latched fault that is tied to a head. -/
theorem safeReact_tied (m : Nat) (h : Head) (toDark : Bool) (s : State) :
    DarkByFault h (safeReact m (some h) toDark false s).safety := by
  obtain ⟨hdark, hlatched, hpin⟩ := safeReact_safety m (some h) toDark false s
  exact ⟨by rw [hdark, BitVec.getLsbD_or, headBit_self, Bool.or_true], by rw [hlatched]; simp, hpin⟩

/-- A further reaction leaves a head dark. -/
theorem DarkByFault.safeReact {h : Head} {s : State} (hs : DarkByFault h s.safety) (m : Nat) (hd : Option Head)
    (toDark restartable : Bool) : DarkByFault h (safeReact m hd toDark restartable s).safety := by
  obtain ⟨hdark, hlatched, hpin⟩ := safeReact_safety m hd toDark restartable s
  refine ⟨?_, by rw [hlatched, hs.latched, Bool.true_or], hpin⟩
  rw [hdark]
  split
  · rw [BitVec.getLsbD_or, hs.headDark, Bool.true_or]
  · exact hs.headDark

/-- So does an event, even one that finds the store full (R392). -/
theorem DarkByFault.raise {h : Head} {s : State} (hs : DarkByFault h s.safety) (src : Nat) (code : BitVec 16) (p : Nat) :
    DarkByFault h (raise src code p s).safety := by
  have hrecord (x : State) : (record src code p x).safety = x.safety := (record_only ..).same .safety rfl
  unfold Machine.raise
  extract_lets s0
  have h0 : s0.safety = s.safety := by
    unfold s0
    split
    · exact (signal_only ..).same .safety rfl
    · rfl
  have hfull : DarkByFault h (storeFull s0).safety := by
    unfold storeFull
    split
    · rwa [h0]
    · extract_lets latched s1
      have hmark : DarkByFault h (onSafety (fun y => { y with storeFull := true }) s0).safety := by
        rw [onSafety_safety, h0]
        exact ⟨hs.headDark, hs.latched, hs.safeN⟩
      exact hmark.safeReact 15 none true true
  repeat' split
  all_goals simp only [hrecord, onEv_safety, h0, hs, hfull]

theorem windowLoss_darkByFault (m : Nat) (h : Head) (colour rho : Nat) (s : State) :
    DarkByFault h (windowLoss m h colour rho s).safety := by
  unfold windowLoss safetyFault
  extract_lets latched s1 s2
  have h2 : DarkByFault h s2.safety := (safeReact_tied m h false s).raise ..
  split
  · exact h2
  · exact h2.raise ..

theorem readbackCtrl_darkByFault {h : Head} {lane : Fin 8} {c : CtrlWord} {s : State} (done : Nat)
    (htiming : carriesTiming c = true) (hagain : s.links[h].retried.contains (lane, c) = true) :
    DarkByFault h (readbackCtrl h lane c done s).safety := by
  have hsend (x : State) : (resendWord h lane c done x).safety = x.safety := (resendWord_only ..).same .safety rfl
  rw [readbackCtrl_again done htiming hagain, hsend]
  exact windowLoss_darkByFault ..

/-! ## A mismatch is counted (R217) -/

/-- The counts of a group's mismatches. -/
def mismatchCounted (l : LinkDyn) : LinkDyn := { l with mismatches := l.mismatches + 1, readback := sat 32 (l.readback + 1) }

theorem readback_block (h : Head) (lane : Fin 8) (p b : Nat) (s : State) :
    readback h lane (.block p b) s = readbackBlock h lane p b (onLink h mismatchCounted s) := rfl

theorem readback_control (h : Head) (lane : Fin 8) (c : CtrlWord) (done : Nat) (s : State) :
    readback h lane (.control c done) s = readbackCtrl h lane c done (onLink h mismatchCounted s) := rfl

theorem readback_counts (h : Head) (lane : Fin 8) (r : Readback) (s : State) :
    let t := readback h lane r s
    t.links[h].mismatches = s.links[h].mismatches + 1 ∧ t.links[h].readback = sat 32 (s.links[h].readback + 1) ∧
      ∀ k, k ≠ h → t.links[k] = s.links[k] := by
  have hcount := atGroup_onLink h mismatchCounted s
  cases r with
  | block p b =>
    obtain ⟨l, a, planes, n, hl⟩ := readbackBlock_link h lane p b (onLink h mismatchCounted s)
    rw [readback_block]
    dsimp only
    rw [hl, onLink_links, upd_get_self]
    exact ⟨rfl, rfl, (hcount.trans (readbackBlock_atGroup ..)).links⟩
  | control c done =>
    obtain ⟨v, hv⟩ := readbackCtrl_links h lane c done (onLink h mismatchCounted s)
    rw [readback_control]
    dsimp only
    rw [hv, onLink_links, upd_upd, upd_get_self]
    exact ⟨rfl, rfl, fun k hk => upd_get_ne _ _ hk⟩

/-- Outside a second failure of a timing word, a mismatch on a control word stays with the link. -/
theorem readbackCtrl_first_only {h : Head} {lane : Fin 8} {c : CtrlWord} {s : State} (done : Nat)
    (hfirst : ¬ carriesTiming c = true ∨ s.links[h].retried.contains (lane, c) = false) :
    Only [.links, .cxl, .ev, .out] (readbackCtrl h lane c done s) s := by
  rw [readbackCtrl_first done hfirst]
  exact only_step (resendWord_only ..) rfl wordFailed_only

end Sys2Proof.Machine

/-! # Training (R213 to R215) -/

namespace Sys2Proof.Machine

/-! ## An attempt fails (R215) -/

section
variable {g : Head} {s : State}

theorem attemptFails_again (lane : Nat) (hmore : s.links[g].attempt + 1 < (policy s.cfg.links[g].rateMax).length) :
    attemptFails g lane s =
      onLink g (fun l => { l with state := 0, step := none, attempt := l.attempt + 1, wanted := true }) s :=
  if_pos hmore

theorem attemptFails_last (lane : Nat) (hlast : (policy s.cfg.links[g].rateMax).length ≤ s.links[g].attempt + 1) :
    attemptFails g lane s = raise (srcLink g) evLinkDown (linkDownWord g 3 lane)
      (onLink g (fun l => { l with
        state := 0, step := none, attempt := 0, wanted := false, retryTick := some (s.clk.tick + 64) }) s) :=
  if_neg (Nat.not_lt.mpr hlast)

theorem attemptFails_link_only (g : Head) (lane : Nat) (s : State) : Only [.links, .cxl, .ev, .out] (attemptFails g lane s) s :=
  only_ite _ (only_mono (only_onLink ..) rfl) (only_step (raise_link_only ..) rfl (only_mono (only_onLink ..) rfl))

/-- Whichever attempt it was, the group is down and trains no more; what the training has found stands. -/
theorem attemptFails_links (g : Head) (lane : Nat) (s : State) : ∃ a w r, (attemptFails g lane s).links =
    upd s.links g (fun l => { l with state := 0, step := none, attempt := a, wanted := w, retryTick := r }) := by
  rcases Nat.lt_or_ge (s.links[g].attempt + 1) (policy s.cfg.links[g].rateMax).length with hmore | hlast
  · exact ⟨s.links[g].attempt + 1, true, s.links[g].retryTick, by
      rw [attemptFails_again lane hmore, onLink_links]
      exact upd_congr rfl⟩
  · exact ⟨0, false, some (s.clk.tick + 64), by rw [attemptFails_last lane hlast, raise_links]; rfl⟩

theorem stepTimeout_idle (hidle : s.links[g].step = none) : stepTimeout g s = s := by
  simp only [stepTimeout, hidle]

/-- A step that does not end in its time fails the attempt, for one lane where one is the cause. -/
theorem stepTimeout_fails (hstep : s.links[g].step.isSome = true) : ∃ lane, stepTimeout g s = attemptFails g lane s := by
  obtain ⟨step, hstep⟩ := Option.isSome_iff_exists.mp hstep
  cases step <;> simp only [stepTimeout, hstep] <;> exact ⟨_, rfl⟩

theorem retrainRetry_early (hearly : ∀ n, s.links[g].retryTick = some n → s.clk.tick < n) : retrainRetry g s = s := by
  unfold retrainRetry
  split
  · next n hn => exact if_neg (Nat.not_le.mpr (hearly n hn))
  · rfl

theorem retrainRetry_due {n : Nat} (hn : s.links[g].retryTick = some n) (hdue : n ≤ s.clk.tick) :
    retrainRetry g s = onLink g (fun l => { l with retryTick := none, wanted := true }) s := by
  simp only [retrainRetry, hn, if_pos hdue]

end

/-! ## TRAIN words (R213, R499) -/

/-- The taps of a lane after a word's requests. -/
def tuned (w : BackWord) (t : Nat × Nat) : Nat × Nat := (ffeStep 13 (fld w.fields 4 2) t.1, ffeStep 25 (fld w.fields 6 2) t.2)

/-- The lane that a TRAIN word names. -/
def trainLane (w : BackWord) : Fin 8 := Fin.ofNat 8 (fld w.fields 0 3)

/-- A mask with the named lane in it where the word's bit says so. -/
def laneNoted (w : BackWord) (i : Nat) (m : BitVec 8) : BitVec 8 :=
  if bit w.fields i then m ||| BitVec.ofNat 8 (2 ^ (trainLane w).val) else m

/-- The word's requests are followed, and its lane noted where it is equalised. -/
def equalised (w : BackWord) (l : LinkDyn) : LinkDyn :=
  { l with ffe := upd l.ffe (trainLane w) (tuned w), eqDone := laneNoted w 8 l.eqDone }

/-- A step, or the next one once all lanes are there. -/
def stepOnceAll (m : BitVec 8) (now next : TrainStep) : Option TrainStep := if allLanes m then some next else some now

theorem stepOnceAll_next_iff {m : BitVec 8} {now next : TrainStep} (h : now ≠ next) :
    stepOnceAll m now next = some next ↔ m = BitVec.allOnes 8 := by
  rw [← beq_iff_eq (a := m), stepOnceAll]
  split
  · next hall => exact iff_of_true rfl hall
  · next hmiss => exact iff_of_false (by simpa using h) hmiss

section
variable {g : Head} {w : BackWord} {s : State}

theorem sendEchoes_scrambles (g : Head) (s : State) : Scrambles g s (sendEchoes g s) :=
  scrambles_forEach (fun k => scrambles_forEach (fun _ => laneCtrl_scrambles g k _) _) _ s

theorem trainWord_idle (hidle : backOk 0x31 w = false ∨ s.links[g].state = 0) : trainWord g w s = s :=
  if_pos (by simpa using hidle)

section
variable (hok : backOk 0x31 w = true) (hup : s.links[g].state ≠ 0)
include hok hup

theorem trainWord_lock (hstep : s.links[g].step = some .lock) : (trainWord g w s).links = upd s.links g (fun l => { l with
    locked := laneNoted w 3 l.locked, step := stepOnceAll (laneNoted w 3 l.locked) .lock .equalise }) := by
  unfold trainWord
  rw [if_neg (by simpa [hok] using hup)]
  simp only [hstep]
  have hnoted : (if bit w.fields 3 then
      onLink g (fun l => { l with locked := l.locked ||| BitVec.ofNat 8 (2 ^ (trainLane w).val) }) s else s) = onLink g (fun l => { l with locked := laneNoted w 3 l.locked }) s := by
    unfold laneNoted
    split
    · rfl
    · exact (onLink_of_fixed rfl).symm
  unfold trainLane at hnoted
  rw [hnoted, onLink_links, upd_get_self]
  split
  · next hall =>
    rw [onLink_links, onLink_links, upd_upd]
    exact upd_congr (by rw [stepOnceAll, if_pos hall])
  · next hmiss =>
    rw [onLink_links]
    exact upd_congr (by rw [stepOnceAll, if_neg hmiss, ← hstep])

theorem trainWord_equalise (hstep : s.links[g].step = some .equalise) : ∃ v, (trainWord g w s).links =
    upd s.links g (fun l => { equalised w l with
      step := stepOnceAll (equalised w l).eqDone .equalise .echo, scram := v }) := by
  unfold trainWord
  rw [if_neg (by simpa [hok] using hup)]
  simp only [hstep]
  have hnoted : onLink g (fun l => { l with
      ffe := upd l.ffe (trainLane w) (tuned w)
      eqDone := if bit w.fields 8 then l.eqDone ||| BitVec.ofNat 8 (2 ^ (trainLane w).val) else l.eqDone }) s =
        onLink g (equalised w) s := rfl
  unfold trainLane tuned at hnoted
  rw [hnoted, onLink_links, upd_get_self]
  split
  · next hall =>
    obtain ⟨v, hv⟩ := sendEchoes_scrambles g (onLink g (fun l => { l with step := some .echo }) (onLink g (equalised w) s))
    refine ⟨v, ?_⟩
    rw [hv, onLink_links, onLink_links, upd_upd, upd_upd]
    exact upd_congr (by rw [stepOnceAll, if_pos hall])
  · next hmiss =>
    obtain ⟨v, hv⟩ := laneCtrl_scrambles g (trainLane w) _ (onLink g (equalised w) s)
    refine ⟨v, hv.trans ?_⟩
    rw [onLink_links, upd_upd]
    exact upd_congr (by rw [stepOnceAll, if_neg hmiss, ← hstep, equalised])

/-- In the later steps, and after the training, FFE requests are followed all the same (R214). -/
theorem trainWord_later (hlock : s.links[g].step ≠ some .lock) (heq : s.links[g].step ≠ some .equalise) :
    trainWord g w s = onLink g (fun l => { l with ffe := upd l.ffe (trainLane w) (tuned w) }) s := by
  unfold trainWord
  rw [if_neg (by simpa [hok] using hup)]
  dsimp only
  split
  · next h => exact absurd h hlock
  · next h => exact absurd h heq
  · rfl


/-- After the lock step the requests are followed, and the equalising step ends once every lane is equalised. -/
theorem trainWord_tunes (hlock : s.links[g].step ≠ some .lock) : ∃ e n v,
    (trainWord g w s).links = upd s.links g (fun l => { l with
      ffe := upd l.ffe (trainLane w) (tuned w), eqDone := e, step := n, scram := v }) ∧
    (s.links[g].step = some .equalise → (n = some .echo ↔ e = BitVec.allOnes 8)) := by
  by_cases hstep : s.links[g].step = some .equalise
  · obtain ⟨v, hv⟩ := trainWord_equalise hok hup hstep
    exact ⟨_, _, v, hv.trans (upd_congr rfl), fun _ => stepOnceAll_next_iff (by decide)⟩
  · refine ⟨s.links[g].eqDone, s.links[g].step, s.links[g].scram, ?_, fun h => absurd h hstep⟩
    rw [trainWord_later hok hup hlock hstep, onLink_links]
    exact upd_congr rfl

end
end

/-! ## ECHO replies (R213) -/

/-- The lane that a reply's TAG names (log entry 70). -/
def echoLane (w : BackWord) : Fin 8 := Fin.ofNat 8 (fld w.fields 0 13 / 16)

/-- A reply that counts for nothing: wrong, out of its step, of no lane, or heard before. -/
def EchoIgnored (g : Head) (w : BackWord) (s : State) : Prop :=
  backOk 0x30 w = false ∨ s.links[g].step ≠ some .echo ∨ 128 ≤ fld w.fields 0 13 ∨
    s.links[g].echoes[echoLane w].getLsbD (fld w.fields 0 13 % 16) = true

/-- A reply is noted, and its travel time added. -/
def echoHeard (roundTrip : Nat) (w : BackWord) (l : LinkDyn) : LinkDyn :=
  { l with
    echoes := upd l.echoes (echoLane w) (fun m => m ||| BitVec.ofNat 16 (2 ^ (fld w.fields 0 13 % 16)))
    delaySum := upd l.delaySum (echoLane w) (fun n => n + (roundTrip - fld w.fields 13 16)) }

/-- With its last reply a lane's delay is known. -/
def echoMeasured (roundTrip : Nat) (w : BackWord) (l : LinkDyn) : LinkDyn :=
  { echoHeard roundTrip w l with
    delays := l.delays.set (echoLane w) (divRound (echoHeard roundTrip w l).delaySum[echoLane w] 32) }

/-- The next step, once every lane's replies are heard. -/
def onceAllHeard (l : LinkDyn) : LinkDyn :=
  if (allFin 8).all fun k => l.echoes[k] == BitVec.allOnes 16 then
    { l with step := some .ready, dlMax := maxOf l.delays.toList id }
  else l

section
variable {g : Head} {r : Nat} {w : BackWord} {s : State}

theorem echoHeard_echoes (r : Nat) (w : BackWord) (l : LinkDyn) : (echoHeard r w l).echoes[echoLane w] =
    l.echoes[echoLane w] ||| BitVec.ofNat 16 (2 ^ (fld w.fields 0 13 % 16)) := upd_get_self ..

theorem echoHeard_delaySum (r : Nat) (w : BackWord) (l : LinkDyn) : (echoHeard r w l).delaySum[echoLane w] =
    l.delaySum[echoLane w] + (r - fld w.fields 13 16) := upd_get_self ..

theorem echoMeasured_delays (r : Nat) (w : BackWord) (l : LinkDyn) : (echoMeasured r w l).delays[echoLane w] =
    divRound (l.delaySum[echoLane w] + (r - fld w.fields 13 16)) 32 := by
  rw [← echoHeard_delaySum]
  exact Vector.getElem_set_self ..

theorem onceAllHeard_keeps (l : LinkDyn) : ∃ n d, onceAllHeard l = { l with step := n, dlMax := d } ∧
    (l.step = some .echo → n = some .echo ∨ n = some .ready) := by
  unfold onceAllHeard
  split
  · exact ⟨some .ready, _, rfl, fun _ => .inr rfl⟩
  · exact ⟨l.step, l.dlMax, rfl, .inl⟩

theorem echoWord_ignored (r : Nat) (h : EchoIgnored g w s) : echoWord g r w s = s :=
  if_pos (by simpa [EchoIgnored, echoLane, or_assoc] using h)

section
variable (h : ¬ EchoIgnored g w s)
include h

/-- A reply that counts is noted; with the lane's last one its delay is judged. -/
theorem echoWord_counts : echoWord g r w s =
    if (echoHeard r w s.links[g]).echoes[echoLane w] = BitVec.allOnes 16 then
      if 1600 < (echoMeasured r w s.links[g]).delays[echoLane w] then
        attemptFails g (echoLane w).val (onLink g (echoMeasured r w) s)
      else onLink g (fun l => onceAllHeard (echoMeasured r w l)) s
    else onLink g (echoHeard r w) s := by
  unfold echoWord
  rw [if_neg (by simpa [EchoIgnored, echoLane, or_assoc] using h)]
  extract_lets s1 d s2
  have h1 : s1.links[g] = echoHeard r w s.links[g] := upd_get_self ..
  have h2 : s2 = onLink g (echoMeasured r w) s := by
    unfold s2 d
    rw [h1]
    exact (onLink_onLink ..).trans (onLink_congr rfl)
  have hd : d = (echoMeasured r w s.links[g]).delays[echoLane w] := by
    unfold d
    rw [h1, echoMeasured_delays, ← echoHeard_delaySum]
    rfl
  by_cases hall : (echoHeard r w s.links[g]).echoes[echoLane w] = BitVec.allOnes 16
  · rw [if_pos hall, if_neg (by rw [h1]; exact fun hne => bne_iff_ne.mp hne hall), hd]
    by_cases hfar : 1600 < (echoMeasured r w s.links[g]).delays[echoLane w]
    · rw [if_pos hfar, if_pos hfar, h2]
      rfl
    · have hnext : onLink g onceAllHeard s2 = onLink g (fun l => onceAllHeard (echoMeasured r w l)) s := by
        rw [h2, onLink_onLink]
      rw [if_neg hfar, if_neg hfar, ← hnext]
      split
      · next hthere => exact onLink_congr (if_pos hthere).symm
      · next hmiss => exact (onLink_of_fixed (if_neg hmiss)).symm
  · rw [if_neg hall, if_pos (by rw [h1]; exact bne_iff_ne.mpr hall)]
    rfl

theorem echoWord_heard (hmore : (echoHeard r w s.links[g]).echoes[echoLane w] ≠ BitVec.allOnes 16) :
    echoWord g r w s = onLink g (echoHeard r w) s := by
  rw [echoWord_counts h, if_neg hmore]

theorem echoWord_far (hlast : (echoHeard r w s.links[g]).echoes[echoLane w] = BitVec.allOnes 16)
    (hfar : 1600 < (echoMeasured r w s.links[g]).delays[echoLane w]) :
    echoWord g r w s = attemptFails g (echoLane w).val (onLink g (echoMeasured r w) s) := by
  rw [echoWord_counts h, if_pos hlast, if_pos hfar]

theorem echoWord_near (hlast : (echoHeard r w s.links[g]).echoes[echoLane w] = BitVec.allOnes 16)
    (hnear : (echoMeasured r w s.links[g]).delays[echoLane w] ≤ 1600) :
    echoWord g r w s = onLink g (fun l => onceAllHeard (echoMeasured r w l)) s := by
  rw [echoWord_counts h, if_pos hlast, if_neg (Nat.not_lt.mpr hnear)]

/-- A lane's last reply gives its delay; one above 400 ns (R213) fails the attempt. -/
theorem echoWord_last (hlast : (echoHeard r w s.links[g]).echoes[echoLane w] = BitVec.allOnes 16) :
    let t := echoWord g r w s
    let n := echoMeasured r w s.links[g]
    Only [.links, .cxl, .ev, .out] t s ∧ (∀ i, i ≠ g → t.links[i] = s.links[i]) ∧
      t.links[g].echoes = n.echoes ∧ t.links[g].delays = n.delays ∧
      (1600 < n.delays[echoLane w] → t.links[g].state = 0 ∧ t.links[g].step = none) ∧
      (n.delays[echoLane w] ≤ 1600 → s.links[g].step = some .echo →
        t.links[g].step = some .echo ∨ t.links[g].step = some .ready) := by
  dsimp only
  rcases Nat.lt_or_ge 1600 (echoMeasured r w s.links[g]).delays[echoLane w] with hfar | hnear
  · obtain ⟨a, wanted, retry, hlinks⟩ := attemptFails_links g (echoLane w).val (onLink g (echoMeasured r w) s)
    rw [echoWord_far h hlast hfar, hlinks, onLink_links, upd_upd, upd_get_self]
    exact ⟨only_step (attemptFails_link_only ..) rfl (only_mono (only_onLink ..) rfl), fun i hi => upd_get_ne _ _ hi, rfl, rfl,
      fun _ => ⟨rfl, rfl⟩, fun hle => absurd hfar (Nat.not_lt.mpr hle)⟩
  · obtain ⟨next, most, hkeeps, hnext⟩ := onceAllHeard_keeps (echoMeasured r w s.links[g])
    rw [echoWord_near h hlast hnear, onLink_links, upd_get_self, hkeeps]
    exact ⟨only_mono (only_onLink ..) rfl, fun i hi => upd_get_ne _ _ hi, rfl, rfl,
      fun hgt => absurd hgt (Nat.not_lt.mpr hnear), fun _ => hnext⟩

end
end

end Sys2Proof.Machine

/-! # What fails on a link, and how it trains: the rows -/

namespace Sys2Proof.Machine

/-- Settles O27: the failures of a group, a block and a control word, then training step by step. -/
theorem linkFailuresAct : Obligations.LinkFailuresAct := by
  unfold Obligations.LinkFailuresAct
  constructor
  · intro g s l only down all isTiming
    have hdown (cause lane : Nat) : down (settle (groupDown g cause lane s)) := by
      obtain ⟨hstate, hwanted, hstopped, hflights, hpackets, hrate, hattempt⟩ := groupDown_group g cause lane s
      unfold down only
      rw [settle_links, settle_rasters]
      exact ⟨hstate, hwanted, hstopped, hflights, hpackets, hrate, hattempt, (groupDown_atGroup ..).links⟩
    have htiming (c : CtrlWord) : isTiming c ↔ carriesTiming c = true := (carriesTiming_iff c).symm
    have hretried : (onLink g mismatchCounted s).links[g].retried = l.retried := by rw [onLink_links, upd_get_self]; rfl
    refine ⟨fun lane hoff => exec_of_effect rfl (groupFails_idle hoff), fun hoff => exec_of_effect rfl (groupFails_idle hoff),
      fun lane hruns => ?_, fun hruns => ?_, fun lane r => ?_, fun lane p b => ?_, fun lane c done hc hagain => ?_,
      fun lane c done hfirst => ?_⟩
    · exact ends_of (exec_of_effect rfl (groupFails_runs hruns)) (groupDown_link_only ..) rfl (hdown 0 lane.val)
    · exact ends_of (exec_of_effect rfl (groupFails_runs hruns)) (groupDown_link_only ..) rfl (hdown 1 0)
    · refine ends_of rfl (readback_only g lane r s) rfl ?_
      rw [settle_links]
      unfold only
      rw [settle_links]
      exact readback_counts g lane r s
    · refine ends_of rfl (readback_only g lane (.block p b) s) rfl ?_
      rw [settle_links, settle_flightsOf, readback_block]
      have hflights : flightsOf (onLink g mismatchCounted s) g = flightsOf s g := flightsOf_onLink rfl
      have hacked : (onLink g mismatchCounted s).links[g].acked = l.acked := by rw [onLink_links, upd_get_self]; rfl
      obtain ⟨fl, a, planes, n, hl⟩ := readbackBlock_link g lane p b (onLink g mismatchCounted s)
      refine ⟨?_, fun f hwait hleft => ?_, fun f hnone hf hleft => ?_⟩
      · rw [hl, onLink_links, upd_get_self]
        rfl
      · rw [← hflights] at hwait ⊢
        exact readbackBlock_due lane hwait hleft
      · rw [← hflights] at hnone
        rw [← hacked] at hf ⊢
        exact readbackBlock_unacked lane hnone hf hleft
    · rw [← hretried] at hagain
      refine ends_of rfl (only_step (readbackCtrl_only ..) rfl (only_mono (only_onLink ..) rfl)) rfl ?_
      obtain ⟨hdark, hlatched, hpin⟩ := readbackCtrl_darkByFault done ((htiming c).mp hc) hagain
      rw [settle_safety]
      exact ⟨hdark, hlatched, hpin⟩
    · rw [htiming, ← hretried] at hfirst
      refine ends_of rfl (only_step (readbackCtrl_first_only done hfirst) rfl (only_mono (only_onLink ..) rfl)) rfl fun hc => ?_
      obtain ⟨v, hv⟩ := readbackCtrl_links g lane c done (onLink g mismatchCounted s)
      rw [settle_links, readback_control, hv, upd_get_self, ← hretried]
      exact if_pos ((htiming c).mp hc)
  · intro g w s l k tag lane heard ignored only
    have hheard (r : Nat) : (echoHeard r w l).echoes[lane] = heard := echoHeard_echoes r w l
    have hdelay (r : Nat) : (echoMeasured r w l).delays[lane] =
        divRound (l.delaySum[lane] + (r - fld w.fields 13 16)) 32 := echoMeasured_delays r w l
    have hcount (h : ¬ ignored) : l.step = some .echo :=
      Decidable.byContradiction fun hother => h (.inr (.inl hother))
    refine ⟨fun hidle => exec_of_effect rfl (trainWord_idle hidle), fun hok hup hstep => ?_, fun hok hup hstep => ?_,
      fun r hign => exec_of_effect rfl (echoWord_ignored r hign), fun r hcounts hmore => ?_, fun r hcounts hlast => ?_,
      fun hidle => exec_of_effect rfl (stepTimeout_idle hidle), fun hstep hmore => ?_, fun hstep hlast => ?_,
      fun hearly => exec_of_effect rfl (retrainRetry_early hearly),
      fun n hn hdue => exec_of_effect rfl (retrainRetry_due hn hdue)⟩
    · refine ends_of rfl (only_mono (trainWord_only ..) rfl) rfl ?_
      unfold only
      rw [settle_links, trainWord_lock hok hup hstep, upd_get_self]
      exact ⟨fun i hi => upd_get_ne _ _ hi, rfl, rfl, stepOnceAll_next_iff (by decide)⟩
    · refine ends_of rfl (only_mono (trainWord_only ..) rfl) rfl ?_
      obtain ⟨e, n, v, hlinks, hnext⟩ := trainWord_tunes hok hup hstep
      unfold only
      rw [settle_links, hlinks, upd_get_self]
      exact ⟨fun i hi => upd_get_ne _ _ hi, rfl, upd_get_self .., fun i hi => upd_get_ne _ _ hi, hnext⟩
    · rw [← hheard r] at hmore
      refine ends_of (exec_of_effect rfl (echoWord_heard hcounts hmore)) (only_mono (only_onLink ..) rfl) rfl ?_
      have hstep : l.step = some .echo := hcount hcounts
      unfold only
      rw [settle_links, onLink_links, upd_get_self]
      exact ⟨fun i hi => upd_get_ne _ _ hi, hstep, hheard r, echoHeard_delaySum r w l⟩
    · rw [← hheard r] at hlast
      obtain ⟨honly, hothers, hechoes, hdelays, hfar, hnear⟩ := echoWord_last hcounts hlast
      refine ends_of rfl honly rfl ?_
      unfold only
      rw [settle_links, hechoes, hdelays, ← hdelay r]
      exact ⟨hothers, hheard r, rfl, hfar, fun hle => hnear hle (hcount hcounts)⟩
    · obtain ⟨lane, hfails⟩ := stepTimeout_fails hstep
      exact exec_of_effect rfl (hfails.trans (attemptFails_again lane hmore))
    · obtain ⟨lane, hfails⟩ := stepTimeout_fails hstep
      refine ends_of (exec_of_effect rfl (hfails.trans (attemptFails_last lane hlast)))
        (only_step (raise_link_only ..) rfl (only_mono (only_onLink ..) rfl)) rfl ?_
      unfold only
      rw [settle_links, raise_links, onLink_links, upd_get_self]
      exact ⟨fun i hi => upd_get_ne _ _ hi, rfl, rfl, rfl, rfl, rfl⟩

end Sys2Proof.Machine

/-! # A lane's blocks (R190, R193, R195) -/

namespace Sys2Proof.Machine

/-! ## What leaves on the lanes -/

/-- Words on a lane of the plane link. -/
def isLaneWords : Output → Bool
  | .lane .. => true
  | _ => false

/-- What has left on the lanes, newest first. -/
def laneWords (s : State) : List Output := s.out.filter isLaneWords

theorem mem_laneWords {h : Head} {k : Fin 8} {ws : List (BitVec 66)} {s : State} :
    .lane h k ws ∈ laneWords s ↔ .lane h k ws ∈ s.out := by
  simp [laneWords, isLaneWords]

theorem laneWords_congr {s t : State} (h : t.out = s.out) : laneWords t = laneWords s := by
  rw [laneWords, laneWords, h]

theorem laneWords_emit {o : Output} (ho : isLaneWords o = false) (s : State) : laneWords (emit o s) = laneWords s := by
  rw [laneWords, emit_out, List.filter_cons_of_neg (by rw [ho]; decide)]
  rfl

/-- An operation that puts nothing out. -/
theorem laneWords_of_only {f : List Part} {s t : State} (h : Only f t s) (hf : f.contains .out = false) :
    laneWords t = laneWords s := laneWords_congr (Prod.mk.inj (h.same .out hf)).1

theorem signal_laneWords (v : Fin 64) (s : State) : laneWords (signal v s) = laneWords s := by
  unfold signal
  split
  · rfl
  · exact laneWords_emit rfl _

theorem settle_laneWords (s : State) : laneWords (settle s) = laneWords s := by
  unfold settle
  dsimp only
  split
  · rfl
  · exact signal_laneWords ..

/-! ## Events put nothing on the lanes -/

theorem issueOne_laneWords {s t : State} (h : issueOne s = some t) : laneWords t = laneWords s := by
  unfold issueOne at h
  dsimp only at h
  split at h
  · split at h
    · split at h
      · cases h
      · cases h
        exact (laneWords_emit rfl _).trans (laneWords_emit rfl s)
    · cases h
  · cases h

theorem pumpHost_laneWords (k : Nat) (s : State) : laneWords (pumpHost k s) = laneWords s := by
  induction k generalizing s with
  | zero => rfl
  | succ k ih =>
    cases h : issueOne s with
    | none => simp only [pumpHost, h]
    | some t => simp only [pumpHost, h, ih t, issueOne_laneWords h]

theorem cwSend_laneWords (p : Port) (ptype : BitVec 8) (dst arg : Nat) (ws : List (BitVec 64)) (s : State) :
    laneWords (cwSend p ptype dst arg ws s) = laneWords s := by
  unfold cwSend
  split
  · exact (laneWords_emit rfl _).trans (laneWords_emit rfl s)
  · rfl

theorem pumpChain_laneWords (k : Nat) (s : State) : laneWords (pumpChain k s) = laneWords s := by
  induction k generalizing s with
  | zero => rfl
  | succ k ih =>
    rw [pumpChain]
    split
    · split
      · exact (ih _).trans (cwSend_laneWords ..)
      · rfl
    · rfl

theorem record_laneWords (src : Nat) (code : BitVec 16) (p : Nat) (s : State) : laneWords (record src code p s) = laneWords s :=
  (pumpChain_laneWords ..).trans (pumpHost_laneWords ..)

theorem raise_laneWords (src : Nat) (code : BitVec 16) (p : Nat) (s : State) : laneWords (raise src code p s) = laneWords s := by
  unfold raise
  extract_lets s0
  have h0 : laneWords s0 = laneWords s := by
    unfold s0
    split
    · exact signal_laneWords ..
    · rfl
  have hfull : laneWords (storeFull s0) = laneWords s0 := laneWords_of_only (storeFull_only s0) rfl
  have hmark (f : EvDyn → EvDyn) : laneWords (onEv f s0) = laneWords s0 := rfl
  repeat' split
  all_goals simp only [h0, hfull, hmark, record_laneWords]

theorem darkPlane_laneWords (h : Head) (s : State) : laneWords (darkPlane h s) = laneWords s := by
  unfold darkPlane
  dsimp only
  split
  · rfl
  · exact raise_laneWords ..

/-- Nor do requests on CXL.io (R357). -/
theorem askIo_laneWords (write : Bool) (ranges : List (Nat × Nat)) (s : State) :
    laneWords (askIo write ranges s) = laneWords s := by
  unfold askIo
  dsimp only
  split
  · rfl
  · exact laneWords_emit rfl s

/-! ## The unit that a lane sends -/

/-- The words of a unit as they leave the lane (R192). -/
def laneCoded (s : State) (g : Head) (lane : Fin 8) (ws : List (Bool × Nat)) : List (BitVec 66) :=
  (codeWords (s.cfg.links[g].txPol.testBit lane.val) s.links[g].scram[lane].toNat ws).1

/-- The words are IDLE, or those of a block of the lane. -/
def LaneUnit (s : State) (g : Head) (lane : Fin 8) (ws : List (BitVec 66)) : Prop :=
  ws = laneCoded s g lane [(true, idleBody)] ∨ ∃ b e kind payload, b % 8 = lane.val ∧
    ws = laneCoded s g lane (blockWords (blockHeader s g kind e b) payload)

/-- From s to t one unit has left, on its lane. -/
def SendsUnit (g : Head) (lane : Fin 8) (s t : State) : Prop :=
  ∃ ws, laneWords t = .lane g lane ws :: laneWords s ∧ LaneUnit s g lane ws

/-- What a unit's words depend on: the lanes so far, the link's configuration, the lane's scrambler and the frame's number. -/
structure SameLanes (g : Head) (s t : State) : Prop where
  words : laneWords t = laneWords s
  cfg : t.cfg = s.cfg
  scram : t.links[g].scram = s.links[g].scram
  clk : t.clk = s.clk

theorem SameLanes.trans {g : Head} {a b c : State} (h : SameLanes g a b) (k : SameLanes g b c) : SameLanes g a c :=
  ⟨k.words.trans h.words, k.cfg.trans h.cfg, k.scram.trans h.scram, k.clk.trans h.clk⟩

theorem sameLanes_refl (g : Head) (s : State) : SameLanes g s s := ⟨rfl, rfl, rfl, rfl⟩

theorem sameLanes_onLink {g : Head} {s : State} {f : LinkDyn → LinkDyn} (hf : (f s.links[g]).scram = s.links[g].scram) :
    SameLanes g s (onLink g f s) := ⟨rfl, rfl, by rw [onLink_links, upd_get_self, hf], rfl⟩

/-- A unit that is sent from where the lanes stand as in s is one sent from s. -/
theorem SendsUnit.of_same {g : Head} {lane : Fin 8} {s u t : State} (h : SameLanes g s u) (ht : SendsUnit g lane u t) :
    SendsUnit g lane s t := by
  obtain ⟨ws, hout, hunit⟩ := ht
  have hcoded (l : List (Bool × Nat)) : laneCoded u g lane l = laneCoded s g lane l := by
    unfold laneCoded
    rw [h.cfg, h.scram]
  have hheader (kind e b : Nat) : blockHeader u g kind e b = blockHeader s g kind e b := by
    unfold blockHeader frameNo
    rw [h.clk]
  refine ⟨ws, hout.trans (by rw [h.words]), ?_⟩
  simpa only [LaneUnit, hcoded, hheader] using hunit

theorem sendsUnit_of_out {g : Head} {lane : Fin 8} {s t : State} {ws : List (BitVec 66)} (hout : t.out = .lane g lane ws :: s.out)
    (hunit : LaneUnit s g lane ws) : SendsUnit g lane s t :=
  ⟨ws, by rw [laneWords, hout, List.filter_cons_of_pos rfl]; rfl, hunit⟩

theorem sendIdle_unit (g : Head) (lane : Fin 8) (s : State) : SendsUnit g lane s (sendIdle g lane s) :=
  sendsUnit_of_out rfl (.inl rfl)

theorem sendPlaneBlock_unit (g : Head) {lane : Fin 8} (e : Nat) {b : Nat} (data : List Byte) (s : State) (hb : b % 8 = lane.val) :
    SendsUnit g lane s (sendPlaneBlock g lane e b data s) :=
  sendsUnit_of_out (sendPlaneBlock_out ..) (.inr ⟨b, e, _, _, hb, rfl⟩)

/-- A re-send that is due on a lane is of a block of the lane. -/
theorem resendBlock_unit {g : Head} {lane : Fin 8} {f : Flight} {s : State} (hdue : dueResend s.links[g] lane = some f) :
    SendsUnit g lane s (resendBlock g lane f s) := by
  have hlane := List.find?_some hdue
  simp only [Bool.and_eq_true, beq_iff_eq] at hlane
  exact (sendPlaneBlock_unit g f.plane f.data _ hlane.2).of_same (sameLanes_onLink rfl)

theorem prefetched_sameLanes (g : Head) (lane : Fin 8) (w : Shown) (p : Nat) (s : State) :
    SameLanes g s (prefetched g lane w p s) := by
  rw [prefetched_eq]
  refine ⟨?_, rfl, rfl, rfl⟩
  show laneWords (prefetched g lane w p s) = laneWords s
  unfold prefetched
  split
  · rfl
  · exact askIo_laneWords ..

theorem firstSend_unit (g : Head) (lane : Fin 8) (w : Shown) (p : Nat) (s : State) :
    SendsUnit g lane s (firstSend g lane w (lanePlane p) p s) := by
  have hlane : laneBlock p lane % 8 = lane.val := by
    have := lane.isLt
    unfold laneBlock
    omega
  rw [firstSend_eq]
  exact (sendPlaneBlock_unit g _ _ _ hlane).of_same ((prefetched_sameLanes ..).trans (sameLanes_onLink rfl))

theorem darkPlane_sameLanes (g : Head) (s : State) : SameLanes g s (darkPlane g s) := by
  have hlinks : (darkPlane g s).links = s.links := (darkPlane_only g s).same .links rfl
  exact ⟨darkPlane_laneWords .., (darkPlane_only ..).same .cfg rfl, by rw [hlinks], (darkPlane_only ..).same .clk rfl⟩

theorem noteDark_sameLanes (g : Head) (e : Nat) (s : State) : SameLanes g s (noteDark g e s) := by
  unfold noteDark
  dsimp only
  repeat' split
  · exact sameLanes_refl g s
  · exact sameLanes_onLink rfl
  · exact (sameLanes_onLink rfl).trans (darkPlane_sameLanes ..)

theorem darkened_sameLanes (s : State) (g : Head) (late : Bool) (e : Nat) : SameLanes g s (darkened s g late e) := by
  unfold darkened
  split
  · exact noteDark_sameLanes ..
  · exact sameLanes_refl g s

theorem laneSend_unit (g : Head) (lane : Fin 8) (late : Bool) (s : State) : SendsUnit g lane s (laneSend g lane late s) := by
  cases hdue : dueResend s.links[g] lane with
  | some f => rw [laneSend_resend late hdue]; exact resendBlock_unit hdue
  | none =>
    by_cases hholds : laneHolds s g lane
    · rw [laneSend_idle late hdue hholds]; exact sendIdle_unit ..
    · obtain ⟨u, hu⟩ : ∃ u, darkened s g late (lanePlane (lanePointer s g lane)) = u := ⟨_, rfl⟩
      have hdark : SameLanes g s u := hu ▸ darkened_sameLanes ..
      rw [laneSend_next late hdue hholds hu]
      extract_lets p
      by_cases hplane : lanePlane p = lanePlane (lanePointer s g lane)
      · rw [if_neg (not_not_intro hplane), ← hplane]
        exact (firstSend_unit ..).of_same hdark
      · rw [if_pos hplane]
        exact (sendIdle_unit ..).of_same (hdark.trans (sameLanes_onLink rfl))

/-- A lane sends nothing, or one unit. -/
theorem blockSend_unit (g : Head) (lane : Fin 8) (late : Bool) (s : State) :
    blockSend g lane late s = s ∨ SendsUnit g lane s (blockSend g lane late s) := by
  unfold blockSend
  repeat' split
  · exact .inl rfl
  · exact .inr (sendIdle_unit ..)
  · exact .inr (laneSend_unit ..)

/-! ## The busiest lane (R163, R190) -/

/-- The blocks of a plane of n that go on a lane. -/
theorem laneBlocks_length (n : Nat) (lane : Fin 8) :
    ((List.range n).filter fun b => b % 8 == lane.val).length = n / 8 + if lane.val < n % 8 then 1 else 0 := by
  have hlane := lane.isLt
  induction n with
  | zero => rfl
  | succ n ih =>
    rw [List.range_succ, List.filter_append, List.length_append, ih]
    by_cases hmine : n % 8 = lane.val
    · have hone : ([n].filter fun b => b % 8 == lane.val) = [n] := List.filter_cons_of_pos (beq_iff_eq.mpr hmine)
      rw [hone, List.length_singleton]
      split <;> split <;> omega
    · have hnone : ([n].filter fun b => b % 8 == lane.val) = [] := List.filter_cons_of_neg (mt beq_iff_eq.mp hmine)
      rw [hnone, List.length_nil]
      split <;> split <;> omega

theorem divUp_eight (n : Nat) : divUp n 8 = n / 8 + if 0 < n % 8 then 1 else 0 := by
  rw [divUp, if_neg (by decide)]
  split <;> omega

theorem laneBlocks_le (n : Nat) (lane : Fin 8) : ((List.range n).filter fun b => b % 8 == lane.val).length ≤ divUp n 8 := by
  rw [laneBlocks_length, divUp_eight]
  split <;> split <;> omega

theorem laneZero_blocks (n : Nat) : ((List.range n).filter fun b => b % 8 == 0).length = divUp n 8 := by
  rw [divUp_eight]
  exact laneBlocks_length n 0

/-- Settles O59: one unit at most goes out, on the lane of the row, and the lanes' shares of a plane are counted. -/
theorem blocksKeepToTheirLane : Obligations.BlocksKeepToTheirLane := by
  unfold Obligations.BlocksKeepToTheirLane
  refine ⟨fun g lane late s => ⟨_, rfl, ?_⟩, fun x lane => ⟨laneBlocks_le _ lane, laneZero_blocks _, ?_, ?_⟩⟩
  · intro coded h k ws hmem
    rw [← mem_laneWords, settle_laneWords] at hmem
    rcases blockSend_unit g lane late s with hsame | ⟨unit, hout, hunit⟩
    · rw [hsame, mem_laneWords] at hmem
      exact .inl hmem
    · rw [hout, List.mem_cons, mem_laneWords] at hmem
      rcases hmem with hnew | hold
      · cases hnew
        exact .inr ⟨rfl, rfl, hunit⟩
      · exact .inl hold
  · rw [laneZero_blocks]
    rfl
  · rw [laneZero_blocks]
    rfl

end Sys2Proof.Machine

/-! # What leaves the block stays out -/

namespace Sys2Proof.Machine

/-! ## The output only grows -/

theorem settle_out_grows (s : State) : s.out <:+ (settle s).out := by
  obtain ⟨l, hout, -⟩ := settle_out s
  exact ⟨l, hout.symm⟩

theorem emit_out_grows (o : Output) (s : State) : s.out <:+ (emit o s).out := List.suffix_cons ..

theorem signal_out_grows (v : Fin 64) (s : State) : s.out <:+ (signal v s).out := by
  unfold signal
  split
  · exact List.suffix_rfl
  · exact emit_out_grows ..

theorem issueOne_out_grows {s t : State} (h : issueOne s = some t) : s.out <:+ t.out := by
  unfold issueOne at h
  dsimp only at h
  split at h
  · split at h
    · split at h
      · cases h
      · cases h
        exact (emit_out_grows _ s).trans (emit_out_grows ..)
    · cases h
  · cases h

theorem pumpHost_out_grows (k : Nat) (s : State) : s.out <:+ (pumpHost k s).out := by
  induction k generalizing s with
  | zero => exact List.suffix_rfl
  | succ k ih =>
    cases h : issueOne s with
    | none => simp only [pumpHost, h, List.suffix_rfl]
    | some t => simpa only [pumpHost, h] using (issueOne_out_grows h).trans (ih t)

theorem cwSend_out_grows (p : Port) (ptype : BitVec 8) (dst arg : Nat) (ws : List (BitVec 64)) (s : State) :
    s.out <:+ (cwSend p ptype dst arg ws s).out := by
  unfold cwSend
  split
  · exact (emit_out_grows _ s).trans (emit_out_grows ..)
  · exact List.suffix_rfl

theorem pumpChain_out_grows (k : Nat) (s : State) : s.out <:+ (pumpChain k s).out := by
  induction k generalizing s with
  | zero => exact List.suffix_rfl
  | succ k ih =>
    rw [pumpChain]
    split
    · split
      · refine List.IsSuffix.trans ?_ (ih _)
        exact cwSend_out_grows ..
      · exact List.suffix_rfl
    · exact List.suffix_rfl

theorem record_out_grows (src : Nat) (code : BitVec 16) (p : Nat) (s : State) : s.out <:+ (record src code p s).out :=
  List.IsSuffix.trans (pumpHost_out_grows 1 (onEv _ s)) (pumpChain_out_grows 1 _)

/-- An event takes nothing back of what has left the block. -/
theorem raise_out_grows (src : Nat) (code : BitVec 16) (p : Nat) (s : State) : s.out <:+ (raise src code p s).out := by
  unfold raise
  extract_lets s0
  have h0 : s.out <:+ s0.out := by
    unfold s0
    split
    · exact signal_out_grows ..
    · exact List.suffix_rfl
  have hfull : s0.out <:+ (storeFull s0).out := ⟨[], (Prod.mk.inj ((storeFull_only s0).same .out rfl)).1.symm⟩
  refine h0.trans ?_
  repeat' split
  · exact List.suffix_rfl
  · exact hfull
  · exact record_out_grows ..
  · exact List.suffix_rfl
  · exact record_out_grows ..
  · exact List.suffix_rfl
  · exact record_out_grows ..

end Sys2Proof.Machine

/-! # The scanner of a raster head (R223 to R227) -/

namespace Sys2Proof.Machine

/-! ## Updates of a scanner's record -/

theorem onRaster_congr {h : Head} {a b : RasterDyn → RasterDyn} {s : State} (hab : a s.rasters[h] = b s.rasters[h]) :
    onRaster h a s = onRaster h b s := by
  rw [onRaster, onRaster, upd_congr hab]

theorem onRaster_onRaster (h : Head) (a b : RasterDyn → RasterDyn) (s : State) :
    onRaster h b (onRaster h a s) = onRaster h (fun r => b (a r)) s := by
  simp [onRaster, upd_upd]

/-! ## The fast axis, and what a scanner tells -/

theorem groupOf_srcRaster (h : Head) : groupOf (srcRaster h) = 0 := by
  revert h
  decide

/-- What a scanner tells is recorded at most. -/
theorem raise_raster_only (h : Head) (code : BitVec 16) (p : Nat) (s : State) :
    Only [.cxl, .ev, .out] (raise (srcRaster h) code p s) s :=
  raise_plain_only (by rw [groupOf_srcRaster]; decide) code p s

section
variable (h : Head) (s : State)

theorem tellRaster_plain_only (cause : Nat) : Only [.cxl, .ev, .out] (tellRaster h cause s) s := raise_raster_only ..

theorem tellRaster_rasters (cause : Nat) : (tellRaster h cause s).rasters = s.rasters := raise_rasters ..

theorem drive_rasters (d : FastDrive) : (drive h d s).rasters = upd s.rasters h fun r => { r with drive := d } := rfl

theorem drive_out (d : FastDrive) : (drive h d s).out = .fastAxis h d s.rasters[h].fNow :: s.out := rfl

/-- Acquisition starts (R224): the sweep, at no amplitude yet, with no retry to wait for. -/
def swept (r : RasterDyn) : RasterDyn := { r with scan := 1, ramping := false, retryTick := none, drive := .sweep }

theorem acquire_rasters : (acquire h s).rasters = upd s.rasters h swept := by
  rw [acquire, drive_rasters, onRaster_rasters, upd_upd]
  rfl

end

section
variable (h : Head) (cause : Nat) (u : State)

/-- Where lock is lost the scanner tells, and acquires at once (R225). -/
def reacquired : State := acquire h (tellRaster h cause u)

theorem reacquired_rasters : (reacquired h cause u).rasters = upd u.rasters h swept := by
  rw [reacquired, acquire_rasters, tellRaster_rasters]

theorem reacquired_only : Only [.rasters, .cxl, .ev, .out] (reacquired h cause u) u :=
  only_step (acquire_only ..) rfl (only_mono (tellRaster_plain_only ..) rfl)

theorem reacquired_out_grows : u.out <:+ (reacquired h cause u).out :=
  (raise_out_grows ..).trans (List.suffix_cons ..)

end

/-! ## The sweep (R224) -/

theorem loudest_none {l : List (Nat × Nat)} : loudest l = none ↔ l = [] := by
  cases l with
  | nil => exact ⟨fun _ => rfl, fun _ => rfl⟩
  | cons p r =>
    rw [loudest]
    split
    · split <;> exact ⟨nofun, nofun⟩
    · exact ⟨nofun, nofun⟩

/-- The loudest of a sweep is of the sweep, and none is louder. -/
theorem loudest_spec {l : List (Nat × Nat)} {p : Nat × Nat} (h : loudest l = some p) : p ∈ l ∧ ∀ q ∈ l, q.2 ≤ p.2 := by
  induction l generalizing p with
  | nil => cases h
  | cons a r ih =>
    rw [loudest] at h
    split at h
    · next q hq =>
      obtain ⟨hmem, hmax⟩ := ih hq
      by_cases hlt : a.2 < q.2
      · rw [if_pos hlt] at h
        cases h
        exact ⟨List.mem_cons_of_mem _ hmem, List.forall_mem_cons.mpr ⟨Nat.le_of_lt hlt, hmax⟩⟩
      · rw [if_neg hlt] at h
        cases h
        exact ⟨List.mem_cons_self, List.forall_mem_cons.mpr ⟨Nat.le_refl _, fun x hx =>
          Nat.le_trans (hmax x hx) (Nat.not_lt.mp hlt)⟩⟩
    · next hnone =>
      cases h
      rw [loudest_none] at hnone
      subst hnone
      exact ⟨List.mem_cons_self, fun q hq => List.mem_singleton.mp hq ▸ Nat.le_refl _⟩

/-- The part of a sweep that lies within the tracking band. -/
def inBand (x : RasterCfg) (sweep : List (Nat × Nat)) : List (Nat × Nat) :=
  sweep.filter fun p => decide (bandLow x ≤ p.1) && decide (p.1 ≤ bandHigh x)

theorem mem_inBand {x : RasterCfg} {sweep : List (Nat × Nat)} {p : Nat × Nat} :
    p ∈ inBand x sweep ↔ p ∈ sweep ∧ bandLow x ≤ p.1 ∧ p.1 ≤ bandHigh x := by
  simp only [inBand, List.mem_filter, Bool.and_eq_true, decide_eq_true_eq]

section
variable {h : Head} {s : State}

theorem sweepEnd_idle (sweep : List (Nat × Nat)) (hidle : s.rasters[h].scan ≠ 1 ∨ s.rasters[h].ramping = true) :
    sweepEnd h sweep s = s := by
  have hstill : (s.rasters[h].scan == 1 && !s.rasters[h].ramping) = false := by
    rcases hidle with hscan | hramp
    · rw [beq_false_of_ne hscan, Bool.false_and]
    · rw [hramp, Bool.not_true, Bool.and_false]
  unfold sweepEnd
  rw [hstill]
  exact if_neg Bool.false_ne_true

/-- Nothing is heard within the band. -/
theorem sweepEnd_silent {sweep : List (Nat × Nat)}
    (hout : ∀ p ∈ sweep, p.1 < bandLow s.cfg.heads[h].ras ∨ bandHigh s.cfg.heads[h].ras < p.1) : sweepEnd h sweep s = s := by
  have hempty : inBand s.cfg.heads[h].ras sweep = [] := by
    refine List.eq_nil_iff_forall_not_mem.mpr fun p hp => ?_
    obtain ⟨hmem, hlow, hhigh⟩ := mem_inBand.mp hp
    have := hout p hmem
    omega
  unfold inBand at hempty
  simp only [sweepEnd, hempty, loudest, ite_self]

/-- The loop takes the loudest frequency within the band. -/
theorem sweepEnd_heard {sweep : List (Nat × Nat)} (hscan : s.rasters[h].scan = 1) (hramp : s.rasters[h].ramping = false)
    (hin : ∃ p ∈ sweep, bandLow s.cfg.heads[h].ras ≤ p.1 ∧ p.1 ≤ bandHigh s.cfg.heads[h].ras) :
    ∃ p, (p ∈ inBand s.cfg.heads[h].ras sweep ∧ ∀ q ∈ inBand s.cfg.heads[h].ras sweep, q.2 ≤ p.2) ∧
      sweepEnd h sweep s = drive h .rising (onRaster h (fun r => { r with ramping := true, fNow := p.1 }) s) := by
  cases hloud : loudest (inBand s.cfg.heads[h].ras sweep) with
  | none =>
    obtain ⟨p, hmem, hband⟩ := hin
    have hp := mem_inBand.mpr ⟨hmem, hband⟩
    rw [loudest_none.mp hloud] at hp
    cases hp
  | some p =>
    refine ⟨p, loudest_spec hloud, ?_⟩
    unfold inBand at hloud
    simp only [sweepEnd, hscan, hramp, hloud, beq_self_eq_true, Bool.not_false, Bool.and_self, if_true]

/-! ## Lock, no lock, and the retry (R224) -/

theorem locks_idle (f : Nat) (hidle : s.rasters[h].scan ≠ 1 ∨ s.rasters[h].ramping = false) : locks h f s = s := by
  have hstill : (s.rasters[h].scan == 1 && s.rasters[h].ramping) = false := by
    rcases hidle with hscan | hramp
    · rw [beq_false_of_ne hscan, Bool.false_and]
    · rw [hramp, Bool.and_false]
  unfold locks
  rw [hstill]
  exact if_neg Bool.false_ne_true

/-- The scanner is locked at a frequency, with the guard armed again. -/
def lockedAt (f : Nat) (r : RasterDyn) : RasterDyn :=
  { r with scan := 2, ramping := false, fNow := f, guard := false, lineAt := none, drive := .held }

theorem locks_rising (f : Nat) (hscan : s.rasters[h].scan = 1) (hramp : s.rasters[h].ramping = true) :
    (locks h f s).rasters = upd s.rasters h (lockedAt f) ∧ Only [.rasters, .cxl, .ev, .out] (locks h f s) s := by
  have hrises : (s.rasters[h].scan == 1 && s.rasters[h].ramping) = true := by rw [hscan, hramp]; rfl
  unfold locks
  rw [if_pos hrises]
  constructor
  · rw [raise_rasters, drive_rasters, onRaster_rasters, upd_upd]
    rfl
  · exact only_step (raise_raster_only ..) rfl (only_step (drive_only ..) rfl (only_mono (only_onRaster ..) rfl))

theorem acquireFails_idle (hidle : s.rasters[h].scan ≠ 1) : acquireFails h s = s := by
  unfold acquireFails
  exact if_neg (mt beq_iff_eq.mp hidle)

/-- The scanner waits for a retry. -/
def faulted (tick : Nat) (r : RasterDyn) : RasterDyn :=
  { r with scan := 3, ramping := false, retryTick := some tick, drive := .off }

theorem acquireFails_acquiring (hscan : s.rasters[h].scan = 1) :
    (acquireFails h s).rasters = upd s.rasters h (faulted (s.clk.tick + 64)) ∧
      Only [.rasters, .cxl, .ev, .out] (acquireFails h s) s := by
  unfold acquireFails
  rw [if_pos (by rw [hscan]; rfl)]
  constructor
  · rw [tellRaster_rasters, drive_rasters, onRaster_rasters, upd_upd]
    rfl
  · exact only_step (tellRaster_plain_only ..) rfl (only_step (drive_only ..) rfl (only_mono (only_onRaster ..) rfl))

theorem acquireAgain_early (hearly : ∀ n, s.rasters[h].retryTick = some n → s.rasters[h].scan = 3 → s.clk.tick < n) :
    acquireAgain h s = s := by
  unfold acquireAgain
  split
  · next n hn =>
    refine if_neg fun hdue => ?_
    simp only [Bool.and_eq_true, beq_iff_eq, decide_eq_true_eq] at hdue
    obtain ⟨hscan, htick⟩ := hdue
    exact Nat.not_le.mpr (hearly n hn hscan) htick
  · rfl

theorem acquireAgain_due {n : Nat} (hn : s.rasters[h].retryTick = some n) (hscan : s.rasters[h].scan = 3)
    (hdue : n ≤ s.clk.tick) : acquireAgain h s = acquire h s := by
  simp only [acquireAgain, hn, hscan, hdue, beq_self_eq_true, decide_true, Bool.and_self, if_true]

/-! ## Hold (R225, R227) -/

theorem lockLoss_idle (hidle : s.rasters[h].scan ≠ 2) : lockLoss h s = s := by
  unfold lockLoss
  exact if_neg (mt beq_iff_eq.mp hidle)

theorem lockLoss_locked (hscan : s.rasters[h].scan = 2) : lockLoss h s = reacquired h 0 (closeGates h s) := by
  unfold lockLoss
  rw [if_pos (by rw [hscan]; rfl)]
  rfl

/-- The guard cuts the light: the head's channels divert and SCNEN falls (R227). -/
def guardCut (h : Head) (s : State) : State :=
  emit (.scanner h false) (onRaster h (fun r => { r with guard := true, scnEn := false }) (closeGates h s))

theorem guardTrips_idle (slow : Bool) (hidle : s.rasters[h].scan ≠ 2) : guardTrips h slow s = s := by
  unfold guardTrips
  exact if_neg (mt beq_iff_eq.mp hidle)

theorem guardTrips_locked (slow : Bool) (hscan : s.rasters[h].scan = 2) :
    guardTrips h slow s = reacquired h (if slow then 2 else 1) (guardCut h s) := by
  unfold guardTrips
  rw [if_pos (by rw [hscan]; rfl)]
  rfl

end

/-- The light of a head is off: its gate is closed and its channels divert. The gates of the other channels stand. -/
def HeadShut (h : Head) (s t : State) : Prop := t.heads[h].gateOpen = false ∧
  ∀ n : Chan, t.chans[n].gateOpen = (s.chans[n].gateOpen && s.cfg.chans[n].st.head != h)

theorem closeGates_shut (h : Head) (s : State) : HeadShut h s (closeGates h s) :=
  ⟨closeGates_head h s, fun n => closeGates_gate h n s⟩

/-- What leaves the heads and the channels alone leaves the head shut. -/
theorem HeadShut.keep {h : Head} {f : List Part} {s t u : State} (hshut : HeadShut h s t) (ho : Only f u t)
    (hf : [Part.heads, .chans].all (fun x => !f.contains x) = true) : HeadShut h s u := by
  simp only [List.all_cons, List.all_nil, Bool.and_true, Bool.and_eq_true, Bool.not_eq_true'] at hf
  obtain ⟨hheads, hchans⟩ := hf
  have hh : u.heads = t.heads := ho.same .heads hheads
  have hc : u.chans = t.chans := ho.same .chans hchans
  rw [HeadShut, hh, hc]
  exact hshut

theorem guardCut_shut (h : Head) (s : State) : HeadShut h s (guardCut h s) :=
  (closeGates_shut h s).keep (f := [.rasters, .out]) (only_step (only_emit ..) rfl (only_mono (only_onRaster ..) rfl)) rfl

theorem closeGates_rasters (h : Head) (s : State) : (closeGates h s).rasters = s.rasters :=
  (closeGates_only h s).same .rasters rfl

theorem guardCut_rasters (h : Head) (s : State) :
    (guardCut h s).rasters = upd s.rasters h fun r => { r with guard := true, scnEn := false } := by
  rw [guardCut, emit_rasters, onRaster_rasters, closeGates_rasters]

theorem guardCut_only (h : Head) (s : State) : Only [.heads, .rasters, .chans, .out] (guardCut h s) s :=
  only_step (only_emit ..) rfl (only_step (only_onRaster ..) rfl (only_mono (closeGates_only ..) rfl))

theorem guardCut_out (h : Head) (s : State) : .scanner h false ∈ (guardCut h s).out := List.mem_cons_self

/-- Settles O28: each row's operation, and the hold that a loss of lock and the guard share. -/
theorem scannerFollowsItsLock : Obligations.ScannerFollowsItsLock := by
  unfold Obligations.ScannerFollowsItsLock
  intro h f s r x e held
  have hheld {a : RasterDyn → RasterDyn} {cause : Nat} {u : State} (hshut : HeadShut h s u)
      (hrasters : u.rasters = upd s.rasters h a) : held (settle (reacquired h cause u)) ∧
        (settle (reacquired h cause u)).rasters[h] = swept (a r) := by
    have hr : (settle (reacquired h cause u)).rasters = upd s.rasters h fun r => swept (a r) := by
      rw [settle_rasters, reacquired_rasters, hrasters, upd_upd]
    have hat : (settle (reacquired h cause u)).rasters[h] = swept (a r) := by rw [hr, upd_get_self]
    obtain ⟨hgate, hgates⟩ := (hshut.keep (reacquired_only h cause u) rfl).keep (settle_only _) rfl
    refine ⟨⟨hgate, hgates, ?_, ?_, ?_, ?_, fun k hk => by rw [hr, upd_get_ne _ _ hk]⟩, hat⟩ <;> rw [hat] <;> rfl
  refine ⟨fun sweep hidle => ?_, fun sweep _ _ hout => ?_, fun sweep hscan hramp hin => ?_, fun hidle => ?_,
    fun hscan hramp => ?_, fun hidle => ?_, fun hscan => ?_, fun hearly => ?_, fun n hn hscan hdue => ?_, fun hidle => ⟨?_,
    fun slow => ?_⟩, fun hscan => ⟨?_, fun slow => ?_⟩⟩
  · exact exec_of_effect rfl (sweepEnd_idle sweep hidle)
  · exact exec_of_effect rfl (sweepEnd_silent hout)
  · obtain ⟨p, ⟨hp, hmax⟩, heq⟩ := sweepEnd_heard hscan hramp hin
    obtain ⟨hmem, hlow, hhigh⟩ := mem_inBand.mp hp
    refine ends_of (exec_of_effect rfl heq) (only_step (drive_only ..) rfl (only_mono (only_onRaster ..) rfl)) rfl
      ⟨p, hmem, hlow, hhigh, fun q hq hql hqh => hmax q (mem_inBand.mpr ⟨hq, hql, hqh⟩), ?_, sends_of_out ?_⟩
    · rw [settle_rasters, drive_rasters, onRaster_rasters, upd_upd]
      rfl
    · rw [drive_out, onRaster_rasters, upd_get_self, onRaster_out]
  · exact exec_of_effect rfl (locks_idle f hidle)
  · obtain ⟨hrasters, honly⟩ := locks_rising f hscan hramp
    exact ends_of rfl honly rfl ((settle_rasters _).trans hrasters)
  · exact exec_of_effect rfl (acquireFails_idle hidle)
  · obtain ⟨hrasters, honly⟩ := acquireFails_acquiring hscan
    exact ends_of rfl honly rfl ((settle_rasters _).trans hrasters)
  · exact exec_of_effect rfl (acquireAgain_early hearly)
  · exact ends_of (exec_of_effect rfl (acquireAgain_due hn hscan hdue)) (only_mono (acquire_only ..) rfl) rfl
      ((settle_rasters _).trans (acquire_rasters h s))
  · exact exec_of_effect rfl (lockLoss_idle hidle)
  · exact exec_of_effect rfl (guardTrips_idle slow hidle)
  · obtain ⟨hhold, hat⟩ := hheld (a := id) (cause := 0) (closeGates_shut h s)
      ((closeGates_rasters h s).trans (upd_of_fixed (f := id) rfl).symm)
    refine ends_of (exec_of_effect rfl (lockLoss_locked hscan))
      (only_step (reacquired_only ..) rfl (only_mono (closeGates_only ..) rfl)) rfl ⟨hhold, ?_, ?_⟩
    · rw [hat]; rfl
    · rw [hat]; rfl
  · obtain ⟨hhold, hat⟩ := hheld (cause := if slow then 2 else 1) (guardCut_shut h s) (guardCut_rasters h s)
    refine ends_of (exec_of_effect rfl (guardTrips_locked slow hscan))
      (only_step (reacquired_only ..) rfl (only_mono (guardCut_only ..) rfl)) rfl ⟨hhold, ?_, ?_, ?_⟩
    · rw [hat]; rfl
    · rw [hat]; rfl
    · exact ((reacquired_out_grows ..).trans (settle_out_grows _)).subset (guardCut_out h s)

end Sys2Proof.Machine

/-! # The lines of a raster head (R225, R226, R229, R230, R237) -/

namespace Sys2Proof.Machine

/-! ## The gates of a raster head (R237) -/

theorem mayLight_onRaster {h : Head} {f : RasterDyn → RasterDyn} {s : State} (hf : (f s.rasters[h]).guard = s.rasters[h].guard) :
    mayLight (onRaster h f s) h = mayLight s h := by
  simp only [mayLight, onRaster_rasters, upd_get_self, hf]
  rfl

/-- Beside those that are open the gates that follow open, where the head may light and shows light. -/
theorem openGates_gate (h : Head) (c : Option Colour) (n : Chan) (s : State) : (openGates h c s).chans[n].gateOpen =
    (s.chans[n].gateOpen || (mayLight s h && showsLight s h && gateFollows s h c n)) := by
  cases hmay : mayLight s h with
  | false => rw [openGates_unlit c (.inl hmay), Bool.false_and, Bool.false_and, Bool.or_false]
  | true =>
    cases hlight : showsLight s h with
    | false => rw [openGates_unlit c (.inr hlight), Bool.and_false, Bool.false_and, Bool.or_false]
    | true =>
      obtain ⟨-, hgates⟩ := openGates_lit c hmay hlight
      rw [hgates, Bool.true_and, Bool.true_and]

section
variable {h : Head} {s : State}

theorem gateOpens_dark_line (hras : s.cfg.heads[h].raster = true)
    (hoff : s.heads[h].showing = false ∨ lineLights s h = false) : gateOpens h s = s := by
  have hdark : (s.heads[h].showing && lineLights s h) = false := by
    rcases hoff with hshow | hlights
    · rw [hshow, Bool.false_and]
    · rw [hlights, Bool.and_false]
  simp only [gateOpens, hras, hdark, if_true, Bool.false_eq_true, if_false]

/-- The gates have conducted in the line (R237). -/
def gatesUsed (r : RasterDyn) : RasterDyn := { r with gateUsed := true }

theorem gateOpens_lit_line (hras : s.cfg.heads[h].raster = true) (hshow : s.heads[h].showing = true)
    (hlights : lineLights s h = true) : gateOpens h s = openGates h none (onRaster h gatesUsed s) := by
  simp only [gateOpens, hras, hshow, hlights, Bool.and_self, if_true]
  rfl

/-! ## Where the slow axis stands (R226) -/

/-- The position of a line depends on the configuration, on what the head shows and on the size of the window. -/
theorem linePosition_congr {u : State} (y : Nat) (hcfg : u.cfg = s.cfg) (hmode : u.heads[h].mode = s.heads[h].mode)
    (hsafety : u.safety = s.safety) : linePosition u h y = linePosition s h y := by
  have hlines : linesShown u h = linesShown s h := by rw [linesShown, linesShown, hcfg, hmode]
  have hsize : windowSize u = windowSize s := by rw [windowSize, windowSize, hsafety]
  simp only [linePosition, lastWindowRow, hlines, hsize, hcfg, hmode]

theorem openLine_rasters (h : Head) (y : Nat) (s : State) : (openLine h y s).rasters = upd s.rasters h fun r =>
    { r with line := y + 1, gateUsed := false, slow := .ramp (linePosition s h y) (linePosition s h (y + 1)) } := by
  rw [openLine, steer, emit_rasters, onRaster_rasters, onRaster_rasters, upd_upd]

theorem endLines_idle (hidle : s.rasters[h].linesOver = true ∨ s.rasters[h].line = 0) : endLines h s = s := by
  unfold endLines
  exact if_pos (by simpa only [Bool.or_eq_true, decide_eq_true_eq] using hidle)

/-- After the last line the slow axis holds. -/
theorem endLines_rasters (hline : 0 < s.rasters[h].line) (hfirst : s.rasters[h].linesOver = false) :
    (endLines h s).rasters = upd s.rasters h fun r =>
      { r with linesOver := true, slow := .held (linePosition s h s.rasters[h].line) } := by
  unfold endLines
  rw [if_neg (by simp only [hfirst, Nat.ne_of_gt hline, decide_false, Bool.or_self, Bool.false_eq_true, not_false_eq_true]),
    steer, emit_rasters, onRaster_rasters, onRaster_rasters, upd_upd]

/-! ## Line match at a line start (R149) -/

theorem groupOf_srcLineMatch (i : Fin 2) : groupOf (srcLineMatch i.val) = 0 := by
  revert i
  decide

theorem reachLines_plain_only (src : Nat) (h : Option Head) (lo hi : Nat) (s : State) :
    Only [.clk, .cxl, .ev, .out] (reachLines src h lo hi s) s := by
  unfold reachLines
  refine only_forEach _ _ (fun i s => ?_) s
  exact only_ite _ (only_step (raise_plain_only (by rw [groupOf_srcLineMatch]; decide) ..) rfl (only_mono (only_onClk ..) rfl))
    (only_refl _ s)

/-- Line match moves no time. -/
theorem reachLines_time (src : Nat) (h : Option Head) (lo hi : Nat) (s : State) :
    (reachLines src h lo hi s).clk.tick = s.clk.tick ∧ (reachLines src h lo hi s).clk.now = s.clk.now := by
  refine Prod.mk.inj (forEach_keeps (m := fun s => (s.clk.tick, s.clk.now)) (fun i s => ?_) (allFin 2) s)
  dsimp only
  split
  · have hclk (code : BitVec 16) (p : Nat) (u : State) : (raise (srcLineMatch i.val) code p u).clk = u.clk :=
      (raise_only ..).same .clk rfl
    rw [hclk, onClk_clk]
  · rfl

/-! ## A stop takes effect (R212) -/

theorem stopAtEntry_stopping (hstop : s.links[h].stopping = true) : (stopAtEntry h s).links[h].stopped = true := by
  rw [stopAtEntry, if_pos hstop, onLink_links, upd_get_self]

theorem stopAtEntry_runs (hgo : s.links[h].stopping = false) : stopAtEntry h s = s :=
  if_neg (by rw [hgo]; decide)

end

/-! ## A sensed extreme (R225, R229, R230) -/

/-- The trimmed instant of a line start. -/
def trimmedStart (x : HeadCfg) (forward : Bool) (at_ : Nat) : Int := (at_ : Int) + lineTrim x forward

/-- The scanner is tracked at a line start. -/
def tracksLine (forward : Bool) (n : Nat) (start : Int) (r : RasterDyn) : RasterDyn :=
  { r with fNow := n, lineFwd := forward, lineAt := some start }

/-- The line start is noted. -/
def lineNoted (h : Head) (forward : Bool) (at_ n : Nat) (s : State) : State :=
  onRaster h (tracksLine forward n (trimmedStart s.cfg.heads[h] forward at_)) s

/-- The line start is noted, and the line before it has ended. -/
def lineSensed (h : Head) (forward : Bool) (at_ n : Nat) (s : State) : State := closeGates h (lineNoted h forward at_ n s)

/-- The next line of the frame has started. -/
def lineOpened (h : Head) (forward : Bool) (at_ n : Nat) (s : State) : State :=
  openLine h s.rasters[h].line (stopAtEntry h (lineSensed h forward at_ n s))

section
variable (h : Head) (forward : Bool) (at_ n : Nat) (s : State)

theorem lineSensed_rasters : (lineSensed h forward at_ n s).rasters =
    upd s.rasters h (tracksLine forward n (trimmedStart s.cfg.heads[h] forward at_)) := closeGates_rasters ..

theorem lineSensed_shut : HeadShut h s (lineSensed h forward at_ n s) := closeGates_shut h (lineNoted h forward at_ n s)

theorem lineSensed_only : Only [.heads, .rasters, .chans] (lineSensed h forward at_ n s) s :=
  only_step (closeGates_only ..) rfl (only_mono (only_onRaster ..) rfl)

theorem closeGates_mode : (closeGates h s).heads[h].mode = s.heads[h].mode := by
  have hheads : (divert (fun n => s.cfg.chans[n].st.head == h) false s).heads = s.heads := (divert_only ..).same .heads rfl
  rw [closeGates, onHead_heads, upd_get_self, hheads]

/-- Every position of a line stands. -/
theorem lineSensed_position (y : Nat) : linePosition (lineSensed h forward at_ n s) h y = linePosition s h y := by
  have hmode : (lineSensed h forward at_ n s).heads[h].mode = s.heads[h].mode := by
    rw [lineSensed, closeGates_mode, lineNoted, onRaster_heads]
  exact linePosition_congr y ((lineSensed_only ..).same .cfg rfl) hmode ((lineSensed_only ..).same .safety rfl)

theorem stopAtEntry_position (y : Nat) : linePosition (stopAtEntry h s) h y = linePosition s h y := by
  have hheads : (stopAtEntry h s).heads = s.heads := (stopAtEntry_only ..).same .heads rfl
  exact linePosition_congr y ((stopAtEntry_only ..).same .cfg rfl) (by rw [hheads]) ((stopAtEntry_only ..).same .safety rfl)

theorem lineOpened_rasters : (lineOpened h forward at_ n s).rasters = upd s.rasters h fun r =>
    { tracksLine forward n (trimmedStart s.cfg.heads[h] forward at_) r with
      line := s.rasters[h].line + 1
      gateUsed := false
      slow := .ramp (linePosition s h s.rasters[h].line) (linePosition s h (s.rasters[h].line + 1)) } := by
  have hstop : (stopAtEntry h (lineSensed h forward at_ n s)).rasters = (lineSensed h forward at_ n s).rasters :=
    (stopAtEntry_only ..).same .rasters rfl
  rw [lineOpened, openLine_rasters, hstop, lineSensed_rasters, upd_upd]
  simp only [stopAtEntry_position, lineSensed_position]

theorem lineOpened_links : (lineOpened h forward at_ n s).links = (stopAtEntry h (lineSensed h forward at_ n s)).links :=
  (openLine_only ..).same .links rfl

theorem lineOpened_only : Only [.heads, .links, .rasters, .chans, .out] (lineOpened h forward at_ n s) s :=
  only_step (openLine_only ..) rfl (only_step (stopAtEntry_only ..) rfl (only_mono (lineSensed_only ..) rfl))

theorem lineOpened_shut : HeadShut h s (lineOpened h forward at_ n s) :=
  ((lineSensed_shut ..).keep (stopAtEntry_only ..) rfl).keep (openLine_only ..) rfl

end

/-! ## A line start -/

section
variable {h : Head} {forward : Bool} {at_ n : Nat} {s : State}

/-- An extreme that can start a line: the first of a frame, or not of the kind of the last one (R230). -/
def LineIsNew (h : Head) (forward : Bool) (s : State) : Prop := s.rasters[h].line = 0 ∨ forward ≠ s.rasters[h].lineFwd

/-- Its frequency lies within the tracking band (R225). -/
def WithinBand (h : Head) (n : Nat) (s : State) : Prop := bandLow s.cfg.heads[h].ras < n ∧ n < bandHigh s.cfg.heads[h].ras

theorem extreme_repeats :
    (decide (0 < s.rasters[h].line) && forward == s.rasters[h].lineFwd) = true ↔ ¬ LineIsNew h forward s := by
  simp only [LineIsNew, Bool.and_eq_true, decide_eq_true_eq, beq_iff_eq, not_or, Nat.pos_iff_ne_zero, ne_eq, Decidable.not_not]

theorem bandEdge_iff :
    (decide (n ≤ bandLow s.cfg.heads[h].ras) || decide (bandHigh s.cfg.heads[h].ras ≤ n)) = true ↔ ¬ WithinBand h n s := by
  simp only [WithinBand, Bool.or_eq_true, decide_eq_true_eq]
  omega

theorem lineStart_idle (hidle : s.cfg.heads[h].raster = false ∨ s.rasters[h].scan ≠ 2 ∨ ¬ LineIsNew h forward s) :
    lineStart h forward at_ n s = s := by
  unfold lineStart
  refine if_pos ?_
  simpa only [Bool.or_eq_true, Bool.not_eq_true', bne_iff_ne, extreme_repeats, or_assoc] using hidle

/-- What a line start does is decided by its frequency, the show span and the lines of the frame. -/
theorem lineStart_sensed (hras : s.cfg.heads[h].raster = true) (hscan : s.rasters[h].scan = 2) (hnew : LineIsNew h forward s) :
    lineStart h forward at_ n s =
      if n ≤ bandLow s.cfg.heads[h].ras || bandHigh s.cfg.heads[h].ras ≤ n then lockLoss h (lineNoted h forward at_ n s)
      else if !s.heads[h].showing || decide (trimmedStart s.cfg.heads[h] forward at_ < (showStart s h : Int)) then
        lineSensed h forward at_ n s
      else if linesShown s h ≤ s.rasters[h].line then endLines h (lineSensed h forward at_ n s)
      else if s.heads[h].mode == .safe then lineOpened h forward at_ n s
      else reachLines 3 (some h) s.rasters[h].line (s.rasters[h].line + 1) (lineOpened h forward at_ n s) := by
  unfold lineStart
  refine if_neg ?_
  simp only [hras, hscan, Bool.not_true, bne_self_eq_false, Bool.or_self, Bool.false_or]
  exact fun hrepeats => extreme_repeats.mp hrepeats hnew

theorem lineStart_edge (hras : s.cfg.heads[h].raster = true) (hscan : s.rasters[h].scan = 2) (hnew : LineIsNew h forward s)
    (hedge : ¬ WithinBand h n s) : lineStart h forward at_ n s = reacquired h 0 (lineSensed h forward at_ n s) := by
  have hlocked : (lineNoted h forward at_ n s).rasters[h].scan = 2 := by
    rw [lineNoted, onRaster_rasters, upd_get_self]
    exact hscan
  rw [lineStart_sensed hras hscan hnew, if_pos (bandEdge_iff.mpr hedge), lockLoss_locked hlocked]
  rfl

theorem lineStart_outside (hras : s.cfg.heads[h].raster = true) (hscan : s.rasters[h].scan = 2) (hnew : LineIsNew h forward s)
    (hband : WithinBand h n s)
    (hout : s.heads[h].showing = false ∨ trimmedStart s.cfg.heads[h] forward at_ < (showStart s h : Int)) :
    lineStart h forward at_ n s = lineSensed h forward at_ n s := by
  rw [lineStart_sensed hras hscan hnew, if_neg (fun hedge => bandEdge_iff.mp hedge hband),
    if_pos (by simpa only [Bool.or_eq_true, Bool.not_eq_true', decide_eq_true_eq] using hout)]

/-- A line start in the show span, after the last line or before it. -/
theorem lineStart_shown (hras : s.cfg.heads[h].raster = true) (hscan : s.rasters[h].scan = 2) (hnew : LineIsNew h forward s)
    (hband : WithinBand h n s) (hshow : s.heads[h].showing = true)
    (hin : (showStart s h : Int) ≤ trimmedStart s.cfg.heads[h] forward at_) :
    lineStart h forward at_ n s =
      if linesShown s h ≤ s.rasters[h].line then endLines h (lineSensed h forward at_ n s)
      else if s.heads[h].mode == .safe then lineOpened h forward at_ n s
      else reachLines 3 (some h) s.rasters[h].line (s.rasters[h].line + 1) (lineOpened h forward at_ n s) := by
  rw [lineStart_sensed hras hscan hnew, if_neg (fun hedge => bandEdge_iff.mp hedge hband),
    if_neg (by rw [hshow, Bool.not_true, Bool.false_or, decide_eq_true_eq]; exact Int.not_lt.mpr hin)]

/-- The next line of the frame: what line match adds touches the clock's marks and the events alone. -/
theorem lineStart_opens (hras : s.cfg.heads[h].raster = true) (hscan : s.rasters[h].scan = 2) (hnew : LineIsNew h forward s)
    (hband : WithinBand h n s) (hshow : s.heads[h].showing = true)
    (hin : (showStart s h : Int) ≤ trimmedStart s.cfg.heads[h] forward at_) (hmore : s.rasters[h].line < linesShown s h) :
    let t := lineStart h forward at_ n s
    Only [.clk, .cxl, .ev, .out] t (lineOpened h forward at_ n s) ∧ t.clk.tick = s.clk.tick ∧ t.clk.now = s.clk.now := by
  have hclk : (lineOpened h forward at_ n s).clk = s.clk := (lineOpened_only ..).same .clk rfl
  dsimp only
  rw [lineStart_shown hras hscan hnew hband hshow hin, if_neg (Nat.not_le.mpr hmore)]
  split
  · exact ⟨only_refl _ _, by rw [hclk], by rw [hclk]⟩
  · obtain ⟨htick, hnow⟩ := reachLines_time 3 (some h) s.rasters[h].line (s.rasters[h].line + 1) (lineOpened h forward at_ n s)
    exact ⟨reachLines_plain_only .., by rw [htick, hclk], by rw [hnow, hclk]⟩

/-- After the last line the line counts on, and its end is noted; the slow axis holds from the first such extreme on. -/
theorem endLines_sensed (h : Head) (forward : Bool) (at_ n : Nat) (s : State) :
    let r := s.rasters[h]
    let t := endLines h (lineSensed h forward at_ n s)
    t.rasters[h].line = r.line ∧ (0 < r.line → t.rasters[h].linesOver = true) ∧
      (0 < r.line → r.linesOver = false → t.rasters[h].slow = .held (linePosition s h r.line)) := by
  intro r t
  have hat : (lineSensed h forward at_ n s).rasters[h] = tracksLine forward n (trimmedStart s.cfg.heads[h] forward at_) r := by
    rw [lineSensed_rasters, upd_get_self]
  by_cases hidle : r.linesOver = true ∨ r.line = 0
  · have ht : t = lineSensed h forward at_ n s := endLines_idle (by rw [hat]; exact hidle)
    rw [ht, hat]
    refine ⟨rfl, fun hpos => hidle.resolve_right (Nat.ne_of_gt hpos), fun hpos hfirst => ?_⟩
    rw [hidle.resolve_right (Nat.ne_of_gt hpos)] at hfirst
    cases hfirst
  · obtain ⟨hover, hline⟩ := not_or.mp hidle
    have ht := endLines_rasters (h := h) (s := lineSensed h forward at_ n s) (by rw [hat]; exact Nat.pos_of_ne_zero hline)
      (by rw [hat]; exact eq_false_of_ne_true hover)
    show t.rasters[h].line = _ ∧ _
    rw [ht, upd_get_self, hat, lineSensed_position]
    exact ⟨rfl, fun _ => rfl, fun _ _ => rfl⟩

end

/-- Settles O29: a sensed extreme is noted with the gates closed, and what follows is a hold, the end of the lines or the next
line; the gates of a line are those of the head. -/
theorem rasterLinesAct : Obligations.RasterLinesAct := by
  unfold Obligations.RasterLinesAct
  intro h forward at_ n s x r start tracked within shut isNew
  have hshut {t : State} (ht : HeadShut h s t) : shut (settle t) := ht.keep (settle_only t) rfl
  refine ⟨fun hidle => ?_, fun hras hscan hnew hedge => ?_, fun hras hscan hnew hband hout => ?_,
    fun hras hscan hnew hband hshow hin => ⟨fun hlast => ?_, fun hmore => ?_⟩, fun hras hoff => ?_,
    fun hras hshow hlights => ?_, fun hras => ?_⟩
  · exact exec_of_effect rfl (lineStart_idle hidle)
  · refine ends_of (exec_of_effect rfl (lineStart_edge hras hscan hnew hedge))
      (only_step (reacquired_only ..) rfl (only_mono (lineSensed_only ..) rfl)) rfl
      ⟨hshut ((lineSensed_shut ..).keep (reacquired_only ..) rfl), ?_⟩
    rw [settle_rasters, reacquired_rasters, upd_get_self, lineSensed_rasters, upd_get_self]
    exact ⟨rfl, rfl⟩
  · exact ends_of (exec_of_effect rfl (lineStart_outside hras hscan hnew hband hout)) (only_mono (lineSensed_only ..) rfl) rfl
      ⟨(settle_rasters _).trans (lineSensed_rasters ..), hshut (lineSensed_shut ..)⟩
  · obtain ⟨hline, hover, hslow⟩ := endLines_sensed h forward at_ n s
    refine ends_of (exec_of_effect rfl ((lineStart_shown hras hscan hnew hband hshow hin).trans (if_pos hlast)))
      (only_step (endLines_only ..) rfl (only_mono (lineSensed_only ..) rfl)) rfl ?_
    rw [settle_rasters]
    exact ⟨hline, hover, hslow, hshut ((lineSensed_shut ..).keep (endLines_only ..) rfl)⟩
  · obtain ⟨honly, htick, hnow⟩ := lineStart_opens hras hscan hnew hband hshow hin hmore
    have hrasters : (lineStart h forward at_ n s).rasters = _ := (honly.same .rasters rfl).trans (lineOpened_rasters ..)
    have hlinks : (lineStart h forward at_ n s).links = _ := (honly.same .links rfl).trans (lineOpened_links ..)
    have hbefore : (lineSensed h forward at_ n s).links = s.links := (lineSensed_only ..).same .links rfl
    refine ends_of rfl (only_step honly rfl (only_mono (lineOpened_only ..) rfl)) rfl
      ⟨(settle_rasters _).trans hrasters, fun hstop => ?_, fun hgo => ?_, hshut ((lineOpened_shut ..).keep honly rfl), ?_⟩
    · rw [settle_links, hlinks, stopAtEntry_stopping (by rw [hbefore, hstop])]
    · rw [settle_links, hlinks, stopAtEntry_runs (by rw [hbefore, hgo]), hbefore]
    · rw [settle_clk]
      exact ⟨htick, hnow⟩
  · exact exec_of_effect rfl (gateOpens_dark_line hras hoff)
  · have hrasters : (openGates h none (onRaster h gatesUsed s)).rasters = _ := (openGates_only ..).same .rasters rfl
    refine ends_of (exec_of_effect rfl (gateOpens_lit_line hras hshow hlights))
      (only_step (openGates_only ..) rfl (only_mono (only_onRaster ..) rfl)) rfl
      ⟨(settle_rasters _).trans hrasters, fun i => ?_⟩
    rw [settle_chans, openGates_gate, mayLight_onRaster rfl]
    rfl
  · refine ends_of (exec_of_effect rfl (gateCloses_raster hras))
      (only_step (only_onRaster ..) rfl (only_mono (closeGates_only ..) rfl)) rfl
      ⟨?_, hshut ((closeGates_shut h s).keep (only_onRaster ..) rfl)⟩
    rw [settle_rasters, onRaster_rasters, closeGates_rasters]
    rfl

end Sys2Proof.Machine

/-! # The packets of a raster head (R236, R238 to R243) -/

namespace Sys2Proof.Machine

/-! ## What a packet holds -/

/-- The block of a packet as it leaves its lane (R192, R197, R238). -/
def packetOutput (s : State) (h : Head) (lane : Fin 8) (p y : Nat) (payload : List Byte) : Output :=
  .lane h lane (codeWords (s.cfg.links[h].txPol.testBit lane.val) s.links[h].scram[lane].toNat
    (blockWords (blockHeader s h 2 p y) payload)).1

/-- The payload of a line packet: its descriptor and its slots (R236, R239, R240). -/
def slotBytes (s : State) (h : Head) (y p : Nat) (line : Rat × Bool) (done : Nat) (data : List Byte) : List Byte :=
  toBytes 8 (packetDesc s h (packetLane s.cfg.heads[h] y p) line done) ++
    ((List.range 63).map fun i => toBytes 8 (slotWord s h y p i data)).flatten

/-- The payload of a table packet (R243). -/
def tableBytes (x : HeadCfg) (t : Nat) : List Byte :=
  toBytes 8 (pack [(0, 12, x.outW + 1)]) ++ ((List.range 252).map fun i =>
    toBytes 2 (if 252 * t + i < x.outW + 1 then rtEdge x (252 * t + i) else 0)).flatten

theorem emitPacket_out (h : Head) (y p : Nat) (line : Rat × Bool) (done : Nat) (data : List Byte) (s : State) :
    (emitPacket h y p line done data s).out =
      packetOutput s h (packetLane s.cfg.heads[h] y p) p y (slotBytes s h y p line done data) :: s.out := rfl

theorem emitTable_out (h : Head) (t : Nat) (s : State) : (emitTable h t s).out =
    packetOutput s h (packetLane s.cfg.heads[h] 0xFFF (96 + t)) (96 + t) 0xFFF (tableBytes s.cfg.heads[h] t) :: s.out := rfl

theorem emitPacket_links (h : Head) (y p : Nat) (line : Rat × Bool) (done : Nat) (data : List Byte) (s : State) :
    ∃ v, (emitPacket h y p line done data s).links = upd s.links h fun l => { l with scram := v } := sendWords_links ..

theorem emitTable_links (h : Head) (t : Nat) (s : State) :
    ∃ v, (emitTable h t s).links = upd s.links h fun l => { l with scram := v } := sendWords_links ..

/-- What the words of a packet depend on stands: all but the links, the scanners and the output, and of those the scramblers, the
delays of the lanes and the tracked frequency. -/
structure SamePackets (h : Head) (s u : State) : Prop where
  only : Only [.links, .rasters, .out] u s
  scram : u.links[h].scram = s.links[h].scram
  delays : u.links[h].delays = s.links[h].delays
  fNow : u.rasters[h].fNow = s.rasters[h].fNow

theorem SamePackets.trans {h : Head} {a b c : State} (j : SamePackets h a b) (k : SamePackets h b c) : SamePackets h a c :=
  ⟨only_step k.only rfl j.only, k.scram.trans j.scram, k.delays.trans j.delays, k.fNow.trans j.fNow⟩

theorem samePackets_onRaster {h : Head} {f : RasterDyn → RasterDyn} {s : State}
    (hf : (f s.rasters[h]).fNow = s.rasters[h].fNow) : SamePackets h s (onRaster h f s) :=
  ⟨only_mono (only_onRaster ..) rfl, rfl, rfl, by rw [onRaster_rasters, upd_get_self, hf]⟩

theorem samePackets_onLink {h : Head} {f : LinkDyn → LinkDyn} {s : State} (hscram : (f s.links[h]).scram = s.links[h].scram)
    (hdelays : (f s.links[h]).delays = s.links[h].delays) : SamePackets h s (onLink h f s) :=
  ⟨only_mono (only_onLink ..) rfl, by rw [onLink_links, upd_get_self, hscram], by rw [onLink_links, upd_get_self, hdelays], rfl⟩

section
variable {h : Head} {s u : State}

theorem SamePackets.cfg (same : SamePackets h s u) : u.cfg = s.cfg := same.only.same .cfg rfl
theorem SamePackets.clk (same : SamePackets h s u) : u.clk = s.clk := same.only.same .clk rfl
theorem SamePackets.heads (same : SamePackets h s u) : u.heads = s.heads := same.only.same .heads rfl
theorem SamePackets.safety (same : SamePackets h s u) : u.safety = s.safety := same.only.same .safety rfl
theorem SamePackets.boot (same : SamePackets h s u) : u.boot = s.boot := same.only.same .boot rfl

theorem SamePackets.slotWord (same : SamePackets h s u) (y p i : Nat) (data : List Byte) :
    slotWord u h y p i data = slotWord s h y p i data := by
  have hsize : windowSize u = windowSize s := by rw [windowSize, windowSize, same.safety]
  have hglyph (lit : BitVec 64) (c : Colour) (x y : Nat) : glyphAt u lit c x y = glyphAt s lit c x y := by
    rw [glyphAt, glyphAt, same.safety]
  have hrow : lineRow u h y = lineRow s h y := by simp only [lineRow, hsize, same.cfg, same.heads]
  have hunder (x y : Nat) : underWindow u h x y = underWindow s h x y := by
    simp only [underWindow, winShown, hsize, same.cfg, same.boot]
  have hvalue (g : Nat) : windowValue u h g = windowValue s h g := by simp only [windowValue, same.heads]
  simp only [Machine.slotWord, hrow, hunder, hvalue, hglyph, same.cfg, same.safety]

theorem SamePackets.packetDesc (same : SamePackets h s u) (lane : Fin 8) (line : Rat × Bool) (done : Nat) :
    packetDesc u h lane line done = packetDesc s h lane line done := by
  simp only [Machine.packetDesc, hpNs, same.delays, same.fNow, same.heads]

theorem SamePackets.slotBytes (same : SamePackets h s u) (y p : Nat) (line : Rat × Bool) (done : Nat) (data : List Byte) :
    slotBytes u h y p line done data = slotBytes s h y p line done data := by
  simp only [Machine.slotBytes, same.packetDesc, same.slotWord, same.cfg]

theorem SamePackets.packetOutput (same : SamePackets h s u) (lane : Fin 8) (p y : Nat) (payload : List Byte) :
    packetOutput u h lane p y payload = packetOutput s h lane p y payload := by
  simp only [Machine.packetOutput, blockHeader, frameNo, same.clk, same.cfg, same.scram]

/-- A line packet that is sent from a state like s is sent as from s. -/
theorem emitPacket_out_of_same (same : SamePackets h s u) (y p : Nat) (line : Rat × Bool) (done : Nat) (data : List Byte) :
    (emitPacket h y p line done data u).out =
      packetOutput s h (packetLane s.cfg.heads[h] y p) p y (slotBytes s h y p line done data) :: u.out := by
  rw [emitPacket_out, same.packetOutput, same.slotBytes, same.cfg]

theorem emitTable_out_of_same (same : SamePackets h s u) (t : Nat) : (emitTable h t u).out =
    packetOutput s h (packetLane s.cfg.heads[h] 0xFFF (96 + t)) (96 + t) 0xFFF (tableBytes s.cfg.heads[h] t) :: u.out := by
  rw [emitTable_out, same.packetOutput, same.cfg]

/-! ## A packet again (R209, R240) -/

/-- The packet waits for an answer again. -/
def packetAgain (f : Flight) (r : RasterDyn) : RasterDyn :=
  { r with flights := r.flights.map fun x => if x.same f then { x with waiting := true, resends := x.resends + 1 } else x }

/-- A re-send is counted. -/
def countResend (l : LinkDyn) : LinkDyn := { l with resent := sat 32 (l.resent + 1) }

/-- What leaves when a packet of a line, or of the table, is sent again. -/
def resendOutput (s : State) (h : Head) (f : Flight) (line : Rat × Bool) (done : Nat) : Output :=
  if f.block = 0xFFF then packetOutput s h (packetLane s.cfg.heads[h] 0xFFF (96 + (f.plane - 96))) (96 + (f.plane - 96)) 0xFFF
    (tableBytes s.cfg.heads[h] (f.plane - 96))
  else packetOutput s h (packetLane s.cfg.heads[h] f.block f.plane) f.plane f.block
    (slotBytes s h f.block f.plane line done f.data)

theorem packetResend_spec (h : Head) (f : Flight) (line : Rat × Bool) (done : Nat) (s : State) :
    (packetResend h f line done s).out = resendOutput s h f line done :: s.out ∧
      (packetResend h f line done s).rasters = upd s.rasters h (packetAgain f) ∧
      ∃ v, (packetResend h f line done s).links = upd s.links h fun l => { countResend l with scram := v } := by
  obtain ⟨u, hu⟩ : ∃ u, onLink h countResend (onRaster h (packetAgain f) s) = u := ⟨_, rfl⟩
  have same : SamePackets h s u := hu ▸ (samePackets_onRaster rfl).trans (samePackets_onLink rfl rfl)
  have hlinks : u.links = upd s.links h countResend := hu ▸ rfl
  have hrasters : u.rasters = upd s.rasters h (packetAgain f) := hu ▸ rfl
  have hout : u.out = s.out := hu ▸ rfl
  have heq : packetResend h f line done s =
      if f.block = 0xFFF then emitTable h (f.plane - 96) u else emitPacket h f.block f.plane line done f.data u := hu ▸ rfl
  rw [heq, resendOutput]
  split
  · obtain ⟨v, hv⟩ := emitTable_links h (f.plane - 96) u
    exact ⟨by rw [emitTable_out_of_same same, hout], ((emitTable_only ..).same .rasters rfl).trans hrasters, v,
      by rw [hv, hlinks, upd_upd]⟩
  · obtain ⟨v, hv⟩ := emitPacket_links h f.block f.plane line done f.data u
    exact ⟨by rw [emitPacket_out_of_same same, hout], ((emitPacket_only ..).same .rasters rfl).trans hrasters, v,
      by rw [hv, hlinks, upd_upd]⟩

/-! ## The table (R243) -/

/-- A packet of a line, or of the table, that has gone out and waits for its answer. -/
def packetInFlight (p y : Nat) (data : List Byte) : Flight :=
  { plane := p, block := y, resends := 0, waiting := true, data := data }

/-- The next table packet goes on this lane, has a place there, and meets its deadline. -/
def TableGoes (s : State) (h : Head) (lane : Fin 8) (done : Nat) : Prop :=
  packetLane s.cfg.heads[h] 0xFFF (96 + s.rasters[h].tableNext) = lane ∧ laneFree s h lane = true ∧
    inTime s h 0xFFF (0, true) done = true

/-- The scanner after its next table packet. -/
def tableTaken (r : RasterDyn) : RasterDyn :=
  { r with tableNext := r.tableNext + 1, flights := r.flights ++ [packetInFlight (96 + r.tableNext) 0xFFF []] }

variable {lane : Fin 8} {done : Nat}

theorem tableSend_idle (hidle : ¬ TableGoes s h lane done) : tableSend h lane done s = sendIdle h lane s :=
  if_neg (by simpa only [TableGoes, Bool.and_eq_true, beq_iff_eq, and_assoc] using hidle)

theorem tableSend_goes (hgoes : TableGoes s h lane done) :
    tableSend h lane done s = emitTable h s.rasters[h].tableNext (onRaster h tableTaken s) := by
  have htaken : packetFlight h 0xFFF (96 + s.rasters[h].tableNext) []
      (onRaster h (fun r => { r with tableNext := r.tableNext + 1 }) s) = onRaster h tableTaken s := by
    rw [packetFlight, onRaster_onRaster]
    exact onRaster_congr rfl
  refine (if_pos ?_).trans (by rw [htaken])
  simpa only [TableGoes, Bool.and_eq_true, beq_iff_eq, and_assoc] using hgoes

theorem tableSend_spec (hgoes : TableGoes s h lane done) :
    Only [.links, .rasters, .out] (tableSend h lane done s) s ∧
      (tableSend h lane done s).rasters = upd s.rasters h tableTaken ∧
      (tableSend h lane done s).out = packetOutput s h lane (96 + s.rasters[h].tableNext) 0xFFF
        (tableBytes s.cfg.heads[h] s.rasters[h].tableNext) :: s.out := by
  rw [tableSend_goes hgoes]
  obtain ⟨hlane, -, -⟩ := hgoes
  refine ⟨only_step (emitTable_only ..) rfl (only_mono (only_onRaster ..) rfl), (emitTable_only ..).same .rasters rfl, ?_⟩
  rw [emitTable_out_of_same (samePackets_onRaster rfl), hlane]
  rfl

/-! ## The packets of the lines (R238 to R242) -/

/-- The line and the index of the next packet. -/
def nextLine (s : State) (h : Head) : Nat := s.rasters[h].packet / npkOf s.cfg.heads[h].outW
def nextPacket (s : State) (h : Head) : Nat := s.rasters[h].packet % npkOf s.cfg.heads[h].outW

/-- No packet of a line can go on this lane: there are no packets, the lines or the span are over, the next packet goes on another
lane, or this one has no place. -/
def LinesHold (s : State) (h : Head) (lane : Fin 8) : Prop :=
  npkOf s.cfg.heads[h].outW = 0 ∨ linesShown s h ≤ nextLine s h ∨ s.heads[h].spanDone = true ∨
    packetLane s.cfg.heads[h] (nextLine s h) (nextPacket s h) ≠ lane ∨ laneFree s h lane = false

/-- The predicted start of the line whose packet is next on this lane. -/
def linePredicted (s : State) (h : Head) (lane : Fin 8) : Option (Rat × Bool) :=
  if npkOf s.cfg.heads[h].outW = 0 || linesShown s h ≤ nextLine s h || s.heads[h].spanDone ||
    packetLane s.cfg.heads[h] (nextLine s h) (nextPacket s h) != lane || !laneFree s h lane then none
  else predicted s h (nextLine s h)

theorem linePredicted_none (hnone : LinesHold s h lane ∨ predicted s h (nextLine s h) = none) :
    linePredicted s h lane = none := by
  unfold linePredicted
  split
  · rfl
  · next hgoes =>
    refine hnone.resolve_left fun hhold => hgoes ?_
    simpa only [LinesHold, Bool.or_eq_true, decide_eq_true_eq, bne_iff_ne, Bool.not_eq_true', or_assoc] using hhold

theorem linePredicted_next (hhold : ¬ LinesHold s h lane) : linePredicted s h lane = predicted s h (nextLine s h) :=
  if_neg (by simpa only [LinesHold, Bool.or_eq_true, decide_eq_true_eq, bne_iff_ne, Bool.not_eq_true', or_assoc] using hhold)

theorem lineSend_none {at_ : Nat} (late : Bool) (hnone : linePredicted s h lane = none) :
    lineSend h lane at_ late s = sendIdle h lane s := by
  unfold lineSend
  dsimp only
  split
  · next line hline =>
    have hsome : linePredicted s h lane = some line := hline
    rw [hnone] at hsome
    cases hsome
  · rfl

/-- The next packet of the lines is sent from a state: it enters the re-send buffer with the host's bytes, and goes out. -/
def lineFirst (h : Head) (y p : Nat) (line : Rat × Bool) (done : Nat) (s : State) : State :=
  let data := fetchPacket s h y p
  emitPacket h y p line done data (packetFlight h y p data (onRaster h (fun r => { r with packet := r.packet + 1 })
    (if data.isEmpty then s else askIo false [slotRange s h y p] s)))

theorem lineSend_predicted {at_ : Nat} {line : Rat × Bool} (late : Bool) (hnext : linePredicted s h lane = some line) :
    lineSend h lane at_ late s =
      if decide ((at_ : Rat) < line.1 - 2 * halfPeriod s h) || !inTime s h (nextLine s h) line (at_ + blockTime s h) then
        sendIdle h lane s
      else lineFirst h (nextLine s h) (nextPacket s h) line (at_ + blockTime s h)
        (if (late || !s.cxl.attached) && s.heads[h].mode != .safe then
          noteDark h (nextLine s h * npkOf s.cfg.heads[h].outW + nextPacket s h) s else s) := by
  unfold lineSend
  dsimp only
  split
  · next found hline =>
    have hsome : linePredicted s h lane = some found := hline
    rw [hnext] at hsome
    cases hsome
    rfl
  · next hline =>
    have hnone : linePredicted s h lane = none := hline
    rw [hnext] at hnone
    cases hnone

/-- A packet of the line would go too early, or too late. -/
def Untimely (s : State) (h : Head) (at_ : Nat) (line : Rat × Bool) : Prop :=
  (at_ : Rat) < line.1 - 2 * halfPeriod s h ∨ inTime s h (nextLine s h) line (at_ + blockTime s h) = false

theorem lineSend_untimely {at_ : Nat} {line : Rat × Bool} (late : Bool) (hnext : linePredicted s h lane = some line)
    (htime : Untimely s h at_ line) : lineSend h lane at_ late s = sendIdle h lane s := by
  rw [lineSend_predicted late hnext]
  exact if_pos (by simpa only [Untimely, Bool.or_eq_true, decide_eq_true_eq, Bool.not_eq_true'] using htime)

/-- The packet's host bytes have been asked for, where there are any (R357). -/
def packetFetched (s : State) (h : Head) (y p : Nat) : State :=
  if (fetchPacket s h y p).isEmpty then s else askIo false [slotRange s h y p] s

theorem packetFetched_eq (s : State) (h : Head) (y p : Nat) :
    packetFetched s h y p = { s with out := (packetFetched s h y p).out } := by
  unfold packetFetched
  split
  · rfl
  · exact askIo_eq ..

theorem packetFetched_same (s : State) (h : Head) (y p : Nat) : SamePackets h s (packetFetched s h y p) := by
  have honly : Only [.links, .rasters, .out] (packetFetched s h y p) s :=
    only_ite _ (only_refl _ s) (only_mono (askIo_only ..) rfl)
  refine ⟨honly, ?_, ?_, ?_⟩ <;> rw [packetFetched_eq]

/-- The scanner after its next line packet. -/
def lineTaken (y p : Nat) (data : List Byte) (r : RasterDyn) : RasterDyn :=
  { r with packet := r.packet + 1, flights := r.flights ++ [packetInFlight p y data] }

/-- The next packet of the lines goes out, with the host's pixels or, on the safe sequence, without. -/
theorem lineSend_goes {at_ : Nat} {late : Bool} {line : Rat × Bool} (hnext : linePredicted s h lane = some line)
    (htime : ¬ Untimely s h at_ line) (hhost : (late = false ∧ s.cxl.attached = true) ∨ s.heads[h].mode = .safe) :
    lineSend h lane at_ late s =
      let y := nextLine s h
      let p := nextPacket s h
      let data := fetchPacket s h y p
      emitPacket h y p line (at_ + blockTime s h) data (onRaster h (lineTaken y p data) (packetFetched s h y p)) := by
  have hstands : ((late || !s.cxl.attached) && s.heads[h].mode != .safe) = false := by
    rcases hhost with ⟨hl, ha⟩ | hsafe
    · rw [hl, ha]
      rfl
    · rw [hsafe, bne_self_eq_false, Bool.and_false]
  rw [lineSend_predicted late hnext,
    if_neg (by simpa only [Untimely, Bool.or_eq_true, decide_eq_true_eq, Bool.not_eq_true'] using htime), hstands, lineFirst]
  simp only [Bool.false_eq_true, if_false, packetFlight, onRaster_onRaster]
  rfl

theorem lineSend_spec {at_ : Nat} {late : Bool} {line : Rat × Bool} (hhold : ¬ LinesHold s h lane)
    (hnext : predicted s h (nextLine s h) = some line) (htime : ¬ Untimely s h at_ line)
    (hhost : (late = false ∧ s.cxl.attached = true) ∨ s.heads[h].mode = .safe) :
    let y := nextLine s h
    let p := nextPacket s h
    let data := fetchPacket s h y p
    let t := lineSend h lane at_ late s
    Only [.links, .rasters, .out] t s ∧ t.rasters = upd s.rasters h (lineTaken y p data) ∧
      t.out = packetOutput s h lane p y (slotBytes s h y p line (at_ + blockTime s h) data) :: (packetFetched s h y p).out := by
  intro y p data t
  have hlane : packetLane s.cfg.heads[h] y p = lane :=
    Decidable.byContradiction fun hne => hhold (.inr (.inr (.inr (.inl hne))))
  have hfetched := packetFetched_same s h y p
  have same : SamePackets h s (onRaster h (lineTaken y p data) (packetFetched s h y p)) :=
    hfetched.trans (samePackets_onRaster rfl)
  have ht : t = emitPacket h y p line (at_ + blockTime s h) data (onRaster h (lineTaken y p data) (packetFetched s h y p)) :=
    lineSend_goes ((linePredicted_next hhold).trans hnext) htime hhost
  rw [ht]
  refine ⟨only_step (emitPacket_only ..) rfl same.only, ((emitPacket_only ..).same .rasters rfl).trans ?_, ?_⟩
  · rw [onRaster_rasters, packetFetched_eq]
  · rw [emitPacket_out_of_same same, hlane, onRaster_out]

/-! ## The next unit of a lane -/

/-- A re-send that is due on the lane and still meets its deadline (R209, R240). -/
def duePacket (s : State) (h : Head) (lane : Fin 8) (done : Nat) : Option Flight :=
  s.rasters[h].flights.find? fun f => !f.waiting && flightLane s.cfg.heads[h] f == lane.val &&
    inTime s h f.block ((predicted s h f.block).getD (0, true)) done

theorem packetSend_down {at_ : Nat} (late : Bool) (hdown : s.cfg.heads[h].raster = false ∨ linkLive s h = false) :
    packetSend h lane at_ late s = s := by
  unfold packetSend
  exact if_pos (by simpa only [Bool.or_eq_true, Bool.not_eq_true'] using hdown)

theorem packetSend_idle {at_ : Nat} (late : Bool) (hras : s.cfg.heads[h].raster = true) (hlive : linkLive s h = true)
    (hidle : linkSends s h = false ∨ s.clk.phase = .latch) : packetSend h lane at_ late s = sendIdle h lane s := by
  unfold packetSend
  rw [if_neg (by rw [hras, hlive]; decide),
    if_pos (by simpa only [Bool.or_eq_true, Bool.not_eq_true', beq_iff_eq] using hidle)]

/-- A re-send that is due goes first. -/
theorem packetSend_resend {at_ : Nat} {f : Flight} (late : Bool) (hras : s.cfg.heads[h].raster = true)
    (hsends : linkSends s h = true) (hphase : s.clk.phase ≠ .latch)
    (hdue : duePacket s h lane (at_ + blockTime s h) = some f) : packetSend h lane at_ late s =
      packetResend h f ((predicted s h f.block).getD (0, true)) (at_ + blockTime s h) s := by
  unfold duePacket at hdue
  unfold packetSend
  rw [if_neg (by rw [hras, linkLive_of_sends hsends]; decide), if_neg (by
    simp only [hsends, Bool.not_true, Bool.false_or, beq_iff_eq, hphase, not_false_eq_true])]
  simp only [hdue]

/-- Then the table, and then the lines. -/
theorem packetSend_first {at_ : Nat} (late : Bool) (hras : s.cfg.heads[h].raster = true) (hsends : linkSends s h = true)
    (hphase : s.clk.phase ≠ .latch) (hnone : duePacket s h lane (at_ + blockTime s h) = none) :
    packetSend h lane at_ late s =
      if tableWaits s h then tableSend h lane (at_ + blockTime s h) s else lineSend h lane at_ late s := by
  unfold duePacket at hnone
  unfold packetSend
  rw [if_neg (by rw [hras, linkLive_of_sends hsends]; decide), if_neg (by
    simp only [hsends, Bool.not_true, Bool.false_or, beq_iff_eq, hphase, not_false_eq_true])]
  simp only [hnone]

end

/-! ## The row -/

/-- Settles O30: a lane's next unit is a re-send, a table packet, a line packet or IDLE; the words of a packet are those of the
state in which the row finds the head. -/
theorem packetsAreSent : Obligations.PacketsAreSent := by
  unfold Obligations.PacketsAreSent
  intro h lane at_ s x r k y p done line resend words slots table flight
  refine ⟨fun late hdown => exec_of_effect rfl (packetSend_down late hdown), fun late hras hlive hidle =>
    exec_of_effect rfl (packetSend_idle late hras hlive hidle), fun hras hsends hphase => ?_⟩
  have htable (late : Bool) (hnone : resend = none) (hwaits : tableWaits s h = true) :
      packetSend h lane at_ late s = tableSend h lane done s :=
    (packetSend_first late hras hsends hphase hnone).trans (if_pos hwaits)
  have hlines (late : Bool) (hnone : resend = none) (hwaits : tableWaits s h = false) :
      packetSend h lane at_ late s = lineSend h lane at_ late s :=
    (packetSend_first late hras hsends hphase hnone).trans (if_neg (by rw [hwaits]; decide))
  refine ⟨fun late f hdue => ?_, fun late hnone hwaits hlane hfree htime => ?_, fun late hnone hwaits hhold => ?_,
    fun late hnone hwaits hhold => ?_, fun late q hnone hwaits hq htime => ?_,
    fun late q hnone hwaits hk hy hspan hlane hfree hq hearly htime hhost => ?_⟩
  · obtain ⟨hout, hrasters, v, hlinks⟩ := packetResend_spec h f (line f) done s
    refine ends_of (exec_of_effect rfl (packetSend_resend late hras hsends hphase hdue)) (only_mono (packetResend_only ..) rfl) rfl
      ⟨?_, ?_, sends_of_out hout⟩
    · rw [settle_links, hlinks, upd_get_self]
      rfl
    · rw [settle_rasters, hrasters, upd_get_self]
      rfl
  · obtain ⟨honly, hrasters, hout⟩ := tableSend_spec ⟨hlane, hfree, htime⟩
    exact ends_of (exec_of_effect rfl (htable late hnone hwaits)) (only_mono honly rfl) rfl
      ⟨(settle_rasters _).trans hrasters, sends_of_out hout⟩
  · have hidle : ¬ TableGoes s h lane done := by
      rintro ⟨hlane, hfree, htime⟩
      rcases hhold with hother | hfull | hlate
      · exact hother hlane
      · exact Bool.false_ne_true (hfull.symm.trans hfree)
      · exact Bool.false_ne_true (hlate.symm.trans htime)
    exact exec_of_effect rfl ((htable late hnone hwaits).trans (tableSend_idle hidle))
  · have hnext : LinesHold s h lane ∨ predicted s h (nextLine s h) = none := by
      simp only [LinesHold, or_assoc]
      exact hhold
    exact exec_of_effect rfl ((hlines late hnone hwaits).trans (lineSend_none late (linePredicted_none hnext)))
  · refine exec_of_effect rfl ((hlines late hnone hwaits).trans ?_)
    by_cases hhold : LinesHold s h lane
    · exact lineSend_none late (linePredicted_none (.inl hhold))
    · exact lineSend_untimely late ((linePredicted_next hhold).trans hq) htime
  · have hhold : ¬ LinesHold s h lane := by
      rintro (hzero | hover | hdone | hother | hfull)
      · exact Nat.ne_of_gt hk hzero
      · exact Nat.not_le.mpr hy hover
      · exact Bool.false_ne_true (hspan.symm.trans hdone)
      · exact hother hlane
      · exact Bool.false_ne_true (hfull.symm.trans hfree)
    have htimely : ¬ Untimely s h at_ q := by
      rintro (hbefore | hlate)
      · exact Rat.not_lt.mpr hearly hbefore
      · exact Bool.false_ne_true (hlate.symm.trans htime)
    obtain ⟨honly, hrasters, hout⟩ := lineSend_spec hhold hq htimely hhost
    exact ends_of (exec_of_effect rfl (hlines late hnone hwaits)) (only_mono honly rfl) rfl
      ⟨(settle_rasters _).trans hrasters, sends_of_out hout⟩

end Sys2Proof.Machine

/-! # The light commands (09) and the link, OS and line records -/

namespace Sys2Proof.Machine

/-- A command executes under the configuration that it was submitted under. -/
theorem fetched_cfg (op : Op) (d : Desc) (s : State) : (fetched op d s).cfg = s.cfg := by
  unfold fetched
  split <;> simp only [q2Accepted, onSafety_cfg, onQueue_cfg, onBar2_cfg]

/-- LAMP_FADE with its nodes on the line and its curve in range (R282). -/
theorem runOp_lampFade_inRange {d : Desc} {s : State} (hsome : 1 ≤ fld d.payload 16 8) (hmost : fld d.payload 16 8 ≤ 128)
    (hnodes : fld d.payload 8 7 + fld d.payload 16 8 ≤ s.cfg.lines[headOf d.payload].st.nodes) (hcurve : fld d.payload 24 2 ≤ 1) :
    runOp .lampFade d s = .done stOk 0 (addLv [.lampFade (headOf d.payload) (fld d.payload 8 7) (fld d.payload 16 8)
      (bit d.payload 24) (fld d.payload 32 16)] s) := by
  have hcount : lampCountOk d.payload s = true := by
    simp only [lampCountOk, hsome, hmost, hnodes, and_self, decide_true, Bool.and_self]
  exact refuseOr_none (ranges_none (by simp [hcount, hcurve])) _ _

/-- The link, OS and line records with the write that each comes down to, past the reserved bits (R220, R265, R281, R385). -/
theorem runSettingsWrite_light {n : Nat} {write : BitVec 256 → State → Ref × State} {d : Desc} {s : State}
    (hwrite : (n, write) ∈ [(0x07, writeLink), (0x08, writeOs), (0x09, writeLine)]) (hn : fld d.payload 0 8 = n)
    (hres : reservedBits (recordFields n) (recordOf d).toNat 256 3 = none) :
    runSettingsWrite d s = refDone (write (recordOf d) s).1 (write (recordOf d) s).2 s := by
  unfold recordOf at hres ⊢
  simp only [List.mem_cons, List.not_mem_nil, or_false, Prod.mk.injEq] at hwrite
  rcases hwrite with ⟨rfl, rfl⟩ | ⟨rfl, rfl⟩ | ⟨rfl, rfl⟩ <;>
  · simp only [runSettingsWrite, hn, hres]
    rfl

/-- Settles O4: each command passes its checks, answers at once, writes its st fields and stages the others. -/
theorem lightCommandsTakeEffect : Obligations.LightCommandsTakeEffect := by
  unfold Obligations.LightCommandsTakeEffect
  refine ⟨fun d s hs => ⟨fun ha hok => ?_, fun ha hok => ?_, fun ha hok => ?_, fun ha hsome hmost hnodes hcurve => ?_⟩,
    fun d s hs => ⟨?_, ?_, ?_⟩⟩
  · exact does_of_staged hs ha rfl (refuseOr_none hok _ _) (only_mono (chanSetNext_only d.payload _) rfl)
  · exact does_of_staged hs ha rfl (refuseOr_none hok _ _) (only_mono (colourTargetNext_only d.payload _) rfl)
  · exact does_of_staged hs ha rfl (refuseOr_none hok _ _) (only_mono (only_addLv ..) rfl)
  · rw [← fetched_cfg .lampFade d s] at hnodes
    exact does_of_staged hs ha rfl (runOp_lampFade_inRange hsome hmost hnodes hcurve) (only_mono (only_addLv ..) rfl)
  · intro e s1 v ha hok
    exact does_of_record hs ha rfl (runSettingsWrite_light (by simp) (withRecord_number 0x07 d (by decide)) ha.2) hok
      (only_mono (writeLink_only ..) rfl)
  · intro e s1 i v ha hok
    exact does_of_record hs ha rfl (runSettingsWrite_light (by simp) (withRecord_number 0x08 d (by decide)) ha.2) hok
      (only_mono (writeOs_only ..) rfl)
  · intro e s1 ha hok
    exact does_of_record hs ha rfl (runSettingsWrite_light (by simp) (withRecord_number 0x09 d (by decide)) ha.2) hok
      (only_mono (writeLine_only ..) rfl)

end Sys2Proof.Machine

/-! # The light channels are judged (09, R330) -/

namespace Sys2Proof.Machine

/-! ## What a channel tells (R285) -/

theorem groupOf_srcChan (n : Chan) : groupOf (srcChan n) = 3 := by
  simp only [groupOf, srcChan]
  omega

/-- What a channel tells is recorded at most. -/
theorem raise_chan_only (n : Chan) (code : BitVec 16) (p : Nat) (s : State) :
    Only [.cxl, .ev, .out] (raise (srcChan n) code p s) s :=
  raise_plain_only (by rw [groupOf_srcChan]; decide) code p s

/-! ## Faults (R258, R262, R330) -/

/-- The record of a channel that a fault takes. -/
def faultedChan (s : State) (n : Chan) (cause : Nat) (c : ChanDyn) : ChanDyn :=
  { c with
    state := 3, cause := cause, latched := faultLatches s n cause, gateOpen := false, bucksOff := true, started := false, unjudged := 0
    lastOver := if cause = 2 then some s.clk.tick else c.lastOver
    restart := if faultLatches s n cause then none else some (s.clk.tick + 64) }

/-- Past the channel's record, a fault is its events. -/
theorem faultChan_events (n : Chan) (cause vS iMeas : Nat) (s : State) :
    Only [.cxl, .ev, .out] (faultChan n cause vS iMeas s) (onChan n (faultedChan s n cause) s) :=
  only_ite _ (raise_chan_only ..) (only_step (raise_chan_only ..) rfl (raise_chan_only ..))

theorem faultChan_chans (n : Chan) (cause vS iMeas : Nat) (s : State) :
    (faultChan n cause vS iMeas s).chans = upd s.chans n (faultedChan s n cause) :=
  (faultChan_events ..).same .chans rfl

/-- A row that comes down to a fault of one channel, in a state u in which that channel's record alone has changed: what the row's
clause says follows from the channel's new record and from the others', which stand. -/
theorem ends_of_fault {r : Instr} {n : Chan} {cause vS iMeas : Nat} {s u : State} {P : State → Prop} {a : ChanDyn → ChanDyn}
    (hexec : exec r s = .next (settle (faultChan n cause vS iMeas u))) (hu : u = onChan n a s)
    (hP : ∀ t : State, t.chans[n] = faultedChan u n cause (a s.chans[n]) → (∀ k, k ≠ n → t.chans[k] = s.chans[k]) → P t) :
    Ends r s [.chans, .cxl, .ev, .out] P := by
  have honly : Only [.chans, .cxl, .ev, .out] (faultChan n cause vS iMeas u) s := by
    refine only_step (faultChan_events ..) rfl (only_step (only_onChan ..) rfl ?_)
    rw [hu]
    exact only_mono (only_onChan ..) rfl
  have hchans : (settle (faultChan n cause vS iMeas u)).chans = upd (upd s.chans n a) n (faultedChan u n cause) := by
    rw [settle_chans, faultChan_chans, hu, onChan_chans]
  refine ends_of hexec honly rfl (hP _ ?_ fun k hk => ?_)
  · rw [hchans, upd_get_self, upd_get_self]
  · rw [hchans, upd_get_ne _ _ hk, upd_get_ne _ _ hk]

section
variable {n : Chan} {s : State}

/-! ## Judged windows (R252, R257, R258) -/

theorem judgeCause_open {vS : Nat} {m : ChanMeas}
    (hopen : s.cfg.chans[n].lv.vOpen ≤ vS ∨ 97 / 100 ≤ m.dPass ∧ m.iMean < 3 / 4 * s.chans[n].iCmd) :
    judgeCause s n vS m = some 0 :=
  if_pos (by simpa only [Bool.or_eq_true, Bool.and_eq_true, decide_eq_true_eq] using hopen)

theorem judgeCause_short {vS : Nat} {m : ChanMeas} (hbelow : vS < s.cfg.chans[n].lv.vOpen)
    (hfed : ¬ (97 / 100 ≤ m.dPass ∧ m.iMean < 3 / 4 * s.chans[n].iCmd)) (hshort : vS ≤ s.cfg.chans[n].lv.vShort) :
    judgeCause s n vS m = some 1 := by
  have hclosed : ¬ (s.cfg.chans[n].lv.vOpen ≤ vS ∨ 97 / 100 ≤ m.dPass ∧ m.iMean < 3 / 4 * s.chans[n].iCmd) :=
    not_or.mpr ⟨Nat.not_le.mpr hbelow, hfed⟩
  unfold judgeCause
  rw [if_neg (by simpa only [Bool.or_eq_true, Bool.and_eq_true, decide_eq_true_eq] using hclosed), if_pos hshort]

/-- What a judged window leaves of the channel's record: its measurement, and the gate as the head's gates are. -/
def windowNoted (s : State) (n : Chan) (m : ChanMeas) (c : ChanDyn) : ChanDyn :=
  let lit := c.gateOpen && s.heads[s.cfg.chans[n].st.head].gateOpen
  { c with
    vS := sat 16 (stringVolts s.cfg.chans[n].st m), vKnown := true, iMeas := (ratRound m.iMean).toNat, since := 0, unjudged := 0
    gateOpen := lit, opened := lit }

theorem judgeChan_unjudged {m : ChanMeas} (hidle : s.chans[n].state ≠ 2 ∨ s.chans[n].opened = false ∨ m.ns < 2000) :
    judgeChan n m s = s :=
  if_pos (by simpa only [Bool.or_eq_true, bne_iff_ne, Bool.not_eq_true', decide_eq_true_eq, or_assoc] using hidle)

/-- A window is judged where the channel runs and its gate was open for 2 µs. -/
theorem judged_of_open {m : ChanMeas} (hruns : s.chans[n].state = 2) (hopened : s.chans[n].opened = true) (hlong : 2000 ≤ m.ns) :
    ¬ (s.chans[n].state != 2 || !s.chans[n].opened || decide (m.ns < 2000)) = true := by
  simp only [hruns, hopened, bne_self_eq_false, Bool.not_true, Bool.or_self, Bool.false_or, decide_eq_true_eq,
    Nat.not_lt.mpr hlong, not_false_eq_true]

/-- A window without a fault leaves its measurement. -/
theorem judgeChan_right {m : ChanMeas} (hruns : s.chans[n].state = 2) (hopened : s.chans[n].opened = true) (hlong : 2000 ≤ m.ns)
    (hright : judgeCause s n (sat 16 (stringVolts s.cfg.chans[n].st m)) m = none) :
    judgeChan n m s = onChan n (windowNoted s n m) s := by
  unfold judgeChan
  rw [if_neg (judged_of_open hruns hopened hlong)]
  simp only [hright]
  rfl

/-- A fault that a window shows comes after its measurement. -/
theorem judgeChan_fault {m : ChanMeas} {cause : Nat} (hruns : s.chans[n].state = 2) (hopened : s.chans[n].opened = true)
    (hlong : 2000 ≤ m.ns) (hcause : judgeCause s n (sat 16 (stringVolts s.cfg.chans[n].st m)) m = some cause) :
    judgeChan n m s = faultChan n cause (sat 16 (stringVolts s.cfg.chans[n].st m)) (ratRound m.iMean).toNat
      (onChan n (windowNoted s n m) s) := by
  unfold judgeChan
  rw [if_neg (judged_of_open hruns hopened hlong)]
  simp only [hcause]
  rfl

/-! ## Over-current (R258, R262) -/

theorem overCurrent_iff {c : ChanSt} {o : OverMeas} :
    overCurrent c o = true ↔ (c.ocLevel : Rat) / 100 * (c.iMax : Rat) < o.iMean ∨ 16 ≤ o.peaks := by
  simp only [overCurrent, Bool.or_eq_true, decide_eq_true_eq]

theorem overCurrentFault_idle {o : OverMeas}
    (hidle : (s.chans[n].state ≠ 1 ∧ s.chans[n].state ≠ 2) ∨ ¬ overCurrent s.cfg.chans[n].st o = true) :
    overCurrentFault n o s = s := by
  refine if_neg ?_
  simp only [Bool.and_eq_true, Bool.or_eq_true, beq_iff_eq]
  rintro ⟨hruns, hover⟩
  exact hidle.elim (fun hoff => hruns.elim hoff.1 hoff.2) (· hover)

theorem overCurrentFault_over {o : OverMeas} (hruns : s.chans[n].state = 1 ∨ s.chans[n].state = 2)
    (hover : overCurrent s.cfg.chans[n].st o = true) :
    overCurrentFault n o s = faultChan n 2 s.chans[n].vS (ratRound o.iMean).toNat s :=
  if_pos (by simpa only [Bool.and_eq_true, Bool.or_eq_true, beq_iff_eq] using And.intro hruns hover)

/-- The first over-current, or one long after the last, restarts on its own. -/
theorem faultLatches_first (hlong : ∀ k, s.chans[n].lastOver = some k → k + 4096 ≤ s.clk.tick) : faultLatches s n 2 = false := by
  unfold faultLatches againOver
  cases hlast : s.chans[n].lastOver with
  | none => rfl
  | some k => simpa using hlong k hlast

/-- A second one within 4096 ticks latches. -/
theorem faultLatches_again {k : Nat} (hlast : s.chans[n].lastOver = some k) (hsoon : s.clk.tick < k + 4096) :
    faultLatches s n 2 = true := by
  simp only [faultLatches, againOver, hlast, hsoon, decide_true, Bool.or_true]

/-! ## The restart, 64 ticks after an over-current (R262) -/

theorem restartChan_idle
    (hidle : ∀ k, s.chans[n].restart = some k → s.chans[n].state = 3 → k ≤ s.clk.tick → chanRuns s n = false) :
    restartChan n s = s := by
  unfold restartChan
  cases hdue : s.chans[n].restart with
  | none => rfl
  | some k =>
    refine if_neg ?_
    simp only [Bool.and_eq_true, beq_iff_eq, decide_eq_true_eq]
    rintro ⟨⟨hfault, hpast⟩, hruns⟩
    exact Bool.false_ne_true ((hidle k hdue hfault hpast).symm.trans hruns)

theorem restartChan_due {k : Nat} (hdue : s.chans[n].restart = some k) (hfault : s.chans[n].state = 3) (hpast : k ≤ s.clk.tick)
    (hruns : chanRuns s n = true) : restartChan n s = startChan n s := by
  unfold restartChan
  rw [hdue]
  exact if_pos (by simp only [hfault, hpast, hruns, beq_self_eq_true, decide_true, Bool.and_self])

/-- A channel that starts waits at REF 0 for its grant (R274). -/
theorem startChan_spec (n : Chan) (s : State) : Only [.chans, .cxl, .ev, .out] (startChan n s) s ∧
    (startChan n s).chans = s.chans.set n
      { s.chans[n] with state := 1, ref := 0, latched := false, restart := none, started := false, unjudged := 0 } :=
  ⟨only_step (raise_chan_only ..) rfl (only_mono (only_onChan ..) rfl), (raise_chan_only ..).same .chans rfl⟩

/-! ## Gate faults (R330) -/

theorem gateFaultChan_told (hfault : s.chans[n].state = 3) (hlatched : s.chans[n].latched = true) (hcause : s.chans[n].cause = 5) :
    gateFaultChan n s = s :=
  if_pos (by simp only [hfault, hlatched, hcause, beq_self_eq_true, Bool.and_self])

theorem gateFaultChan_new (hnew : s.chans[n].state ≠ 3 ∨ s.chans[n].latched = false ∨ s.chans[n].cause ≠ 5) :
    gateFaultChan n s = faultChan n 5 s.chans[n].vS s.chans[n].iMeas s := by
  refine if_neg ?_
  simp only [Bool.and_eq_true, beq_iff_eq]
  rintro ⟨⟨hfault, hlatched⟩, hcause⟩
  rcases hnew with hother | hfree | hother
  · exact hother hfault
  · exact Bool.false_ne_true (hfree.symm.trans hlatched)
  · exact hother hcause

end

/-! ## Diagnostic pulses (R259) -/

section
variable {h : Head} {i : Nat} {s : State}

theorem diagPulse_idle (hidle : s.heads[h].diag[i]? = none ∨ diagSlots s ≤ i ∨ s.clk.phase = .latch ∨ s.heads[h].showing = true ∨
    s.heads[h].spanDone = true ∨ mayLight s h = false ∨ showsLight s h = false) : diagPulse h i s = s := by
  unfold diagPulse
  cases hslot : s.heads[h].diag[i]? with
  | none => rfl
  | some n =>
    refine if_neg ?_
    simp only [Bool.and_eq_true, decide_eq_true_eq, bne_iff_ne, Bool.not_eq_true', beq_iff_eq]
    rintro ⟨⟨⟨⟨⟨⟨hi, hphase⟩, hshow⟩, hdone⟩, hlight⟩, -⟩, hmay⟩
    simp only [hslot, reduceCtorEq, Nat.not_le.mpr hi, hphase, hshow, hdone, hmay, hlight, Bool.false_eq_true, Bool.true_eq_false,
      or_self] at hidle

/-- In its slot a channel that runs opens its gate. -/
theorem diagPulse_due {n : Chan} (hslot : s.heads[h].diag[i]? = some n) (hi : i < diagSlots s) (hphase : s.clk.phase ≠ .latch)
    (hshow : s.heads[h].showing = false) (hdone : s.heads[h].spanDone = false) (hmay : mayLight s h = true)
    (hlight : showsLight s h = true) (hruns : s.chans[n].state = 2) :
    diagPulse h i s = onChan n (fun c => { c with gateOpen := true, opened := true }) (reach (diagAt s h i) s) := by
  unfold diagPulse
  rw [hslot]
  exact if_pos (by simp only [hi, bne_iff_ne.mpr hphase, hshow, hdone, hmay, hlight, hruns, decide_true, Bool.not_false,
    beq_self_eq_true, Bool.and_self])

end

/-! ## Drift checks (R261, R262, R264) -/

/-- Of the channels, t differs from s in the record of n alone, and there not in the count since the last check. -/
structure DriftJudged (n : Chan) (s t : State) : Prop where
  others (k : Chan) : k ≠ n → t.chans[k] = s.chans[k]
  counted : t.chans[n].sinceDrift = s.chans[n].sinceDrift

theorem DriftJudged.trans {n : Chan} {a b c : State} (h : DriftJudged n a b) (k : DriftJudged n b c) : DriftJudged n a c :=
  ⟨fun i hi => (k.others i hi).trans (h.others i hi), k.counted.trans h.counted⟩

theorem driftJudged_of_chans {n : Chan} {s t : State} (h : t.chans = s.chans) : DriftJudged n s t :=
  ⟨fun k _ => by rw [h], by rw [h]⟩

theorem driftJudged_onChan {n : Chan} {s : State} {a : ChanDyn → ChanDyn}
    (ha : (a s.chans[n]).sinceDrift = s.chans[n].sinceDrift) : DriftJudged n s (onChan n a s) :=
  ⟨fun k hk => by rw [onChan_chans, upd_get_ne _ _ hk], by rw [onChan_chans, upd_get_self, ha]⟩

/-- A cause of drift, where a check finds it. -/
theorem driftFault_spec (n : Chan) (found : Bool) (cause extra : Nat) (s : State) :
    Only [.chans, .cxl, .ev, .out] (if found then driftFault n cause extra s else s) s ∧
    DriftJudged n s (if found then driftFault n cause extra s else s) := by
  cases found with
  | false => exact ⟨only_refl _ s, driftJudged_of_chans rfl⟩
  | true =>
    rw [if_pos rfl, driftFault]
    split
    · exact ⟨only_refl _ s, driftJudged_of_chans rfl⟩
    · exact ⟨only_step (raise_chan_only ..) rfl (only_mono (only_onChan ..) rfl),
        (driftJudged_onChan rfl).trans (driftJudged_of_chans ((raise_chan_only ..).same .chans rfl))⟩

/-- A check's judgement is of its own channel, and is told at most. -/
theorem judgeDrift_spec (n : Chan) (pA pB : Nat) (s : State) :
    Only [.chans, .oss, .cxl, .ev, .out, .free] (judgeDrift n pA pB s) s ∧ DriftJudged n s (judgeDrift n pA pB s) := by
  unfold judgeDrift
  extract_lets st lv
  split
  · exact ⟨only_refl _ s, driftJudged_of_chans rfl⟩
  · next i _ =>
    split
    · exact ⟨only_mono (only_onOs ..) rfl, driftJudged_of_chans rfl⟩
    · extract_lets d delta eps badTh badEff s1 s2
      have hdraw : Only [.free] d.2 s := driftDev_only ..
      obtain ⟨honly1, hjudged1⟩ : Only [.chans, .cxl, .ev, .out] s1 d.2 ∧ DriftJudged n d.2 s1 := driftFault_spec ..
      obtain ⟨honly2, hjudged2⟩ : Only [.chans, .cxl, .ev, .out] s2 s1 ∧ DriftJudged n s1 s2 := driftFault_spec ..
      have honly : Only [.chans, .oss, .cxl, .ev, .out, .free] s2 s :=
        only_step honly2 rfl (only_step honly1 rfl (only_mono hdraw rfl))
      have hjudged : DriftJudged n s s2 := (driftJudged_of_chans (hdraw.same .chans rfl)).trans (hjudged1.trans hjudged2)
      split
      · exact ⟨honly, hjudged⟩
      · exact ⟨only_step (only_onChan ..) rfl honly, hjudged.trans (driftJudged_onChan rfl)⟩

/-- A reading of 65 000 codes or more marks its input and judges nothing (R264). -/
theorem judgeDrift_saturated {n : Chan} {pA pB : Nat} {s : State} {i : Fin 8}
    (hos : driftOs s s.cfg.chans[n].st.head s.cfg.chans[n].st.colour = some i) (hsat : 65000 ≤ pA ∨ 65000 ≤ pB) :
    judgeDrift n pA pB s = onOs i (fun d => { d with sat := true }) s := by
  unfold judgeDrift
  simp only [hos]
  exact if_pos (by simp only [Bool.or_eq_true, decide_eq_true_eq, hsat, true_or])

section
variable {h : Head} {s : State}

/-- The round robin takes a channel of its own head. -/
theorem driftChan_head {n : Chan} (hnext : driftChan s h = some n) : s.cfg.chans[n].st.head = h := by
  have hmeets := List.find?_some hnext
  simp only [Bool.and_eq_true, beq_iff_eq] at hmeets
  exact hmeets.1.1

/-- The state in which a check is judged: its slot's time has come, the round robin has gone on, and the channel's count starts
again. -/
def driftTaken (h : Head) (n : Chan) (s : State) : State :=
  onChan n (fun c => { c with sinceDrift := 0 })
    (onHead h (fun d => { d with driftDone := d.driftDone + 1, driftNext := (n.val + 1) % 64 })
      (reach (diagAt s h (min s.heads[h].diag.length (diagSlots s)) + usT (20 * s.heads[h].driftDone)) s))

theorem driftTaken_only (h : Head) (n : Chan) (s : State) : Only [.clk, .heads, .chans] (driftTaken h n s) s :=
  only_step (only_onChan ..) rfl (only_step (only_onHead ..) rfl (only_mono (reach_only ..) rfl))

theorem driftTaken_heads (h : Head) (n : Chan) (s : State) : (driftTaken h n s).heads =
    upd s.heads h fun d => { d with driftDone := d.driftDone + 1, driftNext := (n.val + 1) % 64 } := rfl

theorem driftTaken_chans (h : Head) (n : Chan) (s : State) : (driftTaken h n s).chans =
    upd s.chans n fun c => { c with sinceDrift := 0 } := rfl

theorem driftCheckSlot_idle (pA pB : Nat) (hidle : s.heads[h].driftOk = false ∨ s.cfg.heads[h].raster = true ∨ s.clk.phase = .latch ∨
    s.heads[h].showing = true ∨ s.heads[h].spanDone = true ∨ mayLight s h = false ∨ driftSlots s h ≤ s.heads[h].driftDone ∨
    driftChan s h = none) : driftCheckSlot h pA pB s = s := by
  unfold driftCheckSlot
  extract_lets d
  split
  · rfl
  · next hgoes =>
    have hnone : driftChan s h = none := by
      simp only [d, Bool.or_eq_true, Bool.not_eq_true', beq_iff_eq, decide_eq_true_eq] at hgoes
      simpa only [← or_assoc, hgoes, false_or] using hidle
    simp only [hnone]

theorem driftCheckSlot_due (pA pB : Nat) {n : Chan} (hok : s.heads[h].driftOk = true) (harr : s.cfg.heads[h].raster = false)
    (hphase : s.clk.phase ≠ .latch) (hshow : s.heads[h].showing = false) (hdone : s.heads[h].spanDone = false)
    (hmay : mayLight s h = true) (hslots : s.heads[h].driftDone < driftSlots s h) (hnext : driftChan s h = some n) :
    driftCheckSlot h pA pB s = judgeDrift n pA pB (driftTaken h n s) := by
  unfold driftCheckSlot
  rw [if_neg (by simp only [hok, harr, hshow, hdone, hmay, Nat.not_le.mpr hslots, Bool.not_true, Bool.or_false, Bool.false_or,
    decide_false, beq_iff_eq, hphase, not_false_eq_true])]
  simp only [hnext]
  rfl

end

/-! ## The rows -/

/-- Settles O31: a row without effect comes down to the state that it finds; a fault is its channel's new record, which the clauses
read off, and events; a check is judged in the state that its slot leaves. -/
theorem channelsAreJudged : Obligations.ChannelsAreJudged := by
  unfold Obligations.ChannelsAreJudged
  constructor
  · intro n m o s c lv st v starved faulted tooMuch f
    have hself : s = onChan n id s := by rw [onChan, upd_of_fixed rfl]
    have hover : overCurrent st o = true ↔ tooMuch := overCurrent_iff
    refine ⟨fun hidle => exec_of_effect rfl (judgeChan_unjudged hidle), fun hruns hopened hlong => ⟨fun hright => ?_,
      fun hopen => ?_, fun hbelow hfed hshort => ?_⟩, fun hidle => ?_, fun hruns hmuch => ?_,
      fun hidle => exec_of_effect rfl (restartChan_idle hidle), fun k hdue hfault hpast hchan => ?_,
      fun hfault hlatched hcause => exec_of_effect rfl (gateFaultChan_told hfault hlatched hcause), fun hnew => ?_⟩
    · refine ends_of (exec_of_effect rfl (judgeChan_right hruns hopened hlong hright)) (only_mono (only_onChan ..) rfl) rfl ?_
      rw [settle_chans, onChan_chans, upd_get_self]
      exact ⟨hruns, rfl, rfl, rfl, rfl, rfl, rfl, fun k hk => upd_get_ne _ _ hk⟩
    · have hfault := judgeChan_fault hruns hopened hlong (judgeCause_open hopen)
      refine ends_of_fault (exec_of_effect rfl hfault) rfl fun t hn hothers => ?_
      simp only [faulted, hn]
      exact ⟨⟨rfl, rfl, rfl, rfl, rfl, hothers⟩, rfl, rfl, rfl⟩
    · have hfault := judgeChan_fault hruns hopened hlong (judgeCause_short hbelow hfed hshort)
      refine ends_of_fault (exec_of_effect rfl hfault) rfl fun t hn hothers => ?_
      simp only [faulted, hn]
      exact ⟨⟨rfl, rfl, rfl, rfl, rfl, hothers⟩, rfl, rfl, rfl⟩
    · exact exec_of_effect rfl (overCurrentFault_idle (hidle.imp_right fun hbelow hmuch => hbelow (hover.mp hmuch)))
    · refine ends_of_fault (exec_of_effect rfl (overCurrentFault_over hruns (hover.mpr hmuch))) hself fun t hn hothers => ?_
      simp only [faulted, hn]
      refine ⟨⟨rfl, rfl, rfl, rfl, rfl, hothers⟩, rfl, fun hlong => ?_, fun k hlast hsoon => ?_⟩
      · simp only [faultedChan, faultLatches_first hlong, Bool.false_eq_true, if_false, and_self]
      · simp only [faultedChan, faultLatches_again hlast hsoon, if_true, and_self]
    · obtain ⟨honly, hchans⟩ := startChan_spec n s
      exact ends_of (exec_of_effect rfl (restartChan_due hdue hfault hpast hchan)) honly rfl ((settle_chans _).trans hchans)
    · refine ends_of_fault (exec_of_effect rfl (gateFaultChan_new hnew)) hself fun t hn hothers => ?_
      simp only [faulted, hn]
      exact ⟨⟨rfl, rfl, rfl, rfl, rfl, hothers⟩, rfl, rfl⟩
  · intro h s
    refine ⟨fun i hidle => exec_of_effect rfl (diagPulse_idle hidle),
      fun i n hslot hi hphase hshow hdone hmay hlight hruns => ?_,
      fun a b hidle => exec_of_effect rfl (driftCheckSlot_idle a b hidle),
      fun a b n hok harr hphase hshow hdone hmay hslots hnext => ?_⟩
    · refine ends_of (exec_of_effect rfl (diagPulse_due hslot hi hphase hshow hdone hmay hlight hruns))
        (only_step (only_onChan ..) rfl (only_mono (reach_only ..) rfl)) rfl ?_
      rw [settle_chans, onChan_chans, upd_get_self, settle_clk]
      exact ⟨rfl, fun k hk => upd_get_ne _ _ hk, rfl, rfl⟩
    · have hcheck := driftCheckSlot_due a b hok harr hphase hshow hdone hmay hslots hnext
      refine ⟨?_, fun i hsat hos => ?_⟩
      · obtain ⟨honly, hjudged⟩ := judgeDrift_spec n a b (driftTaken h n s)
        have hheads : (judgeDrift n a b (driftTaken h n s)).heads = (driftTaken h n s).heads := honly.same .heads rfl
        refine ends_of (exec_of_effect rfl hcheck) (only_step honly rfl (only_mono (driftTaken_only ..) rfl)) rfl ?_
        rw [settle_heads, settle_chans, hheads, driftTaken_heads, upd_get_self, hjudged.counted, driftTaken_chans, upd_get_self]
        refine ⟨rfl, rfl, rfl, fun k hk => ?_⟩
        rw [hjudged.others k hk, driftTaken_chans, upd_get_ne _ _ hk]
      · rw [← driftChan_head hnext] at hos
        refine ends_of (exec_of_effect rfl (hcheck.trans (judgeDrift_saturated (i := i) hos hsat)))
          (only_step (only_onOs ..) rfl (only_mono (driftTaken_only ..) rfl)) rfl ?_
        rw [settle_chans, settle_oss, onOs_chans, driftTaken_chans, upd_get_self]
        exact ⟨rfl, rfl, rfl⟩

end Sys2Proof.Machine

/-! # The power and calibration commands (10, 15) -/

namespace Sys2Proof.Machine

/-! ## Commands that leave the mailbox alone -/

/-- Fetching writes the slot, moves the queue, and on Q2 notes that a descriptor has been accepted (R335). -/
theorem fetched_only (op : Op) (d : Desc) (s : State) : Only [.safety, .queues, .bar2] (fetched op d s) s := by
  have hslot (x : Deferred) (t : BitVec 8) : Only [.safety, .queues, .bar2]
      (onQueue d.queue (fun z => { z with sqTail := t + 1, sqHead := t + 1, waiting := some x })
        (onBar2 (fun m => memPut m (slotOffset d.queue t) (descBytes op.code d)) s)) s :=
    only_step (only_onQueue ..) rfl (only_mono (only_onBar2 ..) rfl)
  unfold fetched
  extract_lets t s1
  exact only_ite _ (only_step (only_onSafety ..) rfl (hslot ..)) (hslot ..)

section
variable {f : List Part} {i : Instr} {op : Op} {d : Desc} {s u : State} (hs : Serves d.queue s) (ha : Admitted op d s)
  (hi : exec i s = mailbox op d s) (ho : Only f u (fetched op d s))
  (hf : [Part.clk, .queues, .cw].all (fun x => !f.contains x) = true)
include hs ha hi ho hf

/-- A command that answers at once and leaves the queues, the clock and the Causeway as fetching left them. -/
theorem does_of_apart {st : BitVec 16} {r : Nat} (hr : runOp op d (fetched op d s) = .done st r u) :
    Does i op d s u st r := by
  simp only [List.all_cons, List.all_nil, Bool.and_true, Bool.and_eq_true, Bool.not_eq_true'] at hf
  obtain ⟨hclk, hqueues, hcw⟩ := hf
  have hclk : u.clk = s.clk := (ho.same .clk hclk).trans (fetched_clk op d s)
  have hcw : u.cw = (fetched op d s).cw := ho.same .cw hcw
  obtain ⟨t, ht, hagree, htold⟩ := mailbox_done hs ha hr (ho.same .queues hqueues) (hcw ▸ fetched_inCmd hs) (hclk ▸ ⟨rfl, rfl⟩)
  exact ⟨t, hi.trans ht, hagree, htold⟩

/-- The same for a command that answers later. -/
theorem starts_of_apart (hr : runOp op d (fetched op d s) = .wait u) : Starts i op d s u := by
  simp only [List.all_cons, List.all_nil, Bool.and_true, Bool.and_eq_true, Bool.not_eq_true'] at hf
  obtain ⟨-, hqueues, hcw⟩ := hf
  have hcw : u.cw = (fetched op d s).cw := ho.same .cw hcw
  obtain ⟨t, ht, hagree, hwaits⟩ := mailbox_wait hs ha hr (ho.same .queues hqueues) (hcw ▸ fetched_inCmd hs)
  exact ⟨t, hi.trans ht, hagree, hwaits⟩

end

/-- What a completion leaves differs from the command's own state in the queues, the CXL port and the output. -/
theorem only_of_agrees {t u : State} (h : Agrees t u) : Only [.cxl, .queues, .out] t u := by
  refine ⟨fun x hx => ?_⟩
  rw [h]
  cases x <;> first | rfl | cases hx

theorem agrees_of_eq {t u : State} (h : t = u) : Agrees t u := h ▸ agrees_refl t

/-! ## POWER_QUOTA (R292, R302) -/

theorem quotaNext_pendLv (p : BitVec 384) (s : State) : (quotaNext p s).pendLv = s.pendLv ++ [.quota (quotaOf p)] := rfl

theorem quotaNext_wroteQuota (p : BitVec 384) (s : State) : (quotaNext p s).sluice.wroteQuota = true := rfl

theorem quotaNext_eq (p : BitVec 384) (s : State) :
    quotaNext p s = { s with pendLv := (quotaNext p s).pendLv, sluice := (quotaNext p s).sluice } := rfl

/-! ## CAL_RUN and CAL_STATUS (R433, R434, R442) -/

theorem calReport_congr {s t : State} (h : t.cal = s.cal) (item index : Nat) : calReport t item index = calReport s item index := by
  simp only [calReport, h]

section
variable (item index state failing reason : Nat) (value : BitVec 64) (s : State)

theorem calReport_noteItem_self : calReport (noteItem item index state failing reason value s) item index =
    { item := item, index := index, state := state, failing := failing, reason := reason, value := value } := by
  simp only [calReport, noteItem, setReport, onCal_cal, List.find?_cons_of_pos, BEq.rfl, Bool.and_self, Option.getD_some]

/-- The report of another item stands. -/
theorem calReport_noteItem_ne {item' : Nat} (index' : Nat) (hne : item' ≠ item) :
    calReport (noteItem item index state failing reason value s) item' index' = calReport s item' index' := by
  have hreport (x : CalReport) : (!(x.item == item && x.index == index) && (x.item == item' && x.index == index')) =
      (x.item == item' && x.index == index') := by
    by_cases hx : x.item = item'
    · simp [hx, hne]
    · simp [hx]
  simp only [calReport, noteItem, setReport, onCal_cal]
  rw [List.find?_cons_of_neg (by simp [hne.symm]), List.find?_filter]
  simp only [Bool.decide_and, Bool.decide_eq_true, hreport]

end

section
variable (item index : Nat) (temp : Int) (uv : Nat) (s : State)

theorem startItem_eq : startItem item index temp uv s = { s with cal := (startItem item index temp uv s).cal } := by
  unfold startItem
  dsimp only
  split <;> rfl

theorem startItem_cal : (startItem item index temp uv s).cal.running = some (item, index) ∧
    (startItem item index temp uv s).cal.live = s.cal.live := by
  unfold startItem
  dsimp only
  split <;> exact ⟨rfl, rfl⟩

/-- The item is pending; so is REFERENCE, the first of a FULL. -/
theorem startItem_pending : (calReport (startItem item index temp uv s) item index).state = 1 := by
  unfold startItem
  extract_lets part s1
  by_cases hfull : item = 15
  · rw [if_pos hfull, calReport_noteItem_ne _ _ _ _ _ _ _ _ (by omega), calReport_noteItem_self]
  · rw [if_neg hfull, calReport_noteItem_self]

end

theorem calTimeSteps_congr {s t : State} (hclk : t.clk = s.clk) (hcfg : t.cfg = s.cfg) (hotp : t.otp = s.otp) (item : Nat) :
    calTimeSteps t item = calTimeSteps s item := by
  have hconf : chanConfigured t = chanConfigured s := by
    funext n
    simp only [chanConfigured, chanMap, limitsSet, hcfg, hotp]
  simp only [calTimeSteps, configured, hconf, hclk]

/-! ## CAL_COMMIT (R440, R441) -/

theorem calCommitRef_congr {s t : State} (h : t.cal = s.cal) (p : BitVec 384) : calCommitRef p t = calCommitRef p s := by
  simp only [calCommitRef, calBusy, calApplying, h]

/-- A commit that passes its checks, with a generation free and V_PP up, starts its two series. -/
theorem runCalCommit_starts {d : Desc} {s : State} {g : Fin 4} (hok : calCommitRef d.payload s = none) (hg : freeGen s.otp = some g)
    (hvpp : vppOk s = true) : runCalCommit d s = .wait (onCal (fun c => { c with
      commit := some (g, BitVec.ofNat 32 (fld d.payload 0 32), BitVec.ofNat 16 (fld d.payload 32 16), 2), granted := false }) s) := by
  simp only [runCalCommit, hok, hg, hvpp, if_true, commitSeries]

/-- Settles O5: the commands touch neither the queues nor the clock nor the Causeway, so each completes, or waits, over what it
stages. -/
theorem powerAndCalibrationCommandsTakeEffect : Obligations.PowerAndCalibrationCommandsTakeEffect := by
  unfold Obligations.PowerAndCalibrationCommandsTakeEffect
  refine ⟨fun d s hs => ⟨fun ha => ?_, fun ha hok => ?_⟩, fun d s hs => ⟨fun ha hok => ?_, fun ha hok g hg hvpp => ?_,
    fun ha hok => ?_⟩⟩
  · extract_lets s1 z
    obtain ⟨t, ht, hagree, htold⟩ := does_of_apart (i := .powerQuota d) hs ha rfl (quotaNext_only d.payload s1) rfl rfl
    have hpend : t.pendLv = (quotaNext d.payload s1).pendLv := (only_of_agrees hagree).same .pendLv rfl
    have hsluice : t.sluice = (quotaNext d.payload s1).sluice := (only_of_agrees hagree).same .sluice rfl
    refine ⟨t, ht, htold, ?_, ?_, ?_⟩
    · have hlv : s1.pendLv = s.pendLv := (fetched_only ..).same .pendLv rfl
      rw [hpend, quotaNext_pendLv, hlv]
    · rw [hsluice, quotaNext_wroteQuota]
    · rw [hpend, hsluice]
      exact agrees_trans hagree (agrees_of_eq (quotaNext_eq ..))
  · exact does_of_staged hs ha rfl (refuseOr_none hok _ _) (only_mono (only_addLv ..) rfl)
  · obtain ⟨t, ht, hagree, htold⟩ := does_of_apart (i := .calRun d) hs ha rfl (startItem_only ..) rfl (refuseOr_none hok _ _)
    have hfotp : (fetched .calRun d s).otp = s.otp := (fetched_only ..).same .otp rfl
    rw [calTimeSteps_congr (fetched_clk ..) (fetched_cfg ..) hfotp] at htold
    obtain ⟨hruns, hlive⟩ := startItem_cal (fld d.payload 0 4) (fld d.payload 8 6) (sfld d.payload 16 16) (fld d.payload 32 32)
      (fetched .calRun d s)
    have hcal : t.cal = (startItem (fld d.payload 0 4) (fld d.payload 8 6) (sfld d.payload 16 16) (fld d.payload 32 32)
        (fetched .calRun d s)).cal := (only_of_agrees hagree).same .cal rfl
    have hotp : t.otp = (fetched .calRun d s).otp := ((only_of_agrees hagree).same .otp rfl).trans
      ((startItem_only ..).same .otp rfl)
    have hfcal : (fetched .calRun d s).cal = s.cal := (fetched_only ..).same .cal rfl
    refine ⟨t, ht, htold, ?_, ?_, ?_, hotp.trans hfotp, ?_⟩
    · rw [hcal, hruns]
    · rw [calReport_congr hcal, startItem_pending]
    · rw [hcal, hlive, hfcal]
    · rw [hcal]
      exact agrees_trans hagree (agrees_of_eq (startItem_eq ..))
  · have hfotp : (fetched .calCommit d s).otp = s.otp := (fetched_only ..).same .otp rfl
    have hfcal : (fetched .calCommit d s).cal = s.cal := (fetched_only ..).same .cal rfl
    refine starts_of_apart hs ha rfl (only_onCal ..) rfl (runCalCommit_starts ?_ ?_ ?_)
    · rw [calCommitRef_congr hfcal, hok]
    · rw [hfotp, hg]
    · rw [vppOk, hfcal]; exact hvpp
  · have hfcal : (fetched .calStatus d s).cal = s.cal := (fetched_only ..).same .cal rfl
    rw [← calReport_congr hfcal]
    exact does_of_staged hs ha rfl (refuseOr_none hok _ _) (only_refl _ _)

end Sys2Proof.Machine

/-! # Thermal sensing (10): sensors, groups and their timers -/

namespace Sys2Proof.Machine

/-! ## What an update of a sensor or of a group leaves -/

@[simp] theorem onSensor_therm (i : Fin 36) (f : Sensor → Sensor) (s : State) :
    (onSensor i f s).therm = { s.therm with sensors := upd s.therm.sensors i f } := rfl

@[simp] theorem onGroup_therm (g : Fin 2) (f : GroupDyn → GroupDyn) (s : State) :
    (onGroup g f s).therm = { s.therm with groups := upd s.therm.groups g f } := rfl

@[simp] theorem restartWindow_therm (g : Fin 2) (s : State) : (restartWindow g s).therm =
    { s.therm with
      downMs := 0
      groups := (upd s.therm.groups g (fun x => { x with window := [], slope := 0 })).map fun x => { x with upMs := 0 } } := rfl

@[simp] theorem raise_therm (src : Nat) (code : BitVec 16) (p : Nat) (s : State) : (raise src code p s).therm = s.therm :=
  (raise_only ..).same .therm rfl

/-- The slope window of a group and every timer of a throttle condition start again. -/
def Restarted (g : Fin 2) (t : State) : Prop :=
  t.therm.groups[g].window = [] ∧ t.therm.groups[g].slope = 0 ∧ t.therm.downMs = 0 ∧ ∀ k : Fin 2, t.therm.groups[k].upMs = 0

theorem restartWindow_restarted (g : Fin 2) (s : State) : Restarted g (restartWindow g s) := by
  refine ⟨?_, ?_, rfl, fun k => ?_⟩
  · simp only [restartWindow_therm, Fin.getElem_fin, Vector.getElem_map, upd_get_val]
  · simp only [restartWindow_therm, Fin.getElem_fin, Vector.getElem_map, upd_get_val]
  · simp only [restartWindow_therm, Fin.getElem_fin, Vector.getElem_map]

/-- A group's other fields may change. -/
theorem Restarted.onGroup {g : Fin 2} {s : State} (h : Restarted g s) {f : GroupDyn → GroupDyn}
    (hf : ∀ x, (f x).window = x.window ∧ (f x).slope = x.slope ∧ (f x).upMs = x.upMs) : Restarted g (onGroup g f s) := by
  obtain ⟨hwindow, hslope, hdown, hup⟩ := h
  refine ⟨?_, ?_, hdown, fun k => ?_⟩
  · rw [onGroup_therm, upd_get_self, (hf _).1, hwindow]
  · rw [onGroup_therm, upd_get_self, (hf _).2.1, hslope]
  · rw [onGroup_therm]
    by_cases hk : k = g
    · rw [hk, upd_get_self, (hf _).2.2, hup]
    · rw [upd_get_ne _ _ hk, hup]

theorem Restarted.of_therm {g : Fin 2} {s t : State} (h : Restarted g s) (ht : t.therm = s.therm) : Restarted g t := by
  rwa [Restarted, ht]

/-! ## A substitute depends on what the sensors read and on which are valid (R311, R313) -/

/-- The sensors of two states are grouped, read and valid alike. -/
structure SameReadings (s t : State) : Prop where
  cfg : t.cfg = s.cfg
  links : t.links = s.links
  seen (i : Fin 36) : t.therm.sensors[i].seen = s.therm.sensors[i].seen
  failed (i : Fin 36) : t.therm.sensors[i].failed = s.therm.sensors[i].failed
  tf (i : Fin 36) : t.therm.sensors[i].tf = s.therm.sensors[i].tf

theorem sameReadings_onSensor (i : Fin 36) {f : Sensor → Sensor} (s : State)
    (hf : ∀ x, (f x).seen = x.seen ∧ (f x).failed = x.failed ∧ (f x).tf = x.tf) : SameReadings s (onSensor i f s) := by
  have hsensor (k : Fin 36) : (onSensor i f s).therm.sensors[k] = if k = i then f s.therm.sensors[k] else s.therm.sensors[k] := by
    rw [onSensor_therm]
    split
    · next hk => rw [hk, upd_get_self]
    · next hk => rw [upd_get_ne _ _ hk]
  refine ⟨rfl, rfl, fun k => ?_, fun k => ?_, fun k => ?_⟩ <;> rw [hsensor] <;> split <;> simp only [hf]

section
variable {s t : State} (h : SameReadings s t)
include h

theorem SameReadings.inGroup : inGroup t = inGroup s := by
  funext g i
  simp only [Machine.inGroup, h.cfg, h.links]

theorem SameReadings.sensorValid : sensorValid t = sensorValid s := by
  funext i
  simp only [Machine.sensorValid, h.seen, h.failed]

theorem SameReadings.neighbours (i : Fin 36) : neighbours t i = neighbours s i := by
  simp only [Machine.neighbours, groupOfSensor, h.inGroup, h.sensorValid]

theorem SameReadings.nbrMax (i : Fin 36) : nbrMax t i = nbrMax s i := by
  simp only [Machine.nbrMax, h.neighbours, h.tf]

theorem SameReadings.pairOf (i : Fin 36) : pairOf t i = pairOf s i := by
  simp only [Machine.pairOf, h.cfg]

theorem SameReadings.substitute (i : Fin 36) : substitute t i = substitute s i := by
  simp only [Machine.substitute, inBlind, groupOfSensor, h.inGroup, h.neighbours, h.nbrMax, h.pairOf, h.sensorValid, h.seen, h.tf,
    h.cfg]
  rfl

end

/-! ## A step of the throttle (R307) -/

/-- The level that a blind group holds the throttle at (R313). -/
def throttleFloor (x : ThermDyn) : Nat :=
  if x.groups[(0 : Fin 2)].blind = true ∨ x.groups[(1 : Fin 2)].blind = true then 5 else 0

theorem stepIsDue_up (g : Fin 2) (s : State) : stepIsDue true g s =
    if 250 ≤ s.therm.groups[g].upMs ∧ s.therm.level < 8 ∧ s.therm.stepDue = none then onTherm (fun t => { t with
      stepDue := some (true, g == 1), downMs := 0, groups := t.groups.map fun x => { x with upMs := 0 } }) s else s := by
  simp only [stepIsDue, if_true, Bool.and_eq_true, decide_eq_true_eq, Option.isNone_iff_eq_none, and_assoc]

theorem stepIsDue_down (g : Fin 2) (s : State) : stepIsDue false g s =
    if 2000 ≤ s.therm.downMs ∧ throttleFloor s.therm < s.therm.level ∧ s.therm.stepDue = none then onTherm (fun t => { t with
      stepDue := some (false, g == 1), downMs := 0, groups := t.groups.map fun x => { x with upMs := 0 } }) s else s := by
  simp only [stepIsDue, throttleFloor, bothGroups, List.any_cons, List.any_nil, Bool.or_false, Bool.or_eq_true, Bool.and_eq_true,
    decide_eq_true_eq, Option.isNone_iff_eq_none, and_assoc, Bool.false_eq_true, if_false]
  rfl

/-- A step that is due: no other is, and its condition has held its dwell with the level in range. -/
def StepDue (up : Bool) (g : Fin 2) (x : ThermDyn) : Prop :=
  x.stepDue = none ∧ (up = true → 250 ≤ x.groups[g].upMs ∧ x.level < 8) ∧
    (up = false → 2000 ≤ x.downMs ∧ throttleFloor x < x.level)

theorem stepIsDue_due {up : Bool} {g : Fin 2} {s : State} (h : StepDue up g s.therm) : stepIsDue up g s =
    onTherm (fun t => { t with
      stepDue := some (up, g == 1), downMs := 0, groups := t.groups.map fun x => { x with upMs := 0 } }) s := by
  obtain ⟨hnone, hup, hdown⟩ := h
  cases up with
  | true => rw [stepIsDue_up, if_pos ⟨(hup rfl).1, (hup rfl).2, hnone⟩]
  | false => rw [stepIsDue_down, if_pos ⟨(hdown rfl).1, (hdown rfl).2, hnone⟩]

/-! ## The hold of a failed holder ends (R312) -/

section
variable {i : Fin 36} {s : State}

theorem holdEnds_early (hearly : s.therm.sensors[i].hold = false ∨ s.therm.sensors[i].holdMs < 60000) : holdEnds i s = s := by
  refine if_neg ?_
  simpa using fun hhold => hearly.resolve_left (by simp [hhold])

/-- A failed sensor without a hold is carried (R311); carrying reads no hold. -/
theorem carry_released (hfailed : s.therm.sensors[i].failed = true) :
    (carry i (onSensor i (fun y => { y with hold := false, holdMs := 0 }) s)).therm = { s.therm with
      sensors := upd s.therm.sensors i fun y => { y with hold := false, holdMs := 0, sub := some (substitute s i) } } := by
  have hsub : substitute (onSensor i (fun y => { y with hold := false, holdMs := 0 }) s) i = substitute s i :=
    (sameReadings_onSensor i (f := fun y => { y with hold := false, holdMs := 0 }) s fun _ => ⟨rfl, rfl, rfl⟩).substitute i
  rw [carry, if_pos, onSensor_therm, hsub, onSensor_therm, upd_upd]
  rw [onSensor_therm, upd_get_self, hfailed]
  rfl

theorem holdEnds_due (hfailed : s.therm.sensors[i].failed = true) (hhold : s.therm.sensors[i].hold = true)
    (hlong : 60000 ≤ s.therm.sensors[i].holdMs) :
    (holdEnds i s).therm.sensors = upd s.therm.sensors i (fun y =>
      { y with hold := false, holdMs := 0, sub := some (substitute s i) }) ∧
    ∀ g, groupOfSensor s i = some g → Restarted g (holdEnds i s) := by
  have hdue : (s.therm.sensors[i].hold && decide (60000 ≤ s.therm.sensors[i].holdMs)) = true := by
    rw [hhold, decide_eq_true hlong, Bool.and_self]
  have hcarried := congrArg ThermDyn.sensors (carry_released hfailed)
  rw [holdEnds, if_pos hdue]
  cases hgroup : groupOfSensor s i with
  | none => exact ⟨hcarried, fun g hg => by cases hg⟩
  | some k =>
    refine ⟨hcarried, fun g hg => ?_⟩
    cases hg
    exact restartWindow_restarted ..

end

/-! ## The freeze lifts (R312) -/

/-- A group whose freeze is lifted. -/
def lifted (x : GroupDyn) : GroupDyn := { x with frozen := false, coldMs := 0 }

/-- A group's freeze lifts after 10 s in the cold. -/
def thawed (x : GroupDyn) : GroupDyn := if x.frozen = true ∧ 10000 ≤ x.coldMs then lifted x else x

/-- The lift of one group. -/
def thaw (g : Fin 2) (s : State) : State :=
  if s.therm.groups[g].frozen && decide (10000 ≤ s.therm.groups[g].coldMs) then
    onTherm (fun t => { t with downMs := 0 }) (onGroup g lifted s)
  else s

theorem freezeLifts_eq (s : State) : freezeLifts s = thaw 1 (thaw 0 s) := rfl

theorem thaw_spec (g : Fin 2) (s : State) : (thaw g s).therm.groups = upd s.therm.groups g thawed ∧
    (thaw g s).therm.sensors = s.therm.sensors ∧ (thaw g s).therm.level = s.therm.level := by
  unfold thaw
  split
  · next hcold =>
    have hcold : s.therm.groups[g].frozen = true ∧ 10000 ≤ s.therm.groups[g].coldMs := by simpa using hcold
    have hgroups : (onTherm (fun t => { t with downMs := 0 }) (onGroup g lifted s)).therm.groups = upd s.therm.groups g lifted := rfl
    exact ⟨hgroups.trans (upd_congr (if_pos hcold).symm), rfl, rfl⟩
  · next hwarm =>
    have hwarm : ¬(s.therm.groups[g].frozen = true ∧ 10000 ≤ s.therm.groups[g].coldMs) := by simpa using hwarm
    exact ⟨(upd_of_fixed (if_neg hwarm)).symm, rfl, rfl⟩

theorem freezeLifts_spec (s : State) : (freezeLifts s).therm.sensors = s.therm.sensors ∧
    (freezeLifts s).therm.level = s.therm.level ∧ ∀ g : Fin 2, (freezeLifts s).therm.groups[g] = thawed s.therm.groups[g] := by
  obtain ⟨hgroups0, hsensors0, hlevel0⟩ := thaw_spec 0 s
  obtain ⟨hgroups1, hsensors1, hlevel1⟩ := thaw_spec 1 (thaw 0 s)
  rw [freezeLifts_eq]
  refine ⟨hsensors1.trans hsensors0, hlevel1.trans hlevel0, fun g => ?_⟩
  rw [hgroups1, hgroups0]
  match g with
  | 0 => rw [upd_get_ne _ _ (by decide), upd_get_self]
  | 1 => rw [upd_get_self, upd_get_ne _ _ (by decide)]

/-! ## A sensor returns (R314) -/

theorem groupOf_srcSensor (i : Fin 36) : groupOf (srcSensor i) = 5 := by
  revert i
  decide

section
variable {i : Fin 36} {s : State}

theorem sensorReturns_early (hearly : s.therm.sensors[i].failed = false ∨ s.therm.sensors[i].okMs < 30000) :
    sensorReturns i s = s := by
  refine if_neg ?_
  simpa using fun hfailed => hearly.resolve_left (by simp [hfailed])

/-- The sensor's record as it returns: its filter starts from its last reading (log entry 94). -/
def returned (x : Sensor) : Sensor :=
  { x with failed := false, sub := none, hold := false, holdMs := 0, okMs := 0, tf := x.last }

theorem sensorReturns_due (hfailed : s.therm.sensors[i].failed = true) (hlong : 30000 ≤ s.therm.sensors[i].okMs) :
    Only [.therm, .cxl, .ev, .out] (sensorReturns i s) s ∧ (sensorReturns i s).therm.sensors = upd s.therm.sensors i returned ∧
    ∀ g, groupOfSensor s i = some g → Restarted g (sensorReturns i s) := by
  have hdue : (s.therm.sensors[i].failed && decide (30000 ≤ s.therm.sensors[i].okMs)) = true := by
    rw [hfailed, decide_eq_true hlong, Bool.and_self]
  have htold (u : State) : Only [.therm, .cxl, .ev, .out] (raise (srcSensor i) evThermalSensorOk (pack [(0, 6, i.val)]) u) u :=
    only_mono (raise_plain_only (by rw [groupOf_srcSensor]; decide) ..) rfl
  rw [sensorReturns, if_pos hdue]
  cases hgroup : groupOfSensor s i with
  | none =>
    refine ⟨only_step (htold _) rfl (only_mono (onSensor_only ..) rfl), ?_, fun g hg => by cases hg⟩
    rw [raise_therm]
    rfl
  | some k =>
    refine ⟨only_step (htold _) rfl (only_step (onGroup_only ..) rfl (only_step (restartWindow_only ..) rfl
      (only_mono (onSensor_only ..) rfl))), ?_, fun g hg => ?_⟩
    · rw [raise_therm]
      rfl
    · cases hg
      refine Restarted.of_therm ?_ (raise_therm ..)
      exact Restarted.onGroup (f := fun y => { y with blind := false }) (restartWindow_restarted ..) fun _ => ⟨rfl, rfl, rfl⟩

end

/-! ## A trip's latch is released (R315) -/

section
variable {g : Fin 2} {s : State}

theorem tripReleases_early (hearly : s.therm.groups[g].tripped = false ∨ s.therm.groups[g].coolMs < 10000) :
    tripReleases g s = s := by
  refine if_neg ?_
  simpa using fun htripped => hearly.resolve_left (by simp [htripped])

theorem tripReleases_due (htripped : s.therm.groups[g].tripped = true) (hlong : 10000 ≤ s.therm.groups[g].coolMs) :
    tripReleases g s = onGroup g (fun x => { x with tripped := false, coolMs := 0 }) s :=
  if_pos (by rw [htripped, decide_eq_true hlong, Bool.and_self])

end

/-- The group flag of a step as its row gives it. -/
theorem groupFlag_eq_one (b : Bool) : (groupFlag b == 1) = b := by
  cases b <;> rfl

/-- Settles O35: before its time a row's effect is none; in its time it is the update that the clause names. -/
theorem thermalTimersEnd : Obligations.ThermalTimersEnd := by
  unfold Obligations.ThermalTimersEnd
  intro s x floor restarted
  have hrestarted {i : Fin 36} {u : State} (h : ∀ g, groupOfSensor s i = some g → Restarted g u) : restarted i (settle u) :=
    fun g hg => (h g hg).of_therm (settle_therm u)
  refine ⟨fun b hidle => exec_of_effect rfl ?_, fun b hidle => exec_of_effect rfl ?_, fun b up hnone hup hdown => ?_,
    fun i hearly => exec_of_effect rfl (holdEnds_early hearly), fun i hfailed hhold hlong => ?_, ?_,
    fun i hearly => exec_of_effect rfl (sensorReturns_early hearly), fun i hfailed hlong => ?_,
    fun b hearly => exec_of_effect rfl (tripReleases_early hearly),
    fun b htripped hlong => exec_of_effect rfl (tripReleases_due htripped hlong)⟩
  · rw [stepIsDue_up, if_neg]
    rintro ⟨hheld, hlevel, hnone⟩
    rcases hidle with hdue | hshort | htop
    · rw [hnone] at hdue; cases hdue
    · exact absurd hheld (Nat.not_le.mpr hshort)
    · exact absurd hlevel (Nat.not_lt.mpr htop)
  · rw [stepIsDue_down, if_neg]
    rintro ⟨hheld, hlevel, hnone⟩
    rcases hidle with hdue | hshort | hlow
    · rw [hnone] at hdue; cases hdue
    · exact absurd hheld (Nat.not_le.mpr hshort)
    · exact absurd hlevel (Nat.not_lt.mpr hlow)
  · have hdue := stepIsDue_due (up := up) (g := groupFlag b) (s := s) ⟨hnone, hup, hdown⟩
    refine ends_of (exec_of_effect rfl hdue) (only_mono (only_onTherm ..) rfl) rfl ?_
    rw [settle_therm, onTherm_therm, groupFlag_eq_one]
    refine ⟨rfl, rfl, rfl, rfl, fun g => ?_⟩
    simp only [Fin.getElem_fin, Vector.getElem_map]
    rfl
  · obtain ⟨hsensors, hgroup⟩ := holdEnds_due hfailed hhold hlong
    refine ends_of rfl (only_mono (holdEnds_only ..) rfl) rfl ⟨?_, hrestarted hgroup⟩
    rw [settle_therm, hsensors]
    rfl
  · obtain ⟨hsensors, hlevel, hgroups⟩ := freezeLifts_spec s
    refine ends_of rfl (only_mono (freezeLifts_only s) rfl) rfl ?_
    rw [settle_therm]
    exact ⟨hsensors, hlevel, hgroups⟩
  · obtain ⟨honly, hsensors, hgroup⟩ := sensorReturns_due hfailed hlong
    refine ends_of rfl honly rfl ⟨?_, hrestarted hgroup⟩
    rw [settle_therm, hsensors]
    rfl

end Sys2Proof.Machine

/-! # A thermal sample (10) -/

namespace Sys2Proof.Machine

/-! ## A conversion of a die sensor (R304, R315) -/

/-- A reading at or above the trip limit of the die. -/
def dieHot (v : Option Rat) : Bool :=
  match v with
  | some t => decide (130 ≤ t)
  | none => false

/-- The record of a die sensor after a conversion. -/
def dieRead (v : Option Rat) (x : Sensor) : Sensor :=
  { x with
    tried := true
    raw := v
    overs := if dieHot v then x.overs + 1 else 0
    seen := x.seen || !outOfRange v
    last := if outOfRange v then x.last else v.getD x.last
    tf := if outOfRange v || x.failed then x.tf else if x.seen then x.tf + (v.getD x.last - x.tf) / 32 else v.getD x.last }

theorem tripLimit_die {s : State} {i : Fin 36} (hi : i.val < 12) : tripLimit s i = some 130 := if_pos hi

theorem takeReading_therm (i : Fin 36) (v : Option Rat) (s : State) : (takeReading i v s).therm =
    { s.therm with sensors := (takeReading i v s).therm.sensors } := rfl

theorem takeReading_die {i : Fin 36} (hi : i.val < 12) (v : Option Rat) (s : State) :
    (takeReading i v s).therm.sensors = upd s.therm.sensors i (dieRead v) := by
  cases v with
  | none => rfl
  | some t =>
    simp only [takeReading, tripLimit_die hi]
    rfl

theorem takeReading_ne {i k : Fin 36} (hk : k ≠ i) (v : Option Rat) (s : State) :
    (takeReading i v s).therm.sensors[k] = s.therm.sensors[k] := upd_get_ne _ _ hk

section
variable {x : Sensor}

theorem dieRead_inRange {q : Rat} (hlow : -55 ≤ q) (hhigh : q ≤ 175) :
    (dieRead (some q) x).seen = true ∧ (dieRead (some q) x).last = q ∧
    (x.failed = true → (dieRead (some q) x).tf = x.tf) ∧
    (x.failed = false → x.seen = true → (dieRead (some q) x).tf = x.tf + (q - x.tf) / 32) ∧
    (x.failed = false → x.seen = false → (dieRead (some q) x).tf = q) := by
  have hin : outOfRange (some q) = false := by
    simp only [outOfRange, decide_eq_false (Rat.not_lt.mpr hlow), decide_eq_false (Rat.not_lt.mpr hhigh), Bool.or_self]
  refine ⟨?_, ?_, fun hfailed => ?_, fun hfailed hseen => ?_, fun hfailed hseen => ?_⟩
  · simp only [dieRead, hin, Bool.not_false, Bool.or_true]
  · simp only [dieRead, hin, Bool.false_eq_true, if_false, Option.getD_some]
  · simp only [dieRead, hfailed, Bool.or_true, if_true]
  · simp only [dieRead, hin, hfailed, hseen, Bool.or_self, Bool.false_eq_true, if_false, if_true, Option.getD_some]
  · simp only [dieRead, hin, hfailed, hseen, Bool.or_self, Bool.false_eq_true, if_false, Option.getD_some]

theorem dieRead_overs (q : Rat) : (dieRead (some q) x).overs = if 130 ≤ q then x.overs + 1 else 0 := by
  simp only [dieRead, dieHot, decide_eq_true_eq]

theorem dieRead_none : (dieRead none x).last = x.last ∧ (dieRead none x).tf = x.tf ∧ (dieRead none x).overs = 0 :=
  ⟨rfl, rfl, rfl⟩

end

/-! ## The readings of a sample: each sensor takes its own -/

/-- The readings are taken one by one. -/
def takeList (r : List (Fin 36 × Reading)) (s : State) : State := forEach r (fun p s => takeReading p.1 (readingOf p.2) s) s

theorem takeList_ne {i : Fin 36} {r : List (Fin 36 × Reading)} (hr : ∀ p ∈ r, p.1 ≠ i) (s : State) :
    (takeList r s).therm.sensors[i] = s.therm.sensors[i] := by
  induction r generalizing s with
  | nil => rfl
  | cons p r ih =>
    have hp : i ≠ p.1 := (hr p List.mem_cons_self).symm
    exact (ih (fun q hq => hr q (List.mem_cons_of_mem p hq)) _).trans (takeReading_ne hp ..)

/-- A sensor that is read once. -/
theorem takeList_once {i : Fin 36} {v : Reading} {r : List (Fin 36 × Reading)} (hi : i.val < 12) (honce : (r.map (·.1)).Nodup)
    (hmem : (i, v) ∈ r) (s : State) : (takeList r s).therm.sensors[i] = dieRead (readingOf v) s.therm.sensors[i] := by
  induction r generalizing s with
  | nil => cases hmem
  | cons p r ih =>
    obtain ⟨hfirst, hrest⟩ := List.nodup_cons.mp honce
    rcases List.mem_cons.mp hmem with rfl | hmem
    · have hothers (q : Fin 36 × Reading) (hq : q ∈ r) : q.1 ≠ i := fun h => hfirst (List.mem_map.mpr ⟨q, hq, h⟩)
      refine (takeList_ne hothers _).trans ?_
      rw [takeReading_die hi, upd_get_self]
    · have hp : i ≠ p.1 := fun h => hfirst (List.mem_map.mpr ⟨(i, v), hmem, h⟩)
      refine (ih hrest hmem _).trans ?_
      rw [takeReading_ne hp]

/-- The AT sensors stand above the die. -/
theorem takeAt_die {i : Fin 36} (hi : i.val < 12) (s : State) : (takeAt s).therm.sensors[i] = s.therm.sensors[i] := by
  unfold takeAt
  refine forEach_keeps (m := fun s => s.therm.sensors[i]) (fun k s => ?_) allHeads s
  have hk : i ≠ Fin.ofNat 36 (32 + k.val) := by
    intro h
    have hval : i.val = (32 + k.val) % 36 := congrArg Fin.val h
    omega
  split
  · exact takeReading_ne hk ..
  · rfl

/-- A sensor whose conversions a sample brings: the die's and those at the TS inputs. -/
def converts (p : Fin 36 × Reading) : Bool := decide (p.1.val < 12) || (decide (16 ≤ p.1.val) && decide (p.1.val < 32))

theorem takeReadings_eq (r : List (Fin 36 × Reading)) (s : State) :
    takeReadings r s = takeAt (takeList (r.filter converts) s) := rfl

theorem takeReadings_die {r : List (Fin 36 × Reading)} {i : Fin 36} {v : Reading} (hi : i.val < 12)
    (honce : (r.map (·.1)).Nodup) (hmem : (i, v) ∈ r) (s : State) :
    (takeReadings r s).therm.sensors[i] = dieRead (readingOf v) s.therm.sensors[i] := by
  have hfilter : (i, v) ∈ r.filter converts := List.mem_filter.mpr ⟨hmem, by simp only [converts, decide_eq_true hi, Bool.true_or]⟩
  rw [takeReadings_eq, takeAt_die hi, takeList_once hi (honce.sublist (List.filter_sublist.map _)) hfilter]

/-! ## What the rest of a sample keeps -/

/-- The part of a sensor's record that a conversion alone moves. -/
def readPart (x : Sensor) : Bool × Option Rat × Bool × Rat × Rat × Nat := (x.tried, x.raw, x.seen, x.last, x.tf, x.overs)

/-- From s to t no sensor is read and none returns, no trip is latched or released, and the throttle stands. -/
structure KeepsReadings (s t : State) : Prop where
  level : t.therm.level = s.therm.level
  stepDue : t.therm.stepDue = s.therm.stepDue
  read (i : Fin 36) : readPart t.therm.sensors[i] = readPart s.therm.sensors[i]
  failed (i : Fin 36) : s.therm.sensors[i].failed = true → t.therm.sensors[i].failed = true
  latch (g : Fin 2) : t.therm.groups[g].tripped = s.therm.groups[g].tripped

theorem keepsReadings_refl (s : State) : KeepsReadings s s := ⟨rfl, rfl, fun _ => rfl, fun _ => id, fun _ => rfl⟩

theorem KeepsReadings.trans {a b c : State} (h : KeepsReadings a b) (k : KeepsReadings b c) : KeepsReadings a c :=
  ⟨k.level.trans h.level, k.stepDue.trans h.stepDue, fun i => (k.read i).trans (h.read i), fun i => k.failed i ∘ h.failed i,
    fun g => (k.latch g).trans (h.latch g)⟩

theorem keepsReadings_of_therm {s t : State} (h : t.therm = s.therm) : KeepsReadings s t := by
  refine ⟨?_, ?_, fun i => ?_, fun i => ?_, fun g => ?_⟩ <;> rw [h]
  exact id

theorem keepsReadings_forEach {α : Type} {f : α → State → State} (hf : ∀ x s, KeepsReadings s (f x s)) (l : List α)
    (s : State) : KeepsReadings s (forEach l f s) := by
  induction l generalizing s with
  | nil => exact keepsReadings_refl s
  | cons x r ih => exact (hf x s).trans (ih (f x s))

theorem keepsReadings_onSensor (i : Fin 36) {f : Sensor → Sensor} (s : State) (hread : ∀ x, readPart (f x) = readPart x)
    (hfailed : ∀ x, x.failed = true → (f x).failed = true) : KeepsReadings s (onSensor i f s) := by
  refine ⟨rfl, rfl, fun k => ?_, fun k => ?_, fun _ => rfl⟩
  · rw [onSensor_therm]
    by_cases hk : k = i
    · rw [hk, upd_get_self, hread]
    · rw [upd_get_ne _ _ hk]
  · rw [onSensor_therm]
    by_cases hk : k = i
    · rw [hk, upd_get_self]; exact hfailed _
    · rw [upd_get_ne _ _ hk]; exact id

theorem keepsReadings_onGroup (g : Fin 2) {f : GroupDyn → GroupDyn} (s : State) (hf : ∀ x, (f x).tripped = x.tripped) :
    KeepsReadings s (onGroup g f s) := by
  refine ⟨rfl, rfl, fun _ => rfl, fun _ => id, fun k => ?_⟩
  rw [onGroup_therm]
  by_cases hk : k = g
  · rw [hk, upd_get_self, hf]
  · rw [upd_get_ne _ _ hk]

theorem restartWindow_keeps (g : Fin 2) (s : State) : KeepsReadings s (restartWindow g s) := by
  refine (keepsReadings_onGroup g s (f := fun x => { x with window := [], slope := 0 }) fun _ => rfl).trans
    ⟨rfl, rfl, fun _ => rfl, fun _ => id, fun k => ?_⟩
  simp only [restartWindow_therm, onGroup_therm, Fin.getElem_fin, Vector.getElem_map]

theorem raise_keeps (src : Nat) (code : BitVec 16) (p : Nat) (s : State) : KeepsReadings s (raise src code p s) :=
  keepsReadings_of_therm (raise_therm ..)

theorem takeHistory_keeps (i : Fin 36) (s : State) : KeepsReadings s (takeHistory i s) := by
  unfold takeHistory
  split
  · exact keepsReadings_onSensor i s (fun _ => rfl) fun _ => id
  · exact keepsReadings_onSensor i s (fun _ => rfl) fun _ => id

theorem countTests_keeps (i : Fin 36) (s : State) : KeepsReadings s (countTests i s) :=
  keepsReadings_onSensor i s (fun _ => rfl) fun _ => id

theorem carry_keeps (i : Fin 36) (s : State) : KeepsReadings s (carry i s) := by
  unfold carry
  dsimp only
  split
  · exact keepsReadings_onSensor i s (fun _ => rfl) fun _ => id
  · exact keepsReadings_refl s

/-- A sensor that has failed in the record, and what follows from it in its group. -/
theorem failSensor_spec (i : Fin 36) (cause : Nat) (s : State) :
    KeepsReadings s (failSensor i cause s) ∧ (failSensor i cause s).therm.sensors[i].failed = true := by
  unfold failSensor
  extract_lets g holder s1 s2 s3
  clear_value g
  have h1 : KeepsReadings s s1 := keepsReadings_onSensor i s (fun _ => rfl) fun _ _ => rfl
  have hfailed : s1.therm.sensors[i].failed = true := by
    simp only [s1]
    rw [onSensor_therm, upd_get_self]
  have h2 : KeepsReadings s1 s2 := carry_keeps i s1
  have h3 : KeepsReadings s2 s3 := by
    unfold s3
    cases g with
    | none => exact keepsReadings_refl s2
    | some k =>
      refine (restartWindow_keeps k s2).trans ?_
      exact keepsReadings_onGroup _ _ fun _ => rfl
  have hrest := (h2.trans h3).trans (raise_keeps (srcSensor i) evThermalSensorFail
    (sensorFailWord i cause holder (memberValue s3 i)) s3)
  exact ⟨h1.trans hrest, hrest.failed i hfailed⟩

theorem judgeBlind_keeps (fails : List (Fin 36)) (g : Fin 2) (s : State) : KeepsReadings s (judgeBlind fails g s) := by
  unfold judgeBlind
  extract_lets now s1
  have h1 : KeepsReadings s s1 := keepsReadings_onGroup g s fun _ => rfl
  repeat' split
  · exact h1.trans (raise_keeps ..)
  · exact h1
  · exact h1

theorem updateGroup_keeps (g : Fin 2) (s : State) : KeepsReadings s (updateGroup g s) := by
  unfold updateGroup
  split
  · exact keepsReadings_onGroup g s fun _ => rfl
  · exact keepsReadings_onGroup g s fun _ => rfl

theorem warnGroup_keeps (g : Fin 2) (s : State) : KeepsReadings s (warnGroup g s) := by
  have hmark (f : GroupDyn → GroupDyn) (hf : ∀ x, (f x).tripped = x.tripped) : KeepsReadings s (onGroup g f s) :=
    keepsReadings_onGroup g s hf
  unfold warnGroup
  extract_lets x c hot rising s1
  have h1 : KeepsReadings s s1 := hmark _ fun _ => rfl
  split
  · split
    · exact h1
    · exact h1.trans (raise_keeps ..)
  · exact hmark _ fun _ => rfl

theorem countThrottle_keeps (s : State) : KeepsReadings s (countThrottle s) := by
  unfold countThrottle
  extract_lets s1 down
  have h1 : KeepsReadings s s1 := by
    refine keepsReadings_forEach (fun g u => ?_) bothGroups s
    exact keepsReadings_onGroup g u fun _ => rfl
  exact h1.trans ⟨rfl, rfl, fun _ => rfl, fun _ => id, fun _ => rfl⟩

/-! ## The steps of a sample -/

/-- The readings are taken and the failure tests counted. -/
def tested (r : List (Fin 36 × Reading)) (s : State) : State :=
  forEach (allFin 36) countTests (forEach (allFin 36) takeHistory (takeReadings r s))

/-- The sensors that fail now, with their causes. -/
def failing (s : State) : List (Fin 36 × Nat) := (allFin 36).filterMap fun i => (failCause s i).map fun c => (i, c)

/-- They fail. -/
def failAll (s : State) : State := forEach (failing s) (fun p s => failSensor p.1 p.2 s) s

/-- What is judged of the groups, up to the trips. -/
def groupsJudged (s : State) : State :=
  countThrottle (forEach bothGroups warnGroup (forEach bothGroups updateGroup (forEach bothGroups
    (judgeBlind ((failing s).map (·.1))) (forEach (allFin 36) carry (failAll s)))))

theorem sampleAll_reset {s : State} (h : s.boot.stage = .reset) (r : List (Fin 36 × Reading)) : sampleAll r s = s :=
  if_pos (by rw [h]; rfl)

theorem sampleAll_runs {s : State} (h : s.boot.stage ≠ .reset) (r : List (Fin 36 × Reading)) :
    sampleAll r s = tripGroup 1 (tripGroup 0 (groupsJudged (tested r s))) := by
  rw [sampleAll, if_neg (by simpa using h)]
  rfl

theorem tested_keeps (r : List (Fin 36 × Reading)) (s : State) : KeepsReadings (takeReadings r s) (tested r s) :=
  (keepsReadings_forEach takeHistory_keeps ..).trans (keepsReadings_forEach countTests_keeps ..)

theorem failAll_keeps (s : State) : KeepsReadings s (failAll s) :=
  keepsReadings_forEach (fun (p : Fin 36 × Nat) u => (failSensor_spec p.1 p.2 u).1) ..

theorem failAll_groupsJudged_keeps (s : State) : KeepsReadings (failAll s) (groupsJudged s) :=
  (keepsReadings_forEach carry_keeps ..).trans ((keepsReadings_forEach (judgeBlind_keeps _) ..).trans
    ((keepsReadings_forEach updateGroup_keeps ..).trans ((keepsReadings_forEach warnGroup_keeps ..).trans
      (countThrottle_keeps _))))

/-- What one step of a list brings about and every step keeps. -/
theorem forEach_reaches {α : Type} {P : State → Prop} {f : α → State → State} (hkeep : ∀ x s, P s → P (f x s)) {x : α}
    (hset : ∀ s, P (f x s)) {l : List α} (hx : x ∈ l) (s : State) : P (forEach l f s) := by
  have hkeeps (l : List α) (s : State) (h : P s) : P (forEach l f s) := by
    induction l generalizing s with
    | nil => exact h
    | cons y r ih => exact ih _ (hkeep y s h)
  induction l generalizing s with
  | nil => cases hx
  | cons y r ih =>
    rcases List.mem_cons.mp hx with rfl | hx
    · exact hkeeps r _ (hset s)
    · exact ih hx _

theorem mem_failing {i : Fin 36} {c : Nat} {s : State} (h : failCause s i = some c) : (i, c) ∈ failing s := by
  rw [failing, List.mem_filterMap]
  exact ⟨i, List.mem_finRange i, by rw [h, Option.map_some]⟩

theorem failAll_fails {i : Fin 36} {c : Nat} {s : State} (h : failCause s i = some c) :
    (failAll s).therm.sensors[i].failed = true := by
  have hkeep (p : Fin 36 × Nat) (u : State) :
      u.therm.sensors[i].failed = true → (failSensor p.1 p.2 u).therm.sensors[i].failed = true :=
    (failSensor_spec p.1 p.2 u).1.failed i
  have hset (u : State) : (failSensor i c u).therm.sensors[i].failed = true := (failSensor_spec i c u).2
  exact forEach_reaches (P := fun u => u.therm.sensors[i].failed = true) hkeep (x := (i, c)) hset (mem_failing h) s

/-- A sensor whose conversion gives no value fails, with cause 0 (R310). -/
theorem failCause_of_out {s : State} {i : Fin 36} (hok : s.therm.sensors[i].failed = false)
    (htried : s.therm.sensors[i].tried = true) (hout : outOfRange s.therm.sensors[i].raw = true) : failCause s i = some 0 := by
  simp only [failCause, hok, htried, hout, Bool.and_self, Bool.false_eq_true, if_false, if_true]

/-! ## A trip cuts every channel (R315, R342) -/

/-- No channel whose converters are off is switched on. -/
structure KeepsOff (s t : State) : Prop where
  off (n : Chan) : s.chans[n].bucksOff = true → t.chans[n].bucksOff = true

theorem keepsOff_of_chans {s t : State} (h : t.chans = s.chans) : KeepsOff s t := ⟨fun n hn => by rwa [h]⟩

theorem KeepsOff.trans {a b c : State} (h : KeepsOff a b) (k : KeepsOff b c) : KeepsOff a c := ⟨fun n => k.off n ∘ h.off n⟩

theorem divert_off (p : Chan → Bool) (hard : Bool) (n : Chan) (s : State) :
    (divert p hard s).chans[n].bucksOff = (s.chans[n].bucksOff || (p n && hard)) := by
  simp only [divert, onChans_chans, Fin.getElem_fin, Vector.getElem_ofFn]
  cases p n <;> simp

theorem divert_keepsOff (p : Chan → Bool) (hard : Bool) (s : State) : KeepsOff s (divert p hard s) :=
  ⟨fun n hn => by rw [divert_off, hn, Bool.true_or]⟩

theorem safeReact_keepsOff (m : Nat) (hd : Option Head) (toDark restartable : Bool) (s : State) :
    KeepsOff s (safeReact m hd toDark restartable s) := by
  unfold safeReact
  extract_lets request latch darkNow s1
  have h1 : KeepsOff s s1 := keepsOff_of_chans rfl
  split
  · exact h1.trans (divert_keepsOff ..)
  · split
    · exact h1.trans (divert_keepsOff ..)
    · exact h1

theorem storeFull_keepsOff (s : State) : KeepsOff s (storeFull s) := by
  unfold storeFull
  split
  · exact keepsOff_of_chans rfl
  · extract_lets latched s1
    have h1 : KeepsOff s s1 :=
      KeepsOff.trans (b := onSafety (fun y => { y with storeFull := true }) s) (keepsOff_of_chans rfl) (safeReact_keepsOff ..)
    exact h1.trans (keepsOff_of_chans rfl)

/-- An event switches no converter on: a full store diverts at most (R392). -/
theorem raise_keepsOff (src : Nat) (code : BitVec 16) (p : Nat) (s : State) : KeepsOff s (raise src code p s) := by
  have hrecord (x : State) : KeepsOff x (record src code p x) := keepsOff_of_chans ((record_only ..).same .chans rfl)
  unfold raise
  extract_lets s0
  have h0 : KeepsOff s s0 := by
    unfold s0
    split
    · exact keepsOff_of_chans ((signal_only ..).same .chans rfl)
    · exact keepsOff_of_chans rfl
  refine h0.trans ?_
  repeat' split
  · exact keepsOff_of_chans rfl
  · exact storeFull_keepsOff s0
  · exact hrecord s0
  · exact keepsOff_of_chans rfl
  · exact hrecord s0
  · exact keepsOff_of_chans rfl
  · exact hrecord s0

/-- The device is dark with a mechanism among the causes, and every channel is cut. -/
structure Cut (m : Nat) (t : State) : Prop where
  dark : t.safety.mode = .dark
  cause : t.safety.causes.getLsbD m = true
  shut (n : Chan) : t.chans[n].gateOpen = false
  off (n : Chan) : t.chans[n].bucksOff = true

theorem Cut.keep {m : Nat} {s t : State} (h : Cut m s) (hd : Darkens s t) (ho : KeepsOff s t) : Cut m t :=
  ⟨hd.dark h.dark, hd.cause m h.cause, fun n => hd.shut n (h.shut n), fun n => ho.off n (h.off n)⟩

section
variable (m head colour : Nat) (restartable : Bool) (src : Nat) (code : BitVec 16) (payload : Nat) (s : State)

/-- A trip: the hardware cuts, the device goes dark, and the events follow. -/
theorem tripFault_events :
    Darkens (safeReact m none true restartable (divert (fun _ => true) true s))
      (tripFault m head colour restartable src code payload s) ∧
    KeepsOff (safeReact m none true restartable (divert (fun _ => true) true s))
      (tripFault m head colour restartable src code payload s) := by
  unfold tripFault
  extract_lets latched s1 s2
  have h2 : Darkens s1 s2 := (raise_darkens ..).trans (raise_darkens ..)
  have o2 : KeepsOff s1 s2 := (raise_keepsOff ..).trans (raise_keepsOff ..)
  split
  · exact ⟨h2, o2⟩
  · exact ⟨h2.trans (raise_darkens ..), o2.trans (raise_keepsOff ..)⟩

theorem tripFault_darkens : Darkens s (tripFault m head colour restartable src code payload s) :=
  (divert_darkens ..).trans ((safeReact_darkens ..).trans (tripFault_events ..).1)

theorem tripFault_keepsOff : KeepsOff s (tripFault m head colour restartable src code payload s) :=
  (divert_keepsOff ..).trans ((safeReact_keepsOff ..).trans (tripFault_events ..).2)

theorem tripFault_cuts (hm : m < 16) : Cut m (tripFault m head colour restartable src code payload s) := by
  obtain ⟨hdark, hcause, hshut⟩ := safeReact_dark hm none restartable (divert (fun _ => true) true s)
  obtain ⟨hdarkens, hoff⟩ := tripFault_events m head colour restartable src code payload s
  have hcut (n : Chan) : (safeReact m none true restartable (divert (fun _ => true) true s)).chans[n].bucksOff = true :=
    (safeReact_keepsOff ..).off n (by rw [divert_off, Bool.and_self, Bool.or_true])
  exact Cut.keep ⟨hdark, hcause, hshut, hcut⟩ hdarkens hoff

theorem tripFault_therm : (tripFault m head colour restartable src code payload s).therm = s.therm :=
  (tripFault_only ..).same .therm rfl

end

/-! ## The trips of a sample (R315) -/

section
variable (g : Fin 2) (s : State)

/-- The group trips. -/
def tripLatched (x : GroupDyn) : GroupDyn := { x with tripped := true, coolMs := 0 }

/-- What a group's trip can do: count the cool time of a group that is tripped, trip a group, or nothing. -/
inductive TripOutcome : State → Prop where
  | cools (n : Nat) (h : s.therm.groups[g].tripped = true) : TripOutcome (onGroup g (fun x => { x with coolMs := n }) s)
  | trips (p : Nat) (h : s.therm.groups[g].tripped = false) :
    TripOutcome (tripFault 11 0 0 true srcThermal evThermalTrip p (onGroup g tripLatched s))
  | idles (h : s.therm.groups[g].tripped = false)
      (hcold : ∀ i ∈ tripSensors s g, s.therm.sensors[i].overs < 2) : TripOutcome s

theorem tripGroup_outcome : TripOutcome g s (tripGroup g s) := by
  unfold tripGroup
  by_cases htripped : s.therm.groups[g].tripped = true
  · rw [if_pos htripped]
    extract_lets cool
    have hcount : onGroup g (fun x => { x with coolMs := if cool then x.coolMs + 1 else 0 }) s =
      onGroup g (fun x => { x with coolMs := if cool then s.therm.groups[g].coolMs + 1 else 0 }) s := rfl
    rw [hcount]
    exact .cools _ htripped
  · rw [if_neg htripped]
    have hnew : s.therm.groups[g].tripped = false := by simpa using htripped
    split
    · exact .trips _ hnew
    · next hcold =>
      refine .idles hnew fun i hi => ?_
      simpa using List.find?_eq_none.mp hcold i hi

variable {g s} {t : State}

/-- No trip is released; the sensors and the throttle stand. -/
theorem TripOutcome.keeps (h : TripOutcome g s t) : t.therm.sensors = s.therm.sensors ∧ t.therm.level = s.therm.level ∧
    t.therm.stepDue = s.therm.stepDue ∧ ∀ k : Fin 2, s.therm.groups[k].tripped = true → t.therm.groups[k].tripped = true := by
  have hgroup {f : GroupDyn → GroupDyn} (hf : ∀ x, x.tripped = true → (f x).tripped = true) (k : Fin 2)
      (hk : s.therm.groups[k].tripped = true) : (onGroup g f s).therm.groups[k].tripped = true := by
    rw [onGroup_therm]
    by_cases hkg : k = g
    · subst hkg
      rw [upd_get_self]
      exact hf _ hk
    · rw [upd_get_ne _ _ hkg, hk]
  cases h with
  | cools n _ => exact ⟨rfl, rfl, rfl, hgroup fun _ => id⟩
  | trips p _ =>
    rw [tripFault_therm]
    exact ⟨rfl, rfl, rfl, hgroup fun _ _ => rfl⟩
  | idles _ _ => exact ⟨rfl, rfl, rfl, fun _ => id⟩

theorem TripOutcome.darkens (h : TripOutcome g s t) : Darkens s t := by
  cases h with
  | cools n _ => exact darkens_of_only (onGroup_only ..) rfl
  | trips p _ => exact Darkens.trans (darkens_of_only (onGroup_only ..) rfl) (tripFault_darkens ..)
  | idles _ _ => exact darkens_refl s

theorem onGroup_keepsOff (g : Fin 2) (f : GroupDyn → GroupDyn) (s : State) : KeepsOff s (onGroup g f s) := keepsOff_of_chans rfl

theorem TripOutcome.keepsOff (h : TripOutcome g s t) : KeepsOff s t := by
  cases h with
  | cools n _ => exact onGroup_keepsOff ..
  | trips p _ => exact (onGroup_keepsOff g tripLatched s).trans (tripFault_keepsOff ..)
  | idles _ _ => exact keepsOff_of_chans rfl

/-- The second conversion at or above the limit, of a sensor of the trip. -/
theorem TripOutcome.of_hot (h : TripOutcome g s t) {i : Fin 36} (hi : i ∈ tripSensors s g)
    (hover : 2 ≤ s.therm.sensors[i].overs) :
    t.therm.groups[g].tripped = true ∧ (s.therm.groups[g].tripped = false → Cut 11 t) := by
  cases h with
  | cools n htripped =>
    refine ⟨?_, fun hnew => absurd htripped (by rw [hnew]; decide)⟩
    rw [onGroup_therm, upd_get_self]
    exact htripped
  | trips p _ =>
    refine ⟨?_, fun _ => tripFault_cuts _ _ _ _ _ _ _ _ (by decide)⟩
    rw [tripFault_therm, onGroup_therm, upd_get_self]
    rfl
  | idles _ hcold => exact absurd (hcold i hi) (Nat.not_lt.mpr hover)

end

theorem mem_tripSensors_die {i : Fin 36} (hi : i.val < 12) (s : State) : i ∈ tripSensors s 0 := by
  rw [tripSensors, List.mem_filter]
  refine ⟨List.mem_finRange i, ?_⟩
  rw [tripLimit_die hi, if_pos rfl, decide_eq_true hi]
  rfl

/-! ## The row -/

/-- What of the thermal state no reading moves. -/
def throttlePart (s : State) : Nat × Option (Bool × Bool) × Vector GroupDyn 2 :=
  (s.therm.level, s.therm.stepDue, s.therm.groups)

theorem takeReading_throttle (i : Fin 36) (v : Option Rat) (s : State) : throttlePart (takeReading i v s) = throttlePart s := by
  rw [throttlePart, takeReading_therm]
  rfl

theorem takeAt_throttle (s : State) : throttlePart (takeAt s) = throttlePart s := by
  refine forEach_keeps (fun k u => ?_) allHeads s
  split
  · exact takeReading_throttle ..
  · rfl

theorem takeReadings_throttle (r : List (Fin 36 × Reading)) (s : State) : throttlePart (takeReadings r s) = throttlePart s := by
  rw [takeReadings_eq, takeAt_throttle, takeList]
  exact forEach_keeps (fun p u => takeReading_throttle ..) _ s

section
variable {r : List (Fin 36 × Reading)} {s : State} {i : Fin 36} {v : Reading} (honce : (r.map (·.1)).Nodup) (hi : i.val < 12)
  (hmem : (i, v) ∈ r)

theorem tested_groupsJudged_keeps (r : List (Fin 36 × Reading)) (s : State) :
    KeepsReadings (takeReadings r s) (groupsJudged (tested r s)) :=
  (tested_keeps r s).trans ((failAll_keeps _).trans (failAll_groupsJudged_keeps _))

include honce hi hmem

/-- What a die sensor has read stands to the end of the sample. -/
theorem readPart_sampled : readPart (groupsJudged (tested r s)).therm.sensors[i] =
    readPart (dieRead (readingOf v) s.therm.sensors[i]) := by
  rw [(tested_groupsJudged_keeps r s).read, takeReadings_die hi honce hmem]

/-- A sensor whose input is open or short has failed (R310). -/
theorem failed_of_none (hnone : readingOf v = none) : (groupsJudged (tested r s)).therm.sensors[i].failed = true := by
  refine (failAll_groupsJudged_keeps _).failed i ?_
  cases hok : (tested r s).therm.sensors[i].failed with
  | true => exact (failAll_keeps _).failed i hok
  | false =>
    have hread : readPart (tested r s).therm.sensors[i] = readPart (dieRead none s.therm.sensors[i]) := by
      rw [(tested_keeps r s).read, takeReadings_die hi honce hmem, hnone]
    simp only [readPart, Prod.mk.injEq] at hread
    obtain ⟨htried, hraw, -⟩ := hread
    exact failAll_fails (failCause_of_out hok htried (by rw [hraw]; rfl))

end

/-- Settles O34: after the readings each step of a sample keeps what the sensors read; the trips come last. -/
theorem samplesFilterAndTrip : Obligations.SamplesFilterAndTrip := by
  unfold Obligations.SamplesFilterAndTrip
  intro r s
  refine ⟨fun hreset => exec_of_effect rfl (sampleAll_reset hreset r), fun hruns honce => ?_⟩
  have hkept := tested_groupsJudged_keeps r s
  have hthrottle := takeReadings_throttle r s
  simp only [throttlePart, Prod.mk.injEq] at hthrottle
  obtain ⟨hlevel, hdue, hgroups⟩ := hthrottle
  have hdie := tripGroup_outcome 0 (groupsJudged (tested r s))
  have hle := tripGroup_outcome 1 (tripGroup 0 (groupsJudged (tested r s)))
  obtain ⟨hsensors0, hlevel0, hdue0, -⟩ := hdie.keeps
  obtain ⟨hsensors1, hlevel1, hdue1, hlatch1⟩ := hle.keeps
  refine ends_of rfl (sampleAll_only r s) rfl ?_
  rw [settle_therm, settle_safety, settle_chans, sampleAll_runs hruns, hsensors1, hsensors0]
  refine ⟨?_, ?_, fun i v hmem hi => ?_, fun i v q hmem hi hq hhot hsecond => ?_⟩
  · rw [hlevel1, hlevel0, hkept.level, hlevel]
  · rw [hdue1, hdue0, hkept.stepDue, hdue]
  · extract_lets x y
    have hread : readPart y = readPart (dieRead (readingOf v) x) := readPart_sampled honce hi hmem
    simp only [readPart, Prod.mk.injEq] at hread
    obtain ⟨htried, hraw, hseen, hlast, htf, hovers⟩ := hread
    refine ⟨hraw, htried, fun q hq hlow hhigh => ?_, fun hnone => ?_⟩
    · rw [hseen, hlast, htf, hovers, hq, dieRead_overs]
      obtain ⟨h1, h2, h3, h4, h5⟩ := dieRead_inRange (x := x) hlow hhigh
      exact ⟨h1, h2, h3, h4, h5, rfl⟩
    · rw [hlast, htf, hovers, hnone]
      obtain ⟨h1, h2, h3⟩ := dieRead_none (x := x)
      exact ⟨h1, h2, h3, fun _ => failed_of_none honce hi hmem hnone⟩
  · have hread := readPart_sampled (s := s) honce hi hmem
    simp only [readPart, Prod.mk.injEq] at hread
    obtain ⟨-, -, -, -, -, hovers⟩ := hread
    have hover : 2 ≤ (groupsJudged (tested r s)).therm.sensors[i].overs := by
      rw [hovers, hq, dieRead_overs, if_pos hhot]
      omega
    obtain ⟨htrips, hcuts⟩ := hdie.of_hot (mem_tripSensors_die hi _) hover
    refine ⟨hlatch1 0 htrips, fun hnew => ?_⟩
    have hfirst : (groupsJudged (tested r s)).therm.groups[(0 : Fin 2)].tripped = false := by
      rw [hkept.latch, hgroups, hnew]
    obtain ⟨hdark, hcause, hshut, hoff⟩ := (hcuts hfirst).keep hle.darkens hle.keepsOff
    exact ⟨hdark, hcause, fun n => ⟨hshut n, hoff n⟩⟩

end Sys2Proof.Machine

/-! # Flash and OTP jobs end (R295, R440, R465, R470, R472) -/

namespace Sys2Proof.Machine

/-! ## While no command waits nothing follows a completion -/

/-- What a queue has been given and has fetched. -/
def pointers (s : State) (q : Fin 4) : BitVec 8 × BitVec 8 := (s.queues[q].sqHead, s.queues[q].sqTail)

theorem onQueue_pointers {p : Fin 4} {f : QueueDyn → QueueDyn} {s : State} (hhead : (f s.queues[p]).sqHead = s.queues[p].sqHead)
    (htail : (f s.queues[p]).sqTail = s.queues[p].sqTail) : pointers (onQueue p f s) = pointers s := by
  funext q
  simp only [pointers, onQueue_queues]
  by_cases hq : q = p
  · rw [hq, upd_get_self, hhead, htail]
  · rw [upd_get_ne _ _ hq]

theorem pointers_of_queues {s t : State} (h : t.queues = s.queues) : pointers t = pointers s := by
  funext q
  rw [pointers, h]
  rfl

theorem pumpCq_pointers (p : Fin 4) (k : Nat) (s : State) : pointers (pumpCq p k s) = pointers s := by
  obtain ⟨-, hothers, hhead, htail, -⟩ := pumpCq_spec p k s
  funext q
  simp only [pointers]
  by_cases hq : q = p
  · rw [hq, hhead, htail]
  · rw [hothers q hq]

/-- A completion enters a journal; no queue is given or fetches anything by it. -/
theorem complete_pointers (d : Deferred) (status : BitVec 16) (result : Nat) (s : State) :
    pointers (complete d status result s) = pointers s := by
  unfold complete
  extract_lets away c s1
  have h1 : pointers s1 = pointers s := onQueue_pointers rfl rfl
  rw [← h1]
  split
  · exact pumpCq_pointers ..
  · exact pointers_of_queues ((cwSend_only ..).same .queues rfl)
  · rfl

/-- Nor does it bring a relayed command, or a CHAIN_SEND. -/
theorem complete_relayed (d : Deferred) (status : BitVec 16) (result : Nat) (s : State) :
    (complete d status result s).cw.inCmd = s.cw.inCmd ∧
    (s.cw.waitCmd = none → (complete d status result s).cw.waitCmd = none) := by
  unfold complete
  extract_lets away c s1
  split
  · have hcw : (pumpCq d.queue 16 s1).cw = s.cw := (pumpCq_only ..).same .cw rfl
    rw [hcw]
    exact ⟨rfl, id⟩
  · have hcw : (cwSend .up 0x42 0 0 (completionWords (completionWord s.queues[d.queue].wrap c)) s1).cw = s.cw :=
      (cwSend_only ..).same .cw rfl
    rw [hcw]
    exact ⟨rfl, id⟩
  · refine ⟨rfl, fun hnone => ?_⟩
    rw [onCw_cw, show s1.cw = s.cw from rfl, hnone]
    rfl

theorem quiet_of_pointers {s t : State} (h : Quiet s) (hp : pointers t = pointers s) (hin : t.cw.inCmd = s.cw.inCmd)
    (hwait : s.cw.waitCmd = none → t.cw.waitCmd = none) : Quiet t := by
  obtain ⟨hempty, hnone, hsend⟩ := h
  refine ⟨fun q => ?_, hin.trans hnone, hwait hsend⟩
  have hq : pointers t q = pointers s q := congrFun hp q
  rw [pointers, pointers, Prod.mk.injEq] at hq
  rw [hq.1, hq.2, hempty q]

theorem quiet_of_only {f : List Part} {s t : State} (h : Quiet s) (ho : Only f t s)
    (hf : [Part.queues, .cw].all (fun x => !f.contains x) = true) : Quiet t := by
  simp only [List.all_cons, List.all_nil, Bool.and_true, Bool.and_eq_true, Bool.not_eq_true'] at hf
  obtain ⟨hqueues, hcw⟩ := hf
  have hcw : t.cw = s.cw := ho.same .cw hcw
  exact quiet_of_pointers h (pointers_of_queues (ho.same .queues hqueues)) (by rw [hcw]) (by rw [hcw]; exact id)

theorem quiet_finish {s : State} (h : Quiet s) (q : Fin 4) (status : BitVec 16) (result : Nat) :
    Quiet (finish q status result s) := by
  unfold finish
  split
  · next d hd =>
    obtain ⟨hin, hwait⟩ := complete_relayed d status result (onQueue q (fun x => { x with waiting := none }) s)
    exact quiet_of_pointers h ((complete_pointers ..).trans (onQueue_pointers rfl rfl)) hin hwait
  · exact h

/-- With nothing to fetch, nothing relayed and no CHAIN_SEND under way, nothing executes. -/
theorem drainAll_quiet {s : State} (h : Quiet s) : drainAll s = s := by
  obtain ⟨hempty, hnone, hsend⟩ := h
  have htake : takeCmd s = none := by
    simp only [takeCmd, hnone, List.find?_nil]
  have hruns (k : Nat) : runCmds k s = s := by
    cases k with
    | zero => rfl
    | succ k => simp only [runCmds, htake]
  have htry : trySend s = s := by
    simp only [trySend, hsend]
  rw [drainAll, hruns, htry]
  have hdrain (q : Fin 4) : drain q s = s := drainFuel_empty 256 (hempty q)
  have hall (l : List (Fin 4)) : forEach l drain s = s := by
    induction l with
    | nil => rfl
    | cons q r ih => exact (congrArg (forEach r drain) (hdrain q)).trans ih
  exact hall _

/-! ## OTP_SERIES_DONE (R440, R441) -/

/-- The generation that the first series writes: consumed and unsealed. -/
def writtenGen (s : State) (utc : BitVec 32) (station : BitVec 16) : Generation :=
  { s.cal.live with consumed := true, isSealed := false, damaged := false, utc := utc, station := station }

theorem seriesDone_idle (ok : Bool) {s : State} (hidle : s.cal.commit = none ∨ s.cal.granted = false) : seriesDone ok s = s := by
  unfold seriesDone
  rcases hidle with hnone | hwaits
  · rw [hnone]
  · cases hcommit : s.cal.commit with
    | none => rfl
    | some c => simp only [hwaits, Bool.not_false, if_true]

section
variable {s : State} {g : Fin 4} {utc : BitVec 32} {station : BitVec 16} {left : Nat}
  (hcommit : s.cal.commit = some (g, utc, station, left)) (hgranted : s.cal.granted = true)

/-- The event that ends a commit (R443). -/
theorem raise_cal_only (p : Nat) (s : State) : Only [.cxl, .ev, .out] (raise srcCal evCalSealed p s) s :=
  raise_plain_only (by decide) ..

/-- The CAL_COMMIT that waits completes, after CAL_SEALED. -/
def commitEnds (outcome : Nat) (g : Fin 4) (utc : BitVec 32) (s : State) : State :=
  finish 1 stOk (commitOutcome outcome g.val s) (raise srcCal evCalSealed (sealedWord outcome g.val utc s) s)

theorem commitEnds_only (outcome : Nat) (g : Fin 4) (utc : BitVec 32) (s : State) :
    Only [.cxl, .queues, .ev, .cw, .out] (commitEnds outcome g utc s) s :=
  only_step (finish_only ..) rfl (only_mono (raise_cal_only ..) rfl)

theorem quiet_commitEnds {s : State} (h : Quiet s) (outcome : Nat) (g : Fin 4) (utc : BitVec 32) :
    Quiet (commitEnds outcome g utc s) :=
  quiet_finish (quiet_of_only h (raise_cal_only ..) rfl) ..

variable (s g utc station) in
/-- The generation is written, and its commit over without effect. -/
def commitFailed : State :=
  onCal (fun c => { c with commit := none, granted := false }) (onGen g (fun _ => writtenGen s utc station) s)

variable (s g utc station) in
/-- The generation is written, sealed and in force. -/
def commitSealed : State := onLoops (·.map fun v => v.map fun l => { l with rhoRef := none })
  (onCal (fun c => { c with commit := none, granted := false, uncommitted := false, inForce := some g })
    (onGen g (fun x => { x with isSealed := true }) (onGen g (fun _ => writtenGen s utc station) s)))

theorem commitFailed_only : Only [.otp, .cal] (commitFailed s g utc station) s :=
  only_step (only_onCal ..) rfl (only_mono (onGen_only ..) rfl)

theorem commitSealed_only : Only [.loops, .otp, .cal] (commitSealed s g utc station) s :=
  only_step (only_onLoops ..) rfl (only_step (only_onCal ..) rfl (only_step (onGen_only ..) rfl (only_mono (onGen_only ..) rfl)))

theorem commitFailed_otp : (commitFailed s g utc station).otp =
    { s.otp with gens := s.otp.gens.set g (writtenGen s utc station) } := rfl

theorem commitSealed_otp : (commitSealed s g utc station).otp =
    { s.otp with gens := s.otp.gens.set g { writtenGen s utc station with isSealed := true } } := by
  have hgens := upd_upd s.otp.gens g (fun _ => writtenGen s utc station) (fun x => { x with isSealed := true })
  exact congrArg (fun v => { s.otp with gens := v }) hgens

include hcommit hgranted

theorem seriesDone_first (hmore : 1 < left) : seriesDone true s = onCal (fun c => { c with
    commit := some (g, utc, station, left - 1), granted := false }) (onGen g (fun _ => writtenGen s utc station) s) := by
  simp only [seriesDone, hcommit, hgranted, hmore, Bool.not_true, Bool.false_eq_true, if_false, if_true]
  rfl

/-- The second series, while no command waits. -/
theorem seriesDone_second (hlast : left ≤ 1) (hquiet : Quiet s) :
    seriesDone true s = commitEnds 0 g utc (commitSealed s g utc station) := by
  have hdrained : seriesDone true s = drainAll (commitEnds 0 g utc (commitSealed s g utc station)) := by
    simp only [seriesDone, hcommit, hgranted, Nat.not_lt.mpr hlast, Bool.not_true, Bool.false_eq_true, if_false]
    rfl
  rw [hdrained, drainAll_quiet (quiet_commitEnds (quiet_of_only hquiet commitSealed_only rfl) ..)]

/-- A word that fails, while no command waits. -/
theorem seriesDone_fails (hquiet : Quiet s) : seriesDone false s = commitEnds 1 g utc (commitFailed s g utc station) := by
  have hdrained : seriesDone false s = drainAll (commitEnds 1 g utc (commitFailed s g utc station)) := by
    simp only [seriesDone, hcommit, hgranted, Bool.not_true, Bool.false_eq_true, if_false, Bool.not_false, if_true]
    rfl
  rw [hdrained, drainAll_quiet (quiet_commitEnds (quiet_of_only hquiet commitFailed_only rfl) ..)]

end

/-! ## What the flash holds after a job (R465, R472) -/

/-- The settings copy that a job writes. -/
def copyWritten (dst : Bool) : Fin 2 := if dst then 1 else 0

/-- The work of a job as the flash shows it. -/
def flashAfter (w : FlashWork) (f : Flash) : Flash :=
  match w with
  | .erase => { f with image := [] }
  | .block b bytes => { f with image := (b, bytes) :: f.image.filter fun p => p.1 != b }
  | .record r => appendRecord r f
  | .copy dst es => { f with
      copies := f.copies.set (copyWritten dst) es
      schemaOf := f.schemaOf.set (copyWritten dst) (maxSchema es) }

theorem writeRecord_flash (r : BootRecord) (s : State) : (writeRecord r s).flash = appendRecord r s.flash := by
  unfold writeRecord
  extract_lets f dst src s1 s2
  split <;> rfl

theorem workDone_flash (w : FlashWork) (s : State) : (workDone w s).flash = flashAfter w s.flash := by
  cases w with
  | erase => rfl
  | block b bytes => rfl
  | record r => exact writeRecord_flash r s
  | copy dst es => rfl

/-- The work leaves the jobs that wait and the grant alone. -/
theorem flashAfter_keeps (w : FlashWork) (f : Flash) : (flashAfter w f).jobs = f.jobs ∧ (flashAfter w f).slice = f.slice := by
  cases w with
  | erase => exact ⟨rfl, rfl⟩
  | block b bytes => exact ⟨rfl, rfl⟩
  | record r => exact ⟨rfl, rfl⟩
  | copy dst es => exact ⟨rfl, rfl⟩

/-! ## What follows a job adds jobs at most -/

/-- From s to t the flash has only been given more work, and a reset that is due stays due. -/
structure AddsJobs (s t : State) : Prop where
  flash : ∃ l, t.flash = { s.flash with jobs := s.flash.jobs ++ l }
  reset : s.upd.resetDue = true → t.upd.resetDue = true

theorem addsJobs_of_flash {s t : State} (hflash : t.flash = s.flash) (hreset : s.upd.resetDue = true → t.upd.resetDue = true) :
    AddsJobs s t :=
  ⟨⟨[], by rw [hflash, List.append_nil]⟩, hreset⟩

theorem addsJobs_refl (s : State) : AddsJobs s s := addsJobs_of_flash rfl id

theorem AddsJobs.trans {a b c : State} (h : AddsJobs a b) (k : AddsJobs b c) : AddsJobs a c := by
  obtain ⟨l, hl⟩ := h.flash
  obtain ⟨m, hm⟩ := k.flash
  exact ⟨⟨l ++ m, by rw [hm, hl, List.append_assoc]⟩, k.reset ∘ h.reset⟩

theorem addsJobs_of_only {f : List Part} {s t : State} (h : Only f t s)
    (hf : [Part.flash, .upd].all (fun x => !f.contains x) = true) : AddsJobs s t := by
  simp only [List.all_cons, List.all_nil, Bool.and_true, Bool.and_eq_true, Bool.not_eq_true'] at hf
  obtain ⟨hflash, hupd⟩ := hf
  have hupd : t.upd = s.upd := h.same .upd hupd
  exact addsJobs_of_flash (h.same .flash hflash) (by rw [hupd]; exact id)

theorem addJob_addsJobs (j : FlashJob) (s : State) : AddsJobs s (addJob j s) := ⟨⟨[j], rfl⟩, id⟩

theorem onUpd_addsJobs {f : UpdDyn → UpdDyn} {s : State} (hf : (f s.upd).resetDue = s.upd.resetDue) : AddsJobs s (onUpd f s) :=
  addsJobs_of_flash rfl (by rw [onUpd_upd, hf]; exact id)

theorem stageWhenFull_addsJobs (s : State) : AddsJobs s (stageWhenFull s) := by
  unfold stageWhenFull
  split
  · dsimp only
    split
    · exact addJob_addsJobs ..
    · exact addsJobs_refl s
  · exact addsJobs_refl s

theorem forwardBlock_addsJobs (b : Nat) (bytes : List Byte) (crc : BitVec 32) (s : State) :
    AddsJobs s (forwardBlock b bytes crc s) := addsJobs_of_only (forwardBlock_only ..) rfl

theorem startBlock_addsJobs (b : Nat) (bytes : List Byte) (s : State) : AddsJobs s (startBlock b bytes s) := by
  unfold startBlock
  extract_lets crc t
  exact (onUpd_addsJobs rfl).trans ((forwardBlock_addsJobs ..).trans (addJob_addsJobs ..))

theorem freeTransit_addsJobs (s : State) : AddsJobs s (freeTransit s) := by
  unfold freeTransit
  extract_lets s1
  have h1 : AddsJobs s s1 := onUpd_addsJobs rfl
  refine h1.trans ?_
  split
  · split
    · exact (onUpd_addsJobs rfl).trans (startBlock_addsJobs ..)
    · exact addsJobs_refl s1
  · exact addsJobs_refl s1

theorem sendResp_addsJobs (op : Nat) (st : BitVec 16) (result : Nat) (s : State) : AddsJobs s (sendResp op st result s) :=
  addsJobs_of_only (sendResp_only ..) rfl

theorem verifyHere_addsJobs (x : Session) (s : State) : AddsJobs s (verifyHere x s) := by
  unfold verifyHere
  split
  · exact addJob_addsJobs ..
  · exact sendResp_addsJobs ..

theorem resumeVerify_addsJobs (s : State) : AddsJobs s (resumeVerify s) := by
  have hnoted : AddsJobs s (onUpd (fun u => { u with verifyDue := false }) s) := onUpd_addsJobs rfl
  unfold resumeVerify
  repeat' split
  · exact addsJobs_refl s
  · exact addsJobs_refl s
  · exact hnoted.trans (verifyHere_addsJobs ..)
  · exact hnoted.trans (sendResp_addsJobs ..)

/-! ## The consequences of a job keep the mailbox quiet -/

theorem quiet_raise {s : State} (h : Quiet s) (src : Nat) (code : BitVec 16) (p : Nat) : Quiet (raise src code p s) :=
  quiet_of_only h (raise_only ..) rfl

theorem quiet_forEach {α : Type} {f : α → State → State} (hf : ∀ x s, Quiet s → Quiet (f x s)) (l : List α) {s : State}
    (h : Quiet s) : Quiet (forEach l f s) := by
  induction l generalizing s with
  | nil => exact h
  | cons x r ih => exact ih (hf x s h)

theorem quiet_chainDone {s : State} (h : Quiet s) (w : ChainWait) (own : BitVec 16 × Nat) : Quiet (chainDone w own s) := by
  unfold chainDone
  extract_lets s0 ok bad first joins openWord opened told gone verifyWord failed cancelled
  clear_value first
  have h0 : Quiet s0 := quiet_of_only h (only_onUpd ..) rfl
  split
  · have hopened : Quiet opened := quiet_of_only h0 (only_onUpd ..) rfl
    have htold : Quiet told := quiet_forEach (fun x u hu => quiet_raise hu ..) _ hopened
    exact quiet_finish htold ..
  · have hfailed : Quiet failed := by
      unfold failed
      cases first with
      | none => exact h0
      | some x => exact quiet_raise h0 ..
    exact quiet_finish hfailed ..
  · cases first with
    | none => exact quiet_finish h0 ..
    | some x =>
      have hdisarmed : Quiet (onUpd (fun u => { u with armed := none }) s0) := quiet_of_only h0 (only_onUpd ..) rfl
      have hcancelled : Quiet cancelled := quiet_of_only hdisarmed (sendCtrl_only ..) rfl
      exact quiet_finish (quiet_raise hcancelled ..) ..

theorem quiet_tryChain {s : State} (h : Quiet s) : Quiet (tryChain s) := by
  unfold tryChain
  repeat' split
  · exact quiet_chainDone h ..
  · exact h
  · exact h
  · exact h

theorem quiet_ownAnswer {s : State} (h : Quiet s) (st : BitVec 16) (result : Nat) : Quiet (ownAnswer st result s) := by
  unfold ownAnswer
  split
  · next w hw =>
    have hnoted : Quiet (onUpd (fun u => { u with wait := some { w with own := some (st, result) } }) s) :=
      quiet_of_only h (only_onUpd ..) rfl
    exact quiet_tryChain hnoted
  · exact quiet_finish h ..

/-! ## A job ends -/

/-- What the end of a job brings before the reset that it calls for. -/
def jobTold (j : FlashJob) (s : State) : State :=
  let s1 := workDone j.work s
  let s2 := match j.sess with
    | some st => setSession st s1
    | none => s1
  let s3 := match j.tell with
    | some c => tellUpdate c s2
    | none => s2
  let s4 := match j.up with
    | some (op, st, r) => sendResp op st r s3
    | none => s3
  match j.answer with
  | some (st, r) => ownAnswer st r s4
  | none => s4

theorem endJob_eq (j : FlashJob) (s : State) : endJob j s = freeTransit (stageWhenFull
    (if j.reset then onUpd (fun u => { u with resetDue := true }) (jobTold j s) else jobTold j s)) := rfl

/-- The flash holds the job's work and no other; the mailbox stays quiet. -/
theorem jobTold_spec (j : FlashJob) {s : State} (h : Quiet s) :
    (jobTold j s).flash = flashAfter j.work s.flash ∧ Quiet (jobTold j s) := by
  have hnext {f : List Part} {a b : State} (ho : Only f b a) (hf : f.contains .flash = false) (hb : Quiet b)
      (ha : a.flash = flashAfter j.work s.flash) : b.flash = flashAfter j.work s.flash ∧ Quiet b :=
    ⟨(ho.same .flash hf).trans ha, hb⟩
  unfold jobTold
  extract_lets s1 s2 s3 s4
  have h1 : s1.flash = flashAfter j.work s.flash ∧ Quiet s1 := ⟨workDone_flash .., quiet_of_only h (workDone_only ..) rfl⟩
  have h2 : s2.flash = flashAfter j.work s.flash ∧ Quiet s2 := by
    unfold s2
    split
    · exact hnext (setSession_only ..) rfl (quiet_of_only h1.2 (setSession_only ..) rfl) h1.1
    · exact h1
  have h3 : s3.flash = flashAfter j.work s.flash ∧ Quiet s3 := by
    unfold s3
    split
    · exact hnext (tellUpdate_only ..) rfl (quiet_of_only h2.2 (tellUpdate_only ..) rfl) h2.1
    · exact h2
  have h4 : s4.flash = flashAfter j.work s.flash ∧ Quiet s4 := by
    unfold s4
    split
    · exact hnext (sendResp_only ..) rfl (quiet_of_only h3.2 (sendResp_only ..) rfl) h3.1
    · exact h3
  split
  · exact hnext (ownAnswer_only ..) rfl (quiet_ownAnswer h4.2 ..) h4.1
  · exact h4

/-- The end of a job: the flash holds its work before the work that is added, and its reset falls due. -/
theorem endJob_spec (j : FlashJob) {s : State} (h : Quiet s) :
    Quiet (endJob j s) ∧ (∃ l, (endJob j s).flash = { flashAfter j.work s.flash with jobs := s.flash.jobs ++ l }) ∧
    (j.reset = true → (endJob j s).upd.resetDue = true) := by
  obtain ⟨hflash, hquiet⟩ := jobTold_spec j h
  obtain ⟨hjobs, -⟩ := flashAfter_keeps j.work s.flash
  have hadds (u : State) : AddsJobs u (freeTransit (stageWhenFull u)) :=
    (stageWhenFull_addsJobs u).trans (freeTransit_addsJobs _)
  have hkeeps {u : State} (hu : Quiet u) : Quiet (freeTransit (stageWhenFull u)) :=
    quiet_of_only (quiet_of_only hu (stageWhenFull_only ..) rfl) (freeTransit_only ..) rfl
  rw [endJob_eq]
  cases j.reset with
  | false =>
    obtain ⟨l, hl⟩ := (hadds (jobTold j s)).flash
    exact ⟨hkeeps hquiet, ⟨l, by rw [← hjobs, ← hflash]; exact hl⟩, fun hreset => by cases hreset⟩
  | true =>
    obtain ⟨l, hl⟩ := (hadds (onUpd (fun u => { u with resetDue := true }) (jobTold j s))).flash
    have hdue : Quiet (onUpd (fun u => { u with resetDue := true }) (jobTold j s)) := quiet_of_only hquiet (only_onUpd ..) rfl
    exact ⟨hkeeps hdue, ⟨l, by rw [← hjobs, ← hflash]; exact hl⟩, fun _ => (hadds _).reset rfl⟩

/-- The state that a slice leaves: none runs, and the rest of the jobs wait. -/
def sliceTaken (r : List FlashJob) (s : State) : State := onFlash (fun f => { f with jobs := r, slice := false }) s

theorem sliceTaken_only (r : List FlashJob) (s : State) : Only [.flash] (sliceTaken r s) s := only_onFlash ..

section
variable {finished ok : Bool} {s : State}

/-- Without a grant, and outside recovery, no slice ends. -/
theorem sliceDone_idle (hslice : s.flash.slice = false) (hstage : s.boot.stage ≠ .recovery) : sliceDone finished ok s = s :=
  if_pos (by simp [hslice, hstage])

/-- A slice that is not the last, that failed, or that had no job is over; what waits stands. -/
theorem sliceDone_stands (hslice : s.flash.slice = true) (hmore : finished = false ∨ ok = false ∨ s.flash.jobs = []) :
    sliceDone finished ok s = onFlash (fun f => { f with slice := false }) s := by
  have hsome : ¬((!s.flash.slice && !(s.boot.stage == BootStage.recovery)) = true) := by simp [hslice]
  rw [sliceDone, if_neg hsome]
  cases hjobs : s.flash.jobs with
  | nil => simp only [onFlash_flash, hjobs]
  | cons j r =>
    have hfails : ¬((finished && ok) = true) := by
      rcases hmore with rfl | rfl | hnil
      · rw [Bool.false_and]; decide
      · rw [Bool.and_false]; decide
      · rw [hjobs] at hnil; cases hnil
    simp only [onFlash_flash, hjobs, if_neg hfails]

/-- The last slice of a job, outside recovery, while no command waits. -/
theorem sliceDone_ends {j : FlashJob} {r : List FlashJob} (hslice : s.flash.slice = true) (hstage : s.boot.stage ≠ .recovery)
    (hjobs : s.flash.jobs = j :: r) (hquiet : Quiet s) :
    sliceDone true true s = resumeVerify (endJob j (sliceTaken r s)) := by
  have htaken : Quiet (sliceTaken r s) := quiet_of_only hquiet (sliceTaken_only ..) rfl
  have hended : Quiet (resumeVerify (endJob j (sliceTaken r s))) :=
    quiet_of_only (endJob_spec j htaken).1 (resumeVerify_only ..) rfl
  have hrec : (s.boot.stage == BootStage.recovery) = false := by simpa using hstage
  have hdrained : sliceDone true true s = drainAll (resumeVerify (endJob j (sliceTaken r s))) := by
    simp only [sliceDone, hslice, hrec, hjobs, onFlash_flash, Bool.not_true, Bool.false_and, Bool.false_eq_true, if_false,
      Bool.and_self, if_true]
    rfl
  rw [hdrained, drainAll_quiet hended]

end

/-- Settles O40: while no command waits the end of a job, or of a series, is its own effect; what follows adds work at most. -/
theorem flashAndOtpJobsEnd : Obligations.FlashAndOtpJobsEnd := by
  unfold Obligations.FlashAndOtpJobsEnd
  refine ⟨fun finished ok s => ⟨fun hslice hstage => exec_of_effect rfl (sliceDone_idle hslice hstage),
    fun hslice hmore => exec_of_effect rfl (sliceDone_stands hslice hmore), fun j r hslice hstage hjobs hquiet => ?_⟩,
    fun ok s => ⟨fun hidle => exec_of_effect rfl (seriesDone_idle ok hidle), fun g utc station left hcommit hgranted => ?_⟩⟩
  · have htaken : Quiet (sliceTaken r s) := quiet_of_only hquiet (sliceTaken_only ..) rfl
    obtain ⟨-, ⟨l, hl⟩, hreset⟩ := endJob_spec j htaken
    have hadds := resumeVerify_addsJobs (endJob j (sliceTaken r s))
    obtain ⟨m, hm⟩ := hadds.flash
    rw [hl] at hm
    refine ends_of (exec_of_effect rfl (sliceDone_ends hslice hstage hjobs hquiet))
      (only_step (resumeVerify_only ..) rfl (only_step (endJob_only ..) rfl (only_mono (sliceTaken_only ..) rfl))) rfl ?_
    rw [settle_flash, settle_upd, hm]
    refine ⟨(flashAfter_keeps ..).2, ⟨l ++ m, List.append_assoc ..⟩, fun hdue => hadds.reset (hreset hdue), fun hw => ?_,
      fun b bytes hw => ?_, fun x hw => ?_, fun d es hw => ?_⟩
    · rw [hw]; rfl
    · rw [hw]; rfl
    · rw [hw]; exact ⟨rfl, rfl⟩
    · rw [hw]; exact ⟨Vector.getElem_set_self .., Vector.getElem_set_self ..⟩
  · intro written gens
    refine ⟨fun hmore => ?_, fun hlast hquiet => ?_, fun hquiet => ?_⟩
    · refine ends_of (exec_of_effect rfl (seriesDone_first hcommit hgranted hmore))
        (only_step (only_onCal ..) rfl (only_mono (onGen_only ..) rfl)) rfl ⟨?_, ?_⟩
      · rw [settle_otp]; rfl
      · rw [settle_cal]; rfl
    · have hotp := (commitEnds_only 0 g utc (commitSealed s g utc station)).same .otp rfl
      have hcal := (commitEnds_only 0 g utc (commitSealed s g utc station)).same .cal rfl
      refine ends_of (exec_of_effect rfl (seriesDone_second hcommit hgranted hlast hquiet))
        (only_step (commitEnds_only ..) rfl (only_mono commitSealed_only rfl)) rfl ?_
      rw [settle_otp, settle_cal, hotp, hcal]
      exact ⟨commitSealed_otp, rfl, rfl, rfl⟩
    · have hotp := (commitEnds_only 1 g utc (commitFailed s g utc station)).same .otp rfl
      have hcal := (commitEnds_only 1 g utc (commitFailed s g utc station)).same .cal rfl
      refine ends_of (exec_of_effect rfl (seriesDone_fails hcommit hgranted hquiet))
        (only_step (commitEnds_only ..) rfl (only_mono commitFailed_only rfl)) rfl ?_
      rw [settle_otp, settle_cal, hotp, hcal]
      exact ⟨commitFailed_otp, rfl, rfl⟩

end Sys2Proof.Machine

/-! # What a fault latches, and what its events leave (11) -/

namespace Sys2Proof.Machine

/-! ## What an event can do to the safety state (R387, R392) -/

/-- An event is told at most; only one that finds the store full does more, and then it is the reaction to that. -/
theorem raise_outcome (src : Nat) (code : BitVec 16) (p : Nat) (s : State) :
    Only [.cxl, .ev, .out] (raise src code p s) s ∨
    ∃ u, Only [.cxl, .out] u s ∧ 4096 ≤ u.ev.store.length ∧ raise src code p s = storeFull u := by
  by_cases hsrc : groupOf src = 6
  · obtain ⟨u, hu⟩ : ∃ u, u = if code == evCxlLink || code == evCxlError then signal 6 s else s := ⟨_, rfl⟩
    have hsignal : Only [.cxl, .out] u s := hu ▸ only_ite _ (signal_only ..) (only_refl _ s)
    have hraise : raise src code p s = if storeFree u = 0 then storeFull u else record src code p u := by
      simp only [raise, masked, unmaskable, hsrc, ← hu, BEq.rfl, Bool.true_or, Bool.not_true, Bool.false_and,
        Bool.false_eq_true, if_false, if_true]
    by_cases hfull : storeFree u = 0
    · exact .inr ⟨u, hsignal, Nat.le_of_sub_eq_zero hfull, by rw [hraise, if_pos hfull]⟩
    · rw [hraise, if_neg hfull]
      exact .inl (only_step (record_only ..) rfl (only_mono hsignal rfl))
  · exact .inl (raise_plain_only hsrc code p s)

/-- With a record free, an event is told at most. -/
theorem raise_roomy_only {s : State} (hroom : s.ev.store.length < 4096) (src : Nat) (code : BitVec 16) (p : Nat) :
    Only [.cxl, .ev, .out] (raise src code p s) s := by
  rcases raise_outcome src code p s with htold | ⟨u, hu, hfull, -⟩
  · exact htold
  · have hev : u.ev = s.ev := hu.same .ev rfl
    rw [hev] at hfull
    exact absurd hroom (Nat.not_lt.mpr hfull)

/-! ## What a reaction leaves latched (R341, R342, R345) -/

/-- What the hardware holds whatever the firmware does: every channel's diversion, the energy trip, the monitors' conditions. -/
def hardwareHold (y : SafetyDyn) : Bool × Bool × BitVec 2 := (y.hwDivert, y.energy, y.monitors)

/-- From s to t no cause has ceased to stand, no latch and no pin of the safe state is released, and the hardware holds what it
held. -/
structure KeepsLatches (s t : State) : Prop where
  standing (m : Nat) : s.safety.standing.getLsbD m = true → t.safety.standing.getLsbD m = true
  latched : s.safety.latched = true → t.safety.latched = true
  safeN : s.safety.safeN = true → t.safety.safeN = true
  hold : hardwareHold t.safety = hardwareHold s.safety

theorem KeepsLatches.trans {a b c : State} (h : KeepsLatches a b) (k : KeepsLatches b c) : KeepsLatches a c :=
  ⟨fun m => k.standing m ∘ h.standing m, k.latched ∘ h.latched, k.safeN ∘ h.safeN, k.hold.trans h.hold⟩

theorem keepsLatches_of_safety {s t : State} (h : t.safety = s.safety) : KeepsLatches s t :=
  ⟨fun _ hm => by rwa [h], fun hl => by rwa [h], fun hn => by rwa [h], by rw [h]⟩

/-- The causes that stand after a reaction: a restartable one that is no request joins them (log entry 9). -/
theorem safeReact_standing (m : Nat) (hd : Option Head) (toDark restartable : Bool) (s : State) :
    (safeReact m hd toDark restartable s).safety.standing =
      if restartable && !(m == 14) then s.safety.standing ||| BitVec.ofNat 16 (2 ^ m) else s.safety.standing := by
  cases hd <;> cases toDark <;> rfl

theorem safeReact_hold (m : Nat) (hd : Option Head) (toDark restartable : Bool) (s : State) :
    hardwareHold (safeReact m hd toDark restartable s).safety = hardwareHold s.safety := by
  obtain ⟨hdivert, henergy, hmonitors⟩ : (safeReact m hd toDark restartable s).safety.hwDivert = s.safety.hwDivert ∧
      (safeReact m hd toDark restartable s).safety.energy = s.safety.energy ∧
      (safeReact m hd toDark restartable s).safety.monitors = s.safety.monitors := by
    cases hd <;> cases toDark <;> exact ⟨rfl, rfl, rfl⟩
  rw [hardwareHold, hdivert, henergy, hmonitors, hardwareHold]

theorem safeReact_keepsLatches (m : Nat) (hd : Option Head) (toDark restartable : Bool) (s : State) :
    KeepsLatches s (safeReact m hd toDark restartable s) := by
  obtain ⟨-, hlatched, hpin⟩ := safeReact_safety m hd toDark restartable s
  refine ⟨fun k hk => ?_, fun hl => by rw [hlatched, hl, Bool.true_or], fun _ => hpin, safeReact_hold ..⟩
  rw [safeReact_standing]
  split
  · rw [BitVec.getLsbD_or, hk, Bool.true_or]
  · exact hk

theorem storeFull_keepsLatches (s : State) : KeepsLatches s (storeFull s) := by
  unfold storeFull
  split
  · exact keepsLatches_of_safety rfl
  · have hmark : KeepsLatches s (onSafety (fun y => { y with storeFull := true }) s) := ⟨fun _ => id, id, id, rfl⟩
    exact (hmark.trans (safeReact_keepsLatches ..)).trans (keepsLatches_of_safety rfl)

theorem raise_keepsLatches (src : Nat) (code : BitVec 16) (p : Nat) (s : State) : KeepsLatches s (raise src code p s) := by
  rcases raise_outcome src code p s with htold | ⟨u, hu, -, hfull⟩
  · exact keepsLatches_of_safety (htold.same .safety rfl)
  · rw [hfull]
    exact (keepsLatches_of_safety (hu.same .safety rfl)).trans (storeFull_keepsLatches u)

/-! ## A fault is its reaction; what follows only adds to it -/

/-- What follows a reaction: it darkens at most, switches no converter on and releases no latch. -/
structure OnlyAdds (s t : State) : Prop where
  darkens : Darkens s t
  keepsOff : KeepsOff s t
  keepsLatches : KeepsLatches s t

theorem OnlyAdds.trans {a b c : State} (h : OnlyAdds a b) (k : OnlyAdds b c) : OnlyAdds a c :=
  ⟨h.darkens.trans k.darkens, h.keepsOff.trans k.keepsOff, h.keepsLatches.trans k.keepsLatches⟩

theorem raise_onlyAdds (src : Nat) (code : BitVec 16) (p : Nat) (s : State) : OnlyAdds s (raise src code p s) :=
  ⟨raise_darkens .., raise_keepsOff .., raise_keepsLatches ..⟩

theorem safetyFault_onlyAdds (m : Nat) (tied : Option Head) (head colour : Nat) (toDark restartable : Bool) (rho : Nat)
    (s : State) : OnlyAdds (safeReact m (if toDark then none else tied) toDark restartable s)
      (safetyFault m tied head colour toDark restartable rho s) := by
  unfold safetyFault
  extract_lets latched s1 s2
  have h2 : OnlyAdds s1 s2 := raise_onlyAdds ..
  by_cases hform : (s1.safety.mode == s.safety.mode) = true
  · rw [if_pos hform]; exact h2
  · rw [if_neg hform]; exact h2.trans (raise_onlyAdds ..)

theorem tripFault_onlyAdds (m head colour : Nat) (restartable : Bool) (src : Nat) (code : BitVec 16) (payload : Nat) (s : State) :
    OnlyAdds (safeReact m none true restartable (divert (fun _ => true) true s))
      (tripFault m head colour restartable src code payload s) := by
  unfold tripFault
  extract_lets latched s1 s2
  have h2 : OnlyAdds s1 s2 := (raise_onlyAdds ..).trans (raise_onlyAdds ..)
  split
  · exact h2
  · exact h2.trans (raise_onlyAdds ..)

/-- A fault of a restartable cause stands until the cause has cleared (R343). -/
theorem safetyFault_stands {m : Nat} (hm : m < 16) (hrequest : m ≠ 14) (tied : Option Head) (head colour : Nat) (toDark : Bool)
    (rho : Nat) (s : State) :
    (safetyFault m tied head colour toDark true rho s).safety.standing.getLsbD m = true := by
  refine (safetyFault_onlyAdds ..).keepsLatches.standing m ?_
  have hbit : (BitVec.ofNat 16 (2 ^ m)).getLsbD m = true := by
    rw [BitVec.getLsbD_ofNat, decide_eq_true hm, Nat.testBit_two_pow_self, Bool.and_self]
  rw [safeReact_standing, if_pos (by simpa using hrequest), BitVec.getLsbD_or, hbit, Bool.or_true]

/-- A fault that no restart clears is latched. -/
theorem safetyFault_latched (m : Nat) (tied : Option Head) (head colour : Nat) (toDark : Bool) (rho : Nat) (s : State) :
    (safetyFault m tied head colour toDark false rho s).safety.latched = true := by
  refine (safetyFault_onlyAdds ..).keepsLatches.latched ?_
  rw [(safeReact_safety ..).2.1, Bool.not_false, Bool.true_or, Bool.or_true]

theorem safetyFault_safeN (m : Nat) (tied : Option Head) (head colour : Nat) (toDark restartable : Bool) (rho : Nat)
    (s : State) : (safetyFault m tied head colour toDark restartable rho s).safety.safeN = true :=
  (safetyFault_onlyAdds ..).keepsLatches.safeN (safeReact_safety ..).2.2

theorem safetyFault_hold (m : Nat) (tied : Option Head) (head colour : Nat) (toDark restartable : Bool) (rho : Nat)
    (s : State) : hardwareHold (safetyFault m tied head colour toDark restartable rho s).safety = hardwareHold s.safety :=
  (safetyFault_onlyAdds ..).keepsLatches.hold.trans (safeReact_hold ..)

theorem safetyFault_keepsOff (m : Nat) (tied : Option Head) (head colour : Nat) (toDark restartable : Bool) (rho : Nat)
    (s : State) : KeepsOff s (safetyFault m tied head colour toDark restartable rho s) :=
  (safeReact_keepsOff ..).trans (safetyFault_onlyAdds ..).keepsOff

end Sys2Proof.Machine

/-! # Hardware faults (11) -/

namespace Sys2Proof.Machine

/-! ## Hardware cuts the light, and the device is dark (R334, R337, R338) -/

/-- The device is dark by a mechanism that stands, and the hardware holds every channel cut. -/
structure CutDark (m : Nat) (t : State) : Prop where
  cut : Cut m t
  standing : t.safety.standing.getLsbD m = true
  safeN : t.safety.safeN = true
  hwDivert : t.safety.hwDivert = true

theorem CutDark.of_same {m : Nat} {s t : State} (h : CutDark m s) (hsafety : t.safety = s.safety) (hchans : t.chans = s.chans) :
    CutDark m t := by
  obtain ⟨⟨hdark, hcause, hshut, hoff⟩, hstanding, hpin, hdivert⟩ := h
  exact ⟨⟨by rwa [hsafety], by rwa [hsafety], fun n => by rw [hchans, hshut], fun n => by rw [hchans, hoff]⟩, by rwa [hsafety],
    by rwa [hsafety], by rwa [hsafety]⟩

/-- The fault that a part of the safety hardware finds: the hardware acts before the pair is told. -/
def hardwareFault (m : Nat) (s : State) : State := safetyFault m none 0 0 true true 0 (cutAll s)

theorem cutAll_off (n : Chan) (s : State) : (cutAll s).chans[n].bucksOff = true := by
  rw [cutAll, divert_off, Bool.and_self, Bool.or_true]

theorem hardwareFault_hold (m : Nat) (s : State) :
    hardwareHold (hardwareFault m s).safety = (true, s.safety.energy, s.safety.monitors) :=
  safetyFault_hold ..

theorem hardwareFault_cutDark {m : Nat} (hm : m < 16) (hrequest : m ≠ 14) (s : State) : CutDark m (hardwareFault m s) := by
  obtain ⟨hdark, hcause, hshut⟩ := safetyFault_dark hm none 0 0 true 0 (cutAll s)
  have hoff (n : Chan) : (hardwareFault m s).chans[n].bucksOff = true := (safetyFault_keepsOff ..).off n (cutAll_off n s)
  exact ⟨⟨hdark, hcause, hshut, hoff⟩, safetyFault_stands hm hrequest .., safetyFault_safeN ..,
    congrArg Prod.fst (hardwareFault_hold m s)⟩

/-! ## The safety pair restarts with its own fault (R334, R338, R396) -/

theorem coreDown_down {core : Fin 3} (cause : Nat) {s : State} (h : s.boot.down[core] = true) : coreDown core cause s = s :=
  if_pos h

theorem coreDown_up {core : Fin 3} (cause : Nat) {s : State} (h : s.boot.down[core] = false) : coreDown core cause s =
    onBoot (fun b => { b with down := b.down.set core true, coreCause := b.coreCause.set core cause }) s :=
  if_neg (by rw [h]; decide)

/-- The core is down; no restart of it has ended. -/
theorem coreDown_boot (core : Fin 3) (cause : Nat) (s : State) :
    (coreDown core cause s).boot.down[core] = true ∧ (coreDown core cause s).boot.restarts = s.boot.restarts := by
  cases h : s.boot.down[core] with
  | true => rw [coreDown_down cause h]; exact ⟨h, rfl⟩
  | false =>
    rw [coreDown_up cause h, onBoot_boot]
    exact ⟨Vector.getElem_set_self .., rfl⟩

theorem pairFault_eq (m : Nat) (s : State) : pairFault m s = coreDown 2 2 (hardwareFault m s) := rfl

theorem pairFault_cutDark {m : Nat} (hm : m < 16) (hrequest : m ≠ 14) (s : State) : CutDark m (pairFault m s) := by
  rw [pairFault_eq]
  exact (hardwareFault_cutDark hm hrequest s).of_same ((coreDown_only ..).same .safety rfl) ((coreDown_only ..).same .chans rfl)

theorem pairFault_boot (m : Nat) (s : State) :
    (pairFault m s).boot.down[(2 : Fin 3)] = true ∧ (pairFault m s).boot.restarts = s.boot.restarts := by
  obtain ⟨hdown, hrestarts⟩ := coreDown_boot 2 2 (hardwareFault m s)
  have hboot : (hardwareFault m s).boot = s.boot :=
    ((safetyFault_only ..).same .boot rfl).trans ((cutAll_only s).same .boot rfl)
  rw [pairFault_eq, hrestarts, hboot]
  exact ⟨hdown, rfl⟩

/-! ## The clock and voltage monitors (R337) -/

theorem monitorFault_told {i : Nat} (m : Nat) {s : State} (h : s.safety.monitors.getLsbD i = true) : monitorFault i m s = s :=
  if_pos h

theorem monitorFault_new {i : Nat} (m : Nat) {s : State} (h : s.safety.monitors.getLsbD i = false) : monitorFault i m s =
    hardwareFault m (onSafety (fun y => { y with monitors := y.monitors ||| BitVec.ofNat 2 (2 ^ i) }) s) :=
  if_neg (by rw [h]; decide)

theorem monitorClears_safety (i : Nat) (s : State) : (monitorClears i s).safety = { s.safety with
    monitors := s.safety.monitors &&& ~~~BitVec.ofNat 2 (2 ^ i)
    hwDivert := s.safety.monitors &&& ~~~BitVec.ofNat 2 (2 ^ i) != 0 || s.boot.down[(2 : Fin 3)] } := rfl

/-! ## The energy limiter (R345) -/

theorem energyTrips_tripped (h : Head) (c : Colour) (long : Bool) {s : State} (htripped : s.safety.energy = true) :
    energyTrips h c long s = s := if_pos htripped

/-- The limiter's latch is set, and no proof of the tick counts. -/
def energyLatched (s : State) : State :=
  onHeads (·.map fun x => { x with proofVoid := true }) (onSafety (fun y => { y with energy := true }) s)

theorem energyTrips_first (h : Head) (c : Colour) (long : Bool) {s : State} (hfirst : s.safety.energy = false) :
    ∃ p, energyTrips h c long s = tripFault 10 h.val c.val false (srcEnergy h) evEnergyTrip p (energyLatched s) :=
  ⟨_, if_neg (by rw [hfirst]; decide)⟩

/-- What a trip leaves of the safety state besides the cause: latched, SAFE_N low, and the limiter's latch as it was set. -/
theorem tripFault_latched (m head colour src : Nat) (code : BitVec 16) (payload : Nat) (s : State) :
    let y := (tripFault m head colour false src code payload s).safety
    y.latched = true ∧ y.safeN = true ∧ y.energy = s.safety.energy := by
  have hkeeps := (tripFault_onlyAdds m head colour false src code payload s).keepsLatches
  obtain ⟨-, hlatched, hpin⟩ := safeReact_safety m none true false (divert (fun _ => true) true s)
  have hhold := hkeeps.hold.trans (safeReact_hold ..)
  refine ⟨hkeeps.latched ?_, hkeeps.safeN hpin, congrArg (·.2.1) hhold⟩
  rw [hlatched, Bool.not_false, Bool.true_or, Bool.or_true]

theorem mayLight_dark {s : State} (hdark : s.safety.mode = .dark) (h : Head) : mayLight s h = false := by
  simp [mayLight, hdark]

/-- Settles O32: the hardware's cut and the reaction come first; the events that follow only add to them. -/
theorem hardwareFaultsGoDark : Obligations.HardwareFaultsGoDark := by
  unfold Obligations.HardwareFaultsGoDark
  refine ⟨fun s => ?_, fun h c long s => ⟨fun htripped => exec_of_effect rfl (energyTrips_tripped h c long htripped),
    fun hfirst => ?_⟩⟩
  · intro f dark
    have hdark {m : Nat} {t : State} (h : CutDark m t) : dark m (settle t) := by
      obtain ⟨⟨hmode, hcause, hshut, hoff⟩, hstanding, hpin, hdivert⟩ := h
      simp only [dark, settle_safety, settle_chans]
      exact ⟨hmode, hcause, hstanding, hpin, hdivert, fun n => ⟨hshut n, hoff n⟩⟩
    have hpair (m : Nat) : (settle (pairFault m s)).boot.down[(2 : Fin 3)] = true ∧
        (settle (pairFault m s)).boot.restarts = s.boot.restarts := by
      rw [settle_boot]
      exact pairFault_boot m s
    have hnew {r : Instr} {i m : Nat} (hr : exec r s = .next (settle (monitorFault i m s))) (hm : m < 16) (hrequest : m ≠ 14)
        (h : s.safety.monitors.getLsbD i = false) : Ends r s [.chans, .safety, .cxl, .ev, .out] fun t =>
          dark m t ∧ t.safety.monitors = s.safety.monitors ||| BitVec.ofNat 2 (2 ^ i) := by
      refine ends_of hr (monitorFault_only ..) rfl ?_
      rw [monitorFault_new m h, settle_safety]
      exact ⟨hdark (hardwareFault_cutDark hm hrequest _), congrArg (·.2.2) (hardwareFault_hold ..)⟩
    refine ⟨ends_of rfl (pairFault_only ..) rfl ⟨hdark (pairFault_cutDark (by decide) (by decide) s), hpair 2⟩,
      ends_of rfl (pairFault_only ..) rfl ⟨hdark (pairFault_cutDark (by decide) (by decide) s), hpair 3⟩,
      fun h => exec_of_effect rfl (monitorFault_told 5 h), fun h => exec_of_effect rfl (monitorFault_told 6 h),
      hnew rfl (by decide) (by decide), hnew rfl (by decide) (by decide), fun v => ?_⟩
    have hclears (i : Nat) (m : BitVec 2) (hi : ~~~BitVec.ofNat 2 (2 ^ i) = m)
        (hr : exec (.monitorFaultClear v) s = .next (settle (monitorClears i s))) :
        Ends (.monitorFaultClear v) s [.safety, .cxl, .out] fun t =>
          t.safety = { s.safety with monitors := t.safety.monitors, hwDivert := t.safety.hwDivert } ∧
          t.safety.monitors = s.safety.monitors &&& m ∧
          (t.safety.hwDivert = true ↔ t.safety.monitors ≠ 0 ∨ s.boot.down[(2 : Fin 3)] = true) := by
      refine ends_of hr (only_mono (monitorClears_only ..) rfl) rfl ?_
      rw [settle_safety, monitorClears_safety, hi]
      exact ⟨rfl, rfl, by rw [Bool.or_eq_true, bne_iff_ne]⟩
    cases v with
    | true => exact hclears 1 1 (by decide) rfl
    | false => exact hclears 0 2 (by decide) rfl
  · obtain ⟨p, hp⟩ := energyTrips_first h c long hfirst
    obtain ⟨hdark, hcause, hshut, hoff⟩ :=
      tripFault_cuts 10 h.val c.val false (srcEnergy h) evEnergyTrip p (energyLatched s) (by decide)
    obtain ⟨hlatched, hpin, henergy⟩ := tripFault_latched 10 h.val c.val (srcEnergy h) evEnergyTrip p (energyLatched s)
    refine ends_of rfl (energyTrips_only ..) rfl ?_
    rw [settle_safety, settle_chans, hp]
    refine ⟨henergy, hdark, hlatched, hpin, hcause, fun n => ⟨hshut n, hoff n⟩, fun k => mayLight_dark ?_ k⟩
    rw [settle_safety]
    exact hdark

end Sys2Proof.Machine

/-! # The safety commands (11) -/

namespace Sys2Proof.Machine

/-! ## What fetching leaves of the safety state (R335) -/

/-- On Q2 fetching notes what R335 watches; the safe state itself stands. -/
theorem fetched_safety (op : Op) (d : Desc) (s : State) : ∃ alive anyAlive q2Run q2Timeout, (fetched op d s).safety =
    { s.safety with alive := alive, anyAlive := anyAlive, q2Run := q2Run, q2Timeout := q2Timeout } := by
  unfold fetched
  extract_lets t s1
  split
  · exact ⟨_, _, _, _, rfl⟩
  · exact ⟨_, _, _, _, rfl⟩

/-- TELLTALE_SET that selects tell-tales of the asset alone, as the queue executes it: the answer is that of the state before. -/
theorem runOp_telltaleSet_inRange {d : Desc} {s : State} (h : fld d.payload 0 64 / 2 ^ telltaleCount s = 0) :
    runOp .telltaleSet d (fetched .telltaleSet d s) = .done stOk
      (pack [(0, 48, nextTick s), (48, 1, (s.safety.mode == .dark && s.safety.darkNow).toNat)])
      (telltaleNext d.payload (fetched .telltaleSet d s)) := by
  obtain ⟨alive, anyAlive, q2Run, q2Timeout, hsafety⟩ := fetched_safety .telltaleSet d s
  have hcount : telltaleCount (fetched .telltaleSet d s) = telltaleCount s := by simp only [telltaleCount, hsafety]
  have hnext : nextTick (fetched .telltaleSet d s) = nextTick s := by simp only [nextTick, fetched_clk]
  have hok : telltaleRef d.payload (fetched .telltaleSet d s) = none := ranges_none (by simp [hcount, h])
  simp only [runOp, runTelltaleSet, refuseOr_none hok, hnext, hsafety]

/-! ## Requests and releases (R343) -/

/-- A host's request: the reaction, and with a record free no more than its event. -/
theorem enterSafe_roomy_only {s : State} (hroom : s.ev.store.length < 4096) (m : Nat) (hd : Option Head)
    (toDark restartable : Bool) :
    Only [.cxl, .ev, .out] (enterSafe m hd toDark restartable s) (safeReact m hd toDark restartable s) := by
  have hev : (safeReact m hd toDark restartable s).ev = s.ev := (safeReact_only ..).same .ev rfl
  exact only_ite _ (only_refl _ _) (raise_roomy_only (by rw [hev]; exact hroom) ..)

theorem safeReact_request (toDark : Bool) (s : State) :
    let y := (safeReact 14 none toDark true s).safety
    y.mode = (if toDark = true ∨ s.safety.mode = .dark then .dark else .window) ∧
    y.causes = s.safety.causes ||| 0x4000 ∧ y.safeN = true := by
  refine ⟨?_, by cases toDark <;> rfl, (safeReact_safety ..).2.2⟩
  have hmode : (safeReact 14 none toDark true s).safety.mode =
      if toDark || s.safety.mode == .dark then .dark else .window := by
    cases toDark <;> rfl
  simp only [hmode, Bool.or_eq_true, beq_iff_eq]

/-- A request for the window (0) or for the dark form (1). -/
theorem runOp_safeStateRequest_enter {d : Desc} (s : State) (h : fld d.payload 0 2 ≤ 1) :
    runOp .safeStateRequest d s = .done stOk 0 (enterSafe 14 none (decide (fld d.payload 0 2 = 1)) true s) := by
  have hform : fld d.payload 0 2 = 0 ∨ fld d.payload 0 2 = 1 := by omega
  rcases hform with h | h <;> simp only [runOp, runSafeStateRequest, h] <;> rfl

/-- A release that nothing holds. -/
theorem runOp_safeStateRequest_release {d : Desc} {s : State} (h : fld d.payload 0 2 = 2) (hsafe : inSafe s = true)
    (hlatched : s.safety.latched = false) (hstanding : s.safety.standing = 0) (hfree : s.safety.noRelease = false) :
    runOp .safeStateRequest d s = .done stOk 0 (onSafety (fun y => { y with exitDue := true }) s) := by
  simp only [runOp, runSafeStateRequest, h, hsafe, hlatched, hstanding, hfree, Bool.not_true, Bool.false_eq_true, if_false,
    bne_self_eq_false, Bool.or_self]

/-- Settles O6: each command passes its checks and answers at once over the state that it names. -/
theorem safetyCommandsTakeEffect : Obligations.SafetyCommandsTakeEffect := by
  unfold Obligations.SafetyCommandsTakeEffect
  refine fun d s hs => ⟨fun ha hok => ?_, fun ha hsome => ?_, fun ha hform hroom => ?_,
    fun ha hform hsafe hlatched hstanding hfree => ?_⟩
  · exact does_of_apart hs ha rfl (safetyWindowNext_only ..) rfl (refuseOr_none hok _ _)
  · exact does_of_apart hs ha rfl (telltaleNext_only ..) rfl (runOp_telltaleSet_inRange hsome)
  · obtain ⟨t, ht, hagree, htold⟩ := does_of_apart (i := .safeStateRequest d) hs ha rfl (enterSafe_only ..) rfl
      (runOp_safeStateRequest_enter (fetched .safeStateRequest d s) hform)
    have hev : (fetched .safeStateRequest d s).ev = s.ev := (fetched_only ..).same .ev rfl
    have hreact : t.safety = (safeReact 14 none (decide (fld d.payload 0 2 = 1)) true (fetched .safeStateRequest d s)).safety :=
      ((only_of_agrees hagree).same .safety rfl).trans ((enterSafe_roomy_only (hev ▸ hroom) ..).same .safety rfl)
    have hcfg : t.cfg = (fetched .safeStateRequest d s).cfg := ((only_of_agrees hagree).same .cfg rfl).trans
      ((enterSafe_only ..).same .cfg rfl)
    obtain ⟨hmode, hcauses, hpin⟩ := safeReact_request (decide (fld d.payload 0 2 = 1)) (fetched .safeStateRequest d s)
    obtain ⟨alive, anyAlive, q2Run, q2Timeout, hsafety⟩ := fetched_safety .safeStateRequest d s
    refine ⟨t, ht, htold, ?_, ?_, ?_, by rw [hcfg, fetched_cfg]⟩
    · simp only [hreact, hmode, hsafety, decide_eq_true_eq]
    · rw [hreact, hcauses, hsafety]
    · rw [hreact, hpin]
  · obtain ⟨alive, anyAlive, q2Run, q2Timeout, hsafety⟩ := fetched_safety .safeStateRequest d s
    refine does_of_apart hs ha rfl (only_onSafety ..) rfl (runOp_safeStateRequest_release hform ?_ ?_ ?_ ?_)
    · rw [inSafe, hsafety]; exact hsafe
    · rw [hsafety, hlatched]
    · rw [hsafety, hstanding]
    · rw [hsafety, hfree]

end Sys2Proof.Machine

/-! # Memory errors, supervision and recovery (11, 13) -/

namespace Sys2Proof.Machine

/-! ## One element's turn in a list -/

/-- An operation that keeps a value for every element of the list. -/
theorem forEach_misses {α β : Type} {m : State → β} {f : α → State → State} {l : List α} (hf : ∀ x ∈ l, ∀ s, m (f x s) = m s)
    (s : State) : m (forEach l f s) = m s := by
  induction l generalizing s with
  | nil => rfl
  | cons x r ih =>
    exact (ih (fun y hy => hf y (List.mem_cons_of_mem x hy)) (f x s)).trans (hf x List.mem_cons_self s)

/-- What only one element touches is as its own turn leaves it, and its turn finds it untouched. -/
theorem forEach_once {α β : Type} {m : State → β} {f : α → State → State} {l : List α} {x : α} (hx : x ∈ l) (hl : l.Nodup)
    (hf : ∀ y, y ≠ x → ∀ s, m (f y s) = m s) (s : State) : ∃ u, m u = m s ∧ m (forEach l f s) = m (f x u) := by
  obtain ⟨a, b, rfl⟩ := List.append_of_mem hx
  have hmiss {r : List α} (hr : x ∉ r) (y : α) (hy : y ∈ r) : ∀ s, m (f y s) = m s := hf y fun hyx => hr (hyx ▸ hy)
  obtain ⟨-, hxb, hab⟩ := List.nodup_append.mp hl
  have hxa : x ∉ a := fun h => hab x h x List.mem_cons_self rfl
  have hxb : x ∉ b := (List.nodup_cons.mp hxb).1
  refine ⟨forEach a f s, forEach_misses (hmiss hxa) s, ?_⟩
  have hturns : forEach (a ++ x :: b) f s = forEach b f (f x (forEach a f s)) := List.foldl_append
  rw [hturns, forEach_misses (hmiss hxb)]

/-! ## Corrections (R336) -/

/-- The corrections of the region within the last second, with the one that has just come. -/
def correctionNoted (r : Fin 11) (s : State) : State := onSafety (fun y => { y with
  eccTimes := y.eccTimes.set r (s.clk.now :: y.eccTimes[r].filter fun t => decide (s.clk.now < t + msT 1000)) }) s

theorem eccCorrected_told {r : Fin 11} {s : State} (h : eccTold r s = true) : eccCorrected r s = correctionNoted r s := if_pos h

theorem eccCorrected_tells {r : Fin 11} {s : State} (h : eccTold r s = false) : ∃ p, eccCorrected r s =
    raise srcMemory evEccCorrected p (onSafety (fun y => { y with eccTick := y.eccTick.set r (some s.clk.now) })
      (correctionNoted r s)) :=
  ⟨_, if_neg (by rw [h]; decide)⟩

theorem mem_allHeads (h : Head) : h ∈ allHeads := by
  revert h
  decide

/-! ## An error in a plane-link buffer (R209, R336) -/

/-- A head's configuration, links and scanner. -/
def groupState (g : Head) (s : State) : Cfg × LinkDyn × RasterDyn := (s.cfg, s.links[g], s.rasters[g])

theorem groupState_of_only {f : List Part} {s t : State} (g : Head) (h : Only f t s)
    (hf : [Part.cfg, .links, .rasters].all (fun x => !f.contains x) = true) : groupState g t = groupState g s := by
  simp only [List.all_cons, List.all_nil, Bool.and_true, Bool.and_eq_true, Bool.not_eq_true'] at hf
  obtain ⟨hcfg, hlinks, hrasters⟩ := hf
  have hc : t.cfg = s.cfg := h.same .cfg hcfg
  have hl : t.links = s.links := h.same .links hlinks
  have hr : t.rasters = s.rasters := h.same .rasters hrasters
  simp only [groupState, hc, hl, hr]

theorem groupState_of_atGroup {g k : Head} {s t : State} (h : AtGroup k s t) (hcfg : t.cfg = s.cfg) (hg : g ≠ k) :
    groupState g t = groupState g s := by
  simp only [groupState, hcfg, h.links g hg, h.rasters g hg]

theorem flightsOf_of_groupState {g : Head} {s t : State} (h : groupState g t = groupState g s) :
    flightsOf t g = flightsOf s g := by
  simp only [groupState, Prod.mk.injEq] at h
  obtain ⟨hcfg, hlink, hraster⟩ := h
  simp only [flightsOf, hcfg, hlink, hraster]

section
variable {g : Head} {p b : Nat} {s : State}

/-- The flight of the block that an error hits. -/
def hitFlight (g : Head) (p b : Nat) (s : State) : Option Flight := (flightsOf s g).find? (isBlock p b)

theorem bufferBlock_miss (h : hitFlight g p b s = none) : bufferBlock g p b s = s := by
  unfold hitFlight isBlock at h
  simp only [bufferBlock, h]

/-- The block is fetched again and counts as refused. -/
theorem bufferBlock_hit {f : Flight} (h : hitFlight g p b s = some f) : ∃ a u, Only [.out] u s ∧
    bufferBlock g p b s = refused g f (onFlights g a u) := by
  unfold hitFlight isBlock at h
  simp only [bufferBlock, h]
  exact ⟨_, _, only_ite _ (only_refl _ s) (askIo_only ..), rfl⟩

theorem bufferBlock_groupState_ne {k : Head} (hk : k ≠ g) : groupState k (bufferBlock g p b s) = groupState k s := by
  cases h : hitFlight g p b s with
  | none => rw [bufferBlock_miss h]
  | some f =>
    obtain ⟨a, u, hu, heq⟩ := bufferBlock_hit h
    have hgroup : AtGroup g s (bufferBlock g p b s) := by
      rw [heq]
      exact (atGroup_of_only g hu rfl).trans ((onFlights_atGroup ..).trans (refused_atGroup ..))
    exact groupState_of_atGroup hgroup ((bufferBlock_only ..).same .cfg rfl) hk

/-- With a re-send left the block is due again: none of its flights waits for an answer. -/
theorem bufferBlock_due {f : Flight} (h : hitFlight g p b s = some f) (hf : f.resends < 3) :
    ∀ x ∈ flightsOf (bufferBlock g p b s) g, x.plane = p → x.block = b → x.waiting = false := by
  obtain ⟨a, u, -, heq⟩ := bufferBlock_hit h
  have hfound : isBlock p b f = true := List.find?_some h
  obtain ⟨hplane, hblock⟩ : f.plane = p ∧ f.block = b := by simpa [isBlock] using hfound
  rw [heq, refused_due hf, onFlights_flights]
  intro x hx hxp hxb
  obtain ⟨y, -, rfl⟩ := List.mem_map.mp hx
  by_cases hsame : y.same f = true
  · rw [if_pos hsame]
  · rw [if_neg hsame] at hxp hxb
    exact absurd (by simp [Flight.same, hxp, hxb, hplane, hblock]) hsame

end

/-- The error in the buffers of the heads that it names. -/
def bufferNamed (m : BitVec 4) (p b : Nat) (g : Head) (s : State) : State :=
  if m.getLsbD g.val then bufferBlock g p b s else s

theorem bufferNamed_groupState {m : BitVec 4} {g k : Head} (p b : Nat) (s : State) (h : k ≠ g ∨ m.getLsbD g.val = false) :
    groupState k (bufferNamed m p b g s) = groupState k s := by
  unfold bufferNamed
  split
  · next hm => exact bufferBlock_groupState_ne (h.resolve_right (by rw [hm]; decide))
  · rfl

theorem bufferNamed_only (m : BitVec 4) (p b : Nat) (g : Head) (s : State) :
    Only [.heads, .links, .rasters, .chans, .safety, .cxl, .ev, .out] (bufferNamed m p b g s) s :=
  only_ite _ (bufferBlock_only ..) (only_refl _ s)

section
variable {m : BitVec 4} {g : Head} (p b : Nat) (s : State)

theorem buffersHit_unnamed (hg : m.getLsbD g.val = false) :
    groupState g (forEach allHeads (bufferNamed m p b) s) = groupState g s := by
  refine forEach_keeps (fun k u => bufferNamed_groupState p b u ?_) allHeads s
  by_cases hk : g = k
  · exact .inr (hk ▸ hg)
  · exact .inl hk

theorem buffersHit_named (hg : m.getLsbD g.val = true) {f : Flight} (h : hitFlight g p b s = some f) (hf : f.resends < 3) :
    ∀ x ∈ flightsOf (forEach allHeads (bufferNamed m p b) s) g, x.plane = p → x.block = b → x.waiting = false := by
  obtain ⟨u, hu, hturn⟩ := forEach_once (m := groupState g) (f := bufferNamed m p b) (mem_allHeads g) (by decide)
    (fun k hk u => bufferNamed_groupState p b u (.inl hk.symm)) s
  have hnamed : bufferNamed m p b g u = bufferBlock g p b u := if_pos hg
  rw [flightsOf_of_groupState hturn, hnamed]
  refine bufferBlock_due (f := f) ?_ hf
  rw [hitFlight, flightsOf_of_groupState hu]
  exact h

end

/-! ## Cut builds (R336) -/

theorem groupOf_srcHead (h : Head) : groupOf (srcHead h) = 0 := by
  revert h
  decide

/-- BUILD_CUT is told at most. -/
theorem cutBuild_plain_only (h : Head) (s : State) : Only [.heads, .cxl, .ev, .planes, .out, .free] (cutBuild h s) s := by
  unfold cutBuild
  split
  · extract_lets e n s1
    have hdrawn : Only [.heads, .cxl, .ev, .planes, .out, .free] e.2 s := only_mono (entriesDone_only ..) rfl
    have h1 : Only [.heads, .cxl, .ev, .planes, .out, .free] s1 s :=
      only_ite _ hdrawn (only_step (pressRows_only ..) rfl hdrawn)
    exact only_step (raise_plain_only (by rw [groupOf_srcHead]; decide) ..) rfl (only_step (only_onHead ..) rfl h1)
  · exact only_refl _ s

/-- Of the builds only those that an error names are cut. -/
def buildsCut (m : BitVec 4) (s : State) : State := noteBuilt (forEach allHeads (cutNamed m) s)

theorem buildsCut_only (m : BitVec 4) (s : State) : Only [.clk, .heads, .planes, .cxl, .ev, .out, .free] (buildsCut m s) s :=
  only_step (noteBuilt_only ..) rfl (only_mono (only_forEach (f := [.heads, .cxl, .ev, .planes, .out, .free]) allHeads (cutNamed m)
    (fun h u => only_ite _ (cutBuild_plain_only h u) (only_refl _ u)) s) rfl)

theorem buildsCut_heads (m : BitVec 4) (k : Head) (s : State) :
    (buildsCut m s).heads[k] = if m.getLsbD k.val = true then cutHead s.heads[k] else s.heads[k] := by
  have hbuilt : (buildsCut m s).heads = (forEach allHeads (cutNamed m) s).heads := (noteBuilt_only _).same .heads rfl
  rw [hbuilt, cutNamed_heads]
  simp only [mem_allHeads, true_and]

/-! ## An uncorrectable error, by region (R336, R341) -/

section
variable (heads : BitVec 4) (core : Bool) (p b : Nat) (s : State)

theorem eccFatal_safePath {r : Fin 11} (h : safeRegion r = true) :
    eccFatal r heads core p b s = safetyFault 1 none 0 0 true true 0 s := if_pos h

theorem eccFatal_buffers : eccFatal 7 heads core p b s = forEach allHeads (bufferNamed heads p b) s := rfl

theorem eccFatal_picture {r : Fin 11} (hlow : 3 ≤ r.val) (hhigh : r.val ≤ 6) :
    eccFatal r heads core p b s = buildsCut heads s := by
  have hr : r = 3 ∨ r = 4 ∨ r = 5 ∨ r = 6 := by omega
  rcases hr with rfl | rfl | rfl | rfl <;> rfl

end

/-! ## Q2 supervision and the safe path read again (R335, R340, R343) -/

theorem q2Expires_idle {s : State} (h : s.safety.q2Run = false ∨ s.safety.q2Timeout = true) : q2Expires s = s := by
  rcases h with h | h <;> simp [q2Expires, h]

theorem q2Expires_runs {s : State} (hruns : s.safety.q2Run = true) (hfirst : s.safety.q2Timeout = false) :
    ∃ p, q2Expires s = raise srcQ2 evQ2Timeout p (onSafety (fun y => { y with q2Timeout := true, ttDue := true }) s) :=
  ⟨_, if_pos (by rw [hruns, hfirst]; rfl)⟩

section
variable {a : RawAsset} {s : State}

theorem reloadDone_idle (passed : Bool) (h : reloadable s = false) : reloadDone passed a s = s := by
  simp [reloadDone, h]

theorem reloadDone_failed (h : reloadable s = true) : reloadDone false a s = safetyFault 12 none 0 0 true false 0 s := by
  simp [reloadDone, h]

theorem reloadDone_rejected (h : reloadable s = true) (ha : assetOk a = false) :
    reloadDone true a s = safetyFault 13 none 0 0 true false 0 s := by
  simp [reloadDone, h, ha]

theorem reloadDone_inForce (h : reloadable s = true) (ha : assetOk a = true) :
    reloadDone true a s = stageLayouts (onSafety (fun y => { y with
      asset := some (assetOf a), standing := 0, toWindow := y.mode == .dark && !y.darkLatched }) s) := by
  simp [reloadDone, h, ha]

end

/-- The two layouts of an asset for what is lit in the two blink phases (R324). -/
def layoutsLit (asset : Option Asset) (first second : BitVec 64) : Vector Layout 2 :=
  match asset with
  | some a => #v[layoutOf a first, layoutOf a second]
  | none => Vector.replicate 2 Layout.none

theorem layoutsOf_eq (s : State) : layoutsOf s = layoutsLit s.safety.asset (phaseLit s true) (phaseLit s false) := by
  unfold layoutsOf layoutsLit
  cases s.safety.asset <;> rfl

/-- The layouts depend on the asset and on the tell-tales' states. -/
theorem layoutsOf_congr {s t : State} (hasset : t.safety.asset = s.safety.asset) (hstate : ttState t = ttState s) :
    layoutsOf t = layoutsOf s := by
  have htelltale : telltale? t = telltale? s := by
    funext i
    simp only [telltale?, hasset]
  have hlit : phaseLit t = phaseLit s := by
    funext first
    simp only [phaseLit, htelltale, hstate]
  rw [layoutsOf_eq, layoutsOf_eq, hasset, hlit]

theorem layoutsOf_settle (s : State) : layoutsOf (settle s) = layoutsOf s := by
  refine layoutsOf_congr (by rw [settle_safety]) ?_
  funext i t
  simp only [ttState, settle_safety, settle_cfg]

theorem layoutsOf_stageLayouts (s : State) : layoutsOf (stageLayouts s) = layoutsOf s := layoutsOf_congr rfl rfl

/-! ## A control core restarts (R394, R396) -/

/-- The journal of a queue whose core has restarted: what is not delivered is to be written again, with REPLAY. -/
def replayed (x : QueueDyn) : QueueDyn := { x with
  cqNext := x.cqTail, wrap := if x.cqNext.toNat < x.cqTail.toNat then !x.wrap else x.wrap
  journal := x.journal.map fun c => if c.delivered then c else { c with issued := false, replay := true } }

theorem redeliver_idle {q : Fin 4} {s : State} (hen : s.queues[q].en = false) : redeliver q s = s :=
  if_neg (by rw [hen]; decide)

theorem redeliver_runs {q : Fin 4} {s : State} (hen : s.queues[q].en = true) :
    ∃ u, u.queues = s.queues ∧ redeliver q s = pumpCq q 16 (onQueue q replayed u) :=
  ⟨_, onCxl_queues .., if_pos hen⟩

theorem redeliver_queues_ne {q k : Fin 4} (hk : k ≠ q) (s : State) : (redeliver q s).queues[k] = s.queues[k] := by
  cases hen : s.queues[q].en with
  | false => rw [redeliver_idle hen]
  | true =>
    obtain ⟨u, hu, heq⟩ := redeliver_runs hen
    obtain ⟨-, hothers, -⟩ := pumpCq_spec q 16 (onQueue q replayed u)
    rw [heq, hothers k hk, onQueue_queues, upd_get_ne _ _ hk, hu]

theorem sameRecord_keeps {a b : Completion} (h : sameRecord a b) : a.delivered = b.delivered ∧ a.replay = b.replay := by
  rcases h with rfl | rfl <;> exact ⟨rfl, rfl⟩

/-- What a queue that runs has not delivered is written again with REPLAY. -/
theorem redeliver_replays {q : Fin 4} {s : State} (hen : s.queues[q].en = true) :
    ∀ x ∈ (redeliver q s).queues[q].journal, x.delivered = false → x.replay = true := by
  obtain ⟨u, -, heq⟩ := redeliver_runs hen
  obtain ⟨-, -, -, -, -, f, hf, hjournal⟩ := pumpCq_spec q 16 (onQueue q replayed u)
  rw [heq, hjournal, onQueue_queues, upd_get_self]
  intro x hx hundelivered
  obtain ⟨y, hy, rfl⟩ := List.mem_map.mp hx
  obtain ⟨z, -, rfl⟩ := List.mem_map.mp hy
  obtain ⟨hdelivered, hreplay⟩ := sameRecord_keeps (hf (if z.delivered then z else { z with issued := false, replay := true }))
  by_cases hz : z.delivered = true
  · rw [hdelivered, if_pos hz, hz] at hundelivered
    cases hundelivered
  · rw [hreplay, if_neg hz]

theorem redeliver_pointers (q : Fin 4) (s : State) : pointers (redeliver q s) = pointers s := by
  cases hen : s.queues[q].en with
  | false => rw [redeliver_idle hen]
  | true =>
    obtain ⟨u, hu, heq⟩ := redeliver_runs hen
    rw [heq, pumpCq_pointers, onQueue_pointers rfl rfl, pointers_of_queues hu]

/-- The queues that a core serves. -/
def coreQueues (core : Fin 3) : List (Fin 4) := (allFin 4).filter fun q => coreOf q == core

theorem mem_coreQueues {core : Fin 3} {q : Fin 4} : q ∈ coreQueues core ↔ coreOf q = core := by
  simp [coreQueues, allFin]

theorem coreQueues_nodup (core : Fin 3) : (coreQueues core).Nodup := (List.nodup_finRange 4).filter _

/-- The core runs; a restart of the safety pair has lost the ALIVE counter and what held the channels but the monitors. -/
def coreStarted (core : Fin 3) (s : State) : State :=
  let s1 := onBoot (fun b => { b with down := b.down.set core false, restarts := b.restarts + 1 }) s
  if core = 2 then onSafety (fun y => { y with anyAlive := true, hwDivert := y.monitors != 0 }) s1 else s1

theorem coreStarted_only (core : Fin 3) (s : State) : Only [.safety, .boot] (coreStarted core s) s :=
  only_ite _ (only_step (only_onSafety ..) rfl (only_mono (only_onBoot ..) rfl)) (only_mono (only_onBoot ..) rfl)

theorem coreStarted_boot (core : Fin 3) (s : State) : (coreStarted core s).boot =
    { s.boot with down := s.boot.down.set core false, restarts := s.boot.restarts + 1 } := by
  unfold coreStarted
  split <;> rfl

theorem coreStarted_safety (core : Fin 3) (s : State) : (coreStarted core s).safety =
    if core = 2 then { s.safety with anyAlive := true, hwDivert := s.safety.monitors != 0 } else s.safety := by
  unfold coreStarted
  split <;> rfl

/-- The queues of the core deliver again. -/
def coreDelivers (core : Fin 3) (s : State) : State := forEach (coreQueues core) redeliver (coreStarted core s)

theorem coreDelivers_only (core : Fin 3) (s : State) : Only [.safety, .cxl, .queues, .boot, .out] (coreDelivers core s) s :=
  only_forEach_step (fun q u => only_mono (redeliver_only q u) rfl) (only_mono (coreStarted_only ..) rfl)

theorem coreDelivers_boot (core : Fin 3) (s : State) : (coreDelivers core s).boot =
    { s.boot with down := s.boot.down.set core false, restarts := s.boot.restarts + 1 } := by
  rw [coreDelivers, forEach_keeps (m := State.boot) (fun q u => (redeliver_only q u).same .boot rfl), coreStarted_boot]

theorem coreDelivers_safety (core : Fin 3) (s : State) : (coreDelivers core s).safety =
    if core = 2 then { s.safety with anyAlive := true, hwDivert := s.safety.monitors != 0 } else s.safety := by
  rw [coreDelivers, forEach_keeps (m := State.safety) (fun q u => (redeliver_only q u).same .safety rfl), coreStarted_safety]

section
variable {core : Fin 3} {s : State}

theorem coreUp_up (h : s.boot.down[core] = false) : coreUp core s = s := by
  simp [coreUp, h]

/-- While no command waits, the restart ends with the re-delivery and CORE_RESTART. -/
theorem coreUp_quiet (h : s.boot.down[core] = true) (hquiet : Quiet s) :
    ∃ p, coreUp core s = raise srcCores evCoreRestart p (coreDelivers core s) := by
  have hpointers : pointers (coreDelivers core s) = pointers s :=
    (forEach_keeps redeliver_pointers ..).trans (pointers_of_queues ((coreStarted_only ..).same .queues rfl))
  have hcw : (coreDelivers core s).cw = s.cw := (coreDelivers_only ..).same .cw rfl
  have hdelivers : Quiet (coreDelivers core s) := quiet_of_pointers hquiet hpointers (by rw [hcw]) (by rw [hcw]; exact id)
  have htold (p : Nat) : Quiet (raise srcCores evCoreRestart p (coreDelivers core s)) :=
    quiet_of_only hdelivers (raise_only ..) rfl
  have hup : ∃ p, coreUp core s = drainAll (raise srcCores evCoreRestart p (coreDelivers core s)) :=
    ⟨_, if_neg (by rw [h]; decide)⟩
  obtain ⟨p, hp⟩ := hup
  exact ⟨p, hp.trans (drainAll_quiet (htold p))⟩

theorem coreDelivers_queues_ne {q : Fin 4} (hq : coreOf q ≠ core) : (coreDelivers core s).queues[q] = s.queues[q] := by
  have hstarted : (coreStarted core s).queues = s.queues := (coreStarted_only ..).same .queues rfl
  have hmiss (k : Fin 4) (hk : k ∈ coreQueues core) (u : State) : (redeliver k u).queues[q] = u.queues[q] :=
    redeliver_queues_ne (fun hqk => hq (by rw [hqk, mem_coreQueues.mp hk])) u
  rw [coreDelivers, forEach_misses (m := fun u => u.queues[q]) hmiss, hstarted]

theorem coreDelivers_replays {q : Fin 4} (hq : coreOf q = core) (hen : s.queues[q].en = true) :
    ∀ x ∈ (coreDelivers core s).queues[q].journal, x.delivered = false → x.replay = true := by
  have hstarted : (coreStarted core s).queues = s.queues := (coreStarted_only ..).same .queues rfl
  obtain ⟨u, hu, hturn⟩ := forEach_once (m := fun u => u.queues[q]) (f := redeliver) (mem_coreQueues.mpr hq)
    (coreQueues_nodup core) (fun k hk u => redeliver_queues_ne hk.symm u) (coreStarted core s)
  rw [coreDelivers, hturn]
  exact redeliver_replays (by rw [hu, hstarted, hen])

end

/-- Settles O33: each row by the operation of its region or of its state; the events tell at most. -/
theorem errorsAndSupervisionAct : Obligations.ErrorsAndSupervisionAct := by
  unfold Obligations.ErrorsAndSupervisionAct
  refine ⟨fun heads core p b s => ⟨fun r htold => exec_of_effect rfl (eccCorrected_told htold), fun r hnew hroom => ?_,
    fun r hr => ?_, ⟨fun hdown => ?_, fun hup => ?_⟩, rfl, ?_, fun r hlow hhigh => ?_⟩, fun s => ?_⟩
  · obtain ⟨word, heq⟩ := eccCorrected_tells hnew
    have htold := raise_roomy_only (s := onSafety (fun y => { y with eccTick := y.eccTick.set r (some s.clk.now) })
      (correctionNoted r s)) hroom srcMemory evEccCorrected word
    have hsafety := htold.same .safety rfl
    refine ends_of (exec_of_effect rfl heq)
      (only_step htold rfl (only_step (only_onSafety ..) rfl (only_mono (only_onSafety ..) rfl))) rfl ?_
    rw [settle_safety, hsafety]
    exact ⟨Vector.getElem_set_self .., rfl, Vector.getElem_set_self ..⟩
  · have hsafe : safeRegion r = true := by rcases hr with rfl | rfl | rfl | rfl <;> rfl
    obtain ⟨hdark, hcause, hshut⟩ := safetyFault_dark (m := 1) (by decide) none 0 0 true 0 s
    refine ends_of (exec_of_effect rfl (eccFatal_safePath heads core p b s hsafe)) (safetyFault_only ..) rfl ?_
    rw [settle_safety, settle_chans]
    exact ⟨hdark, hcause, safetyFault_stands (by decide) (by decide) .., hshut⟩
  · exact exec_of_effect rfl (coreDown_down 0 hdown)
  · exact exec_of_effect rfl (coreDown_up 0 hup)
  · refine ends_of (exec_of_effect rfl (eccFatal_buffers heads core p b s))
      (only_forEach allHeads _ (bufferNamed_only heads p b) s) rfl ⟨fun g hg => ?_, fun g f hg hfound hf => ?_⟩
    · have hstands := buffersHit_unnamed p b s hg
      simp only [groupState, Prod.mk.injEq] at hstands
      rw [settle_links, settle_rasters]
      exact hstands.2
    · rw [settle_flightsOf]
      exact buffersHit_named p b s hg hfound hf
  · refine ends_of (exec_of_effect rfl (eccFatal_picture heads core p b s hlow hhigh)) (buildsCut_only heads s) rfl fun h => ?_
    simp only [pressing, settle_heads, buildsCut_heads]
    cases hh : heads.getLsbD h.val with
    | true => exact ⟨by rw [if_pos rfl, cutHead_stops]; simp, fun _ hp => by rw [if_pos rfl, cutHead_running hp]⟩
    | false => exact ⟨by simp, fun hn => by cases hn⟩
  · intro rejected
    have hrejects {m : Nat} {a : RawAsset} {passed : Bool} (hm : m < 16)
        (heq : reloadDone passed a s = safetyFault m none 0 0 true false 0 s) :
        Ends (.safePathReloadDone passed a) s [.chans, .safety, .cxl, .ev, .out] (rejected m) := by
      obtain ⟨hdark, hcause, -⟩ := safetyFault_dark hm none 0 0 false 0 s
      refine ends_of (exec_of_effect rfl heq) (safetyFault_only ..) rfl ?_
      simp only [rejected, settle_safety]
      exact ⟨hdark, safetyFault_latched .., hcause⟩
    refine ⟨fun hidle => exec_of_effect rfl (q2Expires_idle hidle), fun hruns hfirst hroom => ?_,
      fun passed a hidle => exec_of_effect rfl (reloadDone_idle passed hidle),
      fun a hready => hrejects (by decide) (reloadDone_failed hready),
      fun a hready ha => hrejects (by decide) (reloadDone_rejected hready ha), fun a hready ha => ?_,
      fun c hdown => exec_of_effect rfl (coreDown_down 1 hdown), fun c hup => exec_of_effect rfl (coreDown_up 1 hup),
      fun c hup => exec_of_effect rfl (coreUp_up hup), fun c hdown hquiet => ?_⟩
    · obtain ⟨word, heq⟩ := q2Expires_runs hruns hfirst
      have htold := raise_roomy_only (s := onSafety (fun y => { y with q2Timeout := true, ttDue := true }) s) hroom srcQ2
        evQ2Timeout word
      refine ends_of (exec_of_effect rfl heq) (only_step htold rfl (only_mono (only_onSafety ..) rfl)) rfl ?_
      rw [settle_safety]
      exact htold.same .safety rfl
    · refine ends_of (exec_of_effect rfl (reloadDone_inForce hready ha))
        (only_step (stageLayouts_only ..) rfl (only_mono (only_onSafety ..) rfl)) rfl ?_
      rw [settle_safety, layoutsOf_settle, layoutsOf_stageLayouts]
      exact ⟨rfl, rfl⟩
    · obtain ⟨word, heq⟩ := coreUp_quiet hdown hquiet
      have htold : Only [.cxl, .ev, .out] (raise srcCores evCoreRestart word (coreDelivers c s)) (coreDelivers c s) :=
        raise_plain_only (by decide) ..
      have hboot := htold.same .boot rfl
      have hsafety := htold.same .safety rfl
      have hqueues := htold.same .queues rfl
      refine ends_of (exec_of_effect rfl heq) (only_step htold rfl (only_mono (coreDelivers_only c s) rfl)) rfl ?_
      rw [settle_boot, settle_queues, settle_safety, hboot, hqueues, hsafety, coreDelivers_boot, coreDelivers_safety]
      exact ⟨rfl, rfl, fun q => ⟨coreDelivers_queues_ne, coreDelivers_replays⟩, rfl⟩

end Sys2Proof.Machine

/-! # Every command completes (R361, R363) -/

namespace Sys2Proof.Machine

/-- Every row is an effect, closed: none is refused (log entry 108). -/
theorem exec_settles (c : Instr) (s : State) : ∃ u, exec c s = .next (settle u) := by
  cases c <;> exact ⟨_, rfl⟩

/-- SAFE_SUMMARY reads nothing of the CXL port and of what leaves the block. -/
theorem summaryWord_congr {s t : State} (h : Only [.cxl, .out] t s) : summaryWord t = summaryWord s := by
  have hsafety : t.safety = s.safety := h.same .safety rfl
  have htherm : t.therm = s.therm := h.same .therm rfl
  have hboot : t.boot = s.boot := h.same .boot rfl
  have hcfg : t.cfg = s.cfg := h.same .cfg rfl
  have hshown : winShown t = winShown s := by
    funext k
    simp only [winShown, hboot, hcfg]
  simp only [summaryWord, tripped, hsafety, htherm, hshown]

theorem signal_summary (v : Fin 64) (s : State) : (signal v s).cxl.summary = s.cxl.summary := by
  unfold signal
  split <;> rfl

/-- Closing a command leaves the copy of SAFE_SUMMARY up to date. -/
theorem settle_summary (s : State) : (settle s).cxl.summary = summaryWord (settle s) := by
  rw [summaryWord_congr (settle_only s)]
  unfold settle
  extract_lets w
  split
  · next h => exact (beq_iff_eq.mp h).symm
  · rw [signal_summary]
    rfl

/-- Settles O54: a row is its effect closed, and closing brings the copy of SAFE_SUMMARY up to date. -/
theorem everyCommandCompletes : Obligations.EveryCommandCompletes := by
  unfold Obligations.EveryCommandCompletes
  intro c s
  obtain ⟨u, hu⟩ := exec_settles c s
  exact ⟨settle u, hu, keepsOthers c s (settle u) .pending hu rfl, settle_summary u⟩

end Sys2Proof.Machine

/-! # The records of the rings (R335, R377, R388) -/

namespace Sys2Proof.Machine

/-- Fields that end by a bit make a word below it. -/
theorem fieldSum_lt {m n : Nat} {fs : List (Nat × Nat × Nat)} (h : fieldsFrom m fs = true)
    (hn : ∀ f ∈ fs, f.1 + f.2.1 ≤ n) : fieldSum fs < 2 ^ n := by
  induction fs generalizing m with
  | nil => exact Nat.two_pow_pos n
  | cons f r ih =>
    simp only [fieldsFrom, Bool.and_eq_true] at h
    obtain ⟨k, hk⟩ := dvd_fieldSum h.2
    have hrest : fieldSum r < 2 ^ n := ih h.2 fun g hg => hn g (List.mem_cons_of_mem _ hg)
    obtain ⟨q, hq⟩ := Nat.pow_dvd_pow 2 (hn f List.mem_cons_self)
    have hlow : f.2.2 % 2 ^ f.2.1 * 2 ^ f.1 < 2 ^ (f.1 + f.2.1) := by
      rw [Nat.pow_add, Nat.mul_comm]
      exact Nat.mul_lt_mul_of_pos_left (Nat.mod_lt _ (Nat.two_pow_pos _)) (Nat.two_pow_pos _)
    rw [hk, hq] at hrest
    have hkq : k + 1 ≤ q := Nat.lt_of_mul_lt_mul_left hrest
    calc fieldSum (f :: r) < 2 ^ (f.1 + f.2.1) + 2 ^ (f.1 + f.2.1) * k := by
          rw [fieldSum, hk]; exact Nat.add_lt_add_right hlow _
      _ = 2 ^ (f.1 + f.2.1) * (k + 1) := by rw [Nat.mul_succ, Nat.add_comm]
      _ ≤ 2 ^ n := by rw [hq]; exact Nat.mul_le_mul_left _ hkq

theorem crc16Step_lt {k c : Nat} (hk : 0 < k) : crc16Step k c < 2 ^ 16 := by
  induction k generalizing c with
  | zero => cases hk
  | succ k ih =>
    rw [crc16Step]
    cases k with
    | zero =>
      rw [crc16Step]
      split <;> exact Nat.mod_lt _ (by decide)
    | succ k => exact ih (Nat.succ_pos k)

theorem crc16_lt (bs : List Byte) : crc16 bs < 2 ^ 16 := by
  have h (c : Nat) (hc : c < 2 ^ 16) : bs.foldl (fun c b => crc16Step 8 (c ^^^ (b.toNat * 256))) c < 2 ^ 16 := by
    induction bs generalizing c with
    | nil => exact hc
    | cons b r ih => exact ih _ (crc16Step_lt (by decide))
  exact h _ (by decide)

/-- A one-bit field of a packed register reads as it was packed. -/
theorem bit_pack {n : Nat} {fs : List (Nat × Nat × Nat)} (h : fieldsFrom 0 fs = true) {lo : Nat} {b : Bool}
    (hf : (lo, 1, b.toNat) ∈ fs) (hn : lo + 1 ≤ n) : bit (BitVec.ofNat n (pack fs)) lo = b := by
  rw [bit, fld_pack h hf hn]
  cases b <;> rfl

/-- A register packed into a word reads back as its number. -/
theorem fld_pack_reg {n lo w : Nat} {fs : List (Nat × Nat × Nat)} {x : BitVec w} (h : fieldsFrom 0 fs = true)
    (hf : (lo, w, x.toNat) ∈ fs) (hn : lo + w ≤ n) : fld (BitVec.ofNat n (pack fs)) lo w = x.toNat := by
  rw [fld_pack h hf hn, Nat.mod_eq_of_lt x.isLt]

/-- The fields of a completion record (R377), with a value for CRC16. -/
def completionFields (wrap : Bool) (c : Completion) (crc : Nat) : List (Nat × Nat × Nat) :=
  [(0, 8, c.slot.toNat), (8, 2, c.queue.val), (16, 16, c.status.toNat), (32, 16, c.opcode.toNat),
    (48, 8, if c.queue == 2 then c.alive.toNat else 0), (64, 16, crc), (96, 32, c.tag.toNat), (128, 48, c.tick.toNat),
    (176, 3, c.phase.toNat), (179, 1, wrap.toNat), (180, 1, c.replay.toNat), (192, 320, c.result.toNat)]

/-- CRC16 of a record: the check of R335 over the record with the field 0, on Q2 alone. -/
def recordCrc (wrap : Bool) (c : Completion) : Nat :=
  if c.queue == 2 then crc16 (toBytes 64 (pack (completionFields wrap c 0))) else 0

theorem completionFields_ascend (wrap : Bool) (c : Completion) (crc : Nat) :
    fieldsFrom 0 (completionFields wrap c crc) = true := rfl

theorem pack_completionFields (wrap : Bool) (c : Completion) {crc : Nat} (hcrc : crc < 2 ^ 16) :
    pack (completionFields wrap c crc) = pack (completionFields wrap c 0) + crc * 2 ^ 64 := by
  simp only [pack_eq_fieldSum, completionFields, fieldSum, Nat.mod_eq_of_lt hcrc, Nat.zero_mod, Nat.zero_mul]
  omega

theorem recordCrc_lt (wrap : Bool) (c : Completion) : recordCrc wrap c < 2 ^ 16 := by
  unfold recordCrc
  split
  · exact crc16_lt _
  · decide

/-- A field of value 0 adds nothing. -/
theorem pack_drop_zero (lo w : Nat) (l r : List (Nat × Nat × Nat)) : pack (l ++ (lo, w, 0) :: r) = pack (l ++ r) := by
  simp only [pack, List.foldl_append, List.foldl_cons, Nat.zero_mod, Nat.zero_mul, Nat.add_zero]

theorem completionWord_eq (wrap : Bool) (c : Completion) :
    completionWord wrap c = BitVec.ofNat 512 (pack (completionFields wrap c (recordCrc wrap c))) := by
  rw [pack_completionFields wrap c (recordCrc_lt wrap c)]
  unfold completionWord
  extract_lets q2 w
  have hbare : pack (completionFields wrap c 0) = w := pack_drop_zero 64 16 [_, _, _, _, _] [_, _, _, _, _, _]
  rw [recordCrc, hbare]
  clear_value w
  show _ = BitVec.ofNat 512 (w + (if q2 = true then crc16 (toBytes 64 w) else 0) * 2 ^ 64)
  by_cases hq2 : q2 = true
  · rw [if_pos hq2, if_pos hq2]
  · rw [if_neg hq2, if_neg hq2, Nat.zero_mul, Nat.add_zero]

/-- Without CRC16 the record is the one with the field 0. -/
theorem completionWord_bare (wrap : Bool) (c : Completion) :
    (completionWord wrap c).toNat - recordCrc wrap c * 2 ^ 64 = pack (completionFields wrap c 0) := by
  have hlt : pack (completionFields wrap c (recordCrc wrap c)) < 2 ^ 512 := by
    rw [pack_eq_fieldSum]
    exact fieldSum_lt (completionFields_ascend ..) (by simp [completionFields])
  rw [completionWord_eq, BitVec.toNat_ofNat, Nat.mod_eq_of_lt hlt, pack_completionFields wrap c (recordCrc_lt wrap c),
    Nat.add_sub_cancel]

/-- Settles O56: each field stands apart from the others. -/
theorem recordsReadBack : Obligations.RecordsReadBack := by
  unfold Obligations.RecordsReadBack
  refine ⟨fun w c => ?_, fun p e hsource => ?_⟩
  · intro r
    have hr : r = BitVec.ofNat 512 (pack (completionFields w c (recordCrc w c))) := completionWord_eq w c
    have hasc := completionFields_ascend w c (recordCrc w c)
    have hmem {f : Nat × Nat × Nat} (hf : f ∈ completionFields w c (recordCrc w c)) (hn : f.1 + f.2.1 ≤ 512) :
        fld r f.1 f.2.1 = f.2.2 % 2 ^ f.2.1 := by
      rw [hr]; exact fld_pack hasc hf hn
    have hcrc : fld r 64 16 = recordCrc w c :=
      (hmem (f := (64, 16, recordCrc w c)) (by simp [completionFields]) (by simp)).trans
        (Nat.mod_eq_of_lt (recordCrc_lt w c))
    have halive : fld r 48 8 = (if c.queue == 2 then c.alive.toNat else 0) % 2 ^ 8 :=
      hmem (f := (48, 8, if c.queue == 2 then c.alive.toNat else 0)) (by simp [completionFields]) (by simp)
    refine ⟨?_, ?_, ?_, ?_, ?_, ?_, ?_, ?_, ?_, ?_, fun hq2 => ⟨?_, ?_⟩, fun hother => ⟨?_, ?_⟩⟩
    · rw [hr]; exact fld_pack_reg hasc (by simp [completionFields]) (by decide)
    · exact (hmem (f := (8, 2, c.queue.val)) (by simp [completionFields]) (by simp)).trans
        (Nat.mod_eq_of_lt c.queue.isLt)
    · rw [hr]; exact fld_pack_reg hasc (by simp [completionFields]) (by decide)
    · rw [hr]; exact fld_pack_reg hasc (by simp [completionFields]) (by decide)
    · rw [hr]; exact fld_pack_reg hasc (by simp [completionFields]) (by decide)
    · rw [hr]; exact fld_pack_reg hasc (by simp [completionFields]) (by decide)
    · rw [hr]; exact fld_pack_reg hasc (by simp [completionFields]) (by decide)
    · rw [hr]; exact bit_pack hasc (by simp [completionFields]) (by decide)
    · rw [hr]; exact bit_pack hasc (by simp [completionFields]) (by decide)
    · rw [hr]; exact fld_pack_reg hasc (by simp [completionFields]) (by decide)
    · rw [halive, hq2]; exact Nat.mod_eq_of_lt c.alive.isLt
    · have hbare : r.toNat - recordCrc w c * 2 ^ 64 = pack (completionFields w c 0) := completionWord_bare w c
      rw [hcrc, hbare, recordCrc, hq2]; rfl
    · rw [halive, if_neg (by simpa using hother), Nat.zero_mod]
    · rw [hcrc, recordCrc, if_neg (by simpa using hother)]
  · intro r
    have hasc : fieldsFrom 0 [(0, 9, e.source), (9, 3, e.phase.code), (12, 1, p.toNat), (16, 16, e.code.toNat),
        (32, 32, e.seq.toNat), (64, 48, e.tick.toNat), (128, 128, e.payload.toNat)] = true := rfl
    have hphase : e.phase.code < 2 ^ 3 := by cases e.phase <;> decide
    refine ⟨?_, ?_, ?_, ?_, ?_, ?_, ?_⟩
    · exact (fld_pack hasc (by simp) (by decide)).trans (Nat.mod_eq_of_lt hsource)
    · exact (fld_pack hasc (by simp) (by decide)).trans (Nat.mod_eq_of_lt hphase)
    · exact bit_pack hasc (by simp) (by decide)
    · exact fld_pack_reg hasc (by simp) (by decide)
    · exact fld_pack_reg hasc (by simp) (by decide)
    · exact fld_pack_reg hasc (by simp) (by decide)
    · exact fld_pack_reg hasc (by simp) (by decide)

end Sys2Proof.Machine

/-! # EVENT_MASK and masked sources (R387) -/

namespace Sys2Proof.Machine

/-! ## A masked source raises nothing -/

theorem signal_ev (v : Fin 64) (s : State) : (signal v s).ev = s.ev := (signal_only v s).same .ev rfl

/-- A signal leaves on its vector, or stays pending. -/
theorem mem_signal_out {v : Fin 64} {s : State} {o : Output} (h : o ∈ (signal v s).out) : o ∈ s.out ∨ o = .msix v := by
  unfold signal at h
  split at h
  · exact .inl h
  · rw [emit_out, List.mem_cons] at h
    exact h.symm

theorem masked_congr {s t : State} (src : Nat) (h : t.ev = s.ev) : masked src t = masked src s := by
  simp only [masked, h]

/-- What a raise of a masked source comes down to: vector 6 for the two codes of R363. -/
theorem raise_masked {src : Nat} {s : State} (code : BitVec 16) (p : Nat) (h : masked src s = true) :
    raise src code p s = if code == evCxlLink || code == evCxlError then signal 6 s else s := by
  unfold raise
  extract_lets s0
  have hev : s0.ev = s.ev := by
    unfold s0
    split
    · exact signal_ev 6 s
    · rfl
  rw [if_pos ((masked_congr src hev).trans h)]

theorem not_masked_of_unmaskable {src : Nat} (h : unmaskable src = true) (s : State) : masked src s = false := by
  simp only [masked, h, Bool.not_true, Bool.false_and]

theorem unmaskable_of_kept {src : Nat} (h : groupOf src = 6 ∨ src = 448 ∨ src = 449) : unmaskable src = true := by
  simpa only [unmaskable, Bool.or_eq_true, beq_iff_eq, or_assoc] using h

/-! ## EVENT_MASK -/

/-- The group that an EVENT_MASK names. -/
def maskGroup (d : Desc) : Fin 8 := Fin.ofNat 8 (fld d.payload 0 3)

/-- The bits that an EVENT_MASK writes 0. -/
def maskClears (d : Desc) : BitVec 64 := BitVec.ofNat 64 (fld d.payload 128 64) &&& ~~~BitVec.ofNat 64 (fld d.payload 64 64)

/-- The bits of a group that cannot be masked. -/
def heldBits (g : Fin 8) : BitVec 64 := if g = 6 then BitVec.allOnes 64 else if g = 7 then 3 else 0

/-- The group's mask after an EVENT_MASK. -/
def maskAfter (d : Desc) (s : State) : BitVec 64 :=
  (s.ev.masks[maskGroup d] &&& ~~~BitVec.ofNat 64 (fld d.payload 128 64)) |||
    (BitVec.ofNat 64 (fld d.payload 64 64) &&& BitVec.ofNat 64 (fld d.payload 128 64))

theorem fetched_ev (op : Op) (d : Desc) (s : State) : (fetched op d s).ev = s.ev := (fetched_only op d s).same .ev rfl

theorem runOp_eventMask {d : Desc} {s : State} (h : maskClears d &&& heldBits (maskGroup d) = 0) :
    runOp .eventMask d s = .done stOk (maskAfter d s).toNat
      (onEv (fun v => { v with masks := v.masks.set (maskGroup d) (maskAfter d s) }) s) :=
  refuseOr_none (need_true (beq_iff_eq.mpr h) ..) ..

theorem runOp_eventMask_held {d : Desc} {s : State} (h : maskClears d &&& heldBits (maskGroup d) ≠ 0) :
    runOp .eventMask d s = .done stRange 64 s :=
  refuseOr_some (need_false (beq_eq_false_iff_ne.mpr h) ..) ..

/-- The bit of a register that is a field of a word. -/
theorem getLsbD_ofNat_fld {n : Nat} (p : BitVec n) (lo : Nat) {w i : Nat} (hi : i < w) :
    (BitVec.ofNat w (fld p lo w)).getLsbD i = bit p (lo + i) := by
  rw [BitVec.getLsbD_ofNat, fld, Nat.testBit_mod_two_pow, ← Nat.shiftRight_eq_div_pow, Nat.testBit_shiftRight, bit, fld,
    Nat.testBit_eq_decide_div_mod_eq]
  simp [hi, beq_eq_decide]

theorem maskClears_getLsbD (d : Desc) {i : Nat} (hi : i < 64) :
    (maskClears d).getLsbD i = (bit d.payload (128 + i) && !bit d.payload (64 + i)) := by
  rw [maskClears, BitVec.getLsbD_and, BitVec.getLsbD_not, getLsbD_ofNat_fld _ _ hi, getLsbD_ofNat_fld _ _ hi]
  simp [hi]

/-- A word is not 0 exactly where a bit of it is set. -/
theorem ne_zero_iff_bit {w : Nat} (x : BitVec w) : x ≠ 0 ↔ ∃ i < w, x.getLsbD i = true := by
  constructor
  · intro h
    by_contra hnone
    push Not at hnone
    refine h (BitVec.eq_of_getLsbD_eq fun i hi => ?_)
    rw [show (0 : BitVec w) = 0#w from rfl, BitVec.getLsbD_zero]
    exact Bool.eq_false_iff.mpr (hnone i hi)
  · rintro ⟨i, -, hi⟩ hzero
    rw [hzero, show (0 : BitVec w) = 0#w from rfl, BitVec.getLsbD_zero] at hi
    cases hi

theorem getLsbD_three {i : Nat} : (3 : BitVec 64).getLsbD i = true ↔ i = 0 ∨ i = 1 := by
  rw [show (3 : BitVec 64) = BitVec.ofNat 64 3 from rfl, BitVec.getLsbD_ofNat]
  rcases i with _ | _ | i
  · simp
  · simp; decide
  · have hbit : Nat.testBit 3 (i + 2) = false := Nat.testBit_lt_two_pow (Nat.lt_of_lt_of_le (by decide : 3 < 2 ^ 2)
      (Nat.pow_le_pow_right (by decide) (Nat.le_add_left 2 i)))
    simp [hbit]

/-- An EVENT_MASK would clear a bit that cannot be masked. -/
theorem clears_held_iff (d : Desc) : maskClears d &&& heldBits (maskGroup d) ≠ 0 ↔
    (maskGroup d = 6 ∧ ∃ i < 64, (maskClears d).getLsbD i = true) ∨
    (maskGroup d = 7 ∧ ((maskClears d).getLsbD 0 || (maskClears d).getLsbD 1) = true) := by
  rw [ne_zero_iff_bit]
  simp only [BitVec.getLsbD_and, Bool.and_eq_true]
  generalize maskGroup d = g
  by_cases h6 : g = 6
  · subst h6
    simp only [heldBits, if_true, BitVec.getLsbD_allOnes, decide_eq_true_eq, true_and, show ¬((6 : Fin 8) = 7) by decide,
      false_and, or_false]
    exact exists_congr fun i => ⟨fun ⟨hi, hc, _⟩ => ⟨hi, hc⟩, fun ⟨hi, hc⟩ => ⟨hi, hc, hi⟩⟩
  · by_cases h7 : g = 7
    · subst h7
      rw [show heldBits 7 = 3 from rfl]
      simp only [getLsbD_three, h6, false_and, false_or, true_and, Bool.or_eq_true]
      constructor
      · rintro ⟨i, -, hc, rfl | rfl⟩
        · exact .inl hc
        · exact .inr hc
      · rintro (hc | hc)
        · exact ⟨0, by decide, hc, .inl rfl⟩
        · exact ⟨1, by decide, hc, .inr rfl⟩
    · simp [heldBits, h6, h7]

/-- After an EVENT_MASK a source of its group is masked exactly where its bit is 0. -/
theorem masked_set_iff {src : Nat} {g : Fin 8} {m : BitVec 64} {s t : State} (ht : t.ev = { s.ev with masks := s.ev.masks.set g m })
    (hsrc : unmaskable src = false) (hg : groupOf src = g.val) : masked src t = true ↔ m.getLsbD (src % 64) = false := by
  have hidx : groupIdx src = g := by
    rw [groupIdx, hg]
    exact Fin.ext (Nat.mod_eq_of_lt g.isLt)
  simp [masked, hsrc, hidx, ht]

/-! ## A masked BUFFER_RELEASED still has its fence written -/

theorem mapFirst_append_last {α : Type} {p : α → Bool} (f : α → α) {l : List α} {x : α} (hl : ∀ y ∈ l, p y = false)
    (hx : p x = true) : mapFirst p f (l ++ [x]) = l ++ [f x] := by
  induction l with
  | nil => simp only [List.nil_append, mapFirst, hx, if_true]
  | cons y r ih =>
    have hy : p y = false := hl y List.mem_cons_self
    simp only [List.cons_append, mapFirst, hy, Bool.false_eq_true, if_false, ih fun z hz => hl z (List.mem_cons_of_mem _ hz)]

/-- The write of a release fence leaves at once where none waits and a transient line is free (R355). -/
theorem addFence_leaves {w : RelWrite} {s : State} (hw : w.st = .waiting) (hnone : ∀ x ∈ s.com.relWrites, x.st ≠ .waiting)
    (hfree : relBusy s < 8) : addFence w s = putFence w (onCom (fun c => { c with
      relWrites := c.relWrites ++ [{ w with st := .issued }] }) s) := by
  have hothers : ∀ x ∈ s.com.relWrites, (x.st == RelState.waiting) = false := fun x hx => by simpa using hnone x hx
  have hself : (w.st == RelState.waiting) = true := by simp [hw]
  have hfind : (s.com.relWrites ++ [w]).find? (fun x => x.st == .waiting) = some w := by
    rw [List.find?_append, List.find?_eq_none.mpr fun x hx => by simp [hnone x hx]]
    simp [hw]
  have hbusy : relBusy (onCom (fun c => { c with relWrites := c.relWrites ++ [w] }) s) < 8 := by
    have : relBusy (onCom (fun c => { c with relWrites := c.relWrites ++ [w] }) s) = relBusy s := by
      simp [relBusy, hw]
    rwa [this]
  simp only [addFence, issueRel, onCom_com, hfind, if_pos hbusy]
  congr 1
  simp only [onCom, mapFirst_append_last _ hothers hself]

/-- A release at the head of the LATCH, while the host is attached: its fence is written, and it waits. -/
theorem runLatchQ_release {x : Release} {a : Nat} {v : BitVec 64} {l : List LatchItem} {s : State}
    (hq : s.com.latchQ = .release x false :: l) (hx : x.fence = some (a, v)) (hatt : s.cxl.attached = true) :
    runLatchQ s = addFence { addr := a, value := v, tag := x.tag, st := .waiting, event := none }
      (onCom (fun c => { c with latchQ := .release x true :: l }) s) := by
  simp only [runLatchQ, pumpLatch, hq, hx, hatt, Bool.not_true, Bool.false_eq_true, if_false]

/-- Settles O60: a masked raise is vector 6 at most, EVENT_MASK is judged bit by bit, and a release's fence leaves before it is
raised. -/
theorem masksStopEvents : Obligations.MasksStopEvents := by
  unfold Obligations.MasksStopEvents
  refine ⟨fun src code p s hmasked => ?_, fun src s hkept => not_masked_of_unmaskable (unmaskable_of_kept hkept) s,
    fun d s hs ha => ?_, fun x a v l s hq hx hatt _ hnone hfree => ?_⟩
  · rw [raise_masked code p hmasked]
    split
    · exact ⟨signal_ev 6 s, fun o ho => mem_signal_out ho⟩
    · exact ⟨rfl, fun o ho => .inl ho⟩
  · intro g m clears
    have hclears : ∀ i < 64, (maskClears d).getLsbD i = clears i := fun i hi => maskClears_getLsbD d hi
    have hheld : maskClears d &&& heldBits (maskGroup d) ≠ 0 ↔
        (g = 6 ∧ ∃ i < 64, clears i = true) ∨ (g = 7 ∧ (clears 0 || clears 1) = true) := by
      rw [clears_held_iff, hclears 0 (by decide), hclears 1 (by decide)]
      refine or_congr (and_congr Iff.rfl (exists_congr fun i => and_congr_right fun hi => ?_)) Iff.rfl
      rw [hclears i hi]
    refine ⟨fun h => ?_, fun h => ?_⟩
    · exact does_of_apart (i := .eventMask d) hs ha rfl (only_refl [] _) rfl (runOp_eventMask_held (hheld.mpr h))
    · have hrun := runOp_eventMask (s := fetched .eventMask d s) (not_not.mp (mt hheld.mp h))
      obtain ⟨t, ht, hagree, -⟩ := does_of_apart (i := .eventMask d) hs ha rfl (only_onEv _ _) rfl hrun
      have hev : t.ev = { s.ev with masks := s.ev.masks.set g m } := by
        rw [hagree, onEv_ev, maskAfter, fetched_ev]; rfl
      exact ⟨t, ht, hev, fun src hsrc hg => masked_set_iff hev hsrc hg⟩
  · have hrun := (runLatchQ_release hq hx hatt).trans (addFence_leaves rfl hnone hfree)
    rw [hrun]
    refine ⟨rfl, ?_, ?_⟩
    · simp [putFence]
    · simp [putFence]

end Sys2Proof.Machine

/-! # SETTINGS_READ on Q2 (R335, R384) -/

namespace Sys2Proof.Machine

/-- SETTINGS_READ of a record that the queue may read, with its index in range. -/
theorem runOp_settingsRead {d : Desc} {n : Nat} (s : State) (hn : recordIndexes (fld d.payload 0 8) = some n)
    (hindex : fld d.payload 8 8 < n) (hread : readableOn d.queue (fld d.payload 0 8) = true) :
    runOp .settingsRead d s = .done stOk
      (recordWord (fld d.payload 0 8) (fld d.payload 8 8) (if bit d.payload 16 then prospect s else s.cfg) s +
        pendingMask (fld d.payload 0 8) (fld d.payload 8 8) s * 2 ^ 256) s := by
  simp only [runOp, runSettingsRead, hn, hread, hindex, need_true, decide_true, firstRef, refuseOr_none]

/-- The device runs in BLANK, and Q2 is enabled. -/
def q2Served : State :=
  onQueue 2 (fun x => { x with en := true })
    (onBoot (fun b => { b with stage := .running }) (onClk (fun c => { c with phase := .blank }) State.reset))

/-- A SETTINGS_READ of the safety status record on Q2, with ALIVE as expected and the check code of R335. -/
def safetyRead : Desc :=
  { queue := 2, alive := 0, rsv24 := 0, crc16 := 53239, rsv48 := 0, tag := 7, rsv96 := 0, payload := 0x13 }

theorem q2Served_serves : Serves safetyRead.queue q2Served := ⟨rfl, rfl, rfl, rfl, rfl, rfl⟩

theorem safetyRead_admitted : Admitted .settingsRead safetyRead q2Served := by
  refine ⟨fun c => ?_, rfl, rfl, rfl, by decide +kernel, by decide +kernel, fun _ => ⟨by decide +kernel, .inr rfl⟩⟩
  exact Op.noConfusion

/-- What the record and its PENDING read as in a state. -/
def safetyAnswer (s : State) : BitVec 320 := BitVec.ofNat 320 (recordWord 0x13 0 s.cfg s + pendingMask 0x13 0 s * 2 ^ 256)

/-- The record shows the ALIVE that R335 expects next, and accepting the read has moved it on. -/
theorem safetyAnswer_fetched_ne : safetyAnswer (fetched .settingsRead safetyRead q2Served) ≠ safetyAnswer q2Served := by
  decide +kernel

/-- Refutes O7: a SETTINGS_READ of the safety status record on Q2 is accepted before it executes (R335), so the record that it
answers shows ALIVE one further than it stood before the submission. The clause lacks a premise that the queue is not Q2, or the
state in which the descriptor executes. -/
theorem not_systemCommandsTakeEffect : ¬ Obligations.SystemCommandsTakeEffect := by
  unfold Obligations.SystemCommandsTakeEffect
  intro h
  obtain ⟨-, -, hread, -⟩ := h safetyRead q2Served q2Served_serves
  obtain ⟨t, ht, -, ⟨c, hc, -, -, -, -, -, -, hresult, -⟩, -⟩ := hread safetyRead_admitted 1 rfl (by decide) rfl
  obtain ⟨t', ht', -, ⟨c', hc', -, -, -, -, -, -, hresult', -⟩, -⟩ :=
    does_of_apart (i := .settingsRead safetyRead) q2Served_serves safetyRead_admitted rfl (only_refl [] _) rfl
      (runOp_settingsRead _ rfl (by decide) rfl)
  have htt : t' = t := Host.Outcome.next.inj (ht'.symm.trans ht)
  have hcc : c' = c := Option.some.inj (hc'.symm.trans (htt ▸ hc))
  have hsame : safetyAnswer (fetched .settingsRead safetyRead q2Served) = safetyAnswer q2Served :=
    hresult'.symm.trans (hcc ▸ hresult)
  exact safetyAnswer_fetched_ne hsame

end Sys2Proof.Machine

/-! # What events and record writes leave of the CXL port and of the event ring (12, 13) -/

namespace Sys2Proof.Machine

/-! ## The two views -/

/-- The CXL port without what a signal, a record write or the close of a command moves: the link, the conditions of R369, the
keys, the logs and the masks stand in it. -/
def portCore (c : CxlDyn) : CxlDyn :=
  { c with outstanding := [], msixPend := 0, lastSignal := CxlDyn.reset.lastSignal, sigDue := 0, summary := 0 }

/-- The event system without the store and the progress of its records: the ring's registers, the acknowledgements, the observers
and the masks stand in it, the fences of R112 do not. -/
def evCore (v : EvDyn) : EvDyn :=
  { v with next := 0, ring := [], sent := 0, issuedTo := 0, chainSent := 0, chainIssued := 0, seq := 0, store := [], full := false,
           dropped := EvDyn.reset.dropped, owed := [], series := [], fences := [] }

/-- Both views are kept. -/
structure KeepsPort (s t : State) : Prop where
  port : portCore t.cxl = portCore s.cxl
  ring : evCore t.ev = evCore s.ev

theorem keepsPort_refl (s : State) : KeepsPort s s := ⟨rfl, rfl⟩

theorem KeepsPort.trans {a b c : State} (h : KeepsPort a b) (k : KeepsPort b c) : KeepsPort a c :=
  ⟨k.port.trans h.port, k.ring.trans h.ring⟩

theorem KeepsPort.en {s t : State} (h : KeepsPort s t) : t.ev.en = s.ev.en := by
  have hring := congrArg EvDyn.en h.ring
  exact hring

theorem KeepsPort.attached {s t : State} (h : KeepsPort s t) : t.cxl.attached = s.cxl.attached := by
  have hport := congrArg CxlDyn.attached h.port
  exact hport

theorem keepsPort_of_only {f : List Part} {s t : State} (h : Only f t s)
    (hf : [Part.cxl, .ev].all (fun x => !f.contains x) = true) : KeepsPort s t := by
  simp only [List.all_cons, List.all_nil, Bool.and_true, Bool.and_eq_true, Bool.not_eq_true'] at hf
  obtain ⟨hcxl, hev⟩ := hf
  have hcxl : t.cxl = s.cxl := h.same .cxl hcxl
  have hev : t.ev = s.ev := h.same .ev hev
  exact ⟨by rw [hcxl], by rw [hev]⟩

/-! ## Signals and record writes -/

theorem signal_keepsPort (v : Fin 64) (s : State) : KeepsPort s (signal v s) := by
  unfold signal
  split <;> exact ⟨rfl, rfl⟩

theorem settle_keepsPort (s : State) : KeepsPort s (settle s) := by
  unfold settle
  extract_lets w
  split
  · exact keepsPort_refl s
  · have hfirst : KeepsPort s (onCxl (fun c => { c with summary := w }) s) := ⟨rfl, rfl⟩
    exact hfirst.trans (signal_keepsPort 5 _)

theorem issueOne_keepsPort {s t : State} (h : issueOne s = some t) : KeepsPort s t := by
  unfold issueOne at h
  dsimp only at h
  split at h
  · split at h
    · split at h
      · cases h
      · cases h; exact ⟨rfl, rfl⟩
    · cases h
  · cases h

theorem pumpHost_keepsPort (k : Nat) (s : State) : KeepsPort s (pumpHost k s) := by
  induction k generalizing s with
  | zero => exact keepsPort_refl s
  | succ k ih =>
    cases h : issueOne s with
    | none => simpa only [pumpHost, h] using keepsPort_refl s
    | some t => simpa only [pumpHost, h] using (issueOne_keepsPort h).trans (ih t)

theorem pumpChain_keepsPort (k : Nat) (s : State) : KeepsPort s (pumpChain k s) := by
  induction k generalizing s with
  | zero => exact keepsPort_refl s
  | succ k ih =>
    rw [pumpChain]
    split
    · split
      · next e _ =>
        refine KeepsPort.trans ?_ (ih _)
        exact (keepsPort_of_only (cwSend_only ..) rfl).trans ⟨rfl, rfl⟩
      · exact keepsPort_refl s
    · exact keepsPort_refl s

/-! ## Events -/

theorem record_keepsPort (src : Nat) (code : BitVec 16) (p : Nat) (s : State) : KeepsPort s (record src code p s) := by
  unfold record
  extract_lets e keep s1
  have h1 : KeepsPort s s1 := ⟨rfl, rfl⟩
  exact h1.trans ((pumpHost_keepsPort 1 s1).trans (pumpChain_keepsPort 1 _))

theorem storeFull_keepsPort (s : State) : KeepsPort s (storeFull s) := by
  unfold storeFull
  split
  · exact keepsPort_refl s
  · extract_lets latched s1
    have hreact : KeepsPort (onSafety (fun y => { y with storeFull := true }) s) s1 :=
      keepsPort_of_only (safeReact_only ..) rfl
    have hmark : KeepsPort s (onSafety (fun y => { y with storeFull := true }) s) := ⟨rfl, rfl⟩
    exact (hmark.trans hreact).trans ⟨rfl, rfl⟩

theorem raise_keepsPort (src : Nat) (code : BitVec 16) (p : Nat) (s : State) : KeepsPort s (raise src code p s) := by
  unfold raise
  extract_lets s0
  have h0 : KeepsPort s s0 := by
    unfold s0
    split
    · exact signal_keepsPort 6 s
    · exact keepsPort_refl s
  refine h0.trans ?_
  repeat' split
  · exact keepsPort_refl s0
  · exact storeFull_keepsPort s0
  · exact record_keepsPort ..
  · exact keepsPort_refl s0
  · exact record_keepsPort ..
  · exact ⟨rfl, rfl⟩
  · exact record_keepsPort ..

/-! ## With the event ring stopped nothing is written to it -/

theorem issueOne_stopped {s : State} (h : s.ev.en = false) : issueOne s = none := by
  simp only [issueOne, h, Bool.false_and, Bool.false_eq_true, if_false]

theorem pumpHost_none {s : State} (k : Nat) (h : issueOne s = none) : pumpHost k s = s := by
  cases k with
  | zero => rfl
  | succ k => simp only [pumpHost, h]

theorem record_outstanding {s : State} (h : s.ev.en = false) (src : Nat) (code : BitVec 16) (p : Nat) :
    (record src code p s).cxl.outstanding = s.cxl.outstanding := by
  unfold record
  extract_lets e keep s1
  rw [pumpHost_none 1 (issueOne_stopped (s := s1) h), (pumpChain_only 1 s1).same .cxl rfl]
  rfl

theorem signal_outstanding (v : Fin 64) (s : State) : (signal v s).cxl.outstanding = s.cxl.outstanding := by
  unfold signal
  split <;> rfl

theorem raise_outstanding {s : State} (h : s.ev.en = false) (src : Nat) (code : BitVec 16) (p : Nat) :
    (raise src code p s).cxl.outstanding = s.cxl.outstanding := by
  unfold raise
  extract_lets s0
  obtain ⟨h0, hev⟩ : s0.cxl.outstanding = s.cxl.outstanding ∧ s0.ev = s.ev := by
    unfold s0
    split
    · exact ⟨signal_outstanding .., signal_ev ..⟩
    · exact ⟨rfl, rfl⟩
  have hstopped : s0.ev.en = false := by rw [hev]; exact h
  have hfull : (storeFull s0).cxl = s0.cxl := (storeFull_only s0).same .cxl rfl
  repeat' split
  · exact h0
  · rw [hfull, h0]
  · rw [record_outstanding hstopped, h0]
  · exact h0
  · rw [record_outstanding hstopped, h0]
  · exact h0
  · rw [record_outstanding hstopped, h0]

/-! ## The newest record of an event that is not kept back (R389, R392) -/

/-- The event that is recorded. -/
def eventOf (src : Nat) (code : BitVec 16) (p : Nat) (s : State) : Event :=
  { source := src, phase := s.clk.phase, code := code, seq := s.ev.seq, tick := BitVec.ofNat 48 s.clk.tick
    payload := BitVec.ofNat 128 p }

theorem issueOne_series {s t : State} (h : issueOne s = some t) : t.ev.series = s.ev.series := by
  unfold issueOne at h
  dsimp only at h
  split at h
  · split at h
    · split at h
      · cases h
      · cases h; rfl
    · cases h
  · cases h

theorem pumpHost_series (k : Nat) (s : State) : (pumpHost k s).ev.series = s.ev.series := by
  induction k generalizing s with
  | zero => rfl
  | succ k ih =>
    cases h : issueOne s with
    | none => simp only [pumpHost, h]
    | some t => simp only [pumpHost, h, ih t, issueOne_series h]

theorem pumpChain_series (k : Nat) (s : State) : (pumpChain k s).ev.series = s.ev.series := by
  induction k generalizing s with
  | zero => rfl
  | succ k ih =>
    rw [pumpChain]
    split
    · split
      · rw [ih, onEv_ev, (cwSend_only ..).same .ev rfl]
      · rfl
    · rfl

theorem record_series (src : Nat) (code : BitVec 16) (p : Nat) (s : State) :
    (record src code p s).ev.series = eventOf src code p s :: s.ev.series := by
  unfold record
  extract_lets e keep s1
  rw [pumpChain_series, pumpHost_series]
  rfl

/-- The CXL port is never masked (R387). -/
theorem masked_srcCxl (s : State) : masked srcCxl s = false := not_masked_of_unmaskable rfl s

/-- HOST_STATE while the store keeps no reserve. -/
theorem raise_hostState {s : State} (p : Nat) (hfull : s.ev.full = false) (hroom : s.ev.store.length + 256 < 4096) :
    raise srcCxl evHostState p s = record srcCxl evHostState p s := by
  have hfree : ¬(storeFree s ≤ 256) := by unfold storeFree; omega
  have hkept : ¬((s.ev.full || decide (storeFree s ≤ 256)) = true) := by simp [hfull, hfree]
  have hcode : ¬((evHostState == evCxlLink || evHostState == evCxlError) = true) := by decide
  have hgroup : ¬((groupOf srcCxl == 6) = true) := by decide
  have hsrc : ¬((srcCxl == srcEvents) = true) := by decide
  unfold raise
  extract_lets s0
  have h0 : s0 = s := if_neg hcode
  rw [h0, if_neg (by rw [masked_srcCxl]; decide), if_neg hgroup, if_neg hsrc, if_neg hkept]

end Sys2Proof.Machine

/-! # A host detach (R368, R369) -/

namespace Sys2Proof.Machine

/-! ## The events that waited in the LATCH -/

theorem raiseRelease_keepsPort (x : Release) (written : Bool) (s : State) : KeepsPort s (raiseRelease x written s) := by
  unfold raiseRelease
  extract_lets s1
  have h1 : KeepsPort s s1 := raise_keepsPort ..
  split
  · split
    · exact h1.trans ⟨rfl, rfl⟩
    · exact h1
  · exact h1

theorem raiseRelease_com (x : Release) (written : Bool) (s : State) : (raiseRelease x written s).com = s.com :=
  (raiseRelease_only x written s).same .com rfl

theorem raise_com (src : Nat) (code : BitVec 16) (p : Nat) (s : State) : (raise src code p s).com = s.com :=
  (raise_only src code p s).same .com rfl

theorem addFence_keepsPort (w : RelWrite) (s : State) : KeepsPort s (addFence w s) :=
  keepsPort_of_only (addFence_only w s) rfl

theorem pumpLatch_keepsPort (k : Nat) (s : State) : KeepsPort s (pumpLatch k s) := by
  induction k generalizing s with
  | zero => exact keepsPort_refl s
  | succ k ih =>
    have hpop (r : List LatchItem) : KeepsPort s (onCom (fun c => { c with latchQ := r }) s) := ⟨rfl, rfl⟩
    rw [pumpLatch]
    split
    · exact keepsPort_refl s
    · exact ((hpop _).trans (raise_keepsPort ..)).trans (ih _)
    · split
      · exact ((hpop _).trans (raiseRelease_keepsPort ..)).trans (ih _)
      · split
        · exact ((hpop _).trans (raiseRelease_keepsPort ..)).trans (ih _)
        · split
          · exact keepsPort_refl s
          · exact (hpop _).trans (addFence_keepsPort ..)

theorem runLatchQ_keepsPort (s : State) : KeepsPort s (runLatchQ s) := pumpLatch_keepsPort ..

theorem runLatchQ_empty {s : State} (h : s.com.latchQ = []) : runLatchQ s = s := by
  simp only [runLatchQ, pumpLatch, h]

/-- Nothing is outstanding, no fence is read or written, and none will be: the ring is stopped and the host is not attached. -/
structure HostOff (s : State) : Prop where
  outstanding : s.cxl.outstanding = []
  relWrites : s.com.relWrites = []
  lines : ∀ l ∈ s.com.lines, l.reading = false
  ringOff : s.ev.en = false
  attached : s.cxl.attached = false

/-- What keeps both views, the watched lines and the fence writes, and writes no record. -/
theorem HostOff.of_keeps {s t : State} (h : HostOff s) (k : KeepsPort s t) (hout : t.cxl.outstanding = s.cxl.outstanding)
    (hrel : t.com.relWrites = s.com.relWrites) (hlines : t.com.lines = s.com.lines) : HostOff t := by
  exact ⟨hout.trans h.outstanding, hrel.trans h.relWrites, hlines ▸ h.lines, k.en.trans h.ringOff, k.attached.trans h.attached⟩

theorem HostOff.raise {s : State} (h : HostOff s) (src : Nat) (code : BitVec 16) (p : Nat) : HostOff (raise src code p s) := by
  have hcom := raise_com src code p s
  exact h.of_keeps (raise_keepsPort ..) (raise_outstanding h.ringOff ..) (by rw [hcom]) (by rw [hcom])

theorem raiseRelease_outstanding {s : State} (h : s.ev.en = false) (x : Release) (written : Bool) :
    (raiseRelease x written s).cxl.outstanding = s.cxl.outstanding := by
  unfold raiseRelease
  extract_lets s1
  have h1 : s1.cxl.outstanding = s.cxl.outstanding := raise_outstanding h ..
  split
  · split <;> exact h1
  · exact h1

theorem HostOff.raiseRelease {s : State} (h : HostOff s) (x : Release) (written : Bool) : HostOff (raiseRelease x written s) := by
  have hcom := raiseRelease_com x written s
  exact h.of_keeps (raiseRelease_keepsPort ..) (raiseRelease_outstanding h.ringOff ..) (by rw [hcom]) (by rw [hcom])

theorem HostOff.pop {s : State} (h : HostOff s) (r : List LatchItem) : HostOff (onCom (fun c => { c with latchQ := r }) s) :=
  ⟨h.outstanding, h.relWrites, h.lines, h.ringOff, h.attached⟩

/-- The waiting events of the LATCH are told, and no fence is written for them (R112). -/
theorem HostOff.pumpLatch {s : State} (h : HostOff s) (k : Nat) : HostOff (pumpLatch k s) := by
  induction k generalizing s with
  | zero => exact h
  | succ k ih =>
    have hdetached : (!s.cxl.attached) = true := by rw [h.attached]; rfl
    rw [Machine.pumpLatch]
    split
    · exact h
    · exact ih ((h.pop _).raise ..)
    · split
      · exact ih ((h.pop _).raiseRelease ..)
      · rw [if_pos hdetached]
        exact ih ((h.pop _).raiseRelease ..)

/-! ## The stop of the host's traffic -/

/-- What a detach clears before ATTACHED is judged. -/
def hostStopped (cause : Nat) (s : State) : State :=
  let s1 := onCxl (fun c => { c with hostActive := false, outstanding := [], retries := 0, sigDue := 0 }) s
  let s2 := onCom (fun c => { c with lines := c.lines.map fun l => { l with reading := false }, relWrites := [] })
    (onQueues (·.map fun q => { q with en := false }) s1)
  let s3 := onEv (fun v => { stopRing v with ackSeq := 0 }) s2
  if cause ≤ 3 then resetBlocks s3 else s3

theorem detach_eq (cause : Nat) (s : State) : detach cause s = runLatchQ (updateAttached cause (hostStopped cause s)) := rfl

theorem hostStopped_attachedNow (cause : Nat) (s : State) : attachedNow (hostStopped cause s) = false := by
  unfold hostStopped
  split <;> simp [attachedNow, resetBlocks]

/-- ATTACHED after it has been judged. -/
theorem updateAttached_port (cause : Nat) (s : State) :
    portCore (updateAttached cause s).cxl = portCore { s.cxl with attached := attachedNow s } := by
  unfold updateAttached
  extract_lets a
  split
  · next h =>
    have hstands : attachedNow s = s.cxl.attached := beq_iff_eq.mp h
    rw [hstands]
  · rw [(raise_keepsPort ..).port]
    split
    · rfl
    · rw [onCxl_cxl, (stopHostBuild_only s).same .cxl rfl]

theorem updateAttached_ring (cause : Nat) (s : State) : evCore (updateAttached cause s).ev = evCore s.ev := by
  unfold updateAttached
  extract_lets a
  split
  · rfl
  · rw [(raise_keepsPort ..).ring]
    split
    · rfl
    · rw [onCxl_ev, (stopHostBuild_only s).same .ev rfl]

theorem stopHostBuild_comp (s : State) : (stopHostBuild s).comp.hostBuild = false := by
  unfold stopHostBuild
  split
  · rfl
  · next h => exact Bool.eq_false_iff.mpr h

theorem updateAttached_outstanding {s : State} (h : s.ev.en = false) (cause : Nat) :
    (updateAttached cause s).cxl.outstanding = s.cxl.outstanding := by
  unfold updateAttached
  extract_lets a
  have hstop : (stopHostBuild s).cxl = s.cxl := (stopHostBuild_only s).same .cxl rfl
  have hev : (stopHostBuild s).ev = s.ev := (stopHostBuild_only s).same .ev rfl
  split
  · rfl
  · split
    · exact raise_outstanding (s := onCxl _ s) h ..
    · rw [raise_outstanding (s := onCxl _ (stopHostBuild s)) (by rw [onCxl_ev, hev]; exact h), onCxl_cxl, hstop]

/-- A host that is attached and whose conditions fail is detached: HOST_STATE (R371). -/
theorem updateAttached_detaches {s : State} (cause : Nat) (hatt : s.cxl.attached = true) (hnow : attachedNow s = false) :
    updateAttached cause s = raise srcCxl evHostState (pack [(0, 1, 0), (1, 3, cause)])
      (onCxl (fun c => { c with attached := false }) (stopHostBuild s)) := by
  simp only [updateAttached, hatt, hnow, Bool.false_beq, Bool.not_true, Bool.false_eq_true, if_false, Bool.toNat_false]

theorem pack_hostState {cause : Nat} (h : cause < 8) : pack [(0, 1, 0), (1, 3, cause)] = 2 * cause := by
  simp only [pack, List.foldl_cons, List.foldl_nil]
  omega

section
variable (cause : Nat) (u : State)

theorem hostStopped_com : (hostStopped cause u).com = { u.com with
    lines := u.com.lines.map fun l => { l with reading := false }, relWrites := [] } := by
  unfold hostStopped
  split <;> rfl

theorem hostStopped_outstanding : (hostStopped cause u).cxl.outstanding = [] := by
  unfold hostStopped
  split <;> rfl

theorem hostStopped_hostActive : (hostStopped cause u).cxl.hostActive = false := by
  unfold hostStopped
  split <;> rfl

theorem hostStopped_attached : (hostStopped cause u).cxl.attached = u.cxl.attached := by
  unfold hostStopped
  split <;> rfl

theorem hostStopped_conditions : (hostStopped cause u).cxl.bme = u.cxl.bme ∧ (hostStopped cause u).cxl.cacheEn = u.cxl.cacheEn := by
  unfold hostStopped
  split <;> exact ⟨rfl, rfl⟩

theorem hostStopped_en : (hostStopped cause u).ev.en = false := by
  unfold hostStopped
  split <;> rfl

theorem hostStopped_store : (hostStopped cause u).ev.store = u.ev.store ∧ (hostStopped cause u).ev.full = u.ev.full := by
  unfold hostStopped
  split <;> exact ⟨rfl, rfl⟩

theorem hostStopped_queues (q : Fin 4) : (hostStopped cause u).queues[q] = if cause ≤ 3 then
    { u.queues[q] with en := false, sqTail := 0, sqHead := 0, cqBase := 0, cqHead := 0, cqTail := 0, cqNext := 0 }
    else { u.queues[q] with en := false } := by
  unfold hostStopped
  split <;> simp [resetBlocks, resetQueue, onQueues, onEv, onCxl, onCom]

theorem hostStopped_reset {cause : Nat} (h : cause ≤ 3) : (hostStopped cause u).ev.base = 0 ∧ (hostStopped cause u).ev.head = 0 ∧
    (hostStopped cause u).ev.tail = 0 ∧ (hostStopped cause u).ev.sizeLog2 = 8 ∧
    (hostStopped cause u).cxl.msixMask = BitVec.allOnes 64 := by
  simp only [hostStopped, if_pos h]
  exact ⟨rfl, rfl, rfl, rfl, rfl⟩

/-- Both views after a detach: those of the stopped host, with ATTACHED 0. -/
theorem detach_port : portCore (detach cause u).cxl = portCore { (hostStopped cause u).cxl with attached := false } := by
  rw [detach_eq, (runLatchQ_keepsPort _).port, updateAttached_port, hostStopped_attachedNow]

theorem detach_ring : evCore (detach cause u).ev = evCore (hostStopped cause u).ev := by
  rw [detach_eq, (runLatchQ_keepsPort _).ring, updateAttached_ring]

theorem judged_hostOff : HostOff (updateAttached cause (hostStopped cause u)) := by
  have hcom : (updateAttached cause (hostStopped cause u)).com = (hostStopped cause u).com := (updateAttached_only ..).same .com rfl
  have hport := updateAttached_port cause (hostStopped cause u)
  have hring := updateAttached_ring cause (hostStopped cause u)
  rw [hostStopped_attachedNow] at hport
  have hatt := congrArg CxlDyn.attached hport
  have hen := congrArg EvDyn.en hring
  refine ⟨?_, ?_, ?_, hen.trans (hostStopped_en ..), hatt⟩
  · rw [updateAttached_outstanding (hostStopped_en ..), hostStopped_outstanding]
  · rw [hcom, hostStopped_com]
  · rw [hcom, hostStopped_com]
    simp

theorem detach_hostOff : HostOff (detach cause u) := (judged_hostOff cause u).pumpLatch _

theorem detach_queues : (detach cause u).queues = (hostStopped cause u).queues := by
  rw [detach_eq, (runLatchQ_only _).same .queues rfl, (updateAttached_only ..).same .queues rfl]

theorem detach_cfg : (detach cause u).cfg = u.cfg := (detach_only cause u).same .cfg rfl

variable {cause u}

theorem detach_hostBuild (hatt : u.cxl.attached = true) : (detach cause u).comp.hostBuild = false := by
  rw [detach_eq, (runLatchQ_only _).same .comp rfl, updateAttached_detaches cause
    ((hostStopped_attached ..).trans hatt) (hostStopped_attachedNow ..), raise_comp]
  exact stopHostBuild_comp _

/-- With no event waiting in the LATCH, HOST_STATE with its cause is the newest event. -/
theorem detach_told (hcause : cause < 8) (hatt : u.cxl.attached = true) (hlatch : u.com.latchQ = []) (hfull : u.ev.full = false)
    (hroom : u.ev.store.length + 256 < 4096) : ∃ e, (detach cause u).ev.series.head? = some e ∧ e.source = srcCxl ∧
      e.code = evHostState ∧ e.payload = BitVec.ofNat 128 (2 * cause) := by
  have hjudged := updateAttached_detaches cause ((hostStopped_attached cause u).trans hatt) (hostStopped_attachedNow cause u)
  have hempty : (updateAttached cause (hostStopped cause u)).com.latchQ = [] := by
    rw [(updateAttached_only ..).same .com rfl, hostStopped_com]
    exact hlatch
  have hev : (stopHostBuild (hostStopped cause u)).ev = (hostStopped cause u).ev := (stopHostBuild_only _).same .ev rfl
  obtain ⟨hstore, hkept⟩ := hostStopped_store cause u
  rw [detach_eq, runLatchQ_empty hempty, hjudged, pack_hostState hcause, raise_hostState _
    (by rw [onCxl_ev, hev, hkept, hfull]) (by rw [onCxl_ev, hev, hstore]; exact hroom), record_series]
  exact ⟨_, rfl, rfl, rfl, rfl⟩

end

/-- What a detach from a state leaves of a state before it, where the queues, the configuration and the conditions still stand. -/
theorem detach_detached {cause : Nat} {s u : State} (hcause : cause < 8) (hqueues : u.queues = s.queues) (hcfg : u.cfg = s.cfg)
    (hatt : u.cxl.attached = s.cxl.attached) (hcond : cause ≤ 3 → u.cxl.bme = s.cxl.bme ∧ u.cxl.cacheEn = s.cxl.cacheEn)
    (hcalm : s.com.latchQ = [] → s.ev.full = false → s.ev.store.length + 258 < 4096 →
      u.com.latchQ = [] ∧ u.ev.full = false ∧ u.ev.store.length + 256 < 4096) : Detached cause s (detach cause u) := by
  have hoff := detach_hostOff cause u
  have hport := detach_port cause u
  have hring := detach_ring cause u
  have hactive : (detach cause u).cxl.hostActive = (hostStopped cause u).cxl.hostActive := by
    have h := congrArg CxlDyn.hostActive hport
    exact h
  refine ⟨hoff.attached, hactive.trans (hostStopped_hostActive ..), hoff.outstanding, hoff.ringOff, (detach_cfg ..).trans hcfg,
    fun h => detach_hostBuild (hatt.trans h), hoff.lines, hoff.relWrites, fun q => ?_, fun hlow => ?_, fun h hlatch _ hfull hroom => ?_⟩
  · rw [detach_queues, hostStopped_queues, hqueues]
  · have hbme := congrArg CxlDyn.bme hport
    have hcache := congrArg CxlDyn.cacheEn hport
    have hmask := congrArg CxlDyn.msixMask hport
    have hbase := congrArg EvDyn.base hring
    have hhead := congrArg EvDyn.head hring
    have htail := congrArg EvDyn.tail hring
    have hsize := congrArg EvDyn.sizeLog2 hring
    obtain ⟨kbme, kcache⟩ := hostStopped_conditions cause u
    obtain ⟨kbase, khead, ktail, ksize, kmask⟩ := hostStopped_reset u hlow
    obtain ⟨ubme, ucache⟩ := hcond hlow
    exact ⟨hbme.trans (kbme.trans ubme), hcache.trans (kcache.trans ucache), hbase.trans kbase, hhead.trans khead,
      htail.trans ktail, hsize.trans ksize, hmask.trans kmask⟩
  · obtain ⟨ulatch, ufull, uroom⟩ := hcalm hlatch hfull hroom
    exact detach_told hcause (hatt.trans h) ulatch ufull uroom

theorem settle_outstanding (s : State) : (settle s).cxl.outstanding = s.cxl.outstanding := by
  unfold settle
  extract_lets w
  split
  · rfl
  · exact signal_outstanding ..

/-- Closing a command leaves a detach as it is. -/
theorem detached_settle {cause : Nat} {s t : State} (h : Detached cause s t) : Detached cause s (settle t) := by
  obtain ⟨hatt, hactive, hout, hen, hcfg, hbuild, hlines, hrel, hqueues, hlow, htold⟩ := h
  have hport := (settle_keepsPort t).port
  have katt := congrArg CxlDyn.attached hport
  have kactive := congrArg CxlDyn.hostActive hport
  have kbme := congrArg CxlDyn.bme hport
  have kcache := congrArg CxlDyn.cacheEn hport
  have kmask := congrArg CxlDyn.msixMask hport
  refine ⟨katt.trans hatt, kactive.trans hactive, (settle_outstanding t).trans hout, ?_, ?_, ?_, ?_, ?_, ?_, fun hc => ?_, ?_⟩
  · rw [settle_ev]; exact hen
  · rw [settle_cfg]; exact hcfg
  · rw [settle_comp]; exact hbuild
  · rw [settle_com]; exact hlines
  · rw [settle_com]; exact hrel
  · rw [settle_queues]; exact hqueues
  · obtain ⟨h1, h2, h3, h4, h5, h6, h7⟩ := hlow hc
    rw [settle_ev]
    exact ⟨kbme.trans h1, kcache.trans h2, h3, h4, h5, h6, kmask.trans h7⟩
  · rw [settle_ev]; exact htold

end Sys2Proof.Machine

/-! # Record writes and MSI-X (R356, R363, R364, R367) -/

namespace Sys2Proof.Machine

/-! ## A bit of a mask -/

theorem ofNat_two_pow {w i : Nat} : BitVec.ofNat w (2 ^ i) = BitVec.twoPow w i :=
  BitVec.eq_of_toNat_eq (by rw [BitVec.toNat_ofNat, BitVec.toNat_twoPow])

theorem and_bit_zero {w i : Nat} (hi : i < w) (x : BitVec w) :
    (x &&& BitVec.ofNat w (2 ^ i) == 0) = (x.getLsbD i == false) := by
  have hne : BitVec.twoPow w i ≠ 0#w := by
    intro h
    have hbit := congrArg (BitVec.getLsbD · i) h
    simp [hi] at hbit
  rw [ofNat_two_pow, BitVec.and_twoPow]
  cases x.getLsbD i <;> simp [hne]

theorem getLsbD_clear_bit {w : Nat} (x : BitVec w) (i : Nat) : (x &&& ~~~BitVec.ofNat w (2 ^ i)).getLsbD i = false := by
  by_cases hi : i < w
  · have hpow : (BitVec.ofNat w (2 ^ i)).getLsbD i = true := by
      rw [BitVec.getLsbD_ofNat, Nat.testBit_two_pow_self]
      simp [hi]
    rw [BitVec.getLsbD_and, BitVec.getLsbD_not, hpow]
    simp
  · exact BitVec.getLsbD_of_ge _ i (Nat.le_of_not_lt hi)

/-! ## Vectors -/

section
variable {v : Fin 64} {s : State}

theorem signal_held (h : s.cxl.msixMask.getLsbD v.val = true) : signal v s =
    onCxl (fun c => { c with msixPend := c.msixPend ||| BitVec.ofNat 64 (2 ^ v.val) }) s := if_pos h

theorem signal_leaves (h : s.cxl.msixMask.getLsbD v.val = false) : signal v s =
    emit (.msix v) (onCxl (fun c => { c with lastSignal := c.lastSignal.set v (some s.clk.now) }) s) :=
  if_neg (Bool.eq_false_iff.mp h)

theorem unmask_idle (h : s.cxl.msixPend.getLsbD v.val = false) : unmask v s =
    onCxl (fun c => { c with msixMask := c.msixMask &&& ~~~BitVec.ofNat 64 (2 ^ v.val) }) s := by
  unfold unmask
  extract_lets b s1
  rw [if_pos (by rw [and_bit_zero v.isLt, h]; rfl)]

theorem unmask_pending (h : s.cxl.msixPend.getLsbD v.val = true) : unmask v s =
    emit (.msix v) (onCxl (fun c => { c with
      msixMask := c.msixMask &&& ~~~BitVec.ofNat 64 (2 ^ v.val), msixPend := c.msixPend &&& ~~~BitVec.ofNat 64 (2 ^ v.val)
      lastSignal := c.lastSignal.set v (some s.clk.now) }) s) := by
  unfold unmask
  extract_lets b s1
  rw [if_neg (by rw [and_bit_zero v.isLt, h]; decide), signal_leaves (getLsbD_clear_bit s.cxl.msixMask v.val)]
  rfl

theorem coalesced_idle (h : s.cxl.sigDue.getLsbD v.val = false) : coalesced v s = s :=
  if_pos (by rw [and_bit_zero v.isLt, h]; rfl)

theorem coalesced_stopped (h : s.cxl.sigDue.getLsbD v.val = true) (hv : 8 ≤ v.val) (hen : s.ev.en = false) : coalesced v s =
    onCxl (fun c => { c with sigDue := c.sigDue &&& ~~~BitVec.ofNat 64 (2 ^ v.val) }) s := by
  unfold coalesced
  extract_lets b s1
  rw [if_neg (by rw [and_bit_zero v.isLt, h]; decide), if_pos (by simp [hv, hen])]

theorem coalesced_due (h : s.cxl.sigDue.getLsbD v.val = true) (hv : v.val < 8 ∨ s.ev.en = true) : coalesced v s =
    signal v (onCxl (fun c => { c with sigDue := c.sigDue &&& ~~~BitVec.ofNat 64 (2 ^ v.val) }) s) := by
  unfold coalesced
  extract_lets b s1
  have hserved : ¬((decide (8 ≤ v.val) && !s.ev.en) = true) := by
    rcases hv with hv | hv
    · simp [Nat.not_le.mpr hv]
    · simp [hv]
  rw [if_neg (by rw [and_bit_zero v.isLt, h]; decide), if_neg hserved]

end

/-! ## Errors that are logged (R361, R367, R371) -/

/-- ERR_STATUS after an error of a KIND. -/
def errAfter (kind : Fin 7) (x : BitVec 7) : BitVec 7 :=
  match errBit kind.val with
  | some b => x ||| BitVec.ofNat 7 (2 ^ b)
  | none => x

/-- The AER status after an error of a KIND. -/
def aerAfter (kind : Fin 7) (x : Vector (BitVec 32) 2) : Vector (BitVec 32) 2 :=
  match aerBit kind.val with
  | some b => upd x b.1 (· ||| BitVec.ofNat 32 (2 ^ b.2))
  | none => x

/-- The tick's count of a KIND after an error, with the TRAFFIC and address of the first. -/
def errCount (e : Nat × Nat × Nat) (traffic a : Nat) : Nat × Nat × Nat :=
  if e.1 = 0 then (1, traffic, a) else (e.1 + 1, e.2.1, e.2.2)

theorem cxlError_eq (kind : Fin 7) (traffic a : Nat) (s : State) : cxlError kind traffic a s = onCxl (fun c => { c with
    err := errAfter kind c.err, aer := aerAfter kind c.aer, errs := c.errs.set kind (errCount c.errs[kind] traffic a) }) s := by
  simp only [cxlError, errAfter, aerAfter]
  cases errBit kind.val <;> cases aerBit kind.val <;> rfl

theorem errCount_first {e : Nat × Nat × Nat} (h : e.1 = 0) (traffic a : Nat) : (errCount e traffic a).2 = (traffic, a) := by
  rw [errCount, if_pos h]

theorem errCount_later {e : Nat × Nat × Nat} (h : e.1 ≠ 0) (traffic a : Nat) : (errCount e traffic a).2 = e.2 := by
  rw [errCount, if_neg h]

theorem errCount_counts (e : Nat × Nat × Nat) (traffic a : Nat) : (errCount e traffic a).1 = e.1 + 1 := by
  unfold errCount
  split
  · next h => rw [h]
  · rfl

theorem KeepsPort.errs {s t : State} (h : KeepsPort s t) : t.cxl.errs = s.cxl.errs := by
  have hport := congrArg CxlDyn.errs h.port
  exact hport

/-! ## Record writes (R356, R367) -/

/-- A write to an address that has failed is logged, and counts as made again. -/
def retried (e : BusError) (a : Nat) (s : State) : State := onCxl (fun c => { c with
  retries := c.retries + 1, err := errAfter (errorKind e) c.err, aer := aerAfter (errorKind e) c.aer
  errs := c.errs.set (errorKind e) (errCount c.errs[errorKind e] 6 a) }) s

theorem retried_errs (e : BusError) (a : Nat) (s : State) :
    (retried e a s).cxl.errs[errorKind e] = errCount s.cxl.errs[errorKind e] 6 a := by
  simp [retried]

section
variable {s : State} {w : RingWrite} {r : List RingWrite} (h : s.cxl.outstanding = w :: r)
include h

theorem observed_cq {q : Fin 4} {k : Nat} (hid : w.id = .cq q k) : observed s =
    (let s2 := onQueue q (fun x => { x with
        cqTail := x.cqTail + 1, journal := x.journal.map fun c => if c.seq == k then { c with delivered := true } else c })
        (onCxl (fun c => { c with outstanding := r, retries := 0 }) s)
      if s.queues[q].en then signal (Fin.ofNat 64 (1 + q.val)) s2 else s2) := by
  simp only [observed, h, hid]

theorem observed_relay (hid : w.id = .relay) : observed s =
    onCw (fun c => { c with relayTail := BitVec.ofNat 16 ((c.relayTail.toNat + 1) % 2 ^ s.cfg.chain.relaySize) })
      (onCxl (fun c => { c with outstanding := r, retries := 0 }) s) := by
  simp only [observed, h, hid]

/-- The event ring's tail advances, and with all records of the store delivered no other is written. -/
theorem observed_evq {src : Nat} (hid : w.id = .evq src) (hall : storeAt s.ev.sent s = none) :
    ∃ u, observed s = u ∧ Only [.ev, .cxl, .out] u s ∧
      u.ev = { s.ev with tail := BitVec.ofNat 16 ((s.ev.tail.toNat + 1) % 2 ^ s.ev.sizeLog2) } ∧ u.cxl.outstanding = r := by
  let s2 := onEv (fun v => { v with tail := BitVec.ofNat 16 ((v.tail.toNat + 1) % 2 ^ v.sizeLog2) })
    (onCxl (fun c => { c with outstanding := r, retries := 0 }) s)
  let s3 := if s.ev.en || !s.ev.vecMode then signalEvent src s2 else s2
  have hsignal : Only [.cxl, .out] s3 s2 := only_ite _ (signalEvent_only src s2) (only_refl _ s2)
  have hev : s3.ev = s2.ev := hsignal.same .ev rfl
  have hout : s3.cxl.outstanding = r := by
    simp only [s3]
    split
    · unfold signalEvent
      extract_lets v
      repeat' split
      · rfl
      · exact signal_outstanding v s2
      · exact signal_outstanding v s2
    · rfl
  have hnone : issueOne s3 = none := by
    have hstore : storeAt s3.ev.sent s3 = none := by simp only [storeAt, hev]; exact hall
    simp only [issueOne, hstore]
    split <;> rfl
  have hrun : observed s = s3 := by
    simp only [observed, h, hid]
    exact pumpHost_none 4096 hnone
  refine ⟨s3, hrun, ?_, hev, hout⟩
  exact only_step hsignal rfl (only_step (only_onEv ..) rfl (only_mono (only_onCxl ..) rfl))

theorem retryWrite_again (e : BusError) (hr : s.cxl.retries < 4) : retryWrite e s = putRecord w (retried e w.addr s) := by
  simp only [retryWrite, h, if_pos hr, cxlError_eq]
  rfl

theorem retryWrite_gives_up (e : BusError) (hr : 4 ≤ s.cxl.retries) : retryWrite e s =
    detach 0 (cxlError (errorKind e) 6 w.addr s) := by
  simp only [retryWrite, h, if_neg (Nat.not_lt.mpr hr)]

end

theorem putRecord_cxl (w : RingWrite) (s : State) : (putRecord w s).cxl = s.cxl := (putRecord_only w s).same .cxl rfl

theorem putRecord_out (w : RingWrite) {s t : State} (h : t.out = s.out) : (putRecord w t).out = (putRecord w s).out := by
  unfold putRecord
  split <;> simp only [emit_out, h]

theorem detach_errs (cause : Nat) (s : State) : (detach cause s).cxl.errs = s.cxl.errs := by
  have hport := congrArg CxlDyn.errs (detach_port cause s)
  refine Eq.trans hport ?_
  show (hostStopped cause s).cxl.errs = s.cxl.errs
  unfold hostStopped
  split <;> rfl

/-- A detach that follows an error's log leaves what R368 says of the state before. -/
theorem detach_cxlError {cause : Nat} (hcause : cause < 8) (kind : Fin 7) (traffic a : Nat) (s : State) :
    Detached cause s (settle (detach cause (cxlError kind traffic a s))) := by
  rw [cxlError_eq]
  exact detached_settle (detach_detached hcause rfl rfl rfl (fun _ => ⟨rfl, rfl⟩) fun hq hf hr => ⟨hq, hf, Nat.lt_of_succ_lt (Nat.lt_of_succ_lt hr)⟩)

/-- Settles O13, by the case of the oldest record write, and of the vector's bits. -/
theorem recordWritesAreObserved : Obligations.RecordWritesAreObserved := by
  unfold Obligations.RecordWritesAreObserved
  refine ⟨fun s w r h => ?_, fun v s => ⟨fun h => ?_, fun h => ?_, fun h => ?_, fun h hv hm => ?_, fun h hv hm => ?_, fun h hv he => ?_⟩⟩
  · intro s1
    refine ⟨fun q k hid => ⟨_, rfl, observed_cq h hid⟩, fun src hid hall => ?_, fun hid => ?_, fun e => ⟨fun hr => ?_, fun hr => ?_⟩⟩
    · obtain ⟨u, hrun, honly, hev, hout⟩ := observed_evq h hid hall
      refine ends_of (exec_of_effect rfl hrun) honly rfl ⟨?_, ?_⟩
      · rw [settle_ev, hev]
      · rw [settle_outstanding, hout]
    · refine ends_of (exec_of_effect rfl (observed_relay h hid)) ?_ rfl ⟨?_, ?_⟩
      · exact only_step (only_onCw ..) rfl (only_mono (only_onCxl ..) rfl)
      · rw [settle_cw]; rfl
      · rw [settle_outstanding]; rfl
    · refine ends_of (exec_of_effect rfl (retryWrite_again h e hr)) ?_ rfl ?_
      · exact only_step (putRecord_only ..) rfl (only_mono (only_onCxl ..) rfl)
      · have hcxl := putRecord_cxl w (retried e w.addr s)
        have hret := congrArg CxlDyn.retries (settle_keepsPort (putRecord w (retried e w.addr s))).port
        obtain ⟨l, hl, -⟩ := settle_out (putRecord w (retried e w.addr s))
        refine ⟨Eq.trans hret (congrArg CxlDyn.retries hcxl), ?_, ?_, ?_, fun hfirst => ?_⟩
        · rw [settle_outstanding, hcxl]; rfl
        · rw [hl, putRecord_out (s := s) (t := retried e w.addr s) w rfl]
          exact List.suffix_append ..
        · rw [settle_errs, hcxl, retried_errs, errCount_counts]
        · rw [settle_errs, hcxl, retried_errs, errCount_first hfirst]
    · refine ends_of (exec_of_effect rfl (retryWrite_gives_up h e hr)) ?_ rfl ⟨detach_cxlError (by decide) .., ?_⟩
      · exact only_step (detach_only ..) rfl (only_mono (cxlError_only ..) rfl)
      · rw [settle_errs, detach_errs, cxlError_errs]
  · exact exec_of_effect rfl (unmask_idle h)
  · exact exec_of_effect rfl (unmask_pending h)
  · exact exec_of_effect rfl (coalesced_idle h)
  · exact exec_of_effect rfl ((coalesced_due h hv).trans (signal_leaves hm))
  · exact exec_of_effect rfl ((coalesced_due h hv).trans (signal_held hm))
  · exact exec_of_effect rfl (coalesced_stopped h hv he)

end Sys2Proof.Machine

/-! # Attachment (R351, R359, R365, R368 to R370) -/

namespace Sys2Proof.Machine

/-! ## The conditions of R369 -/

/-- The conditions of R369 read the port's kept view and the OTP. -/
theorem attachedNow_congr {s t : State} (hport : portCore t.cxl = portCore s.cxl) (hotp : t.otp = s.otp) :
    attachedNow t = attachedNow s := by
  have hview (x : State) : attachedNow x = attachedNow (onCxl portCore x) := rfl
  have hide : ideRequired (onCxl portCore t) = ideRequired (onCxl portCore s) := by
    show ideRequired t = ideRequired s
    unfold ideRequired
    rw [hotp]
  rw [hview t, hview s]
  unfold attachedNow cxlUp
  rw [hide, onCxl_cxl, onCxl_cxl, hport]

theorem issueRelay_keepsPort {s t : State} (h : issueRelay s = some t) : KeepsPort s t := by
  unfold issueRelay at h
  dsimp only at h
  split at h
  · split at h
    · cases h; exact ⟨rfl, rfl⟩
    · cases h
  · cases h

theorem pumpRelay_keepsPort (k : Nat) (s : State) : KeepsPort s (pumpRelay k s) := by
  induction k generalizing s with
  | zero => exact keepsPort_refl s
  | succ k ih =>
    cases h : issueRelay s with
    | none => simpa only [pumpRelay, h] using keepsPort_refl s
    | some t => simpa only [pumpRelay, h] using (issueRelay_keepsPort h).trans (ih t)

theorem restartRelay_keepsPort (s : State) : KeepsPort s (restartRelay s) := by
  have hstart : KeepsPort s (onCw (fun c => { c with
      relayNext := c.relayHead, relayTail := c.relayHead
      relayPass := if c.relayNext.toNat < c.relayHead.toNat then !c.relayPass else c.relayPass }) s) := ⟨rfl, rfl⟩
  exact hstart.trans (pumpRelay_keepsPort 1024 _)

/-- ATTACHED is judged, and nothing else of the port changes. -/
theorem reattach_port (s : State) : portCore (reattach s).cxl = portCore { s.cxl with attached := attachedNow s } := by
  unfold reattach
  extract_lets s1 s2
  have h1 : portCore s1.cxl = portCore { s.cxl with attached := attachedNow s } := updateAttached_port 0 s
  have h2 : KeepsPort s1 s2 := keepsPort_of_only (rereadFences_only s1) rfl
  split
  · split
    · exact (h2.trans (restartRelay_keepsPort s2)).port.trans h1
    · exact h2.port.trans h1
  · exact h1

/-- The port once a command that judges ATTACHED has been closed. -/
theorem settle_reattach_port (s : State) :
    portCore (settle (reattach s)).cxl = portCore { s.cxl with attached := attachedNow s } :=
  (settle_keepsPort _).port.trans (reattach_port s)

theorem reattach_attached (s : State) : (settle (reattach s)).cxl.attached = attachedNow (settle (reattach s)) := by
  have hport := settle_reattach_port s
  have hotp : (settle (reattach s)).otp = s.otp := by rw [settle_otp, (reattach_only s).same .otp rfl]
  have hatt := congrArg CxlDyn.attached hport
  refine Eq.trans hatt ?_
  rw [attachedNow_congr (s := onCxl (fun c => { c with attached := attachedNow s }) s) hport hotp]
  rfl

/-- A field of the port's kept view, other than ATTACHED, after ATTACHED has been judged. -/
theorem reattach_field {α : Type} {f : CxlDyn → α} (hf : ∀ (c : CxlDyn) (b : Bool), f (portCore { c with attached := b }) = f c)
    (s : State) : f (settle (reattach s)).cxl = f s.cxl := by
  rw [← hf s.cxl (attachedNow s), ← settle_reattach_port s, ← hf (settle (reattach s)).cxl (settle (reattach s)).cxl.attached]

theorem tellLink_keepsPort (n : Nat) (s : State) : KeepsPort s (tellLink n s) := raise_keepsPort ..

/-! ## Events of the port while the store keeps no reserve -/

theorem issueOne_stored {s t : State} (h : issueOne s = some t) : t.ev.store = s.ev.store ∧ t.ev.full = s.ev.full := by
  unfold issueOne at h
  dsimp only at h
  split at h
  · split at h
    · split at h
      · cases h
      · cases h; exact ⟨rfl, rfl⟩
    · cases h
  · cases h

theorem pumpHost_stored (k : Nat) (s : State) : (pumpHost k s).ev.store = s.ev.store ∧ (pumpHost k s).ev.full = s.ev.full := by
  induction k generalizing s with
  | zero => exact ⟨rfl, rfl⟩
  | succ k ih =>
    cases h : issueOne s with
    | none => simp only [pumpHost, h, and_self]
    | some t =>
      obtain ⟨hstore, hfull⟩ := ih t
      obtain ⟨ht, hk⟩ := issueOne_stored h
      simp only [pumpHost, h]
      exact ⟨hstore.trans ht, hfull.trans hk⟩

theorem pumpChain_stored (k : Nat) (s : State) : (pumpChain k s).ev.store = s.ev.store ∧ (pumpChain k s).ev.full = s.ev.full := by
  induction k generalizing s with
  | zero => exact ⟨rfl, rfl⟩
  | succ k ih =>
    rw [pumpChain]
    split
    · split
      · next e _ =>
        have hsent (ptype : BitVec 8) (dst arg : Nat) (ws : List (BitVec 64)) : (cwSend .down ptype dst arg ws s).ev = s.ev :=
          (cwSend_only ..).same .ev rfl
        obtain ⟨hstore, hfull⟩ := ih (onEv (fun v => { v with
          chainSent := e.seq + 1, chainIssued := if (e.seq != s.ev.chainIssued) = true then v.chainIssued else e.seq + 1 })
          (cwSend .down 0x50 (s.cw.addr + 1) 0 (eventWords (eventWord (e.seq != s.ev.chainIssued) e)) s))
        rw [onEv_ev, hsent] at hstore hfull
        exact ⟨hstore, hfull⟩
      · exact ⟨rfl, rfl⟩
    · exact ⟨rfl, rfl⟩

theorem record_stored (src : Nat) (code : BitVec 16) (p : Nat) (s : State) :
    (record src code p s).ev.full = s.ev.full ∧ (record src code p s).ev.store.length ≤ s.ev.store.length + 1 := by
  unfold record
  extract_lets e keep s1
  obtain ⟨hc, hcf⟩ := pumpChain_stored 1 (pumpHost 1 s1)
  obtain ⟨hh, hhf⟩ := pumpHost_stored 1 s1
  rw [hc, hh, hcf, hhf]
  refine ⟨rfl, ?_⟩
  simp only [s1, onEv_ev]
  split
  · simp
  · exact Nat.le_succ _

/-- CXL_LINK takes one record of a store that keeps no reserve. -/
theorem tellLink_stored (n : Nat) {s : State} (hfull : s.ev.full = false) (hroom : s.ev.store.length + 256 < 4096) :
    (tellLink n s).ev.full = false ∧ (tellLink n s).ev.store.length ≤ s.ev.store.length + 1 := by
  have hev : (signal 6 s).ev = s.ev := signal_ev 6 s
  have hkept : ¬(((signal 6 s).ev.full || decide (storeFree (signal 6 s) ≤ 256)) = true) := by
    simp only [storeFree, hev, hfull, Bool.false_or, decide_eq_true_eq]
    omega
  have hcode : (evCxlLink == evCxlLink || evCxlLink == evCxlError) = true := by decide
  have hgroup : ¬((groupOf srcCxl == 6) = true) := by decide
  have hsrc : ¬((srcCxl == srcEvents) = true) := by decide
  have htold : tellLink n s = record srcCxl evCxlLink (cxlLinkWord n s) (signal 6 s) := by
    simp only [tellLink, raise, if_pos hcode, masked_srcCxl, Bool.false_eq_true, if_false, if_neg hgroup, if_neg hsrc, if_neg hkept]
  obtain ⟨hkeeps, hlen⟩ := record_stored srcCxl evCxlLink (cxlLinkWord n s) (signal 6 s)
  rw [htold]
  rw [hev] at hkeeps hlen
  exact ⟨hkeeps.trans hfull, hlen⟩

/-! ## The write-back of a CXL Reset (R368, cause 3) -/

theorem releaseTold_keepsPort (w : RelWrite) (written : Bool) (s : State) : KeepsPort s (releaseTold w written s) := by
  unfold releaseTold
  split
  · split
    · have hpop (r : List LatchItem) : KeepsPort s (onCom (fun c => { c with latchQ := r }) s) := ⟨rfl, rfl⟩
      exact ((hpop _).trans (raiseRelease_keepsPort ..)).trans (runLatchQ_keepsPort _)
    · exact keepsPort_refl s
  · exact keepsPort_refl s

theorem releaseTold_calm {s : State} (h : s.com.latchQ = []) (w : RelWrite) (written : Bool) : releaseTold w written s = s := by
  simp only [releaseTold, h]

theorem relEnded_keepsPort (s : State) : KeepsPort s (relEnded s) :=
  (keepsPort_of_only (issueRel_only 8 s) rfl).trans (pumpHost_keepsPort 4096 _)

theorem fenceWritten_keepsPort (w : RelWrite) (s : State) : KeepsPort s (fenceWritten w s) := by
  have herase : KeepsPort s (onCom (fun c => { c with relWrites := c.relWrites.erase w }) s) := ⟨rfl, rfl⟩
  exact ((herase.trans (releaseTold_keepsPort ..)).trans (keepsPort_of_only (rereadOwn_only ..) rfl)).trans (relEnded_keepsPort _)

theorem readLine_latchQ (line : Nat) (s : State) : (readLine line s).com.latchQ = s.com.latchQ := by
  unfold readLine
  extract_lets keep up s1
  split <;> rfl

theorem issueRel_latchQ (k : Nat) (s : State) : (issueRel k s).com.latchQ = s.com.latchQ := by
  induction k generalizing s with
  | zero => rfl
  | succ k ih =>
    rw [issueRel]
    split
    · split
      · rw [ih, (putFence_only ..).same .com rfl]; rfl
      · rfl
    · rfl

/-- Nothing waits in the LATCH, and the store's records and its reserve are as before. -/
structure StaysCalm (s t : State) : Prop where
  latchQ : t.com.latchQ = []
  store : t.ev.store = s.ev.store
  full : t.ev.full = s.ev.full

theorem fenceWritten_calm {s : State} (h : s.com.latchQ = []) (w : RelWrite) : StaysCalm s (fenceWritten w s) := by
  let s1 := onCom (fun c => { c with relWrites := c.relWrites.erase w }) s
  have hrun : fenceWritten w s = pumpHost 4096 (issueRel 8 (rereadOwn w.addr s1)) := by
    show relEnded (rereadOwn w.addr (releaseTold w true s1)) = _
    rw [releaseTold_calm (s := s1) h]
    rfl
  have hread : (rereadOwn w.addr s1).com.latchQ = [] := by
    unfold rereadOwn
    split
    · rw [readLine_latchQ]; exact h
    · exact h
  have hev : (issueRel 8 (rereadOwn w.addr s1)).ev = s.ev := by
    rw [(issueRel_only ..).same .ev rfl, (rereadOwn_only ..).same .ev rfl]; rfl
  obtain ⟨hstore, hfull⟩ := pumpHost_stored 4096 (issueRel 8 (rereadOwn w.addr s1))
  rw [hrun]
  refine ⟨?_, by rw [hstore, hev], by rw [hfull, hev]⟩
  rw [(pumpHost_only ..).same .com rfl, issueRel_latchQ, hread]

theorem fencesWritten_calm {s : State} (h : s.com.latchQ = []) (l : List RelWrite) : StaysCalm s (forEach l fenceWritten s) := by
  induction l generalizing s with
  | nil => exact ⟨h, rfl, rfl⟩
  | cons w r ih =>
    obtain ⟨hq, hstore, hfull⟩ := fenceWritten_calm h w
    obtain ⟨kq, kstore, kfull⟩ := ih hq
    exact ⟨kq, kstore.trans hstore, kfull.trans hfull⟩

theorem fencesWritten_keepsPort (l : List RelWrite) (s : State) : KeepsPort s (forEach l fenceWritten s) := by
  induction l generalizing s with
  | nil => exact keepsPort_refl s
  | cons w r ih => exact (fenceWritten_keepsPort w s).trans (ih _)

theorem writeBack_keepsPort (s : State) : KeepsPort s (writeBack s) := by
  have h := fencesWritten_keepsPort (s.com.relWrites.filter fun w => w.st == .issued) s
  exact ⟨h.port, h.ring⟩

theorem writeBack_calm {s : State} (h : s.com.latchQ = []) : StaysCalm s (writeBack s) := by
  obtain ⟨hq, hstore, hfull⟩ := fencesWritten_calm h (s.com.relWrites.filter fun w => w.st == .issued)
  exact ⟨hq, hstore, hfull⟩

/-! ## The causes of a host detach (R368) -/

section
variable {cause : Nat} {s : State}

/-- A detach after a change of the port alone, that leaves ATTACHED and what the causes 0 to 3 keep. -/
theorem detach_onCxl (hcause : cause < 8) (f : CxlDyn → CxlDyn) (hatt : (f s.cxl).attached = s.cxl.attached)
    (hcond : cause ≤ 3 → (f s.cxl).bme = s.cxl.bme ∧ (f s.cxl).cacheEn = s.cxl.cacheEn) :
    Detached cause s (settle (detach cause (onCxl f s))) :=
  detached_settle (detach_detached hcause rfl rfl hatt hcond fun hq hf hr =>
    ⟨hq, hf, Nat.lt_of_succ_lt (Nat.lt_of_succ_lt hr)⟩)

end

/-- A field of the port's kept view, other than ATTACHED, after a detach. -/
theorem detach_field {α : Type} {f : CxlDyn → α} (hf : ∀ (c : CxlDyn) (b : Bool), f (portCore { c with attached := b }) = f c)
    (cause : Nat) (s : State) : f (settle (detach cause s)).cxl = f (hostStopped cause s).cxl := by
  rw [← hf (hostStopped cause s).cxl false, ← detach_port cause s, ← (settle_keepsPort (detach cause s)).port,
    ← hf (settle (detach cause s)).cxl (settle (detach cause s)).cxl.attached]

theorem hostStopped_link (cause : Nat) (s : State) : (hostStopped cause s).cxl.link = s.cxl.link := by
  unfold hostStopped
  split <;> rfl

theorem hostStopped_d0 (cause : Nat) (s : State) : (hostStopped cause s).cxl.d0 = s.cxl.d0 := by
  unfold hostStopped
  split <;> rfl

theorem hostStopped_err (cause : Nat) (s : State) : (hostStopped cause s).cxl.err = s.cxl.err := by
  unfold hostStopped
  split <;> rfl

theorem hostStopped_keys (cause : Nat) (s : State) :
    (hostStopped cause s).cxl.ideIo = s.cxl.ideIo ∧ (hostStopped cause s).cxl.ideCache = s.cxl.ideCache := by
  unfold hostStopped
  split <;> exact ⟨rfl, rfl⟩

/-! ## The link (R351, R370) -/

/-- The state in which the link has come up or been trained again: CXL_LINK is told where it changed. -/
def linkTold (l : LinkState) (s : State) : State :=
  let s1 := onCxl (fun c => { c with link := l, retrains := if s.cxl.link.l0 then c.retrains + 1 else c.retrains }) s
  if l == s.cxl.link then s1 else tellLink (if s.cxl.link.l0 then 2 else 1) s1

theorem linkTold_port (l : LinkState) (s : State) : portCore (linkTold l s).cxl =
    portCore { s.cxl with link := l, retrains := if s.cxl.link.l0 then s.cxl.retrains + 1 else s.cxl.retrains } := by
  unfold linkTold
  extract_lets s1
  split
  · rfl
  · exact (tellLink_keepsPort _ s1).port

theorem linkTold_only (l : LinkState) (s : State) : Only [.chans, .safety, .cxl, .ev, .out] (linkTold l s) s := by
  unfold linkTold
  extract_lets s1
  have h1 : Only [.chans, .safety, .cxl, .ev, .out] s1 s := only_mono (only_onCxl ..) rfl
  split
  · exact h1
  · exact only_step (tellLink_only ..) rfl h1

/-- A link that comes up, or settles in CXL mode at a speed that carries host traffic, leads to an attachment at most. -/
theorem linkChange_settles {l : LinkState} {s : State} (hen : s.boot.straps.cxlEn = true) (hl0 : l.l0 = true)
    (hw : widthOk l.width = true) (h : s.cxl.link.l0 = false ∨ (l.cxlMode = true ∧ 0 < l.speed.val)) :
    linkChange l s = reattach (linkTold l s) := by
  have hstays : ¬((s.cxl.link.l0 && cxlUp s && !cxlUp (linkTold l s)) = true) := by
    rcases h with hdown | ⟨hmode, hspeed⟩
    · simp [hdown]
    · have hlink : (linkTold l s).cxl.link = l := by
        have hport := congrArg CxlDyn.link (linkTold_port l s)
        exact hport
      simp [cxlUp, hlink, hl0, hmode, hspeed]
  unfold linkChange
  extract_lets old s1 s2
  have h2 : s2 = linkTold l s := rfl
  rw [h2]
  simp only [hen, hl0, hw, Bool.not_true, Bool.false_eq_true, if_false]
  exact if_neg hstays

theorem linkChange_narrow {l : LinkState} (s : State) (hl0 : l.l0 = true) (hw : widthOk l.width = false) : linkChange l s = s := by
  simp only [linkChange, hl0, hw, Bool.not_true, Bool.not_false, Bool.false_eq_true, if_false, if_true, ite_self]

theorem linkChange_strapped (l : LinkState) {s : State} (hen : s.boot.straps.cxlEn = false) : linkChange l s = s := by
  simp only [linkChange, hen, Bool.not_false, if_true]

theorem linkChange_lost {l : LinkState} {s : State} (hen : s.boot.straps.cxlEn = true) (hl0 : l.l0 = false) :
    linkChange l s = linkDown s := by
  simp only [linkChange, hen, hl0, Bool.not_true, Bool.not_false, Bool.false_eq_true, if_false, if_true]

/-- The link has gone down, and CXL_LINK is told. -/
def linkLost (s : State) : State := tellLink 0 (onCxl (fun c => { c with link := CxlDyn.reset.link }) s)

theorem linkDown_up {s : State} (h : s.cxl.link.l0 = true) : linkDown s = detach 0 (linkLost s) := if_pos h

theorem linkLost_only (s : State) : Only [.chans, .safety, .cxl, .ev, .out] (linkLost s) s :=
  only_step (tellLink_only ..) rfl (only_mono (only_onCxl ..) rfl)

theorem linkLost_port (s : State) : portCore (linkLost s).cxl = portCore { s.cxl with link := CxlDyn.reset.link } :=
  (tellLink_keepsPort ..).port

/-- A lost link is a host detach with cause 0. -/
theorem linkDown_detached {s : State} (h : s.cxl.link.l0 = true) :
    Detached 0 s (settle (linkDown s)) ∧ (settle (linkDown s)).cxl.link.l0 = false := by
  have honly := linkLost_only s
  have hport := linkLost_port s
  have hcom : (linkLost s).com = s.com := honly.same .com rfl
  have hatt := congrArg CxlDyn.attached hport
  have hbme := congrArg CxlDyn.bme hport
  have hcache := congrArg CxlDyn.cacheEn hport
  have hlink := congrArg CxlDyn.link hport
  rw [linkDown_up h]
  refine ⟨detached_settle (detach_detached (by decide) (honly.same .queues rfl) (honly.same .cfg rfl) hatt
    (fun _ => ⟨hbme, hcache⟩) fun hq hf hr => ?_), ?_⟩
  · obtain ⟨hfull, hlen⟩ := tellLink_stored 0 (s := onCxl (fun c => { c with link := CxlDyn.reset.link }) s) hf
      (Nat.lt_of_succ_lt (Nat.lt_of_succ_lt hr))
    refine ⟨hcom ▸ hq, hfull, ?_⟩
    have hlen' : (linkLost s).ev.store.length ≤ s.ev.store.length + 1 := hlen
    omega
  · rw [detach_field (f := fun c => c.link.l0) (fun _ _ => rfl), hostStopped_link]
    exact congrArg LinkState.l0 hlink

/-! ## Commands that judge ATTACHED -/

/-- A command that judges ATTACHED after a change of what R369 reads. -/
theorem ends_of_reattach {c : Instr} {s u : State} {f : List Part} {P : State → Prop} (h : exec c s = .next (settle (reattach u)))
    (hf : [Part.com, .comp, .heads, .chans, .safety, .cxl, .ev, .cw, .out].all f.contains = true) (hu : Only f u s)
    (hp : (settle (reattach u)).cxl.attached = attachedNow (settle (reattach u)) → P (settle (reattach u))) : Ends c s f P := by
  have hmem {x : Part} (hx : x ∈ [Part.com, .comp, .heads, .chans, .safety, .cxl, .ev, .cw, .out]) : f.contains x = true :=
    List.all_eq_true.mp hf x hx
  refine ends_of h (only_step (reattach_only u) ?_ hu) ?_ (hp (reattach_attached u))
  · simpa [holdsAll] using hf
  · simpa [holdsAll] using And.intro (hmem (x := .cxl) (by simp)) (hmem (x := .out) (by simp))

/-! ## The rows -/

theorem configure_busMaster {s : State} (h : s.cxl.cfgReady = true) (on : Bool) : configure (.busMaster on) s =
    if on then reattach (onCxl (fun c => { c with bme := true }) (emit (.config false 0) s))
    else detach 4 (onCxl (fun c => { c with bme := false }) (emit (.config false 0) s)) := by
  simp only [configure, h, Bool.not_true, Bool.false_eq_true, if_false]
  rfl

theorem configure_cacheEnable {s : State} (h : s.cxl.cfgReady = true) (on : Bool) : configure (.cacheEnable on) s =
    if on then reattach (onCxl (fun c => { c with cacheEn := true }) (emit (.config false 0) s))
    else detach 4 (onCxl (fun c => { c with cacheEn := false }) (emit (.config false 0) s)) := by
  simp only [configure, h, Bool.not_true, Bool.false_eq_true, if_false]
  rfl

theorem configure_powerD0 {s : State} (h : s.cxl.cfgReady = true) : configure .powerD0 s =
    reattach (onCxl (fun c => { c with d0 := true }) (emit (.config false 0) s)) := by
  simp only [configure, h, Bool.not_true, Bool.false_eq_true, if_false]
  rfl

theorem configure_notReady {s : State} (h : s.cxl.cfgReady = false) (r : CfgReq) : configure r s = emit (.config true 0) s := by
  simp only [configure, h, Bool.not_false, if_true]

theorem programKey_outside {secured : Bool} {s : State} (h : secured = false ∨ s.cxl.spdm ≠ 5) (f : CxlDyn → CxlDyn) :
    programKey secured f s = emit (.doe 0x7F []) s := by
  refine if_neg ?_
  rcases h with rfl | h
  · simp
  · simp [h]

theorem programKey_session {s : State} (h : s.cxl.spdm = 5) (f : CxlDyn → CxlDyn) :
    programKey true f s = reattach (emit (.doe 0x7E []) (onCxl f s)) := by
  refine if_pos ?_
  simp [h]

/-- The conditions and the answers: what each row of the link, of the configuration space and of IDE comes down to. -/
theorem attachment_rows (s : State) :
    let f : List Part := [.com, .comp, .heads, .chans, .safety, .cxl, .ev, .cw, .out]
    (∀ v, Ends (.hostActive v) s f fun t => t.cxl.hostActive = v ∧ t.cxl.attached = attachedNow t ∧ t.cxl.link = s.cxl.link) ∧
    (∀ l : LinkState, s.boot.straps.cxlEn = true → l.l0 = true → widthOk l.width = true → s.cxl.link.l0 = false →
      Ends (.cxlLink l) s f fun t => t.cxl.link = l ∧ t.cxl.attached = attachedNow t ∧ t.cxl.retrains = s.cxl.retrains) ∧
    (∀ l : LinkState, s.boot.straps.cxlEn = true → l.l0 = true → widthOk l.width = true → s.cxl.link.l0 = true → l.cxlMode = true →
      0 < l.speed.val →
      Ends (.cxlLink l) s f fun t => t.cxl.link = l ∧ t.cxl.attached = attachedNow t ∧ t.cxl.retrains = s.cxl.retrains + 1) := by
  intro f
  have htold (l : LinkState) : Only f (linkTold l s) s := only_mono (linkTold_only l s) rfl
  refine ⟨fun v => ?_, fun l hen hl0 hw hdown => ?_, fun l hen hl0 hw hup hmode hspeed => ?_⟩
  · refine ends_of_reattach (exec_of_effect rfl rfl) rfl (only_mono (only_onCxl ..) rfl) fun hatt => ⟨?_, hatt, ?_⟩
    · exact reattach_field (f := CxlDyn.hostActive) (fun _ _ => rfl) _
    · exact reattach_field (f := CxlDyn.link) (fun _ _ => rfl) _
  · have hport := linkTold_port l s
    have hlink := congrArg CxlDyn.link hport
    have hret := congrArg CxlDyn.retrains hport
    refine ends_of_reattach (exec_of_effect rfl (linkChange_settles hen hl0 hw (.inl hdown))) rfl (htold l) fun hatt => ⟨?_, hatt, ?_⟩
    · exact (reattach_field (f := CxlDyn.link) (fun _ _ => rfl) _).trans hlink
    · exact (reattach_field (f := CxlDyn.retrains) (fun _ _ => rfl) _).trans (hret.trans (by
        show (if s.cxl.link.l0 = true then _ else _) = _
        rw [if_neg (Bool.eq_false_iff.mp hdown)]))
  · have hport := linkTold_port l s
    have hlink := congrArg CxlDyn.link hport
    have hret := congrArg CxlDyn.retrains hport
    refine ends_of_reattach (exec_of_effect rfl (linkChange_settles hen hl0 hw (.inr ⟨hmode, hspeed⟩))) rfl (htold l)
      fun hatt => ⟨?_, hatt, ?_⟩
    · exact (reattach_field (f := CxlDyn.link) (fun _ _ => rfl) _).trans hlink
    · exact (reattach_field (f := CxlDyn.retrains) (fun _ _ => rfl) _).trans (hret.trans (by
        show (if s.cxl.link.l0 = true then _ else _) = _
        rw [if_pos hup]))

/-- The rows of the configuration space once it is ready. -/
theorem configuration_rows {s : State} (h : s.cxl.cfgReady = true) :
    let f : List Part := [.com, .comp, .heads, .chans, .safety, .cxl, .ev, .cw, .out]
    Ends (.configurationRequest (.busMaster true)) s f (fun t => t.cxl.bme = true ∧ t.cxl.attached = attachedNow t) ∧
    Ends (.configurationRequest (.cacheEnable true)) s f (fun t => t.cxl.cacheEn = true ∧ t.cxl.attached = attachedNow t) ∧
    Ends (.configurationRequest .powerD0) s f (fun t => t.cxl.d0 = true ∧ t.cxl.attached = attachedNow t) ∧
    Ends (.configurationRequest (.busMaster false)) s (.queues :: f) (fun t => Detached 4 s t ∧ t.cxl.bme = false) ∧
    Ends (.configurationRequest (.cacheEnable false)) s (.queues :: f) (fun t => Detached 4 s t ∧ t.cxl.cacheEn = false) := by
  intro f
  have hchange {g : List Part} (k : CxlDyn → CxlDyn) (hg : holdsAll g [.cxl, .out] = true) :
      Only g (onCxl k (emit (.config false 0) s)) s := by
    have hout : Only [.out] (emit (.config false 0) s) s := only_emit ..
    exact only_mono (only_step (only_onCxl k _) rfl (only_mono hout rfl) : Only [.cxl, .out] _ _) hg
  refine ⟨?_, ?_, ?_, ?_, ?_⟩
  · exact ends_of_reattach (exec_of_effect rfl (configure_busMaster h true)) rfl (hchange _ rfl) fun hatt =>
      ⟨reattach_field (f := CxlDyn.bme) (fun _ _ => rfl) _, hatt⟩
  · exact ends_of_reattach (exec_of_effect rfl (configure_cacheEnable h true)) rfl (hchange _ rfl) fun hatt =>
      ⟨reattach_field (f := CxlDyn.cacheEn) (fun _ _ => rfl) _, hatt⟩
  · exact ends_of_reattach (exec_of_effect rfl (configure_powerD0 h)) rfl (hchange _ rfl) fun hatt =>
      ⟨reattach_field (f := CxlDyn.d0) (fun _ _ => rfl) _, hatt⟩
  · refine ends_of (exec_of_effect rfl (configure_busMaster h false)) (only_step (detach_only ..) rfl (hchange _ rfl)) rfl
      ⟨detach_onCxl (s := emit (.config false 0) s) (by decide) _ rfl (fun h => absurd h (by decide)), ?_⟩
    exact (detach_field (f := CxlDyn.bme) (fun _ _ => rfl) ..).trans (hostStopped_conditions ..).1
  · refine ends_of (exec_of_effect rfl (configure_cacheEnable h false)) (only_step (detach_only ..) rfl (hchange _ rfl)) rfl
      ⟨detach_onCxl (s := emit (.config false 0) s) (by decide) _ rfl (fun h => absurd h (by decide)), ?_⟩
    exact (detach_field (f := CxlDyn.cacheEn) (fun _ _ => rfl) ..).trans (hostStopped_conditions ..).2

/-- The rows of IDE over the secured session. -/
theorem ide_rows {s : State} (h : s.cxl.spdm = 5) (k : BitVec 256) :
    let f : List Part := [.com, .comp, .heads, .chans, .safety, .cxl, .ev, .cw, .out]
    Ends (.ideKm true k) s f (fun t => t.cxl.ideIo = some k ∧ t.cxl.ideCache = s.cxl.ideCache ∧ t.cxl.attached = attachedNow t) ∧
    Ends (.cxlKp true k) s f (fun t => t.cxl.ideCache = some k ∧ t.cxl.ideIo = s.cxl.ideIo ∧ t.cxl.attached = attachedNow t) := by
  intro f
  have hkey (g : CxlDyn → CxlDyn) : Only f (emit (.doe 0x7E []) (onCxl g s)) s :=
    only_step (only_emit ..) rfl (only_mono (only_onCxl ..) rfl)
  constructor
  · exact ends_of_reattach (exec_of_effect rfl (programKey_session h _)) rfl (hkey _) fun hatt =>
      ⟨reattach_field (f := CxlDyn.ideIo) (fun _ _ => rfl) _, reattach_field (f := CxlDyn.ideCache) (fun _ _ => rfl) _, hatt⟩
  · exact ends_of_reattach (exec_of_effect rfl (programKey_session h _)) rfl (hkey _) fun hatt =>
      ⟨reattach_field (f := CxlDyn.ideCache) (fun _ _ => rfl) _, reattach_field (f := CxlDyn.ideIo) (fun _ _ => rfl) _, hatt⟩

theorem getLsbD_or_bit {x : BitVec 7} {i : Nat} (hi : i < 7) : (x ||| BitVec.ofNat 7 (2 ^ i)).getLsbD i = true := by
  rw [ofNat_two_pow, BitVec.getLsbD_or, BitVec.getLsbD_twoPow]
  simp [hi]

/-- The causes of a host detach. -/
theorem detach_rows (s : State) :
    let f : List Part := [.com, .comp, .heads, .chans, .safety, .cxl, .queues, .ev, .out]
    Ends .hotReset s f (Detached 1 s) ∧ Ends .flr s f (Detached 2 s) ∧ Ends .cxlReset s f (Detached 3 s) ∧
    Ends (.busMasterEnableCleared false) s f (fun t => Detached 4 s t ∧ t.cxl.bme = false) ∧
    Ends (.busMasterEnableCleared true) s f (fun t => Detached 4 s t ∧ t.cxl.cacheEn = false) ∧
    Ends .d3hotEntry s f (fun t => Detached 5 s t ∧ t.cxl.d0 = false) ∧
    Ends .viral s f (fun t => Detached 6 s t ∧ t.cxl.err.getLsbD 5 = true) ∧
    Ends .ideIntegrityFailure s f (fun t => Detached 7 s t ∧ t.cxl.err.getLsbD 6 = true ∧ t.cxl.ideIo = none ∧ t.cxl.ideCache = none) ∧
    (s.boot.straps.cxlEn = true → s.cxl.link.l0 = true → Ends .perstN s f (fun t => Detached 0 s t ∧ t.cxl.link.l0 = false)) ∧
    (∀ l, s.boot.straps.cxlEn = true → s.cxl.link.l0 = true → l.l0 = false →
      Ends (.cxlLink l) s f (fun t => Detached 0 s t ∧ t.cxl.link.l0 = false)) := by
  intro f
  have hplain {cause : Nat} (hcause : cause < 8) : Detached cause s (settle (detach cause s)) :=
    detach_onCxl hcause id rfl (fun _ => ⟨rfl, rfl⟩)
  have honly (cause : Nat) (k : CxlDyn → CxlDyn) : Only f (detach cause (onCxl k s)) s :=
    only_step (detach_only ..) rfl (only_mono (only_onCxl ..) rfl)
  have hdown : Only f (linkDown s) s := linkDown_only s
  have hhigh {c : Nat} {p : Prop} (hc : 3 < c) (h : c ≤ 3) : p := absurd h (Nat.not_le.mpr hc)
  have hwritten : Detached 3 s (settle (detach 3 (writeBack s))) := by
    have hback := writeBack_only s
    have hport := (writeBack_keepsPort s).port
    have hatt := congrArg CxlDyn.attached hport
    have hbme := congrArg CxlDyn.bme hport
    have hcache := congrArg CxlDyn.cacheEn hport
    refine detached_settle (detach_detached (by decide) (hback.same .queues rfl) (hback.same .cfg rfl) hatt
      (fun _ => ⟨hbme, hcache⟩) fun hq hf hr => ?_)
    obtain ⟨kq, kstore, kfull⟩ := writeBack_calm hq
    exact ⟨kq, kfull.trans hf, by rw [kstore]; omega⟩
  refine ⟨?_, ?_, ?_, ?_, ?_, ?_, ?_, ?_, fun hen hup => ?_, fun l hen hup hl0 => ?_⟩
  · exact ends_of (exec_of_effect rfl rfl) (detach_only 1 s) rfl (hplain (by decide))
  · exact ends_of (exec_of_effect rfl rfl) (detach_only 2 s) rfl (hplain (by decide))
  · exact ends_of (exec_of_effect rfl rfl) (only_step (detach_only 3 _) rfl (only_mono (writeBack_only s) rfl)) rfl hwritten
  · refine ends_of (exec_of_effect rfl rfl) (honly 4 _) rfl ⟨detach_onCxl (by decide) _ rfl (hhigh (by decide)), ?_⟩
    exact (detach_field (f := CxlDyn.bme) (fun _ _ => rfl) ..).trans (hostStopped_conditions ..).1
  · refine ends_of (exec_of_effect rfl rfl) (honly 4 _) rfl ⟨detach_onCxl (by decide) _ rfl (hhigh (by decide)), ?_⟩
    exact (detach_field (f := CxlDyn.cacheEn) (fun _ _ => rfl) ..).trans (hostStopped_conditions ..).2
  · refine ends_of (exec_of_effect rfl rfl) (honly 5 _) rfl ⟨detach_onCxl (by decide) _ rfl (hhigh (by decide)), ?_⟩
    exact (detach_field (f := CxlDyn.d0) (fun _ _ => rfl) ..).trans (hostStopped_d0 ..)
  · refine ends_of (exec_of_effect rfl (congrArg (detach 6) (cxlError_eq 5 15 0 s))) (honly 6 _) rfl
      ⟨detach_onCxl (by decide) _ rfl (hhigh (by decide)), ?_⟩
    rw [detach_field (f := CxlDyn.err) (fun _ _ => rfl), hostStopped_err]
    exact getLsbD_or_bit (i := 5) (by decide)
  · have hlogged : onCxl (fun c => { c with ideIo := none, ideCache := none }) (cxlError 4 15 0 s) = onCxl (fun c => { c with
        err := errAfter 4 c.err, aer := aerAfter 4 c.aer, errs := c.errs.set 4 (errCount c.errs[4] 15 0)
        ideIo := none, ideCache := none }) s := by
      rw [cxlError_eq]; rfl
    refine ends_of (exec_of_effect rfl (congrArg (detach 7) hlogged)) (honly 7 _) rfl
      ⟨detach_onCxl (by decide) _ rfl (hhigh (by decide)), ?_, ?_, ?_⟩
    · rw [detach_field (f := CxlDyn.err) (fun _ _ => rfl), hostStopped_err]
      exact getLsbD_or_bit (i := 6) (by decide)
    · exact (detach_field (f := CxlDyn.ideIo) (fun _ _ => rfl) ..).trans (hostStopped_keys ..).1
    · exact (detach_field (f := CxlDyn.ideCache) (fun _ _ => rfl) ..).trans (hostStopped_keys ..).2
  · exact ends_of (exec_of_effect rfl (if_pos hen)) hdown rfl (linkDown_detached hup)
  · exact ends_of (exec_of_effect rfl (linkChange_lost hen hl0)) hdown rfl (linkDown_detached hup)

/-- Settles O15, row by row: what changes R369's conditions judges ATTACHED anew, and each cause of R368 detaches. -/
theorem attachmentFollowsItsConditions : Obligations.AttachmentFollowsItsConditions := by
  unfold Obligations.AttachmentFollowsItsConditions
  refine ⟨fun s => ?_, detach_rows⟩
  intro f
  obtain ⟨hactive, hcomes, hagain⟩ := attachment_rows s
  refine ⟨hactive, hcomes, fun l hl0 hw => ?_, hagain, fun l hen => ?_, fun hen => ?_, fun r hready => ?_, fun hready => ?_,
    fun secured k h => ⟨?_, ?_⟩, fun k h => ide_rows h k⟩
  · exact exec_of_effect rfl (linkChange_narrow s hl0 hw)
  · exact exec_of_effect rfl (linkChange_strapped l hen)
  · exact exec_of_effect rfl (if_neg (Bool.eq_false_iff.mp hen))
  · exact exec_of_effect rfl (configure_notReady hready r)
  · obtain ⟨hbme, hcache, hd0, hnobme, hnocache⟩ := configuration_rows hready
    refine ⟨?_, ?_, ?_, hbme, hcache, hd0, hnobme, hnocache⟩
    · exact exec_of_effect rfl (by simp only [configure, hready]; rfl)
    · exact exec_of_effect rfl (by simp only [configure, hready]; rfl)
    · exact exec_of_effect rfl (by simp only [configure, hready]; rfl)
  · exact exec_of_effect rfl (programKey_outside h _)
  · exact exec_of_effect rfl (programKey_outside h _)

end Sys2Proof.Machine

/-! # Port services (R361, R365, R366, R371) -/

namespace Sys2Proof.Machine

/-- A logged error, once its command has been closed. -/
theorem settle_cxlError (k : Fin 7) (traffic a : Nat) (s : State) :
    (settle (cxlError k traffic a s)).cxl.err = errAfter k s.cxl.err ∧
    (settle (cxlError k traffic a s)).cxl.errs = s.cxl.errs.set k (errCount s.cxl.errs[k] traffic a) ∧
    (settle (cxlError k traffic a s)).cxl.attached = s.cxl.attached := by
  rw [cxlError_eq]
  have hkept := (settle_keepsPort (onCxl (fun c => { c with
    err := errAfter k c.err, aer := aerAfter k c.aer, errs := c.errs.set k (errCount c.errs[k] traffic a) }) s))
  have herr := congrArg CxlDyn.err hkept.port
  exact ⟨herr, hkept.errs, hkept.attached⟩

theorem errAfter_some {k : Fin 7} {b : Nat} (h : errBit k.val = some b) (x : BitVec 7) : errAfter k x = x ||| BitVec.ofNat 7 (2 ^ b) := by
  simp only [errAfter, h]

theorem errAfter_none {k : Fin 7} (h : errBit k.val = none) (x : BitVec 7) : errAfter k x = x := by
  simp only [errAfter, h]

theorem cxlErrors_logged (k : Fin 7) (tr : Traffic) (a : Addr) (s : State) : Ends (.aerErrorLog k tr a) s [.cxl, .out] fun t =>
    (∀ b, errBit k.val = some b → t.cxl.err = s.cxl.err ||| BitVec.ofNat 7 (2 ^ b)) ∧
    (errBit k.val = none → t.cxl.err = s.cxl.err) ∧
    t.cxl.errs[k].1 = s.cxl.errs[k].1 + 1 ∧
    (s.cxl.errs[k].1 = 0 → t.cxl.errs[k].2 = (tr.val, a.toNat)) ∧ (s.cxl.errs[k].1 ≠ 0 → t.cxl.errs[k].2 = s.cxl.errs[k].2) ∧
    (∀ j, j ≠ k → t.cxl.errs[j] = s.cxl.errs[j]) ∧ t.cxl.attached = s.cxl.attached := by
  obtain ⟨herr, herrs, hatt⟩ := settle_cxlError k tr.val a.toNat s
  have hself : (s.cxl.errs.set k (errCount s.cxl.errs[k] tr.val a.toNat))[k] = errCount s.cxl.errs[k] tr.val a.toNat := by simp
  refine ends_of (exec_of_effect rfl rfl) (only_mono (cxlError_only ..) rfl) rfl
    ⟨fun b hb => ?_, fun hnone => ?_, ?_, fun hfirst => ?_, fun hlater => ?_, fun j hj => ?_, hatt⟩
  · rw [herr, errAfter_some hb]
  · rw [herr, errAfter_none hnone]
  · rw [herrs, hself, errCount_counts]
  · rw [herrs, hself, errCount_first hfirst]
  · rw [herrs, hself, errCount_later hlater]
  · have hne : k.val ≠ j.val := fun h => hj (Fin.ext h.symm)
    rw [herrs]
    simp [Vector.getElem_set_ne, hne]

/-! ## SPDM (R366) -/

section
variable {s : State} {least : Nat} {ok : Bool}

/-- A request is answered where the connection has come as far as it needs. -/
theorem spdmServe_answers (hready : s.cxl.cfgReady = true) (hleast : least ≤ s.cxl.spdm) (hok : ok = true) (next code : Nat)
    (body : List Byte) :
    spdmServe least ok next code body s = emit (.doe code (body.take doeRoom)) (onCxl (fun c => { c with spdm := next }) s) :=
  if_pos (by simp [hready, hleast, hok])

theorem spdmServe_early (h : s.cxl.spdm < least) (next code : Nat) (body : List Byte) :
    spdmServe least ok next code body s = emit (.doe 0x7F []) s :=
  if_neg (by simp [Nat.not_le.mpr h])

theorem spdmServe_refused (h : ok = false) (next code : Nat) (body : List Byte) :
    spdmServe least ok next code body s = emit (.doe 0x7F []) s :=
  if_neg (by simp [h])

theorem doeDiscover_served (hready : s.cxl.cfgReady = true) {i : Nat} (hi : i ≤ 2) : doeDiscover i s =
    emit (.doe 0 (toBytes 4 (pack [(0, 16, 1), (16, 8, i), (24, 8, if i = 2 then 0 else i + 1)]))) s := by
  simp only [doeDiscover, hready, hi, Bool.not_true, Bool.false_eq_true, if_false, if_true, doeSend]

theorem doeDiscover_beyond (hready : s.cxl.cfgReady = true) {i : Nat} (hi : 2 < i) :
    doeDiscover i s = emit (.doe 0 (toBytes 4 0xFFFF)) s := by
  simp only [doeDiscover, hready, Nat.not_le.mpr hi, Bool.not_true, Bool.false_eq_true, if_false, doeSend]

theorem measurements_one (s : State) {i : Nat} (hi : 1 ≤ i) (hi' : i ≤ 5) : measurements i s = toBytes 48 (measurement i s).toNat := by
  have h0 : ¬(i = 0) := by omega
  have h255 : ¬(i = 255) := by omega
  simp only [measurements, h0, h255, if_false]

end

/-- Settles O16: an error is one entry of the log, and an SPDM request is served from its stage of the connection on. -/
theorem portServicesAct : Obligations.PortServicesAct := by
  unfold Obligations.PortServicesAct
  refine ⟨cxlErrors_logged, fun s hready => ⟨fun i hi => ?_, fun i hi => ?_, ?_, ?_⟩⟩
  · exact exec_of_effect rfl (doeDiscover_served hready hi)
  · exact exec_of_effect rfl (doeDiscover_beyond hready hi)
  · intro at_ tell cur
    refine ⟨?_, fun h b => ?_, fun h o b h1 h2 h3 h4 => ?_, fun h => ?_, fun h => ?_, fun h => ⟨?_, fun b => ?_, ?_⟩⟩
    · exact exec_of_effect rfl (spdmServe_answers hready (Nat.zero_le _) rfl ..)
    · exact exec_of_effect rfl (spdmServe_answers hready h rfl ..)
    · exact exec_of_effect rfl (spdmServe_answers hready h (by simp [h1, h2, h3, h4]) ..)
    · refine ⟨?_, fun o n => ?_, fun b => ?_, fun b => ?_, fun i b hi hi' => ?_, fun b => ?_, fun b => ?_⟩
      · exact exec_of_effect rfl (spdmServe_answers hready h rfl ..)
      · exact exec_of_effect rfl (spdmServe_answers hready h rfl ..)
      · exact exec_of_effect rfl (spdmServe_answers hready h rfl ..)
      · exact exec_of_effect rfl (spdmServe_answers hready h rfl ..)
      · refine exec_of_effect rfl ((spdmServe_answers hready h (by simp [hi']) ..).trans ?_)
        rw [measurements_one s hi hi']
      · exact exec_of_effect rfl (spdmServe_answers hready h rfl ..)
      · exact exec_of_effect rfl (spdmServe_answers hready h rfl ..)
    · exact exec_of_effect rfl (spdmServe_answers hready (Nat.le_of_eq h.symm) (by simp [h]) ..)
    · exact exec_of_effect rfl (spdmServe_answers hready (Nat.le_of_eq h.symm) rfl ..)
    · have hepoch : (if (s.cxl.spdm == 5) = true then onCxl (fun c => { c with keyEpoch := c.keyEpoch + 1 }) s else s) =
          onCxl (fun c => { c with keyEpoch := c.keyEpoch + 1 }) s := if_pos (by simp [h])
      refine exec_of_effect rfl ((congrArg (spdmServe 5 true 5 0x69 b) hepoch).trans ?_)
      exact spdmServe_answers (s := onCxl (fun c => { c with keyEpoch := c.keyEpoch + 1 }) s) hready (Nat.le_of_eq h.symm) rfl ..
    · exact exec_of_effect rfl (spdmServe_answers hready (Nat.le_of_eq h.symm) rfl ..)
  · intro no
    refine ⟨fun h b => ?_, fun o b h => ?_, fun h => ⟨?_, fun i b => ?_, fun i o n => ?_, fun i b => ⟨?_, ?_⟩⟩,
      fun i h => ⟨fun o n => ?_, fun b => ⟨?_, ?_⟩⟩, fun i b h h' => ?_, fun h ok => ?_, ?_, fun h => ⟨?_, ?_, fun b => ?_⟩⟩
    · exact exec_of_effect rfl (spdmServe_early h ..)
    · rcases h with h | h
      · exact exec_of_effect rfl (spdmServe_early h ..)
      · exact exec_of_effect rfl (spdmServe_refused h ..)
    · exact exec_of_effect rfl (spdmServe_early h ..)
    · exact exec_of_effect rfl (spdmServe_early h ..)
    · exact exec_of_effect rfl (spdmServe_early h ..)
    · exact exec_of_effect rfl (spdmServe_early h ..)
    · exact exec_of_effect rfl (spdmServe_early h ..)
    · exact exec_of_effect rfl (spdmServe_refused (by simp [h]) ..)
    · exact exec_of_effect rfl (spdmServe_refused (by simp [h]) ..)
    · exact exec_of_effect rfl (spdmServe_refused (by simp [h]) ..)
    · exact exec_of_effect rfl (spdmServe_refused (by simp [h', Nat.not_le.mpr h]) ..)
    · exact exec_of_effect rfl (spdmServe_refused (by simp [h]) ..)
    · exact exec_of_effect rfl (spdmServe_refused (by simp) ..)
    · exact exec_of_effect rfl (spdmServe_early h ..)
    · exact exec_of_effect rfl (spdmServe_early h ..)
    · have hepoch : (if (s.cxl.spdm == 5) = true then onCxl (fun c => { c with keyEpoch := c.keyEpoch + 1 }) s else s) = s :=
        if_neg (by simp; omega)
      exact exec_of_effect rfl ((congrArg (spdmServe 5 true 5 0x69 b) hepoch).trans (spdmServe_early h ..))

end Sys2Proof.Machine

/-! # Queue registers (R351, R375, R395) -/

namespace Sys2Proof.Machine

/-! ## Bytes that a memory holds already -/

theorem memSet_memGet_from {m : List Host.Cell} {lo a : Nat} (h : Memory.wfFrom lo m = true) : memSet m a (memGet m a) = m := by
  induction m generalizing lo with
  | nil => simp [memSet, memGet]
  | cons c r ih =>
    obtain ⟨b, v⟩ := c
    simp only [Memory.wfFrom, Bool.and_eq_true, decide_eq_true_eq] at h
    obtain ⟨⟨-, hv⟩, hr⟩ := h
    rcases Nat.lt_trichotomy a b with hab | hab | hab
    · have hzero : memGet r a = 0 := memGet_below hr (Nat.lt_succ_of_lt hab)
      simp [memSet, memGet, hab, Nat.ne_of_lt hab, hzero]
    · subst hab
      have hlisted : ¬(v = 0#8) := hv
      simp [memSet, memGet, hlisted]
    · simp [memSet, memGet, Nat.ne_of_gt hab, Nat.lt_asymm hab, ih hr]

/-- Writing what stands there changes nothing. -/
theorem memPut_memRead {m : List Host.Cell} {a : Nat} {bs : List Byte} (hm : Memory.wf m = true)
    (h : memRead m a bs.length = bs) : memPut m a bs = m := by
  induction bs generalizing a with
  | nil => rfl
  | cons x r ih =>
    have hread : memRead m a (r.length + 1) = memGet m a :: memRead m (a + 1) r.length := by
      simp only [memRead, List.range_succ_eq_map, List.map_cons, List.map_map, Nat.add_zero]
      congr 1
      refine List.map_congr_left fun i _ => ?_
      simp [Nat.add_assoc, Nat.add_comm 1 i]
    rw [List.length_cons, hread] at h
    obtain ⟨hx, hr⟩ := List.cons.inj h
    rw [memPut, ← hx, memSet_memGet_from (lo := 0) hm]
    exact ih hr

/-! ## Nothing to fetch, nothing to deliver -/

theorem drain_none {q : Fin 4} {s : State} (h : fetchOne q s = none) : drain q s = s := by
  simp only [drain, drainFuel, h]

/-- A queue that fetches nothing runs nothing while no relayed command waits. -/
theorem runQueue_none {q : Fin 4} {s : State} (hin : s.cw.inCmd = []) (h : fetchOne q s = none) : runQueue q s = s := by
  rw [runQueue_drain hin (by rw [drain_none h]; exact hin), drain_none h]

theorem fetchOne_unserved {q : Fin 4} {s : State} (h : served s = false) : fetchOne q s = none := by
  simp only [fetchOne, queueIdle, h, Bool.false_and, Bool.and_false, Bool.false_eq_true, if_false]

theorem pumpCq_issued {q : Fin 4} {s : State} (k : Nat) (h : ∀ c ∈ s.queues[q].journal, c.issued = true) : pumpCq q k s = s := by
  have hnone : s.queues[q].journal.reverse.find? (fun c => !c.issued) = none := by
    rw [List.find?_eq_none]
    intro c hc
    simp [h c (List.mem_reverse.mp hc)]
  have hissue : issueCq q s = none := by
    simp only [issueCq, hnone, ite_self]
  cases k with
  | zero => rfl
  | succ k => simp only [pumpCq, hissue]

/-! ## The doorbell (R375) -/

section
variable {q : Fin 4} {v : BitVec 8} {s : State}

theorem doorbell_disabled (h : s.queues[q].en = false) : doorbell q v s = s := by
  simp only [doorbell, h, Bool.not_false, if_true]

theorem doorbell_passes (h : s.queues[q].en = true)
    (hpass : (s.queues[q].sqHead - s.queues[q].sqTail - 1).toNat < (v - s.queues[q].sqTail).toNat) : doorbell q v s = setErr 0 s := by
  simp only [doorbell, h, Bool.not_true, Bool.false_eq_true, if_false, if_pos hpass]

theorem doorbell_rings (h : s.queues[q].en = true)
    (hroom : (v - s.queues[q].sqTail).toNat ≤ (s.queues[q].sqHead - s.queues[q].sqTail - 1).toNat) :
    doorbell q v s = runQueue q (onQueue q (fun z => { z with sqTail := v }) s) := by
  simp only [doorbell, h, Bool.not_true, Bool.false_eq_true, if_false, if_neg (Nat.not_lt.mpr hroom)]

/-- A submission whose bytes stand in the slot is the doorbell alone. -/
theorem submit_standing {op : BitVec 16} {d : Desc} (hm : Memory.wf s.bar2 = true)
    (h : memRead s.bar2 (slotOffset d.queue s.queues[d.queue].sqTail) 64 = descBytes op d) :
    submit op d s = doorbell d.queue (s.queues[d.queue].sqTail + 1) s := by
  have hsame : memPut s.bar2 (slotOffset d.queue s.queues[d.queue].sqTail) (descBytes op d) = s.bar2 :=
    memPut_memRead hm (by rw [descBytes, toBytes_length]; exact h)
  have hput : onBar2 (fun m => memPut m (slotOffset d.queue s.queues[d.queue].sqTail) (descBytes op d)) s = s := by
    rw [onBar2, hsame]
  rw [submit, hput]

/-! ## EN (R351, R395) -/

/-- What an enabled queue no longer waits for: the writes of its own completions. -/
def notOfQueue (q : Fin 4) (w : RingWrite) : Bool :=
  match w.id with
  | .cq k _ => k != q
  | _ => true

theorem not_cq_of_notOfQueue {w : RingWrite} (h : notOfQueue q w = true) (k : Nat) : w.id ≠ .cq q k := by
  intro hid
  simp [notOfQueue, hid] at h

/-- A journaled completion as it is written again unless it was delivered. -/
def writtenAgain (c : Completion) : Completion := if c.delivered then c else { c with issued := false, replay := true }

theorem queueEnable_down (en : Bool) (h : cxlUp s = false) : queueEnable q en s = s := by
  simp only [queueEnable, h, Bool.not_false, if_true]

theorem queueEnable_off (h : cxlUp s = true) : queueEnable q false s = onQueue q (fun z => { z with en := false }) s := by
  simp only [queueEnable, h, Bool.not_true, Bool.not_false, Bool.false_eq_true, if_false, if_true]

/-- With every completion delivered and no descriptor waiting, a queue begins again at CQ_TAIL with WRAP 1. -/
theorem queueEnable_on (hup : cxlUp s = true) (hen : s.queues[q].en = false) (hempty : s.queues[q].sqHead = s.queues[q].sqTail)
    (hin : s.cw.inCmd = []) (hdone : ∀ c ∈ s.queues[q].journal, c.issued = true ∧ c.delivered = true) :
    queueEnable q true s = onQueue q (fun z => { z with en := true, wrap := true, cqNext := z.cqTail })
      (onCxl (fun c => { c with outstanding := s.cxl.outstanding.filter (notOfQueue q) }) s) := by
  let s1 := onCxl (fun c => { c with outstanding := s.cxl.outstanding.filter (notOfQueue q) }) s
  let s2 := onQueue q (fun z => { z with en := true, wrap := true, cqNext := z.cqTail }) s1
  have hjournal : s1.queues[q].journal.map writtenAgain = s1.queues[q].journal := by
    refine (List.map_congr_left fun c hc => ?_).trans (List.map_id _)
    exact if_pos (hdone c hc).2
  have hq2 : s2.queues[q] = { s.queues[q] with en := true, wrap := true, cqNext := s.queues[q].cqTail } := by
    simp [s2, s1, onQueue, onCxl]
  have hset : onQueue q (fun x => { x with
      en := true, wrap := true, cqNext := x.cqTail, journal := x.journal.map writtenAgain }) s1 = s2 := by
    have hupd : upd s1.queues q (fun x => { x with
        en := true, wrap := true, cqNext := x.cqTail, journal := x.journal.map writtenAgain }) =
        upd s1.queues q (fun z => { z with en := true, wrap := true, cqNext := z.cqTail }) :=
      upd_congr (by rw [hjournal])
    rw [onQueue, hupd]
    rfl
  have hpump : pumpCq q 16 s2 = s2 := pumpCq_issued 16 fun c hc => by
    rw [hq2] at hc
    exact (hdone c hc).1
  have hrun : runQueue q s2 = s2 := runQueue_none hin (fetchOne_empty (by rw [hq2]; exact hempty))
  unfold queueEnable
  rw [if_neg (by rw [hup]; decide), if_neg (by decide), if_neg (by rw [hen]; decide)]
  show runQueue q (pumpCq q 16 (onQueue q (fun x => { x with
    en := true, wrap := true, cqNext := x.cqTail, journal := x.journal.map writtenAgain }) s1)) = s2
  rw [hset, hpump, hrun]

end

/-- Settles O11: with no descriptor and no completion waiting, a register write of a queue block is its own effect. -/
theorem queueRegistersAct : Obligations.QueueRegistersAct := by
  unfold Obligations.QueueRegistersAct
  intro q s
  refine ⟨fun v h => ?_, fun v h hpass => ?_, fun v h hroom hserved hin => ?_, fun op d hq hm hen hhead hread => ?_,
    fun v hempty hin hissued => ?_, fun v h => ?_, fun h => ?_, fun hup hen hempty hin hdone => ?_⟩
  · exact exec_of_effect rfl (doorbell_disabled h)
  · exact exec_of_effect rfl (doorbell_passes h hpass)
  · exact exec_of_effect rfl ((doorbell_rings h hroom).trans (runQueue_none hin (fetchOne_unserved hserved)))
  · subst hq
    exact (exec_of_effect rfl (submit_standing hm hread).symm).trans rfl
  · have hself : (onQueue q (fun x => { x with cqHead := v }) s).queues[q] = { s.queues[q] with cqHead := v } := by
      simp [onQueue]
    have hpump : pumpCq q 16 (onQueue q (fun x => { x with cqHead := v }) s) = onQueue q (fun x => { x with cqHead := v }) s :=
      pumpCq_issued 16 fun c hc => by rw [hself] at hc; exact hissued c hc
    have hrun : runQueue q (onQueue q (fun x => { x with cqHead := v }) s) = onQueue q (fun x => { x with cqHead := v }) s :=
      runQueue_none hin (fetchOne_empty (by rw [hself]; exact hempty))
    exact exec_of_effect rfl ((congrArg (runQueue q) hpump).trans hrun)
  · exact exec_of_effect rfl (queueEnable_down v h)
  · exact exec_of_effect rfl (queueEnable_off h)
  · refine ⟨_, exec_of_effect rfl (queueEnable_on hup hen hempty hin hdone), fun x hx k => ?_, List.filter_sublist⟩
    exact not_cq_of_notOfQueue (List.mem_filter.mp hx).2 k

end Sys2Proof.Machine

/-! # The event ring (R361, R391, R395) -/

namespace Sys2Proof.Machine

/-! ## The ring's control word -/

section
variable {w : BitVec 32} {s : State}

theorem writeRingCtl_size (hen : bit w 0 = s.ev.en) (hsize : fld w 1 5 < 8 ∨ 16 < fld w 1 5) : writeRingCtl w s =
    onEv (fun v => { v with vecMode := bit w 6, coalesce := fld w 16 16 }) (setErr 0 s) := by
  have hout : (!(decide (8 ≤ fld w 1 5) && decide (fld w 1 5 ≤ 16))) = true := by
    rcases hsize with h | h <;> simp [Nat.not_le.mpr h]
  simp only [writeRingCtl, hen, hout, if_true, BEq.rfl, Bool.true_or]

theorem sizeInRange (hlo : 8 ≤ fld w 1 5) (hhi : fld w 1 5 ≤ 16) :
    (!(decide (8 ≤ fld w 1 5) && decide (fld w 1 5 ≤ 16))) = false := by
  simp [hlo, hhi]

theorem writeRingCtl_running (hen : bit w 0 = s.ev.en) (hlo : 8 ≤ fld w 1 5) (hhi : fld w 1 5 ≤ 16) (hrun : s.ev.en = true)
    (hother : fld w 1 5 ≠ s.ev.sizeLog2) : writeRingCtl w s =
    onEv (fun v => { v with vecMode := bit w 6, coalesce := fld w 16 16 }) (setErr 1 s) := by
  have hchange : (s.ev.en && fld w 1 5 != s.ev.sizeLog2) = true := by simp [hrun, hother]
  simp only [writeRingCtl, sizeInRange hlo hhi, hchange, hen, Bool.false_eq_true, if_false, if_true, BEq.rfl, Bool.true_or]

/-- The control word with its size in range and admitted. -/
theorem writeRingCtl_admitted (hlo : 8 ≤ fld w 1 5) (hhi : fld w 1 5 ≤ 16) (h : s.ev.en = true → fld w 1 5 = s.ev.sizeLog2) :
    writeRingCtl w s =
      (let s2 := onEv (fun v => { v with sizeLog2 := fld w 1 5, vecMode := bit w 6, coalesce := fld w 16 16 }) s
       if bit w 0 == s.ev.en || !cxlUp s then s2
       else if bit w 0 then startRing s2
       else onEv (fun v => { stopRing v with ackSeq := v.ackMark }) s2) := by
  have hkept : (s.ev.en && fld w 1 5 != s.ev.sizeLog2) = false := by
    cases hen : s.ev.en
    · rfl
    · simp [h hen]
  simp only [writeRingCtl, sizeInRange hlo hhi, hkept, Bool.false_eq_true, if_false]
  rfl

theorem writeRingCtl_stops (hup : cxlUp s = true) (hsame : fld w 1 5 = s.ev.sizeLog2) (hlo : 8 ≤ s.ev.sizeLog2)
    (hhi : s.ev.sizeLog2 ≤ 16) (hrun : s.ev.en = true) (hoff : bit w 0 = false) : writeRingCtl w s =
    onEv (fun v => { stopRing v with ackSeq := v.ackMark, vecMode := bit w 6, coalesce := fld w 16 16 }) s := by
  rw [writeRingCtl_admitted (hsame ▸ hlo) (hsame ▸ hhi) fun _ => hsame, hsame]
  simp only [hoff, hrun, hup, Bool.not_true, Bool.or_false, Bool.false_eq_true, if_false,
    show (false == true) = false from rfl]
  rfl

end

/-! ## The start of the ring (R112, R391, R395) -/

theorem addFences_only {α : Type} (g : α → RelWrite) (l : List α) (s : State) :
    Only [.com, .out] (forEach l (fun x => addFence (g x)) s) s :=
  only_forEach l _ (fun x u => addFence_only (g x) u) s

/-- The ring as it stands once it has been started and before records are written. -/
def ringStarted (s : State) : State :=
  let from_ : BitVec 32 := if s.ev.hostObs then s.ev.ackNext else match s.ev.store with
    | e :: _ => e.seq
    | [] => s.ev.seq
  onEv (fun v => { stopRing v with en := true, hostObs := true, ackNext := from_, sent := from_
                                   issuedTo := if v.hostObs then v.issuedTo else from_
                                   ackSeq := v.ackMark }) s

/-- Starting the ring is that, the fences of R112 and the records that can be written. -/
theorem startRing_spec (s : State) : ∃ u, startRing s = pumpHost 4096 u ∧ evCore u.ev = evCore (ringStarted s).ev ∧ u.ev.store = (ringStarted s).ev.store := by
  unfold startRing
  extract_lets v first from_ s1 due s2
  have h1 : s1 = ringStarted s := rfl
  refine ⟨s2, rfl, ?_⟩
  rw [← h1]
  unfold s2
  split
  · have hfences := addFences_only (fun f : BitVec 32 × Nat × BitVec 64 × BitVec 32 =>
      ({ addr := f.2.1, value := f.2.2.1, tag := f.2.2.2, st := .waiting, event := some f.1 } : RelWrite)) due
      (onEv (fun v => { v with fences := due }) s1)
    have hev := hfences.same .ev rfl
    refine ⟨?_, ?_⟩
    · exact (congrArg evCore (show _ = _ from hev)).trans rfl
    · exact (congrArg EvDyn.store (show _ = _ from hev)).trans rfl
  · exact ⟨rfl, rfl⟩

/-- What a start leaves of the ring's registers and of the store. -/
theorem startRing_ev (s : State) : evCore (startRing s).ev = evCore (ringStarted s).ev ∧
    (startRing s).ev.store = s.ev.store := by
  obtain ⟨u, hu, hcore, hstore⟩ := startRing_spec s
  rw [hu]
  exact ⟨(pumpHost_keepsPort 4096 u).ring.trans hcore, (pumpHost_stored 4096 u).1.trans hstore⟩

/-! ## EVQ_HEAD (R391) -/

theorem flushOwed_keepsPort (k : Nat) (s : State) : KeepsPort s (flushOwed k s) := by
  induction k generalizing s with
  | zero => exact keepsPort_refl s
  | succ k ih =>
    have hpop (r : List (Nat × BitVec 16 × BitVec 128)) : KeepsPort s (onEv (fun v => { v with owed := r }) s) := ⟨rfl, rfl⟩
    rw [flushOwed]
    split
    · exact keepsPort_refl s
    · split
      · exact keepsPort_refl s
      · exact ((hpop _).trans (record_keepsPort ..)).trans (ih _)

theorem trimStore_keepsPort (s : State) : KeepsPort s (trimStore s) := by
  unfold trimStore
  extract_lets h c n s1 s2 d
  have h1 : KeepsPort s s1 :=
    KeepsPort.trans (b := onEv (fun v => { v with store := v.store.drop n }) s) ⟨rfl, rfl⟩ (flushOwed_keepsPort 2 _)
  have h2 : KeepsPort s s2 := h1.trans ⟨rfl, rfl⟩
  split
  · split
    · exact (h2.trans (b := s2) (c := onEv (fun v => { v with full := false, dropped := Vector.replicate 8 0 }) s2) ⟨rfl, rfl⟩).trans
        (raise_keepsPort ..)
    · exact h2
  · exact h1

theorem trimStore_frame (s : State) : Only [.safety, .ev, .cxl, .out] (trimStore s) s := by
  unfold trimStore
  extract_lets h c n s1 s2 d
  have h1 : Only [.safety, .ev, .cxl, .out] s1 s :=
    only_step (flushOwed_only 2 _) rfl (only_mono (only_onEv ..) rfl)
  have h2 : Only [.safety, .ev, .cxl, .out] s2 s := only_step (only_onSafety ..) rfl h1
  split
  · split
    · exact only_step (raise_plain_only (by decide) ..) rfl (only_step (only_onEv ..) rfl h2)
    · exact h2
  · exact h1

/-- The records that EVQ_HEAD passes. -/
def passed (v : BitVec 16) (s : State) : Nat :=
  min ((v.toNat % evSize s + evSize s - s.ev.head.toNat % evSize s) % evSize s) s.ev.ring.length

/-- The latest record that EVQ_HEAD acknowledges. -/
def lastPassed (v : BitVec 16) (s : State) : Option (BitVec 32) := latest s.ev.ackNext (s.ev.ring.take (passed v s))

/-- The ring's registers once EVQ_HEAD has moved. -/
def headMoved (v : BitVec 16) (s : State) : State := onEv (fun e => { e with
  head := BitVec.ofNat 16 (v.toNat % evSize s), ring := e.ring.drop (passed v s)
  ackMark := (lastPassed v s).getD e.ackMark
  ackNext := match lastPassed v s with
    | some q => q + 1
    | none => e.ackNext
  ackSeq := if e.en then (lastPassed v s).getD e.ackMark else e.ackSeq
  fences := match lastPassed v s with
    | some q => e.fences.filter fun f => seqFrom (q + 1) f.1
    | none => e.fences }) s

theorem writeEvqHead_eq (v : BitVec 16) (s : State) : writeEvqHead v s = pumpHost 4096 (trimStore (headMoved v s)) := rfl

theorem writeEvqHead_frame (v : BitVec 16) (s : State) : Only [.safety, .ev, .cxl, .out] (writeEvqHead v s) s := by
  rw [writeEvqHead_eq]
  exact only_step (pumpHost_only ..) rfl (only_step (trimStore_frame _) rfl (only_mono (only_onEv ..) rfl))

theorem writeEvqHead_ring (v : BitVec 16) (s : State) : evCore (writeEvqHead v s).ev = evCore (headMoved v s).ev := by
  rw [writeEvqHead_eq]
  exact ((trimStore_keepsPort _).trans (pumpHost_keepsPort 4096 _)).ring

/-! ## The one record of a ring is acknowledged -/

theorem latest_self (e : BitVec 32) : latest e [e] = some e := by
  simp [latest, seqFrom]

section
variable {s : State} {e : BitVec 32}

theorem passed_next (hring : s.ev.ring = [e]) (hhead : s.ev.head.toNat < evSize s) (hlo : 1 ≤ s.ev.sizeLog2) (hhi : s.ev.sizeLog2 ≤ 16) :
    passed (BitVec.ofNat 16 ((s.ev.head.toNat + 1) % evSize s)) s = 1 := by
  have htwo : 2 ≤ evSize s := by
    have := Nat.pow_le_pow_right (n := 2) (by decide) hlo
    simpa [evSize] using this
  have hfit : evSize s ≤ 2 ^ 16 := Nat.pow_le_pow_right (by decide) hhi
  have hlt : (s.ev.head.toNat + 1) % evSize s < evSize s := Nat.mod_lt _ (by omega)
  have hnat : (BitVec.ofNat 16 ((s.ev.head.toNat + 1) % evSize s)).toNat = (s.ev.head.toNat + 1) % evSize s := by
    rw [BitVec.toNat_ofNat, Nat.mod_eq_of_lt (Nat.lt_of_lt_of_le hlt hfit)]
  have hstep : ((s.ev.head.toNat + 1) % evSize s + evSize s - s.ev.head.toNat) % evSize s = 1 := by
    rcases Nat.lt_or_ge (s.ev.head.toNat + 1) (evSize s) with hin | hwrap
    · rw [Nat.mod_eq_of_lt hin, show s.ev.head.toNat + 1 + evSize s - s.ev.head.toNat = 1 + evSize s by omega,
        Nat.add_mod_right, Nat.mod_eq_of_lt (by omega)]
    · have hend : s.ev.head.toNat + 1 = evSize s := by omega
      rw [hend, Nat.mod_self, show 0 + evSize s - s.ev.head.toNat = 1 by omega, Nat.mod_eq_of_lt (by omega)]
  rw [passed, hnat, Nat.mod_mod, Nat.mod_eq_of_lt hhead, hstep, hring]
  rfl

/-- The store's one record leaves with its acknowledgement. -/
theorem trimStore_last {x : Event} (hhost : s.ev.hostObs = true) (hchain : s.ev.chainObs = false) (howed : s.ev.owed = [])
    (hfull : s.ev.full = false) (hstore : s.ev.store = [x]) (hnext : s.ev.ackNext = x.seq + 1) :
    (trimStore s).ev = { s.ev with store := [] } := by
  have hcount : ackCount s.ev.ackNext s.ev.store = 1 := by
    simp [ackCount, hstore, hnext]
  have hflush : flushOwed 2 (onEv (fun v => { v with store := [] }) s) = onEv (fun v => { v with store := [] }) s := by
    rw [flushOwed, onEv_ev]
    split
    · rfl
    · next h => exact absurd (h.symm.trans howed) (by simp)
  unfold trimStore
  extract_lets h c n s1 s2 d
  have hn : n = 1 := by
    simp only [n, hhost, hchain]
    exact hcount
  have h1 : s1 = onEv (fun v => { v with store := [] }) s := by
    simp only [s1, hn]
    rw [← hflush]
    simp only [onEv, hstore, List.drop_succ_cons, List.drop_nil]
  split
  · have hkept : ¬(s2.ev.full = true) := by
      rw [show s2.ev = s1.ev from rfl, h1, onEv_ev]
      simp [hfull]
    rw [if_neg hkept, show s2.ev = s1.ev from rfl, h1]
    rfl
  · rw [h1]
    rfl

/-- With nothing left in the store no record is written. -/
theorem pumpHost_empty (k : Nat) (h : s.ev.store = []) : pumpHost k s = s := by
  refine pumpHost_none k ?_
  have hnone : storeAt s.ev.sent s = none := by simp [storeAt, h]
  simp only [issueOne, hnone, ite_self]

theorem writeEvqHead_last (hring : s.ev.ring = [e]) (hnext : s.ev.ackNext = e) (hhost : s.ev.hostObs = true)
    (hchain : s.ev.chainObs = false) (howed : s.ev.owed = []) (hfull : s.ev.full = false) (hstore : s.ev.store.map (·.seq) = [e])
    (hhead : s.ev.head.toNat < evSize s) (hlo : 1 ≤ s.ev.sizeLog2) (hhi : s.ev.sizeLog2 ≤ 16) :
    let t := writeEvqHead (BitVec.ofNat 16 ((s.ev.head.toNat + 1) % evSize s)) s
    t.ev.ackMark = e ∧ t.ev.ackNext = e + 1 ∧ t.ev.ring = [] ∧ t.ev.store = [] := by
  intro t
  obtain ⟨x, hx, hseq⟩ : ∃ x, s.ev.store = [x] ∧ x.seq = e := by
    obtain ⟨x, r, hcons, hxe, hr⟩ := List.map_eq_cons_iff.mp hstore
    exact ⟨x, by rw [hcons, List.map_eq_nil_iff.mp hr], hxe⟩
  have hpassed := passed_next hring hhead hlo hhi
  have hlast : lastPassed (BitVec.ofNat 16 ((s.ev.head.toNat + 1) % evSize s)) s = some e := by
    rw [lastPassed, hpassed, hring, hnext]
    exact latest_self e
  have hmoved : (headMoved (BitVec.ofNat 16 ((s.ev.head.toNat + 1) % evSize s)) s).ev.ackMark = e ∧
      (headMoved (BitVec.ofNat 16 ((s.ev.head.toNat + 1) % evSize s)) s).ev.ackNext = e + 1 ∧
      (headMoved (BitVec.ofNat 16 ((s.ev.head.toNat + 1) % evSize s)) s).ev.ring = [] := by
    simp [headMoved, hlast, hpassed, hring]
  obtain ⟨hmark, hack, hgone⟩ := hmoved
  have htrim := trimStore_last (s := headMoved (BitVec.ofNat 16 ((s.ev.head.toNat + 1) % evSize s)) s) (x := x) hhost hchain
    howed hfull hx (hack.trans (by rw [hseq]))
  have hrun : t.ev = { (headMoved (BitVec.ofNat 16 ((s.ev.head.toNat + 1) % evSize s)) s).ev with store := [] } := by
    show (pumpHost 4096 (trimStore (headMoved (BitVec.ofNat 16 ((s.ev.head.toNat + 1) % evSize s)) s))).ev = _
    rw [pumpHost_empty 4096 (by rw [htrim]), htrim]
  rw [hrun]
  exact ⟨hmark, hack, hgone, rfl⟩

end

/-- Settles O12, by the case of the control word; the head moves the acknowledgement, and what follows it keeps the registers. -/
theorem eventRingRegistersAct : Obligations.EventRingRegistersAct := by
  unfold Obligations.EventRingRegistersAct
  intro s
  refine ⟨fun w hen hsize => ?_, fun w hen hlo hhi hrun hother => ?_, fun w hlo hhi hstopped hoff => ?_,
    fun w hup hsame hlo hhi hrun hoff => ?_, fun w hup hlo hhi hstopped hon => ?_, fun v => ?_,
    fun e hring hnext hhost hchain howed hfull hstore _ hhead hlo hhi => ?_⟩
  · exact exec_of_effect rfl (writeRingCtl_size hen hsize)
  · exact exec_of_effect rfl (writeRingCtl_running hen hlo hhi hrun hother)
  · refine exec_of_effect rfl ((writeRingCtl_admitted hlo hhi fun h => absurd h (by simp [hstopped])).trans (if_pos ?_))
    simp [hoff, hstopped]
  · exact exec_of_effect rfl (writeRingCtl_stops hup hsame hlo hhi hrun hoff)
  · let s2 := onEv (fun v => { v with sizeLog2 := fld w 1 5, vecMode := bit w 6, coalesce := fld w 16 16 }) s
    have hrun : writeRingCtl w s = startRing s2 := by
      rw [writeRingCtl_admitted hlo hhi fun h => absurd h (by simp [hstopped])]
      simp only [hon, hstopped, hup, Bool.not_true, Bool.or_false, Bool.false_eq_true, if_false, if_true,
        show (true == false) = false from rfl]
      rfl
    obtain ⟨hcore, hstore⟩ := startRing_ev s2
    have hframe : Only [.com, .ev, .cxl, .out] (startRing s2) s := only_step (startRing_only s2) rfl (only_mono (only_onEv ..) rfl)
    refine ends_of (exec_of_effect rfl hrun) hframe rfl ?_
    rw [settle_ev]
    have hrunning := congrArg EvDyn.en hcore
    have hobs := congrArg EvDyn.hostObs hcore
    have hsize := congrArg EvDyn.sizeLog2 hcore
    have hack := congrArg EvDyn.ackSeq hcore
    have htail := congrArg EvDyn.tail hcore
    have hnext := congrArg EvDyn.ackNext hcore
    refine ⟨hrunning, hobs, hsize, hack, hstore, htail, fun hhost => Eq.trans hnext ?_⟩
    exact if_pos hhost
  · intro n
    refine ends_of (exec_of_effect rfl rfl) (writeEvqHead_frame v s) rfl ?_
    rw [settle_ev]
    have hcore := writeEvqHead_ring v s
    have hhead := congrArg EvDyn.head hcore
    have hmark := congrArg EvDyn.ackMark hcore
    have hack := congrArg EvDyn.ackSeq hcore
    refine ⟨hhead, hmark, fun hen => Eq.trans hack ?_⟩
    exact if_pos hen
  · refine ends_of (exec_of_effect rfl rfl) (writeEvqHead_frame _ s) rfl ?_
    rw [settle_ev]
    exact writeEvqHead_last hring hnext hhost hchain howed hfull hstore hhead hlo hhi

end Sys2Proof.Machine

/-! # Resets (R407, R410, R471) -/

namespace Sys2Proof.Machine

/-! ## What a reset sets -/

/-- The state after a reset, but for a latched thermal trip and the high impedance of the outputs. -/
def resetBase (kind : ResetKind) (s : State) : State := { State.reset with
  clk := { Clock.reset with now := s.clk.now, start := s.clk.now }
  boot := { BootDyn.reset with stage := .reset, kind := kind, straps := s.boot.straps, sampled := kind == .warm && s.boot.sampled }
  otp := s.otp
  flash := { s.flash with jobs := [], slice := false }
  planes := s.planes, canvas := s.canvas, out := s.out, free := s.free, pending := s.pending }

theorem beginReset_eq (kind : ResetKind) (s : State) :
    beginReset kind s = emit .hiZ (keepTrips (cutCommit s) (resetBase kind (cutCommit s))) := rfl

/-- A latched thermal trip of a group. -/
def tripsOf (s : State) : Bool := s.therm.groups[(0 : Fin 2)].tripped || s.therm.groups[(1 : Fin 2)].tripped

theorem keepTrips_clear {old : State} (h : tripsOf old = false) (new : State) : keepTrips old new = new := if_neg (by
  rw [show (old.therm.groups[(0 : Fin 2)].tripped || old.therm.groups[(1 : Fin 2)].tripped) = false from h]; decide)

theorem keepTrips_latched {old : State} (h : tripsOf old = true) (new : State) : keepTrips old new =
    onSafety (fun y => { y with mode := .dark, causes := 0x0800, standing := 0x0800 })
      (onTherm (fun x => { x with groups := Vector.ofFn fun i => { x.groups[i] with tripped := old.therm.groups[i].tripped } }) new) :=
  if_pos h

theorem tripsOf_false {s : State} (h : tripsOf s = false) (g : Fin 2) : s.therm.groups[g].tripped = false := by
  obtain ⟨h0, h1⟩ := Bool.or_eq_false_iff.mp h
  fin_cases g
  · exact h0
  · exact h1

/-- Whether or not a trip was latched, the groups' trips are those before the reset. -/
theorem keepTrips_tripped {old new : State} (hnew : ∀ g : Fin 2, new.therm.groups[g].tripped = false) (g : Fin 2) :
    (keepTrips old new).therm.groups[g].tripped = old.therm.groups[g].tripped := by
  cases h : tripsOf old with
  | false => rw [keepTrips_clear h, hnew g, tripsOf_false h g]
  | true =>
    rw [keepTrips_latched h]
    simp [onSafety, onTherm]

/-! ## What a reset leaves of the OTP -/

theorem cutCommit_none {s : State} (h : s.cal.commit = none) : cutCommit s = s := by
  simp only [cutCommit, h]

theorem cutCommit_at_finish {s : State} (h : s.clk.phase = .finish) : cutCommit s = s := by
  unfold cutCommit
  split
  · rw [if_neg (by simp [h])]
  · rfl

/-- A reset that cuts a series changes generations alone. -/
theorem cutCommit_otp (s : State) : (cutCommit s).otp = { s.otp with gens := (cutCommit s).otp.gens } := by
  unfold cutCommit
  extract_lets d
  repeat' split
  all_goals rfl

/-! ## A reset as the rest of the device sees it -/

section
variable (kind : ResetKind) (s : State)

/-- The parts that a reset sets without regard to a trip. -/
theorem beginReset_fresh {x : Part} (hx : [Part.therm, .safety, .out].contains x = false) :
    x.same (beginReset kind s) (resetBase kind (cutCommit s)) := by
  have honly : Only [.therm, .safety, .out] (beginReset kind s) (resetBase kind (cutCommit s)) := by
    rw [beginReset_eq]
    exact only_step (only_emit ..) rfl (only_mono (keepTrips_only ..) rfl)
  exact honly.same x hx

theorem cutCommit_therm : (cutCommit s).therm = s.therm := (cutCommit_only s).same .therm rfl

theorem beginReset_boot : (beginReset kind s).boot =
    { State.reset.boot with stage := .reset, kind := kind, straps := s.boot.straps, sampled := kind == .warm && s.boot.sampled } := by
  have hboot : (beginReset kind s).boot = (resetBase kind (cutCommit s)).boot := beginReset_fresh kind s (x := .boot) rfl
  have hcut : (cutCommit s).boot = s.boot := (cutCommit_only s).same .boot rfl
  rw [hboot, resetBase, hcut]
  rfl

theorem beginReset_clk : (beginReset kind s).clk = { State.reset.clk with now := s.clk.now, start := s.clk.now } := by
  have hclk : (beginReset kind s).clk = (resetBase kind (cutCommit s)).clk := beginReset_fresh kind s (x := .clk) rfl
  have hcut : (cutCommit s).clk = s.clk := (cutCommit_only s).same .clk rfl
  rw [hclk, resetBase, hcut]
  rfl

theorem beginReset_flash : (beginReset kind s).flash = { s.flash with jobs := [], slice := false } := by
  have hflash : (beginReset kind s).flash = (resetBase kind (cutCommit s)).flash := beginReset_fresh kind s (x := .flash) rfl
  have hcut : (cutCommit s).flash = s.flash := (cutCommit_only s).same .flash rfl
  rw [hflash, resetBase, hcut]

theorem beginReset_otp : (beginReset kind s).otp = (cutCommit s).otp := beginReset_fresh kind s (x := .otp) rfl

/-- The parts whose reset value stands whatever the state before was. -/
theorem beginReset_parts : (beginReset kind s).cfg = State.reset.cfg ∧ (beginReset kind s).queues = State.reset.queues ∧
    (beginReset kind s).ev = State.reset.ev ∧ (beginReset kind s).heads = State.reset.heads ∧
    (beginReset kind s).chans = State.reset.chans ∧ (beginReset kind s).links = State.reset.links ∧
    (beginReset kind s).cal = State.reset.cal ∧ (beginReset kind s).upd = State.reset.upd ∧
    (beginReset kind s).bar2 = State.reset.bar2 :=
  ⟨beginReset_fresh kind s (x := .cfg) rfl, beginReset_fresh kind s (x := .queues) rfl, beginReset_fresh kind s (x := .ev) rfl,
    beginReset_fresh kind s (x := .heads) rfl, beginReset_fresh kind s (x := .chans) rfl, beginReset_fresh kind s (x := .links) rfl,
    beginReset_fresh kind s (x := .cal) rfl, beginReset_fresh kind s (x := .upd) rfl, beginReset_fresh kind s (x := .bar2) rfl⟩

theorem resetBase_untripped (g : Fin 2) : (resetBase kind s).therm.groups[g].tripped = false := by
  fin_cases g <;> rfl

theorem beginReset_tripped (g : Fin 2) : (beginReset kind s).therm.groups[g].tripped = s.therm.groups[g].tripped := by
  rw [beginReset_eq, emit_therm, keepTrips_tripped (resetBase_untripped kind _), cutCommit_therm]

variable {s}

theorem tripsOf_cutCommit : tripsOf (cutCommit s) = tripsOf s := by
  simp only [tripsOf, cutCommit_therm]

theorem beginReset_clear (h : tripsOf s = false) :
    (beginReset kind s).safety = State.reset.safety ∧ (beginReset kind s).therm = State.reset.therm := by
  rw [beginReset_eq, keepTrips_clear (tripsOf_cutCommit.trans h)]
  exact ⟨rfl, rfl⟩

theorem beginReset_latched (h : tripsOf s = true) : (beginReset kind s).safety.mode = .dark ∧
    (beginReset kind s).safety.causes = 0x0800 ∧ (beginReset kind s).safety.standing = 0x0800 := by
  rw [beginReset_eq, keepTrips_latched (tripsOf_cutCommit.trans h)]
  exact ⟨rfl, rfl, rfl⟩

theorem beginReset_hiZ : Output.hiZ ∈ (beginReset kind s).out := by
  rw [beginReset_eq, emit_out]
  exact List.mem_cons_self

/-- No command waits after a reset. -/
theorem beginReset_quiet : Quiet (beginReset kind s) := by
  have hqueues : (beginReset kind s).queues = State.reset.queues := beginReset_fresh kind s (x := .queues) rfl
  have hcw : (beginReset kind s).cw = State.reset.cw := beginReset_fresh kind s (x := .cw) rfl
  refine ⟨fun q => ?_, ?_, ?_⟩
  · rw [hqueues]
    fin_cases q <;> rfl
  · rw [hcw]; rfl
  · rw [hcw]; rfl

end

theorem mem_settle_out {o : Output} {s : State} (h : o ∈ s.out) : o ∈ (settle s).out := by
  obtain ⟨l, hl, -⟩ := settle_out s
  rw [hl]
  exact List.mem_append_right _ h

theorem warmReset_due {s : State} (h : s.upd.resetDue = true) : warmReset s = beginReset .warm s := if_pos h

theorem warmReset_idle {s : State} (h : s.upd.resetDue = false) : warmReset s = s := if_neg (Bool.eq_false_iff.mp h)

/-- Settles O36: a reset builds its state from the reset values, and a due one stands where the LATCH would. -/
theorem resetsRestoreTheDevice : Obligations.ResetsRestoreTheDevice := by
  unfold Obligations.ResetsRestoreTheDevice
  refine ⟨fun s => ?_, fun a c b s hphase hb hdue => ?_⟩
  · intro f trip fresh
    have hfresh {i : Instr} (kind : ResetKind) (h : exec i s = .next (settle (beginReset kind s))) : Ends i s f (fresh kind) := by
      refine ends_of h (beginReset_only kind s) rfl ?_
      obtain ⟨hcfg, hqueues, hev, hheads, hchans, hlinks, hcal, hupd, hbar2⟩ := beginReset_parts kind s
      refine ⟨?_, ?_, ?_, ?_, ?_, ?_, ?_, ?_, ?_, ?_, ?_, ?_, ?_, fun hnone => ?_, mem_settle_out (beginReset_hiZ kind),
        fun g => ?_, fun hclear => ?_, fun hlatched => ?_⟩
      · rw [settle_boot, beginReset_boot]
      · rw [settle_clk, beginReset_clk]
      · rw [settle_cfg, hcfg]
      · rw [settle_queues, hqueues]
      · rw [settle_ev, hev]
      · rw [settle_heads, hheads]
      · rw [settle_chans, hchans]
      · rw [settle_links, hlinks]
      · rw [settle_cal, hcal]
      · rw [settle_upd, hupd]
      · rw [(settle_only _).same .bar2 rfl, hbar2]
      · rw [settle_flash, beginReset_flash]
      · rw [settle_otp, beginReset_otp]
        exact cutCommit_otp s
      · rw [settle_otp, beginReset_otp, cutCommit_none hnone]
      · rw [settle_therm, beginReset_tripped]
      · rw [settle_safety, settle_therm]
        exact beginReset_clear kind hclear
      · rw [settle_safety]
        exact beginReset_latched kind hlatched
    refine ⟨hfresh .power rfl, hfresh .pin rfl, fun hdue => hfresh .warm ?_, fun hdue => ?_⟩
    · exact exec_of_effect rfl (warmReset_due hdue)
    · exact exec_of_effect rfl (warmReset_idle hdue)
  · have hrun : tickBoundary a c s = beginReset .warm (reach b s) := by
      simp only [tickBoundary, hphase, hb, boundaryAt, hdue, if_true]
      rw [warmReset_due (s := reach b s) hdue, drainAll_quiet (beginReset_quiet .warm)]
    have hcut : cutCommit (reach b s) = reach b s := cutCommit_at_finish hphase
    obtain ⟨hcfg, hqueues, -⟩ := beginReset_parts .warm (reach b s)
    refine ⟨_, exec_of_effect rfl hrun, ?_, ?_, ?_, ?_, ?_, ?_, ?_, ?_⟩
    · rw [settle_boot, beginReset_boot]
    · rw [settle_boot, beginReset_boot]
    · rw [settle_clk, beginReset_clk]; rfl
    · rw [settle_cfg, hcfg]
    · rw [settle_queues, hqueues]
    · rw [settle_otp, beginReset_otp, hcut]; rfl
    · rw [settle_pending, (beginReset_only .warm (reach b s)).same .pending rfl]; rfl
    · rw [settle_flash, beginReset_flash]; rfl

end Sys2Proof.Machine

/-! # Boot (R341, R402, R412 to R415, R470) -/

namespace Sys2Proof.Machine

/-! ## The boot record is appended at once (R470) -/

theorem appendNow_record (r : BootRecord) (s : State) :
    (appendNow r s).flash.record = { r with seq := s.flash.record.seq + 1 } := by
  rw [appendNow, writeRecord_flash]
  rfl

section
variable {s : State}

theorem countTrial_settled (h : s.flash.record.state[activeOf s.flash.record] ≠ 3) : countTrial s = s := if_pos h

theorem countTrial_counts (h : s.flash.record.state[activeOf s.flash.record] = 3) (hfew : s.flash.record.trials < 3) :
    countTrial s = appendNow { s.flash.record with trials := s.flash.record.trials + 1 } s := by
  simp only [countTrial, h, ne_eq, not_true_eq_false, if_false, hfew, if_true]

theorem countTrial_reverts (h : s.flash.record.state[activeOf s.flash.record] = 3) (hmany : 3 ≤ s.flash.record.trials)
    (hback : s.flash.record.state[stagingOf s.flash.record] = 5) :
    countTrial s = appendNow (revertRecord 1 s.flash.record) s := by
  simp only [countTrial, h, ne_eq, not_true_eq_false, if_false, Nat.not_lt.mpr hmany, hback, if_true]

end

/-! ## A boot fault (R341, R414, R415) -/

/-- A latched fault of a mechanism has made the device dark. -/
structure DarkFault (m : Nat) (t : State) : Prop where
  dark : t.safety.mode = .dark
  latched : t.safety.latched = true
  cause : t.safety.causes.getLsbD m = true
  safeN : t.safety.safeN = true

theorem safetyFault_darkFault {m : Nat} (hm : m < 16) (s : State) : DarkFault m (safetyFault m none 0 0 true false 0 s) := by
  obtain ⟨hdark, hcause, -⟩ := safetyFault_dark hm none 0 0 false 0 s
  exact ⟨hdark, safetyFault_latched .., hcause, safetyFault_safeN ..⟩

theorem DarkFault.of_safety {m : Nat} {s t : State} (h : DarkFault m s) (hsafety : t.safety = s.safety) : DarkFault m t :=
  ⟨by rw [hsafety, h.dark], by rw [hsafety, h.latched], by rw [hsafety, h.cause], by rw [hsafety, h.safeN]⟩

/-- A boot fault while no command waits: the fault, and the stage after it. -/
theorem bootFails_quiet {s : State} (h : Quiet s) (k : BootFaultKind) : bootFails k s =
    onBoot (fun b => { b with stage := faultStage s }) (safetyFault (bootMechanism k) none 0 0 true false 0 s) :=
  drainAll_quiet (quiet_of_only h (only_step (only_onBoot ..) rfl (only_mono (safetyFault_only ..) rfl) :
    Only [.chans, .safety, .cxl, .ev, .boot, .out] _ s) rfl)

theorem bootMechanism_lt (k : BootFaultKind) : bootMechanism k < 16 := by
  cases k <;> decide

theorem bootFails_frame {s : State} (h : Quiet s) (k : BootFaultKind) :
    Only [.chans, .safety, .cxl, .ev, .boot, .out] (bootFails k s) s := by
  rw [bootFails_quiet h]
  exact only_step (only_onBoot ..) rfl (only_mono (safetyFault_only ..) rfl)

theorem bootFails_darkFault {s : State} (h : Quiet s) (k : BootFaultKind) : DarkFault (bootMechanism k) (bootFails k s) := by
  rw [bootFails_quiet h]
  exact (safetyFault_darkFault (bootMechanism_lt k) s).of_safety rfl

theorem bootFails_stage {s : State} (h : Quiet s) (k : BootFaultKind) : (bootFails k s).boot.stage = faultStage s := by
  rw [bootFails_quiet h]
  rfl

/-- A row that is a boot fault of a mechanism. -/
theorem ends_of_bootFails {i : Instr} {s : State} {k : BootFaultKind} (hquiet : Quiet s)
    (h : exec i s = .next (settle (bootFails k s))) {P : State → Prop}
    (hP : ∀ t : State, t.boot.stage = faultStage s → DarkFault (bootMechanism k) t → P t) :
    Ends i s [.chans, .safety, .cxl, .ev, .boot, .out] P := by
  refine ends_of h (bootFails_frame hquiet k) rfl (hP _ ?_ ((bootFails_darkFault hquiet k).of_safety (settle_safety _)))
  rw [settle_boot, bootFails_stage hquiet]

/-! ## The start of a boot (R413, R414) -/

/-- The boot has started: the clock runs, and the configuration space is ready where the CXL port is. -/
def bootBegun (s : State) : State :=
  onCxl (fun c => { c with cfgReady := s.boot.straps.cxlEn })
    (onClk (fun c => { c with held := false }) (onBoot (fun b => { b with stage := .booting, bootAt := s.clk.now }) s))

theorem bootBegun_only (s : State) : Only [.clk, .cxl, .boot] (bootBegun s) s :=
  only_step (only_onCxl ..) rfl (only_step (only_onClk ..) rfl (only_mono (only_onBoot ..) rfl))

section
variable {s : State}

theorem startBoot_badOtp (h : s.otp.vendorOk = false) : startBoot s = bootFails .otpVendor (bootBegun s) := if_pos (by rw [h]; rfl)

theorem startBoot_recovery (h : s.otp.vendorOk = true) (hsrc : s.boot.straps.bootSrc = 2) (hcxl : s.boot.straps.cxlEn = true) :
    startBoot s = onBoot (fun b => { b with stage := .recovery }) (bootBegun s) := by
  unfold startBoot
  rw [if_neg (by rw [h]; decide), if_pos hsrc, if_pos hcxl]
  rfl

theorem startBoot_blank (h : s.otp.vendorOk = true) (hsrc : s.boot.straps.bootSrc ≠ 2) (hblank : s.otp.integrator = none) :
    startBoot s = onBoot (fun b => { b with stage := if s.boot.straps.cxlEn then .recovery else .factory }) (bootBegun s) := by
  unfold startBoot
  rw [if_neg (by rw [h]; decide), if_neg hsrc, hblank]
  rfl

theorem startBoot_programmed {i : Integrator} (h : s.otp.vendorOk = true) (hsrc : s.boot.straps.bootSrc ≠ 2)
    (hi : s.otp.integrator = some i) (hok : integratorOk i = true) : startBoot s = countTrial (bootBegun s) := by
  unfold startBoot
  rw [if_neg (by rw [h]; decide), if_neg hsrc, hi]
  exact if_pos hok

end

/-! ## The release of a reset (R412) -/

/-- The reset is released: the levels of R412 are driven and the straps sampled. -/
def released (p : Straps) (s : State) : State :=
  emit .driven (onClk (fun c => { c with start := c.now }) (onBoot (fun b => { b with stage := .waiting, sampled := true, straps := p }) s))

theorem released_only (p : Straps) (s : State) : Only [.clk, .boot, .out] (released p s) s :=
  only_step (only_emit ..) rfl (only_step (only_onClk ..) rfl (only_mono (only_onBoot ..) rfl))

/-- The straps of a boot: the sampled ones after a warm reset. -/
def strapsOf (p : Straps) (s : State) : Straps := if s.boot.kind == .warm && s.boot.sampled then s.boot.straps else p

theorem release_eq {s : State} (h : s.boot.stage = .reset) (p : Straps) (w : Bool) : release p w s =
    if (s.boot.kind == .warm && s.boot.sampled) || w then startBoot (released (strapsOf p s) s) else released (strapsOf p s) s := by
  unfold release
  rw [if_neg (by rw [h]; decide)]
  rfl

theorem release_starts {s : State} (h : s.boot.stage = .reset) (p : Straps) {w : Bool}
    (hgo : (s.boot.kind == .warm && s.boot.sampled) = true ∨ w = true) : release p w s = startBoot (released (strapsOf p s) s) := by
  rw [release_eq h, if_pos (by simpa using hgo)]

theorem release_waits {s : State} (h : s.boot.stage = .reset) (p : Straps)
    (hcold : (s.boot.kind == .warm && s.boot.sampled) = false) : release p false s = released p s := by
  rw [release_eq h, strapsOf, hcold]
  rfl

theorem bootStart_starts {s : State} (h : s.boot.stage = .waiting) : bootStart s = startBoot s := if_pos (by rw [h]; rfl)

/-- The device boots its image with some straps, from an instant on. -/
structure Boots (p : Straps) (now : Nat) (t : State) : Prop where
  stage : t.boot.stage = .booting
  straps : t.boot.straps = p
  bootAt : t.boot.bootAt = now
  held : t.clk.held = false
  clock : t.clk.now = now
  ready : t.cxl.cfgReady = p.cxlEn

theorem bootBegun_boots (s : State) : Boots s.boot.straps s.clk.now (bootBegun s) := ⟨rfl, rfl, rfl, rfl, rfl, rfl⟩

theorem settle_cfgReady (s : State) : (settle s).cxl.cfgReady = s.cxl.cfgReady := by rw [settle_cxl]

/-- What leaves the boot, the clock and the port alone keeps a boot, as does the close of the command. -/
theorem Boots.of_only {p : Straps} {now : Nat} {f : List Part} {s t : State} (h : Boots p now s) (ho : Only f t s)
    (hf : [Part.boot, .clk, .cxl].all (fun x => !f.contains x) = true) : Boots p now (settle t) := by
  simp only [List.all_cons, List.all_nil, Bool.and_true, Bool.and_eq_true, Bool.not_eq_true'] at hf
  obtain ⟨hb, hc, hx⟩ := hf
  have hboot : t.boot = s.boot := ho.same .boot hb
  have hclk : t.clk = s.clk := ho.same .clk hc
  have hcxl : t.cxl = s.cxl := ho.same .cxl hx
  refine ⟨?_, ?_, ?_, ?_, ?_, ?_⟩
  · rw [settle_boot, hboot, h.stage]
  · rw [settle_boot, hboot, h.straps]
  · rw [settle_boot, hboot, h.bootAt]
  · rw [settle_clk, hclk, h.held]
  · rw [settle_clk, hclk, h.clock]
  · rw [settle_cfgReady, hcxl, h.ready]

/-! ## The slot that is booted (R414, R415) -/

section
variable {s : State} {k : BootFaultKind}

/-- The other slot can be loaded. -/
def otherUsable (s : State) : Prop := s.boot.fellBack = false ∧ 3 ≤ s.flash.record.state[stagingOf s.flash.record] ∧
  s.flash.record.state[stagingOf s.flash.record] ≤ 5

theorem slotFails_other (h : otherUsable s) : slotFails k s =
    onBoot (fun b => { b with fellBack := true }) (appendNow (revertRecord 3 s.flash.record) s) := by
  obtain ⟨hfirst, hlo, hhi⟩ := h
  refine if_pos ?_
  simp only [hfirst, Bool.not_false, Bool.true_and, decide_eq_true_eq]
  exact ⟨hlo, hhi⟩

theorem slotFails_neither (h : ¬ otherUsable s) : slotFails k s = bootFails k s := by
  refine if_neg fun hboth => h ?_
  simpa [otherUsable] using hboth

theorem bootFault_idle (h : s.boot.stage ≠ .booting) : bootFault k s = s := if_pos (by simpa using h)

theorem bootFault_slot (h : s.boot.stage = .booting) (hk : k = .imageLoad ∨ k = .signature) : bootFault k s = slotFails k s := by
  unfold bootFault
  rw [if_neg (by rw [h]; decide)]
  rcases hk with rfl | rfl <;> rfl

theorem bootFault_other (h : s.boot.stage = .booting) (h1 : k ≠ .imageLoad) (h2 : k ≠ .signature) : bootFault k s = bootFails k s := by
  unfold bootFault
  rw [if_neg (by rw [h]; decide)]
  cases k with
  | imageLoad => exact absurd rfl h1
  | signature => exact absurd rfl h2
  | _ => rfl

end

/-- RESET_RELEASE and BOOT_START. -/
theorem boot_starts (s : State) :
    let warm := s.boot.kind == .warm && s.boot.sampled
    let boots (p : Straps) (t : State) : Prop := t.boot.stage = .booting ∧ t.boot.straps = p ∧ t.boot.bootAt = s.clk.now ∧
      t.clk.held = false ∧ t.clk.now = s.clk.now ∧ t.cxl.cfgReady = p.cxlEn
    let blank (p : Straps) (t : State) : Prop :=
      t.boot.stage = (if p.cxlEn then BootStage.recovery else .factory) ∧ t.boot.straps = p ∧ t.safety = s.safety
    (∀ p w i, s.boot.stage = .reset → warm = true ∨ w = true → s.otp.vendorOk = true → s.otp.integrator = some i → integratorOk i = true →
      let q := if warm then s.boot.straps else p
      q.bootSrc ≠ 2 → s.flash.record.state[activeOf s.flash.record] ≠ 3 →
      Ends (.resetRelease p w) s [.clk, .cxl, .boot, .out] (boots q)) ∧
    (∀ p w, s.boot.stage = .reset → warm = true ∨ w = true → s.otp.vendorOk = true → s.otp.integrator = none →
      (if warm then s.boot.straps else p).bootSrc ≠ 2 →
      Ends (.resetRelease p w) s [.clk, .cxl, .boot, .out] (blank (if warm then s.boot.straps else p))) ∧
    (s.boot.stage = .waiting → s.otp.vendorOk = true → s.boot.straps.bootSrc = 2 → s.boot.straps.cxlEn = true →
      Ends .bootStart s [.clk, .cxl, .boot, .out] (blank s.boot.straps)) ∧
    (s.boot.stage = .waiting → s.otp.vendorOk = true → s.boot.straps.bootSrc ≠ 2 → s.otp.integrator = none →
      Ends .bootStart s [.clk, .cxl, .boot, .out] (blank s.boot.straps)) ∧
    (∀ i, s.boot.stage = .waiting → s.otp.vendorOk = true → s.otp.integrator = some i → integratorOk i = true →
      s.boot.straps.bootSrc ≠ 2 →
      (s.flash.record.state[activeOf s.flash.record] ≠ 3 → Ends .bootStart s [.clk, .cxl, .boot, .out] (boots s.boot.straps)) ∧
      (s.flash.record.state[activeOf s.flash.record] = 3 → s.flash.record.trials < 3 →
        Ends .bootStart s [.clk, .cxl, .boot, .flash, .out] fun t =>
          boots s.boot.straps t ∧ t.flash.record.trials = s.flash.record.trials + 1 ∧ t.flash.record.active = s.flash.record.active) ∧
      (s.flash.record.state[activeOf s.flash.record] = 3 → 3 ≤ s.flash.record.trials →
        s.flash.record.state[stagingOf s.flash.record] = 5 →
        Ends .bootStart s [.clk, .cxl, .boot, .flash, .out] fun t =>
          boots s.boot.straps t ∧ t.flash.record.active = (!s.flash.record.active) ∧ t.flash.record.revert = 1)) := by
  intro warm boots blank
  have hboots {p : Straps} {t : State} (h : Boots p s.clk.now t) : boots p t :=
    ⟨h.stage, h.straps, h.bootAt, h.held, h.clock, h.ready⟩
  have hblank {p : Straps} {u : State} (hstage : u.boot.stage = if p.cxlEn then BootStage.recovery else .factory)
      (hstraps : u.boot.straps = p) (hsafety : u.safety = s.safety) : blank p (settle u) := by
    refine ⟨?_, ?_, ?_⟩
    · rw [settle_boot, hstage]
    · rw [settle_boot, hstraps]
    · rw [settle_safety, hsafety]
  have hbegun : Only [.clk, .cxl, .boot, .out] (bootBegun s) s := only_mono (bootBegun_only s) rfl
  have hreleased (q : Straps) : Only [.clk, .cxl, .boot, .out] (bootBegun (released q s)) s :=
    only_step (bootBegun_only _) rfl (only_mono (released_only q s) rfl)
  have happended (r : BootRecord) : Only [.clk, .cxl, .boot, .flash, .out] (appendNow r (bootBegun s)) s :=
    only_step (appendNow_only ..) rfl (only_mono (bootBegun_only s) rfl)
  refine ⟨fun p w i hstage hgo hotp hi hok hsrc hset => ?_, fun p w hstage hgo hotp hi hsrc => ?_,
    fun hstage hotp hsrc hcxl => ?_, fun hstage hotp hsrc hi => ?_,
    fun i hstage hotp hi hok hsrc => ⟨fun hset => ?_, fun htrial hfew => ?_, fun htrial hmany hback => ?_⟩⟩
  · have hrun : release p w s = bootBegun (released (strapsOf p s) s) := by
      rw [release_starts hstage p hgo, startBoot_programmed (s := released (strapsOf p s) s) hotp hsrc hi hok]
      exact countTrial_settled (s := bootBegun (released (strapsOf p s) s)) hset
    exact ends_of (exec_of_effect rfl hrun) (hreleased _) rfl
      (hboots ((bootBegun_boots (released (strapsOf p s) s)).of_only (only_refl [] _) rfl))
  · have hrun := (release_starts hstage p hgo).trans
      (startBoot_blank (s := released (strapsOf p s) s) hotp hsrc hi)
    exact ends_of (exec_of_effect rfl hrun) (only_step (only_onBoot ..) rfl (hreleased _)) rfl (hblank rfl rfl rfl)
  · have hrun := (bootStart_starts hstage).trans (startBoot_recovery hotp hsrc hcxl)
    refine ends_of (exec_of_effect rfl hrun) (only_step (only_onBoot ..) rfl hbegun) rfl (hblank ?_ rfl rfl)
    rw [hcxl]; rfl
  · have hrun := (bootStart_starts hstage).trans (startBoot_blank hotp hsrc hi)
    exact ends_of (exec_of_effect rfl hrun) (only_step (only_onBoot ..) rfl hbegun) rfl (hblank rfl rfl rfl)
  · have hrun : bootStart s = bootBegun s := by
      rw [bootStart_starts hstage, startBoot_programmed hotp hsrc hi hok]
      exact countTrial_settled (s := bootBegun s) hset
    exact ends_of (exec_of_effect rfl hrun) hbegun rfl (hboots ((bootBegun_boots s).of_only (only_refl [] _) rfl))
  · have hrun : bootStart s = appendNow { s.flash.record with trials := s.flash.record.trials + 1 } (bootBegun s) := by
      rw [bootStart_starts hstage, startBoot_programmed hotp hsrc hi hok]
      exact countTrial_counts (s := bootBegun s) htrial hfew
    refine ends_of (exec_of_effect rfl hrun) (happended _) rfl ⟨hboots ((bootBegun_boots s).of_only (appendNow_only ..) rfl), ?_, ?_⟩
    · rw [settle_flash, appendNow_record]
    · rw [settle_flash, appendNow_record]
  · have hrun : bootStart s = appendNow (revertRecord 1 s.flash.record) (bootBegun s) := by
      rw [bootStart_starts hstage, startBoot_programmed hotp hsrc hi hok]
      exact countTrial_reverts (s := bootBegun s) htrial hmany hback
    refine ends_of (exec_of_effect rfl hrun) (happended _) rfl ⟨hboots ((bootBegun_boots s).of_only (appendNow_only ..) rfl), ?_, ?_⟩
    · rw [settle_flash, appendNow_record]; rfl
    · rw [settle_flash, appendNow_record]; rfl

/-- Settles O37: the boot's straps and OTP decide one of its ends, and a fault while it lasts is the boot fault of its mechanism. -/
theorem bootFollowsItsSteps : Obligations.BootFollowsItsSteps := by
  unfold Obligations.BootFollowsItsSteps
  refine ⟨fun s => ?_, fun s => ?_⟩
  · intro warm boots blank
    obtain ⟨himage, hblank, hrecovery, hfactory, hslot⟩ := boot_starts s
    refine ⟨fun p w h => ?_, fun p hstage hcold => ?_, himage, hblank, fun h => ?_, hrecovery, hfactory, hslot,
      fun hstage hotp hquiet => ?_⟩
    · exact exec_of_effect rfl (if_pos (by simpa using h))
    · exact exec_of_effect rfl (release_waits hstage p hcold)
    · exact exec_of_effect rfl (if_neg (by simpa using h))
    · have hrun := (bootStart_starts hstage).trans (startBoot_badOtp hotp)
      have hbegun : Quiet (bootBegun s) := quiet_of_only hquiet (bootBegun_only s) rfl
      have hfault := bootFails_darkFault hbegun .otpVendor
      refine ends_of (exec_of_effect rfl hrun) ?_ rfl ⟨?_, ?_, ?_, ?_⟩
      · exact only_step (bootFails_frame hbegun .otpVendor) rfl (only_mono (bootBegun_only s) rfl)
      · rw [settle_boot, bootFails_stage hbegun]; rfl
      · rw [settle_safety, hfault.dark]
      · rw [settle_safety, hfault.latched]
      · rw [settle_safety]; exact hfault.cause
  · intro f r failed other
    have hfailed {k : BootFaultKind} (t : State) (hstage : t.boot.stage = faultStage s) (h : DarkFault (bootMechanism k) t) :
        failed (bootMechanism k) t := ⟨hstage, h.dark, h.latched, h.cause, h.safeN⟩
    have htwelve {k : BootFaultKind} (hk : k ≠ .asset) : bootMechanism k = 12 := by
      cases k with
      | asset => exact absurd rfl hk
      | _ => rfl
    refine ⟨fun h => ⟨?_, fun k => ?_⟩, fun hstage hquiet => ⟨?_, ?_, fun k ha h1 h2 => ?_, fun k hk hno => ?_, fun k hk hother => ?_⟩⟩
    · exact exec_of_effect rfl (if_neg (by simpa using h))
    · exact exec_of_effect rfl (bootFault_idle h)
    · exact ends_of_bootFails hquiet (k := .noPll) (exec_of_effect rfl (if_pos (by rw [hstage]; rfl))) hfailed
    · exact ends_of_bootFails hquiet (k := .asset) (exec_of_effect rfl (bootFault_other hstage (by decide) (by decide))) hfailed
    · rw [← htwelve ha]
      exact ends_of_bootFails hquiet (exec_of_effect rfl (bootFault_other hstage h1 h2)) hfailed
    · have ha : k ≠ .asset := by rcases hk with rfl | rfl <;> decide
      rw [← htwelve ha]
      exact ends_of_bootFails hquiet (exec_of_effect rfl ((bootFault_slot hstage hk).trans (slotFails_neither hno))) hfailed
    · refine ends_of (exec_of_effect rfl ((bootFault_slot hstage hk).trans (slotFails_other hother))) ?_ rfl ⟨?_, ?_, ?_, ?_⟩
      · exact only_step (only_onBoot ..) rfl (only_mono (appendNow_only ..) rfl)
      · rw [settle_boot, onBoot_boot, (appendNow_only ..).same .boot rfl]
      · rw [settle_flash, onBoot_flash, appendNow_record]; rfl
      · rw [settle_flash, onBoot_flash, appendNow_record]; rfl
      · rw [settle_flash, onBoot_flash, appendNow_record]

end Sys2Proof.Machine

/-! # Core voltage and test access (R403 to R406, R417, R429) -/

namespace Sys2Proof.Machine

/-! ## Core voltage -/

section
variable {s : State}

theorem selectVid_other {v : Fin 4} (h : s.power.vid ≠ v) : selectVid v s = emit (.vid v) (onPower (fun p => { p with vid := v }) s) :=
  if_neg h

theorem selectVid_power (v : Fin 4) (s : State) : (selectVid v s).power = { s.power with vid := v } := by
  unfold selectVid
  split
  · next h => rw [← h]
  · rfl

theorem marginTrip_slow (h : s.power.vid = 3) : marginTrip s = s := if_pos h

theorem marginTrip_trips (h : s.power.vid ≠ 3) : marginTrip s = emit (.vid 3) (onPower (fun p => { p with
    vid := 3, nextVid := 3, tripAt := some (presetMv p p.vid) }) s) := by
  unfold marginTrip
  rw [if_neg h, selectVid_other (s := onPower (fun p => { p with tripAt := some (presetMv p p.vid), nextVid := 3 }) s) (v := 3) h]
  rfl

theorem presetWritten_none (h : s.power.writing = none) (ok : Bool) : presetWritten ok s = s := by
  simp only [presetWritten, h]

variable {w : Fin 4 × Nat} (h : s.power.writing = some w)
include h

theorem presetWritten_done : presetWritten true s = onPower (fun p => { p with
    p1 := if w.1 = 1 then w.2 else p.p1, p2 := if w.1 = 2 then w.2 else p.p2, writing := none, tries := 0
    nextVid := if p.tripAt.isSome then p.nextVid else w.1 }) s := by
  simp only [presetWritten, h, if_true]

theorem presetWritten_again (htries : s.power.tries = 0) :
    presetWritten false s = smbusWrite w.1 w.2 (onPower (fun p => { p with tries := 1 }) s) := by
  simp only [presetWritten, h, htries, Bool.false_eq_true, if_false, if_true]

theorem presetWritten_ends (htries : s.power.tries ≠ 0) : (presetWritten false s).power = { s.power with
    writing := none, tries := 0, ended := true, vid := if s.power.vid = 3 then 3 else 0
    nextVid := if s.power.vid = 3 then 3 else 0 } := by
  simp only [presetWritten, h, htries, Bool.false_eq_true, if_false]
  split
  · next hslow => simp only [onPower_power, hslow, if_true]
  · next hfast => simp only [selectVid_power, onPower_power, hfast, if_false]

end

theorem presetWritten_frame (ok : Bool) (s : State) : Only [.power, .cxl, .out] (presetWritten ok s) s :=
  only_mono (presetWritten_only ok s) rfl

theorem smbusWrite_out {i : Integrator} {s : State} (h : s.otp.integrator = some i) (preset : Fin 4) (mv : Nat) :
    (smbusWrite preset mv s).out = .smbus i.pmicAddr (i.pmicCmd.extractLsb' (if preset = 1 then 0 else 8) 8)
      (i.pmicCmd.extractLsb' 16 8) (i.pmicCmd.getLsbD 24) mv :: s.out := by
  simp only [smbusWrite, h, emit_out]

/-- Settles O39: a trip selects P3, and the end of a preset's write is one of three. -/
theorem coreVoltageActs : Obligations.CoreVoltageActs := by
  unfold Obligations.CoreVoltageActs
  intro s p
  refine ⟨fun h => ?_, fun h => ?_, fun ok h => ?_, fun w h => ?_, fun w h htries => ?_, fun w h htries => ?_⟩
  · exact exec_of_effect rfl (marginTrip_slow h)
  · refine ends_of (exec_of_effect rfl (marginTrip_trips h)) ?_ rfl ⟨?_, sends_of_out rfl⟩
    · exact only_step (only_emit ..) rfl (only_mono (only_onPower ..) rfl)
    · rw [settle_power]; rfl
  · exact exec_of_effect rfl (presetWritten_none h ok)
  · refine ends_of (exec_of_effect rfl rfl) (presetWritten_frame true s) rfl ?_
    rw [settle_power, presetWritten_done h]
    refine ⟨rfl, rfl, rfl, rfl, rfl, fun htrip => ?_⟩
    simp only [onPower_power]
    rw [if_neg (by simp [show s.power.tripAt = none from htrip])]
  · refine ends_of (exec_of_effect rfl (presetWritten_again h htries)) ?_ rfl ⟨?_, fun i hi => ?_⟩
    · exact only_step (smbusWrite_only ..) rfl (only_mono (only_onPower ..) rfl)
    · rw [settle_power, (smbusWrite_only ..).same .power rfl]; rfl
    · exact sends_of_out (smbusWrite_out (s := onPower (fun p => { p with tries := 1 }) s) hi w.1 w.2)
  · refine ends_of (exec_of_effect rfl rfl) (presetWritten_frame false s) rfl ?_
    rw [settle_power, presetWritten_ends h htries]
    exact ⟨rfl, rfl, rfl, rfl, rfl, rfl⟩

/-! ## JTAG -/

/-- The higher bits of a word, lowest first. -/
theorem drop_bitsOf (n k v : Nat) : (bitsOf (k + n) v).drop k = bitsOf n (v / 2 ^ k) := by
  refine List.ext_getElem (by simp [bitsOf]) fun i h _ => ?_
  simp only [bitsOf, List.getElem_drop, List.getElem_map, List.getElem_range, Nat.div_div_eq_div_mul, Nat.pow_add]

/-- IDCODE's word, with what no rule fixes of it in bits 11:1. -/
def idcodeWord (free : Nat) : Nat := pack [(0, 1, 1), (1, 11, free), (12, 16, 0x6440), (28, 4, stepping % 16)]

theorem idcodeWord_eq (free : Nat) :
    idcodeWord free = 1 + 2 * (free % 2048) + 4096 * (0x6440 + 0x10000 * (stepping % 16)) := by
  have hstep : stepping % 16 % 2 ^ 4 = stepping % 16 := Nat.mod_mod _ _
  rw [idcodeWord, pack_eq_fieldSum]
  simp only [fieldSum, hstep]
  generalize stepping % 16 = digit
  ring_nf

theorem idcodeWord_high (free : Nat) : idcodeWord free / 2 ^ 12 = 0x6440 + 0x10000 * (stepping % 16) := by
  have hlow : 1 + 2 * (free % 2048) < 4096 := by omega
  rw [idcodeWord_eq, show (2 : Nat) ^ 12 = 4096 from rfl, Nat.add_mul_div_left _ _ (by decide), Nat.div_eq_of_lt hlow, Nat.zero_add]

theorem idcodeWord_odd (free : Nat) : (bitsOf 32 (idcodeWord free)).take 1 = [true] := by
  have hodd : idcodeWord free % 2 = 1 := by
    rw [idcodeWord_eq]
    generalize stepping % 16 = digit
    omega
  simp [bitsOf, List.range_succ_eq_map, hodd]

theorem runBypass_out (tdi : List Bool) (s : State) : (runBypass tdi s).out = .jtag (false :: tdi) :: s.out := rfl

section
variable {s : State}

theorem runSample_served (h : jtagServes .sample s = true) (l : List Bool) :
    runSample l s = emit (.jtag l) (onJtag (fun _ => { instr := .sample, cells := l }) s) := if_pos h

theorem runSample_refused (h : jtagServes .sample s = false) (l : List Bool) : runSample l s = runBypass [] s :=
  if_neg (Bool.eq_false_iff.mp h)

theorem runExtest_served (h : jtagServes .extest s = true) (l : List Bool) :
    runExtest l s = onJtag (fun _ => { instr := .extest, cells := l }) s := if_pos h

theorem runExtest_refused (h : jtagServes .extest s = false) (l : List Bool) : runExtest l s = runBypass [] s :=
  if_neg (Bool.eq_false_iff.mp h)

theorem jtagServes_otp : jtagServes .otp s = s.otp.integrator.isNone := by
  unfold jtagServes
  split <;> next h => rw [h]; rfl

theorem runOtpInstr_blank (h : s.otp.integrator = none) (b : Integrator) : runOtpInstr b s =
    onOtp (fun o => { o with integrator := if (integratorBytes b).all (· == 0xFF) then none else some b })
      (onJtag (fun j => { j with instr := .otp }) s) :=
  if_pos (by rw [jtagServes_otp, h]; rfl)

theorem runOtpInstr_programmed (h : s.otp.integrator.isSome = true) (b : Integrator) : runOtpInstr b s = runBypass [] s := by
  refine if_neg ?_
  rw [jtagServes_otp, Option.isNone_eq_false_iff.mpr h]
  decide

/-- A row that selects BYPASS. -/
theorem ends_of_bypass {i : Instr} {tdi : List Bool} (h : exec i s = .next (settle (runBypass tdi s))) :
    Ends i s [.jtag, .cxl, .out] fun t => t.jtag = { s.jtag with instr := .bypass } :=
  ends_of h (only_mono (runBypass_only tdi s) rfl) rfl (by rw [settle_jtag]; rfl)

end

/-- Settles O41, instruction by instruction. -/
theorem jtagServesItsInstructions : Obligations.JtagServesItsInstructions := by
  unfold Obligations.JtagServesItsInstructions
  intro s f
  refine ⟨?_, fun b => ?_, fun l h => ?_, fun l h => ?_, fun l h => ?_, fun l h => ?_, fun b h => ?_, fun b h => ?_⟩
  · refine ends_of (exec_of_effect rfl rfl) (only_mono (runIdcode_only s) rfl) rfl
      ⟨by rw [settle_jtag]; rfl, bitsOf 32 (idcodeWord (drawFree s).1.toNat), sends_of_out rfl, by simp [bitsOf], idcodeWord_odd _, ?_⟩
    rw [drop_bitsOf 20 12, idcodeWord_high]
  · refine ends_of (exec_of_effect rfl rfl) (only_mono (runBypass_only [b] s) rfl) rfl ⟨?_, sends_of_out (runBypass_out [b] s)⟩
    rw [settle_jtag]; rfl
  · refine ends_of (exec_of_effect rfl (runSample_served h l)) ?_ rfl ⟨?_, sends_of_out rfl⟩
    · exact only_step (only_emit ..) rfl (only_mono (only_onJtag ..) rfl)
    · rw [settle_jtag]; rfl
  · exact ends_of_bypass (exec_of_effect rfl (runSample_refused h l))
  · have hjtag : (settle (onJtag (fun _ => { instr := .extest, cells := l }) s)).jtag = { instr := .extest, cells := l } := by
      rw [settle_jtag]; rfl
    refine ends_of (exec_of_effect rfl (runExtest_served h l)) (only_mono (only_onJtag ..) rfl) rfl ⟨hjtag, ?_, fun n => ?_⟩
    · simp [safeNDriven]
    · simp [gateLow]
  · exact ends_of_bypass (exec_of_effect rfl (runExtest_refused h l))
  · refine ends_of (exec_of_effect rfl (runOtpInstr_blank h b)) ?_ rfl ⟨?_, ?_⟩
    · exact only_step (only_onOtp ..) rfl (only_mono (only_onJtag ..) rfl)
    · rw [settle_otp]; rfl
    · rw [settle_jtag]; rfl
  · exact ends_of_bypass (exec_of_effect rfl (runOtpInstr_programmed h b))

end Sys2Proof.Machine

/-! # What the chain's settlement leaves of the ports (16) -/

namespace Sys2Proof.Machine

/-- From s to t the Causeway ports stand as they are, no queue is given a command, none is relayed, and no CHAIN_SEND begins. -/
structure KeepsLanes (s t : State) : Prop where
  up : t.cw.up = s.cw.up
  down : t.cw.down = s.cw.down
  pointers : pointers t = pointers s
  inCmd : t.cw.inCmd = s.cw.inCmd
  waitCmd : s.cw.waitCmd = none → t.cw.waitCmd = none

theorem keepsLanes_refl (s : State) : KeepsLanes s s := ⟨rfl, rfl, rfl, rfl, id⟩

theorem KeepsLanes.trans {a b c : State} (h : KeepsLanes a b) (k : KeepsLanes b c) : KeepsLanes a c :=
  ⟨k.up.trans h.up, k.down.trans h.down, k.pointers.trans h.pointers, k.inCmd.trans h.inCmd, k.waitCmd ∘ h.waitCmd⟩

theorem KeepsLanes.quiet {s t : State} (h : KeepsLanes s t) (hq : Quiet s) : Quiet t :=
  quiet_of_pointers hq h.pointers h.inCmd h.waitCmd

theorem KeepsLanes.port {s t : State} (h : KeepsLanes s t) (p : Port) : cwPort p t = cwPort p s := by
  cases p
  · exact h.up
  · exact h.down

theorem keepsLanes_of_only {f : List Part} {s t : State} (h : Only f t s)
    (hf : [Part.queues, .cw].all (fun x => !f.contains x) = true) : KeepsLanes s t := by
  simp only [List.all_cons, List.all_nil, Bool.and_true, Bool.and_eq_true, Bool.not_eq_true'] at hf
  have hcw : t.cw = s.cw := h.same .cw hf.2
  exact ⟨by rw [hcw], by rw [hcw], pointers_of_queues (h.same .queues hf.1), by rw [hcw], by rw [hcw]; exact id⟩

/-- A change of the Causeway's record that leaves the ports and the commands alone. -/
theorem keepsLanes_onCw {f : CwDyn → CwDyn} {s : State} (hup : (f s.cw).up = s.cw.up) (hdown : (f s.cw).down = s.cw.down)
    (hin : (f s.cw).inCmd = s.cw.inCmd) (hwait : (f s.cw).waitCmd = s.cw.waitCmd) : KeepsLanes s (onCw f s) :=
  ⟨hup, hdown, rfl, hin, hwait.trans⟩

/-- From s to t nothing of the chain changes but what is relayed and the answers that a CHAIN_SEND waits for; no queue is given a
command, and no CHAIN_SEND begins. -/
structure KeepsChain (s t : State) : Prop where
  cw : ∃ l w, t.cw = { s.cw with relay := l, waitCmd := w }
  pointers : pointers t = pointers s
  waitCmd : s.cw.waitCmd = none → t.cw.waitCmd = none

theorem keepsChain_refl (s : State) : KeepsChain s s := ⟨⟨_, _, rfl⟩, rfl, id⟩

theorem KeepsChain.trans {a b c : State} (h : KeepsChain a b) (k : KeepsChain b c) : KeepsChain a c := by
  obtain ⟨l, w, hb⟩ := h.cw
  obtain ⟨l', w', hc⟩ := k.cw
  exact ⟨⟨l', w', by rw [hc, hb]⟩, k.pointers.trans h.pointers, k.waitCmd ∘ h.waitCmd⟩

theorem KeepsChain.keepsLanes {s t : State} (h : KeepsChain s t) : KeepsLanes s t := by
  obtain ⟨l, w, hcw⟩ := h.cw
  exact ⟨by rw [hcw], by rw [hcw], h.pointers, by rw [hcw], h.waitCmd⟩

theorem keepsChain_ite {c : Prop} [Decidable c] {s a b : State} (ha : KeepsChain s a) (hb : KeepsChain s b) :
    KeepsChain s (if c then a else b) := by
  split
  · exact ha
  · exact hb

theorem keepsChain_of_cw {s t : State} (hcw : t.cw = s.cw) (hp : pointers t = pointers s) : KeepsChain s t :=
  ⟨⟨_, _, hcw⟩, hp, by rw [hcw]; exact id⟩

theorem keepsChain_of_only {f : List Part} {s t : State} (h : Only f t s)
    (hf : [Part.queues, .cw].all (fun x => !f.contains x) = true) : KeepsChain s t := by
  simp only [List.all_cons, List.all_nil, Bool.and_true, Bool.and_eq_true, Bool.not_eq_true'] at hf
  exact keepsChain_of_cw (h.same .cw hf.2) (pointers_of_queues (h.same .queues hf.1))

theorem keepsChain_forEach {α : Type} {f : α → State → State} (hf : ∀ x s, KeepsChain s (f x s)) (l : List α) (s : State) :
    KeepsChain s (forEach l f s) := by
  induction l generalizing s with
  | nil => exact keepsChain_refl s
  | cons x r ih => exact (hf x s).trans (ih _)

theorem pumpCq_keepsChain (q : Fin 4) (k : Nat) (s : State) : KeepsChain s (pumpCq q k s) :=
  keepsChain_of_cw ((pumpCq_only q k s).same .cw rfl) (pumpCq_pointers q k s)

theorem complete_keepsChain (d : Deferred) (status : BitVec 16) (result : Nat) (s : State) :
    KeepsChain s (complete d status result s) := by
  refine ⟨?_, complete_pointers .., (complete_relayed d status result s).2⟩
  unfold complete
  extract_lets away c s1
  split
  · exact ⟨_, _, (pumpCq_only d.queue 16 s1).same .cw rfl⟩
  · have hcw : (cwSend .up 0x42 0 0 (completionWords (completionWord s.queues[d.queue].wrap c)) s1).cw = s.cw :=
      (cwSend_only ..).same .cw rfl
    exact ⟨_, _, hcw⟩
  · exact ⟨_, _, rfl⟩

theorem finish_keepsChain (q : Fin 4) (status : BitVec 16) (result : Nat) (s : State) :
    KeepsChain s (finish q status result s) := by
  unfold finish
  split
  · have hfree : KeepsChain s (onQueue q (fun x => { x with waiting := none }) s) := keepsChain_of_cw rfl (onQueue_pointers rfl rfl)
    exact hfree.trans (complete_keepsChain ..)
  · exact keepsChain_refl s

theorem dropRelayed_keepsChain (s : State) : KeepsChain s (dropRelayed s) := ⟨⟨_, _, rfl⟩, rfl, id⟩

theorem updateObs_keepsChain (s : State) : KeepsChain s (updateObs s) := by
  unfold updateObs
  extract_lets able first ack told
  have hev (f : EvDyn → EvDyn) : KeepsChain s (onEv f s) := keepsChain_of_only (only_onEv ..) rfl
  split
  · exact ((hev _).trans (keepsChain_of_only (trimStore_only _) rfl)).trans (dropRelayed_keepsChain _)
  · split
    · exact (hev _).trans (keepsChain_of_only (resendEvents_only _) rfl)
    · exact keepsChain_refl s

/-- The settlement of a chain, but for what it sends and tells. -/
def settledChain (found : Nat) (many aSeen : Bool) (s : State) : State :=
  let aPresent := isA s || aSeen || s.cw.reports.any fun r => r.2.2 == 0x41
  let len := min found (if aPresent then 16 else 512)
  onCw (fun c => { c with
    addr := 0, len := len, aSeen := aPresent, enumAt := none, waitEnum := false, follower := false
    voters := if s.cfg.scan.chainVote then setVoter 0 (s.com.records.any (·.valid)) [] else []
    reports := c.reports.filter (fun r => decide (r.1 < len)), caps := c.caps.filter (fun r => decide (r.1 < len))
    cutDown := (decide ((if aPresent then 16 else 512) < found) || many) && len == 1 }) s

theorem settleChain_keepsChain (found : Nat) (many aSeen ended : Bool) (s : State) :
    KeepsChain (settledChain found many aSeen s) (settleChain found many aSeen ended s) := by
  unfold settleChain
  extract_lets aPresent limit len tooMany s1 s2 top s3 s4 s5
  have h2 : KeepsChain (settledChain found many aSeen s) s2 := by
    unfold s2
    split
    · next hmany =>
      have hcut : (settledChain found many aSeen s).cw = { s1.cw with cutDown := len == 1 } := by
        show { s1.cw with cutDown := tooMany && len == 1 } = _
        rw [hmany, Bool.true_and]
      have hemit : (if s1.cw.down.state == 2 then cwEmit .down 0x23 0x1FF true 0 (BitVec.ofNat 21 len) [] s1 else s1).cw = s1.cw := by
        split <;> rfl
      refine keepsChain_of_cw ?_ ?_
      · rw [onCw_cw, hemit, hcut]
      · split <;> rfl
    · next hfew =>
      refine keepsChain_of_cw ?_ rfl
      show { s1.cw with cutDown := false } = { s1.cw with cutDown := tooMany && len == 1 }
      rw [eq_false_of_ne_true hfew, Bool.false_and]
  have h3 : KeepsChain s2 s3 := by
    unfold s3
    split
    · exact keepsChain_of_only (only_onClk ..) rfl
    · exact keepsChain_refl s2
  have h4 : KeepsChain s3 s4 := keepsChain_of_only (raise_only ..) rfl
  have h5 : KeepsChain s4 s5 := by
    unfold s5
    split
    · exact (keepsChain_of_only (sendMode_only ..) rfl).trans (updateObs_keepsChain _)
    · exact updateObs_keepsChain _
  have hall : KeepsChain (settledChain found many aSeen s) s5 := ((h2.trans h3).trans h4).trans h5
  split
  · exact hall.trans (finish_keepsChain ..)
  · exact hall

theorem settleChain_keepsLanes (found : Nat) (many aSeen ended : Bool) (s : State) :
    KeepsLanes s (settleChain found many aSeen ended s) := by
  have hsettled : KeepsLanes s (settledChain found many aSeen s) := ⟨rfl, rfl, rfl, rfl, id⟩
  exact hsettled.trans (settleChain_keepsChain ..).keepsLanes

theorem startEnum_keepsLanes (s : State) : KeepsLanes s (startEnum s) := by
  unfold startEnum
  extract_lets s1
  have h1 : KeepsLanes s s1 := keepsLanes_onCw rfl rfl rfl rfl
  split
  · exact h1.trans (keepsLanes_of_only (cwEmit_only ..) rfl)
  · exact h1.trans (settleChain_keepsLanes ..)

end Sys2Proof.Machine

/-! # The ready point (R414, R419, R431, R470, R473) -/

namespace Sys2Proof.Machine

section
variable {b : BootLoad} {s : State}

theorem readyPoint_idle (h : s.boot.stage ≠ .booting) : readyPoint b s = s := if_pos (by simpa using h)

theorem readyPoint_rejected (h : s.boot.stage = .booting) (ha : assetOk b.asset = false) : readyPoint b s = bootFails .asset s := by
  unfold readyPoint
  rw [if_neg (by rw [h]; decide), if_pos (by rw [ha]; rfl)]

theorem readyPoint_unsealed (h : s.boot.stage = .booting) (ha : assetOk b.asset = true) (hnone : sealedGen s.otp = none) :
    readyPoint b s = bootFails .noGeneration s := by
  unfold readyPoint
  rw [if_neg (by rw [h]; decide), if_neg (by rw [ha]; decide), hnone]

/-- The state in which the stored settings take effect: the image's data and the asset's defaults stand. -/
def loaded (b : BootLoad) (s : State) : State :=
  onBoot (fun y => { y with fwVersion := b.fwVersion, schema := b.schema, defaults := b.defaults, imageDigest := b.digest })
    (loadAsset (assetOf b.asset) s)

/-- The state once the stored settings have taken effect. -/
def settingsApplied (b : BootLoad) (s : State) : State := (bootSettings b (loaded b s)).1

/-- The device runs, with a generation in force. -/
def running (g : Fin 4) (s0 x : State) : State :=
  onCal (fun c => { c with inForce := some g, live := s0.otp.gens[g] })
    (onBoot (fun y => { y with stage := .running, readyAt := s0.clk.now, readyTick := some s0.clk.tick }) x)

/-- What the ready point leaves of a state, past the settings: the device runs with the generation, and nothing of the boot, of the
configuration, of the calibration and of the flash changes any more. -/
structure Ready (g : Fin 4) (s0 x t : State) : Prop where
  boot : t.boot = (running g s0 x).boot
  cfg : t.cfg = x.cfg
  cal : t.cal = (running g s0 x).cal
  flash : t.flash = x.flash
  up : t.cw.up.wanted = true
  down : t.cw.down.wanted = true

/-- Events, the Causeway's training and the queues' completions leave what a command reads of the boot. -/
theorem same_of_only {f : List Part} {s t : State} (h : Only f t s)
    (hf : [Part.boot, .cfg, .cal, .flash].all (fun x => !f.contains x) = true) :
    t.boot = s.boot ∧ t.cfg = s.cfg ∧ t.cal = s.cal ∧ t.flash = s.flash := by
  simp only [List.all_cons, List.all_nil, Bool.and_true, Bool.and_eq_true, Bool.not_eq_true'] at hf
  obtain ⟨hb, hc, hl, hf⟩ := hf
  exact ⟨h.same .boot hb, h.same .cfg hc, h.same .cal hl, h.same .flash hf⟩

theorem quiet_onPort (p : Port) (f : CwPort → CwPort) {s : State} (h : Quiet s) : Quiet (onPort p f s) := by
  obtain ⟨hempty, hnone, hsend⟩ := h
  cases p <;> exact ⟨hempty, hnone, hsend⟩

/-- The rest of the ready point, from the state x in which the settings have taken effect. -/
def readied (g : Fin 4) (s0 : State) (x : State × List (BitVec 16 × Nat)) : State :=
  let r := x.1.flash.record
  let reverted : List (Nat × BitVec 16 × Nat) :=
    if r.revert = 0 then [] else [(srcUpdate, evUpdateReverted, pack [(0, 1, (stagingOf r).val), (1, 2, r.revert)])]
  let s2 := onBoot (fun y => { y with stage := .running, readyAt := s0.clk.now, readyTick := some s0.clk.tick }) x.1
  let s3 := forEach (reverted ++ x.2.map fun w => (srcSettings, w.1, w.2)) (fun e s => raise e.1 e.2.1 e.2.2 s) s2
  let s4 := onCal (fun c => { c with inForce := some g, live := s0.otp.gens[g] }) s3
  let w := genInvalidWord s0.otp
  let s5 := if w = 0 then s4 else raise srcCal evCalGenInvalid w s4
  let s6 := onUpd (fun u => { u with
    trialLeft := if r.state[activeOf r] = 3 then some (s0.clk.now + 300000000000) else none }) s5
  let s7 := onPort .up (fun c => { c with wanted := true }) (onPort .down (fun c => { c with wanted := true }) s6)
  let s8 := if s7.boot.straps.chainRole then startEnum s7 else s7
  drainAll (pumpHost 4096 (forEach (allFin 4) (fun q s => pumpCq q 16 s) s8))

theorem readyPoint_readied {g : Fin 4} (h : s.boot.stage = .booting) (ha : assetOk b.asset = true) (hg : sealedGen s.otp = some g)
    (hplaces : placesOk (assetOf b.asset) (prospect (settingsApplied b s)) = true) :
    readyPoint b s = readied g s (bootSettings b (loaded b s)) := by
  unfold readyPoint
  rw [if_neg (by rw [h]; decide), if_neg (by rw [ha]; decide), hg]
  refine if_neg fun hbad => ?_
  have hfits : (!placesOk (assetOf b.asset) (prospect (settingsApplied b s))) = true := hbad
  rw [hplaces] at hfits
  cases hfits

/-- The rest of the ready point, while no command waits. -/
theorem readied_ready (g : Fin 4) (s : State) (x : State × List (BitVec 16 × Nat)) (hquiet : Quiet x.1) :
    Ready g s x.1 (readied g s x) := by
  unfold readied
  extract_lets r reverted s2 s3 s4 w s5 s6 s7 s8
  have hevents : Only [.chans, .safety, .cxl, .ev, .out] s3 s2 :=
    only_forEach _ _ (fun _ _ => raise_only ..) s2
  have h2 : Quiet s2 := quiet_of_only hquiet (only_onBoot ..) rfl
  have h3 : Quiet s3 := quiet_of_only h2 hevents rfl
  have h4 : Quiet s4 := quiet_of_only h3 (only_onCal ..) rfl
  have hinvalid : Only [.chans, .safety, .cxl, .ev, .out] s5 s4 := by
    unfold s5
    split
    · exact only_refl _ s4
    · exact raise_only ..
  have h6 : Quiet s6 := quiet_of_only (quiet_of_only h4 hinvalid rfl) (only_onUpd ..) rfl
  have h7 : Quiet s7 := quiet_onPort .up _ (quiet_onPort .down _ h6)
  have henum : KeepsLanes s7 s8 := by
    unfold s8
    split
    · exact startEnum_keepsLanes s7
    · exact keepsLanes_refl s7
  have henumOnly : Only [.clk, .chans, .safety, .cxl, .queues, .ev, .cw, .out] s8 s7 := by
    unfold s8
    split
    · exact startEnum_only s7
    · exact only_refl _ s7
  have hpump := (keepsChain_forEach (fun q s => pumpCq_keepsChain q 16 s) (allFin 4) s8).keepsLanes
  have hlast : KeepsLanes s8 (pumpHost 4096 (forEach (allFin 4) (fun q s => pumpCq q 16 s) s8)) :=
    hpump.trans (keepsLanes_of_only (pumpHost_only ..) rfl)
  have hlanes := henum.trans hlast
  rw [drainAll_quiet (hlanes.quiet h7)]
  have hlastOnly : Only [.cxl, .queues, .ev, .out] (pumpHost 4096 (forEach (allFin 4) (fun q s => pumpCq q 16 s) s8)) s8 :=
    only_step (pumpHost_only ..) rfl (only_forEach (f := [.cxl, .queues, .ev, .out]) _ _
      (fun q s => only_mono (pumpCq_only q 16 s) rfl) s8)
  obtain ⟨b3, c3, l3, f3⟩ := same_of_only hevents rfl
  obtain ⟨b5, c5, l5, f5⟩ := same_of_only hinvalid rfl
  obtain ⟨b8, c8, l8, f8⟩ := same_of_only henumOnly rfl
  obtain ⟨b9, c9, l9, f9⟩ := same_of_only hlastOnly rfl
  clear_value s3 s5 s8
  refine ⟨?_, ?_, ?_, ?_, ?_, ?_⟩
  · rw [b9, b8, show s7.boot = s5.boot from rfl, b5, show s4.boot = s3.boot from rfl, b3]
    rfl
  · rw [c9, c8, show s7.cfg = s5.cfg from rfl, c5, show s4.cfg = s3.cfg from rfl, c3]
    rfl
  · rw [l9, l8, show s7.cal = s5.cal from rfl, l5, show s4.cal = { s3.cal with inForce := some g, live := s.otp.gens[g] } from rfl, l3]
    rfl
  · rw [f9, f8, show s7.flash = s5.flash from rfl, f5, show s4.flash = s3.flash from rfl, f3]
    rfl
  · rw [hlanes.up]; rfl
  · rw [hlanes.down]; rfl

/-- The ready point of a device with a sealed generation and an asset that fits, while no command waits. -/
theorem readyPoint_ready {g : Fin 4} (h : s.boot.stage = .booting) (ha : assetOk b.asset = true) (hg : sealedGen s.otp = some g)
    (hplaces : placesOk (assetOf b.asset) (prospect (settingsApplied b s)) = true) (hquiet : Quiet (settingsApplied b s)) :
    Ready g s (settingsApplied b s) (readyPoint b s) := by
  rw [readyPoint_readied h ha hg hplaces]
  exact readied_ready g s _ hquiet

end

/-! ## First light (R419) -/

/-- The heads that are dark, after an event. -/
theorem raise_headDark (src : Nat) (code : BitVec 16) (p : Nat) (s : State) :
    (raise src code p s).safety.headDark = s.safety.headDark := by
  rcases raise_outcome src code p s with htold | ⟨u, hu, -, hfull⟩
  · rw [htold.same .safety rfl]
  · have hsame : u.safety = s.safety := hu.same .safety rfl
    rw [hfull, ← hsame]
    unfold storeFull
    split
    · rfl
    · exact (safeReact_safety 15 none true true (onSafety (fun y => { y with storeFull := true }) u)).1

/-- A fault that is tied to a head darkens that head and no other. -/
theorem safetyFault_headDark (m : Nat) (h : Head) (head colour : Nat) (restartable : Bool) (rho : Nat) (s : State) :
    (safetyFault m (some h) head colour false restartable rho s).safety.headDark = s.safety.headDark ||| headBit h := by
  unfold safetyFault
  extract_lets latched s1 s2
  have h1 : s1.safety.headDark = s.safety.headDark ||| headBit h := (safeReact_safety m (some h) false restartable s).1
  have h2 : s2.safety.headDark = s1.safety.headDark := raise_headDark ..
  split
  · rw [h2, h1]
  · rw [raise_headDark, h2, h1]

/-- A head that shows its window and is not ready is lost. -/
def loseHead (h : Head) (s : State) : State :=
  if s.cfg.wins[h].shown && !s.heads[h].readyWin && !s.safety.headDark.getLsbD h.val then
    safetyFault 9 (some h) h.val 0 false false 0 s
  else s

theorem firstLightTimeout_runs {s : State} (h : s.boot.stage = .running) (hfirst : s.safety.firstLight = false) :
    firstLightTimeout s = forEach allHeads loseHead s := if_neg (by rw [h, hfirst]; decide)

theorem loseHead_only (h : Head) (s : State) : Only [.chans, .safety, .cxl, .ev, .out] (loseHead h s) s := by
  unfold loseHead
  split
  · exact safetyFault_only ..
  · exact only_refl _ s

theorem headBit_getLsbD (h k : Head) : (headBit h).getLsbD k.val = decide (k = h) := by
  revert h k
  decide

/-- What first light reads of a head: its window, whether it is ready, and whether it is dark. -/
def lightState (h : Head) (s : State) : Bool × Bool × Bool :=
  (s.cfg.wins[h].shown, s.heads[h].readyWin, s.safety.headDark.getLsbD h.val)

theorem loseHead_self (h : Head) (s : State) : (loseHead h s).safety.headDark.getLsbD h.val =
    (s.safety.headDark.getLsbD h.val || (s.cfg.wins[h].shown && !s.heads[h].readyWin)) := by
  unfold loseHead
  split
  · next hlost =>
    simp only [Bool.and_eq_true, Bool.not_eq_true'] at hlost
    obtain ⟨⟨hshown, hunready⟩, -⟩ := hlost
    rw [safetyFault_headDark, BitVec.getLsbD_or, headBit_getLsbD, hshown, hunready]
    simp
  · next hkept =>
    cases hdark : s.safety.headDark.getLsbD h.val
    · simp only [hdark, Bool.not_false, Bool.and_true, Bool.not_eq_true] at hkept
      rw [hkept]; rfl
    · rfl

theorem loseHead_other {h k : Head} (hk : k ≠ h) (s : State) : lightState h (loseHead k s) = lightState h s := by
  have hcfg : (loseHead k s).cfg = s.cfg := (loseHead_only k s).same .cfg rfl
  have hheads : (loseHead k s).heads = s.heads := (loseHead_only k s).same .heads rfl
  have hdark : (loseHead k s).safety.headDark.getLsbD h.val = s.safety.headDark.getLsbD h.val := by
    unfold loseHead
    split
    · rw [safetyFault_headDark, BitVec.getLsbD_or, headBit_getLsbD, decide_eq_false (Ne.symm hk), Bool.or_false]
    · rfl
  simp only [lightState, hcfg, hheads, hdark]

theorem losing_heads (h : Head) (s : State) : (forEach allHeads loseHead s).safety.headDark.getLsbD h.val =
    (s.safety.headDark.getLsbD h.val || (s.cfg.wins[h].shown && !s.heads[h].readyWin)) := by
  obtain ⟨u, hu, hrun⟩ := forEach_once (m := lightState h) (f := loseHead) (mem_allHeads h) (by decide)
    (fun k hk s => loseHead_other hk s) s
  simp only [lightState, Prod.mk.injEq] at hu hrun
  obtain ⟨hshown, hready, hdark⟩ := hu
  rw [hrun.2.2, loseHead_self, hdark, hshown, hready]

/-- Settles O38: the ready point fails, or runs the device; a timeout after it darkens the heads that are not ready, or reverts. -/
theorem readyPointStartsTheDevice : Obligations.ReadyPointStartsTheDevice := by
  unfold Obligations.ReadyPointStartsTheDevice
  intro s
  refine ⟨fun b h => ?_, fun b h ha hquiet => ?_, fun b h ha hnone hquiet => ?_, fun b g h ha hg => ?_, fun h => ?_,
    fun h hfirst => ?_, ?_⟩
  · exact exec_of_effect rfl (readyPoint_idle h)
  · exact ends_of_bootFails hquiet (exec_of_effect rfl (readyPoint_rejected h ha)) fun t ht hdark => ⟨ht, hdark.dark, hdark.cause⟩
  · exact ends_of_bootFails hquiet (exec_of_effect rfl (readyPoint_unsealed h ha hnone)) fun t ht hdark =>
      ⟨ht, hdark.dark, hdark.cause⟩
  · intro x hplaces hquiet
    have hready := readyPoint_ready h ha hg hplaces hquiet
    have hx : x.boot = (loaded b s).boot := (bootSettings_only b (loaded b s)).same .boot rfl
    refine ends_of (exec_of_effect rfl rfl) (readyPoint_only b s) rfl ?_
    rw [settle_boot, settle_cal, settle_cw, settle_cfg, settle_flash, hready.boot, hready.cfg, hready.cal, hready.flash]
    refine ⟨rfl, rfl, ?_, ?_, rfl, rfl, hready.up, hready.down, rfl, rfl⟩
    · exact congrArg BootDyn.fwVersion hx
    · exact congrArg BootDyn.schema hx
  · refine exec_of_effect rfl (if_pos ?_)
    rcases h with h | h
    · simp [h]
    · simp [h]
  · refine ends_of (exec_of_effect rfl (firstLightTimeout_runs h hfirst)) (only_forEach _ _ loseHead_only s) rfl fun k => ?_
    rw [settle_safety, losing_heads]
    refine ⟨fun hshown hunready => ?_, fun hdark => ?_, fun hfine => ?_⟩
    · rw [hshown, hunready]; simp
    · rw [hdark, Bool.true_or]
    · rcases hfine with hhidden | hready
      · rw [hhidden, Bool.false_and, Bool.or_false]
      · rw [hready, Bool.not_true, Bool.and_false, Bool.or_false]
  · intro r
    refine ⟨fun h => ?_, fun hsome hactive hback => ?_⟩
    · refine exec_of_effect rfl (if_neg fun hall => ?_)
      simp only [Bool.and_eq_true, decide_eq_true_eq] at hall
      obtain ⟨⟨hsome, hactive⟩, hback⟩ := hall
      rcases h with hnone | hne | hne
      · rw [hnone] at hsome; cases hsome
      · exact hne hactive
      · exact hne hback
    · have hrun : trialTimeout s = addJob { plainJob (.record (revertRecord 2 r)) with tell := some 0, reset := true }
          (onUpd (fun u => { u with trialLeft := none }) s) := by
        refine if_pos ?_
        simp only [hsome, Bool.true_and, Bool.and_eq_true, decide_eq_true_eq]
        exact ⟨hactive, hback⟩
      refine ends_of (exec_of_effect rfl hrun) ?_ rfl ⟨?_, ?_⟩
      · exact only_step (addJob_only ..) rfl (only_mono (only_onUpd ..) rfl)
      · rw [settle_upd]; rfl
      · rw [settle_flash]; rfl

end Sys2Proof.Machine

/-! # The Causeway's packets (R446, R447) -/

namespace Sys2Proof.Machine

/-! ## What a packet's reception comes to -/

section
variable {ptype : BitVec 8} {side : Port} {p : Packet} {f : State → State} {s : State}

theorem receive_arrived (h : Arrives ptype side p s) : receive ptype p f s = f s := by
  obtain ⟨rfl, hup, hcut, hgood⟩ := h
  unfold receive
  rw [if_neg hup, if_neg, if_neg (by rw [hgood]; decide)]
  simp only [Bool.and_eq_true, beq_iff_eq, not_and, Bool.not_eq_true]
  exact hcut

theorem receive_ignored (h : (cwPort p.port s).state = 0 ∨ (p.port = .down ∧ s.cw.cutDown = true)) : receive ptype p f s = s := by
  unfold receive
  by_cases hup : (cwPort p.port s).state = 0
  · rw [if_pos hup]
  · obtain ⟨hdown, hcut⟩ := h.resolve_left hup
    rw [if_neg hup, if_pos (by rw [hdown, hcut]; decide)]

theorem receive_bad (hup : (cwPort p.port s).state ≠ 0) (hcut : p.port = .down → s.cw.cutDown = false)
    (hbad : cwGood ptype p = false) :
    receive ptype p f s = onPort p.port (fun c => { c with discards := c.discards + 1 }) s := by
  unfold receive
  rw [if_neg hup, if_neg, if_pos (by rw [hbad]; decide)]
  simp only [Bool.and_eq_true, beq_iff_eq, not_and, Bool.not_eq_true]
  exact hcut

theorem addressed_port (h : p.port = side) :
    addressed ptype side p f s = receive ptype p (fun s =>
      if forMe p s then f (if p.bcast || !forMe p s then relay ptype p s else s)
      else if p.bcast || !forMe p s then relay ptype p s else s) s := if_neg (by simp [h])

theorem addressed_stray (h : p.port ≠ side) : addressed ptype side p f s = s := if_pos (by simpa using h)

/-- A packet of an arrived broadcast goes on as well. -/
def passOn (ptype : BitVec 8) (p : Packet) (s : State) : State := if p.bcast then relay ptype p s else s

theorem addressed_heard (h : Heard ptype side p s) : addressed ptype side p f s = f (passOn ptype p s) := by
  obtain ⟨harrives, hme⟩ := h
  rw [addressed_port harrives.1, receive_arrived harrives, if_pos hme, hme, Bool.not_true, Bool.or_false]
  rfl

theorem addressed_foreign (h : Arrives ptype side p s) (hme : forMe p s = false) :
    addressed ptype side p f s = relay ptype p s := by
  rw [addressed_port h.1, receive_arrived h, hme, Bool.not_false, Bool.or_true]
  rfl

theorem nextHop_arrived (h : Arrives ptype side p s) : nextHop ptype side p f s = f s := by
  unfold nextHop
  rw [if_neg (by simp [h.1]), receive_arrived h]

end

/-! ## Relaying -/

theorem passOn_only (ptype : BitVec 8) (p : Packet) (s : State) : Only [.out] (passOn ptype p s) s := by
  unfold passOn
  split
  · exact relay_only ..
  · exact only_refl _ s

theorem cwLength_ne_one (ptype : BitVec 8) : cwLength ptype ≠ 1 := by
  unfold cwLength
  split <;> decide

/-- What cwGood says of a packet's words: none, or a content that its CRC word follows. -/
theorem words_of_good {ptype : BitVec 8} {p : Packet} (h : cwGood ptype p = true) :
    p.words = [] ∨ content p ≠ [] ∧ (content p).length + 1 = p.len.toNat ∧
      p.words = content p ++ [cwCrc (cwBody (cwMarker ptype p.len.toNat p.dst p.bcast p.src p.arg)) (content p)] := by
  simp only [cwGood, Bool.and_eq_true, Bool.or_eq_true, beq_iff_eq, List.isEmpty_iff] at h
  obtain ⟨⟨⟨⟨-, htype⟩, hlen⟩, -⟩, hcrc⟩ := h
  by_cases hnil : p.words = []
  · exact Or.inl hnil
  have hlast := hcrc.resolve_left hnil
  have hone : p.words.length ≠ 1 := by
    rw [hlen, htype]
    exact cwLength_ne_one ptype
  have hpos : 0 < p.words.length := List.length_pos_iff.2 hnil
  have hcontent : (content p).length = p.words.length - 1 := List.length_dropLast
  refine Or.inr ⟨fun hempty => ?_, by omega, ?_⟩
  · rw [hempty, List.length_nil] at hcontent
    omega
  · exact (List.dropLast_append_getLast? _ hlast).symm

/-- A packet that came right leaves as it came. -/
theorem cwEmit_content {ptype : BitVec 8} {p : Packet} (h : cwGood ptype p = true) (o : Port) (s : State) :
    ∃ x, (cwEmit o ptype p.dst p.bcast p.src p.arg (content p) s).out =
      .cwLane o x :: .cw o ptype p.dst p.bcast p.src p.arg p.words :: s.out := by
  rcases words_of_good h with hnil | ⟨hcontent, hlen, hwords⟩
  · have hempty : content p = [] := by simp only [content, hnil, List.dropLast_nil]
    rw [hempty, hnil]
    exact ⟨_, rfl⟩
  · have hsome : (content p).isEmpty = false := by
      cases hc : content p with
      | nil => exact absurd hc hcontent
      | cons => rfl
    rw [hwords]
    unfold cwEmit
    simp only [hsome, Bool.false_eq_true, if_false, hlen]
    exact ⟨_, rfl⟩

theorem relay_out {ptype : BitVec 8} {p : Packet} {s : State} (h : cwGood ptype p = true)
    (hup : (cwPort (otherPort p.port) s).state = 2) (hcut : otherPort p.port = .down → s.cw.cutDown = false) :
    ∃ x, (relay ptype p s).out =
      .cwLane (otherPort p.port) x :: .cw (otherPort p.port) ptype p.dst p.bcast p.src p.arg p.words :: s.out := by
  unfold relay
  rw [if_pos]
  · exact cwEmit_content h _ s
  · simp only [hup, beq_self_eq_true, Bool.true_and, Bool.not_eq_true', Bool.and_eq_false_imp, beq_iff_eq]
    exact hcut

/-- The close of a command puts out one vector at most. -/
theorem settle_out_one (s : State) : ∃ l, (settle s).out = l ++ s.out ∧ l.length ≤ 1 := by
  unfold settle signal
  dsimp only
  repeat' split
  · exact ⟨[], rfl, by decide⟩
  · exact ⟨[], rfl, by decide⟩
  · exact ⟨[.msix 5], rfl, by decide⟩

/-- A packet that a step sends last stands among the outputs. -/
theorem sends_of_lane {o x : Output} {s u : State} (h : u.out = x :: o :: s.out) : Sends o s (settle u) := by
  obtain ⟨l, hout, hlen⟩ := settle_out_one u
  refine ⟨l ++ [x], ?_, by simpa using hlen⟩
  rw [hout, h, List.append_assoc]
  rfl

/-! ## The rows of packets with a destination -/

theorem packetRow_exec {i : Instr} {ptype : BitVec 8} {side : Port} {p : Packet} (h : packetRow i = some (ptype, side, p)) (s : State) :
    ∃ f, exec i s = .next (settle (addressed ptype side p f s)) := by
  unfold packetRow at h
  split at h
  case h_16 => cases h
  all_goals
    cases h
    exact ⟨_, rfl⟩

/-- Settles O42: every row of packetRow is a reception of `addressed`. -/
theorem packetsAreJudgedAndRelayed : Obligations.PacketsAreJudgedAndRelayed := by
  unfold Obligations.PacketsAreJudgedAndRelayed
  intro i ptype side p s hrow o
  obtain ⟨f, hexec⟩ := packetRow_exec hrow s
  rw [hexec]
  refine ⟨fun h => ?_, fun hport hup hcut hbad => ?_, fun harrives hme hup hcut => ?_, fun harrives hme hdown => ?_⟩
  · by_cases hport : p.port = side
    · rw [addressed_port hport, receive_ignored]
      rw [hport]
      exact h.resolve_left fun hne => hne hport
    · rw [addressed_stray hport]
  · subst hport
    rw [addressed_port rfl, receive_bad hup hcut hbad]
  · have hport : p.port = side := harrives.1
    refine ends_of (hexec.trans (congrArg (fun x => Host.Outcome.next (settle x)) (addressed_foreign harrives hme)))
      (only_mono (relay_only ..) rfl) rfl ?_
    obtain ⟨x, hx⟩ := relay_out harrives.2.2.2 (by rw [hport]; exact hup) (by rw [hport]; exact hcut)
    rw [hport] at hx
    exact sends_of_lane hx
  · rw [addressed_foreign harrives hme]
    have hstays : relay ptype p s = s := by
      refine if_neg ?_
      rw [harrives.1]
      simp only [Bool.and_eq_true, beq_iff_eq, not_and]
      exact fun h => absurd h hdown
    rw [hstays]

end Sys2Proof.Machine

/-! # The Causeway's ports (R448, R453) -/

namespace Sys2Proof.Machine

/-! ## What a hop failure leaves of the ports and of the commands -/

theorem keepsLanes_ite {c : Prop} [Decidable c] {s a b : State} (ha : KeepsLanes s a) (hb : KeepsLanes s b) :
    KeepsLanes s (if c then a else b) := by
  split
  · exact ha
  · exact hb

theorem chainDone_keepsChain (w : ChainWait) (own : BitVec 16 × Nat) (s : State) : KeepsChain s (chainDone w own s) := by
  have hraise (src : Nat) (code : BitVec 16) (n : Nat) (u : State) : KeepsChain u (raise src code n u) :=
    keepsChain_of_only (raise_only ..) rfl
  have hupd (f : UpdDyn → UpdDyn) (u : State) : KeepsChain u (onUpd f u) := keepsChain_of_only (only_onUpd ..) rfl
  unfold chainDone
  extract_lets s0 ok bad first joins openWord opened told gone verifyWord failed cancelled
  clear_value first
  have h0 : KeepsChain s s0 := hupd ..
  split
  · exact ((h0.trans (hupd ..)).trans (keepsChain_forEach (fun _ _ => hraise ..) _ _)).trans (finish_keepsChain ..)
  · refine h0.trans (KeepsChain.trans ?_ (finish_keepsChain ..))
    unfold failed
    cases first with
    | none => exact keepsChain_refl s0
    | some x => exact hraise ..
  · cases first with
    | none => exact h0.trans (finish_keepsChain ..)
    | some x =>
      have hcancelled : KeepsChain s0 cancelled := (hupd ..).trans (keepsChain_of_only (sendCtrl_only ..) rfl)
      exact ((h0.trans hcancelled).trans (hraise ..)).trans (finish_keepsChain ..)

theorem tryChain_keepsChain (s : State) : KeepsChain s (tryChain s) := by
  unfold tryChain
  repeat' split
  · exact chainDone_keepsChain ..
  · exact keepsChain_refl s
  · exact keepsChain_refl s
  · exact keepsChain_refl s

theorem hopFailed_keepsChain (first : Nat) (s : State) : KeepsChain s (hopFailed first s) := by
  unfold hopFailed
  extract_lets lost
  split
  · exact ((keepsChain_of_only (only_onUpd ..) rfl).trans (keepsChain_of_only (raise_only ..) rfl)).trans (tryChain_keepsChain _)
  · exact keepsChain_refl s

/-- The CHAIN_SEND that waits is given up: none waits, and the ports and the queues stay as they are. -/
theorem failSend_lanes (s : State) : KeepsLanes (onCw (fun c => { c with waitCmd := none }) s) (failSend s) := by
  unfold failSend
  split
  · exact (finish_keepsChain ..).keepsLanes
  · exact ⟨rfl, rfl, rfl, rfl, fun _ => by assumption⟩

theorem takeCmd_none {s : State} (h : s.cw.inCmd = []) : takeCmd s = none := by
  simp only [takeCmd, h, List.find?_nil]

theorem runCmds_none {s : State} (h : takeCmd s = none) (k : Nat) : runCmds k s = s := by
  cases k with
  | zero => rfl
  | succ k => simp only [runCmds, h]

/-- With nothing to fetch, no relayed command that can execute and a CHAIN_SEND that still waits for a target, nothing executes. -/
theorem drainAll_idle {s : State} (hempty : ∀ q : Fin 4, s.queues[q].sqHead = s.queues[q].sqTail) (htake : takeCmd s = none)
    (htry : trySend s = s) : drainAll s = s := by
  have hall (l : List (Fin 4)) : forEach l drain s = s := by
    induction l with
    | nil => rfl
    | cons q r ih => exact (congrArg (forEach r drain) (drainFuel_empty 256 (hempty q))).trans ih
  unfold drainAll
  rw [runCmds_none htake, htry]
  exact hall _

theorem trySend_waits {s : State} (h : ∀ w ∈ s.cw.waitCmd, w.expect ≠ []) : trySend s = s := by
  unfold trySend
  split
  · next w hw =>
    rw [if_neg (by simpa using h w hw)]
  · rfl

/-! ## Ports -/

@[simp] theorem cwPort_onPort (p : Port) (f : CwPort → CwPort) (s : State) : cwPort p (onPort p f s) = f (cwPort p s) := by
  cases p <;> rfl

theorem cwPort_settle (p : Port) (s : State) : cwPort p (settle s) = cwPort p s := by
  cases p
  · exact congrArg CwDyn.up (settle_cw s)
  · exact congrArg CwDyn.down (settle_cw s)

theorem cwPort_of_only {f : List Part} {s t : State} (h : Only f t s) (hf : f.contains Part.cw = false) (p : Port) :
    cwPort p t = cwPort p s := by
  have hcw : t.cw = s.cw := h.same .cw hf
  unfold cwPort
  rw [hcw]

/-- What an event of a port leaves. -/
theorem tellPort_plain (p : Port) (cause : Nat) (s : State) : Only [.cxl, .ev, .out] (tellPort p cause s) s :=
  raise_plain_only (by cases p <;> decide) ..

theorem portAttemptFails_plain (p : Port) (cause : Nat) (s : State) :
    Only [.cw, .cxl, .ev, .out] (portAttemptFails p cause s) s :=
  only_step (tellPort_plain ..) rfl (only_mono (onPort_only ..) rfl)

theorem portAttemptFails_port (p : Port) (cause : Nat) (s : State) : cwPort p (portAttemptFails p cause s) =
    { cwPort p s with state := 0, measuring := false, wanted := false, retryTick := some (s.clk.tick + 64) } :=
  (cwPort_of_only (tellPort_plain ..) rfl p).trans (cwPort_onPort ..)

/-- A port begins to run: what follows leaves it as it then stands. -/
theorem portRuns_keepsLanes (p : Port) (delay : Nat) (s : State) :
    KeepsLanes (onPort p (fun c => { c with state := 2, delay := delay, measuring := false, retryTick := none }) s)
      (portRuns p delay s) := by
  unfold portRuns
  extract_lets s1 s2
  have h1 := keepsLanes_of_only (tellPort_plain p 0
    (onPort p (fun c => { c with state := 2, delay := delay, measuring := false, retryTick := none }) s)) rfl
  have h2 : KeepsLanes s1 s2 := by
    unfold s2
    cases p
    · exact keepsLanes_ite (keepsLanes_of_only (sendEnumReq_only ..) rfl) (keepsLanes_refl _)
    · exact keepsLanes_ite (startEnum_keepsLanes _) (keepsLanes_of_only (sendEnumReq_only ..) rfl)
  exact h1.trans (h2.trans (keepsLanes_ite (keepsLanes_of_only (resendEvents_only ..) rfl) ((updateObs_keepsChain _).keepsLanes)))

/-- A hop failure upstream, while nothing has been relayed: the commands stay as they are, and a follower is on its own. -/
theorem hopEnds_up {s : State} (hnone : s.cw.inCmd = []) : KeepsLanes s (hopEnds .up s) ∧
    (hopEnds .up s).cw.waitCmd = s.cw.waitCmd ∧ (isFollower s = true → (hopEnds .up s).cw.alone = true) := by
  unfold hopEnds
  dsimp only
  have hfiltered (f : UpdDyn → UpdDyn) (v : Bool) : KeepsLanes s
      (onCw (fun c => { c with alone := c.alone || v, inCmd := c.inCmd.filter fun x => x.via != .chain }) (onUpd f s)) :=
    ⟨rfl, rfl, rfl, by rw [onCw_cw, onUpd_cw, hnone]; rfl, id⟩
  split
  · next hfollows =>
    have hcw (u : State) : (ownCommits u).cw = u.cw := (ownCommits_only u).same .cw rfl
    refine ⟨(hfiltered _ _).trans (keepsLanes_of_only (ownCommits_only _) rfl), ?_, fun _ => ?_⟩
    · rw [hcw]; rfl
    · rw [hcw, onCw_cw, hfollows, Bool.or_true]
  · next hleads => exact ⟨hfiltered _ _, rfl, fun h => absurd h hleads⟩

/-- A hop failure downstream, but for the CHAIN_SEND: the blocks wait no longer, and the session hears of it. -/
def strand (s : State) : State :=
  if !inChain s then dropDown s
  else if s.boot.straps.chainRole then hopFailed 1 (dropDown s)
  else sendResp 0 stChainHop (s.cw.addr + 1) (dropDown s)

theorem hopEnds_down_eq (s : State) : hopEnds .down s =
    if s.cw.waitCmd.any (fun w => w.expect.any (· != 0)) then failSend (strand s) else strand s := rfl

theorem strand_keepsLanes (s : State) : KeepsLanes s (strand s) := by
  have hdrop : KeepsLanes s (dropDown s) := keepsLanes_of_only (dropDown_only s) rfl
  have hresp : KeepsLanes (dropDown s) (sendResp 0 stChainHop (s.cw.addr + 1) (dropDown s)) :=
    keepsLanes_of_only (sendResp_only ..) rfl
  exact keepsLanes_ite hdrop (keepsLanes_ite (hdrop.trans (hopFailed_keepsChain ..).keepsLanes) (hdrop.trans hresp))

/-- A hop failure downstream: a CHAIN_SEND that waits for another device is given up. -/
theorem hopEnds_down {s : State} (hwaits : ∀ w ∈ s.cw.waitCmd, ∃ a ∈ w.expect, a ≠ 0) :
    KeepsLanes s (hopEnds .down s) ∧ (hopEnds .down s).cw.waitCmd = none := by
  have hgiven : KeepsLanes (strand s) (onCw (fun c => { c with waitCmd := none }) (strand s)) := ⟨rfl, rfl, rfl, rfl, fun _ => rfl⟩
  rw [hopEnds_down_eq]
  split
  · exact ⟨((strand_keepsLanes s).trans hgiven).trans (failSend_lanes _), (failSend_lanes _).waitCmd rfl⟩
  · next hnone =>
    refine ⟨strand_keepsLanes s, (strand_keepsLanes s).waitCmd ?_⟩
    cases hwait : s.cw.waitCmd with
    | none => rfl
    | some w =>
      obtain ⟨a, ha, hne⟩ := hwaits w hwait
      refine absurd ?_ hnone
      rw [hwait]
      exact List.any_eq_true.2 ⟨a, ha, by simpa using hne⟩

/-- What a running port's failure leaves where no command waits in a ring or has been relayed. -/
structure HopLost (x : Port) (s t : State) : Prop where
  port : cwPort x t = { cwPort x s with state := 0, measuring := false, wanted := true, newDelay := none }
  idle : drainAll t = t
  alone : x = .up → isFollower s = true → t.cw.alone = true
  given : x = .down → t.cw.waitCmd = none

theorem portStops_keeps (x : Port) (s : State) : pointers (portStops x s) = pointers s ∧ (portStops x s).cw.inCmd = s.cw.inCmd ∧
    (portStops x s).cw.waitCmd = s.cw.waitCmd ∧ isFollower (portStops x s) = isFollower s := by
  cases x <;> exact ⟨rfl, rfl, rfl, rfl⟩

theorem portFails_lost {x : Port} {s : State} (cause : Nat) (hempty : ∀ q : Fin 4, s.queues[q].sqHead = s.queues[q].sqTail)
    (hnone : s.cw.inCmd = []) (hwaits : ∀ w ∈ s.cw.waitCmd, ∃ a ∈ w.expect, a ≠ 0) : HopLost x s (portFails x cause s) := by
  obtain ⟨hstopped, hstopIn, hstopWait, hstopFollows⟩ := portStops_keeps x s
  have htold : KeepsLanes (portStops x s) (tellPort x cause (portStops x s)) := keepsLanes_of_only (tellPort_plain ..) rfl
  have htoldCw : (tellPort x cause (portStops x s)).cw = (portStops x s).cw := (tellPort_plain ..).same .cw rfl
  have hfollows : isFollower (tellPort x cause (portStops x s)) = isFollower s := by
    rw [← hstopFollows, isFollower, isFollower, htoldCw]
  have hwait : (tellPort x cause (portStops x s)).cw.waitCmd = s.cw.waitCmd := by rw [htoldCw, hstopWait]
  have hin : (tellPort x cause (portStops x s)).cw.inCmd = [] := by rw [htoldCw, hstopIn, hnone]
  have hends : KeepsLanes (tellPort x cause (portStops x s)) (portFails x cause s) ∧
      ((portFails x cause s).cw.waitCmd = s.cw.waitCmd ∨ (portFails x cause s).cw.waitCmd = none) ∧
      (x = .up → isFollower s = true → (portFails x cause s).cw.alone = true) ∧
      (x = .down → (portFails x cause s).cw.waitCmd = none) := by
    cases x with
    | up =>
      obtain ⟨hkeeps, hsame, halone⟩ := hopEnds_up hin
      exact ⟨hkeeps, .inl (hsame.trans hwait), fun _ h => halone (hfollows.trans h), nofun⟩
    | down =>
      obtain ⟨hkeeps, hgone⟩ := hopEnds_down (hwait ▸ hwaits)
      exact ⟨hkeeps, .inr hgone, nofun, fun _ => hgone⟩
  obtain ⟨hkeeps, hleft, halone, hgiven⟩ := hends
  refine ⟨?_, drainAll_idle (fun q => ?_) (takeCmd_none (hkeeps.inCmd.trans hin)) (trySend_waits fun w hw => ?_), halone, hgiven⟩
  · exact (hkeeps.port x).trans ((htold.port x).trans (cwPort_onPort ..))
  · have hq := congrFun (hkeeps.pointers.trans (htold.pointers.trans hstopped)) q
    rw [pointers, pointers, Prod.mk.injEq] at hq
    rw [hq.1, hq.2, hempty q]
  · rcases hleft with hsame | hgone
    · obtain ⟨a, ha, -⟩ := hwaits w (hsame ▸ hw)
      exact List.ne_nil_of_mem ha
    · rw [hgone] at hw
      cases hw

theorem portLost_runs {x : Port} {s : State} (h : 2 ≤ (cwPort x s).state) (cause : Nat) :
    portLost x cause s = drainAll (portFails x cause s) := by
  unfold portLost
  split
  · next h0 => omega
  · next h1 => omega
  · rfl

end Sys2Proof.Machine

/-! # Ports follow their echoes (R448, R453) -/

namespace Sys2Proof.Machine

section
variable {x : Port} {p : Packet} {s : State}

theorem echoed_arrived (h : Arrives 0x01 x p s) : echoed p s =
    cwEmit x 0x02 0 false 0 (BitVec.ofNat 21 (fld p.arg 0 8 + (drawFree s).1.toNat % 8192 * 256)) [] (drawFree s).2 := by
  obtain ⟨rfl, -⟩ := id h
  exact receive_arrived h

/-- What an answer to an ECHO comes to on the port that it reaches. -/
def answeredOn (x : Port) (p : Packet) (r : Nat) (s : State) : State :=
  let c := cwPort x s
  let sum := c.echoSum + (r - 4 * fld p.arg 8 13)
  let s1 := onPort x (fun c => { c with echoes := c.echoes + 1, echoSum := sum }) s
  if c.echoes + 1 < 256 then sendEcho x s1
  else
    let s2 := onPort x (fun c => { c with measuring := false }) s1
    if c.state = 2 then onPort x (fun c => { c with newDelay := some (divRound sum 512) }) s2
    else if 960 < divRound sum 512 then portAttemptFails x 4 (onPort x (fun c => { c with delay := divRound sum 512 }) s2)
    else drainAll (portRuns x (divRound sum 512) s2)

theorem echoAnswered_stray (h : Arrives 0x02 x p s) (r : Nat) (hidle : (cwPort x s).measuring = false) :
    echoAnswered p r s = s := by
  obtain ⟨rfl, -⟩ := id h
  unfold echoAnswered
  rw [receive_arrived h]
  exact if_pos (by rw [hidle]; rfl)

theorem echoAnswered_measured (h : Arrives 0x02 x p s) (r : Nat) (hmeasures : (cwPort x s).measuring = true) :
    echoAnswered p r s = answeredOn x p r s := by
  obtain ⟨rfl, -⟩ := id h
  unfold echoAnswered
  rw [receive_arrived h]
  exact if_neg (by rw [hmeasures]; decide)

/-- A port's lane takes a packet without words. -/
theorem sends_echo (x : Port) (ptype : BitVec 8) (arg : BitVec 21) {u : State} (h : u.out = s.out) :
    Sends (.cw x ptype 0 false 0 arg []) s (settle (cwEmit x ptype 0 false 0 arg [] u)) := by
  obtain ⟨lane, hlane⟩ : ∃ lane, (cwEmit x ptype 0 false 0 arg [] u).out = lane :: .cw x ptype 0 false 0 arg [] :: u.out := ⟨_, rfl⟩
  exact sends_of_lane (hlane.trans (by rw [h]))

theorem onPort_out (x : Port) (f : CwPort → CwPort) (s : State) : (onPort x f s).out = s.out := by
  cases x <;> rfl

theorem onPort_clk (x : Port) (f : CwPort → CwPort) (s : State) : (onPort x f s).clk = s.clk := by
  cases x <;> rfl

theorem remeasure_runs (h : (cwPort x s).state = 2) (hcut : x = .down → s.cw.cutDown = false) : remeasure x s = measure x s := by
  refine if_pos ?_
  simp only [h, decide_true, Bool.true_and, Bool.not_eq_true', Bool.and_eq_false_imp, beq_iff_eq]
  exact hcut

theorem measure_port (x : Port) (s : State) : cwPort x (measure x s) = { cwPort x s with echoes := 0, echoSum := 0, measuring := true } :=
  (cwPort_of_only (sendEcho_only ..) rfl x).trans (cwPort_onPort ..)

theorem measure_sends (x : Port) (s : State) : Sends (.cw x 0x01 0 false 0 0 []) s (settle (measure x s)) := by
  unfold measure sendEcho
  rw [cwPort_onPort]
  exact sends_echo x 0x01 0 (onPort_out ..)

theorem portRetry_waits (h : ∀ n, (cwPort x s).retryTick = some n → s.clk.tick < n) : portRetry x s = s := by
  unfold portRetry
  split
  · next n hn => exact if_neg (by have := h n hn; omega)
  · rfl

theorem portRetry_due {n : Nat} (h : (cwPort x s).retryTick = some n) (hn : n ≤ s.clk.tick) :
    portRetry x s = onPort x (fun c => { c with retryTick := none, wanted := true }) s := by
  unfold portRetry
  rw [h]
  exact if_pos hn

theorem portLost_down (h : (cwPort x s).state = 0) (cause : Nat) : portLost x cause s = s := by
  unfold portLost
  rw [h]
  rfl

theorem portLost_attempt (h : (cwPort x s).state = 1) (cause : Nat) : portLost x cause s = portAttemptFails x 5 s := by
  unfold portLost
  rw [h]
  rfl

/-- The rows of a port whose words are lost. -/
theorem portRow_exec {i : Instr} (h : i = .cwPortSilent x ∨ i = .cwLockLost x) (s : State) :
    ∃ cause, exec i s = .next (settle (portLost x cause s)) := by
  rcases h with rfl | rfl
  · exact ⟨2, rfl⟩
  · exact ⟨1, rfl⟩

end

/-- Settles O43: an answer counts, ends the attempt or lets the port run; a port fails by what it was doing. -/
theorem portsFollowTheirEchoes : Obligations.PortsFollowTheirEchoes := by
  unfold Obligations.PortsFollowTheirEchoes
  intro x p r s c sum ends
  have answered (h : Arrives 0x02 x p s) (hm : c.measuring = true) :
      exec (.echoReply p r) s = .next (settle (answeredOn x p r s)) := exec_of_effect rfl (echoAnswered_measured h r hm)
  refine ⟨fun h => ?_, fun h hidle => ?_, fun h hm => ⟨fun hfew => ?_, fun hall hruns => ?_, fun hall hruns hslow => ?_,
    fun hall hruns hfast hquiet => ?_⟩, fun hdown => ⟨?_, ?_⟩, fun hattempt i hi => ?_, fun hup hempty hnone hwaits i hi => ?_,
    fun hidle => ?_, fun hup hcut => ?_, fun hwaits => ?_, fun n hn hdue => ?_⟩
  · refine ends_of (exec_of_effect rfl (echoed_arrived h)) ?_ rfl
      ⟨(drawFree s).1.toNat % 8192, Nat.mod_lt _ (by decide), sends_echo x 0x02 _ rfl⟩
    exact only_step (cwEmit_only ..) rfl (only_mono (drawFree_only s) rfl)
  · exact exec_of_effect rfl (echoAnswered_stray h r hidle)
  · have hrun : answeredOn x p r s = sendEcho x (onPort x (fun c => { c with echoes := c.echoes + 1, echoSum := sum }) s) := if_pos hfew
    refine ends_of ((answered h hm).trans (by rw [hrun])) ?_ rfl ⟨?_, ?_⟩
    · exact only_step (sendEcho_only ..) rfl (only_mono (onPort_only ..) rfl)
    · rw [cwPort_settle, cwPort_of_only (sendEcho_only ..) rfl, cwPort_onPort]
    · unfold sendEcho
      rw [cwPort_onPort]
      exact sends_echo x 0x01 _ (onPort_out ..)
  · have hmany : ¬ c.echoes + 1 < 256 := by omega
    have hrun : answeredOn x p r s = onPort x (fun c => { c with newDelay := some (divRound sum 512) })
        (onPort x (fun c => { c with measuring := false })
          (onPort x (fun c => { c with echoes := c.echoes + 1, echoSum := sum }) s)) :=
      (if_neg hmany).trans (if_pos hruns)
    refine ends_of ((answered h hm).trans (by rw [hrun])) ?_ rfl ?_
    · exact only_step (onPort_only ..) rfl (only_step (onPort_only ..) rfl (only_mono (onPort_only ..) rfl))
    · rw [cwPort_settle, cwPort_onPort, cwPort_onPort, cwPort_onPort]
      exact ⟨rfl, rfl, rfl⟩
  · have hmany : ¬ c.echoes + 1 < 256 := by omega
    have hrun : answeredOn x p r s = portAttemptFails x 4 (onPort x (fun c => { c with delay := divRound sum 512 })
        (onPort x (fun c => { c with measuring := false })
          (onPort x (fun c => { c with echoes := c.echoes + 1, echoSum := sum }) s))) :=
      (if_neg hmany).trans ((if_neg hruns).trans (if_pos hslow))
    refine ends_of ((answered h hm).trans (by rw [hrun])) ?_ rfl ?_
    · exact only_step (portAttemptFails_plain ..) rfl
        (only_step (onPort_only ..) rfl (only_step (onPort_only ..) rfl (only_mono (onPort_only ..) rfl)))
    · rw [cwPort_settle, portAttemptFails_port, onPort_clk, onPort_clk, onPort_clk]
      exact ⟨rfl, rfl, rfl⟩
  · have hmany : ¬ c.echoes + 1 < 256 := by omega
    have hrun : answeredOn x p r s = drainAll (portRuns x (divRound sum 512) (onPort x (fun c => { c with measuring := false })
          (onPort x (fun c => { c with echoes := c.echoes + 1, echoSum := sum }) s))) :=
      (if_neg hmany).trans ((if_neg hruns).trans (if_neg (Nat.not_lt.2 hfast)))
    have hkeeps := portRuns_keepsLanes x (divRound sum 512) (onPort x (fun c => { c with measuring := false })
      (onPort x (fun c => { c with echoes := c.echoes + 1, echoSum := sum }) s))
    have hstill := hkeeps.quiet (quiet_onPort x _ (quiet_onPort x _ (quiet_onPort x _ hquiet)))
    refine ends_of ((answered h hm).trans (by rw [hrun, drainAll_quiet hstill])) ?_ rfl ?_
    · exact only_step (portRuns_only ..) rfl (only_step (onPort_only ..) rfl (only_mono (onPort_only ..) rfl))
    · rw [cwPort_settle, hkeeps.port, cwPort_onPort]
      exact ⟨rfl, rfl, rfl⟩
  · exact exec_of_effect rfl (portLost_down hdown 2)
  · exact exec_of_effect rfl (portLost_down hdown 1)
  · obtain ⟨cause, hexec⟩ := portRow_exec hi s
    refine ends_of (exec_of_effect hexec (portLost_attempt hattempt cause)) (portAttemptFails_plain ..) rfl ?_
    rw [cwPort_settle, portAttemptFails_port]
    exact ⟨rfl, rfl⟩
  · obtain ⟨cause, hexec⟩ := portRow_exec hi s
    have hlost := portFails_lost (x := x) cause hempty hnone hwaits
    refine ends_of (exec_of_effect hexec ((portLost_runs hup cause).trans hlost.idle)) (portFails_only ..) rfl ?_
    rw [cwPort_settle, settle_cw, hlost.port]
    exact ⟨rfl, rfl, hlost.alone, hlost.given⟩
  · refine exec_of_effect rfl (if_neg fun hmeasures => ?_)
    simp only [Bool.and_eq_true, Bool.not_eq_true', decide_eq_true_eq, Bool.and_eq_false_imp, beq_iff_eq] at hmeasures
    rcases hidle with hne | ⟨hx, hcut⟩
    · exact hne hmeasures.1
    · rw [hmeasures.2 hx] at hcut
      cases hcut
  · refine ends_of (exec_of_effect rfl (remeasure_runs hup hcut)) (only_mono (measure_only ..) rfl) rfl ⟨?_, measure_sends x s⟩
    rw [cwPort_settle, measure_port]
  · exact exec_of_effect rfl (portRetry_waits hwaits)
  · exact exec_of_effect rfl (portRetry_due hn hdue)

end Sys2Proof.Machine

/-! # Enumeration (R449, R450) -/

namespace Sys2Proof.Machine

/-! ## What leaves the block only grows -/

theorem cwEmit_out_grows (p : Port) (ptype : BitVec 8) (dst : BitVec 9) (bcast : Bool) (src : BitVec 9) (arg : BitVec 21)
    (ws : List (BitVec 64)) (s : State) : s.out <:+ (cwEmit p ptype dst bcast src arg ws s).out :=
  (List.suffix_cons ..).trans (List.suffix_cons ..)

theorem flushOwed_out_grows (k : Nat) (s : State) : s.out <:+ (flushOwed k s).out := by
  induction k generalizing s with
  | zero => exact List.suffix_rfl
  | succ k ih =>
    unfold flushOwed
    split
    · exact List.suffix_rfl
    · split
      · exact List.suffix_rfl
      · exact List.IsSuffix.trans (record_out_grows _ _ _ (onEv _ s)) (ih _)

theorem trimStore_out_grows (s : State) : s.out <:+ (trimStore s).out := by
  unfold trimStore
  extract_lets h c n s1 s2 d
  have h1 : s.out <:+ s1.out := flushOwed_out_grows 2 (onEv _ s)
  repeat' split
  · exact h1.trans (raise_out_grows _ _ _ (onEv _ s2))
  · exact h1
  · exact h1

theorem forwardRecord_out_grows (replay : Bool) (r : Relayed) (s : State) : s.out <:+ (forwardRecord replay r s).out := by
  unfold forwardRecord
  split
  · exact cwEmit_out_grows ..
  · exact List.suffix_rfl

theorem resendEvents_out_grows (s : State) : s.out <:+ (resendEvents s).out := by
  have hall (l : List Relayed) (u : State) : u.out <:+ (forEach l (forwardRecord true) u).out := by
    induction l generalizing u with
    | nil => exact List.suffix_rfl
    | cons r l ih => exact (forwardRecord_out_grows true r u).trans (ih _)
  exact List.IsSuffix.trans (pumpChain_out_grows 4096 (onEv _ s)) (hall _ _)

theorem updateObs_out_grows (s : State) : s.out <:+ (updateObs s).out := by
  unfold updateObs
  extract_lets able first ack told
  split
  · exact trimStore_out_grows (onEv _ s)
  · split
    · exact resendEvents_out_grows (onEv _ s)
    · exact List.suffix_rfl

/-- A packet of this device leaves where the port runs and is not closed by the cut. -/
theorem cwSend_leaves {p : Port} {s : State} (hup : (cwPort p s).state = 2) (hcut : p = .down → s.cw.cutDown = false)
    (ptype : BitVec 8) (dst arg : Nat) (ws : List (BitVec 64)) : ∃ data, (ws = [] → data = []) ∧
      .cw p ptype (BitVec.ofNat 9 dst) false (BitVec.ofNat 9 s.cw.addr) (BitVec.ofNat 21 arg) data ∈
        (cwSend p ptype dst arg ws s).out := by
  unfold cwSend
  rw [if_pos]
  · refine ⟨_, fun hnil => ?_, List.mem_cons_of_mem _ List.mem_cons_self⟩
    rw [hnil]
    rfl
  · simp only [hup, beq_self_eq_true, Bool.true_and, Bool.not_eq_true', Bool.and_eq_false_imp, beq_iff_eq]
    exact hcut

/-! ## A follower takes an address -/

/-- A device without an address. -/
def addressless (s : State) : State := onCw (fun c => { c with addr := 0x1FF, len := 0, follower := false }) s

/-- A follower with an address. -/
def addressTaken (a : Nat) (s : State) : State :=
  onCw (fun c => { c with addr := a, follower := true, alone := false, consec := 0, voteDue := true, cutDown := false }) s

theorem takeAddress_limited {a : Nat} {aSeen : Bool} {s : State} (hseen : (aSeen || isA s) = true) (ha : 15 < a) :
    takeAddress a aSeen s = sendEnumEnd a true (aSeen || isA s) (ownCommits (addressless s)) :=
  if_pos (by rw [hseen, decide_eq_true ha]; rfl)

/-- What takes an address leaves: the Causeway's record, and the packets that go out. -/
structure Took (a : Nat) (seen : Bool) (s t : State) : Prop where
  cw : t.cw = (addressTaken a s).cw
  report : s.cw.up.state = 2 → ∃ ws, .cw .up 0x21 0 false (BitVec.ofNat 9 a) (BitVec.ofNat 21 a) ws ∈ t.out
  next : s.cw.down.state = 2 → a < 511 → .cw .down 0x20 (BitVec.ofNat 9 (a + 1)) false (BitVec.ofNat 9 a)
    (BitVec.ofNat 21 (pack [(0, 9, a + 1), (9, 1, seen.toNat)])) [] ∈ t.out

theorem takeAddress_took {a : Nat} {aSeen : Bool} {s : State} (h : (aSeen || isA s) = false ∨ a ≤ 15) :
    Took a (aSeen || isA s) s (takeAddress a aSeen s) := by
  have hallowed : ¬ ((aSeen || isA s) && decide (15 < a)) = true := by
    rw [Bool.and_eq_true, decide_eq_true_eq]
    rintro ⟨hseen, ha⟩
    rcases h with hnot | hlow
    · rw [hnot] at hseen
      cases hseen
    · omega
  unfold takeAddress
  extract_lets seen s1 s2
  rw [if_neg hallowed]
  have hcw : s2.cw = s1.cw := (cwSend_only ..).same .cw rfl
  have hreport : s.cw.up.state = 2 → ∃ ws, .cw .up 0x21 0 false (BitVec.ofNat 9 a) (BitVec.ofNat 21 a) ws ∈ s2.out := by
    intro hup
    obtain ⟨ws, -, hleaves⟩ := cwSend_leaves (p := .up) (s := s1) hup nofun 0x21 0 a (reportWords s1)
    exact ⟨ws, hleaves⟩
  have hend (n : Nat) (many : Bool) : s2.out <:+ (sendEnumEnd n many seen s2).out := cwSend_out_grows ..
  have hendCw (n : Nat) (many : Bool) : (sendEnumEnd n many seen s2).cw = s1.cw := ((sendEnumEnd_only ..).same .cw rfl).trans hcw
  have hdown : s2.cw.down.state = s.cw.down.state := by rw [hcw]; rfl
  split
  · next hruns =>
    split
    · next h511 =>
      exact ⟨hendCw .., fun hup => (hreport hup).imp fun ws hws => (hend ..).subset hws, fun _ hlt => absurd h511 hlt.ne⟩
    · refine ⟨((cwSend_only ..).same .cw rfl).trans hcw,
        fun hup => (hreport hup).imp fun ws hws => (cwSend_out_grows ..).subset hws, fun _ _ => ?_⟩
      have hcut : s2.cw.cutDown = false := by rw [hcw]; rfl
      have haddr : s2.cw.addr = a := by rw [hcw]; rfl
      obtain ⟨ws, hnil, hleaves⟩ := cwSend_leaves (p := .down) (s := s2) hruns (fun _ => hcut) 0x20 (a + 1)
        (pack [(0, 9, a + 1), (9, 1, seen.toNat)]) []
      rw [hnil rfl, haddr] at hleaves
      exact hleaves
  · next hidle =>
    exact ⟨hendCw .., fun hup => (hreport hup).imp fun ws hws => (hend ..).subset hws,
      fun hruns => absurd (hdown.trans hruns) hidle⟩

/-- What the end of a row leaves of the addresses. -/
theorem updateObs_address (s : State) : (updateObs s).cw.addr = s.cw.addr ∧ (updateObs s).cw.len = s.cw.len ∧
    (updateObs s).cw.follower = s.cw.follower ∧ (updateObs s).cw.alone = s.cw.alone ∧ (updateObs s).cw.consec = s.cw.consec ∧
    (updateObs s).cw.voteDue = s.cw.voteDue ∧ (updateObs s).cw.cutDown = s.cw.cutDown := by
  obtain ⟨l, w, hcw⟩ := (updateObs_keepsChain s).cw
  rw [hcw]
  exact ⟨rfl, rfl, rfl, rfl, rfl, rfl, rfl⟩

/-! ## The head device settles the chain -/

/-- What a settled chain leaves (R450). -/
structure Settled (found : Nat) (seen : Bool) (s t : State) : Prop where
  len : t.cw.len = min found (if isA s || seen || s.cw.reports.any (fun r => r.2.2 == 0x41) then 16 else 512)
  addr : t.cw.addr = 0
  follower : t.cw.follower = false
  enumAt : t.cw.enumAt = none
  waitEnum : t.cw.waitEnum = false
  reports : ∀ r ∈ t.cw.reports, r.1 < t.cw.len

theorem settled_of_keepsChain {found : Nat} {many seen : Bool} {s t : State} (h : KeepsChain (settledChain found many seen s) t) :
    Settled found seen s t := by
  obtain ⟨l, w, hcw⟩ := h.cw
  have hlen : t.cw.len = min found (if isA s || seen || s.cw.reports.any (fun r => r.2.2 == 0x41) then 16 else 512) := by
    rw [hcw]; rfl
  refine ⟨hlen, by rw [hcw]; rfl, by rw [hcw]; rfl, by rw [hcw]; rfl, by rw [hcw]; rfl, fun r hr => ?_⟩
  rw [hcw] at hr
  rw [hlen]
  exact of_decide_eq_true (List.mem_filter.1 hr).2

theorem enumEnded_heard {p : Packet} {s : State} (h : Heard 0x22 .down p s) : enumEnded p s =
    if (passOn 0x22 p s).cw.enumAt.isSome then
      drainAll (settleChain (fld p.arg 0 10) (bit p.arg 10) (bit p.arg 11) true (passOn 0x22 p s))
    else passOn 0x22 p s := addressed_heard h

/-- ENUM's timeout while no command waits. -/
theorem enumTimeout_settles {s : State} (h : s.cw.enumAt.isSome = true) (hquiet : Quiet s) :
    ∃ t, enumTimeout s = t ∧ Settled (s.cw.reports.length + 1) false s t ∧
      Only [.clk, .chans, .safety, .cxl, .queues, .ev, .flash, .upd, .cw, .out] t s := by
  refine ⟨_, rfl, ?_⟩
  unfold enumTimeout
  rw [if_neg (by rw [Option.isNone_eq_false_iff.2 h]; decide)]
  extract_lets n s1 s2
  have h1 : KeepsChain (settledChain n false false s) s1 := settleChain_keepsChain ..
  have h2 : KeepsChain s1 s2 := keepsChain_ite (hopFailed_keepsChain ..) (keepsChain_refl s1)
  have hstill : Quiet s2 := h2.keepsLanes.quiet ((settleChain_keepsLanes ..).quiet hquiet)
  have hidle : s2.cw.waitCmd = none := hstill.2.2
  have hframe : Only [.clk, .chans, .safety, .cxl, .queues, .ev, .flash, .upd, .cw, .out] s2 s := by
    have hs1 : Only [.clk, .chans, .safety, .cxl, .queues, .ev, .flash, .upd, .cw, .out] s1 s := only_mono (settleChain_only ..) rfl
    unfold s2
    split
    · exact only_step (hopFailed_only ..) rfl hs1
    · exact hs1
  have hrun : (if s2.cw.waitCmd.any (fun w => w.expect.any fun a => decide (n ≤ a)) then failSend s2 else s2) = s2 := by
    rw [hidle]; rfl
  rw [hrun, drainAll_quiet hstill]
  exact ⟨settled_of_keepsChain (h1.trans h2), hframe⟩

/-! ## ENUM_CUT -/

theorem enumCutOff_arrived {p : Packet} {s : State} (h : Arrives 0x23 .up p s) : enumCutOff p s =
    if !hasAddress s then relay 0x23 p s
    else if fld p.arg 0 10 ≤ s.cw.addr then updateObs (ownCommits (addressless (relay 0x23 p s)))
    else if s.cw.addr + 1 = fld p.arg 0 10 then updateObs (onCw (fun c => { c with cutDown := true }) (relay 0x23 p s))
    else relay 0x23 p s :=
  (if_neg (by simp [h.1])).trans (receive_arrived h)

/-- A device that has lost its address. -/
theorem updateObs_addressless (s : State) : (updateObs (ownCommits (addressless s))).cw.addr = 0x1FF ∧
    (updateObs (ownCommits (addressless s))).cw.len = 0 ∧ (updateObs (ownCommits (addressless s))).cw.follower = false := by
  obtain ⟨haddr, hlen, hfollower, -⟩ := updateObs_address (ownCommits (addressless s))
  have hcw : (ownCommits (addressless s)).cw = (addressless s).cw := (ownCommits_only _).same .cw rfl
  rw [haddr, hlen, hfollower, hcw]
  exact ⟨rfl, rfl, rfl⟩

/-- Settles O44: addresses are offered, taken, kept and cut; the head device settles the chain by the reports that it has. -/
theorem enumerationGivesAddresses : Obligations.EnumerationGivesAddresses := by
  unfold Obligations.EnumerationGivesAddresses
  intro p s a own all settled
  have settles {found : Nat} {seen : Bool} {t : State} (h : Settled found seen s t) : settled found seen (settle t) := by
    unfold settled
    rw [settle_cw]
    exact ⟨h.len, h.addr, h.follower, h.enumAt, h.waitEnum, h.reports⟩
  refine ⟨fun hhead => ?_, fun hrole h => ⟨fun hseen ha => ?_, fun hallowed => ?_⟩, fun h => ?_, fun h hnone => ?_,
    fun h hsome hquiet => ?_, fun hnone => ?_, fun hsome hquiet => ?_, fun h hruns hquiet => ?_,
    fun h => ⟨fun hno => ?_, fun hhas hcut => ?_, fun hhas hlast => ?_, fun hhas hbefore => ?_⟩⟩
  · exact exec_of_effect rfl (if_pos hhead)
  · have hrun : enumOffered p s = updateObs (sendEnumEnd a true (bit p.arg 9 || isA s) (ownCommits (addressless s))) := by
      unfold enumOffered
      rw [if_neg (by rw [hrole]; decide), nextHop_arrived h, takeAddress_limited hseen ha]
    refine ends_of (exec_of_effect rfl hrun) (hrun ▸ enumOffered_only p s) rfl ?_
    obtain ⟨haddr, hlen, hfollower, -⟩ := updateObs_address (sendEnumEnd a true (bit p.arg 9 || isA s) (ownCommits (addressless s)))
    have hcw : (sendEnumEnd a true (bit p.arg 9 || isA s) (ownCommits (addressless s))).cw = (addressless s).cw :=
      ((sendEnumEnd_only ..).same .cw rfl).trans ((ownCommits_only _).same .cw rfl)
    rw [settle_cw, haddr, hlen, hfollower, hcw]
    exact ⟨rfl, rfl, rfl⟩
  · have hrun : enumOffered p s = updateObs (takeAddress a (bit p.arg 9) s) := by
      unfold enumOffered
      rw [if_neg (by rw [hrole]; decide), nextHop_arrived h]
    have htook := takeAddress_took hallowed
    obtain ⟨haddr, -, hfollower, halone, hconsec, hvote, hcut⟩ := updateObs_address (takeAddress a (bit p.arg 9) s)
    have hgrows : (takeAddress a (bit p.arg 9) s).out <:+ (settle (updateObs (takeAddress a (bit p.arg 9) s))).out :=
      (updateObs_out_grows _).trans (settle_out_grows _)
    refine ends_of (exec_of_effect rfl hrun) (hrun ▸ enumOffered_only p s) rfl ?_
    rw [settle_cw, haddr, hfollower, halone, hconsec, hvote, hcut, htook.cw]
    exact ⟨rfl, rfl, rfl, rfl, rfl, rfl, fun hup => (htook.report hup).imp fun ws hws => hgrows.subset hws,
      fun hdown hlt => hgrows.subset (htook.next hdown hlt)⟩
  · refine ends_of (exec_of_effect rfl rfl) (only_mono (reported_only p s) rfl) rfl ?_
    have hcw : (passOn 0x21 p s).cw = s.cw := (passOn_only ..).same .cw rfl
    rw [settle_cw, show reported p s = _ from addressed_heard h, onCw_cw, hcw]
  · have hpass : (passOn 0x22 p s).cw = s.cw := (passOn_only ..).same .cw rfl
    have hrun : enumEnded p s = passOn 0x22 p s := by
      rw [enumEnded_heard h, hpass, hnone]
      rfl
    exact ends_of (exec_of_effect rfl hrun) (only_mono (passOn_only ..) rfl) rfl trivial
  · have hpass : (passOn 0x22 p s).cw = s.cw := (passOn_only ..).same .cw rfl
    have hotp : (passOn 0x22 p s).otp = s.otp := (passOn_only ..).same .otp rfl
    have hstill : Quiet (passOn 0x22 p s) := quiet_of_only hquiet (passOn_only ..) rfl
    have hrun : enumEnded p s = settleChain (fld p.arg 0 10) (bit p.arg 10) (bit p.arg 11) true (passOn 0x22 p s) := by
      rw [enumEnded_heard h, hpass, hsome, if_pos rfl, drainAll_quiet ((settleChain_keepsLanes ..).quiet hstill)]
    refine ends_of (exec_of_effect rfl hrun) ?_ rfl (settles ?_)
    · exact only_step (settleChain_only ..) rfl (only_mono (passOn_only ..) rfl)
    · have hsettled : Settled (fld p.arg 0 10) (bit p.arg 11) (passOn 0x22 p s) _ :=
        settled_of_keepsChain (settleChain_keepsChain _ (bit p.arg 10) _ true _)
      have hvariant : isA (passOn 0x22 p s) = isA s := by rw [isA, isA, hotp]
      exact ⟨by rw [hsettled.len, hvariant, hpass], hsettled.addr, hsettled.follower, hsettled.enumAt, hsettled.waitEnum,
        hsettled.reports⟩
  · exact exec_of_effect rfl (if_pos (by rw [hnone]; rfl))
  · obtain ⟨t, hrun, hsettled, hframe⟩ := enumTimeout_settles hsome hquiet
    exact ends_of (exec_of_effect rfl hrun) hframe rfl (settles hsettled)
  · have hpass : (passOn 0x24 p s).cw = s.cw := (passOn_only ..).same .cw rfl
    have hclk : (passOn 0x24 p s).clk = s.clk := (passOn_only ..).same .clk rfl
    have hstill : Quiet (passOn 0x24 p s) := quiet_of_only hquiet (passOn_only ..) rfl
    have hstart : startEnum (passOn 0x24 p s) = cwEmit .down 0x20 1 false 0
        (BitVec.ofNat 21 (pack [(0, 9, 1), (9, 1, (isA (passOn 0x24 p s)).toNat)])) []
        (onCw (fun c => { c with addr := 0, reports := [], enumAt := some (passOn 0x24 p s).clk.now, cutDown := false })
          (passOn 0x24 p s)) := if_pos (by rw [hpass, hruns]; rfl)
    have hrun : enumAsked p s = startEnum (passOn 0x24 p s) := by
      rw [show enumAsked p s = _ from addressed_heard h, drainAll_quiet ((startEnum_keepsLanes _).quiet hstill)]
    refine ends_of (exec_of_effect rfl (hrun.trans hstart)) ?_ rfl ?_
    · exact only_step (cwEmit_only ..) rfl (only_step (only_onCw ..) rfl (only_mono (passOn_only ..) rfl))
    · rw [settle_cw, (cwEmit_only ..).same .cw rfl, onCw_cw, hpass, hclk]
  · have hrun : enumCutOff p s = relay 0x23 p s := by rw [enumCutOff_arrived h, hno]; rfl
    exact ends_of (exec_of_effect rfl hrun) (only_mono (relay_only ..) rfl) rfl trivial
  · have hrun : enumCutOff p s = updateObs (ownCommits (addressless (relay 0x23 p s))) := by
      rw [enumCutOff_arrived h, hhas, if_neg (by decide), if_pos hcut]
    refine ends_of (exec_of_effect rfl hrun) (hrun ▸ enumCutOff_only p s) rfl ?_
    rw [settle_cw]
    exact updateObs_addressless _
  · have hrun : enumCutOff p s = updateObs (onCw (fun c => { c with cutDown := true }) (relay 0x23 p s)) := by
      rw [enumCutOff_arrived h, hhas, if_neg (by decide), if_neg (by omega), if_pos hlast]
    refine ends_of (exec_of_effect rfl hrun) (hrun ▸ enumCutOff_only p s) rfl ?_
    obtain ⟨haddr, -, -, -, -, -, hcut⟩ := updateObs_address (onCw (fun c => { c with cutDown := true }) (relay 0x23 p s))
    have hcw : (relay 0x23 p s).cw = s.cw := (relay_only ..).same .cw rfl
    rw [settle_cw, haddr, hcut, onCw_cw, hcw]
    exact ⟨rfl, rfl⟩
  · have hrun : enumCutOff p s = relay 0x23 p s := by
      rw [enumCutOff_arrived h, hhas, if_neg (by decide), if_neg (by omega), if_neg (by omega)]
    exact ends_of (exec_of_effect rfl hrun) (only_mono (relay_only ..) rfl) rfl trivial

end Sys2Proof.Machine

/-! # The chain's tick (R451, R453 to R455) -/

namespace Sys2Proof.Machine

/-! ## The cut-off -/

/-- From s to t the tick's number and its cut-off stand. -/
structure SameCut (s t : State) : Prop where
  tick : t.clk.tick = s.clk.tick
  cutAt : t.clk.cutAt = s.clk.cutAt
  boundary : t.clk.boundary = s.clk.boundary
  reason : t.clk.reason = s.clk.reason

theorem sameCut_of_only {f : List Part} {s t : State} (h : Only f t s) (hf : f.contains Part.clk = false) : SameCut s t := by
  have hclk : t.clk = s.clk := h.same .clk hf
  exact ⟨by rw [hclk], by rw [hclk], by rw [hclk], by rw [hclk]⟩

theorem enterPhases_sameCut (s : State) : SameCut s (enterPhases s) := by
  have hclk := enterPhases_clk s
  exact ⟨by rw [hclk], by rw [hclk], by rw [hclk], by rw [hclk]⟩

/-- A head that no build runs on. -/
theorem pressing_congr {s t : State} (h : t.heads = s.heads) (k : Head) : pressing t k = pressing s k := by
  rw [pressing, pressing, h]

/-- A cut-off leaves no build under way. -/
theorem cutBuilds_pressing (k : Head) (s : State) : pressing (forEach allHeads cutBuild s) k = false := by
  obtain ⟨u, -, hrun⟩ := forEach_once (m := fun s => s.heads[k]) (f := cutBuild) (mem_allHeads k) (by decide)
    (fun j hj s => (cutBuild_heads j k s).trans (if_neg (Ne.symm hj))) s
  have hcut : (forEach allHeads cutBuild s).heads[k] = cutHead u.heads[k] := hrun.trans ((cutBuild_heads k k u).trans (if_pos rfl))
  unfold pressing
  rw [hcut]
  unfold cutHead
  split
  · rfl
  · next hidle => exact eq_false_of_ne_true hidle

/-- What a cut-off leaves of the tick (R17). -/
structure CutOff (cut b : Nat) (reason : Reason) (s t : State) : Prop where
  boundary : t.clk.boundary = some b
  cutAt : t.clk.cutAt = some cut
  reason : t.clk.reason = reason
  tick : t.clk.tick = s.clk.tick
  idle : ∀ h : Head, pressing t h = false

theorem cutOff_cuts (cut b : Nat) (reason : Reason) (s : State) : CutOff cut b reason s (cutOff cut b reason s) := by
  unfold cutOff
  extract_lets s1 s2 tags s3 s4
  have h1 : s1.clk.tick = s.clk.tick := (enterPhases_sameCut _).tick
  have h2 : SameCut s1 s2 := sameCut_of_only (only_forEach allHeads cutBuild cutBuild_only s1) rfl
  have hidle (h : Head) : pressing s2 h = false := cutBuilds_pressing h s1
  clear_value s2
  have h4 : SameCut (onClk (fun c => { c with cutAt := some cut, boundary := some b, reason := reason }) s3) s4 :=
    enterPhases_sameCut _
  have hheads : s4.heads = s2.heads := (enterPhases_only _).same .heads rfl
  have htick : s4.clk.tick = s.clk.tick := h4.tick.trans (h2.tick.trans h1)
  have hcut : s4.clk.boundary = some b ∧ s4.clk.cutAt = some cut ∧ s4.clk.reason = reason := ⟨h4.boundary, h4.cutAt, h4.reason⟩
  obtain ⟨hboundary, hcutAt, hreason⟩ := hcut
  clear_value s4
  have htold := only_forEach tags (fun t s => raise srcCommit evCommitLate (lateWord t.1 t.2) s) (fun _ _ => raise_only ..) s4
  have hsame := sameCut_of_only htold rfl
  refine ⟨hsame.boundary.trans hboundary, hsame.cutAt.trans hcutAt, hsame.reason.trans hreason, hsame.tick.trans htick, fun h => ?_⟩
  rw [pressing_congr (htold.same .heads rfl), pressing_congr hheads]
  exact hidle h

/-! ## BOUNDARY -/

/-- A copy of BOUNDARY goes on with AT recomputed. -/
def passBoundary (p : Packet) (s : State) : State :=
  sendBoundary (fld p.arg 0 21) (fld (wordOf p 1) 0 48)
    (twos 32 (ratRound (((((boundaryAhead p s).toNat : Rat) * 625 / 10000) - 264 / 10) * 4))) (fld (wordOf p 2) 32 16)
    (fld (wordOf p 2) 48 10) s

/-- A follower's boundary stands at an instant: what its first copy sets before the cut-off. -/
def boundarySet (p : Packet) (s : State) : State :=
  onClk (fun c => { c with alignTo := if c.tick + 1 < fld (wordOf p 1) 0 48 then some (fld (wordOf p 1) 0 48) else none })
    (onCw (fun c => { c with len := fld (wordOf p 2) 48 10, chainTmin := fld (wordOf p 2) 32 16, consec := 0 }) (passBoundary p s))

/-- The first copy of a boundary at an instant. -/
def boundaryPlaced (p : Packet) (s : State) (b : Nat) : State :=
  let s4 := cutOff (b - usT s.cfg.tick.tcut) b (reasonOf b s) (boundarySet p s)
  updateObs (if s4.cw.voteDue then sendVote s4.cfg.scan.chainVote (onCw (fun c => { c with voteDue := false }) s4) else s4)

/-- What a BOUNDARY comes to at a follower. -/
theorem boundaryHeard_arrived {p : Packet} {s : State} (h : Arrives 0x10 .up p s) : boundaryHeard p s =
    if !s.cw.follower || s.cw.alone then s
    else if signed 32 (fld (wordOf p 2) 0 32) < 0 || boundaryAhead p s < 0 then
      onPort .up (fun c => { c with discards := c.discards + 1 }) s
    else if s.clk.boundary.isSome || s.clk.held then passBoundary p s
    else boundaryPlaced p s (s.clk.now + divRound (boundaryAhead p s).toNat 32) := by
  unfold boundaryHeard boundaryPlaced boundarySet passBoundary
  rw [nextHop_arrived h]

theorem passBoundary_only (p : Packet) (s : State) : Only [.out] (passBoundary p s) s := sendBoundary_only ..

section
variable {p : Packet} {s : State} (h : Arrives 0x10 .up p s) (hlistens : (s.cw.follower && !s.cw.alone) = true)
include h

theorem boundaryHeard_deaf (hdeaf : (s.cw.follower && !s.cw.alone) = false) : boundaryHeard p s = s := by
  rw [boundaryHeard_arrived h]
  refine if_pos ?_
  cases hf : s.cw.follower
  · rfl
  · rw [hf, Bool.true_and, Bool.not_eq_false'] at hdeaf
    rw [hdeaf]
    rfl

include hlistens

theorem boundaryHeard_listens : boundaryHeard p s =
    if signed 32 (fld (wordOf p 2) 0 32) < 0 || boundaryAhead p s < 0 then
      onPort .up (fun c => { c with discards := c.discards + 1 }) s
    else if s.clk.boundary.isSome || s.clk.held then passBoundary p s
    else boundaryPlaced p s (s.clk.now + divRound (boundaryAhead p s).toNat 32) := by
  rw [boundaryHeard_arrived h]
  simp only [Bool.and_eq_true, Bool.not_eq_true'] at hlistens
  exact if_neg (by rw [hlistens.1, hlistens.2]; decide)

theorem boundaryHeard_late (hlate : signed 32 (fld (wordOf p 2) 0 32) < 0 ∨ boundaryAhead p s < 0) :
    boundaryHeard p s = onPort .up (fun c => { c with discards := c.discards + 1 }) s := by
  rw [boundaryHeard_listens h hlistens]
  exact if_pos (by simpa using hlate)

variable (hat : 0 ≤ signed 32 (fld (wordOf p 2) 0 32)) (hahead : 0 ≤ boundaryAhead p s)
include hat hahead

theorem boundaryHeard_again (hagain : s.clk.boundary.isSome = true ∨ s.clk.held = true) : boundaryHeard p s = passBoundary p s := by
  rw [boundaryHeard_listens h hlistens]
  exact (if_neg (by simpa using ⟨hat, hahead⟩)).trans (if_pos (by simpa using hagain))

theorem boundaryHeard_first (hnone : s.clk.boundary = none) (hfree : s.clk.held = false) :
    boundaryHeard p s = boundaryPlaced p s (s.clk.now + divRound (boundaryAhead p s).toNat 32) := by
  rw [boundaryHeard_listens h hlistens]
  exact (if_neg (by simpa using ⟨hat, hahead⟩)).trans (if_neg (by rw [hnone, hfree]; decide))

end

/-- What the first copy leaves of a follower's tick. -/
theorem boundaryPlaced_cuts (p : Packet) (s : State) (b : Nat) :
    CutOff (b - usT s.cfg.tick.tcut) b (reasonOf b s) s (boundaryPlaced p s b) ∧
      (boundaryPlaced p s b).cw.len = fld (wordOf p 2) 48 10 ∧ (boundaryPlaced p s b).cw.consec = 0 := by
  have hcut := cutOff_cuts (b - usT s.cfg.tick.tcut) b (reasonOf b s) (boundarySet p s)
  have hset : (boundarySet p s).clk.tick = s.clk.tick := by
    have hpass : (passBoundary p s).clk = s.clk := (passBoundary_only p s).same .clk rfl
    show (passBoundary p s).clk.tick = _
    rw [hpass]
  have hcw : (cutOff (b - usT s.cfg.tick.tcut) b (reasonOf b s) (boundarySet p s)).cw = (boundarySet p s).cw :=
    (cutOff_only ..).same .cw rfl
  unfold boundaryPlaced
  extract_lets s4
  have h4 : CutOff (b - usT s.cfg.tick.tcut) b (reasonOf b s) (boundarySet p s) s4 := hcut
  have h4cw : s4.cw.len = fld (wordOf p 2) 48 10 ∧ s4.cw.consec = 0 := by
    unfold s4
    rw [hcw]
    exact ⟨rfl, rfl⟩
  clear_value s4
  obtain ⟨hlen, hconsec⟩ := h4cw
  have hrest (t : State) (honly : Only [.cw, .out] t s4) (htlen : t.cw.len = s4.cw.len) (htconsec : t.cw.consec = s4.cw.consec) :
      CutOff (b - usT s.cfg.tick.tcut) b (reasonOf b s) s (updateObs t) ∧
        (updateObs t).cw.len = fld (wordOf p 2) 48 10 ∧ (updateObs t).cw.consec = 0 := by
    obtain ⟨-, hulen, -, -, huconsec, -⟩ := updateObs_address t
    have hall : Only [.chans, .safety, .cxl, .ev, .cw, .out] (updateObs t) s4 :=
      only_step (updateObs_only t) rfl (only_mono honly rfl)
    have hsame := sameCut_of_only hall rfl
    refine ⟨⟨hsame.boundary.trans h4.boundary, hsame.cutAt.trans h4.cutAt, hsame.reason.trans h4.reason,
      hsame.tick.trans (h4.tick.trans hset), fun k => ?_⟩, by rw [hulen, htlen, hlen], by rw [huconsec, htconsec, hconsec]⟩
    rw [pressing_congr (hall.same .heads rfl)]
    exact h4.idle k
  split
  · have hvote := sendVote_only s4.cfg.scan.chainVote (onCw (fun c => { c with voteDue := false }) s4)
    refine hrest _ (only_step hvote rfl (only_mono (only_onCw ..) rfl)) ?_ ?_
    · rw [hvote.same .cw rfl]; rfl
    · rw [hvote.same .cw rfl]; rfl
  · exact hrest s4 (only_refl _ s4) rfl rfl

/-! ## A missed BOUNDARY -/

/-- What stands when no copy has come by Tmax, before the cut-off. -/
def missed (s : State) : State :=
  let n := s.cw.consec + 1
  raise srcRelay evChainBoundaryMiss (missWord n (decide (2 ≤ n))) (reach (s.clk.start + usT (effTmax s))
    (onCw (fun c => { c with misses := sat 32 (c.misses + 1), consec := n, alone := decide (2 ≤ n) }) s))

theorem boundaryMissed_cuts {s : State} (hfollows : isFollower s = true) (hnone : s.clk.boundary = none)
    (hfree : s.clk.held = false) : boundaryMissed s =
      cutOff (s.clk.start + usT (effTmax s)) (s.clk.start + usT (effTmax s)) .tmax (missed s) :=
  if_pos (by rw [hfollows, hnone, hfree]; rfl)

theorem missed_cw (s : State) : (missed s).cw = { s.cw with
    misses := sat 32 (s.cw.misses + 1), consec := s.cw.consec + 1, alone := decide (2 ≤ s.cw.consec + 1) } :=
  (raise_only ..).same .cw rfl

/-! ## Modes and votes (R454, R455) -/

/-- A relayed packet changes nothing but what has left the block. -/
theorem passOn_eq (ptype : BitVec 8) (p : Packet) (s : State) : ∃ o x, passOn ptype p s = { s with out := o, cwScram := x } := by
  unfold passOn relay
  extract_lets o
  repeat' split
  all_goals exact ⟨_, _, rfl⟩

theorem modeRef_passOn (d : BitVec 384) (ptype : BitVec 8) (p : Packet) (s : State) : modeRef d (passOn ptype p s) = modeRef d s := by
  obtain ⟨o, x, hpass⟩ := passOn_eq ptype p s
  rw [hpass]
  rfl

theorem isFollower_passOn (ptype : BitVec 8) (p : Packet) (s : State) : isFollower (passOn ptype p s) = isFollower s := by
  obtain ⟨o, x, hpass⟩ := passOn_eq ptype p s
  rw [hpass]
  rfl

/-- The voting devices once a device's VOTE has come. -/
def votersAfter (p : Packet) (vs : List (Nat × Bool)) : List (Nat × Bool) :=
  if bit p.arg 20 then setVoter p.src.toNat (vs.any fun v => v.1 == p.src.toNat) vs else vs.filter fun v => v.1 != p.src.toNat

theorem mem_votersAfter {p : Packet} {vs : List (Nat × Bool)} {a : Nat} (ha : a ≠ p.src.toNat) (b : Bool) :
    (a, b) ∈ votersAfter p vs ↔ (a, b) ∈ vs := by
  unfold votersAfter setVoter
  split <;> simp [ha]

theorem voteHeard_heard {p : Packet} {s : State} (h : Heard 0x12 .down p s) :
    (voteHeard p s).cw.voters = votersAfter p s.cw.voters ∧ (voteHeard p s).clk.tick = s.clk.tick := by
  obtain ⟨o, x, hpass⟩ := passOn_eq 0x12 p s
  have hvoted : ∃ u : State, (voteHeard p s = u ∨ voteHeard p s = markValid u) ∧ u.cw.voters = votersAfter p s.cw.voters ∧
      u.clk.tick = s.clk.tick := by
    refine ⟨onCw (fun c => { c with voters := votersAfter p c.voters }) (passOn 0x12 p s), ?_, by rw [hpass]; rfl, by rw [hpass]; rfl⟩
    rw [show voteHeard p s = _ from addressed_heard h]
    exact (ite_eq_or_eq ..).symm
  obtain ⟨u, hrun, hvoters, htick⟩ := hvoted
  rcases hrun with hrun | hrun
  · rw [hrun]
    exact ⟨hvoters, htick⟩
  · rw [hrun]
    exact ⟨hvoters, htick⟩

/-- Settles O45: a follower's cut-off comes with BOUNDARY or at Tmax; modes, votes and caps are kept. -/
theorem chainTicksTogether : Obligations.ChainTicksTogether := by
  unfold Obligations.ChainTicksTogether
  intro p s ahead cut listens
  refine ⟨fun h => ⟨fun hdeaf => ?_, fun hlistens hlate => ?_, fun hlistens hat hahead hnone hfree => ?_,
    fun hlistens hat hahead hagain => ?_⟩, fun hno => ?_, fun hfollows hnone hfree => ?_,
    fun h => ⟨fun hfollows hfine => ?_, fun hno => ?_⟩, fun h => ?_, fun h => ?_⟩
  · exact exec_of_effect rfl (boundaryHeard_deaf h hdeaf)
  · exact exec_of_effect rfl (boundaryHeard_late h hlistens hlate)
  · have hrun := boundaryHeard_first h hlistens hat hahead hnone hfree
    refine ends_of (exec_of_effect rfl hrun) (by rw [← hrun]; exact only_mono (boundaryHeard_only p s) rfl) rfl ?_
    intro b
    obtain ⟨hcuts, hlen, hconsec⟩ := boundaryPlaced_cuts p s (s.clk.now + divRound (boundaryAhead p s).toNat 32)
    have hheads (u : State) : (settle u).heads = u.heads := (settle_only u).same .heads rfl
    rw [settle_clk, settle_cw]
    exact ⟨hcuts.boundary, hcuts.cutAt, hcuts.reason, hlen, hconsec, hcuts.tick,
      fun k => (pressing_congr (hheads _) k).trans (hcuts.idle k)⟩
  · have hrun := boundaryHeard_again h hlistens hat hahead hagain
    exact ends_of (exec_of_effect rfl hrun) (only_mono (passBoundary_only p s) rfl) rfl trivial
  · refine exec_of_effect rfl (if_neg fun hall => ?_)
    simp only [Bool.and_eq_true, Bool.not_eq_true', Option.isNone_iff_eq_none] at hall
    obtain ⟨⟨hfollows, hnone⟩, hfree⟩ := hall
    rw [hfollows, hnone, hfree] at hno
    simp at hno
  · have hrun := boundaryMissed_cuts hfollows hnone hfree
    refine ends_of (exec_of_effect rfl hrun) (by rw [← hrun]; exact only_mono (boundaryMissed_only s) rfl) rfl ?_
    intro b
    have hcuts := cutOff_cuts (s.clk.start + usT (effTmax s)) (s.clk.start + usT (effTmax s)) .tmax (missed s)
    have hcw : (cutOff (s.clk.start + usT (effTmax s)) (s.clk.start + usT (effTmax s)) .tmax (missed s)).cw = (missed s).cw :=
      (cutOff_only ..).same .cw rfl
    rw [settle_clk, settle_cw, hcw, missed_cw]
    exact ⟨hcuts.boundary, hcuts.cutAt, rfl, rfl, rfl⟩
  · have hpass : (passOn 0x11 p s).cw = s.cw := (passOn_only ..).same .cw rfl
    have hrun : modeHeard p s = onCw (fun c => { c with mode := some { payload := modePayload p, apply := fld (wordOf p 3) 0 48 } })
        (passOn 0x11 p s) := by
      rw [show modeHeard p s = _ from addressed_heard h]
      exact if_neg (by rw [isFollower_passOn, modeRef_passOn, hfollows, hfine]; decide)
    refine ends_of (exec_of_effect rfl hrun) (by rw [← hrun]; exact only_mono (modeHeard_only p s) rfl) rfl ?_
    rw [settle_cw, onCw_cw, hpass]
  · have hrun : modeHeard p s = passOn 0x11 p s := by
      rw [show modeHeard p s = _ from addressed_heard h]
      refine if_pos ?_
      rw [isFollower_passOn, modeRef_passOn]
      simpa using hno
    exact ends_of (exec_of_effect rfl hrun) (only_mono (passOn_only ..) rfl) rfl trivial
  · obtain ⟨hvoters, htick⟩ := voteHeard_heard h
    refine ends_of (exec_of_effect rfl rfl) (only_mono (voteHeard_only p s) rfl) rfl ?_
    rw [settle_cw, settle_clk, hvoters, htick]
    refine ⟨fun hno v hv => ?_, fun hyes => ?_, fun a ha b => mem_votersAfter ha b, rfl⟩
    · rw [votersAfter, hno, if_neg (by decide)] at hv
      simpa using (List.mem_filter.1 hv).2
    · rw [votersAfter, hyes, if_pos rfl]
      exact List.mem_cons_self
  · refine ends_of (exec_of_effect rfl rfl) (only_mono (capHeard_only p s) rfl) rfl ?_
    have hpass : (passOn 0x13 p s).cw = s.cw := (passOn_only ..).same .cw rfl
    rw [settle_cw, show capHeard p s = _ from addressed_heard h, onCw_cw, hpass]

end Sys2Proof.Machine

/-! # Commands cross the chain (R459) -/

namespace Sys2Proof.Machine

section
variable {p : Packet} {s : State}

/-- A state whose relayed commands, or whose CHAIN_SEND, are put back as they are. -/
theorem onCw_inCmd_self {l : List InCmd} (h : s.cw.inCmd = l) : onCw (fun c => { c with inCmd := l }) s = s := by
  subst h
  rfl

theorem onCw_waitCmd_self {w : Option SendWait} (h : s.cw.waitCmd = w) : onCw (fun c => { c with waitCmd := w }) s = s := by
  subst h
  rfl

/-- No descriptor waits in a ring. -/
def RingsEmpty (s : State) : Prop := ∀ q : Fin 4, s.queues[q].sqHead = s.queues[q].sqTail

theorem ringsEmpty_of_pointers {s t : State} (h : RingsEmpty s) (hp : pointers t = pointers s) : RingsEmpty t := by
  intro q
  have hq : pointers t q = pointers s q := congrFun hp q
  rw [pointers, pointers, Prod.mk.injEq] at hq
  rw [hq.1, hq.2, h q]

/-- A command that cannot execute: it waits for data, or for its core. -/
def Stuck (c : InCmd) (s : State) : Prop := c.left ≠ 0 ∨ queueIdle c.tq s = false

theorem takeCmd_stuck {c : InCmd} (hone : s.cw.inCmd = [c]) (hstuck : Stuck c s) : takeCmd s = none := by
  have hwaits : (c.left == 0 && queueIdle c.tq s && !waitsForLatch (opOf (cmdDesc c).1) s) = false := by
    rcases hstuck with hleft | hbusy
    · rw [beq_false_of_ne hleft]; rfl
    · rw [hbusy, Bool.and_false]; rfl
  simp only [takeCmd, hone, List.find?_cons, hwaits, List.find?_nil]

theorem trySend_none (h : s.cw.waitCmd = none) : trySend s = s := by
  simp only [trySend, h]

/-- A relayed command that can execute does, and where it leaves nothing to execute nothing else does. -/
theorem drainAll_one {c : InCmd} {x : State} (hnone : s.cw.inCmd = []) (hleft : c.left = 0) (hidle : queueIdle c.tq s = true)
    (hfree : waitsForLatch (opOf (cmdDesc c).1) s = false)
    (hx : x = trySend (execDesc (opOf (cmdDesc c).1) (cmdDesc c).2 c.via 0 s)) (hxnone : x.cw.inCmd = []) (hxwait : x.cw.waitCmd = none)
    (hxempty : RingsEmpty x) : drainAll (onCw (fun k => { k with inCmd := [c] }) s) = x := by
  have htake : takeCmd (onCw (fun k => { k with inCmd := [c] }) s) = some (c, s) := by
    have hruns : (c.left == 0 && queueIdle c.tq s && !waitsForLatch (opOf (cmdDesc c).1) s) = true := by
      rw [hleft, hidle, hfree]; rfl
    have hfind : [c].find? (fun c => c.left == 0 && queueIdle c.tq s && !waitsForLatch (opOf (cmdDesc c).1) s) = some c := by
      simp only [List.find?_cons, hruns]
    have hback : onCw (fun w => { w with inCmd := w.inCmd.erase c }) (onCw (fun k => { k with inCmd := [c] }) s) = s := by
      refine Eq.trans ?_ (onCw_inCmd_self hnone)
      show onCw (fun w => { w with inCmd := [c].erase c }) s = _
      rw [List.erase_cons_head]
    unfold takeCmd
    split
    · next d hd =>
      have hsome : some d = some c := hd.symm.trans hfind
      cases hsome
      rw [hback]
    · next hd => exact absurd (hd.symm.trans hfind) nofun
  have hrun : runCmds 2 (onCw (fun k => { k with inCmd := [c] }) s) = x := by
    have hstep : runCmds 2 (onCw (fun k => { k with inCmd := [c] }) s) =
        runCmds 1 (trySend (execDesc (opOf (cmdDesc c).1) (cmdDesc c).2 c.via 0 s)) := by
      simp only [runCmds, htake]
    rw [hstep, ← hx]
    exact runCmds_none (takeCmd_none hxnone) 1
  calc drainAll (onCw (fun k => { k with inCmd := [c] }) s)
      = forEach (allFin 4) drain (trySend x) := congrArg (fun y => forEach (allFin 4) drain (trySend y)) hrun
    _ = drainAll x := by unfold drainAll; rw [runCmds_none (takeCmd_none hxnone)]
    _ = x := drainAll_idle hxempty (takeCmd_none hxnone) (trySend_none hxwait)

/-! ## CMD and its data -/

/-- The command that a CMD brings. -/
def broughtBy (p : Packet) : InCmd :=
  { tq := Fin.ofNat 4 (fld p.arg 0 2), via := .chain, left := fld p.arg 2 6, off := 64 * fld p.arg 8 13, desc := content p }

theorem cmdHeard_alone (h : Heard 0x40 .up p s) (hnone : s.cw.inCmd = []) :
    cmdHeard p s = drainAll (onCw (fun c => { c with inCmd := [broughtBy p] }) (passOn 0x40 p s)) := by
  have hpass : (passOn 0x40 p s).cw.inCmd = [] := by
    rw [(passOn_only 0x40 p s).same .cw rfl, hnone]
  refine (show cmdHeard p s = _ from addressed_heard h).trans (congrArg drainAll ?_)
  show onCw (fun c => { c with inCmd := (passOn 0x40 p s).cw.inCmd ++ [broughtBy p] }) _ = _
  rw [hpass]
  rfl

/-- What a data packet writes into the staging area for a command. -/
def dataBytes (p : Packet) : List Byte := ((content p).map (fun w => toBytes 8 w.toNat)).flatten

theorem dataBytes_length (h : cwGood 0x41 p = true) : (dataBytes p).length = 1024 := by
  have hlen : (content p).length = 128 := by
    simp only [cwGood, Bool.and_eq_true, beq_iff_eq] at h
    obtain ⟨⟨⟨⟨-, htype⟩, hwords⟩, -⟩, -⟩ := h
    rw [content, List.length_dropLast, hwords, htype]
    rfl
  have hsum (l : List (BitVec 64)) : (l.map (fun w => toBytes 8 w.toNat)).flatten.length = 8 * l.length := by
    induction l with
    | nil => rfl
    | cons w l ih =>
      rw [List.map_cons, List.flatten_cons, List.length_append, ih, toBytes_length, List.length_cons]
      omega
  rw [dataBytes, hsum, hlen]

/-- The bytes of a data packet that stand in the staging area. -/
def landed (p : Packet) (d : InCmd) : List Byte :=
  if d.off + 1024 * fld p.arg 0 6 < stageLo then [] else (dataBytes p).take (stageHi - (d.off + 1024 * fld p.arg 0 6))

theorem dataHeard_none (h : Heard 0x41 .up p s) (hnone : s.cw.inCmd = []) :
    dataHeard p s = drainAll (passOn 0x41 p s) := by
  have hpass : (passOn 0x41 p s).cw.inCmd = [] := by
    rw [(passOn_only 0x41 p s).same .cw rfl, hnone]
  refine (show dataHeard p s = _ from addressed_heard h).trans (congrArg drainAll ?_)
  rw [hpass]
  exact onCw_inCmd_self hpass

theorem dataHeard_one {d : InCmd} (h : Heard 0x41 .up p s) (hone : s.cw.inCmd = [d]) (hvia : d.via = .chain) (hleft : d.left ≠ 0) :
    dataHeard p s = drainAll (onCw (fun c => { c with inCmd := [{ d with left := d.left - 1 }] })
      (onBar2 (fun m => memPut m (d.off + 1024 * fld p.arg 0 6) (landed p d)) (passOn 0x41 p s))) := by
  have hpass : (passOn 0x41 p s).cw.inCmd = [d] := by
    rw [(passOn_only 0x41 p s).same .cw rfl, hone]
  have htake : takeData (fld p.arg 0 6) (dataBytes p) [d] (passOn 0x41 p s) = ([{ d with left := d.left - 1 }],
      onBar2 (fun m => memPut m (d.off + 1024 * fld p.arg 0 6) (landed p d)) (passOn 0x41 p s)) :=
    if_neg (by simp [hleft, hvia])
  refine (show dataHeard p s = _ from addressed_heard h).trans (congrArg drainAll ?_)
  show onCw (fun c => { c with inCmd := (takeData (fld p.arg 0 6) (dataBytes p) (passOn 0x41 p s).cw.inCmd (passOn 0x41 p s)).1 })
    (takeData (fld p.arg 0 6) (dataBytes p) (passOn 0x41 p s).cw.inCmd (passOn 0x41 p s)).2 = _
  rw [hpass, htake]

/-! ## CMD_RESP -/

/-- The completion record that a CMD_RESP brings. -/
def answeredBy (p : Packet) : BitVec 512 := BitVec.ofNat 512 (leNat (dataBytes p))

/-- A CHAIN_SEND that a device has answered. -/
def answers (p : Packet) (w : SendWait) : SendWait :=
  if w.expect.contains p.src.toNat then
    { w with expect := w.expect.filter (fun x => x != p.src.toNat), answers := w.answers ++ [(p.src.toNat, answeredBy p)] }
  else w

theorem respHeard_heard (h : Heard 0x42 .down p s) :
    respHeard p s = drainAll (trySend (onCw (fun c => { c with waitCmd := s.cw.waitCmd.map (answers p) }) (passOn 0x42 p s))) := by
  have hpass : (passOn 0x42 p s).cw = s.cw := (passOn_only 0x42 p s).same .cw rfl
  refine (show respHeard p s = _ from addressed_heard h).trans (congrArg (fun x => drainAll (trySend x)) ?_)
  show onCw (fun c => { c with waitCmd := (passOn 0x42 p s).cw.waitCmd.map (answers p) }) _ = _
  rw [hpass]

end

/-! ## The CHAIN_SEND that waits completes -/

/-- What the completion of the CHAIN_SEND that the ring's queue 3 waits for leaves. -/
structure SendEnds (d : Deferred) (status : BitVec 16) (result : Nat) (s t : State) : Prop where
  cw : t.cw = s.cw
  waiting : t.queues[(3 : Fin 4)].waiting = none
  newest : ∃ e, newest 3 t = some e ∧ e.tag = d.tag ∧ e.slot = d.slot ∧ e.status = status ∧ e.result = BitVec.ofNat 320 result
  pointers : pointers t = pointers s

theorem finish_sendEnds {d : Deferred} {s : State} (hwaits : s.queues[(3 : Fin 4)].waiting = some d) (hq : d.queue = 3)
    (hv : d.via = .ring) (status : BitVec 16) (result : Nat) : SendEnds d status result s (finish 3 status result s) := by
  have hrun : finish 3 status result s = complete d status result (onQueue 3 (fun x => { x with waiting := none }) s) := by
    simp only [finish, hwaits]
  obtain ⟨hagrees, -, -, -, hwaiting, e, he, hrec⟩ := complete_ring hq hv status result (onQueue 3 (fun x => { x with waiting := none }) s)
  have hcw := congrArg State.cw hagrees
  rw [← hrun] at hcw hwaiting he
  refine ⟨hcw, hwaiting.trans (by rw [onQueue_queues, upd_get_self]), ⟨e, he, ?_⟩, ?_⟩
  · rcases hrec with rfl | rfl <;> exact ⟨rfl, rfl, rfl, rfl⟩
  · rw [hrun]
    exact (complete_pointers ..).trans (onQueue_pointers rfl rfl)

/-- With the CHAIN_SEND completed nothing is left to execute. -/
theorem drainAll_sendEnds {d : Deferred} {status : BitVec 16} {result : Nat} {s t : State} (h : SendEnds d status result s t)
    (hempty : RingsEmpty s) (hnone : s.cw.inCmd = []) (hsend : s.cw.waitCmd = none) : drainAll t = t :=
  drainAll_idle (ringsEmpty_of_pointers hempty h.pointers) (takeCmd_none (by rw [h.cw, hnone])) (trySend_none (by rw [h.cw, hsend]))

theorem trySend_single {a : Nat} {r : BitVec 512} {w : SendWait} {s : State} (h : s.cw.waitCmd = some w) (hexpect : w.expect = [])
    (hone : w.bcast = false) (hanswers : w.answers = [(a, r)]) :
    trySend s = finish 3 stOk (singleResult r) (onCw (fun c => { c with waitCmd := none }) s) := by
  simp only [trySend, h, hexpect, List.isEmpty_nil, if_true, hone, Bool.false_eq_true, if_false, hanswers, List.head?_cons]

theorem failSend_some {w : SendWait} {s : State} (h : s.cw.waitCmd = some w) : failSend s =
    finish 3 stChainHop (if w.bcast then bcastResult w.answers w.expect else 0) (onCw (fun c => { c with waitCmd := none }) s) := by
  simp only [failSend, h]

/-- Settles O47: relayed commands, their data and their answers, while no ring holds a descriptor. -/
theorem commandsCrossTheChain : Obligations.CommandsCrossTheChain := by
  unfold Obligations.CommandsCrossTheChain
  intro p s hempty c bytes rec_
  have hrings (ptype : BitVec 8) : RingsEmpty (passOn ptype p s) := by
    intro q
    rw [(passOn_only ptype p s).same .queues rfl]
    exact hempty q
  have hcw (ptype : BitVec 8) : (passOn ptype p s).cw = s.cw := (passOn_only ptype p s).same .cw rfl
  have hidleCore (ptype : BitVec 8) (q : Fin 4) : queueIdle q (passOn ptype p s) = queueIdle q s := by
    obtain ⟨o, x, hpass⟩ := passOn_eq ptype p s
    rw [hpass]
    rfl
  refine ⟨fun h hnone hsend => ⟨fun hstuck => ?_, fun hbcast hleft hidle hfree => ?_⟩, fun h hsend hnone => ?_,
    fun d h hsend hone hvia hleft hstuck => ?_, fun h hnone hsend => ?_, fun w h hnone hsend hmem hmore => ?_,
    fun w d h hnone hsend hone hanswers hexpect hwaits hq hv => ?_, fun hsend => ?_, fun w d hnone hsend hwaits hq hv => ?_⟩
  · have hstays : drainAll (onCw (fun k => { k with inCmd := [c] }) (passOn 0x40 p s)) =
        onCw (fun k => { k with inCmd := [c] }) (passOn 0x40 p s) := by
      refine drainAll_idle (hrings 0x40) (takeCmd_stuck rfl (hstuck.imp id fun hbusy => ?_)) (trySend_none ?_)
      · exact (hidleCore 0x40 c.tq).trans hbusy
      · rw [onCw_cw, hcw, hsend]
    refine ends_of (exec_of_effect rfl ((cmdHeard_alone h hnone).trans hstays)) ?_ rfl ?_
    · exact only_step (only_onCw ..) rfl (only_mono (passOn_only ..) rfl)
    · rw [settle_cw, onCw_cw, hcw]
  · intro x hxnone hxwait hxempty
    have hpass : passOn 0x40 p s = s := by rw [passOn, hbcast]; rfl
    refine exec_of_effect rfl ((cmdHeard_alone h hnone).trans ?_)
    rw [hpass]
    exact drainAll_one hnone hleft hidle hfree rfl hxnone hxwait hxempty
  · have hstays : drainAll (passOn 0x41 p s) = passOn 0x41 p s :=
      drainAll_idle (hrings 0x41) (takeCmd_none (by rw [hcw, hnone])) (trySend_none (by rw [hcw, hsend]))
    exact ends_of (exec_of_effect rfl ((dataHeard_none h hnone).trans hstays)) (only_mono (passOn_only ..) rfl) rfl trivial
  · have hstays (f : List Host.Cell → List Host.Cell) :
        drainAll (onCw (fun c => { c with inCmd := [{ d with left := d.left - 1 }] }) (onBar2 f (passOn 0x41 p s))) =
          onCw (fun c => { c with inCmd := [{ d with left := d.left - 1 }] }) (onBar2 f (passOn 0x41 p s)) := by
      refine drainAll_idle (hrings 0x41) (takeCmd_stuck rfl ?_) (trySend_none ?_)
      · rcases hstuck with hmore | hbusy
        · exact .inl (show d.left - 1 ≠ 0 by omega)
        · exact .inr ((hidleCore 0x41 d.tq).trans hbusy)
      · rw [onCw_cw, onBar2_cw, hcw, hsend]
    refine ends_of (exec_of_effect rfl ((dataHeard_one h hone hvia hleft).trans (hstays _))) ?_ rfl ⟨?_, fun hlo hhi => ?_⟩
    · exact only_step (only_onCw ..) rfl (only_step (only_onBar2 ..) rfl (only_mono (passOn_only ..) rfl))
    · rw [settle_cw, onCw_cw, onBar2_cw, hcw]
    · have hlanded : landed p d = bytes := by
        rw [landed, if_neg (by omega)]
        exact List.take_of_length_le (by rw [dataBytes_length h.1.2.2.2]; omega)
      rw [settle_bar2, onCw_bar2, onBar2_bar2, hlanded, (passOn_only 0x41 p s).same .bar2 rfl]
  · have hkept : onCw (fun c => { c with waitCmd := s.cw.waitCmd.map (answers p) }) (passOn 0x42 p s) = passOn 0x42 p s :=
      onCw_waitCmd_self (by rw [hcw, hsend]; rfl)
    have hwait : (passOn 0x42 p s).cw.waitCmd = none := by rw [hcw, hsend]
    have hrun : respHeard p s = passOn 0x42 p s := by
      rw [respHeard_heard h, hkept, trySend_none hwait]
      exact drainAll_idle (hrings 0x42) (takeCmd_none (by rw [hcw, hnone])) (trySend_none hwait)
    exact ends_of (exec_of_effect rfl hrun) (only_mono (passOn_only ..) rfl) rfl trivial
  · have hanswered : answers p w = { w with
        expect := w.expect.filter (fun x => x != p.src.toNat), answers := w.answers ++ [(p.src.toNat, rec_)] } :=
      if_pos (by simpa using hmem)
    have htry : trySend (onCw (fun c => { c with waitCmd := s.cw.waitCmd.map (answers p) }) (passOn 0x42 p s)) =
        onCw (fun c => { c with waitCmd := s.cw.waitCmd.map (answers p) }) (passOn 0x42 p s) := by
      refine trySend_waits fun v hv => ?_
      rw [onCw_cw, hsend, Option.map_some, hanswered] at hv
      cases hv
      obtain ⟨a, ha, hne⟩ := hmore
      exact List.ne_nil_of_mem (List.mem_filter.2 ⟨ha, by simpa using hne⟩)
    have hrun := (respHeard_heard h).trans ((congrArg drainAll htry).trans
      (drainAll_idle (hrings 0x42) (takeCmd_none (by rw [onCw_cw, hcw, hnone])) htry))
    refine ends_of (exec_of_effect rfl hrun) ?_ rfl ?_
    · exact only_step (only_onCw ..) rfl (only_mono (passOn_only ..) rfl)
    · rw [settle_cw, onCw_cw, hcw, hsend, Option.map_some, hanswered]
  · have hanswered : answers p w = { w with expect := [], answers := [(p.src.toNat, rec_)] } := by
      refine (if_pos (by simp [hexpect])).trans ?_
      rw [hexpect, hanswers]
      simp only [List.filter_cons, bne_self_eq_false, Bool.false_eq_true, if_false, List.filter_nil, List.nil_append]
      rfl
    have htry : trySend (onCw (fun c => { c with waitCmd := s.cw.waitCmd.map (answers p) }) (passOn 0x42 p s)) =
        finish 3 stOk (singleResult rec_) (onCw (fun c => { c with waitCmd := none }) (passOn 0x42 p s)) :=
      trySend_single (w := answers p w) (by rw [onCw_cw, hsend]; rfl) (by rw [hanswered]) (by rw [hanswered]; exact hone)
        (by rw [hanswered])
    have hends : SendEnds d stOk (singleResult rec_) (onCw (fun c => { c with waitCmd := none }) (passOn 0x42 p s))
        (finish 3 stOk (singleResult rec_) (onCw (fun c => { c with waitCmd := none }) (passOn 0x42 p s))) := by
      refine finish_sendEnds ?_ hq hv ..
      rw [onCw_queues, (passOn_only 0x42 p s).same .queues rfl]
      exact hwaits
    have hrun := (respHeard_heard h).trans ((congrArg drainAll htry).trans
      (drainAll_sendEnds hends (hrings 0x42) ((congrArg CwDyn.inCmd (hcw 0x42)).trans hnone) rfl))
    refine ends_of (exec_of_effect rfl hrun) ?_ rfl ?_
    · exact only_step (finish_only ..) rfl (only_step (only_onCw ..) rfl (only_mono (passOn_only ..) rfl))
    · rw [settle_cw, hends.cw, onCw_cw, hcw, settle_queues]
      obtain ⟨e, he, hrec⟩ := hends.newest
      exact ⟨rfl, hends.waiting, e, (congrArg (fun q => q[(3 : Fin 4)].journal.head?) (settle_queues _)).trans he, hrec⟩
  · exact exec_of_effect rfl (if_neg (by rw [hsend]; decide))
  · have hends : SendEnds d stChainHop (if w.bcast then bcastResult w.answers w.expect else 0)
        (onCw (fun c => { c with waitCmd := none }) s) (failSend s) := by
      rw [failSend_some hsend]
      exact finish_sendEnds (s := onCw (fun c => { c with waitCmd := none }) s) hwaits hq hv _ _
    have hrun : respTimeout s = failSend s :=
      (if_pos (by rw [hsend]; rfl)).trans (drainAll_sendEnds hends hempty hnone rfl)
    refine ends_of (exec_of_effect rfl hrun) (only_mono (failSend_only s) rfl) rfl ?_
    rw [settle_cw, hends.cw, onCw_cw, settle_queues]
    obtain ⟨e, he, htag, -, hstatus, -⟩ := hends.newest
    exact ⟨rfl, hends.waiting, e, (congrArg (fun q => q[(3 : Fin 4)].journal.head?) (settle_queues _)).trans he, htag, hstatus⟩

end Sys2Proof.Machine

/-! # The control packets of an update (R464, R467, R469) -/

namespace Sys2Proof.Machine

section
variable {p : Packet} {s : State}

/-- The record that a session writes depends on the flash alone. -/
theorem nextRecord_congr {s t : State} (h : t.flash = s.flash) : nextRecord t = nextRecord s :=
  congrArg (fun f : Flash => f.jobs.foldl _ f.record) h

theorem emptied_congr {s t : State} (h : t.flash = s.flash) : emptied t = emptied s :=
  congrArg (fun r => { withState (stagingOf r) 0 r with ids := r.ids.set (stagingOf r) 0 }) (nextRecord_congr h)

theorem control_other {op : Nat} {f : State → State} (h : fld p.arg 0 4 ≠ op) : control op p f s = s := if_pos h

theorem control_heard {op : Nat} {f : State → State} (h : Heard 0x33 .up p s) (hop : fld p.arg 0 4 = op) :
    control op p f s = f (passOn 0x33 p s) := (if_neg (not_not.2 hop)).trans (addressed_heard h)

/-- What a packet that goes on as well leaves as it was: everything that a session reads. -/
structure Passed (s t : State) : Prop where
  frame : Only [.out] t s
  upd : t.upd = s.upd
  flash : t.flash = s.flash
  clk : t.clk = s.clk
  cw : t.cw = s.cw

theorem passOn_passed (ptype : BitVec 8) (p : Packet) (s : State) : Passed s (passOn ptype p s) := by
  have h := passOn_only ptype p s
  exact ⟨h, h.same .upd rfl, h.same .flash rfl, h.same .clk rfl, h.same .cw rfl⟩

theorem openHow_passOn (chain : Bool) (r : OpenReq) (ptype : BitVec 8) (p : Packet) (s : State) :
    openHow chain r (passOn ptype p s) = openHow chain r s := by
  obtain ⟨o, x, hpass⟩ := passOn_eq ptype p s
  rw [hpass]
  rfl

theorem activateRef_passOn (x : Session) (reset : Bool) (ptype : BitVec 8) (p : Packet) (s : State) :
    activateRef x reset (passOn ptype p s) = activateRef x reset s := by
  obtain ⟨o, z, hpass⟩ := passOn_eq ptype p s
  rw [hpass]
  rfl

/-! ## OPEN -/

/-- A participant's open, by the way in which it ends. -/
def openHere (r : OpenReq) (how : Opening) (s : State) : State :=
  if !lengthOk r.pkg r.length then sendResp 0 stRange 0 s
  else
    match how with
    | .refused st => sendResp 0 st 0 s
    | _ =>
      let s1 := openEffect true r how { plainJob .erase with up := some (0, stOk, openBits how) } s
      if opensFresh how then s1 else sendResp 0 stOk (openBits how) s1

theorem ctrlOpen_heard (h : Heard 0x33 .up p s) (hop : fld p.arg 0 4 = 0) :
    ctrlOpen p s = openHere (openOf (ctrlPayload p)) (openHow true (openOf (ctrlPayload p)) s) (passOn 0x33 p s) := by
  rw [← openHow_passOn true (openOf (ctrlPayload p)) 0x33 p s]
  exact control_heard h hop

/-- An open that is refused sends its answer alone. -/
theorem openHere_refused {r : OpenReq} {how : Opening} (s : State)
    (h : lengthOk r.pkg r.length = false ∨ ∃ e, how = .refused e) : Only [.out] (openHere r how s) s := by
  unfold openHere
  split
  · exact sendResp_only ..
  · next hok =>
    obtain ⟨e, rfl⟩ := h.resolve_left (by simpa using hok)
    exact sendResp_only ..

theorem openHere_fresh {r : OpenReq} (s : State) (h : lengthOk r.pkg r.length = true) : openHere r (.fresh 1) s =
    addJob (plainJob .erase) (addJob { plainJob (.record (emptied s)) with tell := some 0, up := some (0, stOk, 0) }
      (newSession true r 1 s)) := if_neg (by rw [h]; decide)

theorem openHere_joined {r : OpenReq} (s : State) (h : lengthOk r.pkg r.length = true) : openHere r .joined s =
    sendResp 0 stOk (2 ^ 40)
      (onUpd (fun u => { u with session := u.session.map fun x => { x with joined := true, last := s.clk.now } }) s) :=
  if_neg (by rw [h]; decide)

/-! ## VERIFY -/

/-- A participant's verification is asked for. -/
def verifyHeard (s : State) : State :=
  match s.upd.session with
  | none => sendResp 1 stSessionState 0 s
  | some x =>
    if !x.chain then sendResp 1 (if x.joined then stOk else stSessionState) 0 s
    else resumeVerify (onUpd (fun u => { u with verifyDue := true }) (touch s))

theorem ctrlVerify_heard (h : Heard 0x33 .up p s) (hop : fld p.arg 0 4 = 1) : ctrlVerify p s = verifyHeard (passOn 0x33 p s) :=
  control_heard h hop

/-- A participant without a session of the chain only answers. -/
theorem verifyHeard_apart {s : State} (hapart : ∀ x ∈ s.upd.session, x.chain = false) : Only [.out] (verifyHeard s) s := by
  unfold verifyHeard
  split
  · exact sendResp_only ..
  · next x hx =>
    rw [if_pos (by rw [hapart x hx]; rfl)]
    exact sendResp_only ..

/-- A participant that is asked to verify. -/
def asked (s : State) : State := onUpd (fun u => { u with verifyDue := true }) (touch s)

theorem asked_session {x : Session} {s : State} (hx : s.upd.session = some x) :
    (asked s).upd.session = some { x with last := s.clk.now } := by
  show s.upd.session.map (fun x => { x with last := s.clk.now }) = _
  rw [hx]
  rfl

theorem verifyHeard_session {x : Session} {s : State} (hx : s.upd.session = some x) (hchain : x.chain = true) : verifyHeard s =
    if x.state = 1 && storing s then asked s
    else verifyHere { x with last := s.clk.now } (onUpd (fun u => { u with verifyDue := false }) (asked s)) := by
  have hdue : (asked s).upd.verifyDue = true := rfl
  have hask : verifyHeard s = resumeVerify (asked s) := by
    unfold verifyHeard
    rw [hx]
    exact if_neg (by rw [hchain]; decide)
  rw [hask, resumeVerify, hdue, if_neg (by decide), asked_session hx]
  rfl

/-- A staged image that is sound. -/
theorem verifyPart_sound {x : Session} {s : State} (hstate : x.state = 2) (hsound : verifyCause x s = none) (j : FlashJob) :
    verifyPart x j s = .inl { j with
      work := .record (withState (stagingOf (nextRecord s)) 2 (nextRecord s)), sess := some 3, tell := some 0 } := by
  unfold verifyPart
  rw [hstate, hsound]
  rfl

/-- A staged image that a check rejects. -/
theorem verifyPart_rejected {x : Session} {s : State} {c : Nat} (hstate : x.state = 2) (hcause : verifyCause x s = some c) (j : FlashJob) :
    verifyPart x j s = .inl { j with
      work := .record (emptied s), sess := some 0, tell := some 3
      answer := j.answer.map fun _ => (stSignature, 2 ^ 19 + c * 2 ^ 20)
      up := j.up.map fun u => (u.1, stSignature, 2 ^ 19 + c * 2 ^ 20) } := by
  unfold verifyPart
  rw [hstate, hcause]
  rfl

/-- A staged image is verified by one job. -/
theorem verifyHere_staged {x : Session} {s : State} (hstate : x.state = 2) : ∃ j, verifyHere x s = addJob j s := by
  unfold verifyHere
  cases hcause : verifyCause x s with
  | none =>
    rw [verifyPart_sound hstate hcause]
    exact ⟨_, rfl⟩
  | some c =>
    rw [verifyPart_rejected hstate hcause]
    exact ⟨_, rfl⟩

/-! ## ACTIVATE, ABORT and DISARM -/

/-- A participant's activation is armed. -/
def activateHeard (d : BitVec 384) (s : State) : State :=
  let t := fld d 64 48
  match s.upd.session with
  | none => sendResp 2 stSessionState 0 s
  | some x =>
    if !x.chain then sendResp 2 (if x.joined then stOk else stSessionState) 0 s
    else if t = 0 || !atTickOk s t then sendResp 2 stRange 0 s
    else
      match activateRef x (bit d 0) s with
      | some st => sendResp 2 st 0 (touch s)
      | none => sendResp 2 stOk 0 (touch (onUpd (fun u => { u with armed := some (t, bit d 0) }) s))

theorem ctrlActivate_heard (h : Heard 0x33 .up p s) (hop : fld p.arg 0 4 = 2) :
    ctrlActivate p s = activateHeard (ctrlPayload p) (passOn 0x33 p s) := control_heard h hop

theorem activateHeard_apart {d : BitVec 384} {s : State} (hapart : ∀ x ∈ s.upd.session, x.chain = false) :
    Only [.out] (activateHeard d s) s := by
  unfold activateHeard
  extract_lets t
  split
  · exact sendResp_only ..
  · next x hx =>
    rw [if_pos (by rw [hapart x hx]; rfl)]
    exact sendResp_only ..

theorem activateHeard_armed {d : BitVec 384} {x : Session} {s : State} (hx : s.upd.session = some x) (hchain : x.chain = true)
    (hlo : s.clk.tick + 8 ≤ fld d 64 48) (hhi : fld d 64 48 ≤ s.clk.tick + 65536) (hok : activateRef x (bit d 0) s = none) :
    activateHeard d s = sendResp 2 stOk 0 (touch (onUpd (fun u => { u with armed := some (fld d 64 48, bit d 0) }) s)) := by
  have htick : atTickOk s (fld d 64 48) = true := by
    rw [atTickOk, decide_eq_true ⟨hlo, hhi⟩, Bool.or_true]
  have hzero : fld d 64 48 ≠ 0 := by omega
  unfold activateHeard
  rw [hx]
  refine (if_neg (by rw [hchain]; decide)).trans ((if_neg ?_).trans (by rw [hok]))
  rw [htick, decide_eq_false hzero]
  decide

/-- A participant's session is ended. -/
def abortHeard (s : State) : State :=
  match s.upd.session with
  | none => s
  | some x =>
    if x.chain then endSession 0 (plainJob .erase) (onUpd (fun u => { u with verifyDue := false }) s)
    else onUpd (fun u => { u with session := some { x with joined := false } }) s

theorem ctrlAbort_heard (h : Heard 0x33 .up p s) (hop : fld p.arg 0 4 = 3) : ctrlAbort p s = abortHeard (passOn 0x33 p s) :=
  control_heard h hop

theorem ctrlDisarm_heard (h : Heard 0x33 .up p s) (hop : fld p.arg 0 4 = 4) : ctrlDisarm p s =
    if (passOn 0x33 p s).upd.session.any (·.chain) then onUpd (fun u => { u with armed := none }) (passOn 0x33 p s)
    else passOn 0x33 p s := control_heard h hop

/-! ## UPD_RESP -/

/-- A participant has left the session. -/
def leaves (p : Packet) (cause : Nat) (s : State) : State :=
  if (participants s).contains p.src.toNat then
    tryChain (raise srcUpdate evUpdateChainFail (chainFailWord p.src.toNat cause (BitVec.ofNat 16 (fld (wordOf p 1) 0 16)))
      (onUpd (fun u => { u with failed := u.failed ++ [p.src.toNat] }) s))
  else s

/-- The command that waits has asked this participant, which has not answered yet. -/
def awaited (p : Packet) (s : State) : Bool :=
  s.upd.wait.any fun w => w.op == fld p.arg 0 4 && w.expect.contains p.src.toNat && !w.answers.any (fun x => x.1 == p.src.toNat)

/-- An answer is kept for the command that waits. -/
def keepAnswer (p : Packet) (s : State) : State := onUpd (fun u => { u with wait := u.wait.map fun w => { w with
  answers := w.answers ++ [(p.src.toNat, BitVec.ofNat 16 (fld (wordOf p 1) 0 16), fld (wordOf p 1) 16 48)] } }) s

/-- An answer of a participant at the head device. -/
def respOf (p : Packet) (s : State) : State :=
  let op := fld p.arg 0 4
  let st := BitVec.ofNat 16 (fld (wordOf p 1) 0 16)
  if op = 0 && st == stChainHop then drainAll (hopFailed (fld (wordOf p 1) 16 48 % 512) s)
  else if op = 0 && st == stCrc then drainAll (leaves p 2 s)
  else if awaited p s then drainAll (tryChain (keepAnswer p s))
  else if op = 0 && st == stSessionBusy then drainAll (leaves p 0 s)
  else s

theorem respAnswered_heard (h : Heard 0x34 .down p s) : respAnswered p s = respOf p (passOn 0x34 p s) := addressed_heard h

end

end Sys2Proof.Machine

/-! # Control crosses the chain -/

namespace Sys2Proof.Machine

section
variable {p : Packet} {s : State}

theorem tryChain_none (h : s.upd.wait = none) : tryChain s = s := by
  simp only [tryChain, h]

theorem tryChain_unready {w : ChainWait} (h : s.upd.wait = some w) (hown : w.own = none) : tryChain s = s := by
  simp only [tryChain, h, hown]

theorem keepAnswer_upd (p : Packet) {w : ChainWait} (h : s.upd.wait = some w) : (keepAnswer p s).upd = { s.upd with
    wait := some { w with
      answers := w.answers ++ [(p.src.toNat, BitVec.ofNat 16 (fld (wordOf p 1) 0 16), fld (wordOf p 1) 16 48)] } } := by
  rw [keepAnswer, onUpd_upd, h]
  rfl

/-- An answer that this device's own part still outlasts. -/
theorem respOf_kept {w : ChainWait} (hquiet : Quiet s) (h : s.upd.wait = some w) (hop : w.op = fld p.arg 0 4)
    (hmem : p.src.toNat ∈ w.expect) (hnew : ∀ x ∈ w.answers, x.1 ≠ p.src.toNat)
    (hplain : fld p.arg 0 4 ≠ 0 ∨ (BitVec.ofNat 16 (fld (wordOf p 1) 0 16) ≠ stChainHop ∧
      BitVec.ofNat 16 (fld (wordOf p 1) 0 16) ≠ stCrc)) (hown : w.own = none) : respOf p s = keepAnswer p s := by
  have hawaited : awaited p s = true := by
    rw [awaited, h]
    simp only [Option.any_some, Bool.and_eq_true, beq_iff_eq, List.contains_iff_mem, Bool.not_eq_true', List.any_eq_false]
    exact ⟨⟨hop, hmem⟩, hnew⟩
  have hhop : ¬ (decide (fld p.arg 0 4 = 0) && BitVec.ofNat 16 (fld (wordOf p 1) 0 16) == stChainHop) = true := by
    simp only [Bool.and_eq_true, decide_eq_true_eq, beq_iff_eq, not_and]
    exact fun h0 => (hplain.resolve_left (not_not.2 h0)).1
  have hcrc : ¬ (decide (fld p.arg 0 4 = 0) && BitVec.ofNat 16 (fld (wordOf p 1) 0 16) == stCrc) = true := by
    simp only [Bool.and_eq_true, decide_eq_true_eq, beq_iff_eq, not_and]
    exact fun h0 => (hplain.resolve_left (not_not.2 h0)).2
  have htry : tryChain (keepAnswer p s) = keepAnswer p s :=
    tryChain_unready (w := { w with
      answers := w.answers ++ [(p.src.toNat, BitVec.ofNat 16 (fld (wordOf p 1) 0 16), fld (wordOf p 1) 16 48)] })
      (by rw [keepAnswer_upd p h]) hown
  refine (if_neg hhop).trans ((if_neg hcrc).trans ((if_pos hawaited).trans ?_))
  rw [htry]
  exact drainAll_quiet (quiet_of_only hquiet (only_onUpd ..) rfl)

/-- A participant whose blocks have failed, while no command waits. -/
theorem respOf_failed (hquiet : Quiet s) (hwait : s.upd.wait = none) (hop : fld p.arg 0 4 = 0)
    (hst : BitVec.ofNat 16 (fld (wordOf p 1) 0 16) = stCrc) (hmem : p.src.toNat ∈ participants s) : respOf p s =
      raise srcUpdate evUpdateChainFail (chainFailWord p.src.toNat 2 stCrc)
        (onUpd (fun u => { u with failed := u.failed ++ [p.src.toNat] }) s) := by
  have hraised (w : Nat) : tryChain (raise srcUpdate evUpdateChainFail w (onUpd (fun u => { u with failed := u.failed ++ [p.src.toNat] }) s)) =
      raise srcUpdate evUpdateChainFail w (onUpd (fun u => { u with failed := u.failed ++ [p.src.toNat] }) s) :=
    tryChain_none (by rw [(raise_only ..).same .upd rfl, onUpd_upd]; exact hwait)
  refine (if_neg ?_).trans ((if_pos ?_).trans ?_)
  · rw [hst]; simp [stCrc, stChainHop]
  · rw [hop, hst]; rfl
  · rw [leaves, if_pos (by simpa using hmem), hraised, hst]
    exact drainAll_quiet (quiet_raise (quiet_of_only hquiet (only_onUpd ..) rfl) ..)

/-- An answer that nothing waits for. -/
theorem respOf_stray (hwait : s.upd.wait = none) (hop : fld p.arg 0 4 ≠ 0) : respOf p s = s := by
  have hnone (b : Bool) : ¬ (decide (fld p.arg 0 4 = 0) && b) = true := by
    rw [decide_eq_false hop, Bool.false_and]; decide
  exact (if_neg (hnone _)).trans ((if_neg (hnone _)).trans ((if_neg (by rw [awaited, hwait]; exact Bool.false_ne_true)).trans (if_neg (hnone _))))

end

/-- Settles O49: a participant does what the head device asks of its session; the head device keeps the answers. -/
theorem controlCrossesTheChain : Obligations.ControlCrossesTheChain := by
  unfold Obligations.ControlCrossesTheChain
  intro p s op r a st res
  have hpass (ptype : BitVec 8) : Passed s (passOn ptype p s) := passOn_passed ptype p s
  have hp := hpass 0x33
  have hq := hpass 0x34
  refine ⟨fun h => exec_of_effect rfl (control_other h), fun h => exec_of_effect rfl (control_other h),
    fun h => exec_of_effect rfl (control_other h), fun h => exec_of_effect rfl (control_other h),
    fun h => exec_of_effect rfl (control_other h), fun h hop => ⟨fun hbad => ?_, fun hok hfresh => ?_, fun hok hjoined => ?_⟩,
    fun h hop => ⟨fun hapart => ?_, fun x hx hchain hstate hstoring => ?_, fun x hx hchain hstate => ?_⟩,
    fun h hop => ⟨fun hapart => ?_, fun x hx hchain hlo hhi href => ?_⟩,
    fun h hop => ⟨fun hnone => ?_, fun x hx hchain => ?_, fun x hx hchain => ?_⟩, fun h hop => ?_,
    fun h hquiet => ⟨fun w hw hwop hmem hnew hplain hown => ?_, fun hop hst hmem hwait => ?_, fun hwait hop => ?_⟩⟩
  · exact ends_of (exec_of_effect rfl (ctrlOpen_heard h hop)) (only_step (openHere_refused _ hbad) rfl (only_mono hp.frame rfl)) rfl
      trivial
  · have hrun := (ctrlOpen_heard h hop).trans ((congrArg (fun how => openHere r how _) hfresh).trans (openHere_fresh _ hok))
    refine ends_of (exec_of_effect rfl hrun) ?_ rfl ⟨?_, ?_, ?_⟩
    · exact only_step (addJob_only ..) rfl (only_step (addJob_only ..) rfl (only_step (newSession_only ..) rfl (only_mono hp.frame rfl)))
    · rw [settle_upd]
      show (newSession true r 1 (passOn 0x33 p s)).upd = _
      unfold newSession
      rw [onUpd_upd, onUpd_upd, hp.upd, hp.clk]
    · rw [settle_flash]
      show ((((passOn 0x33 p s).flash.jobs ++ [_]) ++ [_]).length = _)
      rw [hp.flash, List.length_append, List.length_append]
      rfl
    · rw [settle_flash]
      show (passOn 0x33 p s).flash.record = _
      rw [hp.flash]
  · have hrun := (ctrlOpen_heard h hop).trans ((congrArg (fun how => openHere r how _) hjoined).trans (openHere_joined _ hok))
    refine ends_of (exec_of_effect rfl hrun) ?_ rfl ?_
    · exact only_step (sendResp_only ..) rfl (only_step (only_onUpd ..) rfl (only_mono hp.frame rfl))
    · rw [settle_upd, (sendResp_only ..).same .upd rfl, onUpd_upd, hp.upd, hp.clk]
  · exact ends_of (exec_of_effect rfl (ctrlVerify_heard h hop))
      (only_step (verifyHeard_apart (hp.upd ▸ hapart)) rfl (only_mono hp.frame rfl)) rfl trivial
  · have hstill : storing (passOn 0x33 p s) = true := by rw [storing, hp.upd, hp.flash]; exact hstoring
    have hrun := (ctrlVerify_heard h hop).trans ((verifyHeard_session (hp.upd ▸ hx) hchain).trans
      (if_pos (by rw [hstate, hstill]; rfl)))
    refine ends_of (exec_of_effect rfl hrun) ?_ rfl ?_
    · exact only_step (only_onUpd ..) rfl (only_step (touch_only ..) rfl (only_mono hp.frame rfl))
    · rw [settle_upd, asked, onUpd_upd, touch, touch, onUpd_upd, onUpd_upd, hp.upd, hp.clk]
  · have hrun := (ctrlVerify_heard h hop).trans ((verifyHeard_session (hp.upd ▸ hx) hchain).trans
      (if_neg (by rw [hstate]; simp)))
    obtain ⟨j, hj⟩ := verifyHere_staged (x := { x with last := (passOn 0x33 p s).clk.now })
      (s := onUpd (fun u => { u with verifyDue := false }) (asked (passOn 0x33 p s))) hstate
    rw [hj] at hrun
    refine ends_of (exec_of_effect rfl hrun) ?_ rfl ⟨?_, ?_⟩
    · exact only_step (addJob_only ..) rfl (only_step (only_onUpd ..) rfl (only_step (only_onUpd ..) rfl
        (only_step (touch_only ..) rfl (only_mono hp.frame rfl))))
    · rw [settle_upd, touch, onUpd_upd]
      show { (touch (passOn 0x33 p s)).upd with verifyDue := false } = _
      rw [touch, onUpd_upd, hp.upd, hp.clk]
    · rw [settle_flash]
      show ((passOn 0x33 p s).flash.jobs ++ [j]).length = _
      rw [hp.flash, List.length_append]
      rfl
  · exact ends_of (exec_of_effect rfl (ctrlActivate_heard h hop))
      (only_step (activateHeard_apart (hp.upd ▸ hapart)) rfl (only_mono hp.frame rfl)) rfl trivial
  · have hrun := (ctrlActivate_heard h hop).trans (activateHeard_armed (hp.upd ▸ hx) hchain (hp.clk ▸ hlo) (hp.clk ▸ hhi)
      ((activateRef_passOn ..).trans href))
    refine ends_of (exec_of_effect rfl hrun) ?_ rfl ?_
    · exact only_step (sendResp_only ..) rfl (only_step (touch_only ..) rfl (only_step (only_onUpd ..) rfl (only_mono hp.frame rfl)))
    · rw [settle_upd, (sendResp_only ..).same .upd rfl, touch, touch, onUpd_upd, onUpd_upd, onUpd_upd, onUpd_clk, hp.upd, hp.clk]
  · have hrun : ctrlAbort p s = passOn 0x33 p s := by
      rw [ctrlAbort_heard h hop, abortHeard, hp.upd, hnone]
    exact ends_of (exec_of_effect rfl hrun) (only_mono hp.frame rfl) rfl trivial
  · have hrun : ctrlAbort p s =
        endSession 0 (plainJob .erase) (onUpd (fun u => { u with verifyDue := false }) (passOn 0x33 p s)) := by
      rw [ctrlAbort_heard h hop, abortHeard, hp.upd, hx]
      exact if_pos hchain
    refine ends_of (exec_of_effect rfl hrun) ?_ rfl ⟨?_, ?_⟩
    · exact only_step (endSession_only ..) rfl (only_step (only_onUpd ..) rfl (only_mono hp.frame rfl))
    · rw [settle_upd]
      show { (passOn 0x33 p s).upd with armed := none, transit := [], held := none, verifyDue := false } = _
      rw [hp.upd]
    · have hempty : emptied (onUpd (fun u => { u with verifyDue := false }) (passOn 0x33 p s)) = emptied s :=
        emptied_congr hp.flash
      rw [settle_flash, ← hempty]
      show (passOn 0x33 p s).flash.jobs ++ _ = _
      rw [hp.flash]
      rfl
  · have hrun : ctrlAbort p s = onUpd (fun u => { u with session := some { x with joined := false } }) (passOn 0x33 p s) := by
      rw [ctrlAbort_heard h hop, abortHeard, hp.upd, hx]
      exact if_neg (by rw [hchain]; decide)
    refine ends_of (exec_of_effect rfl hrun) (only_step (only_onUpd ..) rfl (only_mono hp.frame rfl)) rfl ?_
    rw [settle_upd, onUpd_upd, hp.upd]
  · have hrun := ctrlDisarm_heard h hop
    rw [hp.upd] at hrun
    refine ends_of (exec_of_effect rfl hrun) (only_ite _ (only_step (only_onUpd ..) rfl (only_mono hp.frame rfl)) (only_mono hp.frame rfl))
      rfl ?_
    rw [settle_upd]
    split
    · rw [onUpd_upd, hp.upd]
    · exact hp.upd
  · have hstill : Quiet (passOn 0x34 p s) := quiet_of_only hquiet hq.frame rfl
    have hw' : (passOn 0x34 p s).upd.wait = some w := by rw [hq.upd, hw]
    have hrun := (respAnswered_heard h).trans (respOf_kept hstill hw' hwop hmem hnew hplain hown)
    refine ends_of (exec_of_effect rfl hrun) (only_step (only_onUpd ..) rfl (only_mono hq.frame rfl)) rfl ?_
    rw [settle_upd, keepAnswer_upd p hw', hq.upd]
  · have hstill : Quiet (passOn 0x34 p s) := quiet_of_only hquiet hq.frame rfl
    have hrun := (respAnswered_heard h).trans (respOf_failed hstill (by rw [hq.upd, hwait]) hop hst
      (by rw [participants, hq.upd]; exact hmem))
    refine ends_of (exec_of_effect rfl hrun) ?_ rfl ?_
    · exact only_step (raise_only ..) rfl (only_step (only_onUpd ..) rfl (only_mono hq.frame rfl))
    · rw [settle_upd, (raise_only ..).same .upd rfl, onUpd_upd, hq.upd]
  · have hrun := (respAnswered_heard h).trans (respOf_stray (by rw [hq.upd, hwait]) hop)
    exact ends_of (exec_of_effect rfl hrun) (only_mono hq.frame rfl) rfl trivial

end Sys2Proof.Machine

/-! # Blocks cross the chain (R466) -/

namespace Sys2Proof.Machine

section
variable {p : Packet} {s : State}

/-- A packet of the chain session touches nothing but the session. -/
theorem touchChain_upd (s : State) : (touchChain s).upd = { s.upd with session := (touchChain s).upd.session } := by
  unfold touchChain
  split <;> rfl

theorem touchChain_transit (s : State) : (touchChain s).upd.transit = s.upd.transit := by rw [touchChain_upd]

theorem touchChain_held (s : State) : (touchChain s).upd.held = s.upd.held := by rw [touchChain_upd]

theorem touchChain_passOn (ptype : BitVec 8) (p : Packet) (s : State) :
    (touchChain (passOn ptype p s)).upd = (touchChain s).upd := by
  obtain ⟨o, x, hpass⟩ := passOn_eq ptype p s
  rw [hpass]
  unfold touchChain
  dsimp only
  split <;> rfl

/-- A packet arrives, goes on where it must, and its session is touched. -/
def touched (ptype : BitVec 8) (p : Packet) (s : State) : State := touchChain (passOn ptype p s)

theorem touched_only (ptype : BitVec 8) (p : Packet) (s : State) : Only [.upd, .out] (touched ptype p s) s :=
  only_step (touchChain_only _) rfl (only_mono (passOn_only ..) rfl)

theorem touched_transit (ptype : BitVec 8) (p : Packet) (s : State) : (touched ptype p s).upd.transit = s.upd.transit :=
  (touchChain_transit _).trans (congrArg UpdDyn.transit (passOn_passed ptype p s).upd)

/-! ## BLOCK_START -/

/-- A reception begins again in the buffer. -/
def beginIn (p : Packet) (s : State) (t : Transit) : Transit :=
  { t with crc := BitVec.ofNat 32 (fld (wordOf p 1) 0 32), length := fld (wordOf p 1) 32 17, parts := [], began := some s.clk.now }

/-- A buffer that has received nothing. -/
def emptyTransit (b : Nat) : Transit :=
  { block := b, length := 0, crc := 0, parts := [], whole := false, stored := false, acked := false, resends := 0, fails := 0, began := none }

/-- A block's start, once its session is touched. -/
def startHere (p : Packet) (s : State) : State :=
  let b := fld p.arg 0 5
  if s.upd.transit.any (fun t => t.block == b && !t.whole) then onTransit b (beginIn p s) s
  else if s.upd.transit.length < 2 then onUpd (fun u => { u with transit := u.transit ++ [beginIn p s (emptyTransit b)] }) s
  else s

theorem blockStarts_heard (h : Heard 0x30 .up p s) : blockStarts p s = startHere p (touched 0x30 p s) := addressed_heard h

/-! ## SEGMENT -/

/-- A buffer with a segment more. -/
def withPart (p : Packet) (t : Transit) : Transit :=
  { t with parts := (fld p.arg 5 6, dataBytes p) :: t.parts.filter fun x => x.1 != fld p.arg 5 6 }

/-- A segment, once its session is touched. -/
def segmentHere (p : Packet) (s : State) : State :=
  let b := fld p.arg 0 5
  match receiving b s with
  | none => if fld p.arg 5 6 = 63 && !s.upd.transit.any (fun t => t.block == b) then ackHop b true s else s
  | some t =>
    let s1 := onTransit b (fun _ => withPart p t) s
    if (withPart p t).parts.length = 64 then blockWhole (withPart p t) s1 else s1

theorem segmentHeard_heard (h : Heard 0x31 .up p s) : segmentHeard p s = segmentHere p (touched 0x31 p s) := addressed_heard h

theorem receiving_touched (ptype : BitVec 8) (p : Packet) (b : Nat) (s : State) : receiving b (touched ptype p s) = receiving b s := by
  rw [receiving, receiving, touched_transit]

/-- BLOCK_ACK leaves upstream. -/
theorem ackHop_leaves (b : Nat) (resend : Bool) {s : State} (hup : s.cw.up.state = 2) :
    .cw .up 0x32 (BitVec.ofNat 9 (s.cw.addr - 1)) false (BitVec.ofNat 9 s.cw.addr) (BitVec.ofNat 21 (b + 32 * resend.toNat)) [] ∈
      (ackHop b resend s).out := by
  obtain ⟨ws, hnil, hleaves⟩ := cwSend_leaves (p := .up) (s := s) hup nofun 0x32 (s.cw.addr - 1) (b + 32 * resend.toNat) []
  rw [hnil rfl] at hleaves
  exact hleaves

theorem receiving_some {b : Nat} {s : State} {x : Transit} (h : receiving b s = some x) : x.block = b := by
  have hx := List.find?_some h
  simp only [Bool.and_eq_true, beq_iff_eq] at hx
  exact hx.1

/-- What a test of the session says does not depend on when it was last touched. -/
theorem session_any_touched {f : Session → Bool} (hf : ∀ x n, f { x with last := n } = f x) (ptype : BitVec 8) (p : Packet) (s : State) :
    (touched ptype p s).upd.session.any f = s.upd.session.any f := by
  have hpass : (passOn ptype p s).upd = s.upd := (passOn_passed ptype p s).upd
  rw [touched, touchChain, ← hpass]
  split
  · cases hx : (passOn ptype p s).upd.session with
    | none => rw [touch, onUpd_upd, hx]; rfl
    | some x =>
      rw [touch, onUpd_upd, hx]
      exact hf x _
  · rfl

/-! ## A reception fails, or is whole -/

/-- A buffer whose reception has failed. -/
def failedOnce (x : Transit) : Transit := { x with began := none, parts := [], fails := x.fails + 1 }

theorem blockFails_again {t : Transit} (s : State) (h : t.fails < 8) :
    blockFails t s = ackHop t.block true (onTransit t.block failedOnce s) := if_pos h

/-- The ninth failure frees the buffer, and ends this device's part. -/
def givenUp (t : Transit) (s : State) : State :=
  onUpd (fun u => { u with transit := u.transit.filter fun x => x.block != t.block || x.whole }) (onTransit t.block failedOnce s)

theorem blockFails_ninth {t : Transit} (s : State) (h : 8 ≤ t.fails) : blockFails t s =
    if s.upd.session.any (·.chain) then tellUpdate 2 (setSession 0 (sendResp 0 stCrc 0 (givenUp t s))) else givenUp t s :=
  if_neg (Nat.not_lt.2 h)

theorem blockFails_ninth_upd {t : Transit} (s : State) (h : 8 ≤ t.fails) :
    (blockFails t s).upd.transit = (givenUp t s).upd.transit ∧
      (s.upd.session.any (·.chain) = true → (blockFails t s).upd.session = none) := by
  have hended : (tellUpdate 2 (setSession 0 (sendResp 0 stCrc 0 (givenUp t s)))).upd = { (givenUp t s).upd with session := none } := by
    rw [(tellUpdate_only ..).same .upd rfl]
    show { (sendResp 0 stCrc 0 (givenUp t s)).upd with session := none } = _
    rw [(sendResp_only ..).same .upd rfl]
  rw [blockFails_ninth s h]
  split
  · rw [hended]
    exact ⟨rfl, fun _ => rfl⟩
  · next hno => exact ⟨rfl, fun hyes => absurd hyes hno⟩

/-- With no block held back nothing starts when buffers become free. -/
theorem freeTransit_unheld {s : State} (h : s.upd.held = none) :
    freeTransit s = onUpd (fun u => { u with transit := u.transit.filter fun t => !(t.whole && t.stored && t.acked) }) s := by
  unfold freeTransit
  extract_lets s1
  have h1 : s1.upd.held = none := h
  rw [h1]

/-- This participant programs a whole block that it does not hold. -/
def programs (t : Transit) (s : State) : Bool :=
  stores s && !blockHeld t.block t.crc s && !(s.upd.session.any fun x => x.stored.getLsbD t.block)

/-- A whole block of the right CRC, acknowledged and forwarded. -/
def acknowledged (t : Transit) (s : State) : State :=
  ackHop t.block false (forwardBlock t.block (transitBytes t) t.crc
    (onTransit t.block (fun x => { x with whole := true, began := none, stored := !programs t s, acked := !hasDown s }) s))

theorem acknowledged_only (t : Transit) (s : State) : Only [.upd, .out] (acknowledged t s) s :=
  only_step (ackHop_only ..) rfl (only_step (forwardBlock_only ..) rfl (only_mono (onTransit_only ..) rfl))

theorem blockWhole_right {t : Transit} {s : State} (hcrc : crc32c (transitBytes t) = t.crc.toNat) (hheld : s.upd.held = none) :
    blockWhole t s = onUpd (fun u => { u with transit := u.transit.filter fun t => !(t.whole && t.stored && t.acked) })
      (if programs t s then addJob (plainJob (.block t.block (transitBytes t))) (acknowledged t s) else acknowledged t s) := by
  have hsame : (acknowledged t s).upd.held = none := by
    unfold acknowledged
    rw [(ackHop_only ..).same .upd rfl, (forwardBlock_only ..).same .upd rfl]
    exact hheld
  refine (if_neg (by rw [hcrc]; simp)).trans (freeTransit_unheld ?_)
  show (if programs t s then addJob (plainJob (.block t.block (transitBytes t))) (acknowledged t s)
    else acknowledged t s).upd.held = none
  split
  · exact hsame
  · exact hsame

theorem blockWhole_wrong {t : Transit} {s : State} (hcrc : crc32c (transitBytes t) ≠ t.crc.toNat) : blockWhole t s = blockFails t s :=
  if_pos (by simpa using hcrc)

/-! ## BLOCK_ACK -/

/-- A block that the device downstream holds. -/
def markAcked (b : Nat) (t : Transit) : Transit := if t.block == b then { t with acked := true } else t

/-- A block that is sent once more. -/
def markResent (b : Nat) (t : Transit) : Transit := if t.block == b then { t with resends := t.resends + 1 } else t

/-- The device downstream holds a block, or asks for it again. -/
def ackHere (p : Packet) (s : State) : State :=
  let b := fld p.arg 0 5
  let sent := (s.upd.transit.find? fun t => t.block == b).elim 0 (·.resends)
  if bit p.arg 5 && decide (sent < 8) then
    match blockAgain b s with
    | some x =>
      sendBlock b x.1 x.2 (onPort .down (fun c => { c with resends := c.resends + 1 })
        (onUpd (fun u => { u with transit := u.transit.map (markResent b) }) s))
    | none => s
  else drainAll (freeTransit (onUpd (fun u => { u with transit := u.transit.map (markAcked b) }) s))

theorem blockAcked_heard (h : Heard 0x32 .down p s) : blockAcked p s = ackHere p (passOn 0x32 p s) := addressed_heard h

theorem ackHere_held {s : State} (hheld : bit p.arg 5 = false) (hnone : s.upd.held = none) (hquiet : Quiet s) : ackHere p s =
    onUpd (fun u => { u with
      transit := (u.transit.map (markAcked (fld p.arg 0 5))).filter (fun t => !(t.whole && t.stored && t.acked)) }) s := by
  have hfree := freeTransit_unheld (s := onUpd (fun u => { u with transit := u.transit.map (markAcked (fld p.arg 0 5)) }) s) hnone
  refine (if_neg (by rw [hheld]; simp)).trans ((congrArg drainAll hfree).trans ?_)
  exact drainAll_quiet (quiet_of_only (quiet_of_only hquiet (only_onUpd ..) rfl) (only_onUpd ..) rfl)

theorem ackHere_again {s : State} {x : Transit} (hagain : bit p.arg 5 = true) (hone : s.upd.transit = [x])
    (hblock : x.block = fld p.arg 0 5) (hwhole : x.whole = true) (hfew : x.resends < 8) : ackHere p s =
    sendBlock (fld p.arg 0 5) (transitBytes x) x.crc (onPort .down (fun c => { c with resends := c.resends + 1 })
      (onUpd (fun u => { u with transit := u.transit.map (markResent (fld p.arg 0 5)) }) s)) := by
  have hfind : blockAgain (fld p.arg 0 5) s = some (transitBytes x, x.crc) := by
    simp only [blockAgain, hone, List.find?_cons, hblock, hwhole, beq_self_eq_true, Bool.and_self]
  have hsent : (s.upd.transit.find? fun t => t.block == fld p.arg 0 5).elim 0 (·.resends) = x.resends := by
    simp only [hone, List.find?_cons, hblock, beq_self_eq_true, Option.elim_some]
  unfold ackHere
  refine (if_pos ?_).trans (by rw [hfind])
  rw [hsent, hagain, decide_eq_true hfew]
  rfl

end

end Sys2Proof.Machine

/-! # The rows of a block in transit -/

namespace Sys2Proof.Machine

section
variable {p : Packet} {s : State}

theorem startHere_again (h : (s.upd.transit.any fun t => t.block == fld p.arg 0 5 && !t.whole) = true) :
    startHere p s = onTransit (fld p.arg 0 5) (beginIn p s) s := if_pos h

theorem startHere_fresh (h : (s.upd.transit.any fun t => t.block == fld p.arg 0 5 && !t.whole) = false)
    (hroom : s.upd.transit.length < 2) :
    startHere p s = onUpd (fun u => { u with transit := u.transit ++ [beginIn p s (emptyTransit (fld p.arg 0 5))] }) s :=
  (if_neg (by rw [h]; decide)).trans (if_pos hroom)

theorem startHere_full (h : (s.upd.transit.any fun t => t.block == fld p.arg 0 5 && !t.whole) = false)
    (hfull : 2 ≤ s.upd.transit.length) : startHere p s = s :=
  (if_neg (by rw [h]; decide)).trans (if_neg (Nat.not_lt.2 hfull))

theorem startHere_only (p : Packet) (s : State) : Only [.upd] (startHere p s) s :=
  only_ite _ (onTransit_only ..) (only_ite _ (only_onUpd ..) (only_refl _ s))

/-- A segment of a block that no buffer receives. -/
theorem segmentHere_none (h : receiving (fld p.arg 0 5) s = none) : segmentHere p s =
    if fld p.arg 5 6 = 63 && !s.upd.transit.any (fun t => t.block == fld p.arg 0 5) then ackHop (fld p.arg 0 5) true s else s := by
  unfold segmentHere
  extract_lets b
  rw [show receiving b s = none from h]

/-- A segment of a block that a buffer receives. -/
theorem segmentHere_some {x : Transit} (h : receiving (fld p.arg 0 5) s = some x) : segmentHere p s =
    if (withPart p x).parts.length = 64 then blockWhole (withPart p x) (onTransit (fld p.arg 0 5) (fun _ => withPart p x) s)
    else onTransit (fld p.arg 0 5) (fun _ => withPart p x) s := by
  unfold segmentHere
  extract_lets b
  rw [show receiving b s = some x from h]

theorem blockLate_none (h : s.upd.transit.find? (fun t => t.began.isSome) = none) : blockLate s = s := by
  simp only [blockLate, h]

theorem blockLate_some {x : Transit} (h : s.upd.transit.find? (fun t => t.began.isSome) = some x) : blockLate s = blockFails x s := by
  simp only [blockLate, h]

theorem onTransit_upd (b : Nat) (f : Transit → Transit) (s : State) : (onTransit b f s).upd =
    { s.upd with transit := s.upd.transit.map fun t => if t.block == b && !t.whole then f t else t } := rfl

theorem onTransit_cw (b : Nat) (f : Transit → Transit) (s : State) : (onTransit b f s).cw = s.cw := rfl

theorem onTransit_one {b : Nat} {x : Transit} (f : Transit → Transit) (hone : s.upd.transit = [x]) (hblock : x.block = b)
    (hpart : x.whole = false) : (onTransit b f s).upd.transit = [f x] := by
  rw [onTransit_upd, hone]
  exact congrArg (fun t => [t]) (if_pos (by rw [hblock, hpart]; simp))

theorem acknowledged_leaves (t : Transit) (hup : s.cw.up.state = 2) :
    .cw .up 0x32 (BitVec.ofNat 9 (s.cw.addr - 1)) false (BitVec.ofNat 9 s.cw.addr) (BitVec.ofNat 21 t.block) [] ∈
      (acknowledged t s).out := by
  have hcw (u : State) : (forwardBlock t.block (transitBytes t) t.crc u).cw = u.cw := (forwardBlock_only ..).same .cw rfl
  have hleaves := ackHop_leaves t.block false (s := forwardBlock t.block (transitBytes t) t.crc
    (onTransit t.block (fun x => { x with whole := true, began := none, stored := !programs t s, acked := !hasDown s }) s))
    (by rw [hcw]; exact hup)
  rw [hcw] at hleaves
  exact hleaves

theorem programs_new {t : Transit} (hstores : stores s = true) (hnew : s.upd.session.any (fun z => z.stored.getLsbD t.block) = false) :
    programs t s = true := by
  rw [programs, blockHeld, hstores, hnew]
  rfl

theorem sendBlock_keeps (b : Nat) (bytes : List Byte) (crc : BitVec 32) (s : State) :
    (sendBlock b bytes crc s).upd = s.upd ∧ (sendBlock b bytes crc s).cw = s.cw :=
  ⟨(sendBlock_only ..).same .upd rfl, (sendBlock_only ..).same .cw rfl⟩

end

/-- Settles O48: a block is received, judged, acknowledged or asked for again, and sent again as it is held. -/
theorem blocksCrossTheChain : Obligations.BlocksCrossTheChain := by
  unfold Obligations.BlocksCrossTheChain
  intro p s b u begins fresh own part g refuse
  have hupd (ptype : BitVec 8) : (touched ptype p s).upd = { u with transit := s.upd.transit } := by
    have h := touchChain_passOn ptype p s
    rw [touched, h, ← touchChain_transit s]
  have htransit (ptype : BitVec 8) := touched_transit ptype p s
  have hclk (ptype : BitVec 8) : (touched ptype p s).clk = s.clk := (touched_only ptype p s).same .clk rfl
  have hcw (ptype : BitVec 8) : (touched ptype p s).cw = s.cw := (touched_only ptype p s).same .cw rfl
  have hframe : Only [.upd, .cxl, .out] (touched 0x31 p s) s := only_mono (touched_only ..) rfl
  have hbegin : beginIn p (touched 0x30 p s) = begins := by
    funext t
    rw [beginIn, hclk]
  refine ⟨fun h => ?_, fun h hnone => ?_, fun x h hsome => ?_, fun hnone => ?_,
    fun x hsome => ⟨fun hfew => ?_, fun hmany => ?_⟩, fun h hheld hnone hquiet => ?_, fun x h hagain hone hblock hwhole hfew => ?_⟩
  · refine ends_of (exec_of_effect rfl (blockStarts_heard h)) (only_step (startHere_only ..) rfl (only_mono (touched_only ..) rfl)) rfl
      ⟨fun hown => ?_, fun hown hroom => ?_, fun hown hfull => ?_⟩
    · rw [settle_upd, startHere_again (by rw [htransit]; exact hown), hbegin]
      rw [onTransit_upd, hupd]
    · rw [settle_upd, startHere_fresh (by rw [htransit]; exact hown) (by rw [htransit]; exact hroom), hbegin, onUpd_upd, hupd]
      rfl
    · rw [settle_upd, startHere_full (by rw [htransit]; exact hown) (by rw [htransit]; exact hfull), hupd, ← touchChain_transit s]
  · have hrun := (segmentHeard_heard h).trans (segmentHere_none ((receiving_touched ..).trans hnone))
    refine ends_of (exec_of_effect rfl hrun) (only_ite _ (only_step (ackHop_only ..) rfl hframe) hframe) rfl ⟨?_, fun hlast hup hother => ?_⟩
    · have hsame : (touched 0x31 p s).upd = u := by rw [hupd, ← touchChain_transit s]
      rw [settle_upd]
      split
      · rw [(ackHop_only ..).same .upd rfl, hsame]
      · exact hsame
    · have hno : ((touched 0x31 p s).upd.transit.any fun t => t.block == fld p.arg 0 5) = false := by
        rw [htransit, List.any_eq_false]
        exact fun t ht => by simpa using hother t ht
      rw [hno, show fld p.arg 5 6 = 63 from hlast, if_pos (by decide)]
      have hleaves := ackHop_leaves (fld p.arg 0 5) true (s := touched 0x31 p s) (by rw [hcw]; exact hup)
      rw [hcw] at hleaves
      exact (settle_out_grows _).subset hleaves
  · have hx : receiving (fld p.arg 0 5) (touched 0x31 p s) = some x := (receiving_touched ..).trans hsome
    have hblock : x.block = b := receiving_some hsome
    have hrun := (segmentHeard_heard h).trans (segmentHere_some hx)
    intro parts y
    refine ⟨fun hmore => ?_, fun hone hpart hall hcrc hheld => ?_, fun hone hpart hall hcrc hfew => ?_⟩
    · refine ends_of (exec_of_effect rfl (hrun.trans (if_neg hmore))) (only_step (onTransit_only ..) rfl hframe) rfl ?_
      rw [settle_upd, onTransit_upd, hupd]
      rfl
    · have hfree : (touched 0x31 p s).upd.held = none := by rw [hupd]; exact (touchChain_held s).trans hheld
      have hwhole := hrun.trans ((if_pos hall).trans (blockWhole_right (t := withPart p x)
        (s := onTransit (fld p.arg 0 5) (fun _ => withPart p x) (touched 0x31 p s)) hcrc hfree))
      have hack : Only [.flash, .upd, .cxl, .out] (acknowledged (withPart p x)
          (onTransit (fld p.arg 0 5) (fun _ => withPart p x) (touched 0x31 p s))) s :=
        only_step (acknowledged_only ..) rfl (only_step (onTransit_only ..) rfl (only_mono hframe rfl))
      refine ends_of (exec_of_effect rfl hwhole) ?_ rfl ⟨fun hup => ?_, fun hstores _ hnew => ?_⟩
      · exact only_step (only_onUpd ..) rfl (only_ite _ (only_step (addJob_only ..) rfl hack) hack)
      · have hleaves := acknowledged_leaves (withPart p x)
          (s := onTransit (fld p.arg 0 5) (fun _ => withPart p x) (touched 0x31 p s)) (by rw [onTransit_cw, hcw]; exact hup)
        rw [onTransit_cw, hcw, show (withPart p x).block = b from hblock] at hleaves
        refine (settle_out_grows _).subset ?_
        rw [onUpd_out]
        split
        · exact hleaves
        · exact hleaves
      · have hprograms : programs (withPart p x) (onTransit (fld p.arg 0 5) (fun _ => withPart p x) (touched 0x31 p s)) = true := by
          refine programs_new ?_ ?_
          · exact (session_any_touched (f := fun x => x.chain && x.state == 1) (fun _ _ => rfl) 0x31 p s).trans hstores
          · refine (session_any_touched (f := fun z => z.stored.getLsbD (withPart p x).block) (fun _ _ => rfl) 0x31 p s).trans ?_
            rw [show (withPart p x).block = b from hblock]
            exact hnew
        have hflash : (acknowledged (withPart p x)
            (onTransit (fld p.arg 0 5) (fun _ => withPart p x) (touched 0x31 p s))).flash = s.flash :=
          ((acknowledged_only ..).same .flash rfl).trans ((touched_only 0x31 p s).same .flash rfl)
        rw [settle_flash, onUpd_flash, hprograms, if_pos rfl]
        show (acknowledged _ _).flash.jobs ++ [plainJob (.block (withPart p x).block (transitBytes (withPart p x)))] = _
        rw [hflash, show (withPart p x).block = b from hblock]
        rfl
    · have hfails := hrun.trans ((if_pos hall).trans ((blockWhole_wrong (t := withPart p x)
        (s := onTransit (fld p.arg 0 5) (fun _ => withPart p x) (touched 0x31 p s)) hcrc).trans (blockFails_again _ hfew)))
      refine ends_of (exec_of_effect rfl hfails) ?_ rfl ?_
      · exact only_step (ackHop_only ..) rfl (only_step (onTransit_only ..) rfl (only_step (onTransit_only ..) rfl hframe))
      · have hheldOne := onTransit_one (s := touched 0x31 p s) (fun _ => withPart p x) ((htransit 0x31).trans hone) hblock hpart
        rw [settle_upd, (ackHop_only ..).same .upd rfl, onTransit_one failedOnce hheldOne rfl hpart]
        rfl
  · exact exec_of_effect rfl (blockLate_none hnone)
  · have hrun := (blockLate_some hsome).trans (blockFails_again s hfew)
    refine ends_of (exec_of_effect rfl hrun) (only_step (ackHop_only ..) rfl (only_mono (onTransit_only ..) rfl)) rfl ⟨?_, fun hup => ?_⟩
    · rw [settle_upd, (ackHop_only ..).same .upd rfl]
      rfl
    · exact (settle_out_grows _).subset (ackHop_leaves x.block true (s := onTransit x.block failedOnce s) hup)
  · have hrun := blockLate_some hsome
    obtain ⟨htr, hses⟩ := blockFails_ninth_upd (t := x) s hmany
    refine ends_of (exec_of_effect rfl hrun) (only_mono (blockFails_only ..) rfl) rfl ?_
    rw [settle_upd, htr]
    exact ⟨rfl, hses⟩
  · have hp := passOn_passed 0x32 p s
    have hrun := (blockAcked_heard h).trans (ackHere_held hheld (by rw [hp.upd, hnone]) (quiet_of_only hquiet hp.frame rfl))
    refine ends_of (exec_of_effect rfl hrun) (only_step (only_onUpd ..) rfl (only_mono hp.frame rfl)) rfl ?_
    intro l
    have hl : l = s.upd.transit.map (markAcked b) := by
      refine List.map_congr_left fun t _ => ?_
      simp only [markAcked, beq_iff_eq]
    rw [settle_upd, onUpd_upd, hp.upd, hl]
  · have hp := passOn_passed 0x32 p s
    have hrun := (blockAcked_heard h).trans (ackHere_again hagain (by rw [hp.upd, hone]) hblock hwhole hfew)
    refine ends_of (exec_of_effect rfl hrun) ?_ rfl ?_
    · exact only_step (sendBlock_only ..) rfl (only_step (onPort_only ..) rfl (only_step (only_onUpd ..) rfl (only_mono hp.frame rfl)))
    · obtain ⟨hsame, hport⟩ := sendBlock_keeps (fld p.arg 0 5) (transitBytes x) x.crc
        (onPort .down (fun c => { c with resends := c.resends + 1 })
          (onUpd (fun u => { u with transit := u.transit.map (markResent (fld p.arg 0 5)) }) (passOn 0x32 p s)))
      rw [settle_upd, settle_cw, hsame, hport]
      refine ⟨?_, ?_⟩
      · show (passOn 0x32 p s).upd.transit.map (markResent (fld p.arg 0 5)) = _
        rw [hp.upd, hone]
        exact congrArg (fun t => [t]) (if_pos (by simpa using hblock))
      · show (passOn 0x32 p s).cw.down.resends + 1 = _
        rw [hp.cw]

end Sys2Proof.Machine

/-! # The chain commands of the mailbox (R449, R450, R459, R478) -/

namespace Sys2Proof.Machine

section
variable {op : Op} {d : Desc} {s u : State}

/-- The completion of a descriptor that has just been fetched, from a state whose queues are as fetching left them. -/
theorem complete_told (hq : u.queues = (fetched op d s).queues) (hc : u.clk.tick = s.clk.tick ∧ u.clk.phase = s.clk.phase)
    (st : BitVec 16) (r : Nat) :
    Told op d st r s (settle (complete (taken op d s) st r (onQueue d.queue (fun z => { z with waiting := none }) u))) := by
  have hown : (onQueue d.queue (fun z => { z with waiting := none }) u).queues[d.queue] = { s.queues[d.queue] with
      sqTail := s.queues[d.queue].sqTail + 1, sqHead := s.queues[d.queue].sqTail + 1, waiting := none } := by
    rw [onQueue_queues, upd_get_self, hq, fetched_queues, upd_get_self]
  obtain ⟨-, hothers, hhead, htail, hwaiting, c, hnewest, hrec⟩ := complete_ring (x := taken op d s) (q := d.queue) rfl rfl st r
    (onQueue d.queue (fun z => { z with waiting := none }) u)
  have hset := (settle_agrees (complete (taken op d s) st r (onQueue d.queue (fun z => { z with waiting := none }) u))).2
  refine ⟨⟨c, by unfold newest at hnewest ⊢; rw [hset]; exact hnewest, ?_⟩, ?_, ?_, ?_, fun q hne => ?_⟩
  · rcases hrec with rfl | rfl <;> simp only [completionOf, taken, onQueue_clk, hc.1, hc.2, and_self]
  · rw [hset, htail, hown]
  · rw [hset, hhead, hown]
  · rw [hset, hwaiting, hown]
  · rw [hset, hothers q hne, onQueue_queues, upd_get_ne _ _ hne, hq, fetched_queues, upd_get_ne _ _ hne]

/-- A command that completes itself while it executes. -/
theorem mailbox_finishes {st : BitVec 16} {r : Nat} (hs : Serves d.queue s) (ha : Admitted op d s)
    (hq : u.queues = (fetched op d s).queues) (hr : runOp op d (fetched op d s) = .wait (finish d.queue st r u))
    (hi : u.cw.inCmd = []) (hc : u.clk.tick = s.clk.tick ∧ u.clk.phase = s.clk.phase) :
    mailbox op d s = .next (settle (finish d.queue st r u)) ∧ Told op d st r s (settle (finish d.queue st r u)) := by
  have hwaits : u.queues[d.queue].waiting = some (taken op d s) := by
    rw [hq, fetched_queues, upd_get_self]
  have hfinish : finish d.queue st r u = complete (taken op d s) st r (onQueue d.queue (fun z => { z with waiting := none }) u) := by
    simp only [finish, hwaits]
  have hempty : u.queues[d.queue].sqHead = u.queues[d.queue].sqTail := by
    rw [hq, fetched_queues, upd_get_self]
  have hkept := finish_keepsChain d.queue st r u
  have hstill : (finish d.queue st r u).queues[d.queue].sqHead = (finish d.queue st r u).queues[d.queue].sqTail := by
    have hp := congrFun hkept.pointers d.queue
    rw [pointers, pointers, Prod.mk.injEq] at hp
    rw [hp.1, hp.2, hempty]
  refine ⟨mailbox_runs hs (opOf_code op ha.1) ha.2.2.1 (fun _ hb hy => runDesc_admitted ha hb hy) ?_
    (hkept.keepsLanes.inCmd.trans hi), ?_⟩
  · rw [hr]
    exact (drainFuel_empty 255 hstill).symm
  · rw [hfinish]
    exact complete_told hq hc st r

end

/-! ## CHAIN_ENUMERATE -/

/-- The head device enumerates a chain of itself alone (log entry 31). -/
theorem settleChain_alone {s : State} (hwait : s.cw.waitEnum = true) (hreports : s.cw.reports = []) :
    ∃ u, settleChain 1 false false true s = finish 3 stOk (pack [(0, 10, 1), (10, 10, 1), (20, 1, (isA s).toNat)]) u ∧
      Only [.chans, .safety, .cxl, .ev, .cw, .out] u s ∧ u.cw.inCmd = s.cw.inCmd := by
  have hpresent : (isA s || false || s.cw.reports.any fun r => r.2.2 == 0x41) = isA s := by
    rw [hreports, List.any_nil, Bool.or_false, Bool.or_false]
  unfold settleChain
  extract_lets aPresent limit len tooMany s1 s2 top s3 s4 s5
  have hlimit : 1 < limit := by
    unfold limit
    split <;> decide
  have hfew : tooMany = false := by
    show (decide (limit < 1) || false) = false
    rw [decide_eq_false (by omega), Bool.or_false]
  have hlen : len = 1 := Nat.min_eq_left (by omega)
  have h2 : s2 = onCw (fun c => { c with cutDown := false }) s1 := if_neg (by rw [hfew]; decide)
  have h3 : s3 = s2 := by
    refine if_neg ?_
    have hempty : s2.cw.reports = [] := by
      rw [h2, onCw_cw]
      show s.cw.reports.filter _ = []
      rw [hreports]
      rfl
    rw [hempty]
    simp
  have h5 : KeepsLanes s s5 ∧ Only [.chans, .safety, .cxl, .ev, .cw, .out] s5 s := by
    have hs3 : Only [.chans, .safety, .cxl, .ev, .cw, .out] s3 s ∧ KeepsLanes s s3 := by
      rw [h3, h2]
      exact ⟨only_step (only_onCw ..) rfl (only_mono (only_onCw ..) rfl), ⟨rfl, rfl, rfl, rfl, id⟩⟩
    have h4 : Only [.chans, .safety, .cxl, .ev, .cw, .out] s4 s := only_step (raise_only ..) rfl hs3.1
    have hk4 : KeepsLanes s s4 := hs3.2.trans (keepsLanes_of_only (raise_only ..) rfl)
    have hall : s5 = updateObs s4 := congrArg updateObs (if_neg (by rw [hlen]; decide))
    rw [hall]
    exact ⟨hk4.trans (updateObs_keepsChain s4).keepsLanes, only_step (updateObs_only s4) rfl h4⟩
  refine ⟨s5, ?_, h5.2, h5.1.inCmd⟩
  rw [if_pos hwait, hfew, hlen, show aPresent = isA s from hpresent]
  rfl

/-- t is u but for what has left on the lanes. -/
def OutOnly (t u : State) : Prop := ∃ o x, t = { u with out := o, cwScram := x }

theorem outOnly_refl (s : State) : OutOnly s s := ⟨_, _, rfl⟩

theorem OutOnly.trans {a b c : State} (h : OutOnly a b) (k : OutOnly b c) : OutOnly a c := by
  obtain ⟨o, x, rfl⟩ := h
  obtain ⟨o', x', rfl⟩ := k
  exact ⟨o, x, rfl⟩

theorem OutOnly.agrees {t u : State} (h : OutOnly t u) : Agrees t u := by
  obtain ⟨o, x, rfl⟩ := h
  rfl

theorem OutOnly.queues {t u : State} (h : OutOnly t u) : t.queues = u.queues := by
  obtain ⟨o, x, rfl⟩ := h
  rfl

theorem OutOnly.cw {t u : State} (h : OutOnly t u) : t.cw = u.cw := by
  obtain ⟨o, x, rfl⟩ := h
  rfl

/-- Where CW_D runs, ENUM leaves on it. -/
theorem startEnum_sends {s : State} (hdown : s.cw.down.state = 2) : OutOnly (startEnum s)
    (onCw (fun c => { c with addr := 0, reports := [], enumAt := some s.clk.now, cutDown := false }) s) := by
  have hrun : startEnum s = cwEmit .down 0x20 1 false 0 (BitVec.ofNat 21 (pack [(0, 9, 1), (9, 1, (isA s).toNat)])) []
      (onCw (fun c => { c with addr := 0, reports := [], enumAt := some s.clk.now, cutDown := false }) s) :=
    if_pos (by rw [hdown]; rfl)
  rw [hrun]
  exact ⟨_, _, rfl⟩

/-- Where it does not, the chain is settled at once. -/
theorem startEnum_alone {s : State} (hdown : s.cw.down.state ≠ 2) : startEnum s = settleChain 1 false false true
    (onCw (fun c => { c with addr := 0, reports := [], enumAt := some s.clk.now, cutDown := false }) s) :=
  if_neg (by simpa using hdown)

/-- What CHAIN_ENUMERATE starts from. -/
def enumerates (s : State) : State := onCw (fun c => { c with waitEnum := true }) s

theorem runChainEnumerate_head {d : Desc} {s : State} (hrole : s.boot.straps.chainRole = true) :
    runChainEnumerate d s = .wait (startEnum (enumerates s)) := if_neg (by rw [hrole]; decide)

/-! ## CHAIN_SEND -/

theorem sendCmd_outOnly (bcast : Bool) (addr tq tgt : Nat) (desc data : List Byte) (s : State) :
    OutOnly (sendCmd bcast addr tq tgt desc data s) s := by
  have hall (l : List Nat) (f : Nat → State → State) (hf : ∀ i u, OutOnly (f i u) u) (u : State) : OutOnly (forEach l f u) u := by
    induction l generalizing u with
    | nil => exact outOnly_refl u
    | cons i l ih => exact (ih (f i u)).trans (hf i u)
  unfold sendCmd
  extract_lets n arg dst
  split
  · exact (hall _ _ (fun _ _ => ⟨_, _, rfl⟩) _).trans ⟨_, _, rfl⟩
  · exact outOnly_refl s

/-- A CHAIN_SEND to another device. -/
theorem chainSendNext_other {q : BitVec 384} {s : State} (hone : bit q 9 = false) (hother : fld q 0 9 ≠ 0) :
    OutOnly (chainSendNext q s) (onCw (fun c => { c with
      waitCmd := some { bcast := false, expect := [fld q 0 9], answers := [], sent := s.clk.now } }) s) := by
  have htargets : sendTargets q s = [fld q 0 9] := if_neg (by rw [hone]; decide)
  unfold chainSendNext
  extract_lets targets tq tgt desc data s1 s2
  have hlist : targets = [fld q 0 9] := htargets
  have h1 : s1 = onCw (fun c => { c with
      waitCmd := some { bcast := false, expect := [fld q 0 9], answers := [], sent := s.clk.now } }) s := by
    unfold s1
    rw [hone, hlist]
  have h2 : s2 = s1 := if_neg (by rw [hlist]; simpa using hother.symm)
  rw [if_neg (by rw [hlist]; simpa using hother), h2, ← h1]
  exact sendCmd_outOnly ..

/-! ## The chain record -/

theorem runSettingsWrite_chain {d : Desc} {s : State} (hn : fld d.payload 0 8 = 0x21)
    (hres : reservedBits (recordFields 0x21) (recordOf d).toNat 256 3 = none) :
    runSettingsWrite d s = refDone (writeChain (recordOf d) s).1 (writeChain (recordOf d) s).2 s := by
  unfold recordOf at hres ⊢
  simp only [runSettingsWrite, hn, hres]
  rfl

/-- Without a relayed record the relay ring has nothing to write. -/
theorem pumpRelay_empty {s : State} (h : s.cw.relay = []) (k : Nat) : pumpRelay k s = s := by
  have hnone : issueRelay s = none := by
    unfold issueRelay
    extract_lets size
    rw [h]
    split <;> rfl
  cases k with
  | zero => rfl
  | succ k => simp only [pumpRelay, hnone]

theorem ackRelay_empty {s : State} (h : s.cw.relay = []) (head : BitVec 16) :
    ackRelay head s = onCw (fun c => { c with relayHead := head }) s := by
  have hdrop : dropRelayed (onCw (fun c => { c with relay := [], relayHead := head }) s) =
      onCw (fun c => { c with relayHead := head }) s := by
    rw [show onCw (fun c => { c with relayHead := head }) s = onCw (fun c => { c with relay := [], relayHead := head }) s by
      unfold onCw; rw [← h]]
    rfl
  unfold ackRelay
  rw [h]
  show pumpRelay 1024 (dropRelayed (onCw (fun c => { c with relay := [], relayHead := head }) s)) = _
  rw [hdrop]
  exact pumpRelay_empty (s := onCw (fun c => { c with relayHead := head }) s) h 1024

/-- A command that answers at once, and leaves the queues and the clock as fetching left them. -/
theorem does_of_run {i : Instr} {op : Op} {d : Desc} {s u : State} {st : BitVec 16} {r : Nat} (hs : Serves d.queue s)
    (ha : Admitted op d s) (hi : exec i s = mailbox op d s) (hr : runOp op d (fetched op d s) = .done st r u)
    (hq : u.queues = (fetched op d s).queues) (hin : u.cw.inCmd = []) (hc : u.clk.tick = s.clk.tick ∧ u.clk.phase = s.clk.phase) :
    Does i op d s u st r := by
  obtain ⟨t, ht, hagrees, htold⟩ := mailbox_done hs ha hr hq hin hc
  exact ⟨t, hi.trans ht, hagrees, htold⟩

/-- The chain record while nothing is relayed. -/
theorem writeChain_unrelayed (r : BitVec 256) {s : State} (h : s.cw.relay = []) : (writeChain r s).2 =
    addLv [.chain (chainOf r).evtFwd (chainOf r).relayEn] (onCw (fun c => { c with relayHead := BitVec.ofNat 16 (fld r 16 16) })
      (onCfg (fun c => { c with chain := { c.chain with relaySize := (chainOf r).relaySize, relayBase := (chainOf r).relayBase } }) s)) := by
  have hrelay : (addLv [.chain (chainOf r).evtFwd (chainOf r).relayEn] (onCfg (fun c => { c with
      chain := { c.chain with relaySize := (chainOf r).relaySize, relayBase := (chainOf r).relayBase } }) s)).cw.relay = [] := h
  exact ackRelay_empty hrelay (BitVec.ofNat 16 (fld r 16 16))

/-- Settles O10: the head device enumerates, CHAIN_SEND waits for its target, and the chain record is written. -/
theorem chainCommandsTakeEffect : Obligations.ChainCommandsTakeEffect := by
  unfold Obligations.ChainCommandsTakeEffect
  intro d s hs
  have hf (op : Op) (e : Desc) := fetched_only op e s
  refine ⟨fun ha => ⟨fun hrole => ?_, fun hrole hdown => ?_, fun hrole hdown => ?_⟩, fun ha hone hother href => ?_, ?_⟩
  · refine does_of_apart hs ha rfl (only_refl [] _) rfl (if_pos ?_)
    rw [(hf .chainEnumerate d).same .boot rfl, hrole]
    rfl
  · have hrun : runOp .chainEnumerate d (fetched .chainEnumerate d s) = .wait (startEnum (enumerates (fetched .chainEnumerate d s))) :=
      runChainEnumerate_head (d := d) (by rw [(hf .chainEnumerate d).same .boot rfl, hrole])
    have hsent := startEnum_sends (s := enumerates (fetched .chainEnumerate d s)) (by
      show (fetched .chainEnumerate d s).cw.down.state = 2
      rw [(hf .chainEnumerate d).same .cw rfl, hdown])
    obtain ⟨t, ht, htagrees, hawaits⟩ := mailbox_wait hs ha hrun hsent.queues (by rw [hsent.cw]; exact fetched_inCmd hs)
    refine ⟨t, ht, agrees_trans htagrees (agrees_trans hsent.agrees (agrees_of_eq ?_)), hawaits⟩
    rw [← fetched_clk .chainEnumerate d s]
    rfl
  · have hthree : d.queue = 3 := by
      obtain ⟨-, -, -, haccepts, -⟩ := id ha
      exact eq_of_beq haccepts
    obtain ⟨u, hsettles, honly, hin⟩ := settleChain_alone (s := onCw (fun c =>
      { c with addr := 0, reports := [], enumAt := some s.clk.now, cutDown := false }) (enumerates (fetched .chainEnumerate d s))) rfl rfl
    have hdown' : (enumerates (fetched .chainEnumerate d s)).cw.down.state ≠ 2 := by
      show (fetched .chainEnumerate d s).cw.down.state ≠ 2
      rw [(hf .chainEnumerate d).same .cw rfl]
      exact hdown
    have hvariant : isA (fetched .chainEnumerate d s) = isA s := by
      rw [isA, isA, (hf .chainEnumerate d).same .otp rfl]
    have hclk : (enumerates (fetched .chainEnumerate d s)).clk = s.clk := fetched_clk ..
    have hstart : startEnum (enumerates (fetched .chainEnumerate d s)) =
        finish d.queue stOk (pack [(0, 10, 1), (10, 10, 1), (20, 1, (isA s).toNat)]) u := by
      rw [startEnum_alone hdown', hclk, hsettles, hthree, ← hvariant]
      rfl
    have hrun : runOp .chainEnumerate d (fetched .chainEnumerate d s) =
        .wait (finish d.queue stOk (pack [(0, 10, 1), (10, 10, 1), (20, 1, (isA s).toNat)]) u) :=
      (runChainEnumerate_head (d := d) (by rw [(hf .chainEnumerate d).same .boot rfl, hrole])).trans (congrArg Ans.wait hstart)
    have huclk : u.clk = s.clk := (honly.same .clk rfl).trans hclk
    obtain ⟨ht, htold⟩ := mailbox_finishes hs ha (honly.same .queues rfl) hrun (hin.trans (fetched_inCmd hs)) (huclk ▸ ⟨rfl, rfl⟩)
    refine ⟨_, ht, htold, ?_⟩
    obtain ⟨l, w, hcw⟩ := (settleChain_keepsChain 1 false false true (onCw (fun c =>
      { c with addr := 0, reports := [], enumAt := some s.clk.now, cutDown := false }) (enumerates (fetched .chainEnumerate d s)))).cw
    rw [settle_cw, ← hstart, startEnum_alone hdown', hclk, hcw]
    refine ⟨rfl, Nat.min_eq_left ?_, rfl, rfl⟩
    split <;> decide
  · have hrun : runOp .chainSend d (fetched .chainSend d s) = .wait (chainSendNext d.payload (fetched .chainSend d s)) :=
      refuseOr_none href _ _
    have hsent := chainSendNext_other (s := fetched .chainSend d s) hone hother
    obtain ⟨t, ht, htagrees, hawaits⟩ := mailbox_wait hs ha hrun hsent.queues (by rw [hsent.cw]; exact fetched_inCmd hs)
    rw [fetched_clk] at hsent
    exact ⟨t, ht, agrees_trans htagrees hsent.agrees, hawaits⟩
  · intro e s1 v ha hok hnone
    have hrelay : s1.cw.relay = [] := by
      rw [(hf .settingsWrite e).same .cw rfl, hnone]
    have hwritten : (writeChain (recordOf e) s1).2 = addLv [.chain v.evtFwd v.relayEn]
        (onCw (fun c => { c with relayHead := BitVec.ofNat 16 (fld (recordOf e) 16 16) })
          (onCfg (fun c => { c with chain := { c.chain with relaySize := v.relaySize, relayBase := v.relayBase } }) s1)) :=
      writeChain_unrelayed (recordOf e) hrelay
    have hpair : runSettingsWrite e s1 = refDone (writeChain (recordOf e) s1).1 (writeChain (recordOf e) s1).2 s1 :=
      runSettingsWrite_chain (withRecord_number 0x21 d (by decide)) ha.2
    have hrun : runOp .settingsWrite e s1 = .done stOk 0 (writeChain (recordOf e) s1).2 := hpair.trans (refuseOr_none hok _ _)
    rw [hwritten] at hrun
    exact does_of_run hs ha.1 rfl hrun rfl (fetched_inCmd (op := .settingsWrite) (d := e) hs) (fetched_tick .settingsWrite e s)

end Sys2Proof.Machine

/-! # Update sessions (R464, R465, R467) -/

namespace Sys2Proof.Machine

/-! ## UPDATE_OPEN -/

section
variable {d : Desc} {s : State} (href : updateOpenRef d.payload s = none)
include href

theorem runUpdateOpen_refused {st : BitVec 16} (hhow : openHow false (openOf d.payload) s = .refused st) :
    runUpdateOpen d s = .done st 0 s := by
  simp only [runUpdateOpen, href, hhow]

theorem runUpdateOpen_own {how : Opening} (hhow : openHow false (openOf d.payload) s = how) (hgoes : ∀ st, how ≠ .refused st)
    (hown : (openOf d.payload).scope = false) : runUpdateOpen d s =
      if opensFresh how then
        .wait (openEffect false (openOf d.payload) how { plainJob .erase with answer := some (stOk, openBits how) } s)
      else .done stOk (pack [(0, 10, 1 - openBits how / 2 ^ 40 % 2), (10, 10, openBits how / 2 ^ 40 % 2)] + openBits how)
        (openEffect false (openOf d.payload) how { plainJob .erase with answer := some (stOk, openBits how) } s) := by
  cases how with
  | refused st => exact absurd rfl (hgoes st)
  | joined => simp only [runUpdateOpen, href, hhow, hown, Bool.false_eq_true, if_false]
  | resumed st => simp only [runUpdateOpen, href, hhow, hown, Bool.false_eq_true, if_false]
  | fresh st => simp only [runUpdateOpen, href, hhow, hown, Bool.false_eq_true, if_false]

end

/-- An open of a new session that must write. -/
theorem runUpdateOpen_fresh {d : Desc} {s : State} (href : updateOpenRef d.payload s = none)
    (hhow : openHow false (openOf d.payload) s = .fresh 1) (hown : (openOf d.payload).scope = false) : runUpdateOpen d s =
      .wait (addJob (plainJob .erase) (addJob { plainJob (.record (emptied s)) with tell := some 0, answer := some (stOk, 0) }
        (newSession false (openOf d.payload) 1 s))) := runUpdateOpen_own href hhow nofun hown

/-- An open of a new session for an image that stands in the slot. -/
theorem runUpdateOpen_taken {d : Desc} {s : State} {st : Nat} (href : updateOpenRef d.payload s = none)
    (hhow : openHow false (openOf d.payload) s = .fresh st) (hne : st ≠ 1) (hown : (openOf d.payload).scope = false) :
    runUpdateOpen d s = .done stOk (1 + st * 2 ^ 41) (tellUpdate 0 (newSession false (openOf d.payload) st s)) := by
  have hfresh : opensFresh (.fresh st) = false := by
    unfold opensFresh
    split
    · next h => cases h; exact absurd rfl hne
    · rfl
  have hbits : openBits (.fresh st) = st * 2 ^ 41 := if_neg hne
  have hjoined : st * 2 ^ 41 / 2 ^ 40 % 2 = 0 := by omega
  have heffect (j : FlashJob) : openEffect false (openOf d.payload) (.fresh st) j s =
      tellUpdate 0 (newSession false (openOf d.payload) st s) := if_neg hne
  rw [runUpdateOpen_own href hhow nofun hown, hfresh, hbits, hjoined, heffect]
  rfl

theorem runUpdateOpen_resumed {d : Desc} {s : State} {st : Nat} (href : updateOpenRef d.payload s = none)
    (hhow : openHow false (openOf d.payload) s = .resumed st) (hown : (openOf d.payload).scope = false) :
    runUpdateOpen d s = .done stOk (1 + st * 2 ^ 41) (touch s) := by
  have hjoined : openBits (.resumed st) / 2 ^ 40 % 2 = 0 := by
    show st * 2 ^ 41 / 2 ^ 40 % 2 = 0
    omega
  rw [runUpdateOpen_own href hhow nofun hown, hjoined]
  rfl

theorem runUpdateOpen_joined {d : Desc} {s : State} (href : updateOpenRef d.payload s = none)
    (hhow : openHow false (openOf d.payload) s = .joined) (hown : (openOf d.payload).scope = false) :
    runUpdateOpen d s = .done stOk (2 ^ 10 + 2 ^ 40)
      (onUpd (fun u => { u with session := u.session.map fun x => { x with joined := true, last := s.clk.now } }) s) :=
  runUpdateOpen_own href hhow nofun hown

/-- What a chain session that must write starts: the wait for the followers, and UPD_CTRL to them. -/
theorem runUpdateOpen_chain {d : Desc} {s : State} (href : updateOpenRef d.payload s = none)
    (hhow : openHow false (openOf d.payload) s = .fresh 1) (hscope : (openOf d.payload).scope = true) : runUpdateOpen d s =
      .wait (sendCtrl 0 d.payload (onUpd (fun u => { u with
        wait := some { op := 0, expect := followers s, answers := [], own := none } })
        (openEffect false (openOf d.payload) (.fresh 1) { plainJob .erase with answer := some (stOk, 0) } s))) := by
  simp only [runUpdateOpen, href, hhow, hscope, if_true]
  rfl

/-! ## UPDATE_BLOCK -/

section
variable {d : Desc} {s : State} {x : Session} (hx : s.upd.session = some x) (hown : x.chain = false) (halone : x.scope = false)
  (hblock : fld d.payload 0 5 < blockCount x.length)
  (hstage : stageRef (loadOff d.payload) (blockLength x.length (fld d.payload 0 5)) = none)

/-- The bytes that an UPDATE_BLOCK names. -/
def namedBytes (d : Desc) (x : Session) (s : State) : List Byte :=
  staged s (loadOff d.payload) (blockLength x.length (fld d.payload 0 5))

theorem here_touch (hx : s.upd.session = some x) (u : State) (hu : u.upd.session = s.upd.session) (hclk : u.clk = s.clk) :
    touch u = onUpd (fun v => { v with session := some { x with last := s.clk.now } }) u := by
  have hupd : { u.upd with session := u.upd.session.map fun x => { x with last := u.clk.now } } =
      { u.upd with session := some { x with last := s.clk.now } } := by
    rw [hu, hx, hclk]
    rfl
  exact congrArg (fun v => { u with upd := v }) hupd

include hx hblock hstage in
/-- UPDATE_BLOCK past the checks of its operands. -/
theorem runUpdateBlock_checked : runUpdateBlock d s =
    if crc32c (namedBytes d x s) != loadCrc d.payload then .done stCrc 0 s
    else if x.chain then (if x.joined then .done stOk 0 (touch s) else .done stSessionState 0 s)
    else if x.stored.getLsbD (fld d.payload 0 5) then
      (if storedCrc s (fld d.payload 0 5) == some (loadCrc d.payload) then
         .done stOk 1 (touch (if x.scope then
           forwardBlock (fld d.payload 0 5) (namedBytes d x s) (BitVec.ofNat 32 (loadCrc d.payload)) s else s))
       else .done stSessionState 0 s)
    else if !x.scope then
      .wait (touch (addJob { plainJob (.block (fld d.payload 0 5) (namedBytes d x s)) with answer := some (stOk, 0) } s))
    else if s.upd.transit.length < 2 then .wait (touch (startBlock (fld d.payload 0 5) (namedBytes d x s) s))
    else .wait (touch (onUpd (fun u => { u with held := some (fld d.payload 0 5, namedBytes d x s) }) s)) := by
  have hranges : ranges [(0, decide (fld d.payload 0 5 < blockCount x.length))] = none := by
    rw [decide_eq_true hblock]
    rfl
  simp only [runUpdateBlock, hx, hranges, hstage]
  rfl

include hx hblock hstage

theorem runUpdateBlock_corrupt (hcrc : crc32c (namedBytes d x s) ≠ loadCrc d.payload) : runUpdateBlock d s = .done stCrc 0 s :=
  (runUpdateBlock_checked hx hblock hstage).trans (if_pos (by simpa using hcrc))

variable (hcrc : crc32c (namedBytes d x s) = loadCrc d.payload)
include hown halone hcrc

theorem runUpdateBlock_own : runUpdateBlock d s =
    if x.stored.getLsbD (fld d.payload 0 5) then
      (if storedCrc s (fld d.payload 0 5) == some (loadCrc d.payload) then .done stOk 1 (touch s) else .done stSessionState 0 s)
    else .wait (touch (addJob { plainJob (.block (fld d.payload 0 5) (namedBytes d x s)) with answer := some (stOk, 0) } s)) := by
  rw [runUpdateBlock_checked hx hblock hstage, if_neg (by rw [hcrc]; simp), hown, halone]
  rfl

end

/-! ## UPDATE_VERIFY -/

theorem imageBytes_congr {s t : State} (h : t.flash = s.flash) (n : Nat) : imageBytes t n = imageBytes s n := by
  rw [imageBytes, imageBytes, h]

theorem verifyCause_congr {s t : State} (hflash : t.flash = s.flash) (hotp : t.otp = s.otp) (x : Session) :
    verifyCause x t = verifyCause x s := by
  rw [verifyCause, verifyCause, imageBytes_congr hflash, hotp]

theorem runUpdateVerify_own {d : Desc} {s : State} {x : Session} (hx : s.upd.session = some x) (hown : x.chain = false)
    (halone : x.scope = false) : runUpdateVerify d s =
      match verifyPart x { plainJob .erase with answer := some (stOk, 1) } s with
      | .inr r => if r.1 != stOk then .done r.1 r.2 s else .done stOk 1 (touch s)
      | .inl j => .wait (addJob j (touch s)) := by
  simp only [runUpdateVerify, hx, hown, halone, Bool.false_eq_true, if_false] <;> rfl

/-- Settles O8: a session is opened, resumed or joined; its blocks enter the flash, and its image is verified. -/
theorem updateSessionsTakeEffect : Obligations.UpdateSessionsTakeEffect := by
  unfold Obligations.UpdateSessionsTakeEffect
  refine ⟨fun d s hs ha => ?_, fun d s x hs hx hown halone => ?_⟩
  · intro s1 r how href
    have hnew (st : Nat) (u : State) : Only [.flash, .upd, .out] (newSession false r st u) u := only_mono (newSession_only ..) rfl
    refine ⟨fun st hhow => ?_, fun hscope hhow => ?_, fun st hscope hhow hne => ?_, fun st hscope hhow => ?_, fun hscope hhow => ?_,
      fun hscope hhow => ?_⟩
    · exact does_of_apart hs ha rfl (only_refl [] _) rfl (runUpdateOpen_refused href hhow)
    · exact starts_of_apart hs ha rfl (only_step (addJob_only ..) rfl (only_step (addJob_only ..) rfl (hnew 1 s1))) rfl
        (runUpdateOpen_fresh href hhow hscope)
    · exact does_of_apart hs ha rfl (f := [.chans, .safety, .cxl, .ev, .flash, .upd, .out])
        (only_step (tellUpdate_only ..) rfl (only_mono (hnew st s1) rfl)) rfl (runUpdateOpen_taken href hhow hne hscope)
    · refine does_of_apart hs ha rfl (only_onUpd ..) rfl ((runUpdateOpen_resumed href hhow hscope).trans ?_)
      rw [touch, fetched_clk]
    · refine does_of_apart hs ha rfl (only_onUpd ..) rfl ((runUpdateOpen_joined href hhow hscope).trans ?_)
      rw [fetched_clk]
    · have hrun := runUpdateOpen_chain href hhow hscope
      have honly : Only [.flash, .upd, .chans, .safety, .cxl, .ev, .out] (openEffect false r (.fresh 1)
          { plainJob .erase with answer := some (stOk, 0) } s1) s1 := only_mono (openEffect_only ..) rfl
      obtain ⟨t, ht, hagrees, hawaits⟩ := starts_of_apart (i := .updateOpen d) hs ha rfl
        (only_step (sendCtrl_only ..) rfl (only_step (only_onUpd ..) rfl honly)) rfl hrun
      refine ⟨t, ht, hawaits, ?_, ?_⟩
      · have hfollowers : followers s1 = followers s := by
          rw [followers, followers, (fetched_only .updateOpen d s).same .cw rfl]
        rw [(only_of_agrees hagrees).same .upd rfl, (sendCtrl_only ..).same .upd rfl, onUpd_upd, ← hfollowers]
      · rw [(only_of_agrees hagrees).same .flash rfl, (sendCtrl_only ..).same .flash rfl, onUpd_flash, hhow]
  · intro here
    have hf (op : Op) : Only [.safety, .queues, .bar2] (fetched op d s) s := fetched_only op d s
    have hx' (op : Op) : (fetched op d s).upd.session = some x := by rw [(hf op).same .upd rfl, hx]
    have hhere (op : Op) (u : State) (hu : u.upd.session = s.upd.session) (hclk : u.clk = s.clk) : touch u = here u :=
      here_touch hx u hu hclk
    have hsame (op : Op) : touch (fetched op d s) = here (fetched op d s) :=
      hhere op _ (by rw [(hf op).same .upd rfl]) (fetched_clk ..)
    have honly (u : State) : Only [.flash, .upd, .out] (here u) u := only_mono (only_onUpd ..) rfl
    refine ⟨fun ha => ?_, fun ha => ?_⟩
    · intro s1 b bytes hblock hstage
      have hstored : storedCrc s1 b = storedCrc s b := by
        rw [storedCrc, storedCrc, (hf .updateBlock).same .flash rfl]
      refine ⟨fun hcrc => ?_, fun hcrc => ⟨fun hheld hequal => ?_, fun hheld hdiffers => ?_, fun hnew => ?_⟩⟩
      · exact does_of_apart hs ha rfl (only_refl [] _) rfl (runUpdateBlock_corrupt (hx' _) hblock hstage hcrc)
      · refine does_of_apart hs ha rfl (honly _) rfl ((runUpdateBlock_own (hx' _) hown halone hblock hstage hcrc).trans
          ((if_pos hheld).trans ((if_pos ?_).trans ?_)))
        · rw [show storedCrc (fetched .updateBlock d s) (fld d.payload 0 5) = _ from hstored.trans hequal]
          simp
        · rw [hsame]
      · refine does_of_apart hs ha rfl (only_refl [] _) rfl ((runUpdateBlock_own (hx' _) hown halone hblock hstage hcrc).trans
          ((if_pos hheld).trans (if_neg ?_)))
        rw [show storedCrc (fetched .updateBlock d s) (fld d.payload 0 5) = _ from hstored]
        simpa using hdiffers
      · refine starts_of_apart hs ha rfl (f := [.flash, .upd]) (only_step (only_onUpd ..) rfl (only_mono (addJob_only ..) rfl)) rfl
          ((runUpdateBlock_own (hx' _) hown halone hblock hstage hcrc).trans ((if_neg (by rw [hnew]; decide)).trans ?_))
        rw [hhere .updateBlock (addJob _ (fetched .updateBlock d s)) ?_ (fetched_clk ..)]
        · rfl
        · exact congrArg UpdDyn.session ((hf .updateBlock).same .upd rfl)
    · intro s1 r
      have hcause : verifyCause x s1 = verifyCause x s :=
        verifyCause_congr ((hf .updateVerify).same .flash rfl) ((hf .updateVerify).same .otp rfl) x
      have hnext : nextRecord s1 = r := nextRecord_congr ((hf .updateVerify).same .flash rfl)
      have hempty : emptied s1 = emptied s := emptied_congr ((hf .updateVerify).same .flash rfl)
      have hrun := runUpdateVerify_own (d := d) (hx' .updateVerify) hown halone
      refine ⟨fun hstate => ?_, fun hstate => ?_, fun hstate hsound => ?_, fun c hstate hbad => ?_⟩
      · have hpart (j : FlashJob) : verifyPart x j s1 = .inr (stSessionState, 0) := by simp only [verifyPart, hstate]
        rw [hpart] at hrun
        exact does_of_apart hs ha rfl (only_refl [] _) rfl hrun
      · have hpart (j : FlashJob) : verifyPart x j s1 = .inr (stOk, 0) := by simp only [verifyPart, hstate]
        rw [hpart, hsame] at hrun
        exact does_of_apart hs ha rfl (honly _) rfl hrun
      · rw [verifyPart_sound hstate (hcause.trans hsound), hnext, hsame] at hrun
        exact starts_of_apart hs ha rfl (only_step (addJob_only ..) rfl (honly _)) rfl hrun
      · rw [verifyPart_rejected hstate (hcause.trans hbad), hempty, hsame] at hrun
        exact starts_of_apart hs ha rfl (only_step (addJob_only ..) rfl (honly _)) rfl hrun

end Sys2Proof.Machine

/-! # The ends of an update session (R464, R468 to R470) -/

namespace Sys2Proof.Machine

/-! ## UPDATE_ACTIVATE -/

section
variable {d : Desc} {s : State} {x : Session} (hx : s.upd.session = some x) (hown : x.chain = false) (halone : x.scope = false)
include hx hown halone

/-- UPDATE_ACTIVATE in this device's own session, at a tick that it accepts. -/
theorem runUpdateActivate_own (htick : atTickOk s (fld d.payload 64 48) = true) : runUpdateActivate d s =
    match activateRef x (bit d.payload 0) s with
    | some st => .done st 0 s
    | none =>
      if fld d.payload 64 48 = 0 || s.boot.stage == .recovery then
        .wait (forEach (activationJobs x (bit d.payload 0) { plainJob .erase with answer := some (stOk, 1) } s) addJob (touch s))
      else .done stOk 1 (touch (onUpd (fun u => { u with armed := some (fld d.payload 64 48, bit d.payload 0) }) s)) := by
  have hranges : ranges [(64, true)] = none := rfl
  simp only [runUpdateActivate, hx, hown, halone, htick, Bool.false_and, Bool.not_false, Bool.and_self, hranges, Bool.false_eq_true,
    if_false] <;> rfl

theorem runUpdateActivate_refused {st : BitVec 16} (htick : atTickOk s (fld d.payload 64 48) = true)
    (href : activateRef x (bit d.payload 0) s = some st) : runUpdateActivate d s = .done st 0 s := by
  rw [runUpdateActivate_own hx hown halone htick, href]

/-- An activation now: its record is written. -/
theorem runUpdateActivate_now (hzero : fld d.payload 64 48 = 0) (href : activateRef x (bit d.payload 0) s = none)
    (himage : x.pkg = false) : runUpdateActivate d s =
      .wait (addJob { plainJob (.record (activation x (bit d.payload 0) (nextRecord s))) with
        sess := some 0, tell := some 0, reset := true, answer := some (stOk, 1) } (touch s)) := by
  rw [runUpdateActivate_own hx hown halone (by rw [hzero]; rfl), href]
  refine (if_pos (by rw [hzero]; rfl)).trans ?_
  rw [activationJobs, himage]
  rfl

/-- An activation at a later tick. -/
theorem runUpdateActivate_armed (hstage : s.boot.stage = .running) (hne : fld d.payload 64 48 ≠ 0)
    (htick : atTickOk s (fld d.payload 64 48) = true) (href : activateRef x (bit d.payload 0) s = none) : runUpdateActivate d s =
      .done stOk 1 (touch (onUpd (fun u => { u with armed := some (fld d.payload 64 48, bit d.payload 0) }) s)) := by
  rw [runUpdateActivate_own hx hown halone htick, href]
  exact if_neg (by rw [hstage, decide_eq_false hne]; decide)

end

theorem activateRef_congr {s t : State} (hflash : t.flash = s.flash) (hboot : t.boot = s.boot) (x : Session) (reset : Bool) :
    activateRef x reset t = activateRef x reset s :=
  congrArg₂ (fun f b => activateRef x reset { s with flash := f, boot := b }) hflash hboot

/-! ## UPDATE_CONFIRM, UPDATE_ABORT and UPDATE_PREEMPT -/

/-- CONFIRM of a trial. -/
theorem runUpdateConfirm_trial {d : Desc} {s : State} {r : BootRecord} (hr : nextRecord s = r) (h : r.state[activeOf r] = 3) :
    runUpdateConfirm d s = .wait (addJob
      { plainJob (.record { withState (activeOf r) 4 r with trials := 0, set := r.set.set (stagingOf r) r.set[activeOf r] }) with
        tell := some 0, answer := some (stOk, 0) } (onUpd (fun u => { u with trialLeft := none }) s)) := by
  subst hr
  exact if_neg (not_not.2 h)

theorem runUpdateConfirm_none {d : Desc} {s : State} {r : BootRecord} (hr : nextRecord s = r) (h : r.state[activeOf r] ≠ 3) :
    runUpdateConfirm d s = .done stImageState 0 s := by
  subst hr
  exact if_pos h

theorem runUpdateAbort_none {d : Desc} {s : State} (h : s.upd.session = none) : runUpdateAbort d s = .done stSessionState 0 s := by
  simp only [runUpdateAbort, h]

theorem runUpdateAbort_joined {d : Desc} {s : State} {x : Session} (hx : s.upd.session = some x) (hchain : x.chain = true)
    (hjoined : x.joined = true) : runUpdateAbort d s =
      .done stOk 0 (onUpd (fun u => { u with session := some { x with joined := false } }) s) := by
  simp only [runUpdateAbort, hx, hchain, hjoined, if_true]

theorem runUpdateAbort_own {d : Desc} {s : State} {x : Session} (hx : s.upd.session = some x) (hown : x.chain = false)
    (halone : x.scope = false) : runUpdateAbort d s = .wait (endSession 0 { plainJob .erase with answer := some (stOk, 0) } s) := by
  simp only [runUpdateAbort, hx, hown, halone, Bool.false_eq_true, if_false]

theorem runUpdatePreempt_early {d : Desc} {s : State} {x : Session} (hx : s.upd.session = some x) (hchain : x.chain = true)
    (hrecent : s.clk.now ≤ x.last + 2500000000) : runUpdatePreempt d s = .done stPreemptDenied 0 s := by
  simp only [runUpdatePreempt, hx, hchain, Bool.not_true, Bool.false_eq_true, if_false, hrecent, if_true]

theorem runUpdatePreempt_silent {d : Desc} {s : State} {x : Session} (hx : s.upd.session = some x) (hchain : x.chain = true)
    (hsilent : x.last + 2500000000 < s.clk.now) : runUpdatePreempt d s =
      .wait (endSession 1 { plainJob .erase with answer := some (stOk, 0) } (sendResp 0 stSessionBusy 0 s)) := by
  simp only [runUpdatePreempt, hx, hchain, Bool.not_true, Bool.false_eq_true, if_false, Nat.not_le.2 hsilent]

/-- The end of a session, by the record of the state before it. -/
theorem endSession_eq (cause : Nat) (j : FlashJob) {s : State} {e : BootRecord} (he : emptied s = e) : endSession cause j s =
    addJob { j with work := .record e, sess := some 0, tell := some cause }
      (onUpd (fun u => { u with armed := none, transit := [], held := none }) s) := by
  subst he
  rfl

theorem sendResp_outOnly (op : Nat) (st : BitVec 16) (result : Nat) (s : State) : OutOnly (sendResp op st result s) s := by
  unfold sendResp cwSend
  split
  · exact ⟨_, _, rfl⟩
  · exact outOnly_refl s

/-- Settles O9: activation, confirmation, abort and preemption write their records, or are refused. -/
theorem updateEndsTakeEffect : Obligations.UpdateEndsTakeEffect := by
  unfold Obligations.UpdateEndsTakeEffect
  intro d s hs
  have hf (op : Op) : Only [.safety, .queues, .bar2] (fetched op d s) s := fetched_only op d s
  have hempty (op : Op) : emptied (fetched op d s) = emptied s := emptied_congr ((hf op).same .flash rfl)
  have hnext (op : Op) : nextRecord (fetched op d s) = nextRecord s := nextRecord_congr ((hf op).same .flash rfl)
  have hsession (op : Op) : (fetched op d s).upd.session = s.upd.session := congrArg UpdDyn.session ((hf op).same .upd rfl)
  refine ⟨fun x ha hx hown halone => ?_, fun ha => ?_, fun ha => ?_, fun x ha hx hchain => ?_⟩
  · intro s1 reset t here
    have hx' : s1.upd.session = some x := (hsession _).trans hx
    have hclk : s1.clk = s.clk := fetched_clk ..
    have hrefs : activateRef x reset s1 = activateRef x reset s :=
      activateRef_congr ((hf .updateActivate).same .flash rfl) ((hf .updateActivate).same .boot rfl) x reset
    have htick (h : atTickOk s t = true) : atTickOk s1 t = true := by rw [atTickOk, hclk]; exact h
    refine ⟨fun st hok href => ?_, fun hzero href himage => ?_, fun hne hlo hhi href => ?_⟩
    · exact does_of_apart hs ha rfl (only_refl [] _) rfl
        (runUpdateActivate_refused hx' hown halone (htick hok) (hrefs.trans href))
    · have hrun := runUpdateActivate_now (d := d) hx' hown halone hzero (hrefs.trans href) himage
      rw [hnext, here_touch hx s1 (hsession _) hclk] at hrun
      exact starts_of_apart hs ha rfl (f := [.flash, .upd]) (only_step (addJob_only ..) rfl (only_mono (only_onUpd ..) rfl)) rfl hrun
    · have hok : atTickOk s t = true := by rw [atTickOk, decide_eq_true ⟨hlo, hhi⟩, Bool.or_true]
      have hstage : s1.boot.stage = .running := by
        obtain ⟨-, hrunning, -⟩ := id ha
        rw [(hf .updateActivate).same .boot rfl, hrunning]
      have hrun := runUpdateActivate_armed (d := d) hx' hown halone hstage hne (htick hok) (hrefs.trans href)
      rw [here_touch hx (onUpd (fun u => { u with armed := some (fld d.payload 64 48, bit d.payload 0) }) s1)
        (hsession .updateActivate) hclk] at hrun
      exact does_of_apart hs ha rfl (f := [.upd]) (only_step (only_onUpd ..) rfl (only_onUpd ..)) rfl hrun
  · intro s1 r
    refine ⟨fun hno => ?_, fun htrial => ?_⟩
    · exact does_of_apart hs ha rfl (only_refl [] _) rfl (runUpdateConfirm_none (d := d) (hnext _) hno)
    · exact starts_of_apart hs ha rfl (f := [.flash, .upd]) (only_step (addJob_only ..) rfl (only_mono (only_onUpd ..) rfl)) rfl
        (runUpdateConfirm_trial (d := d) (hnext _) htrial)
  · intro s1
    refine ⟨fun hnone => ?_, fun x hx hchain hjoined => ?_, fun x hx hown halone => ?_⟩
    · exact does_of_apart hs ha rfl (only_refl [] _) rfl (runUpdateAbort_none (d := d) ((hsession _).trans hnone))
    · exact does_of_apart hs ha rfl (only_onUpd ..) rfl (runUpdateAbort_joined (d := d) ((hsession _).trans hx) hchain hjoined)
    · have hrun := runUpdateAbort_own (d := d) ((hsession .updateAbort).trans hx) hown halone
      rw [endSession_eq 0 _ (hempty _)] at hrun
      exact starts_of_apart hs ha rfl (f := [.flash, .upd]) (only_step (addJob_only ..) rfl (only_mono (only_onUpd ..) rfl)) rfl hrun
  · intro s1
    have hx' : s1.upd.session = some x := (hsession _).trans hx
    have hclk : s1.clk = s.clk := fetched_clk ..
    refine ⟨fun hrecent => ?_, fun hsilent => ?_⟩
    · exact does_of_apart hs ha rfl (only_refl [] _) rfl (runUpdatePreempt_early (d := d) hx' hchain (by rw [hclk]; exact hrecent))
    · have hrun := runUpdatePreempt_silent (d := d) hx' hchain (by rw [hclk]; exact hsilent)
      have hanswer := sendResp_outOnly 0 stSessionBusy 0 s1
      have hsent : emptied (sendResp 0 stSessionBusy 0 s1) = emptied s :=
        (emptied_congr ((sendResp_only ..).same .flash rfl)).trans (hempty _)
      rw [endSession_eq 1 _ hsent] at hrun
      obtain ⟨t, ht, hagrees, hawaits⟩ := starts_of_apart (i := .updatePreempt d) hs ha rfl (f := [.flash, .upd, .out])
        (only_step (addJob_only ..) rfl (only_step (only_onUpd ..) rfl (only_mono (sendResp_only ..) rfl))) rfl hrun
      refine ⟨t, ht, agrees_trans hagrees ?_, hawaits⟩
      obtain ⟨o, z, hout⟩ := hanswer
      rw [hout]
      rfl

end Sys2Proof.Machine
